-- ==== Sys2Proof/Word.lean ====
section
/-! DEFINITION. The word types of the LMP-4840 and the sparse table that holds every numbered thing
(registers by bus address, memory by byte address, stalls by number): a list of key and value pairs in
ONE canonical form, keys rising strictly and no entry equal to what an unlisted key reads as. -/

namespace Sys2Proof

/-- A 32-bit register (R8). -/
abbrev Word := BitVec 32
/-- A byte. -/
abbrev Byte := BitVec 8
/-- A 64-bit little-endian field. -/
abbrev DWord := BitVec 64

/-- A sparse table: keys rising, defaults left out. -/
abbrev Tab (α : Type) := List (Nat × α)

namespace Tab

/-- The entry of key `k`; `d k` where none is listed. -/
def get {α : Type} (d : Nat → α) : Tab α → Nat → α
  | [], k => d k
  | (j, v) :: t, k => if j = k then v else get d t k

/-- Put `v` at key `k` before every larger key, without looking at the default. -/
def insert {α : Type} (k : Nat) (v : α) : Tab α → Tab α
  | [] => [(k, v)]
  | (j, w) :: t => if j < k then (j, w) :: insert k v t else if j = k then (k, v) :: t else (k, v) :: (j, w) :: t

/-- Take key `k` out. -/
def erase {α : Type} (k : Nat) (t : Tab α) : Tab α := t.filter fun e => e.1 != k

/-- Write `v` at key `k`; writing the default takes the entry out, so equal tables are equal data. -/
def set {α : Type} [DecidableEq α] (d : Nat → α) (t : Tab α) (k : Nat) (v : α) : Tab α :=
  if v = d k then erase k t else insert k v t

/-- Every key of the tail lies above `k`. -/
def above {α : Type} (k : Nat) (t : Tab α) : Bool := t.all fun e => decide (k < e.1)

/-- The canonical form. -/
def wf {α : Type} [DecidableEq α] (d : Nat → α) : Tab α → Bool
  | [] => true
  | (j, v) :: t => decide (v ≠ d j) && above j t && wf d t

end Tab

end Sys2Proof
end

