-- ==== Sys2Proof/Types.lean ====
section
/-! DEFINITION. The kinds of thing that commands carry and that the state holds: names of blocks, domains
and initiators, received frames, outcomes met by a unit. No meaning is given here. -/

namespace Sys2Proof

/-- A partition (R10), coded as OWNER.PLANE. -/
inductive Plane | control | data | management | keeper
deriving DecidableEq, Repr

/-- Who makes a register access (R92). `quay` is a critical command that passed the quay (R93). -/
inductive Initiator
  | mgmt | logic | dsq | keeper | quay
deriving DecidableEq, Repr

/-- A block with its own state machine (R106). -/
inductive Block
  | sys | pwr | clk | kpr | sec | nvm | evr | rtc | nsu | btk | dsq | lge | stl
  | stable (n : Fin 16) | eth (i : Fin 6) | ptp | cap | plk | can (n : Fin 12)
  | axs | dlk (n : Fin 8) | mtr | pnl | drm | gpio | pls
deriving DecidableEq, Repr

/-- A block's state while its domain is ON (R96); OFF is read from the domain. -/
inductive BState | stop | drain | run | fault
deriving DecidableEq, Repr

/-- A domain's state (R82). -/
inductive Dom | off | on | retain
deriving DecidableEq, Repr

/-- What an ECC read of one word or burst met (R37, R85, R171). -/
inductive Ecc | clean | corrected | uncorrectable
deriving DecidableEq, Repr

/-- What ends a job from outside it: an uncorrectable word it read, or a mismatch of a cluster's scalar units (R166, R172). -/
inductive JobErr
  | ecc (addr : Word)
  | hw (cluster : Fin 4)
deriving DecidableEq, Repr

/-- What a job meets while it runs. The interruption points of R224 that it passes are numbered in order from 0: the first point at
which its deadline has passed, the first at which a drain has begun, and the first before which an error struck; the words corrected
in what is read as it is taken (R171); whether the descriptor itself could not be corrected (R173). -/
structure JobCut where
  deadline : Option Nat := none
  drain    : Option Nat := none
  err      : Option (Nat × JobErr) := none
  fixed    : List Word := []
  descUe   : Bool := false
deriving DecidableEq, Repr

/-- End of a lane's known-answer test (R230). -/
inductive LaneEnd | pass | transient | failed
deriving DecidableEq, Repr

/-- How a forecast ended (R277, R282). -/
inductive FcEnd | done | deadline (steps : Fin 97) | aborted
deriving DecidableEq, Repr

/-- Bytes that an agent of the device or its firmware had stored beforehand at an address. -/
structure Store where
  addr : Nat
  data : List Byte
deriving DecidableEq, Repr

/-- The kind of pass or result (R284, R324). -/
inductive Kind | est | dsp
deriving DecidableEq, Repr

/-- What ends a keeper check other than its tests (R605, R606). -/
inductive CheckCut | none | readErr | katFail
deriving DecidableEq, Repr

/-- A store a logic core made into its own TCM during EXECUTE. -/
structure TcmStore where
  core : Fin 4
  ofs  : Fin 524288
  data : List Byte
deriving DecidableEq, Repr

/-- Source of a UDP datagram: Ethernet port, IP address (IPv4 mapped) and UDP port (R386). -/
structure NetAddr where
  eth  : Fin 6
  ip   : List Byte
  port : BitVec 16
deriving DecidableEq, Repr

/-- UDP checksum of a received datagram (R433). -/
inductive Cksum | good | zero | bad
deriving DecidableEq, Repr

/-- What a received Ethernet frame carries (R429, R433, R435). -/
inductive EthKind
  | ptp
  | udp (v6 : Bool) (dport : BitVec 16) (cks : Cksum) (frag opts : Bool)
  | arpReq (ours : Bool) | arpReply | neighSol (ours : Bool) | neighAdv
  | echo (bytes : Nat)
  | pause (quanta : BitVec 16)
  | other
deriving DecidableEq, Repr

/-- To whom a received frame is addressed. -/
inductive EthDst | own | broadcast | joined | foreign
deriving DecidableEq, Repr

/-- A received Ethernet frame, as the classifier sees it. `good` is FCS, code and length below the limit; `ring` is what the read of its
HOST descriptor in LPDDR5 meets (R85). -/
structure EthFrame where
  bytes : List Byte
  good  : Bool
  dst   : EthDst
  srcIp : List Byte
  srcMac : BitVec 48
  kind  : EthKind
  ring  : Ecc := .clean
deriving DecidableEq, Repr

/-- Queues of a port (R429). -/
inductive EthQueue | ptp | wit | lsx | host
deriving DecidableEq, Repr

/-- A frame has left a port: its queue, and for the HOST queue what the read of its bytes in LPDDR5 met (R85). -/
structure PortSent where
  queue : EthQueue
  ring  : Ecc := .clean
deriving DecidableEq, Repr

/-- A clock island that loses lock or, `back`, runs locked again (R61, R62). -/
structure LockChange where
  isl  : Fin 12
  back : Bool
deriving DecidableEq, Repr

/-- What the reads of a transport step met: a queue that could not be corrected (R280), and whether a word was corrected (R85). -/
structure QueueReads where
  bad       : Option Nat := none
  corrected : Bool := false
deriving DecidableEq, Repr

/-- A received CAN frame (R464). -/
structure CanFrame where
  id   : BitVec 29
  xtd  : Bool
  fdf  : Bool
  brs  : Bool
  esi  : Bool
  rtr  : Bool
  dlc  : BitVec 4
  data : List Byte
deriving DecidableEq, Repr

/-- How an attempt to send ended (R474). -/
inductive TxEnd | sent | lostArb | error (code : BitVec 4) (tecUp : BitVec 4)
deriving DecidableEq, Repr

/-- PTP times of an event message: origin, receipt and correction, in ns (R447, R448). -/
structure PtpTimes where
  origin : Nat
  rx     : Nat
  corr   : Int
deriving DecidableEq, Repr

/-- What an Announce brings: grandmaster identity, class, UTC offset, timeTraceable, and the port states
that the best master clock algorithm of IEEE 1588 then gives (R445, R446). -/
structure PtpAnnounce where
  gm     : BitVec 64
  cls    : Byte
  utc    : Word
  trace  : Bool
  states : List (BitVec 4)
deriving DecidableEq, Repr

/-- Header of a pair-link frame (R555). -/
structure PairHdr where
  proto   : Byte
  sideB   : Bool
  acting  : Bool
  fit     : Bool
  final   : Bool
  seq     : Word
  epoch   : Word
  lane    : Fin 2
deriving DecidableEq, Repr

/-- Heartbeat payload (R556). -/
structure Heartbeat where
  role      : Byte
  protoMax  : Byte
  contest   : Bool
  leaseHeld : Bool
  stValid   : Bool
  resync    : Bool
  cycle     : DWord
  reach     : BitVec 16
  progRev   : Word
  modelRev  : Word
  layout    : DWord
deriving DecidableEq, Repr

/-- STATE_END payload (R561). -/
structure StateEnd where
  cycle  : DWord
  base   : DWord
  tSnap  : DWord
  nPages : BitVec 16
  full   : Bool
  final  : Bool
  crc    : Word
  map    : List Nat
deriving DecidableEq, Repr

/-- Lease request payload (R578). -/
structure LeaseReq where
  id      : Word
  sideB   : Bool
  release : Bool
  ms      : Word
  epoch   : Word
deriving DecidableEq, Repr

/-- Lease answer payload (R578). -/
structure LeaseRsp where
  id      : Word
  granted : Bool
  holder  : Byte
  ms      : Word
  remain  : Word
deriving DecidableEq, Repr

/-- Who a lease exchange is with (R579). -/
inductive Peer | partner | witness
deriving DecidableEq, Repr

/-- An online change item (R376). -/
structure OcItem where
  sym : Word
  val : DWord
deriving DecidableEq, Repr

/-- A force item (R376). -/
structure ForceItem where
  op    : Byte
  width : Byte
  bit   : Byte
  addr  : Word
  val   : DWord
deriving DecidableEq, Repr

/-- A keeper-table segment (R592). -/
structure Segment where
  kind   : Byte
  flags  : Byte
  seg    : BitVec 16
  total  : Word
  digest : List Byte
  data   : List Byte
deriving DecidableEq, Repr

/-- A KEY_CHANGE payload (R625). -/
structure KeyChange where
  slotNo : Byte
  use    : Byte
  perms  : BitVec 16
  wkey   : List Byte
deriving DecidableEq, Repr

/-- A FW_UPDATE payload (R633). -/
structure FwBundle where
  kmask  : Byte
  addr   : DWord
  digest : List Byte
deriving DecidableEq, Repr

/-- How a firmware update ended (R634, R635). -/
inductive FwEnd | done | failed (stage : Fin 6) (check : Fin 6) | aborted
deriving DecidableEq, Repr

/-- Codes of event records: a number the spec gives, or one of the kinds whose number Eoldo publishes
apart from the spec, by the position of its name in the model (R643). -/
inductive RecCode
  | num (n : BitVec 16)
  | evt (k : Nat)
deriving DecidableEq, Repr

/-- A record on its way to the recorder (R641): `body` are its words after SRC, `facts` what it reports where the
body layout is published apart (R643). -/
structure Record where
  code  : RecCode
  sev   : BitVec 2
  plane : Plane
  src   : Word
  body  : List Word
  facts : List Word := []
deriving DecidableEq, Repr

/-- A matrix of the reduced dispatch model (R144): its array, its size and its entries (row, column, mantissa). -/
structure DspMat where
  arr  : Nat
  rows : Nat
  cols : Nat
  ents : List (Nat × Nat × Int)
deriving DecidableEq, Repr, Inhabited

/-- A delay channel (R145): the input it delays, and the array and the entries (row, mantissa) of its column b. -/
structure DelayCh where
  input : Nat
  arr   : Nat
  col   : List (Nat × Int)
deriving DecidableEq, Repr, Inhabited

/-- A quantity's declared range: array, lower and upper end as mantissas (R136). -/
structure RangeRec where
  arr : Nat
  lo  : Int
  hi  : Int
deriving DecidableEq, Repr, Inhabited

/-- What the DISPATCH section holds (R144, R145, R152): the matrices A to E, f with its array, the delay channels, the limited
outputs with their limits (R307), and the ranges of the host forecast columns w, then prices, then targets, and of the inputs (R136). -/
structure DspSect where
  a : DspMat
  b : DspMat
  c : DspMat
  d : DspMat
  e : DspMat
  fArr   : Nat
  f      : List Int
  delays : List DelayCh
  outLim : List (Nat × RangeRec)
  fc     : List RangeRec
  inputs : List RangeRec
deriving DecidableEq, Repr, Inhabited

end Sys2Proof
end

