-- ==== Sys2Proof/Syntax.lean ====
section
/-! DEFINITION. The commands of the block: one constructor for each row of the table of operations and
events. The table gives no operands; each constructor carries what its rule takes from outside. -/

namespace Sys2Proof

/-- One command. -/
inductive Instr
  -- Register pages and block states
  | plainRegWrite (who : Initiator) (addr val : Word) (wordAccess : Bool)
  | irqSet (who : Initiator) (page : Byte) (val : Word)
  | blockRunReq (who : Initiator) (b : Block)
  | blockStopReq (who : Initiator) (b : Block)
  | forceStop (who : Initiator) (b : Block)
  | faultClr (who : Initiator) (b : Block) (gone : Bool)
  | drainComplete (b : Block)
  | drainTimeout (b : Block)
  -- Power, reset and clock
  | powerOn
  | release (sideB : Bool) (bootmode : BitVec 2) (rails : BitVec 19) (pfwHigh : Bool)
  | pinReset
  | latePowerFail (itemsSaved : Fin 6)
  | coreBrownout
  | domainBrownout (rail : Fin 20)
  | tapReset
  | rstoutRelease
  | domReq (who : Initiator) (val : Word)
  | domReqKp (who : Initiator) (val : Word)
  | domTransitionDone (k : Fin 12)
  | penCheck (k : Fin 12) (rails : BitVec 19)
  | pwrCfgWrite (who : Initiator) (restart : Bool) (val : Word)
  | mgmtRst (who : Initiator) (val : Word)
  | mgmtReset
  | clkUnlock (l : LockChange)
  | clkCheckWindow (count : Word)
  | clkEdgeTimeout
  | pfwWarn
  | pfwLatch
  | outTorn
  | saveComplete
  | pfwClear
  | pfwRestart
  | pfwStartWait
  -- LPDDR5 controller
  | trainDone (failed : Option (Fin 2 × Fin 5))
  | drmRefresh (code : BitVec 4) (hot : Bool)
  | drmScrub (res : Ecc)
  -- Model load
  | modelLoad (who : Initiator) (image : List Byte)
  | modelCancel (who : Initiator)
  | modelValidated (read : Ecc)
  -- Network Solver Unit
  | jqTail (who : Initiator) (val : Word) (stores : List Store)
  | jqCfgWrite (who : Initiator) (size : Bool) (val : Word)
  | spmv (cut : JobCut)
  | spmvt (cut : JobCut)
  | dot (cut : JobCut)
  | axpy (cut : JobCut)
  | scale (cut : JobCut)
  | copy (cut : JobCut)
  | project (cut : JobCut)
  | remap (cut : JobCut)
  | fprint (cut : JobCut)
  | ic0 (cut : JobCut)
  | ildl0 (cut : JobCut)
  | pcg (cut : JobCut)
  | minres (cut : JobCut)
  | bicgstab (cut : JobCut)
  | pcgne (cut : JobCut)
  | newton (cut : JobCut)
  | jobEnd (i : Nat) (iterNs : Word) (fixed core : List Word)
  | laneTest (c : Fin 4)
  | laneTestDone (c : Fin 4) (res : LaneEnd)
  | yardScrub (res : Ecc)
  | lmapWrite (who : Initiator) (c : Fin 4) (hi : Bool) (val : Word)
  -- Barge Tracker
  | transportStep (r : QueueReads)
  | stepCommit (us : Word)
  | fcStart (who : Initiator) (stores : List Store)
  | fcCancel (who : Initiator)
  | forecastEnd (why : FcEnd)
  -- Estimation and dispatch
  | estPass
  | dspPass
  | dspNow (who : Initiator)
  | hydPass
  -- Keeper
  | keeperPoll
  | checkDone (kind : Kind) (cut : CheckCut) (us : Word)
  | planStep
  | nextDue (kind : Kind)
  | entryExpire (kind : Kind)
  | wdogTrip
  | emgAssert (i : Fin 4)
  | emgRelease (i : Fin 4)
  | lockstep
  | keeperTcmUe
  | keeperReset
  | slogIndex (who : Initiator) (val : Word)
  -- Logic engine
  | cycleSnapshot
  | executeDone (stores : List TcmStore) (us : List Word)
  | frameTaken
  | time (c : Fin 4)
  | cycle (c : Fin 4)
  | regRead (c : Fin 4) (addr : Word)
  | regWrite (c : Fin 4) (addr val : Word)
  | stallRead (c : Fin 4) (stall ofs len tcmOfs : Word)
  | event (c : Fin 4) (code d1 d2 : Word)
  | coreException (c : Fin 4) (mcause : Byte) (pc : Word)
  | tcmUe (c : Fin 4)
  | ldBegin (who : Initiator)
  | ldData (who : Initiator) (val : Word)
  | ldEnd (who : Initiator)
  | ldAbort (who : Initiator)
  | ftIndex (who : Initiator) (val : Word)
  -- Stalls
  | hello (src : NetAddr) (frame : List Byte)
  | helloAck (src : NetAddr) (frame : List Byte)
  | read (s : Fin 1024)
  | readRsp (src : NetAddr) (frame : List Byte)
  | replyHoldWait (s : Fin 1024)
  | readTimeout (s : Fin 1024)
  | writeAck (src : NetAddr) (frame : List Byte)
  | writeNak (src : NetAddr) (frame : List Byte)
  | writeTimeout (s : Fin 1024)
  | refresh (s : Fin 1024)
  -- Ethernet
  | ethRxFrame (i : Fin 6) (f : EthFrame)
  | ethTxDone (i : Fin 6) (e : PortSent)
  | linkChg (i : Fin 6) (up lock anDone remoteFault : Bool)
  | hqTxTail (who : Initiator) (i : Fin 6) (val : Word)
  | hqRxTail (who : Initiator) (i : Fin 6) (val : Word)
  | nbExpire (i : Fin 6) (ip : List Byte)
  | nbMiss (i : Fin 6) (ip : List Byte)
  -- Network time
  | timeNs (who : Initiator)
  | set (who : Initiator)
  | seconds (who : Initiator)
  | sync (port : Fin 6) (twoStep newGm : Bool) (t : PtpTimes) (incr : BitVec 40)
  | followUp (port : Fin 6) (t : PtpTimes) (incr : BitVec 40)
  | syncSend (port : Fin 6)
  | announce (port : Fin 6) (a : PtpAnnounce)
  | announceSend (port : Fin 6)
  | announceReceiptTimeout (port : Fin 6) (states : List (BitVec 4))
  | delayReq (port : Fin 6) (received : Bool)
  | delayResp (port : Fin 6) (delayNs : Word)
  | pdelayReq (port : Fin 6)
  | pdelayResp (port : Fin 6) (delayNs : Word)
  | management (port : Fin 6)
  | holdoverExpire
  | ppsIn (incr : BitVec 40)
  | ppsInLoss
  | ppsOut
  | ppsPulseEnd
  -- Capture
  | capEdge (ch : Fin 25) (rising : Bool) (close : Bool)
  | capTsNs (who : Initiator) (ch : Fin 25)
  | capTsSh (who : Initiator) (ch : Fin 25)
  -- CAN FD
  | canRxFrame (n : Fin 12) (f : CanFrame)
  | rxfLatch (who : Initiator) (n : Fin 12) (ofs : Byte)
  | rxfRelease (who : Initiator) (n : Fin 12)
  | txbReq (who : Initiator) (n : Fin 12) (b1 b2 : Bool)
  | txbAbort (who : Initiator) (n : Fin 12) (mask : BitVec 3)
  | recReq (who : Initiator) (n : Fin 12)
  | canArbitration (n : Fin 12)
  | canTxEnd (n : Fin 12) (res : TxEnd)
  | canBusError (n : Fin 12) (code : BitVec 4) (tecUp recUp : BitVec 4)
  | recoveryDone (n : Fin 12)
  | filterTimeout (n : Fin 12) (f : Fin 16)
  -- Valve axes
  | dlkFrame (n : Fin 8)
  | dlkReply (n : Fin 8) (d : Fin 16) (reply : List Byte)
  | reference (who : Initiator) (axis : Fin 128)
  | setPos (who : Initiator) (axis : Fin 128)
  | clear (who : Initiator) (axis : Fin 128)
  | halt (who : Initiator) (axis : Fin 128)
  | tholdExpire (axis : Fin 128)
  | replyLost (axis : Fin 128)
  | linkLoss (axis : Fin 128)
  -- Metering and pulses
  | mtrSample (y : List Int) (stuck : BitVec 48)
  | thermalTick
  | avgPeriodEnd
  | intervalEnd
  | totalLoRead (who : Initiator) (sel : Fin 128)
  | pulseTick
  | pulseWidthEnd (o : Fin 16)
  | resLoRead (who : Initiator) (o : Fin 16)
  | gpioInChg (g : Fin 16) (level : Bool)
  -- Duplex pair
  | heartbeatSend
  | heartbeat (h : PairHdr) (b : Heartbeat)
  | witnessHeartbeat (raw : List Byte)
  | pathSilent (witness : Bool)
  | laneDown (l : Fin 2)
  | statePage (h : PairHdr) (page : Fin 512) (data : List Byte)
  | stateEnd (h : PairHdr) (e : StateEnd)
  | stream (h : PairHdr) (chunk : Nat) (obj : Byte) (last : Bool) (gen : Word) (data : List Byte)
  | keeper (h : PairHdr) (chunk : Fin 3) (data : List Byte)
  | leaseReq (src : Peer) (r : LeaseReq)
  | leaseRsp (src : Peer) (r : LeaseRsp)
  | leaseRenew
  | leaseEnd
  | grantEnd
  | takeover
  | epochCommit
  | imageApplied
  | fenceCheck
  | contestEnd
  | standDownLimit
  | resolveEnd
  -- Security and critical commands
  | secRun
  | cmdBegin (who : Initiator)
  | cmdData (who : Initiator) (val : Word)
  | cmdSubmit (who : Initiator)
  | cmdAbort (who : Initiator)
  | commandDeliver (target : Word)
  | blockCtrl (target val : Word)
  | onlineChange (items : List OcItem)
  | force (items : List ForceItem)
  | safeValue (seg : Segment)
  | arm (seg : Segment)
  | logClear (slot : Byte) (counter archived : DWord)
  | keyChange (slot : Byte) (counter : DWord) (k : KeyChange)
  | fwUpdate (b : FwBundle) (bundle : List Byte)
  | fwUpdateDone (e : FwEnd)
  | switch
  | fwConfirm (who : Initiator) (val : Word)
  | extend2 (who : Initiator)
  | lock2 (who : Initiator)
  | quoteStart (who : Initiator)
  | quoteCert (who : Initiator)
  | quoteDone
  -- Event recorder
  | recordSubmit (r : Record)
  | recordStage (p : Plane)
  | flush
  | swSend (who : Initiator) (val : Word)
  | rdOfs (who : Initiator) (val : Word)
  | rlIndex (who : Initiator) (val : Word)
  -- Real-time clock
  | rtcSecond
  | wake
  | wakePeriod (who : Initiator) (val : Word)
  | timeRead (who : Initiator) (one : Bool)
  | time2Read (who : Initiator)
  | rdTimeout
  | commitGo (who : Initiator)
  | commitLoad
  | backupSwitch (toBat : Bool)
  | batLow (below : Bool)
  | retLost
  | trimWindow (lockedThroughout : Bool) (elapsedNs : Nat)
  -- Status panel
  | pnlFrame
  | railUpDone
  | railDownDone
  | railIdle
  | railFault (rail : Fin 4)
  | wfBegin (who : Initiator)
  | wfData (who : Initiator) (val : Word)
  | wfEnd (who : Initiator)
  | wfAbort (who : Initiator)
  | updGo (who : Initiator) (source : List Byte)
  | clearWf (who : Initiator)
  | fullClear (who : Initiator)
  | recovered
  -- Start-up and late rows
  | timeRecovered
  | restartGo (who : Initiator)
  | supplyReturn
  | pdelayReqSend (port : Fin 6)
  | laneUp (l : Fin 2)
  | leaseStartWait
deriving DecidableEq, Repr

end Sys2Proof
end

