-- ==== Sys2Proof/Decode.lean ====
section
/-! DEFINITION. Words that spell commands. The block takes its commands from outside: no row of the table of operations and events
gives bits, so no word spells one. -/

namespace Sys2Proof

/-- The command that a word of the table spells: none, for no row gives bits. -/
def decodeTableWord (_nbits _w : Nat) : Option Instr := none

end Sys2Proof
end

