-- ==== Sys2Proof/Machine/Addr.lean ====
section
/-! DEFINITION. Bus addresses of the registers (R106 and the register tables of the chapters), under the names of the
tables: `R.<PAGE>_<REGISTER>`, with the instance and the index as arguments where a register repeats (stall registers
take the stall number, axis registers the axis number). -/

namespace Sys2Proof.Machine

abbrev R.CLK_ISL_STAT : Nat := 0x40002800
abbrev R.PWR_PEN_DLY : Nat := 0x40001100
abbrev R.PWR_PFW_RESTART : Nat := 0x40001104
abbrev R.PWR_DOM_REQ : Nat := 0x40001800
abbrev R.PWR_DOM_REQ_KP : Nat := 0x40001804
abbrev R.PWR_DOM_STAT : Nat := 0x40001808
abbrev R.PWR_DOM_ERR : Nat := 0x4000180c
abbrev R.PWR_PFW_STAT : Nat := 0x40001810
abbrev R.PWR_SAVE_STAT : Nat := 0x40001814
abbrev R.PWR_SAVE_SEQ_LO : Nat := 0x40001818
abbrev R.PWR_SAVE_SEQ_HI : Nat := 0x4000181c
abbrev R.PWR_RST_CAUSE : Nat := 0x40001820
abbrev R.PWR_MGMT_RST : Nat := 0x40001824
abbrev R.PWR_RAIL_MON : Nat := 0x40001828
abbrev R.DRM_DRM_CFG : Nat := 0x400d0100
abbrev R.DRM_SCRUB_S : Nat := 0x400d0104
abbrev R.DRM_TRAIN_STAT : Nat := 0x400d0800
abbrev R.DRM_CE_COUNT : Nat := 0x400d0804
abbrev R.DRM_UE_COUNT : Nat := 0x400d0808
abbrev R.DRM_UE_ADDR_LO : Nat := 0x400d080c
abbrev R.DRM_UE_ADDR_HI : Nat := 0x400d0810
abbrev R.DRM_REFRESH : Nat := 0x400d0814
abbrev R.DRM_SCRUB_POS_LO : Nat := 0x400d0818
abbrev R.DRM_SCRUB_POS_HI : Nat := 0x400d081c
abbrev R.DSQ_MODEL_ADDR_LO : Nat := 0x40039880
abbrev R.DSQ_MODEL_ADDR_HI : Nat := 0x40039884
abbrev R.DSQ_MODEL_LEN : Nat := 0x40039888
abbrev R.DSQ_MODEL_CMD : Nat := 0x4003988c
abbrev R.DSQ_MODEL_STAT : Nat := 0x40039890
abbrev R.DSQ_MODEL_ACT_ID : Nat := 0x40039894
abbrev R.DSQ_MODEL_ACT_REV : Nat := 0x40039898
abbrev R.DSQ_MODEL_PEND_REV : Nat := 0x4003989c
abbrev R.NSU_CLUSTER_EN : Nat := 0x40030100
abbrev R.NSU_TIME_NS : Nat := 0x40030800
abbrev R.NSU_TIME_S : Nat := 0x40030804
abbrev R.NSU_ACTIVE : Nat := 0x40030808
abbrev R.NSU_LANE_FAILS : Nat := 0x4003080c
abbrev R.NSU_LF_LANE : Nat := 0x40030810
abbrev R.NSU_LF_WIN_NS : Nat := 0x40030814
abbrev R.NSU_LF_WIN_S : Nat := 0x40030818
abbrev R.NSU_JOB_ERRS : Nat := 0x4003081c
abbrev R.NSUC_STAT (n : Nat) : Nat := 0x40031800 + 0x1000 * n
abbrev R.NSUC_JOB_TAG (n : Nat) : Nat := 0x40031804 + 0x1000 * n
abbrev R.NSUC_TESTS (n : Nat) : Nat := 0x40031808 + 0x1000 * n
abbrev R.NSUC_TRANSIENTS (n : Nat) : Nat := 0x4003180c + 0x1000 * n
abbrev R.NSUC_BUSY_LO (n : Nat) : Nat := 0x40031810 + 0x1000 * n
abbrev R.NSUC_BUSY_HI (n : Nat) : Nat := 0x40031814 + 0x1000 * n
abbrev R.YRD_YRD_SCRUB : Nat := 0x40035100
abbrev R.YRD_YRD_CE_COUNT : Nat := 0x40035800
abbrev R.YRD_YRD_UE_COUNT : Nat := 0x40035804
abbrev R.YRD_YRD_UE_ADDR : Nat := 0x40035808
abbrev R.YRD_YRD_CE_BANKS_LO : Nat := 0x4003580c
abbrev R.YRD_YRD_CE_BANKS_HI : Nat := 0x40035810
abbrev R.YRD_YRD_SCRUB_POS : Nat := 0x40035814
abbrev R.JQ_JQ_BASE : Nat := 0x40036100
abbrev R.JQ_JQ_SIZE : Nat := 0x40036104
abbrev R.JQ_JQ_HEAD : Nat := 0x40036800
abbrev R.JQ_JQ_TAIL : Nat := 0x40036804
abbrev R.JQ_JQ_DONE : Nat := 0x40036808
abbrev R.JQ_JQ_LAST_TAG : Nat := 0x4003680c
abbrev R.JQ_JQ_LAST_OUT : Nat := 0x40036810
abbrev R.JQ_JQ_REJ : Nat := 0x40036814
abbrev R.NSUL_LMAP_LO (i : Nat) : Nat := 0x40037100 + 8 * i
abbrev R.NSUL_LMAP_HI (i : Nat) : Nat := 0x40037104 + 8 * i
abbrev R.NSUL_LRET_LO (i : Nat) : Nat := 0x40037800 + 8 * i
abbrev R.NSUL_LRET_HI (i : Nat) : Nat := 0x40037804 + 8 * i
abbrev R.NSUL_LMAP_CHANGED : Nat := 0x40037840
abbrev R.BTK_STEP_MS : Nat := 0x40038100
abbrev R.BTK_STORE_ADDR_LO : Nat := 0x40038104
abbrev R.BTK_STORE_ADDR_HI : Nat := 0x40038108
abbrev R.BTK_STORE_LEN : Nat := 0x4003810c
abbrev R.BTK_STATE_ADDR : Nat := 0x40038110
abbrev R.BTK_FLOW_ADDR : Nat := 0x40038114
abbrev R.BTK_OUT_ADDR : Nat := 0x40038118
abbrev R.BTK_FLOW_AGE_MAX : Nat := 0x4003811c
abbrev R.BTK_FC_SUB : Nat := 0x40038120
abbrev R.BTK_MIN_MASS : Nat := 0x40038124
abbrev R.BTK_SEED_SRC : Nat := 0x40038128
abbrev R.BTK_STEP_GEN : Nat := 0x40038800
abbrev R.BTK_STEP_T_NS : Nat := 0x40038804
abbrev R.BTK_STEP_T_S : Nat := 0x40038808
abbrev R.BTK_STEP_STAT : Nat := 0x4003880c
abbrev R.BTK_STEP_US : Nat := 0x40038810
abbrev R.BTK_SKIPS : Nat := 0x40038814
abbrev R.BTK_OVERRUNS : Nat := 0x40038818
abbrev R.BTK_MERGES : Nat := 0x4003881c
abbrev R.BTK_LIVE : Nat := 0x40038820
abbrev R.BTK_SEEDED : Nat := 0x40038824
abbrev R.BTK_FLOW_BAD : Nat := 0x40038828
abbrev R.BTK_TG_OFFSET : Nat := 0x4003882c
abbrev R.BTK_FC_ADDR : Nat := 0x40038830
abbrev R.BTK_FC_CMD : Nat := 0x40038834
abbrev R.BTK_FC_STAT : Nat := 0x40038838
abbrev R.BTK_STATE_LEN : Nat := 0x4003883c
abbrev R.DSQ_EST_PERIOD_MS : Nat := 0x40039100
abbrev R.DSQ_EST_DEADLINE_MS : Nat := 0x40039104
abbrev R.DSQ_DSP_PERIOD_S : Nat := 0x40039108
abbrev R.DSQ_DSP_DEADLINE_S : Nat := 0x4003910c
abbrev R.DSQ_MEAS_AGE_MAX_MS : Nat := 0x40039110
abbrev R.DSQ_CL_GROUPS : Nat := 0x40039114
abbrev R.DSQ_WORK_BASE : Nat := 0x40039118
abbrev R.DSQ_WORK_LEN : Nat := 0x4003911c
abbrev R.DSQ_FC_IN_ADDR_LO : Nat := 0x40039120
abbrev R.DSQ_FC_IN_ADDR_HI : Nat := 0x40039124
abbrev R.DSQ_FC_IN_LEN : Nat := 0x40039128
abbrev R.DSQ_PASS_STAT : Nat := 0x40039800
abbrev R.DSQ_EST_TAG : Nat := 0x40039804
abbrev R.DSQ_EST_LAST : Nat := 0x40039808
abbrev R.DSQ_EST_US : Nat := 0x4003980c
abbrev R.DSQ_DSP_TAG : Nat := 0x40039810
abbrev R.DSQ_DSP_LAST : Nat := 0x40039814
abbrev R.DSQ_DSP_MS : Nat := 0x40039818
abbrev R.DSQ_DSP_ITERS : Nat := 0x4003981c
abbrev R.DSQ_ISO_COUNT : Nat := 0x40039820
abbrev R.DSQ_BAD_HELD : Nat := 0x40039824
abbrev R.DSQ_SKIPS : Nat := 0x40039828
abbrev R.DSQ_ECHO_GEN : Nat := 0x4003982c
abbrev R.DSQ_FC_IN_GEN : Nat := 0x40039830
abbrev R.DSQ_CMD : Nat := 0x40039840
abbrev R.LGE_CYCLE_MIN_US : Nat := 0x40040100
abbrev R.LGE_START_MODE : Nat := 0x40040104
abbrev R.LGE_CYCLE_LO : Nat := 0x40040800
abbrev R.LGE_CYCLE_HI : Nat := 0x40040804
abbrev R.LGE_LAST_US : Nat := 0x40040808
abbrev R.LGE_MAX_US : Nat := 0x4004080c
abbrev R.LGE_PHASE : Nat := 0x40040810
abbrev R.LGE_IMG_STAT : Nat := 0x40040814
abbrev R.LGE_PROG_ID : Nat := 0x40040818
abbrev R.LGE_PROG_REV : Nat := 0x4004081c
abbrev R.LGE_CHANGES : Nat := 0x40040820
abbrev R.LGE_FORCES : Nat := 0x40040824
abbrev R.LGE_PUB_SKIPS : Nat := 0x40040828
abbrev R.LGE_SC_FAIL : Nat := 0x4004082c
abbrev R.LGE_EXC_CORE : Nat := 0x40040830
abbrev R.LGE_EXC_PC : Nat := 0x40040834
abbrev R.LGE_LD_CTRL : Nat := 0x40041800
abbrev R.LGE_LD_DATA : Nat := 0x40041804
abbrev R.LGE_LD_STAT : Nat := 0x40041808
abbrev R.LGE_LD_COUNT : Nat := 0x4004180c
abbrev R.LGE_FT_INDEX : Nat := 0x40042800
abbrev R.LGE_FT_ADDR : Nat := 0x40042804
abbrev R.LGE_FT_VAL_LO : Nat := 0x40042808
abbrev R.LGE_FT_VAL_HI : Nat := 0x4004280c
abbrev R.LGE_FC_LAST : Nat := 0x40042810
abbrev R.LGE_OC_LAST : Nat := 0x40042814
abbrev R.LGE_OC_CYCLE_LO : Nat := 0x40042818
abbrev R.LGE_OC_CYCLE_HI : Nat := 0x4004281c
abbrev R.LGEC_STAT (i : Nat) : Nat := 0x40043800 + 16 * i
abbrev R.LGEC_EXEC_US (i : Nat) : Nat := 0x40043804 + 16 * i
abbrev R.LGEC_MAX_US (i : Nat) : Nat := 0x40043808 + 16 * i
abbrev R.LGEC_TCM_CE (i : Nat) : Nat := 0x4004380c + 16 * i
abbrev R.STL_LSX_PORT : Nat := 0x40050100
abbrev R.STL_BOUND : Nat := 0x40050800
abbrev R.STL_STALE_N : Nat := 0x40050804
abbrev R.STL_REACH : Nat := 0x40050808
abbrev R.STL_RX_UNKNOWN : Nat := 0x4005080c
abbrev R.STL_RX_DROP : Nat := 0x40050810
abbrev R.STL_CLOCK_AHEAD : Nat := 0x40050814
abbrev R.STL_MAP_OOR : Nat := 0x40050818
abbrev R.STL_V1_N : Nat := 0x4005081c
abbrev R.STB_UID_LO (s : Nat) : Nat := 0x40060100 + 0x1000 * (s / 64) + 24 * (s % 64)
abbrev R.STB_UID_HI (s : Nat) : Nat := 0x40060104 + 0x1000 * (s / 64) + 24 * (s % 64)
abbrev R.STB_CFG0 (s : Nat) : Nat := 0x40060108 + 0x1000 * (s / 64) + 24 * (s % 64)
abbrev R.STB_CFG1 (s : Nat) : Nat := 0x4006010c + 0x1000 * (s / 64) + 24 * (s % 64)
abbrev R.STB_CFG2 (s : Nat) : Nat := 0x40060110 + 0x1000 * (s / 64) + 24 * (s % 64)
abbrev R.STB_CFG3 (s : Nat) : Nat := 0x40060114 + 0x1000 * (s / 64) + 24 * (s % 64)
abbrev R.STB_KEY_SLOT (n : Nat) : Nat := 0x40060700 + 0x1000 * n
abbrev R.STB_PORTS (n : Nat) : Nat := 0x40060704 + 0x1000 * n
abbrev R.STB_QUAL (s : Nat) : Nat := 0x40060800 + 0x1000 * (s / 64) + 32 * (s % 64)
abbrev R.STB_SEQ_LO (s : Nat) : Nat := 0x40060804 + 0x1000 * (s / 64) + 32 * (s % 64)
abbrev R.STB_SEQ_HI (s : Nat) : Nat := 0x40060808 + 0x1000 * (s / 64) + 32 * (s % 64)
abbrev R.STB_EPOCH (s : Nat) : Nat := 0x4006080c + 0x1000 * (s / 64) + 32 * (s % 64)
abbrev R.STB_ACK_LO (s : Nat) : Nat := 0x40060810 + 0x1000 * (s / 64) + 32 * (s % 64)
abbrev R.STB_ACK_HI (s : Nat) : Nat := 0x40060814 + 0x1000 * (s / 64) + 32 * (s % 64)
abbrev R.STB_TOUT (s : Nat) : Nat := 0x40060818 + 0x1000 * (s / 64) + 32 * (s % 64)
abbrev R.STB_ERRS (s : Nat) : Nat := 0x4006081c + 0x1000 * (s / 64) + 32 * (s % 64)
abbrev R.ETH_MODE (n : Nat) : Nat := 0x40070100 + 0x1000 * n
abbrev R.ETH_MAC_LO (n : Nat) : Nat := 0x40070104 + 0x1000 * n
abbrev R.ETH_MAC_HI (n : Nat) : Nat := 0x40070108 + 0x1000 * n
abbrev R.ETH_VLAN (n : Nat) : Nat := 0x4007010c + 0x1000 * n
abbrev R.ETH_IP6_ADDR (n i : Nat) : Nat := 0x40070110 + 0x1000 * n + 4 * i
abbrev R.ETH_IP6_PLEN (n : Nat) : Nat := 0x40070120 + 0x1000 * n
abbrev R.ETH_IP6_GW (n i : Nat) : Nat := 0x40070124 + 0x1000 * n + 4 * i
abbrev R.ETH_IP4_ADDR (n : Nat) : Nat := 0x40070134 + 0x1000 * n
abbrev R.ETH_IP4_PLEN (n : Nat) : Nat := 0x40070138 + 0x1000 * n
abbrev R.ETH_IP4_GW (n : Nat) : Nat := 0x4007013c + 0x1000 * n
abbrev R.ETH_CLS_LSX (n : Nat) : Nat := 0x40070140 + 0x1000 * n
abbrev R.ETH_CLS_WIT (n : Nat) : Nat := 0x40070144 + 0x1000 * n
abbrev R.ETH_TX_LAT_NS (n : Nat) : Nat := 0x40070148 + 0x1000 * n
abbrev R.ETH_RX_LAT_NS (n : Nat) : Nat := 0x4007014c + 0x1000 * n
abbrev R.ETH_HQ_BASE_LO (n : Nat) : Nat := 0x40070150 + 0x1000 * n
abbrev R.ETH_HQ_BASE_HI (n : Nat) : Nat := 0x40070154 + 0x1000 * n
abbrev R.ETH_HQ_SIZE (n : Nat) : Nat := 0x40070158 + 0x1000 * n
abbrev R.ETH_LINK (n : Nat) : Nat := 0x40070800 + 0x1000 * n
abbrev R.ETH_HQ_RX_HEAD (n : Nat) : Nat := 0x40070804 + 0x1000 * n
abbrev R.ETH_HQ_RX_TAIL (n : Nat) : Nat := 0x40070808 + 0x1000 * n
abbrev R.ETH_HQ_TX_HEAD (n : Nat) : Nat := 0x4007080c + 0x1000 * n
abbrev R.ETH_HQ_TX_TAIL (n : Nat) : Nat := 0x40070810 + 0x1000 * n
abbrev R.ETH_RX_FRAMES (n : Nat) : Nat := 0x40070814 + 0x1000 * n
abbrev R.ETH_RX_ERR (n : Nat) : Nat := 0x40070818 + 0x1000 * n
abbrev R.ETH_TX_FRAMES (n : Nat) : Nat := 0x4007081c + 0x1000 * n
abbrev R.ETH_DROP_CTL (n : Nat) : Nat := 0x40070820 + 0x1000 * n
abbrev R.ETH_DROP_HOST (n : Nat) : Nat := 0x40070824 + 0x1000 * n
abbrev R.ETH_RX_DROP (n : Nat) : Nat := 0x40070828 + 0x1000 * n
abbrev R.ETH_NB_MISS (n : Nat) : Nat := 0x4007082c + 0x1000 * n
abbrev R.PTP_CFG : Nat := 0x40078100
abbrev R.PTP_DOMAIN : Nat := 0x40078104
abbrev R.PTP_CLOCK : Nat := 0x40078108
abbrev R.PTP_INTERVALS : Nat := 0x4007810c
abbrev R.PTP_LOCK_NS : Nat := 0x40078110
abbrev R.PTP_HOLDOVER_S : Nat := 0x40078114
abbrev R.PTP_STEP_NS : Nat := 0x40078118
abbrev R.PTP_PPS_CFG : Nat := 0x4007811c
abbrev R.PTP_PPS_WIDTH_US : Nat := 0x40078120
abbrev R.PTP_PPS_OFS_NS : Nat := 0x40078124
abbrev R.PTP_CLK10M_CFG : Nat := 0x40078128
abbrev R.PTP_UTC_OFFSET : Nat := 0x4007812c
abbrev R.PTP_TIME_NS : Nat := 0x40078800
abbrev R.PTP_TIME_S_LO : Nat := 0x40078804
abbrev R.PTP_TIME_S_HI : Nat := 0x40078808
abbrev R.PTP_INCR_LO : Nat := 0x4007880c
abbrev R.PTP_INCR_HI : Nat := 0x40078810
abbrev R.PTP_STEP_EN : Nat := 0x40078814
abbrev R.PTP_SET_NS : Nat := 0x40078818
abbrev R.PTP_SET_S_LO : Nat := 0x4007881c
abbrev R.PTP_SET_S_HI : Nat := 0x40078820
abbrev R.PTP_TCMD : Nat := 0x40078824
abbrev R.PTP_SERVO_STAT : Nat := 0x40078828
abbrev R.PTP_OFFSET_NS : Nat := 0x4007882c
abbrev R.PTP_MPD_NS : Nat := 0x40078830
abbrev R.PTP_FREQ_PPB : Nat := 0x40078834
abbrev R.PTP_PORT_STATE : Nat := 0x40078838
abbrev R.PTP_GM_ID_LO : Nat := 0x4007883c
abbrev R.PTP_GM_ID_HI : Nat := 0x40078840
abbrev R.PTP_STEPS : Nat := 0x40078844
abbrev R.PTP_UTC_OFS_RX : Nat := 0x40078848
abbrev R.PTP_TIME_FRAC : Nat := 0x4007884c
abbrev R.CAP_CFG (i : Nat) : Nat := 0x40079100 + 4 * i
abbrev R.CAP_TS_NS (i : Nat) : Nat := 0x40079800 + 16 * i
abbrev R.CAP_TS_S (i : Nat) : Nat := 0x40079804 + 16 * i
abbrev R.CAP_TS_SH (i : Nat) : Nat := 0x40079808 + 16 * i
abbrev R.CAP_CNT (i : Nat) : Nat := 0x4007980c + 16 * i
abbrev R.CAP_OVF : Nat := 0x40079990
abbrev R.CAN_MODE (n : Nat) : Nat := 0x40090100 + 0x1000 * n
abbrev R.CAN_NBTP (n : Nat) : Nat := 0x40090104 + 0x1000 * n
abbrev R.CAN_DBTP (n : Nat) : Nat := 0x40090108 + 0x1000 * n
abbrev R.CAN_TDC (n : Nat) : Nat := 0x4009010c + 0x1000 * n
abbrev R.CAN_RX_CFG (n : Nat) : Nat := 0x40090110 + 0x1000 * n
abbrev R.CAN_FLT_ID (n i : Nat) : Nat := 0x40090140 + 0x1000 * n + 12 * i
abbrev R.CAN_FLT_MASK (n i : Nat) : Nat := 0x40090144 + 0x1000 * n + 12 * i
abbrev R.CAN_FLT_CFG (n i : Nat) : Nat := 0x40090148 + 0x1000 * n + 12 * i
abbrev R.CAN_TXO_ID (n i : Nat) : Nat := 0x40090200 + 0x1000 * n + 8 * i
abbrev R.CAN_TXO_CFG (n i : Nat) : Nat := 0x40090204 + 0x1000 * n + 8 * i
abbrev R.CAN_ERR (n : Nat) : Nat := 0x40090800 + 0x1000 * n
abbrev R.CAN_TXB_STAT (n : Nat) : Nat := 0x40090804 + 0x1000 * n
abbrev R.CAN_TXB_CMD (n : Nat) : Nat := 0x40090808 + 0x1000 * n
abbrev R.CAN_REC_CNT (n : Nat) : Nat := 0x4009080c + 0x1000 * n
abbrev R.CAN_TDC_MEAS (n : Nat) : Nat := 0x40090810 + 0x1000 * n
abbrev R.CAN_TXB_ID (n i : Nat) : Nat := 0x40090840 + 0x1000 * n + 80 * i
abbrev R.CAN_TXB_CTL (n i : Nat) : Nat := 0x40090844 + 0x1000 * n + 80 * i
abbrev R.CAN_TXB_D (n i j : Nat) : Nat := 0x40090848 + 0x1000 * n + 80 * i + 4 * j
abbrev R.CAN_RXF_ID (n : Nat) : Nat := 0x40090940 + 0x1000 * n
abbrev R.CAN_RXF_CTL (n : Nat) : Nat := 0x40090944 + 0x1000 * n
abbrev R.CAN_RXF_TS_NS (n : Nat) : Nat := 0x40090948 + 0x1000 * n
abbrev R.CAN_RXF_TS_S (n : Nat) : Nat := 0x4009094c + 0x1000 * n
abbrev R.CAN_RXF_D (n i : Nat) : Nat := 0x40090950 + 0x1000 * n + 4 * i
abbrev R.CAN_RXF_LEVEL (n : Nat) : Nat := 0x400909a0 + 0x1000 * n
abbrev R.CAN_RX_FRAMES (n : Nat) : Nat := 0x400909a4 + 0x1000 * n
abbrev R.CAN_TX_FRAMES (n : Nat) : Nat := 0x400909a8 + 0x1000 * n
abbrev R.CAN_RX_OVF (n : Nat) : Nat := 0x400909ac + 0x1000 * n
abbrev R.CAN_TX_WR_DROP (n : Nat) : Nat := 0x400909b0 + 0x1000 * n
abbrev R.CAN_RX_DROP (n : Nat) : Nat := 0x400909b4 + 0x1000 * n
abbrev R.CAN_PEX (n : Nat) : Nat := 0x400909b8 + 0x1000 * n
abbrev R.CAN_BUSOFFS (n : Nat) : Nat := 0x400909bc + 0x1000 * n
abbrev R.AXS_PRF_VSTART (i : Nat) : Nat := 0x400a0100 + 48 * i
abbrev R.AXS_PRF_V1 (i : Nat) : Nat := 0x400a0104 + 48 * i
abbrev R.AXS_PRF_VMAX (i : Nat) : Nat := 0x400a0108 + 48 * i
abbrev R.AXS_PRF_VSTOP (i : Nat) : Nat := 0x400a010c + 48 * i
abbrev R.AXS_PRF_A1 (i : Nat) : Nat := 0x400a0110 + 48 * i
abbrev R.AXS_PRF_A2 (i : Nat) : Nat := 0x400a0114 + 48 * i
abbrev R.AXS_PRF_D2 (i : Nat) : Nat := 0x400a0118 + 48 * i
abbrev R.AXS_PRF_D1 (i : Nat) : Nat := 0x400a011c + 48 * i
abbrev R.AXS_PRF_RES (i : Nat) : Nat := 0x400a0120 + 48 * i
abbrev R.AXS_PRF_CUR (i : Nat) : Nat := 0x400a0124 + 48 * i
abbrev R.AXS_CMD : Nat := 0x400a0800
abbrev R.AXS_CMD_ARG : Nat := 0x400a0804
abbrev R.AXS_CMD_STAT : Nat := 0x400a0808
abbrev R.AXS_MOVING (i : Nat) : Nat := 0x400a0810 + 4 * i
abbrev R.AXS_STALLED (i : Nat) : Nat := 0x400a0820 + 4 * i
abbrev R.AXS_UNREF (i : Nat) : Nat := 0x400a0830 + 4 * i
abbrev R.DLK_LINK_CFG (n : Nat) : Nat := 0x400a1100 + 0x1000 * n
abbrev R.DLK_CFG (a : Nat) : Nat := 0x400a1120 + 0x1000 * (a / 16) + 32 * (a % 16)
abbrev R.DLK_POS_MIN (a : Nat) : Nat := 0x400a1124 + 0x1000 * (a / 16) + 32 * (a % 16)
abbrev R.DLK_POS_MAX (a : Nat) : Nat := 0x400a1128 + 0x1000 * (a / 16) + 32 * (a % 16)
abbrev R.DLK_OPEN_POS (a : Nat) : Nat := 0x400a112c + 0x1000 * (a / 16) + 32 * (a % 16)
abbrev R.DLK_REF_POS (a : Nat) : Nat := 0x400a1130 + 0x1000 * (a / 16) + 32 * (a % 16)
abbrev R.DLK_ENC (a : Nat) : Nat := 0x400a1134 + 0x1000 * (a / 16) + 32 * (a % 16)
abbrev R.DLK_DEV (a : Nat) : Nat := 0x400a1138 + 0x1000 * (a / 16) + 32 * (a % 16)
abbrev R.DLK_STAT (a : Nat) : Nat := 0x400a1800 + 0x1000 * (a / 16) + 32 * (a % 16)
abbrev R.DLK_POS (a : Nat) : Nat := 0x400a1804 + 0x1000 * (a / 16) + 32 * (a % 16)
abbrev R.DLK_TARGET (a : Nat) : Nat := 0x400a1808 + 0x1000 * (a / 16) + 32 * (a % 16)
abbrev R.DLK_SPEED (a : Nat) : Nat := 0x400a180c + 0x1000 * (a / 16) + 32 * (a % 16)
abbrev R.DLK_ENCPOS (a : Nat) : Nat := 0x400a1810 + 0x1000 * (a / 16) + 32 * (a % 16)
abbrev R.DLK_DEVNOW (a : Nat) : Nat := 0x400a1814 + 0x1000 * (a / 16) + 32 * (a % 16)
abbrev R.DLK_DRV (a : Nat) : Nat := 0x400a1818 + 0x1000 * (a / 16) + 32 * (a % 16)
abbrev R.DLK_ERRS (a : Nat) : Nat := 0x400a181c + 0x1000 * (a / 16) + 32 * (a % 16)
abbrev R.DLK_FRAMES (n : Nat) : Nat := 0x400a1a00 + 0x1000 * n
abbrev R.DLK_RX_MISS (n : Nat) : Nat := 0x400a1a04 + 0x1000 * n
abbrev R.DLK_NOT_OBEYED (n : Nat) : Nat := 0x400a1a08 + 0x1000 * n
abbrev R.MTR_MCLK_CFG : Nat := 0x400b0100
abbrev R.MTR_CIR_EN : Nat := 0x400b0104
abbrev R.MTR_AVG_MS : Nat := 0x400b0108
abbrev R.MTR_INT_S : Nat := 0x400b010c
abbrev R.MTR_TH_EN : Nat := 0x400b0110
abbrev R.MTR_IN_OFS (i : Nat) : Nat := 0x400b0140 + 8 * i
abbrev R.MTR_IN_K (i : Nat) : Nat := 0x400b0144 + 8 * i
abbrev R.MTR_TH_CFG (i : Nat) : Nat := 0x400b0300 + 32 * i
abbrev R.MTR_TH_Q_SRC (i : Nat) : Nat := 0x400b0304 + 32 * i
abbrev R.MTR_TH_Q_LSB (i : Nat) : Nat := 0x400b0308 + 32 * i
abbrev R.MTR_TH_TS_SRC (i : Nat) : Nat := 0x400b030c + 32 * i
abbrev R.MTR_TH_TR_SRC (i : Nat) : Nat := 0x400b0310 + 32 * i
abbrev R.MTR_TH_T_LSB (i : Nat) : Nat := 0x400b0314 + 32 * i
abbrev R.MTR_TH_P_PA (i : Nat) : Nat := 0x400b0318 + 32 * i
abbrev R.MTR_C_IMP_LO (i j : Nat) : Nat := 0x400b0800 + 64 * i + 16 * j
abbrev R.MTR_C_IMP_HI (i j : Nat) : Nat := 0x400b0804 + 64 * i + 16 * j
abbrev R.MTR_C_EXP_LO (i j : Nat) : Nat := 0x400b0808 + 64 * i + 16 * j
abbrev R.MTR_C_EXP_HI (i j : Nat) : Nat := 0x400b080c + 64 * i + 16 * j
abbrev R.MTR_TH_IMP_LO (i : Nat) : Nat := 0x400b0a00 + 16 * i
abbrev R.MTR_TH_IMP_HI (i : Nat) : Nat := 0x400b0a04 + 16 * i
abbrev R.MTR_TH_EXP_LO (i : Nat) : Nat := 0x400b0a08 + 16 * i
abbrev R.MTR_TH_EXP_HI (i : Nat) : Nat := 0x400b0a0c + 16 * i
abbrev R.MTR_INT_NO : Nat := 0x400b0c00
abbrev R.MTR_C_INT_IMP_LO (i : Nat) : Nat := 0x400b0c08 + 32 * i
abbrev R.MTR_C_INT_IMP_HI (i : Nat) : Nat := 0x400b0c0c + 32 * i
abbrev R.MTR_C_INT_EXP_LO (i : Nat) : Nat := 0x400b0c10 + 32 * i
abbrev R.MTR_C_INT_EXP_HI (i : Nat) : Nat := 0x400b0c14 + 32 * i
abbrev R.MTR_C_INT_FLAGS (i : Nat) : Nat := 0x400b0c18 + 32 * i
abbrev R.MTR_C_FAULT_MS (i : Nat) : Nat := 0x400b0c1c + 32 * i
abbrev R.MTR_TH_INT_IMP_LO (i : Nat) : Nat := 0x400b0d08 + 16 * i
abbrev R.MTR_TH_INT_IMP_HI (i : Nat) : Nat := 0x400b0d0c + 16 * i
abbrev R.MTR_TH_INT_EXP_LO (i : Nat) : Nat := 0x400b0d10 + 16 * i
abbrev R.MTR_TH_INT_EXP_HI (i : Nat) : Nat := 0x400b0d14 + 16 * i
abbrev R.MTR_MOD_FAULT_LO : Nat := 0x400b0f08
abbrev R.MTR_MOD_FAULT_HI : Nat := 0x400b0f0c
abbrev R.MTR_CLIP_LO : Nat := 0x400b0f10
abbrev R.MTR_CLIP_HI : Nat := 0x400b0f14
abbrev R.MTR_TH_STAT : Nat := 0x400b0f18
abbrev R.MTR_REMOTE_N : Nat := 0x400b0ff8
abbrev R.MTR_STAT2 : Nat := 0x400b0ffc
abbrev R.MTR_TH_HELD_MS (i : Nat) : Nat := 0x400b1800 + 8 * i
abbrev R.MTR_TH_GAP_MS (i : Nat) : Nat := 0x400b1804 + 8 * i
abbrev R.MTR_TH_INT_FLAGS (i : Nat) : Nat := 0x400b1900 + 4 * i
abbrev R.PLS_CFG (i : Nat) : Nat := 0x400e1100 + 16 * i
abbrev R.PLS_WEIGHT (i : Nat) : Nat := 0x400e1104 + 16 * i
abbrev R.PLS_WIDTH_US (i : Nat) : Nat := 0x400e1108 + 16 * i
abbrev R.PLS_GAP_US (i : Nat) : Nat := 0x400e110c + 16 * i
abbrev R.PLS_RES_LO (i : Nat) : Nat := 0x400e1800 + 16 * i
abbrev R.PLS_RES_HI (i : Nat) : Nat := 0x400e1804 + 16 * i
abbrev R.PLS_COUNT (i : Nat) : Nat := 0x400e1808 + 16 * i
abbrev R.PLS_RATE (i : Nat) : Nat := 0x400e180c + 16 * i
abbrev R.PLS_OVF (i : Nat) : Nat := 0x400e1900 + 4 * i
abbrev R.PLS_RES_TOP (i : Nat) : Nat := 0x400e1940 + 4 * i
abbrev R.GPIO_DIR : Nat := 0x400e0100
abbrev R.GPIO_OD : Nat := 0x400e0104
abbrev R.GPIO_FILTER_US : Nat := 0x400e0108
abbrev R.GPIO_IN : Nat := 0x400e0800
abbrev R.GPIO_OUT : Nat := 0x400e0804
abbrev R.GPIO_MAP_DIR : Nat := 0x400e0808
abbrev R.GPIO_EDGE (i : Nat) : Nat := 0x400e0840 + 4 * i
abbrev R.PLK_CFG : Nat := 0x40080100
abbrev R.PLK_T_W_MS : Nat := 0x40080104
abbrev R.PLK_T_MAJ_MS : Nat := 0x40080108
abbrev R.PLK_CYC_MAX_MS : Nat := 0x4008010c
abbrev R.PLK_MAJ_N : Nat := 0x40080110
abbrev R.PLK_LEASE_MS : Nat := 0x40080114
abbrev R.PLK_GUARD_MS : Nat := 0x40080118
abbrev R.PLK_LEASE_STALL : Nat := 0x4008011c
abbrev R.PLK_WIT_PORTS : Nat := 0x40080120
abbrev R.PLK_WIT_ADDR (i : Nat) : Nat := 0x40080124 + 4 * i
abbrev R.PLK_WIT_KEY_SLOT : Nat := 0x40080134
abbrev R.PLK_RESOLVE_MS : Nat := 0x40080138
abbrev R.PLK_PAIR_STAT : Nat := 0x40080800
abbrev R.PLK_EPOCH : Nat := 0x40080804
abbrev R.PLK_PARTNER_EPOCH : Nat := 0x40080808
abbrev R.PLK_SILENCE_MS : Nat := 0x4008080c
abbrev R.PLK_CYCLE_LO : Nat := 0x40080810
abbrev R.PLK_CYCLE_HI : Nat := 0x40080814
abbrev R.PLK_ACK_LO : Nat := 0x40080818
abbrev R.PLK_ACK_HI : Nat := 0x4008081c
abbrev R.PLK_REACH_LAST : Nat := 0x40080820
abbrev R.PLK_LANE_STAT : Nat := 0x40080824
abbrev R.PLK_LANE_ERR : Nat := 0x40080828
abbrev R.PLK_STREAM_STAT : Nat := 0x4008082c
abbrev R.PLK_LEASE_STAT : Nat := 0x40080830
abbrev R.PLK_TAKEOVERS : Nat := 0x40080834
abbrev R.PLK_CMD : Nat := 0x40080840
abbrev R.KPR_KSTAT : Nat := 0x40010800
abbrev R.KPR_SAFE_STAT : Nat := 0x40010804
abbrev R.KPR_EMG_STAT : Nat := 0x40010808
abbrev R.KPR_TRIP_T_NS : Nat := 0x4001080c
abbrev R.KPR_TRIP_T_S : Nat := 0x40010810
abbrev R.KPR_LAST_HALT : Nat := 0x40010814
abbrev R.KPR_WDOG_MS : Nat := 0x40011100
abbrev R.KPR_T_K : Nat := 0x40011104
abbrev R.KPR_PLAN_LIFE_S : Nat := 0x40011108
abbrev R.KPR_EST_LIFE_MS : Nat := 0x4001110c
abbrev R.KPR_EMG_FILT_US : Nat := 0x40011110
abbrev R.KPR_SAFE_CFG (i : Nat) : Nat := 0x40011120 + 4 * i
abbrev R.KPR_EMG_CFG (i : Nat) : Nat := 0x40011140 + 4 * i
abbrev R.KPR_CHK_LAST : Nat := 0x40012800
abbrev R.KPR_CHK_TAG : Nat := 0x40012804
abbrev R.KPR_CHK_US : Nat := 0x40012808
abbrev R.KPR_CHK_FAILS : Nat := 0x4001280c
abbrev R.KPR_CHK_OVERTAKEN : Nat := 0x40012810
abbrev R.KPR_CHK_IGNORED : Nat := 0x40012814
abbrev R.KPR_CHK_VETOED : Nat := 0x40012818
abbrev R.KPR_DIG_LO (i : Nat) : Nat := 0x40012820 + 8 * i
abbrev R.KPR_DIG_HI (i : Nat) : Nat := 0x40012824 + 8 * i
abbrev R.KPR_SLOG_INDEX : Nat := 0x40013800
abbrev R.KPR_SLOG_NEXT : Nat := 0x40013804
abbrev R.KPR_SLOG_SEQ : Nat := 0x40013808
abbrev R.KPR_SLOG_LOST : Nat := 0x4001380c
abbrev R.KPR_SLOG_W (i : Nat) : Nat := 0x40013820 + 4 * i
abbrev R.SEC_CMD_CTRL : Nat := 0x40020800
abbrev R.SEC_CMD_DATA : Nat := 0x40020804
abbrev R.SEC_CMD_STAT : Nat := 0x40020808
abbrev R.SEC_CMD_CTR_LO : Nat := 0x4002080c
abbrev R.SEC_CMD_CTR_HI : Nat := 0x40020810
abbrev R.SEC_UID_LO : Nat := 0x40020814
abbrev R.SEC_UID_HI : Nat := 0x40020818
abbrev R.SEC_OWNER_CTR_LO : Nat := 0x4002081c
abbrev R.SEC_OWNER_CTR_HI : Nat := 0x40020820
abbrev R.SEC_SLOT_INFO (i : Nat) : Nat := 0x40020840 + 4 * i
abbrev R.SEC_SLOT_CTR_LO (i : Nat) : Nat := 0x40020880 + 8 * i
abbrev R.SEC_SLOT_CTR_HI (i : Nat) : Nat := 0x40020884 + 8 * i
abbrev R.SEC_BOOT_STAT : Nat := 0x40020900
abbrev R.SEC_FW_CONFIRM : Nat := 0x40020904
abbrev R.SEC_FW_STAT : Nat := 0x40020908
abbrev R.SEC_FW_DONE_KB : Nat := 0x4002090c
abbrev R.SEC_MEAS_EXT_D (i : Nat) : Nat := 0x40020920 + 4 * i
abbrev R.SEC_MEAS_CTRL : Nat := 0x40020940
abbrev R.SEC_QUOTE_NONCE (i : Nat) : Nat := 0x40020960 + 4 * i
abbrev R.SEC_QUOTE_ADDR_LO : Nat := 0x40020980
abbrev R.SEC_QUOTE_ADDR_HI : Nat := 0x40020984
abbrev R.SEC_QUOTE_MASK : Nat := 0x40020988
abbrev R.SEC_QUOTE_CMD : Nat := 0x4002098c
abbrev R.SEC_QUOTE_STAT : Nat := 0x40020990
abbrev R.SEC_MEAS_W (i j : Nat) : Nat := 0x40020a00 + 32 * i + 4 * j
abbrev R.SEC_MEAS_CNT (i : Nat) : Nat := 0x40020b00 + 4 * i
abbrev R.EVR_FLUSH_MS : Nat := 0x40022100
abbrev R.EVR_FILL_WARN : Nat := 0x40022104
abbrev R.EVR_RL_INDEX : Nat := 0x40022108
abbrev R.EVR_RL_CFG : Nat := 0x4002210c
abbrev R.EVR_END : Nat := 0x40022800
abbrev R.EVR_SEQ_LO : Nat := 0x40022804
abbrev R.EVR_SEQ_HI : Nat := 0x40022808
abbrev R.EVR_LOG_STAT : Nat := 0x4002280c
abbrev R.EVR_LOST (i : Nat) : Nat := 0x40022810 + 4 * i
abbrev R.EVR_FULL_DROP : Nat := 0x40022820
abbrev R.EVR_SUPPRESSED : Nat := 0x40022824
abbrev R.EVR_BAD_REC : Nat := 0x40022828
abbrev R.EVR_STAGE_BYTES : Nat := 0x4002282c
abbrev R.EVR_CLR_LAST : Nat := 0x40022830
abbrev R.EVR_RD_OFS : Nat := 0x40022840
abbrev R.EVR_RD_W (i : Nat) : Nat := 0x40022900 + 4 * i
abbrev R.EVR_SW_SEND : Nat := 0x40022a40
abbrev R.EVR_SW_D (i : Nat) : Nat := 0x40022b00 + 4 * i
abbrev R.RTC_TIME0 : Nat := 0x40023800
abbrev R.RTC_TIME1 : Nat := 0x40023804
abbrev R.RTC_TIME2 : Nat := 0x40023808
abbrev R.RTC_STAGE0 : Nat := 0x4002380c
abbrev R.RTC_STAGE1 : Nat := 0x40023810
abbrev R.RTC_STAGE2 : Nat := 0x40023814
abbrev R.RTC_COMMIT : Nat := 0x40023818
abbrev R.RTC_STAT : Nat := 0x4002381c
abbrev R.RTC_EVT : Nat := 0x40023820
abbrev R.RTC_ALM_T0 (i : Nat) : Nat := 0x40023830 + 16 * i
abbrev R.RTC_ALM_T1 (i : Nat) : Nat := 0x40023834 + 16 * i
abbrev R.RTC_ALM_T2 (i : Nat) : Nat := 0x40023838 + 16 * i
abbrev R.RTC_ALM_MASK (i : Nat) : Nat := 0x4002383c + 16 * i
abbrev R.RTC_WAKE_PERIOD : Nat := 0x40023850
abbrev R.RTC_TRIM : Nat := 0x40023854
abbrev R.RTC_TRIM_ERR : Nat := 0x40023858
abbrev R.PNL_GEOM : Nat := 0x400c0100
abbrev R.PNL_BUS_CFG : Nat := 0x400c0104
abbrev R.PNL_RAIL_CFG : Nat := 0x400c0108
abbrev R.PNL_UPD_X : Nat := 0x400c0800
abbrev R.PNL_UPD_Y : Nat := 0x400c0804
abbrev R.PNL_UPD_W : Nat := 0x400c0808
abbrev R.PNL_UPD_H : Nat := 0x400c080c
abbrev R.PNL_UPD_SRC_LO : Nat := 0x400c0810
abbrev R.PNL_UPD_SRC_HI : Nat := 0x400c0814
abbrev R.PNL_UPD_STRIDE : Nat := 0x400c0818
abbrev R.PNL_UPD_CMD : Nat := 0x400c081c
abbrev R.PNL_UPD_STAT : Nat := 0x400c0820
abbrev R.PNL_SLOT_STAT : Nat := 0x400c0824
abbrev R.PNL_SLOT_PIX (i : Nat) : Nat := 0x400c0830 + 4 * i
abbrev R.PNL_RAIL_STAT : Nat := 0x400c0840
abbrev R.PNL_FRAMES : Nat := 0x400c0844
abbrev R.PNL_DIRTY_N : Nat := 0x400c0848
abbrev R.PNL_STAT2 : Nat := 0x400c084c
abbrev R.PNL_WF_CTL : Nat := 0x400c0860
abbrev R.PNL_WF_ROW : Nat := 0x400c0864
abbrev R.PNL_WF_DATA : Nat := 0x400c0868
abbrev R.PNL_WF_STAT : Nat := 0x400c086c
abbrev R.SYS_DEVID : Nat := 0x40000800
abbrev R.SYS_START_STAT : Nat := 0x40000804
abbrev R.SYS_TIME_REC : Nat := 0x40000808
abbrev R.SYS_TIME_REC_S : Nat := 0x4000080c
abbrev R.SYS_RESTART : Nat := 0x40000810
abbrev R.SYS_RUN_REC_LO : Nat := 0x40000814
abbrev R.SYS_RUN_REC_HI : Nat := 0x40000818
abbrev R.NVM_LMAP_LO (i : Nat) : Nat := 0x40021800 + 8 * i
abbrev R.NVM_LMAP_HI (i : Nat) : Nat := 0x40021804 + 8 * i

end Sys2Proof.Machine
end

