-- ==== Sys2Proof/Config.lean ====
section
/-! DEFINITION. What one device or one implementation fixes and the spec does not number: every constant
here is opaque, so nothing in Lean can compute or prove a value of it, and a claim holds whatever it is.
The assumption log entries are named beside each. -/

namespace Sys2Proof.Config

/-- A fresh unconstrained value: the n-th one, read through the counter of State (log entry 8). -/
opaque freeBits : Nat → BitVec 64

/-- Fuse UID (R639). Log entry 6. -/
opaque uid : BitVec 64
/-- Fuse MAC address of Ethernet port i (R457) and of pair lane i (R553). Log entry 6. -/
opaque mac : Nat → BitVec 48
/-- Fuses ROOT_DIGEST[i] (R631). Log entry 6. -/
opaque rootDigest : Nat → List Byte
/-- Revocation fuse of root i intact (R631). Log entry 6. -/
opaque rootIntact : Nat → Bool
/-- Fuse OWNER_DIGEST; none while not fused (R626, R627). Log entry 6. -/
opaque ownerDigest : Option (List Byte)
/-- Byte of the boot ROM (R107, R632). Log entry 6. -/
opaque bootRom : Nat → BitVec 8
/-- Temperature grade I (true) or C (R709). Log entry 6. -/
opaque gradeI : Bool

/-- Water table H, point i, units of 2^-32 J/kg (R121). Log entry 9. -/
opaque waterH : Nat → Int
/-- Water table G, point i, units of 2^-70 J/(kg Pa) (R121). Log entry 9. -/
opaque waterG : Nat → Int
/-- Water table RHO, point i, units of 2^-52 kg/m3 (R121). Log entry 9. -/
opaque waterRho : Nat → Int

/-- The scalar unit's quotient of two scalar mantissas, before the bound of R181. Log entry 10. -/
opaque scalarQuot : Int → Int → Int
/-- The scalar unit's reciprocal square root in units of 2^-62, before the bound of R181. Log entry 10. -/
opaque scalarRsqrt : Int → Int → Int
/-- ML-DSA-65 verification: public key, message digest, signature (R627, R631). Log entry 13. -/
opaque mldsaVerify : List Byte → List Byte → List Byte → Bool
/-- ML-DSA-65 signature by the identity key (R638). Log entry 13. -/
opaque mldsaSign : List Byte → List Byte
/-- The device certificate (R638). Log entry 13. -/
opaque certificate : List Byte

/-- Published number of an event record's code where the spec gives none (R643). Log entry 14. -/
opaque recordCode : Nat → BitVec 16
/-- Published body length of such a code, in 8-byte units above the least of 2 (R641, R643). Log entry 14. -/
opaque recordLen : Nat → Fin 31
/-- Word i + 1 of the body of such a record, from the facts it reports. Log entry 14. -/
opaque recordWord : Nat → List (BitVec 32) → Nat → BitVec 32
/-- Published severity of such a code. Log entry 14. -/
opaque recordSeverity : Nat → BitVec 2

/-- Rounding of a mean to binary32 where the spec states none (R527). Log entry 15. -/
opaque f32Mean : Int → Int → BitVec 32
/-- Binary32 root of a mean square (R527). Log entry 15. -/
opaque f32Root : Int → Int → BitVec 32

/-- Wake-up seeds of what the measured fuse configuration hashes to (R637). Log entry 6. -/
opaque fuseDigest : List Byte

/-- Content of a DISPATCH section; R152 names its parts and no rule lays them out. Log entry 20. -/
opaque dispatch : List Byte → DspSect
/-- Arrays of a measurement's WEIGHT and of its RANGE (R133, R142), by MEAS_ID: 0 WEIGHT, 1 RANGE; no rule names them. Log entry 20. -/
opaque measArr : Nat → Nat → Nat
/-- Stop ratio of an asset (R116), by model ID and asset; no layout holds it. Log entry 20. -/
opaque stopRatio : Nat → Nat → Rat
/-- Electrical coupling a plant declares (R127), by BRANCH_ID: 0 none, 1 CHP, 2 heat pump or compression chiller. Log entry 20. -/
opaque plantCoupling : Nat → Fin 3
/-- κ of a CHP plant and COP_abs of an absorption chiller (R127), by BRANCH_ID. Log entry 20. -/
opaque plantKappa : Nat → Rat
opaque plantCopAbs : Nat → Rat
/-- Point i of a plant's COP table (R127), by BRANCH_ID: T_set in °C and COP. Log entry 20. -/
opaque plantCop : Nat → Fin 9 → Rat × Rat
/-- Plant limits that R126 names and no layout holds, by BRANCH_ID: 0 P_max, 1 P_min in W, 2 least flow in kg/s. Log entry 20. -/
opaque plantLimit : Nat → Nat → Rat
/-- Store facts that R128 and R129 name, by BRANCH_ID: 0 m_tot in kg, 1 h_cold, 2 h_chg in J/kg, 3 loss rate in 1/s. Log entry 20. -/
opaque storeFact : Nat → Nat → Rat
/-- First temperature of a node with no committed state, in 2^-16 degC, by NODE_ID (R278 gives none). Log entry 20. -/
opaque nodeInit : Nat → BitVec 23
/-- First state of a store with none committed, by BRANCH_ID: 0 hot mass, 1 energy (R278 gives none). Log entry 20. -/
opaque storeInit : Nat → Nat → Rat

/-- Bytes of one state copy of the tracker (R252 gives no layout): queues, nodes, stores. Log entry 20. -/
opaque stateLen : Nat → Nat → Nat → BitVec 32

/-- Places of the state header and of the two state copies behind STATE_ADDR, the header's word for a step number and a bank, and the bytes
of a copy or of a forecast's scratch state by what it holds (R252, R274 give no layout). Log entry 20. -/
opaque stateHdrOfs : Nat
opaque stateOfs : Bool → Nat
opaque stateHdr : Nat → Bool → Nat
opaque stateByte : List (List Int) → Nat → BitVec 8

/-- Place of output buffer 0 or 1 of the tracker behind OUT_ADDR, in units of 64 bytes, for a number of nodes (R271 gives no layout).
Log entry 20. -/
opaque outOfs : Nat → Nat → Nat

/-- Free space, in units of 64 bytes, that the Sequencer leaves before the n-th object of its work area; no rule places them.
Log entry 86. -/
opaque seqGap : Nat → Nat
/-- Array of the n-th of the Sequencer's own vectors and matrices, by model ID; no rule names them. Log entry 86. -/
opaque seqArray : Nat → Nat → Nat
/-- Number in the IDS section of a solver vector: 0 the dispatch block, 1 the reduced outputs (R141 gives none). Log entry 86. -/
opaque seqVector : Nat → Nat
/-- Head with which a hydraulic solve of the estimator starts cold, by NODE_ID, and the value in the hydraulic solution of a reduced output
that is neither a head nor a flow, by its ID (R294, R305 give none). Log entry 86. -/
opaque headInit : Nat → Int
opaque hydOther : Nat → Rat
/-- Mantissa of column c of the host forecast for plan step k in a pass for which no block was ever accepted (R311 gives none). Log entry 86. -/
opaque fcNone : Nat → Nat → Int
/-- Station heat, idle temperature and outlet temperature of a flow set with no measurement and none before it, by BRANCH_ID (R302 gives
none). Log entry 86. -/
opaque flowInit : Nat → Nat → Rat

end Sys2Proof.Config
end

