-- ==== Sys2Proof/Machine/State.lean ====
section
/-! DEFINITION. The state of the block: plain data, everything the spec gives the machine. Every register of
every page lives in `regs` (keyed by bus address, reset values by default) unless its value is computed from a
structure below; numbered things live in canonical tables whose default is one structure value. -/

namespace Sys2Proof.Machine

/-- A register access code (R9). -/
inductive Acc | ro | rw | rws | w1c | wo | kp
deriving DecidableEq, Repr

/-- One row of a register table: offset, two repetitions (stride and count), access, reset value, documented
bits, and the range its Purpose states. -/
structure RegRow where
  ofs  : Nat
  st1  : Nat
  n1   : Nat
  st2  : Nat
  n2   : Nat
  acc  : Acc
  rst  : Word
  mask : Word
  lo   : Nat
  hi   : Nat
deriving DecidableEq, Repr

/-- A partition's interrupt controller, built as a RISC-V PLIC (R105): priorities, pending and claimed sources, enables by
256 context + source, thresholds by context. -/
structure Plic where
  prio    : Tab Nat := []
  pending : Tab Bool := []
  claimed : Tab Bool := []
  enable  : Tab Bool := []
  thresh  : Tab Nat := []
deriving DecidableEq, Repr

/-- The controllers of the four partitions (R105). -/
structure Plics where
  control    : Plic := {}
  data       : Plic := {}
  management : Plic := {}
  keeper     : Plic := {}
deriving DecidableEq, Repr

/-- State of a block (R88, R96, R99), kept at the number of its first page. -/
structure Blk where
  st        : BState := .stop
  draining  : Bool := false
  abandoned : Bool := false
  req       : BitVec 3 := 1
  gen       : Word := 0
deriving DecidableEq, Repr

/-- Header registers that belong to each page (R87, R88): IRQ_STAT, IRQ_EN, ERRCODE and STAT bits [13:8]. -/
structure PageHdr where
  irqStat : Word := 0
  irqEn   : Word := 0
  errcode : Word := 0
  err     : BitVec 6 := 0
deriving DecidableEq, Repr

/-- What holds planes in reset: nothing; a reset of all but PD_RTC (R65); the end of a save (R69, R76); a clock fault (R64). -/
inductive Hold | none | reset | save | clk
deriving DecidableEq, Repr

/-- Two copies A and B of something kept in MRAM, each with the sequence that committed it (R72). -/
structure Copies (α : Type) where
  a : Option (Nat × α) := none
  b : Option (Nat × α) := none
deriving DecidableEq, Repr

/-- The items of the power-fail save that start-up takes back (R71): metering totals and residues, retained
memory, stall epochs and sequences, the panel dirty map. Item 4 is in the event log. -/
structure Saves where
  seq      : Nat := 0
  mtr      : Copies (List (Nat × Int)) := {}
  retained : Copies (Tab Byte) := {}
  stalls   : Copies (List (Nat × Nat × Nat)) := {}
  dirty    : Copies (List Nat) := {}
deriving DecidableEq, Repr

/-- Power, reset and clock control that no register holds (R43 to R77); `started`: start-up has begun since the reset,
`porstLow`: PORST_N is low, `startWait` and `railWait`: start-up waits for PFW_N (R77) or for a supply (R65), `consumed`: the save sequence consumed by the run record (R705), `mgmtReq`: MGMT_RST.GO was written. -/
structure PwrSt where
  hold      : Hold := .none
  goal      : Word := 0x00100015
  wait      : List (Nat × Nat) := []
  pside     : Bool := false
  bootmode  : BitVec 2 := 0
  rstoutN   : Bool := false
  tapReset  : Bool := false
  startWait : Bool := false
  railWait  : Bool := false
  clkMiss   : Nat := 0
  clkPass   : Nat := 0
  clkFault  : Bool := false
  clkCount  : Word := 0
  pfwHigh   : Bool := false
  saving    : Bool := false
  saveDone  : Bool := false
  panelNeutral : Bool := false
  started   : Bool := false
  porstLow  : Bool := false
  consumed  : Nat := 0
  mgmtReq   : Bool := false
  saves     : Saves := {}
deriving DecidableEq, Repr

/-- Device time in units of 2^-32 ns: the counter of the time unit, its five copies (R436, R439), the rate last
received by the copies (R440), the steps that the logic domain's copy has seen (R443) and the values latched by a read of
TIME_NS (R438). -/
structure TimeSt where
  cnt   : Nat := 0
  aon   : Nat := 0
  log   : Nat := 0
  nsu   : Nat := 0
  kpr   : Nat := 0
  nvm   : Nat := 0
  lastIncr : Nat := 0x333333333
  logSteps : Nat := 0
  latS  : BitVec 48 := 0
  latF  : Word := 0
deriving DecidableEq, Repr

/-- A record waiting in the queue of a partition, with its timestamp (R642). -/
structure QRec where
  r : Record
  t   : Nat
deriving DecidableEq, Repr

/-- A record in the staging buffer (R645). -/
structure Staged where
  seq   : Nat
  t     : Nat
  code  : BitVec 16
  flags : Byte
  body  : List Word
  count : Nat
deriving DecidableEq, Repr

/-- The committed log control (R652, R656). -/
structure LogCtl where
  ende  : Nat := 0
  next  : Nat := 1
  full  : Bool := false
  first : Nat := 1
  clrSlot : Byte := 0
  clrCtr  : DWord := 0
  clrT    : Nat := 0
  clrFirst : Nat := 0
  clrLast  : Nat := 0
  clrRecs  : Nat := 0
  clrBytes : Nat := 0
deriving DecidableEq, Repr

/-- The newest record of a code: where it is (data offset once flushed), its sequence and its count (R648, R649). -/
structure Newest where
  seq   : Nat := 0
  ofs   : Option Nat := none
  len   : Nat := 0
  count : Nat := 0
deriving DecidableEq, Repr

/-- Event recorder (R641 to R656). `data` and `ctl` are in MRAM. Tokens are in units of one token divided by
60 s in 2^-32 ns. -/
structure EvrSt where
  queues  : Tab (List QRec) := []
  lostNew : Tab Nat := []
  staging : List Staged := []
  updates : List (Nat × Nat) := []
  newest  : Tab Newest := []
  tokens  : Tab (Nat × Nat) := []
  cfg     : Tab Word := []
  almost  : Bool := false
  data    : Tab Byte := []
  ctl     : Option LogCtl := none
  nextSeq : Nat := 1
deriving DecidableEq, Repr

/-- Neighbour cache entry (R434). -/
structure NbEntry where
  ip  : List Byte
  mac : BitVec 48
  t   : Nat
deriving DecidableEq, Repr

/-- Queues and caches of an Ethernet port (R429 to R434). -/
structure EthPort where
  txPtp  : List (List Byte) := []
  txWit  : List (List Byte) := []
  txLsx  : List (List Byte) := []
  txOff  : List (List Byte) := []
  rxPtp  : List (List Byte) := []
  rxWit  : List (List Byte) := []
  rxLsx  : List (List Byte) := []
  nb     : List NbEntry := []
  held   : List (List Byte × EthQueue × List Byte) := []
  pauseTo : Nat := 0
  onWire : Bool := false
deriving DecidableEq, Repr

/-- Time unit beyond its registers (R442, R447, R451, R453). -/
structure PtpSt where
  inLock   : Nat := 0
  hist     : List Nat := []
  everPps  : Bool := false
  newGm    : Bool := false
  large    : Bool := false
  secArm   : Bool := false
  ppsHigh  : Bool := false
  ppsLast  : Option Int := none
  twoStep  : Option PtpTimes := none
  traceGm  : Bool := false
deriving DecidableEq, Repr

/-- A capture stamp (R454, R455). -/
structure Stamp where
  ns   : Word
  s    : BitVec 48
  edge : Bool
deriving DecidableEq, Repr

/-- A capture channel (R454 to R456). -/
structure CapCh where
  fifo   : List Stamp := []
  latch  : Option Stamp := none
  newest : Option Stamp := none
  level  : Bool := false
deriving DecidableEq, Repr

/-- Response of the newest register access, the model's own field (log entry 7): the value read, and whether an
access fault was raised at the initiator (R95). -/
structure Resp where
  val   : Word := 0
  fault : Bool := false
deriving DecidableEq, Repr

/-- Real-time clock beyond its registers: the shadows of a frozen read (R662), the time a commit is about to load (R664), and
how far the trim is into its next correction of SUB, in units of 2⁻²⁰ of a SUB count (R671). -/
structure RtcSt where
  frac : Nat := 0
  sh0 : Word := 0
  sh1 : Word := 0
  sh2 : Word := 0
  c0 : Word := 0
  c1 : Word := 0
  c2 : Word := 0
deriving DecidableEq, Repr

/-- A waveform of a pixel: target level, whether it is row CLEAR, its frame index, and the slot that owns it
(none while recovering, R691). -/
structure Wave where
  tgt   : Fin 16
  clear : Bool
  i     : Nat
  slot  : Option (Fin 4)
deriving DecidableEq, Repr

/-- A pixel of the glass (R684): present level, running waveform, queued level. -/
structure Pix where
  cur : Fin 16 := 0
  run : Option Wave := none
  q   : Option Wave := none
deriving DecidableEq, Repr

/-- The rail sequence (R679, R680). -/
inductive Rails | down | rising | up | falling
deriving DecidableEq, Repr

/-- Panel driver beyond its registers (R682 to R691). `table`, `img`, `imgValid` are in MRAM; pixels are keyed by
1024 y + x, tiles by R675. `codes` are the drive codes of the newest frame that are not NEUTRAL (R677, R684). -/
structure PnlSt where
  codes    : Tab Nat := []
  rails    : Rails := .down
  oe       : Bool := false
  pix      : Tab Pix := []
  table    : Option (Tab (List Word)) := none
  staging  : Tab (List Word) := []
  row      : List Word := []
  dirty    : List Nat := []
  img      : Tab (Fin 16) := []
  imgValid : Bool := false
  hold     : Nat := 0
deriving DecidableEq, Repr

/-- A received CAN frame as kept: stamp (R469), the filter that took it, the GEN of its channel's run, and whether the
filter's timeout has passed since (R470). -/
structure CanMsg where
  f    : CanFrame
  t    : Nat
  filt : Option Nat
  gen  : Word
  late : Bool := false
deriving DecidableEq, Repr

/-- A CAN channel beyond its registers (R468 to R476): mailboxes by filter, FIFO and read latch, object data images
(key 64 o + byte), data and time last loaded, queued objects, buffers to end after their attempt. -/
structure CanCh where
  mbox    : Tab (Option CanMsg) := []
  fifo    : List CanMsg := []
  latched : Bool := false
  image   : Tab Byte := []
  loaded  : Tab (Option (List Byte × Nat)) := []
  queue   : List Nat := []
  aborts  : List Nat := []
deriving DecidableEq, Repr

/-- A state image: its cycle and its pages, an unlisted page all zeros (R559). -/
structure StateImg where
  cycle : Nat := 0
  pages : Tab (List Byte) := []
deriving DecidableEq, Repr

/-- A stream object on its way in (R565). -/
structure StreamObj where
  gen    : Nat := 0
  chunks : Tab (List Byte) := []
  last   : Option Nat := none
deriving DecidableEq, Repr

/-- A lane of the pair link: the frames that wait on it by priority, the frame on the wire, and the byte times it still takes
(R553, R554). -/
structure PlkLane where
  hb   : List (List Byte) := []
  kpr  : List (List Byte) := []
  ctl  : List (List Byte) := []
  data : List (List Byte) := []
  wire : List Byte := []
  left : Nat := 0
deriving DecidableEq, Repr

/-- Pair operation beyond its registers (R550 to R583). `epochNv` is in MRAM. -/
structure PlkSt where
  epochNv  : Nat := 0
  hbPair   : Option Nat := none
  hbWit    : Option Nat := none
  partner  : Option Heartbeat := none
  pActing  : Bool := false
  pFit     : Bool := false
  fitClear : Nat := 0
  seqTx    : Tab Nat := []
  seen     : List (Byte × Word) := []
  lastTx   : List Byte := []
  lanes    : Tab PlkLane := []
  image    : Option StateImg := none
  pend     : Tab (List Byte) := []
  resync   : Bool := false
  sent     : List StateImg := []
  objs     : Tab StreamObj := []
  heldObj  : Tab (Nat × List Byte) := []
  contest  : Bool := false
  standTo  : Option Nat := none
  finalReq : Bool := false
  epochOk  : Bool := false
  applied  : Bool := false
  reqId    : Nat := 0
  reqAt    : Option (Nat × Nat) := none
  lease    : Option Nat := none
  grant    : Option Nat := none
  fence    : Bool := false
deriving DecidableEq, Repr

/-- State of an axis, coded as STAT.STATE (R514). -/
inductive AxState | disabled | unreferenced | standstill | moving | referencing | stalled | fault
deriving DecidableEq, Repr

/-- A valve axis (R492 to R512). `x` is in units of 2^-32 microsteps, `v` in units of 1/50000 microstep/s. -/
structure Axis where
  st       : AxState := .unreferenced
  p        : Int := 0
  x        : Int := 0
  v        : Nat := 0
  pos      : Bool := true
  target   : Int := 0
  newTgt   : Option Int := none
  braking  : Bool := false
  decel    : Bool := false
  halting  : Bool := false
  rev      : Bool := false
  level    : Nat := 0
  adrOfs   : Nat := 0
  e        : Int := 0
  lastEnc  : Option Nat := none
  eRef     : Int := 0
  pRef     : Int := 0
  sentP    : Int := 0
  dev      : Int := 0
  devN     : Nat := 0
  status   : Byte := 0
  addrRep  : Nat := 0
  referenced : Bool := false
  limited  : Bool := false
  holding  : Bool := false
  obeyed   : Bool := false
  repLost  : Bool := false
  rebased  : Bool := false
  curOut   : Byte := 0
  refFrom  : Int := 0
  replyT   : Nat := 0
  replyNo  : Nat := 0
deriving DecidableEq, Repr

/-- A drive link: the newest downlink frame sent, and whether a FORCE_STOP silenced it (R487, R509). -/
structure Dlk where
  frame  : List Byte := []
  silent : Bool := false
deriving DecidableEq, Repr

/-- Newest processed reading of a remote meter (R526, R530): delta in mWh, raw count, flags, milliseconds, its acquisition time (R527). -/
structure RemoteVal where
  delta : Nat := 0
  raw   : Nat := 0
  flags : Nat := 0
  dt    : Nat := 0
  t     : Nat := 0
deriving DecidableEq, Repr

/-- One entry of the ring of whole milliseconds (R539): the millisecond, this side's own sums and the residues then. -/
structure MsSnap where
  ms  : Nat
  own : Tab Int
  res : Tab Int
deriving DecidableEq, Repr

/-- A value published at the end of an averaging period (R527): binary32 pattern, quality, time. -/
structure Mean where
  val  : Word := 0
  qual : Nat := 4
  t    : Nat := 0
deriving DecidableEq, Repr

/-- Metering unit (R516 to R543). Accumulators in units of 2^-32 mWh are numbered as PLSo_CFG.SEL numbers them (R532);
channels 0 to 7 are circuits and 8 to 39 thermal channels (R526). -/
structure MtrSt where
  acc     : Tab Int := []
  latch   : Tab (Option Word) := []
  part    : Tab Int := []
  flags   : Tab Nat := []
  faultN  : Tab Nat := []
  heldMs  : Tab Nat := []
  gapMs   : Tab Nat := []
  sampled : Bool := false
  steps   : Nat := 0
  lastT   : Nat := 0
  good    : Tab Nat := []
  tickOk  : List Nat := []
  sums    : Tab Rat := []
  sumN    : Tab Nat := []
  worst   : Tab Nat := []
  means   : Tab Mean := []
  base    : Tab (Option (Nat × Nat)) := []
  remote  : Tab RemoteVal := []
  own     : Tab Int := []
  ring    : List MsSnap := []
  restored : Bool := false
deriving DecidableEq, Repr

/-- A pulse output (R532 to R535): residue in units of 2^-32 mWh, the energy being spread with its ticks, the part of a
rate below that unit, the pulse in progress, ticks of the gap left, and what overflowed. -/
structure PulseOut where
  res   : Int := 0
  e     : Int := 0
  ticks : Nat := 125
  n     : Nat := 125
  frac  : Nat := 0
  high  : Bool := false
  gap   : Nat := 0
  sat   : Bool := false
  ovf   : Nat := 0
  latch : Option (Word × Word) := none
deriving DecidableEq, Repr

/-- A key slot (R624): the key never shows. -/
structure KeySlot where
  use   : Nat := 0
  perms : BitVec 16 := 0
  key   : List Byte := []
  ctr   : Nat := 0
deriving DecidableEq, Repr

/-- A critical command that the quay accepted and has not yet delivered (R35, R621). `slot` is 255 for the owner. -/
structure QuayCmd where
  op      : Nat
  target  : Nat
  slot    : Nat
  counter : Nat
  payload : List Byte
deriving DecidableEq, Repr

/-- The boot record in MRAM (R632, R635, R636): true names slot B. -/
structure BootRec where
  active   : Bool := false
  next     : Bool := false
  trial    : Bool := false
  attempts : Nat := 0
  floors   : List Nat := [0, 0, 0]
  invalid  : Bool := false
deriving DecidableEq, Repr

/-- A firmware update in progress (R633). -/
structure FwUpd where
  kmask  : Nat
  addr   : Nat
  digest : List Byte
deriving DecidableEq, Repr

/-- Security unit (R616 to R640). Keys, counters and the boot record are in MRAM; `flash` is the QSPI flash. -/
structure SecSt where
  keys     : Tab KeySlot := []
  ownerCtr : Nat := 0
  buf      : List Word := []
  queue    : List QuayCmd := []
  boot     : BootRec := {}
  flash    : Tab Byte := []
  booted   : Bool := false
  versions : List Nat := [0, 0, 0]
  upd      : Option FwUpd := none
  lock2    : Bool := false
  kind3    : Bool := false
  quote    : List Byte := []
deriving DecidableEq, Repr

/-- A stall beyond its registers and its window (R394 to R421). `st` is coded as QUAL.STATE. -/
structure Stall where
  st      : Nat := 1
  bound   : Bool := false
  major   : Nat := 0
  rd      : Option Nat := none
  wr      : Option Nat := none
  dirty   : Bool := false
  fenced  : Bool := false
  loc     : Bool := false
  flt     : Bool := false
  replied : Bool := false
  rdMiss  : Nat := 0
  misses  : Nat := 0
  tagOk   : Bool := true
  written : Bool := false
  reached : Bool := false
  ep      : Nat := 0
  waiting : Option (List Byte × Nat) := none
deriving DecidableEq, Repr

/-- A program instance (R347, R369). -/
structure Task where
  core   : Nat
  div    : Nat
  ofs    : Nat
  entry  : Nat
deriving DecidableEq, Repr

/-- A slice (R369). -/
structure Slice where
  addr : Nat
  len  : Nat
  core : Nat
  out  : Bool
  tcm  : Nat
deriving DecidableEq, Repr

/-- An input or output map entry (R370). -/
structure MapEnt where
  addr  : Nat
  kind  : Nat
  width : Nat
  index : Nat
  ofs   : Nat
  slot  : Nat
deriving DecidableEq, Repr

/-- A PUBLISH record (R367). -/
structure PubRec where
  key  : Nat
  addr : Nat
  slot : Nat
deriving DecidableEq, Repr

/-- A retained region (R359). -/
structure Region where
  core : Nat
  tcm  : Nat
  len  : Nat
deriving DecidableEq, Repr

/-- A CHANGE record (R371). -/
structure Change where
  sym   : Nat
  kind  : Nat
  ty    : Nat
  width : Nat
  loc   : Nat
  addr  : Nat
  lo    : Nat
  hi    : Nat
deriving DecidableEq, Repr

/-- A logic image in force (R368 to R371); `tcm` are the initial bytes of the cores, by bus address. -/
structure Limg where
  progId   : Word
  rev      : Word
  fp       : DWord
  layout   : DWord
  safe     : List Byte
  digest   : List Byte
  tcm      : Tab Byte
  tasks    : List Task
  slices   : List Slice
  inmap    : List MapEnt
  outmap   : List MapEnt
  publish  : List PubRec
  retain   : List Region
  change   : List Change
deriving DecidableEq, Repr

/-- A force table entry in use (R378, R383): `width` is the code 0 for a bit, else the bytes. -/
structure ForceEnt where
  addr  : Nat
  width : Nat
  bit   : Nat
  val   : Nat
deriving DecidableEq, Repr

/-- Logic engine beyond its registers (R345 to R380). A capture is the retained area of R359 with its header. -/
structure LgeSt where
  image   : Option Limg := none
  ld      : List Word := []
  forces  : Tab (Option ForceEnt) := []
  first   : Bool := true
  tSnap   : Nat := 0
  tPub    : Nat := 0
  setNo   : Nat := 0
  calls   : List (Nat × Word × Word) := []
  capture : Option (Tab Byte) := none
  safe    : Bool := false
  cut     : Bool := false
  firstOut : Bool := true
  ret     : Tab (List Word) := []
deriving DecidableEq, Repr

/-- A keeper table on its way in (R592). -/
structure Staging where
  next  : Nat
  total : Nat
  data  : List Byte
deriving DecidableEq, Repr

/-- A check in progress (R603 to R605): the record as read, its address, its SEQ and its commit time, with the limit table
and `T_K` in force at its start, under which it completes (R594). -/
structure Check where
  body : List Byte
  at'  : Nat
  seq  : Nat
  t    : Nat
  lim  : Option (List Byte)
  tK   : Nat
deriving DecidableEq, Repr

/-- The keeper beyond its registers (R586 to R615). The tables, the safety log with its counters, and the saved ARMED
mask are in its own MRAM. `half0` and `half1` are the halves of the setpoint table, byte for byte (R329). -/
structure KprSt where
  safe    : Copies (List Byte) := {}
  limit   : Copies (List Byte) := {}
  param   : Copies (List Byte) := {}
  tabSeq  : Nat := 0
  stage   : Tab (Option Staging) := []
  pdLog   : Option (List Byte) := none
  slog    : Tab (List Byte) := []
  slogNext : Nat := 0
  slogSeq : Nat := 0
  slogLost : Nat := 0
  gen     : Nat := 0
  half0   : Tab Byte := []
  half1   : Tab Byte := []
  steps   : List (List (Nat × Word × Word)) := []
  gate    : Bool := false
  rearm   : Option (BitVec 4) := none
  cause   : Nat := 0
  lost    : List Nat := []
  stopped : Bool := false
  trip    : Bool := false
  wdFrom  : Option Nat := none
  lastRun : Nat := 0
  seen    : Tab Nat := []
  chk     : Tab (Option Check) := []
  mirror  : Tab (List Byte) := []
deriving DecidableEq, Repr

/-- Where a pass stands: the lines of R294, R298, R304, R312, R314 and R319 whose jobs run. -/
inductive SeqPhase
  | hydNewton | estEval | estRows | estStep | estAdd | estNorm | bdSolve | bdMul
  | dspForecast | dspAssemble | dspWarm | dspFactor | dspRhs | dspPcg | dspUpdate | dspNorm | dspProject
deriving DecidableEq, Repr

/-- Sizes of a model and of a dispatch program that place the Sequencer's objects (log entry 86): nodes, branches, free nodes, pressure,
flow and all rows, entries of H and of J, HEX and PLANT branches, published estimates; states, inputs, horizon, rows of A_h, entries of
A_h and of K, disturbances, prices, targets, observer sources, published values, forecast points, delay paths, bytes of a forecast's
scratch state, length of the kept vectors. -/
structure SeqDim where
  nn : Nat := 0
  nb : Nat := 0
  nf : Nat := 0
  np : Nat := 0
  nq : Nat := 0
  nh : Nat := 0
  nj : Nat := 0
  nHex : Nat := 0
  nPlant : Nat := 0
  nPubE : Nat := 0
  nx : Nat := 0
  nu : Nat := 0
  nst : Nat := 0
  nr : Nat := 0
  na : Nat := 0
  nk : Nat := 0
  nw : Nat := 0
  nPrice : Nat := 0
  nTgt : Nat := 0
  nObs : Nat := 0
  nPubD : Nat := 0
  nPts : Nat := 0
  nPath : Nat := 0
  stLen : Nat := 0
  old : Nat := 0
deriving DecidableEq, Repr

/-- A pass of the Sequencer in progress (R284, R294, R304, R314): its start, deadline, flags, LANE_FAILS at the start, the slot of the
model it began with, the iteration reached, the last one that ended OK or was committed, refactorisations, whether its solve was run
again, whether a lane retired under it, measurements removed, its set buffer, the status it will end with, the isolated nodes of its
last evaluation, PLAN_T0; then the line at which it stands, descriptors of that line not yet submitted, the ring index of the job it
waits for, and DOT results of the line so far. A hydraulic solve keeps θ as a power of 1/2, the last ‖f‖² and the last MIX flows; the
bad-data test its candidate rows left and rn² found; a DSP pass the exponents of ρ now and at the committed iterate, the forecast block,
its program's sizes, whole delays with rests, the heads of the estimate it plans from, the vectors from which the committed right-hand side was formed, and the exponent of the
primal residual. -/
structure Pass where
  start  : Nat := 0
  due    : Nat := 0
  flags  : Nat := 0
  fails  : Word := 0
  slot   : Nat := 0
  iter   : Nat := 0
  lastOk : Nat := 0
  refac  : Nat := 0
  again  : Bool := false
  suspect : Bool := false
  removed : Nat := 0
  buf    : Option Nat := none
  status : Nat := 0
  iso    : List Nat := []
  planT0 : Nat := 0
  phase  : SeqPhase := .estEval
  todo   : List (List Word) := []
  await  : Option Nat := none
  dots   : List (Int × Int) := []
  theta  : Nat := 0
  fn     : Option Rat := none
  mix    : List Int := []
  cand   : List Nat := []
  rns    : List (Nat × Rat) := []
  rho    : Int := 0
  rhoOk  : Int := 0
  fcIn   : Option (List Byte) := none
  dim    : SeqDim := {}
  del    : List (Nat × Rat) := []
  heads  : List Int := []
  origin : List (List Int) := []
  rexp   : Int := 0
deriving DecidableEq, Repr

/-- An estimate of the state (R297): the pass's tag, its model by image digest, its start, and the heads of the free nodes as
mantissas; `diag` are those of the diagonal preconditioner formed after it (R296), none before that. -/
structure Estimate where
  tag   : Nat := 0
  key   : Nat := 0
  start : Nat := 0
  heads : List Int := []
  diag  : List Int := []
deriving DecidableEq, Repr

/-- The kept iterate of a DSP pass (R320): its model by image digest, whole delays, PLAN_T0, the exponent of ρ, the fingerprint of K,
the vectors v, z, y and ṽ, and the ID table of v and ṽ. -/
structure KeptIter where
  key   : Nat := 0
  whole : List Nat := []
  t0    : Nat := 0
  rho   : Int := 0
  fp    : Nat := 0
  v     : List Int := []
  z     : List Int := []
  y     : List Int := []
  vt    : List Int := []
  ids   : List Nat := []
deriving DecidableEq, Repr

/-- What a HYD pass takes from the plan handed over (R305): the model's slot, the inputs of step 0 and the initial state. -/
structure HydIn where
  slot : Nat := 0
  u    : List Rat := []
  x    : List Rat := []
deriving DecidableEq, Repr

/-- The Sequencer beyond its registers (R284 to R323): passes, the handoff SEQ, measurements held out with the passes left,
isolated nodes of the previous pass, MEAS_STALE recorded, the host forecast block accepted last, echo history by step number, the
output bias is old, a HYD pass is due; then the newest estimates, newest first, the previous P_HEX and T_IDLE by BRANCH_ID, the output
bias with its model, the kept iterate, for which program the IC(0) factor stands (model, address, whole delays) and its ρ, the plan a
HYD pass is due for, the ring index of the newest DSP or HYD job, the estimate tag streamed last, and whether streamed objects are to
be taken once the side acts (R288). -/
structure DsqSt where
  est    : Option Pass := none
  dsp    : Option Pass := none
  hyd    : Option Pass := none
  seq    : Nat := 0
  held   : List (Word × Nat) := []
  iso    : List Nat := []
  stale  : Bool := false
  fcIn   : Option (List Byte) := none
  hist   : List (Nat × List Byte) := []
  biasOld : Bool := false
  hydDue : Bool := false
  ests   : List Estimate := []
  flowOld : List (Nat × Rat × Rat) := []
  bias   : Nat × List Rat := (0, [])
  kept   : Option KeptIter := none
  built  : Option ((Nat × Nat × List Nat) × Int) := none
  hydIn  : HydIn := {}
  last   : Option Nat := none
  sent   : Nat := 0
  adopt  : Bool := true
deriving DecidableEq, Repr

/-- A job taken from the ring and not yet ended (R192 to R201): ring index, descriptor, clusters, start, the operand
elements and the other bytes it writes at its end, what its record will say, and what it meets. -/
structure Job where
  idx    : Nat
  desc   : List Word
  cl     : Nat
  start  : Nat
  data   : List (Nat × List Byte) := []
  other  : List (Nat × List Byte) := []
  out    : Nat := 0
  flags  : Nat := 0
  iters  : Nat := 0
  pivots : Nat := 0
  res    : Int × Int := (0, 0)
  rhs    : Int × Int := (0, 0)
  iso    : Nat := 0
  warm   : Nat × Nat × Nat × Nat := (0, 0, 0, 0)
  rngAt  : Nat × Nat × Nat := (0, 0, 0)
  log    : Option (List Nat) := none
  cut    : JobCut := {}
deriving DecidableEq, Repr

/-- Network Solver Unit beyond its registers (R192, R228 to R231): jobs running, the time of each lane's last passed test
(key 64 c + lane), the lane each cluster tested last, the lanes tested since the first entry to RUN after the domain came ON, and
whether that entry has been. -/
structure NsuSt where
  jobs   : List Job := []
  passed : Tab Nat := []
  cur    : Tab Nat := []
  tested : Tab Bool := []
  swept  : Bool := false
deriving DecidableEq, Repr

/-- The models in the yard (R155 to R162): whether one is in force, its slot, and how many
came into force. -/
structure ModelSt where
  act  : Bool := false
  slot : Nat := 0
  gen  : Nat := 0
deriving DecidableEq, Repr

/-- A barge (R247): mass in 2^-8 kg, entry temperature in 2^-16 degC, flags, origin, ages in 100 ms and in ms. -/
structure Barge where
  mass   : Nat
  tEntry : Nat
  flags  : Nat
  origin : Nat
  pAge   : Nat
  age    : Nat
deriving DecidableEq, Repr

/-- What the tracker holds of a node (R252): temperature in 2^-16 degC, age in ms, origin. -/
structure NodeT where
  t      : Nat
  age    : Nat
  origin : Nat
deriving DecidableEq, Repr

/-- A queued pipe of the model that a state copy belongs to (R244, R246, R279). -/
structure PipeRec where
  branch : Nat
  bid    : Nat
  fromN  : Nat
  toN    : Nat
  slots  : Nat
  mass   : Nat
  kp     : Nat
  tg     : Int
  tInit  : Nat
deriving DecidableEq, Repr

/-- A state copy with the queues of its bank (R251, R252): queue i belongs to pipe record i; stores are (branch ID, charged mass in kg,
energy in J); the flows and thermal inputs used last, by branch (R257, R259). -/
structure BtkCopy where
  gen    : Nat := 0
  pipes  : List PipeRec := []
  queues : List (List Barge) := []
  nodes  : List (Nat × NodeT) := []
  stores : List (Nat × Rat × Rat) := []
  flows  : List Rat := []
  heat   : List Rat := []
  tIdle  : List Rat := []
  tPlant : List Rat := []
  t      : Nat := 0
deriving DecidableEq, Repr

/-- An output buffer (R271). -/
structure BtkOut where
  step  : Nat := 0
  t     : Nat := 0
  flags : Nat := 0
  temps : List Nat := []
  ages  : List Nat := []
deriving DecidableEq, Repr

/-- A running forecast (R273, R274). -/
structure FcJob where
  n     : Nat
  stepS : Nat
  flows : Nat
  table : Nat
  delay : Nat
  scratch : Nat
  copy  : BtkCopy
deriving DecidableEq, Repr

/-- Barge tracker beyond its registers (R251 to R280): the committed copy and the bank that holds its queues, the step
in progress with its flags, the flow set used last and the ground offset applied at the commit and, ending in N, in the step in progress,
whether a step was skipped, and whether the side was not acting at the last step instant. -/
structure BtkSt where
  com    : Option BtkCopy := none
  bankB  : Bool := false
  next   : Option (BtkCopy × Nat) := none
  setGen : Option Nat := none
  setT   : Nat := 0
  tg     : Int := 0
  setGenN : Option Nat := none
  setTN  : Nat := 0
  tgN    : Int := 0
  skipped : Bool := false
  idle   : Bool := false
  out0   : BtkOut := {}
  out1   : BtkOut := {}
  fc     : Option FcJob := none
deriving DecidableEq, Repr

/-- Faults that stop the model: there are none. What the block reports as an error it reports in a next state, and a value the
spec leaves open is a free one. -/
inductive Fault
deriving DecidableEq, Repr

/-- A refusal. -/
inductive Refusal
  /-- Raised by the dispatch for a command that has no meaning yet. Safe. -/
  | notModelled (mnemonic : String)
deriving DecidableEq, Repr

/-- The whole state of the block. -/
structure State where
  /-- Commands waiting, first in, first out. -/
  pending : List Instr := []
  /-- Response of the newest register access (log entry 7). -/
  resp    : Resp := {}
  /-- Counter of free values drawn (log entry 8). -/
  free    : Nat := 0
  /-- Register file, keyed by bus address; an unlisted register holds its reset value. -/
  regs    : Tab Word := []
  pages   : Tab PageHdr := []
  plic    : Plics := {}
  blks    : Tab Blk := []
  /-- Yard memory, keyed by byte address (R170). -/
  yard    : Tab Byte := []
  /-- LPDDR5, keyed by bus address (R107). -/
  dram    : Tab Byte := []
  /-- Stall windows, keyed by bus address (R39, R386). -/
  stallMem : Tab Byte := []
  /-- TCMs of the logic cores, keyed by bus address (R107). -/
  tcm     : Tab Byte := []
  /-- Process image (R342). -/
  img     : Tab Byte := []
  pwr     : PwrSt := {}
  time    : TimeSt := {}
  evr     : EvrSt := {}
  eth     : Tab EthPort := []
  ptp     : PtpSt := {}
  cap     : Tab CapCh := []
  rtc     : RtcSt := {}
  pnl     : PnlSt := {}
  can     : Tab CanCh := []
  plk     : PlkSt := {}
  axes    : Tab Axis := []
  dlk     : Tab Dlk := []
  mtr     : MtrSt := {}
  pls     : Tab PulseOut := []
  sec     : SecSt := {}
  stalls  : Tab Stall := []
  lge     : LgeSt := {}
  kpr     : KprSt := {}
  dsq     : DsqSt := {}
  nsu     : NsuSt := {}
  mdl     : ModelSt := {}
  btk     : BtkSt := {}
deriving DecidableEq, Repr

/-- The machine right after reset: every field as the spec states it, and as the assumption log names it where the
spec states none (log entries 1 to 8, 12). Nothing is listed in any memory; the queue is empty. -/
def State.reset : State := {}

end Sys2Proof.Machine
end

