-- ==== Sys2Proof/Machine/RegTable.lean ====
section
/-! DEFINITION. The register tables of the chapters: for each kind of page, every register with its offset,
its repetition, its access code (R9), its reset value, the bits its table documents (all other bits are reserved
and read zero, R6), and the range its Purpose gives. A reset value the spec does not give stands as zero (log entry 2).
Pages with rows: see R61, R81, R84, R155, R236 to R240, R281, R336, R381 to R383, R422, R457, R459, R461, R482, R513,
R541 to R546, R584, R589, R614, R639, R657, R673, R692, R709 and R234. -/

namespace Sys2Proof.Machine

def sysRows : List RegRow := [
  ⟨0x800, 0, 1, 0, 1, .ro, 0x0, 0x0, 0, 4294967295⟩,
  ⟨0x804, 0, 1, 0, 1, .ro, 0x0, 0x0, 0, 4294967295⟩,
  ⟨0x808, 0, 1, 0, 1, .ro, 0x0, 0x0, 0, 4294967295⟩,
  ⟨0x80c, 0, 1, 0, 1, .ro, 0x0, 0x0, 0, 4294967295⟩,
  ⟨0x810, 0, 1, 0, 1, .wo, 0x0, 0x0, 0, 4294967295⟩,
  ⟨0x814, 0, 1, 0, 1, .ro, 0x0, 0x0, 0, 4294967295⟩,
  ⟨0x818, 0, 1, 0, 1, .ro, 0x0, 0x0, 0, 4294967295⟩]

def pwrRows : List RegRow := [
  ⟨0x100, 0, 1, 0, 1, .rw, 0xa, 0xffffffff, 1, 50⟩,
  ⟨0x104, 0, 1, 0, 1, .rw, 0x3e8, 0xffffffff, 100, 10000⟩,
  ⟨0x800, 0, 1, 0, 1, .rw, 0x0, 0xccff00, 0, 4294967295⟩,
  ⟨0x804, 0, 1, 0, 1, .kp, 0x0, 0x300c0, 0, 4294967295⟩,
  ⟨0x808, 0, 1, 0, 1, .ro, 0x100015, 0x0, 0, 4294967295⟩,
  ⟨0x80c, 0, 1, 0, 1, .w1c, 0x0, 0xfff0fff, 0, 4294967295⟩,
  ⟨0x810, 0, 1, 0, 1, .ro, 0x0, 0x0, 0, 4294967295⟩,
  ⟨0x814, 0, 1, 0, 1, .ro, 0x0, 0x0, 0, 4294967295⟩,
  ⟨0x818, 0, 1, 0, 1, .ro, 0x0, 0x0, 0, 4294967295⟩,
  ⟨0x81c, 0, 1, 0, 1, .ro, 0x0, 0x0, 0, 4294967295⟩,
  ⟨0x820, 0, 1, 0, 1, .w1c, 0x1, 0xff, 0, 4294967295⟩,
  ⟨0x824, 0, 1, 0, 1, .wo, 0x0, 0x0, 0, 4294967295⟩,
  ⟨0x828, 0, 1, 0, 1, .ro, 0x0, 0x0, 0, 4294967295⟩]

def clkRows : List RegRow := [
  ⟨0x800, 0, 1, 0, 1, .ro, 0x407, 0x0, 0, 4294967295⟩]

def kpr0Rows : List RegRow := [
  ⟨0x800, 0, 1, 0, 1, .kp, 0x0, 0x0, 0, 4294967295⟩,
  ⟨0x804, 0, 1, 0, 1, .kp, 0x0, 0x0, 0, 4294967295⟩,
  ⟨0x808, 0, 1, 0, 1, .kp, 0x0, 0x0, 0, 4294967295⟩,
  ⟨0x80c, 0, 1, 0, 1, .kp, 0x0, 0x0, 0, 4294967295⟩,
  ⟨0x810, 0, 1, 0, 1, .kp, 0x0, 0x0, 0, 4294967295⟩,
  ⟨0x814, 0, 1, 0, 1, .kp, 0x0, 0x0, 0, 4294967295⟩]

def kpr1Rows : List RegRow := [
  ⟨0x100, 0, 1, 0, 1, .kp, 0x64, 0xffffffff, 1, 1000⟩,
  ⟨0x104, 0, 1, 0, 1, .kp, 0x18, 0xffffffff, 8, 60⟩,
  ⟨0x108, 0, 1, 0, 1, .kp, 0x384, 0xffffffff, 60, 86400⟩,
  ⟨0x10c, 0, 1, 0, 1, .kp, 0x3e8, 0xffffffff, 100, 60000⟩,
  ⟨0x110, 0, 1, 0, 1, .kp, 0x64, 0xffffffff, 1, 10000⟩,
  ⟨0x120, 4, 4, 0, 1, .kp, 0x1f, 0x1f, 0, 4294967295⟩,
  ⟨0x140, 4, 4, 0, 1, .kp, 0x0, 0x7, 0, 4294967295⟩]

def kpr2Rows : List RegRow := [
  ⟨0x800, 0, 1, 0, 1, .kp, 0x0, 0x0, 0, 4294967295⟩,
  ⟨0x804, 0, 1, 0, 1, .kp, 0x0, 0x0, 0, 4294967295⟩,
  ⟨0x808, 0, 1, 0, 1, .kp, 0x0, 0x0, 0, 4294967295⟩,
  ⟨0x80c, 0, 1, 0, 1, .kp, 0x0, 0x0, 0, 4294967295⟩,
  ⟨0x810, 0, 1, 0, 1, .kp, 0x0, 0x0, 0, 4294967295⟩,
  ⟨0x814, 0, 1, 0, 1, .kp, 0x0, 0x0, 0, 4294967295⟩,
  ⟨0x818, 0, 1, 0, 1, .kp, 0x0, 0x0, 0, 4294967295⟩,
  ⟨0x820, 8, 3, 0, 1, .kp, 0x0, 0x0, 0, 4294967295⟩,
  ⟨0x824, 8, 3, 0, 1, .kp, 0x0, 0x0, 0, 4294967295⟩]

def kpr3Rows : List RegRow := [
  ⟨0x800, 0, 1, 0, 1, .rw, 0x0, 0x1fff, 0, 4294967295⟩,
  ⟨0x804, 0, 1, 0, 1, .kp, 0x0, 0x0, 0, 4294967295⟩,
  ⟨0x808, 0, 1, 0, 1, .kp, 0x0, 0x0, 0, 4294967295⟩,
  ⟨0x80c, 0, 1, 0, 1, .kp, 0x0, 0x0, 0, 4294967295⟩,
  ⟨0x820, 4, 8, 0, 1, .kp, 0x0, 0x0, 0, 4294967295⟩]

def secRows0 : List RegRow := [
  ⟨0x800, 0, 1, 0, 1, .wo, 0x0, 0x0, 0, 4294967295⟩,
  ⟨0x804, 0, 1, 0, 1, .wo, 0x0, 0x0, 0, 4294967295⟩,
  ⟨0x808, 0, 1, 0, 1, .ro, 0x0, 0x0, 0, 4294967295⟩,
  ⟨0x80c, 0, 1, 0, 1, .ro, 0x0, 0x0, 0, 4294967295⟩,
  ⟨0x810, 0, 1, 0, 1, .ro, 0x0, 0x0, 0, 4294967295⟩,
  ⟨0x814, 0, 1, 0, 1, .ro, 0x0, 0x0, 0, 4294967295⟩,
  ⟨0x818, 0, 1, 0, 1, .ro, 0x0, 0x0, 0, 4294967295⟩,
  ⟨0x81c, 0, 1, 0, 1, .ro, 0x0, 0x0, 0, 4294967295⟩,
  ⟨0x820, 0, 1, 0, 1, .ro, 0x0, 0x0, 0, 4294967295⟩,
  ⟨0x840, 4, 16, 0, 1, .ro, 0x0, 0x0, 0, 4294967295⟩,
  ⟨0x880, 8, 16, 0, 1, .ro, 0x0, 0x0, 0, 4294967295⟩,
  ⟨0x884, 8, 16, 0, 1, .ro, 0x0, 0x0, 0, 4294967295⟩,
  ⟨0x900, 0, 1, 0, 1, .ro, 0x0, 0x0, 0, 4294967295⟩,
  ⟨0x904, 0, 1, 0, 1, .wo, 0x0, 0x0, 0, 4294967295⟩,
  ⟨0x908, 0, 1, 0, 1, .ro, 0x0, 0x0, 0, 4294967295⟩,
  ⟨0x90c, 0, 1, 0, 1, .ro, 0x0, 0x0, 0, 4294967295⟩,
  ⟨0x920, 4, 8, 0, 1, .wo, 0x0, 0x0, 0, 4294967295⟩,
  ⟨0x940, 0, 1, 0, 1, .wo, 0x0, 0x0, 0, 4294967295⟩,
  ⟨0x960, 4, 8, 0, 1, .rw, 0x0, 0xffffffff, 0, 4294967295⟩,
  ⟨0x980, 0, 1, 0, 1, .rw, 0x0, 0xffffffff, 0, 4294967295⟩,
  ⟨0x984, 0, 1, 0, 1, .rw, 0x0, 0xffffffff, 0, 4294967295⟩,
  ⟨0x988, 0, 1, 0, 1, .rw, 0xff, 0xff, 0, 4294967295⟩,
  ⟨0x98c, 0, 1, 0, 1, .wo, 0x0, 0x0, 0, 4294967295⟩,
  ⟨0x990, 0, 1, 0, 1, .ro, 0x0, 0x0, 0, 4294967295⟩]
def secRows1 : List RegRow := [
  ⟨0xa00, 32, 8, 4, 8, .ro, 0x0, 0x0, 0, 4294967295⟩,
  ⟨0xb00, 4, 8, 0, 1, .ro, 0x0, 0x0, 0, 4294967295⟩]
def secRows : List RegRow := secRows0 ++ secRows1

def nvmRows : List RegRow := [
  ⟨0x800, 8, 4, 0, 1, .ro, 0x0, 0x0, 0, 4294967295⟩,
  ⟨0x804, 8, 4, 0, 1, .ro, 0x0, 0x0, 0, 4294967295⟩]

def evrRows : List RegRow := [
  ⟨0x100, 0, 1, 0, 1, .rws, 0x64, 0xffffffff, 10, 1000⟩,
  ⟨0x104, 0, 1, 0, 1, .rws, 0x5a, 0xffffffff, 50, 99⟩,
  ⟨0x108, 0, 1, 0, 1, .rws, 0x0, 0x3ff, 0, 4294967295⟩,
  ⟨0x10c, 0, 1, 0, 1, .rws, 0x10003c, 0xff0fff, 0, 4294967295⟩,
  ⟨0x800, 0, 1, 0, 1, .ro, 0x0, 0x0, 0, 4294967295⟩,
  ⟨0x804, 0, 1, 0, 1, .ro, 0x0, 0x0, 0, 4294967295⟩,
  ⟨0x808, 0, 1, 0, 1, .ro, 0x0, 0x0, 0, 4294967295⟩,
  ⟨0x80c, 0, 1, 0, 1, .ro, 0x0, 0x0, 0, 4294967295⟩,
  ⟨0x810, 4, 4, 0, 1, .ro, 0x0, 0x0, 0, 4294967295⟩,
  ⟨0x820, 0, 1, 0, 1, .ro, 0x0, 0x0, 0, 4294967295⟩,
  ⟨0x824, 0, 1, 0, 1, .ro, 0x0, 0x0, 0, 4294967295⟩,
  ⟨0x828, 0, 1, 0, 1, .ro, 0x0, 0x0, 0, 4294967295⟩,
  ⟨0x82c, 0, 1, 0, 1, .ro, 0x0, 0x0, 0, 4294967295⟩,
  ⟨0x830, 0, 1, 0, 1, .ro, 0x0, 0x0, 0, 4294967295⟩,
  ⟨0x840, 0, 1, 0, 1, .rw, 0x0, 0xffffffff, 0, 4294967295⟩,
  ⟨0x900, 4, 72, 0, 1, .ro, 0x0, 0x0, 0, 4294967295⟩,
  ⟨0xa40, 0, 1, 0, 1, .wo, 0x0, 0x0, 0, 4294967295⟩,
  ⟨0xb00, 4, 64, 0, 1, .rw, 0x0, 0xffffffff, 0, 4294967295⟩]

def rtcRows : List RegRow := [
  ⟨0x800, 0, 1, 0, 1, .ro, 0x0, 0x0, 0, 4294967295⟩,
  ⟨0x804, 0, 1, 0, 1, .ro, 0x1010600, 0x0, 0, 4294967295⟩,
  ⟨0x808, 0, 1, 0, 1, .ro, 0x7d0, 0x0, 0, 4294967295⟩,
  ⟨0x80c, 0, 1, 0, 1, .rw, 0x0, 0x3f3f7fff, 0, 4294967295⟩,
  ⟨0x810, 0, 1, 0, 1, .rw, 0x1010600, 0xf1f071f, 0, 4294967295⟩,
  ⟨0x814, 0, 1, 0, 1, .rw, 0x7d0, 0xfff, 0, 4294967295⟩,
  ⟨0x818, 0, 1, 0, 1, .wo, 0x0, 0x0, 0, 4294967295⟩,
  ⟨0x81c, 0, 1, 0, 1, .ro, 0x0, 0x0, 0, 4294967295⟩,
  ⟨0x820, 0, 1, 0, 1, .w1c, 0x10, 0x3f, 0, 4294967295⟩,
  ⟨0x830, 16, 2, 0, 1, .rw, 0x0, 0x3f3f0000, 0, 4294967295⟩,
  ⟨0x834, 16, 2, 0, 1, .rw, 0x0, 0xf1f071f, 0, 4294967295⟩,
  ⟨0x838, 16, 2, 0, 1, .rw, 0x0, 0xfff, 0, 4294967295⟩,
  ⟨0x83c, 16, 2, 0, 1, .rw, 0x7f, 0x17f, 0, 4294967295⟩,
  ⟨0x850, 0, 1, 0, 1, .rw, 0x100, 0x81ffffff, 0, 4294967295⟩,
  ⟨0x854, 0, 1, 0, 1, .rw, 0x0, 0x103ff, 0, 4294967295⟩,
  ⟨0x858, 0, 1, 0, 1, .ro, 0x0, 0x0, 0, 4294967295⟩]

def nsu0Rows : List RegRow := [
  ⟨0x100, 0, 1, 0, 1, .rws, 0xf, 0xf, 1, 15⟩,
  ⟨0x800, 0, 1, 0, 1, .ro, 0x0, 0x0, 0, 4294967295⟩,
  ⟨0x804, 0, 1, 0, 1, .ro, 0x0, 0x0, 0, 4294967295⟩,
  ⟨0x808, 0, 1, 0, 1, .ro, 0x0, 0x0, 0, 4294967295⟩,
  ⟨0x80c, 0, 1, 0, 1, .ro, 0x0, 0x0, 0, 4294967295⟩,
  ⟨0x810, 0, 1, 0, 1, .ro, 0x0, 0x0, 0, 4294967295⟩,
  ⟨0x814, 0, 1, 0, 1, .ro, 0x0, 0x0, 0, 4294967295⟩,
  ⟨0x818, 0, 1, 0, 1, .ro, 0x0, 0x0, 0, 4294967295⟩,
  ⟨0x81c, 0, 1, 0, 1, .ro, 0x0, 0x0, 0, 4294967295⟩]

def nsucRows : List RegRow := [
  ⟨0x800, 0, 1, 0, 1, .ro, 0x3f0020, 0x0, 0, 4294967295⟩,
  ⟨0x804, 0, 1, 0, 1, .ro, 0x0, 0x0, 0, 4294967295⟩,
  ⟨0x808, 0, 1, 0, 1, .ro, 0x0, 0x0, 0, 4294967295⟩,
  ⟨0x80c, 0, 1, 0, 1, .ro, 0x0, 0x0, 0, 4294967295⟩,
  ⟨0x810, 0, 1, 0, 1, .ro, 0x0, 0x0, 0, 4294967295⟩,
  ⟨0x814, 0, 1, 0, 1, .ro, 0x0, 0x0, 0, 4294967295⟩]

def nsuyRows : List RegRow := [
  ⟨0x100, 0, 1, 0, 1, .rws, 0x3c, 0xffffffff, 1, 3600⟩,
  ⟨0x800, 0, 1, 0, 1, .ro, 0x0, 0x0, 0, 4294967295⟩,
  ⟨0x804, 0, 1, 0, 1, .ro, 0x0, 0x0, 0, 4294967295⟩,
  ⟨0x808, 0, 1, 0, 1, .ro, 0x0, 0x0, 0, 4294967295⟩,
  ⟨0x80c, 0, 1, 0, 1, .ro, 0x0, 0x0, 0, 4294967295⟩,
  ⟨0x810, 0, 1, 0, 1, .ro, 0x0, 0x0, 0, 4294967295⟩,
  ⟨0x814, 0, 1, 0, 1, .ro, 0x20000000, 0x0, 0, 4294967295⟩]

def nsuqRows : List RegRow := [
  ⟨0x100, 0, 1, 0, 1, .rws, 0x20000000, 0xffffffff, 0, 4294967295⟩,
  ⟨0x104, 0, 1, 0, 1, .rws, 0x40, 0xffffffff, 0, 4294967295⟩,
  ⟨0x800, 0, 1, 0, 1, .ro, 0x0, 0x0, 0, 4294967295⟩,
  ⟨0x804, 0, 1, 0, 1, .rw, 0x0, 0xffffffff, 0, 4294967295⟩,
  ⟨0x808, 0, 1, 0, 1, .ro, 0x0, 0x0, 0, 4294967295⟩,
  ⟨0x80c, 0, 1, 0, 1, .ro, 0x0, 0x0, 0, 4294967295⟩,
  ⟨0x810, 0, 1, 0, 1, .ro, 0x0, 0x0, 0, 4294967295⟩,
  ⟨0x814, 0, 1, 0, 1, .ro, 0x0, 0x0, 0, 4294967295⟩]

def nsulRows : List RegRow := [
  ⟨0x100, 8, 4, 0, 1, .rws, 0x0, 0xffffffff, 0, 4294967295⟩,
  ⟨0x104, 8, 4, 0, 1, .rws, 0x0, 0x3, 0, 4294967295⟩,
  ⟨0x800, 8, 4, 0, 1, .ro, 0x0, 0x0, 0, 4294967295⟩,
  ⟨0x804, 8, 4, 0, 1, .ro, 0x0, 0x0, 0, 4294967295⟩,
  ⟨0x840, 0, 1, 0, 1, .ro, 0x0, 0x0, 0, 4294967295⟩]

def btkRows0 : List RegRow := [
  ⟨0x100, 0, 1, 0, 1, .rws, 0x3e8, 0xffffffff, 100, 1000⟩,
  ⟨0x104, 0, 1, 0, 1, .rws, 0x0, 0xffffffff, 0, 4294967295⟩,
  ⟨0x108, 0, 1, 0, 1, .rws, 0x0, 0xffffffff, 0, 4294967295⟩,
  ⟨0x10c, 0, 1, 0, 1, .rws, 0x0, 0xffffffff, 0, 4294967295⟩,
  ⟨0x110, 0, 1, 0, 1, .rws, 0x0, 0xffffffff, 0, 4294967295⟩,
  ⟨0x114, 0, 1, 0, 1, .rws, 0x0, 0xffffffff, 0, 4294967295⟩,
  ⟨0x118, 0, 1, 0, 1, .rws, 0x0, 0xffffffff, 0, 4294967295⟩,
  ⟨0x11c, 0, 1, 0, 1, .rws, 0x7d0, 0xffffffff, 100, 60000⟩,
  ⟨0x120, 0, 1, 0, 1, .rws, 0x3c, 0xffffffff, 10, 300⟩,
  ⟨0x124, 0, 1, 0, 1, .rws, 0x100, 0xffffffff, 0, 4294967295⟩,
  ⟨0x128, 0, 1, 0, 1, .rws, 0x0, 0xffffffff, 0, 1⟩,
  ⟨0x800, 0, 1, 0, 1, .ro, 0x0, 0x0, 0, 4294967295⟩,
  ⟨0x804, 0, 1, 0, 1, .ro, 0x0, 0x0, 0, 4294967295⟩,
  ⟨0x808, 0, 1, 0, 1, .ro, 0x0, 0x0, 0, 4294967295⟩,
  ⟨0x80c, 0, 1, 0, 1, .ro, 0x0, 0x0, 0, 4294967295⟩,
  ⟨0x810, 0, 1, 0, 1, .ro, 0x0, 0x0, 0, 4294967295⟩,
  ⟨0x814, 0, 1, 0, 1, .ro, 0x0, 0x0, 0, 4294967295⟩,
  ⟨0x818, 0, 1, 0, 1, .ro, 0x0, 0x0, 0, 4294967295⟩,
  ⟨0x81c, 0, 1, 0, 1, .ro, 0x0, 0x0, 0, 4294967295⟩,
  ⟨0x820, 0, 1, 0, 1, .ro, 0x0, 0x0, 0, 4294967295⟩,
  ⟨0x824, 0, 1, 0, 1, .ro, 0x0, 0x0, 0, 4294967295⟩,
  ⟨0x828, 0, 1, 0, 1, .ro, 0x0, 0x0, 0, 4294967295⟩,
  ⟨0x82c, 0, 1, 0, 1, .rw, 0x0, 0xffffffff, 0, 4294967295⟩,
  ⟨0x830, 0, 1, 0, 1, .rw, 0x0, 0xffffffff, 0, 4294967295⟩]
def btkRows1 : List RegRow := [
  ⟨0x834, 0, 1, 0, 1, .wo, 0x0, 0x0, 0, 4294967295⟩,
  ⟨0x838, 0, 1, 0, 1, .ro, 0x0, 0x0, 0, 4294967295⟩,
  ⟨0x83c, 0, 1, 0, 1, .ro, 0x0, 0x0, 0, 4294967295⟩]
def btkRows : List RegRow := btkRows0 ++ btkRows1

def dsqRows0 : List RegRow := [
  ⟨0x880, 0, 1, 0, 1, .rw, 0x0, 0xffffffff, 0, 4294967295⟩,
  ⟨0x884, 0, 1, 0, 1, .rw, 0x0, 0xffffffff, 0, 4294967295⟩,
  ⟨0x888, 0, 1, 0, 1, .rw, 0x0, 0xffffffff, 0, 4294967295⟩,
  ⟨0x88c, 0, 1, 0, 1, .wo, 0x0, 0x0, 0, 4294967295⟩,
  ⟨0x890, 0, 1, 0, 1, .ro, 0x0, 0x0, 0, 4294967295⟩,
  ⟨0x894, 0, 1, 0, 1, .ro, 0x0, 0x0, 0, 4294967295⟩,
  ⟨0x898, 0, 1, 0, 1, .ro, 0x0, 0x0, 0, 4294967295⟩,
  ⟨0x89c, 0, 1, 0, 1, .ro, 0x0, 0x0, 0, 4294967295⟩,
  ⟨0x100, 0, 1, 0, 1, .rws, 0x64, 0xffffffff, 50, 10000⟩,
  ⟨0x104, 0, 1, 0, 1, .rws, 0x32, 0xffffffff, 0, 4294967295⟩,
  ⟨0x108, 0, 1, 0, 1, .rws, 0x3c, 0xffffffff, 10, 3600⟩,
  ⟨0x10c, 0, 1, 0, 1, .rws, 0x14, 0xffffffff, 0, 4294967295⟩,
  ⟨0x110, 0, 1, 0, 1, .rws, 0x1f4, 0xffffffff, 50, 60000⟩,
  ⟨0x114, 0, 1, 0, 1, .rws, 0xc03, 0xf0f, 0, 4294967295⟩,
  ⟨0x118, 0, 1, 0, 1, .rws, 0x20001000, 0xffffffff, 0, 4294967295⟩,
  ⟨0x11c, 0, 1, 0, 1, .rws, 0x16fe000, 0xffffffff, 0, 4294967295⟩,
  ⟨0x120, 0, 1, 0, 1, .rws, 0x0, 0xffffffff, 0, 4294967295⟩,
  ⟨0x124, 0, 1, 0, 1, .rws, 0x0, 0xffffffff, 0, 4294967295⟩,
  ⟨0x128, 0, 1, 0, 1, .rws, 0x0, 0xffffffff, 0, 4294967295⟩,
  ⟨0x800, 0, 1, 0, 1, .ro, 0x0, 0x0, 0, 4294967295⟩,
  ⟨0x804, 0, 1, 0, 1, .ro, 0x0, 0x0, 0, 4294967295⟩,
  ⟨0x808, 0, 1, 0, 1, .ro, 0x0, 0x0, 0, 4294967295⟩,
  ⟨0x80c, 0, 1, 0, 1, .ro, 0x0, 0x0, 0, 4294967295⟩,
  ⟨0x810, 0, 1, 0, 1, .ro, 0x0, 0x0, 0, 4294967295⟩]
def dsqRows1 : List RegRow := [
  ⟨0x814, 0, 1, 0, 1, .ro, 0x0, 0x0, 0, 4294967295⟩,
  ⟨0x818, 0, 1, 0, 1, .ro, 0x0, 0x0, 0, 4294967295⟩,
  ⟨0x81c, 0, 1, 0, 1, .ro, 0x0, 0x0, 0, 4294967295⟩,
  ⟨0x820, 0, 1, 0, 1, .ro, 0x0, 0x0, 0, 4294967295⟩,
  ⟨0x824, 0, 1, 0, 1, .ro, 0x0, 0x0, 0, 4294967295⟩,
  ⟨0x828, 0, 1, 0, 1, .ro, 0x0, 0x0, 0, 4294967295⟩,
  ⟨0x82c, 0, 1, 0, 1, .ro, 0x0, 0x0, 0, 4294967295⟩,
  ⟨0x830, 0, 1, 0, 1, .ro, 0x0, 0x0, 0, 4294967295⟩,
  ⟨0x840, 0, 1, 0, 1, .wo, 0x0, 0x0, 0, 4294967295⟩]
def dsqRows : List RegRow := dsqRows0 ++ dsqRows1

def lge0Rows : List RegRow := [
  ⟨0x100, 0, 1, 0, 1, .rws, 0x0, 0xffffffff, 0, 1000000⟩,
  ⟨0x104, 0, 1, 0, 1, .rws, 0x0, 0xffffffff, 0, 1⟩,
  ⟨0x800, 0, 1, 0, 1, .ro, 0x0, 0x0, 0, 4294967295⟩,
  ⟨0x804, 0, 1, 0, 1, .ro, 0x0, 0x0, 0, 4294967295⟩,
  ⟨0x808, 0, 1, 0, 1, .ro, 0x0, 0x0, 0, 4294967295⟩,
  ⟨0x80c, 0, 1, 0, 1, .ro, 0x0, 0x0, 0, 4294967295⟩,
  ⟨0x810, 0, 1, 0, 1, .ro, 0x0, 0x0, 0, 4294967295⟩,
  ⟨0x814, 0, 1, 0, 1, .ro, 0x0, 0x0, 0, 4294967295⟩,
  ⟨0x818, 0, 1, 0, 1, .ro, 0x0, 0x0, 0, 4294967295⟩,
  ⟨0x81c, 0, 1, 0, 1, .ro, 0x0, 0x0, 0, 4294967295⟩,
  ⟨0x820, 0, 1, 0, 1, .ro, 0x0, 0x0, 0, 4294967295⟩,
  ⟨0x824, 0, 1, 0, 1, .ro, 0x0, 0x0, 0, 4294967295⟩,
  ⟨0x828, 0, 1, 0, 1, .ro, 0x0, 0x0, 0, 4294967295⟩,
  ⟨0x82c, 0, 1, 0, 1, .ro, 0x0, 0x0, 0, 4294967295⟩,
  ⟨0x830, 0, 1, 0, 1, .ro, 0x0, 0x0, 0, 4294967295⟩,
  ⟨0x834, 0, 1, 0, 1, .ro, 0x0, 0x0, 0, 4294967295⟩]

def lge1Rows : List RegRow := [
  ⟨0x800, 0, 1, 0, 1, .wo, 0x0, 0x0, 0, 4294967295⟩,
  ⟨0x804, 0, 1, 0, 1, .wo, 0x0, 0x0, 0, 4294967295⟩,
  ⟨0x808, 0, 1, 0, 1, .ro, 0x0, 0x0, 0, 4294967295⟩,
  ⟨0x80c, 0, 1, 0, 1, .ro, 0x0, 0x0, 0, 4294967295⟩]

def lge2Rows : List RegRow := [
  ⟨0x800, 0, 1, 0, 1, .rw, 0x0, 0x3ff, 0, 4294967295⟩,
  ⟨0x804, 0, 1, 0, 1, .ro, 0x0, 0x0, 0, 4294967295⟩,
  ⟨0x808, 0, 1, 0, 1, .ro, 0x0, 0x0, 0, 4294967295⟩,
  ⟨0x80c, 0, 1, 0, 1, .ro, 0x0, 0x0, 0, 4294967295⟩,
  ⟨0x810, 0, 1, 0, 1, .ro, 0x0, 0x0, 0, 4294967295⟩,
  ⟨0x814, 0, 1, 0, 1, .ro, 0x0, 0x0, 0, 4294967295⟩,
  ⟨0x818, 0, 1, 0, 1, .ro, 0x0, 0x0, 0, 4294967295⟩,
  ⟨0x81c, 0, 1, 0, 1, .ro, 0x0, 0x0, 0, 4294967295⟩]

def lge3Rows : List RegRow := [
  ⟨0x800, 16, 4, 0, 1, .ro, 0x2, 0x0, 0, 4294967295⟩,
  ⟨0x804, 16, 4, 0, 1, .ro, 0x0, 0x0, 0, 4294967295⟩,
  ⟨0x808, 16, 4, 0, 1, .ro, 0x0, 0x0, 0, 4294967295⟩,
  ⟨0x80c, 16, 4, 0, 1, .ro, 0x0, 0x0, 0, 4294967295⟩]

def stlRows : List RegRow := [
  ⟨0x100, 0, 1, 0, 1, .rws, 0xb97c, 0xffff, 1024, 65535⟩,
  ⟨0x800, 0, 1, 0, 1, .ro, 0x0, 0x0, 0, 4294967295⟩,
  ⟨0x804, 0, 1, 0, 1, .ro, 0x0, 0x0, 0, 4294967295⟩,
  ⟨0x808, 0, 1, 0, 1, .ro, 0x0, 0x0, 0, 4294967295⟩,
  ⟨0x80c, 0, 1, 0, 1, .ro, 0x0, 0x0, 0, 4294967295⟩,
  ⟨0x810, 0, 1, 0, 1, .ro, 0x0, 0x0, 0, 4294967295⟩,
  ⟨0x814, 0, 1, 0, 1, .ro, 0x0, 0x0, 0, 4294967295⟩,
  ⟨0x818, 0, 1, 0, 1, .ro, 0x0, 0x0, 0, 4294967295⟩,
  ⟨0x81c, 0, 1, 0, 1, .ro, 0x0, 0x0, 0, 4294967295⟩]

def stbRows : List RegRow := [
  ⟨0x100, 24, 64, 0, 1, .rws, 0x0, 0xffffffff, 0, 4294967295⟩,
  ⟨0x104, 24, 64, 0, 1, .rws, 0x0, 0xffffffff, 0, 4294967295⟩,
  ⟨0x108, 24, 64, 0, 1, .rws, 0xc803e8, 0x7fff3fff, 0, 4294967295⟩,
  ⟨0x10c, 24, 64, 0, 1, .rws, 0xa3064, 0xffffff, 0, 4294967295⟩,
  ⟨0x110, 24, 64, 0, 1, .rws, 0x0, 0x3ff07ff, 0, 4294967295⟩,
  ⟨0x114, 24, 64, 0, 1, .rws, 0x1, 0xf, 0, 4294967295⟩,
  ⟨0x700, 0, 1, 0, 1, .rws, 0x0, 0xf, 0, 4294967295⟩,
  ⟨0x704, 0, 1, 0, 1, .rws, 0x3, 0x3f, 0, 4294967295⟩,
  ⟨0x800, 32, 64, 0, 1, .ro, 0x4, 0x0, 0, 4294967295⟩,
  ⟨0x804, 32, 64, 0, 1, .ro, 0x0, 0x0, 0, 4294967295⟩,
  ⟨0x808, 32, 64, 0, 1, .ro, 0x0, 0x0, 0, 4294967295⟩,
  ⟨0x80c, 32, 64, 0, 1, .ro, 0x0, 0x0, 0, 4294967295⟩,
  ⟨0x810, 32, 64, 0, 1, .ro, 0x0, 0x0, 0, 4294967295⟩,
  ⟨0x814, 32, 64, 0, 1, .ro, 0x0, 0x0, 0, 4294967295⟩,
  ⟨0x818, 32, 64, 0, 1, .ro, 0x0, 0x0, 0, 4294967295⟩,
  ⟨0x81c, 32, 64, 0, 1, .ro, 0x0, 0x0, 0, 4294967295⟩]

def ethRows0 : List RegRow := [
  ⟨0x100, 0, 1, 0, 1, .rws, 0x11, 0x73, 0, 4294967295⟩,
  ⟨0x104, 0, 1, 0, 1, .rws, 0x0, 0xffffffff, 0, 4294967295⟩,
  ⟨0x108, 0, 1, 0, 1, .rws, 0x0, 0xffff, 0, 4294967295⟩,
  ⟨0x10c, 0, 1, 0, 1, .rws, 0x0, 0x1fff, 0, 4294967295⟩,
  ⟨0x110, 4, 4, 0, 1, .rws, 0x0, 0xffffffff, 0, 4294967295⟩,
  ⟨0x120, 0, 1, 0, 1, .rws, 0x40, 0xff, 1, 128⟩,
  ⟨0x124, 4, 4, 0, 1, .rws, 0x0, 0xffffffff, 0, 4294967295⟩,
  ⟨0x134, 0, 1, 0, 1, .rws, 0x0, 0xffffffff, 0, 4294967295⟩,
  ⟨0x138, 0, 1, 0, 1, .rws, 0x18, 0x3f, 1, 32⟩,
  ⟨0x13c, 0, 1, 0, 1, .rws, 0x0, 0xffffffff, 0, 4294967295⟩,
  ⟨0x140, 0, 1, 0, 1, .rws, 0xb97c, 0xffff, 0, 4294967295⟩,
  ⟨0x144, 0, 1, 0, 1, .rws, 0x0, 0xffff, 0, 4294967295⟩,
  ⟨0x148, 0, 1, 0, 1, .rws, 0x0, 0xffff, 0, 4294967295⟩,
  ⟨0x14c, 0, 1, 0, 1, .rws, 0x0, 0xffff, 0, 4294967295⟩,
  ⟨0x150, 0, 1, 0, 1, .rws, 0x0, 0xffffffff, 0, 4294967295⟩,
  ⟨0x154, 0, 1, 0, 1, .rws, 0x0, 0xffffffff, 0, 4294967295⟩,
  ⟨0x158, 0, 1, 0, 1, .rws, 0x40, 0xffffffff, 16, 1024⟩,
  ⟨0x800, 0, 1, 0, 1, .ro, 0x0, 0x0, 0, 4294967295⟩,
  ⟨0x804, 0, 1, 0, 1, .ro, 0x0, 0x0, 0, 4294967295⟩,
  ⟨0x808, 0, 1, 0, 1, .rw, 0x0, 0xffffffff, 0, 4294967295⟩,
  ⟨0x80c, 0, 1, 0, 1, .ro, 0x0, 0x0, 0, 4294967295⟩,
  ⟨0x810, 0, 1, 0, 1, .rw, 0x0, 0xffffffff, 0, 4294967295⟩,
  ⟨0x814, 0, 1, 0, 1, .ro, 0x0, 0x0, 0, 4294967295⟩,
  ⟨0x818, 0, 1, 0, 1, .ro, 0x0, 0x0, 0, 4294967295⟩]
def ethRows1 : List RegRow := [
  ⟨0x81c, 0, 1, 0, 1, .ro, 0x0, 0x0, 0, 4294967295⟩,
  ⟨0x820, 0, 1, 0, 1, .ro, 0x0, 0x0, 0, 4294967295⟩,
  ⟨0x824, 0, 1, 0, 1, .ro, 0x0, 0x0, 0, 4294967295⟩,
  ⟨0x828, 0, 1, 0, 1, .ro, 0x0, 0x0, 0, 4294967295⟩,
  ⟨0x82c, 0, 1, 0, 1, .ro, 0x0, 0x0, 0, 4294967295⟩]
def ethRows : List RegRow := ethRows0 ++ ethRows1

def ptpRows0 : List RegRow := [
  ⟨0x100, 0, 1, 0, 1, .rws, 0x104, 0x3f3f, 0, 4294967295⟩,
  ⟨0x104, 0, 1, 0, 1, .rws, 0x0, 0xff, 0, 4294967295⟩,
  ⟨0x108, 0, 1, 0, 1, .rws, 0xf88080, 0xffffff, 0, 4294967295⟩,
  ⟨0x10c, 0, 1, 0, 1, .rws, 0x3000100, 0xfffffff, 0, 4294967295⟩,
  ⟨0x110, 0, 1, 0, 1, .rws, 0x3e8, 0xffffffff, 10, 1000000⟩,
  ⟨0x114, 0, 1, 0, 1, .rws, 0xe10, 0xffffffff, 1, 86400⟩,
  ⟨0x118, 0, 1, 0, 1, .rws, 0x186a0, 0xffffffff, 1000, 1000000000⟩,
  ⟨0x11c, 0, 1, 0, 1, .rws, 0x1, 0x1f, 0, 4294967295⟩,
  ⟨0x120, 0, 1, 0, 1, .rws, 0x2710, 0xffffffff, 1, 500000⟩,
  ⟨0x124, 0, 1, 0, 1, .rws, 0x0, 0xffffffff, 0, 4294967295⟩,
  ⟨0x128, 0, 1, 0, 1, .rws, 0x3, 0x3, 0, 4294967295⟩,
  ⟨0x12c, 0, 1, 0, 1, .rws, 0x25, 0xffffffff, 0, 4294967295⟩,
  ⟨0x800, 0, 1, 0, 1, .ro, 0x0, 0x0, 0, 4294967295⟩,
  ⟨0x804, 0, 1, 0, 1, .ro, 0x0, 0x0, 0, 4294967295⟩,
  ⟨0x808, 0, 1, 0, 1, .ro, 0x0, 0x0, 0, 4294967295⟩,
  ⟨0x80c, 0, 1, 0, 1, .ro, 0x33333333, 0x0, 0, 4294967295⟩,
  ⟨0x810, 0, 1, 0, 1, .ro, 0x3, 0x0, 0, 4294967295⟩,
  ⟨0x814, 0, 1, 0, 1, .rw, 0x1, 0x1, 0, 4294967295⟩,
  ⟨0x818, 0, 1, 0, 1, .rw, 0x0, 0xffffffff, 0, 4294967295⟩,
  ⟨0x81c, 0, 1, 0, 1, .rw, 0x0, 0xffffffff, 0, 4294967295⟩,
  ⟨0x820, 0, 1, 0, 1, .rw, 0x0, 0xffff, 0, 4294967295⟩,
  ⟨0x824, 0, 1, 0, 1, .wo, 0x0, 0x0, 0, 4294967295⟩,
  ⟨0x828, 0, 1, 0, 1, .ro, 0x0, 0x0, 0, 4294967295⟩,
  ⟨0x82c, 0, 1, 0, 1, .ro, 0x0, 0x0, 0, 4294967295⟩]
def ptpRows1 : List RegRow := [
  ⟨0x830, 0, 1, 0, 1, .ro, 0x0, 0x0, 0, 4294967295⟩,
  ⟨0x834, 0, 1, 0, 1, .ro, 0x0, 0x0, 0, 4294967295⟩,
  ⟨0x838, 0, 1, 0, 1, .ro, 0x0, 0x0, 0, 4294967295⟩,
  ⟨0x83c, 0, 1, 0, 1, .ro, 0x0, 0x0, 0, 4294967295⟩,
  ⟨0x840, 0, 1, 0, 1, .ro, 0x0, 0x0, 0, 4294967295⟩,
  ⟨0x844, 0, 1, 0, 1, .ro, 0x0, 0x0, 0, 4294967295⟩,
  ⟨0x848, 0, 1, 0, 1, .ro, 0x0, 0x0, 0, 4294967295⟩,
  ⟨0x84c, 0, 1, 0, 1, .ro, 0x0, 0x0, 0, 4294967295⟩]
def ptpRows : List RegRow := ptpRows0 ++ ptpRows1

def capRows : List RegRow := [
  ⟨0x100, 4, 25, 0, 1, .rws, 0x0, 0xff3, 0, 4294967295⟩,
  ⟨0x800, 16, 25, 0, 1, .ro, 0x0, 0x0, 0, 4294967295⟩,
  ⟨0x804, 16, 25, 0, 1, .ro, 0x0, 0x0, 0, 4294967295⟩,
  ⟨0x808, 16, 25, 0, 1, .ro, 0x80000000, 0x0, 0, 4294967295⟩,
  ⟨0x80c, 16, 25, 0, 1, .ro, 0x0, 0x0, 0, 4294967295⟩,
  ⟨0x990, 0, 1, 0, 1, .w1c, 0x0, 0x1ffffff, 0, 4294967295⟩]

def plkRows0 : List RegRow := [
  ⟨0x100, 0, 1, 0, 1, .rws, 0x9, 0x1f, 0, 4294967295⟩,
  ⟨0x104, 0, 1, 0, 1, .rws, 0x1e, 0xffffffff, 10, 1000⟩,
  ⟨0x108, 0, 1, 0, 1, .rws, 0x64, 0xffffffff, 20, 5000⟩,
  ⟨0x10c, 0, 1, 0, 1, .rws, 0x14, 0xffffffff, 1, 1000⟩,
  ⟨0x110, 0, 1, 0, 1, .rws, 0x0, 0xffffffff, 0, 1024⟩,
  ⟨0x114, 0, 1, 0, 1, .rws, 0x1f4, 0xffffffff, 100, 10000⟩,
  ⟨0x118, 0, 1, 0, 1, .rws, 0x32, 0xffffffff, 10, 1000⟩,
  ⟨0x11c, 0, 1, 0, 1, .rws, 0x0, 0x800003ff, 0, 4294967295⟩,
  ⟨0x120, 0, 1, 0, 1, .rws, 0x3, 0x3f, 0, 4294967295⟩,
  ⟨0x124, 4, 4, 0, 1, .rws, 0x0, 0xffffffff, 0, 4294967295⟩,
  ⟨0x134, 0, 1, 0, 1, .rws, 0x0, 0xf, 0, 4294967295⟩,
  ⟨0x138, 0, 1, 0, 1, .rws, 0xc8, 0xffffffff, 50, 10000⟩,
  ⟨0x800, 0, 1, 0, 1, .ro, 0x0, 0x0, 0, 4294967295⟩,
  ⟨0x804, 0, 1, 0, 1, .ro, 0x0, 0x0, 0, 4294967295⟩,
  ⟨0x808, 0, 1, 0, 1, .ro, 0x0, 0x0, 0, 4294967295⟩,
  ⟨0x80c, 0, 1, 0, 1, .ro, 0x0, 0x0, 0, 4294967295⟩,
  ⟨0x810, 0, 1, 0, 1, .ro, 0x0, 0x0, 0, 4294967295⟩,
  ⟨0x814, 0, 1, 0, 1, .ro, 0x0, 0x0, 0, 4294967295⟩,
  ⟨0x818, 0, 1, 0, 1, .ro, 0x0, 0x0, 0, 4294967295⟩,
  ⟨0x81c, 0, 1, 0, 1, .ro, 0x0, 0x0, 0, 4294967295⟩,
  ⟨0x820, 0, 1, 0, 1, .ro, 0x0, 0x0, 0, 4294967295⟩,
  ⟨0x824, 0, 1, 0, 1, .ro, 0x0, 0x0, 0, 4294967295⟩,
  ⟨0x828, 0, 1, 0, 1, .ro, 0x0, 0x0, 0, 4294967295⟩,
  ⟨0x82c, 0, 1, 0, 1, .ro, 0x0, 0x0, 0, 4294967295⟩]
def plkRows1 : List RegRow := [
  ⟨0x830, 0, 1, 0, 1, .ro, 0x0, 0x0, 0, 4294967295⟩,
  ⟨0x834, 0, 1, 0, 1, .ro, 0x0, 0x0, 0, 4294967295⟩,
  ⟨0x840, 0, 1, 0, 1, .wo, 0x0, 0x0, 0, 4294967295⟩]
def plkRows : List RegRow := plkRows0 ++ plkRows1

def canRows0 : List RegRow := [
  ⟨0x100, 0, 1, 0, 1, .rws, 0x9, 0x3d, 0, 4294967295⟩,
  ⟨0x104, 0, 1, 0, 1, .rws, 0x1f1f7e00, 0x7f7fffff, 0, 4294967295⟩,
  ⟨0x108, 0, 1, 0, 1, .rws, 0x9091c00, 0xf0f1f1f, 0, 4294967295⟩,
  ⟨0x10c, 0, 1, 0, 1, .rws, 0x11e, 0x17f, 0, 4294967295⟩,
  ⟨0x110, 0, 1, 0, 1, .rws, 0x0, 0x1, 0, 4294967295⟩,
  ⟨0x140, 12, 16, 0, 1, .rws, 0x0, 0x1fffffff, 0, 4294967295⟩,
  ⟨0x144, 12, 16, 0, 1, .rws, 0x0, 0x1fffffff, 0, 4294967295⟩,
  ⟨0x148, 12, 16, 0, 1, .rws, 0x0, 0xffff0007, 0, 4294967295⟩,
  ⟨0x200, 8, 16, 0, 1, .rws, 0x0, 0xffffffff, 0, 4294967295⟩,
  ⟨0x204, 8, 16, 0, 1, .rws, 0x0, 0xffff001f, 0, 4294967295⟩,
  ⟨0x800, 0, 1, 0, 1, .ro, 0x0, 0x0, 0, 4294967295⟩,
  ⟨0x804, 0, 1, 0, 1, .ro, 0x0, 0x0, 0, 4294967295⟩,
  ⟨0x808, 0, 1, 0, 1, .wo, 0x0, 0x0, 0, 4294967295⟩,
  ⟨0x80c, 0, 1, 0, 1, .ro, 0x0, 0x0, 0, 4294967295⟩,
  ⟨0x810, 0, 1, 0, 1, .ro, 0x0, 0x0, 0, 4294967295⟩,
  ⟨0x840, 80, 3, 0, 1, .rw, 0x0, 0xffffffff, 0, 4294967295⟩,
  ⟨0x844, 80, 3, 0, 1, .rw, 0x0, 0x1f, 0, 4294967295⟩,
  ⟨0x848, 80, 3, 4, 16, .rw, 0x0, 0xffffffff, 0, 4294967295⟩,
  ⟨0x940, 0, 1, 0, 1, .ro, 0x80000000, 0x0, 0, 4294967295⟩,
  ⟨0x944, 0, 1, 0, 1, .ro, 0x0, 0x0, 0, 4294967295⟩,
  ⟨0x948, 0, 1, 0, 1, .ro, 0x0, 0x0, 0, 4294967295⟩,
  ⟨0x94c, 0, 1, 0, 1, .ro, 0x0, 0x0, 0, 4294967295⟩,
  ⟨0x950, 4, 16, 0, 1, .ro, 0x0, 0x0, 0, 4294967295⟩,
  ⟨0x9a0, 0, 1, 0, 1, .ro, 0x0, 0x0, 0, 4294967295⟩]
def canRows1 : List RegRow := [
  ⟨0x9a4, 0, 1, 0, 1, .ro, 0x0, 0x0, 0, 4294967295⟩,
  ⟨0x9a8, 0, 1, 0, 1, .ro, 0x0, 0x0, 0, 4294967295⟩,
  ⟨0x9ac, 0, 1, 0, 1, .ro, 0x0, 0x0, 0, 4294967295⟩,
  ⟨0x9b0, 0, 1, 0, 1, .ro, 0x0, 0x0, 0, 4294967295⟩,
  ⟨0x9b4, 0, 1, 0, 1, .ro, 0x0, 0x0, 0, 4294967295⟩,
  ⟨0x9b8, 0, 1, 0, 1, .ro, 0x0, 0x0, 0, 4294967295⟩,
  ⟨0x9bc, 0, 1, 0, 1, .ro, 0x0, 0x0, 0, 4294967295⟩]
def canRows : List RegRow := canRows0 ++ canRows1

def axsRows : List RegRow := [
  ⟨0x100, 48, 16, 0, 1, .rws, 0x0, 0xffffff, 0, 4294967295⟩,
  ⟨0x104, 48, 16, 0, 1, .rws, 0x0, 0xffffff, 0, 4294967295⟩,
  ⟨0x108, 48, 16, 0, 1, .rws, 0x0, 0xffffff, 0, 4294967295⟩,
  ⟨0x10c, 48, 16, 0, 1, .rws, 0x0, 0xffffff, 0, 4294967295⟩,
  ⟨0x110, 48, 16, 0, 1, .rws, 0x0, 0xfffffff, 0, 4294967295⟩,
  ⟨0x114, 48, 16, 0, 1, .rws, 0x0, 0xfffffff, 0, 4294967295⟩,
  ⟨0x118, 48, 16, 0, 1, .rws, 0x0, 0xfffffff, 0, 4294967295⟩,
  ⟨0x11c, 48, 16, 0, 1, .rws, 0x0, 0xfffffff, 0, 4294967295⟩,
  ⟨0x120, 48, 16, 0, 1, .rws, 0x0, 0xfffffff, 0, 4294967295⟩,
  ⟨0x124, 48, 16, 0, 1, .rws, 0x0, 0xffffffff, 0, 4294967295⟩,
  ⟨0x800, 0, 1, 0, 1, .wo, 0x0, 0x0, 0, 4294967295⟩,
  ⟨0x804, 0, 1, 0, 1, .rw, 0x0, 0xffffffff, 0, 4294967295⟩,
  ⟨0x808, 0, 1, 0, 1, .ro, 0x0, 0x0, 0, 4294967295⟩,
  ⟨0x810, 4, 4, 0, 1, .ro, 0x0, 0x0, 0, 4294967295⟩,
  ⟨0x820, 4, 4, 0, 1, .ro, 0x0, 0x0, 0, 4294967295⟩,
  ⟨0x830, 4, 4, 0, 1, .ro, 0x0, 0x0, 0, 4294967295⟩]

def dlkRows : List RegRow := [
  ⟨0x100, 0, 1, 0, 1, .rws, 0x0, 0xffff, 0, 4294967295⟩,
  ⟨0x120, 32, 16, 0, 1, .rws, 0x0, 0xff03ff, 0, 4294967295⟩,
  ⟨0x124, 32, 16, 0, 1, .rws, 0x80000000, 0xffffffff, 0, 4294967295⟩,
  ⟨0x128, 32, 16, 0, 1, .rws, 0x7fffffff, 0xffffffff, 0, 4294967295⟩,
  ⟨0x12c, 32, 16, 0, 1, .rws, 0x1, 0xffffffff, 0, 4294967295⟩,
  ⟨0x130, 32, 16, 0, 1, .rws, 0x0, 0xffffffff, 0, 4294967295⟩,
  ⟨0x134, 32, 16, 0, 1, .rws, 0x0, 0x1ffff, 0, 4294967295⟩,
  ⟨0x138, 32, 16, 0, 1, .rws, 0x10400, 0xffffff, 0, 4294967295⟩,
  ⟨0x800, 32, 16, 0, 1, .ro, 0x0, 0x0, 0, 4294967295⟩,
  ⟨0x804, 32, 16, 0, 1, .ro, 0x0, 0x0, 0, 4294967295⟩,
  ⟨0x808, 32, 16, 0, 1, .ro, 0x0, 0x0, 0, 4294967295⟩,
  ⟨0x80c, 32, 16, 0, 1, .ro, 0x0, 0x0, 0, 4294967295⟩,
  ⟨0x810, 32, 16, 0, 1, .ro, 0x0, 0x0, 0, 4294967295⟩,
  ⟨0x814, 32, 16, 0, 1, .ro, 0x0, 0x0, 0, 4294967295⟩,
  ⟨0x818, 32, 16, 0, 1, .ro, 0x0, 0x0, 0, 4294967295⟩,
  ⟨0x81c, 32, 16, 0, 1, .ro, 0x0, 0x0, 0, 4294967295⟩,
  ⟨0xa00, 0, 1, 0, 1, .ro, 0x0, 0x0, 0, 4294967295⟩,
  ⟨0xa04, 0, 1, 0, 1, .ro, 0x0, 0x0, 0, 4294967295⟩,
  ⟨0xa08, 0, 1, 0, 1, .ro, 0x0, 0x0, 0, 4294967295⟩]

def mtr0Rows0 : List RegRow := [
  ⟨0x100, 0, 1, 0, 1, .rws, 0xaa, 0xff, 0, 4294967295⟩,
  ⟨0x104, 0, 1, 0, 1, .rws, 0x0, 0xff, 0, 4294967295⟩,
  ⟨0x108, 0, 1, 0, 1, .rws, 0x64, 0xffffffff, 10, 1000⟩,
  ⟨0x10c, 0, 1, 0, 1, .rws, 0x384, 0xffffffff, 60, 3600⟩,
  ⟨0x110, 0, 1, 0, 1, .rws, 0x0, 0xffffffff, 0, 4294967295⟩,
  ⟨0x140, 8, 48, 0, 1, .rws, 0x0, 0xffffff, 0, 4294967295⟩,
  ⟨0x144, 8, 48, 0, 1, .rws, 0x0, 0xffffffff, 0, 4294967295⟩,
  ⟨0x300, 32, 32, 0, 1, .rws, 0x0, 0xffff000f, 0, 4294967295⟩,
  ⟨0x304, 32, 32, 0, 1, .rws, 0x0, 0xffff, 0, 4294967295⟩,
  ⟨0x308, 32, 32, 0, 1, .rws, 0x0, 0xffffffff, 0, 4294967295⟩,
  ⟨0x30c, 32, 32, 0, 1, .rws, 0x0, 0xffff, 0, 4294967295⟩,
  ⟨0x310, 32, 32, 0, 1, .rws, 0x0, 0xffff, 0, 4294967295⟩,
  ⟨0x314, 32, 32, 0, 1, .rws, 0x0, 0xffffffff, 0, 4294967295⟩,
  ⟨0x318, 32, 32, 0, 1, .rws, 0x7a120, 0xffffffff, 0, 4294967295⟩,
  ⟨0x800, 64, 8, 16, 4, .ro, 0x0, 0x0, 0, 4294967295⟩,
  ⟨0x804, 64, 8, 16, 4, .ro, 0x0, 0x0, 0, 4294967295⟩,
  ⟨0x808, 64, 8, 16, 4, .ro, 0x0, 0x0, 0, 4294967295⟩,
  ⟨0x80c, 64, 8, 16, 4, .ro, 0x0, 0x0, 0, 4294967295⟩,
  ⟨0xa00, 16, 32, 0, 1, .ro, 0x0, 0x0, 0, 4294967295⟩,
  ⟨0xa04, 16, 32, 0, 1, .ro, 0x0, 0x0, 0, 4294967295⟩,
  ⟨0xa08, 16, 32, 0, 1, .ro, 0x0, 0x0, 0, 4294967295⟩,
  ⟨0xa0c, 16, 32, 0, 1, .ro, 0x0, 0x0, 0, 4294967295⟩,
  ⟨0xc00, 0, 1, 0, 1, .ro, 0x0, 0x0, 0, 4294967295⟩,
  ⟨0xc08, 32, 8, 0, 1, .ro, 0x0, 0x0, 0, 4294967295⟩]
def mtr0Rows1 : List RegRow := [
  ⟨0xc0c, 32, 8, 0, 1, .ro, 0x0, 0x0, 0, 4294967295⟩,
  ⟨0xc10, 32, 8, 0, 1, .ro, 0x0, 0x0, 0, 4294967295⟩,
  ⟨0xc14, 32, 8, 0, 1, .ro, 0x0, 0x0, 0, 4294967295⟩,
  ⟨0xc18, 32, 8, 0, 1, .ro, 0x0, 0x0, 0, 4294967295⟩,
  ⟨0xc1c, 32, 8, 0, 1, .ro, 0x0, 0x0, 0, 4294967295⟩,
  ⟨0xd08, 16, 32, 0, 1, .ro, 0x0, 0x0, 0, 4294967295⟩,
  ⟨0xd0c, 16, 32, 0, 1, .ro, 0x0, 0x0, 0, 4294967295⟩,
  ⟨0xd10, 16, 32, 0, 1, .ro, 0x0, 0x0, 0, 4294967295⟩,
  ⟨0xd14, 16, 32, 0, 1, .ro, 0x0, 0x0, 0, 4294967295⟩,
  ⟨0xf08, 0, 1, 0, 1, .ro, 0x0, 0x0, 0, 4294967295⟩,
  ⟨0xf0c, 0, 1, 0, 1, .ro, 0x0, 0x0, 0, 4294967295⟩,
  ⟨0xf10, 0, 1, 0, 1, .w1c, 0x0, 0xffffffff, 0, 4294967295⟩,
  ⟨0xf14, 0, 1, 0, 1, .w1c, 0x0, 0xffff, 0, 4294967295⟩,
  ⟨0xf18, 0, 1, 0, 1, .ro, 0x0, 0x0, 0, 4294967295⟩,
  ⟨0xff8, 0, 1, 0, 1, .ro, 0x0, 0x0, 0, 4294967295⟩,
  ⟨0xffc, 0, 1, 0, 1, .ro, 0x0, 0x0, 0, 4294967295⟩]
def mtr0Rows : List RegRow := mtr0Rows0 ++ mtr0Rows1

def mtr1Rows : List RegRow := [
  ⟨0x800, 8, 32, 0, 1, .ro, 0x0, 0x0, 0, 4294967295⟩,
  ⟨0x804, 8, 32, 0, 1, .ro, 0x0, 0x0, 0, 4294967295⟩,
  ⟨0x900, 4, 32, 0, 1, .ro, 0x0, 0x0, 0, 4294967295⟩]

def pnlRows : List RegRow := [
  ⟨0x100, 0, 1, 0, 1, .rws, 0x1e00320, 0x3ff03ff, 0, 4294967295⟩,
  ⟨0x104, 0, 1, 0, 1, .rws, 0x10a2804, 0x3ffff0f, 0, 4294967295⟩,
  ⟨0x108, 0, 1, 0, 1, .rws, 0x3e80203, 0xffffff73, 0, 4294967295⟩,
  ⟨0x800, 0, 1, 0, 1, .rw, 0x0, 0x3ff, 0, 4294967295⟩,
  ⟨0x804, 0, 1, 0, 1, .rw, 0x0, 0x3ff, 0, 4294967295⟩,
  ⟨0x808, 0, 1, 0, 1, .rw, 0x0, 0x3ff, 0, 4294967295⟩,
  ⟨0x80c, 0, 1, 0, 1, .rw, 0x0, 0x3ff, 0, 4294967295⟩,
  ⟨0x810, 0, 1, 0, 1, .rw, 0x0, 0xffffffff, 0, 4294967295⟩,
  ⟨0x814, 0, 1, 0, 1, .rw, 0x0, 0xffffffff, 0, 4294967295⟩,
  ⟨0x818, 0, 1, 0, 1, .rw, 0x190, 0xffff, 0, 4294967295⟩,
  ⟨0x81c, 0, 1, 0, 1, .wo, 0x0, 0x0, 0, 4294967295⟩,
  ⟨0x820, 0, 1, 0, 1, .ro, 0x0, 0x0, 0, 4294967295⟩,
  ⟨0x824, 0, 1, 0, 1, .ro, 0x0, 0x0, 0, 4294967295⟩,
  ⟨0x830, 4, 4, 0, 1, .ro, 0x0, 0x0, 0, 4294967295⟩,
  ⟨0x840, 0, 1, 0, 1, .ro, 0x0, 0x0, 0, 4294967295⟩,
  ⟨0x844, 0, 1, 0, 1, .ro, 0x0, 0x0, 0, 4294967295⟩,
  ⟨0x848, 0, 1, 0, 1, .ro, 0x0, 0x0, 0, 4294967295⟩,
  ⟨0x84c, 0, 1, 0, 1, .ro, 0x0, 0x0, 0, 4294967295⟩,
  ⟨0x860, 0, 1, 0, 1, .wo, 0x0, 0x0, 0, 4294967295⟩,
  ⟨0x864, 0, 1, 0, 1, .rw, 0x0, 0x1ff, 0, 4294967295⟩,
  ⟨0x868, 0, 1, 0, 1, .wo, 0x0, 0x0, 0, 4294967295⟩,
  ⟨0x86c, 0, 1, 0, 1, .ro, 0x0, 0x0, 0, 4294967295⟩]

def drmRows : List RegRow := [
  ⟨0x100, 0, 1, 0, 1, .rws, 0x3, 0x3, 0, 4294967295⟩,
  ⟨0x104, 0, 1, 0, 1, .rws, 0xe10, 0xffffffff, 600, 86400⟩,
  ⟨0x800, 0, 1, 0, 1, .ro, 0x0, 0x0, 0, 4294967295⟩,
  ⟨0x804, 0, 1, 0, 1, .ro, 0x0, 0x0, 0, 4294967295⟩,
  ⟨0x808, 0, 1, 0, 1, .ro, 0x0, 0x0, 0, 4294967295⟩,
  ⟨0x80c, 0, 1, 0, 1, .ro, 0x0, 0x0, 0, 4294967295⟩,
  ⟨0x810, 0, 1, 0, 1, .ro, 0x0, 0x0, 0, 4294967295⟩,
  ⟨0x814, 0, 1, 0, 1, .ro, 0x0, 0x0, 0, 4294967295⟩,
  ⟨0x818, 0, 1, 0, 1, .ro, 0x0, 0x0, 0, 4294967295⟩,
  ⟨0x81c, 0, 1, 0, 1, .ro, 0x0, 0x0, 0, 4294967295⟩]

def gpioRows : List RegRow := [
  ⟨0x100, 0, 1, 0, 1, .rws, 0x0, 0xffff, 0, 4294967295⟩,
  ⟨0x104, 0, 1, 0, 1, .rws, 0x0, 0xffff, 0, 4294967295⟩,
  ⟨0x108, 0, 1, 0, 1, .rws, 0xa, 0x3ff, 0, 1000⟩,
  ⟨0x800, 0, 1, 0, 1, .ro, 0x0, 0x0, 0, 4294967295⟩,
  ⟨0x804, 0, 1, 0, 1, .ro, 0x0, 0x0, 0, 4294967295⟩,
  ⟨0x808, 0, 1, 0, 1, .ro, 0x0, 0x0, 0, 4294967295⟩,
  ⟨0x840, 4, 16, 0, 1, .ro, 0x0, 0x0, 0, 4294967295⟩]

def plsRows : List RegRow := [
  ⟨0x100, 16, 16, 0, 1, .rws, 0x0, 0x17f3, 0, 4294967295⟩,
  ⟨0x104, 16, 16, 0, 1, .rws, 0x0, 0xffffffff, 0, 4294967295⟩,
  ⟨0x108, 16, 16, 0, 1, .rws, 0xc350, 0xfffff, 0, 4294967295⟩,
  ⟨0x10c, 16, 16, 0, 1, .rws, 0xc350, 0xfffff, 0, 4294967295⟩,
  ⟨0x800, 16, 16, 0, 1, .ro, 0x0, 0x0, 0, 4294967295⟩,
  ⟨0x804, 16, 16, 0, 1, .ro, 0x0, 0x0, 0, 4294967295⟩,
  ⟨0x808, 16, 16, 0, 1, .ro, 0x0, 0x0, 0, 4294967295⟩,
  ⟨0x80c, 16, 16, 0, 1, .ro, 0x0, 0x0, 0, 4294967295⟩,
  ⟨0x900, 4, 16, 0, 1, .ro, 0x0, 0x0, 0, 4294967295⟩,
  ⟨0x940, 4, 16, 0, 1, .ro, 0x0, 0x0, 0, 4294967295⟩]

end Sys2Proof.Machine
end

