-- ==== Sys2Proof/Machine/Ops.lean ====
section
/-! DEFINITION. The shared operations: bit fields, registers and their page headers, domains and block states,
interrupt causes, error codes, event records entering the record quay, bytes and words in memories, and time. -/

namespace Sys2Proof.Machine

/-! ### Bit fields -/

/-- Bits [hi:lo] of a word, as a number. -/
def bits (w : Word) (hi lo : Nat) : Nat := (w.toNat >>> lo) % 2 ^ (hi + 1 - lo)
/-- Bit i of a word. -/
def bit (w : Word) (i : Nat) : Bool := w.getLsbD i
/-- A word with bits [hi:lo] replaced by the low bits of x. -/
def putBits (w : Word) (hi lo x : Nat) : Word :=
  let m := (2 ^ (hi + 1 - lo) - 1) <<< lo
  (w &&& ~~~(BitVec.ofNat 32 m)) ||| BitVec.ofNat 32 ((x % 2 ^ (hi + 1 - lo)) <<< lo)
/-- The word with only bit i set. -/
def bitW (i : Nat) : Word := BitVec.ofNat 32 (2 ^ i)
/-- A word with bit i set to b. -/
def putBit (w : Word) (i : Nat) (b : Bool) : Word := if b then w ||| bitW i else w &&& ~~~(bitW i)
/-- A number as a register word. -/
abbrev wd (n : Nat) : Word := BitVec.ofNat 32 n
/-- A signed number as a register word. -/
abbrev wi (n : Int) : Word := BitVec.ofInt 32 n
/-- 1 for true. -/
abbrev b2n (b : Bool) : Nat := if b then 1 else 0
/-- The low word of a number. -/
abbrev lo32 (n : Nat) : Word := wd n
/-- Bits [63:32] of a number. -/
abbrev hi32 (n : Nat) : Word := wd (n / 2 ^ 32)
/-- Signed value held in the low `w` bits of a number. -/
def sext (w n : Nat) : Int := let m := n % 2 ^ w; if m < 2 ^ (w - 1) then m else (m : Int) - 2 ^ w
/-- A signed value as a field of `w` bits. -/
def unsext (w : Nat) (x : Int) : Nat := (x % (2 ^ w : Nat)).toNat
/-- A value held within limits. -/
def clampI (lo hi x : Int) : Int := if x < lo then lo else if hi < x then hi else x
/-- Add one to a field of `w` bits at `lo`, stopping at its largest value. -/
def satIncField (v : Word) (hi lo : Nat) : Word :=
  if bits v hi lo = 2 ^ (hi + 1 - lo) - 1 then v else putBits v hi lo (bits v hi lo + 1)
/-- Round to nearest, ties to even. -/
def rne (n : Int) (d : Nat) : Int :=
  let q := n.ediv d
  let r := 2 * (n.emod d)
  if r < d then q else if (d : Int) < r then q + 1 else if q % 2 = 0 then q else q + 1
/-- Round half away from zero. -/
def rha (n : Int) (d : Nat) : Int := if 0 ≤ n then (2 * n + d) / (2 * d) else -((2 * (-n) + d) / (2 * d))

/-- Change every listed entry, keeping the canonical form. -/
def tabMap {α : Type} [DecidableEq α] (d : Nat → α) (f : Nat → α → α) : Tab α → Tab α
  | [] => []
  | (k, v) :: t => let w := f k v; if w = d k then tabMap d f t else (k, w) :: tabMap d f t

/-! ### Registers -/

/-- Pages of each kind, by page number p = (base − 0x4000_0000) ÷ 0x1000 (R104, R106). -/
def pageRows (p : Nat) : List RegRow :=
  if p = 0 then sysRows else if p = 1 then pwrRows else if p = 2 then clkRows
  else if p = 16 then kpr0Rows else if p = 17 then kpr1Rows else if p = 18 then kpr2Rows else if p = 19 then kpr3Rows
  else if p = 32 then secRows else if p = 33 then nvmRows else if p = 34 then evrRows else if p = 35 then rtcRows
  else if p = 48 then nsu0Rows else if 49 ≤ p ∧ p ≤ 52 then nsucRows else if p = 53 then nsuyRows
  else if p = 54 then nsuqRows else if p = 55 then nsulRows else if p = 56 then btkRows else if p = 57 then dsqRows
  else if p = 64 then lge0Rows else if p = 65 then lge1Rows else if p = 66 then lge2Rows else if p = 67 then lge3Rows
  else if p = 80 then stlRows else if 96 ≤ p ∧ p ≤ 111 then stbRows else if 112 ≤ p ∧ p ≤ 117 then ethRows
  else if p = 120 then ptpRows else if p = 121 then capRows else if p = 128 then plkRows
  else if 144 ≤ p ∧ p ≤ 155 then canRows else if p = 160 then axsRows else if 161 ≤ p ∧ p ≤ 168 then dlkRows
  else if p = 176 then mtr0Rows else if p = 177 then mtr1Rows else if p = 192 then pnlRows else if p = 208 then drmRows
  else if p = 224 then gpioRows else if p = 225 then plsRows else []

/-- A page lies at page number p (R106). -/
def isPage (p : Nat) : Bool :=
  decide (p ≤ 2 ∨ (16 ≤ p ∧ p ≤ 19) ∨ (32 ≤ p ∧ p ≤ 35) ∨ (48 ≤ p ∧ p ≤ 57) ∨ (64 ≤ p ∧ p ≤ 67) ∨ p = 80 ∨
    (96 ≤ p ∧ p ≤ 117) ∨ p = 120 ∨ p = 121 ∨ p = 128 ∨ (144 ≤ p ∧ p ≤ 155) ∨ (160 ≤ p ∧ p ≤ 168) ∨
    p = 176 ∨ p = 177 ∨ p = 192 ∨ p = 208 ∨ p = 224 ∨ p = 225)

/-- A row of the table covers an offset. -/
def rowHits (ofs : Nat) (r : RegRow) : Bool :=
  if ofs < r.ofs then false
  else
    let d := ofs - r.ofs
    if r.st1 = 0 then d == 0
    else
      let i := d / r.st1
      let e := d % r.st1
      decide (i < r.n1) && (if r.st2 = 0 then e == 0 else e % r.st2 == 0 && decide (e / r.st2 < r.n2))

/-- Bus address of the page and of a header register. -/
abbrev pageBase (p : Nat) : Nat := 0x40000000 + 0x1000 * p
/-- Page number of an address. -/
abbrev pageOf (a : Nat) : Nat := a / 0x1000 % 0x40000
/-- Offset in its page. -/
abbrev ofsOf (a : Nat) : Nat := a % 0x1000

/-- The row of the register at an address. -/
def regRow (a : Nat) : Option RegRow := (pageRows (pageOf a)).find? (rowHits (ofsOf a))

/-- Reset value of the register at an address: the table's, or the fuse for a MAC address or the UID (R457, R639),
or the value the rules give an instance of its own (MODE on the AUX ports). -/
def regReset (a : Nat) : Word :=
  let p := pageOf a
  if decide (112 ≤ p ∧ p ≤ 117) && ofsOf a == 0x104 then (Config.mac (p - 112)).setWidth 32
  else if decide (112 ≤ p ∧ p ≤ 117) && ofsOf a == 0x108 then ((Config.mac (p - 112)) >>> 32).setWidth 32
  else if decide (114 ≤ p ∧ p ≤ 117) && ofsOf a == 0x100 then 0x12
  else if a == R.SEC_UID_LO then Config.uid.setWidth 32
  else if a == R.SEC_UID_HI then (Config.uid >>> 32).setWidth 32
  else if a == R.SYS_DEVID then (if Config.gradeI then 0xA149 else 0xA143)
  else match regRow a with
    | some r => r.rst
    | none => 0

/-- The word a register holds. -/
def State.reg (s : State) (a : Nat) : Word := s.regs.get regReset a
/-- Put a word into a register. -/
def State.setReg (s : State) (a : Nat) (v : Word) : State := { s with regs := s.regs.set regReset a v }
/-- Several registers at once. -/
def State.setRegs (s : State) (l : List (Nat × Word)) : State := l.foldl (fun s e => s.setReg e.1 e.2) s
/-- Count one up modulo 2^32. -/
def State.incReg (s : State) (a : Nat) : State := s.setReg a (s.reg a + 1)
/-- Field [hi:lo] of a register. -/
def State.fld (s : State) (a hi lo : Nat) : Nat := bits (s.reg a) hi lo
/-- Bit i of a register. -/
def State.flag (s : State) (a i : Nat) : Bool := bit (s.reg a) i
/-- Put a field. -/
def State.setFld (s : State) (a hi lo x : Nat) : State := s.setReg a (putBits (s.reg a) hi lo x)
/-- Put a bit. -/
def State.setFlag (s : State) (a i : Nat) (b : Bool) : State := s.setReg a (putBit (s.reg a) i b)
/-- Register value as a number. -/
abbrev State.regN (s : State) (a : Nat) : Nat := (s.reg a).toNat
/-- Two registers as one 64-bit number, low word first. -/
def State.reg64 (s : State) (lo hi : Nat) : Nat := s.regN lo + 2 ^ 32 * s.regN hi
/-- Two registers from a 64-bit number. -/
def State.setReg64 (s : State) (lo hi n : Nat) : State := (s.setReg lo (lo32 n)).setReg hi (hi32 n)

/-! ### Page headers -/

/-- Header registers of page p. -/
def State.page (s : State) (p : Nat) : PageHdr := s.pages.get (fun _ => {}) p
/-- First page of the block whose page is p (R87, R106). -/
def firstPage (p : Nat) : Nat :=
  if 16 ≤ p ∧ p ≤ 19 then 16 else if 48 ≤ p ∧ p ≤ 55 then 48 else if 64 ≤ p ∧ p ≤ 67 then 64 else if p = 177 then 176 else p
/-- Pages of the block whose first page is p. -/
def pagesOf (p : Nat) : List Nat :=
  if p = 16 then [16, 17, 18, 19] else if p = 48 then [48, 49, 50, 51, 52, 53, 54, 55]
  else if p = 64 then [64, 65, 66, 67] else if p = 176 then [176, 177] else [p]
/-- First page of a block. -/
def blockPage : Block → Nat
  | .sys => 0 | .pwr => 1 | .clk => 2 | .kpr => 16 | .sec => 32 | .nvm => 33 | .evr => 34 | .rtc => 35
  | .nsu => 48 | .btk => 56 | .dsq => 57 | .lge => 64 | .stl => 80 | .stable n => 96 + n.val
  | .eth i => 112 + i.val | .ptp => 120 | .cap => 121 | .plk => 128 | .can n => 144 + n.val
  | .axs => 160 | .dlk n => 161 + n.val | .mtr => 176 | .pnl => 192 | .drm => 208 | .gpio => 224 | .pls => 225
/-- Blocks that cannot be stopped (R99): KPR, SYS, PWR, CLK, RTC. -/
def noStop (p : Nat) : Bool := decide (p ≤ 2 ∨ p = 16 ∨ p = 35)
/-- State of a block in a newly powered domain (R51, R99). -/
def blkReset (p : Nat) : Blk := if noStop p then { st := .run, req := 3, gen := 1 } else {}
/-- State of the block whose first page is p. -/
def State.blk (s : State) (p : Nat) : Blk := s.blks.get blkReset p
/-- Replace it. -/
def State.setBlk (s : State) (p : Nat) (b : Blk) : State := { s with blks := s.blks.set blkReset p b }

/-- Domain that holds page p (R106); the yard page lies in PD_YRD. -/
def domOf (p : Nat) : Nat :=
  if p ≤ 2 then 1 else if p ≤ 19 then 2 else if p ≤ 35 then 10 else if p = 53 then 5 else if p ≤ 57 then 4
  else if p ≤ 111 then 3 else if p ≤ 120 then 6 else if p ≤ 177 then 3 else if p = 192 then 11 else if p = 208 then 9 else 3
/-- Plane that owns page p (R10, R106). -/
def planeOf (p : Nat) : Plane :=
  if p ≤ 2 then .management else if p ≤ 19 then .keeper else if p ≤ 35 then .management else if p ≤ 57 then .data
  else if p ≤ 111 then .control else if p ≤ 120 then .data else if p ≤ 177 then .control
  else if p = 192 then .management else if p = 208 then .data else .control
/-- OWNER.CRIT of page p (R106). -/
def critOf (p : Nat) : Bool :=
  decide ((64 ≤ p ∧ p ≤ 67) ∨ p = 80 ∨ (96 ≤ p ∧ p ≤ 111) ∨ p = 128 ∨ (144 ≤ p ∧ p ≤ 155) ∨ (160 ≤ p ∧ p ≤ 168) ∨
    p = 176 ∨ p = 177 ∨ p = 225)
/-- OWNER.KPROT (R106). -/
def kprotOf (p : Nat) : Bool := decide (16 ≤ p ∧ p ≤ 19)
/-- PID.TYPE (R106). -/
def pidType (p : Nat) : Nat :=
  let f := firstPage p
  if f ≤ 2 then f + 1 else if f = 16 then 0x10 else if f ≤ 35 then f else if f = 48 then 0x30
  else if f ≤ 57 then f else if f = 64 then 0x40 else if f = 80 then 0x50 else if f ≤ 111 then 0x60
  else if f ≤ 117 then 0x70 else if f ≤ 121 then f else if f = 128 then 0x80 else if f ≤ 155 then 0x90
  else if f = 160 then 0xA0 else if f ≤ 168 then 0xA1 else if f = 176 then 0xB0 else if f = 192 then 0xC0
  else if f = 208 then 0xD0 else f
/-- PID.INST. -/
def pidInst (p : Nat) : Nat :=
  if 96 ≤ p ∧ p ≤ 111 then p - 96 else if 112 ≤ p ∧ p ≤ 117 then p - 112 else if 144 ≤ p ∧ p ≤ 155 then p - 144
  else if 161 ≤ p ∧ p ≤ 168 then p - 161 else 0
/-- PID of page p (R88). -/
def pidOf (p : Nat) : Word := wd (pidType p + 0x10000 * pidInst p + 0x1000000 * (p - firstPage p))
/-- A row of page p is a KP register. -/
def hasKp (p : Nat) : Bool := (pageRows p).any fun r => r.acc == .kp
/-- OWNER of page p (R88). -/
def ownerOf (p : Nat) : Word :=
  let pl := match planeOf p with | .control => 0 | .data => 1 | .management => 2 | .keeper => 3
  wd (pl + 16 * b2n (kprotOf p) + 32 * b2n (critOf p) + 64 * b2n (hasKp p))
/-- CAP of page p: the NSU's is 0x0102_2204 on its first page (R236); other chapters give no field, and it reads 0. -/
def capOf (p : Nat) : Word := if p = 48 then 0x01022204 else 0

/-! ### Domains and what holds them -/

/-- DOM_STAT field of domain k (R82): 0 OFF, 1 ON, 2 RETAIN. -/
def State.dom (s : State) (k : Nat) : Nat := s.fld R.PWR_DOM_STAT (2 * k + 1) (2 * k)
/-- Domain k is held in reset by R64, R65 or R69. -/
def State.heldDom (s : State) (k : Nat) : Bool :=
  match s.pwr.hold with
  | .none => false
  | .reset => k != 0
  | .save | .clk => decide (2 < k)
/-- Domain k is ON and not held in reset. -/
def State.up (s : State) (k : Nat) : Bool := s.dom k == 1 && !s.heldDom k
/-! ### Interrupt controllers (R104, R105) -/

/-- A partition's controller. -/
def Plics.get (x : Plics) : Plane → Plic | .control => x.control | .data => x.data | .management => x.management | .keeper => x.keeper
/-- Replace it. -/
def Plics.set (x : Plics) (pl : Plane) (c : Plic) : Plics :=
  match pl with
  | .control => { x with control := c } | .data => { x with data := c }
  | .management => { x with management := c } | .keeper => { x with keeper := c }
/-- Domain in which a partition's controller lies (log entry 78). -/
def plicDom : Plane → Nat | .control => 3 | .data => 4 | .management => 10 | .keeper => 2
/-- The gateway of source n samples its line: a high line makes the source pending unless its request is being served. -/
def Plic.sense (c : Plic) (n : Nat) (line : Bool) : Plic :=
  if line && !c.claimed.get (fun _ => false) n then { c with pending := c.pending.set (fun _ => false) n true } else c

/-! ### Page headers, written -/

/-- Replace them. The interrupt line of the page is high while a cause is set and enabled, and goes to source p + 1 of the owning
partition's controller (R104). -/
def State.setPage (s : State) (p : Nat) (h : PageHdr) : State :=
  let pl := planeOf p
  { s with pages := s.pages.set (fun _ => {}) p h,
           plic := if isPage p && s.up (plicDom pl) then s.plic.set pl ((s.plic.get pl).sense (p + 1) (h.irqStat &&& h.irqEn != 0))
                   else s.plic }
/-- Set a cause of IRQ_STAT (R88). -/
def State.irq (s : State) (p i : Nat) : State :=
  let h := s.page p
  s.setPage p { h with irqStat := h.irqStat ||| bitW i }
/-- Set ERRCODE: CODE and DETAIL (R89). BLOCKERR says that CODE is one of the block's own (R88, log entry 26). -/
def State.errc (s : State) (p code detail : Nat) : State :=
  let h := s.page p
  s.setPage p { h with errcode := wd (code % 0x10000 + 0x10000 * (detail % 0x10000)),
                       err := if 0x100 ≤ code % 0x10000 then h.err ||| 0x20 else h.err &&& 0x1F }
/-- Set or clear STAT bit 8 + i (R88). -/
def State.statBit (s : State) (p i : Nat) (b : Bool) : State :=
  let h := s.page p
  s.setPage p { h with err := if b then h.err ||| BitVec.ofNat 6 (2 ^ i) else h.err &&& ~~~(BitVec.ofNat 6 (2 ^ i)) }
/-- STAT error bits by name: ECC_CE, ECC_UE, CLK, BROWNOUT, DEGRADED. -/
abbrev sbCe : Nat := 0
abbrev sbUe : Nat := 1
abbrev sbClk : Nat := 2
abbrev sbBo : Nat := 3
abbrev sbDeg : Nat := 4

/-- STAT.STATE of a page's block (R88, R52): OFF while the domain is not ON. -/
def State.shown (s : State) (p : Nat) : Nat :=
  if s.up (domOf (firstPage p)) then
    match (s.blk (firstPage p)).st with | .stop => 1 | .drain => 2 | .run => 3 | .fault => 4
  else 0
/-- The block whose first page is p shows RUN. -/
def State.running (s : State) (p : Nat) : Bool := s.shown p == 3
/-- It shows RUN or DRAIN. -/
def State.active (s : State) (p : Nat) : Bool := s.shown p == 3 || s.shown p == 2

/-- The island of domain k runs locked, so that its crossings deliver (R61, R62). -/
def State.locked (s : State) (k : Nat) : Bool := s.up k && s.flag R.CLK_ISL_STAT k
/-- LPDDR5 can be reached: DRM is in RUN (R85). -/
def State.dramUp (s : State) : Bool := s.running 208

/-! ### Time -/

/-- One second, one millisecond and one microsecond in units of 2^-32 ns. -/
abbrev tS : Nat := 1000000000 * 2 ^ 32
abbrev tMs : Nat := 1000000 * 2 ^ 32
abbrev tUs : Nat := 1000 * 2 ^ 32
/-- Whole nanoseconds, the nanosecond field and the second of a time (R436). -/
abbrev nsOf (t : Nat) : Nat := t / 2 ^ 32
abbrev nsField (t : Nat) : Word := wd (t / 2 ^ 32 % 1000000000)
abbrev secOf (t : Nat) : Nat := t / tS
/-- INCR (R437). -/
def State.incr (s : State) : Nat := s.regN R.PTP_INCR_LO + 2 ^ 32 * s.fld R.PTP_INCR_HI 7 0

/-! ### Role of the side (R548, R549) -/

/-- PAIR_STAT.ROLE. -/
def State.role (s : State) : Nat := s.fld R.PLK_PAIR_STAT 2 0
/-- The side acts: PLK runs as PRIMARY or UNPAIRED (R549), or its last cycle goes on to the end of OUTPUT (R552, R583). -/
def State.acts (s : State) : Bool := (s.active 128 || s.plk.standTo.isSome) && (s.role == 1 || s.role == 5)
/-- The controller epoch in force (R550). -/
def State.epoch (s : State) : Nat := s.regN R.PLK_EPOCH

/-! ### Event records (R16, R31, R32, R101, R641 to R643) -/

/-- Partition number, coded as OWNER.PLANE. -/
def planeNum : Plane → Nat | .control => 0 | .data => 1 | .management => 2 | .keeper => 3

/-- Code of a record kind whose number Eoldo publishes apart: some number in the range R643 gives its source. -/
def evCode (pl : Plane) (k : Nat) : BitVec 16 :=
  let n := (Config.recordCode k).toNat
  match pl with
  | .control => BitVec.ofNat 16 (0x40 + n % 0xC0)
  | .data => BitVec.ofNat 16 (0x100 + n % 0xC0)
  | .management => BitVec.ofNat 16 (0x06 + n % 0x1A)
  | .keeper => BitVec.ofNat 16 (0x1C0 + n % 0x10)
/-- Number of a record's code. -/
def recNumber (r : Record) : BitVec 16 :=
  match r.code with | .num n => n | .evt k => evCode r.plane k
/-- The code lies in a range of R643. -/
def codeOk (c : Nat) : Bool :=
  decide ((1 ≤ c ∧ c ≤ 0xFF) ∨ (0x100 ≤ c ∧ c ≤ 0x1CF) ∨ (0x200 ≤ c ∧ c ≤ 0x2FF) ∨ (0xF000 ≤ c ∧ c ≤ 0xF0FF))
/-- Bucket of a code (R643). -/
def bucketOf (c : Nat) : Nat := if c < 0xF000 then c else c - 0xED00
/-- The body, SRC included, has 16 to 256 bytes in multiples of 8 (R641). -/
def bodyOk (body : List Word) : Bool := decide (4 ≤ body.length ∧ body.length ≤ 64 ∧ body.length % 2 = 0)

/-- A record is counted as lost for its partition (R31, R658). -/
def State.loseRec (s : State) (pl : Plane) : State :=
  let n := planeNum pl
  let s := s.incReg (R.EVR_LOST n)
  let s := { s with evr := { s.evr with lostNew := s.evr.lostNew.set (fun _ => 0) n (s.evr.lostNew.get (fun _ => 0) n + 1) } }
  s.irq 34 10
/-- A record reaches the recorder: it enters its partition's queue of 64 with its timestamp, is lost while EVR is not
in RUN or the queue is full, or is dropped and counted when it is malformed. Records raised after the save
of the staging buffer are dropped (R75). -/
def State.submit (s : State) (r : Record) : State :=
  if s.pwr.saveDone then s
  else if !s.running 34 then s.loseRec r.plane
  else if !(codeOk (recNumber r).toNat && bodyOk (r.src :: r.body)) then s.incReg R.EVR_BAD_REC
  else
    let n := planeNum r.plane
    let q := s.evr.queues.get (fun _ => []) n
    if 64 ≤ q.length then s.loseRec r.plane
    else { s with evr := { s.evr with queues := s.evr.queues.set (fun _ => []) n (q ++ [⟨r, s.time.nvm⟩]) } }
/-- Record an event of kind `k` from page `p` with the facts in `args`; its severity and body are the published ones. -/
def State.emit (s : State) (k p : Nat) (args : List Word) : State :=
  let len := 2 * (Config.recordLen k).val + 3
  s.submit ⟨.evt k, Config.recordSeverity k, planeOf p, pidOf p, (List.range len).map (Config.recordWord k args), args⟩

/-- The same with a severity the spec states. -/
def State.emitSev (s : State) (k : Nat) (sev : BitVec 2) (p : Nat) (args : List Word) : State :=
  let len := 2 * (Config.recordLen k).val + 3
  s.submit ⟨.evt k, sev, planeOf p, pidOf p, (List.range len).map (Config.recordWord k args), args⟩

/-! ### Register access reports -/

/-- The response of an access. -/
def State.answer (s : State) (v : Word) : State := { s with resp := ⟨v, false⟩ }
/-- An access fault at the initiator (R95). -/
def State.accFault (s : State) : State := { s with resp := ⟨0, true⟩ }
/-- A dropped write that sets PROT_DROP, sets ERRCODE and is recorded (R9, R93, R94). -/
def State.protDrop (s : State) (p ofs : Nat) (code : Bool) : State :=
  let s := s.irq p 6
  let s := if code then s.errc p 7 ofs else s
  s.emit 1 p [wd ofs]
/-- A refused configuration write (R90). ERRCODE is that of the page written, as CFG_REJ is (R87; DESIGN CHOICE, log entry 83). -/
def State.cfgRej (s : State) (p ofs : Nat) : State := ((s.irq p 1).errc p 6 ofs).emit 2 p [wd ofs]
/-- A refused CTRL request (R96). -/
def State.reqRej (s : State) (p : Nat) (v : Word) : State := ((s.irq p 2).errc p 8 v.toNat).emit 3 p [v]

/-! ### Block states -/

/-- Raise STATE_CHG on every page of the block (R87). -/
def State.stateChg (s : State) (p : Nat) : State := (pagesOf p).foldl (fun s q => s.irq q 0) s
/-- Change the state of the block whose first page is p. -/
def State.setSt (s : State) (p : Nat) (st : BState) : State :=
  let b := s.blk p
  if b.st = st then s else (s.setBlk p { b with st := st, draining := decide (st = .drain) }).stateChg p
/-- The block enters RUN: GEN counts, ERRCODE and the error bits of the run clear, ABANDONED clears (R88, R89, R96). -/
def State.toRun (s : State) (p : Nat) : State :=
  let b := s.blk p
  let s := s.setBlk p { b with st := .run, draining := false, abandoned := false, req := 3, gen := b.gen + 1 }
  ((pagesOf p).foldl (fun s q => let h := s.page q; s.setPage q { h with errcode := 0, err := h.err &&& 0x1C }) s).stateChg p
/-- The block enters FAULT with a cause, its work abandoned (R91, R96). -/
def State.toFault (s : State) (p : Nat) : State :=
  let b := s.blk p
  let s := s.setBlk p { b with st := .fault, draining := false, abandoned := true }
  (pagesOf p).foldl (fun s q => (s.irq q 0).irq q 3) s
/-- FAULT with an error code, recorded. -/
def State.fail (s : State) (p code detail : Nat) : State := ((s.toFault p).errc p code detail).emit 4 p [wd code, wd detail]
/-- The block stops with its work abandoned (R96). -/
def State.toStopAbandoned (s : State) (p : Nat) : State :=
  let b := s.blk p
  (s.setBlk p { b with st := .stop, draining := false, abandoned := true }).stateChg p

/-! ### Memory bytes -/

/-- What an unlisted byte of any memory reads as (log entry 1). -/
abbrev byte0 : Nat → Byte := fun _ => 0
/-- Read a byte. -/
def rdB (m : Tab Byte) (a : Nat) : Byte := m.get byte0 a
/-- Write a byte. -/
def wrB (m : Tab Byte) (a : Nat) (v : Byte) : Tab Byte := m.set byte0 a v
/-- n bytes from address a. -/
def rdBytes (m : Tab Byte) (a n : Nat) : List Byte := (List.range n).map fun i => rdB m (a + i)
/-- Write bytes from address a up. -/
def wrBytes (m : Tab Byte) (a : Nat) (l : List Byte) : Tab Byte :=
  match l with
  | [] => m
  | b :: r => wrBytes (wrB m a b) (a + 1) r
/-- A little-endian number from bytes (R8). -/
def leNat : List Byte → Nat
  | [] => 0
  | b :: r => b.toNat + 256 * leNat r
/-- n bytes of a number, little-endian. -/
def leBytes : Nat → Nat → List Byte
  | 0, _ => []
  | n + 1, v => BitVec.ofNat 8 v :: leBytes n (v / 256)
/-- Little-endian number of n bytes at an address. -/
def rdN (m : Tab Byte) (a n : Nat) : Nat := leNat (rdBytes m a n)
/-- Signed little-endian number. -/
def rdI (m : Tab Byte) (a n : Nat) : Int := sext (8 * n) (rdN m a n)
/-- Store a number of n bytes. -/
def wrN (m : Tab Byte) (a n v : Nat) : Tab Byte := wrBytes m a (leBytes n v)
/-- Field of n bytes at offset o of a byte list, zeros past its end. -/
def fieldN (l : List Byte) (o n : Nat) : Nat := leNat ((l.drop o).take n)
/-- The address lies in the yard (R107, R170). -/
def inYard (a n : Nat) : Bool := decide (0x20000000 ≤ a ∧ a + n ≤ 0x23000000)
/-- The address lies in LPDDR5 (R107). -/
def inDram (a n : Nat) : Bool := decide (0x80000000 ≤ a ∧ a + n ≤ 0x180000000)
/-- The address lies in the TCM of a logic core (R107). -/
def inTcm (a n : Nat) : Bool := decide (0x10000000 ≤ a ∧ a + n ≤ 0x10200000)
/-- An initiator reaches n bytes of memory at an address (R107, R108): the management cores the boot ROM and LPDDR5, a logic core its
TCM, the Sequencer the yard, and the keeper's checker the yard for reading. -/
def memReach (who : Initiator) (write : Bool) (a n : Nat) : Bool :=
  match who with
  | .mgmt => decide (a + n ≤ 0x10000) || inDram a n
  | .logic => inTcm a n
  | .dsq => inYard a n
  | .keeper => !write && inYard a n
  | .quay => false

/-! ### CRC-32C (R489) -/

/-- One bit of the reflected CRC. -/
def crcBit (c : Word) : Word := if c.getLsbD 0 then (c >>> 1) ^^^ 0x82F63B78 else c >>> 1
/-- One byte. -/
def crcByte (c : Word) (b : Byte) : Word :=
  let c := c ^^^ b.setWidth 32
  crcBit (crcBit (crcBit (crcBit (crcBit (crcBit (crcBit (crcBit c)))))))
/-- CRC-32C over bytes. -/
def crc32c (l : List Byte) : Word := ~~~(l.foldl crcByte 0xFFFFFFFF)

abbrev lgePage : Nat := 64
abbrev kprPage : Nat := 16

/-! ### Safety log -/

/-- Slots of the ring (R608). -/
abbrev slogSlots : Nat := 8192
/-- Commit a record: CODE and DATA, with the keeper's time; a copy goes to the record quay (R608). -/
def State.slog (s : State) (code data : Nat) : State :=
  let k := s.kpr
  let n := k.slogSeq + 1
  let flags := b2n (s.flag R.PLK_PAIR_STAT 10) + 2 * b2n s.acts
  let h := leBytes 4 n ++ leBytes 2 code ++ [BitVec.ofNat 8 flags, 0] ++ leBytes 4 (nsField s.time.kpr).toNat ++ leBytes 6 (secOf s.time.kpr) ++
    [0, 0] ++ leBytes 8 data
  let old := !(k.slog.get (fun _ => []) k.slogNext).isEmpty
  let s := { s with kpr := { k with slog := k.slog.set (fun _ => []) k.slogNext (h ++ leBytes 4 (crc32c h).toNat),
                                    slogNext := (k.slogNext + 1) % slogSlots, slogSeq := n, slogLost := k.slogLost + b2n old } }
  s.emit (100 + code) kprPage [wd code, lo32 data, hi32 data]
/-- Codes of R731. -/
abbrev slTrip : Nat := 1
abbrev slEmg : Nat := 2
abbrev slArm : Nat := 3
abbrev slVerdict : Nat := 4
abbrev slMirror : Nat := 5
abbrev slTableSet : Nat := 6
abbrev slProt : Nat := 7
abbrev slClk : Nat := 8
abbrev slFault : Nat := 9
abbrev slTorn : Nat := 10
abbrev slPower : Nat := 11
abbrev slStart : Nat := 12
abbrev slArmRef : Nat := 13
abbrev slTabRef : Nat := 14

/-! ### Who reaches a register (R92 to R95) -/

/-- The register is keeper-protected: its page is, or its row says KP; SLOG_INDEX is the one exception (R94). -/
def isKp (a : Nat) : Bool :=
  a != R.KPR_SLOG_INDEX && (kprotOf (pageOf a) || (match regRow a with | some r => r.acc == .kp | none => false))
/-- The initiator has a path to the register for a write (R92). -/
def reaches (who : Initiator) (a : Nat) : Bool :=
  match who with
  | .mgmt => !kprotOf (pageOf a) || a == R.KPR_SLOG_INDEX
  | .logic => planeOf (pageOf a) == .control
  | .dsq => planeOf (pageOf a) == .data
  | .keeper => kprotOf (pageOf a) || isKp a
  | .quay => ofsOf a == 0x00C
/-- Partition of an initiator, coded as OWNER.PLANE; the quay's commands are the management plane's (R92, R93). -/
def planeOfWho : Initiator → Nat | .logic => 0 | .dsq => 1 | .mgmt | .quay => 2 | .keeper => 3
/-- The keeper records a dropped write to a keeper-protected register (R589, R731). -/
def State.slogProt (s : State) (who : Initiator) (a : Nat) : State :=
  if s.up 2 && !s.kpr.stopped then (s.irq kprPage 12).slog slProt (planeOfWho who + 2 ^ 32 * a) else s
/-- A write access (R52, R92, R94, R95): an access fault off any page or misaligned, nothing while the domain is not
ON, PROT_DROP for a KP register, and otherwise the register's own effect `k`. -/
def State.gate (s : State) (who : Initiator) (a : Nat) (k : State → State) : State :=
  if a % 4 ≠ 0 ∨ a < 0x40000000 ∨ 0x40100000 ≤ a then s.accFault
  else if !isPage (pageOf a) then s.accFault
  else if !s.up (domOf (pageOf a)) then s.answer 0
  else if isKp a && who != .keeper then ((s.answer 0).protDrop (pageOf a) (ofsOf a) true).slogProt who a
  else if !reaches who a then s.accFault
  else k (s.answer 0)
/-- A read access (R52, R92, R95): an access fault off any page or misaligned, 0 while the domain is not ON. -/
def State.rgate (s : State) (who : Initiator) (a : Nat) (k : State → State) : State :=
  if a % 4 ≠ 0 ∨ a < 0x40000000 ∨ 0x40100000 ≤ a then s.accFault
  else if !isPage (pageOf a) then s.accFault
  else if !s.up (domOf (pageOf a)) then s.answer 0
  else if !(who == .mgmt || reaches who a) then s.accFault
  else k s
/-- A write to an RWS register: effect only in STOP (R90). -/
def State.rws (s : State) (a : Nat) (k : State → State) : State :=
  if s.shown (pageOf a) = 1 then k s else s.cfgRej (pageOf a) (ofsOf a)

/-! ### Copies A and B in MRAM (R72, R73) -/

/-- The newest committed copy. -/
def copyNewest {α : Type} (c : Copies α) : Option (Nat × α) :=
  match c.a, c.b with
  | none, y => y
  | x, none => x
  | some x, some y => if x.1 < y.1 then some y else some x
/-- Commit to the copy that does not hold the newest. -/
def copyPut {α : Type} (c : Copies α) (seq : Nat) (x : α) : Copies α :=
  match c.a, c.b with
  | none, _ => { c with a := some (seq, x) }
  | some _, none => { c with b := some (seq, x) }
  | some y, some z => if y.1 < z.1 then { c with a := some (seq, x) } else { c with b := some (seq, x) }

/-! ### Free values -/

/-- A fresh free value of 64 bits and the state after drawing it (log entry 8). -/
def State.fresh (s : State) : BitVec 64 × State := (Config.freeBits s.free, { s with free := s.free + 1 })

/-! ### Errors of LPDDR5 (R85) -/

abbrev drmPage : Nat := 208
/-- An uncorrectable burst at an offset into the 4 GiB is counted and latched (DESIGN CHOICE of the offset, log entry 84). -/
def State.drmUe (s : State) (a : Nat) : State :=
  (((((s.incReg R.DRM_UE_COUNT).setReg64 R.DRM_UE_ADDR_LO R.DRM_UE_ADDR_HI a).statBit drmPage sbUe true).irq drmPage 5).irq drmPage 10)
/-- A corrected error. -/
def State.drmCe (s : State) : State := ((s.incReg R.DRM_CE_COUNT).statBit drmPage sbCe true).irq drmPage 4
/-- Bytes of a burst: 16 beats of a 16-bit channel (JESD209-5). PRESUMED, log entry 25. -/
abbrev burstBytes : Nat := 32
/-- A read of n bytes at a bus address met an error or none; which of its bursts it was is a free value (log entry 8). -/
def State.drmRead (s : State) (e : Ecc) (a n : Nat) : State :=
  match e with
  | .clean => s
  | .corrected => s.drmCe
  | .uncorrectable => s.fresh.2.drmUe ((a + s.fresh.1.toNat % max 1 n - 0x80000000) / burstBytes * burstBytes % 2 ^ 32)

end Sys2Proof.Machine
end

