-- ==== Sys2Proof/Machine/Cap.lean ====
section
/-! DEFINITION. Capture inputs (R454 to R456, R461, R462): accepted edges, the stamp FIFO and its two latching reads. -/

namespace Sys2Proof.Machine

/-- A capture channel. -/
def State.capCh (s : State) (n : Nat) : CapCh := s.cap.get (fun _ => {}) n
/-- Replace it. -/
def State.setCap (s : State) (n : Nat) (c : CapCh) : State := { s with cap := s.cap.set (fun _ => {}) n c }

/-- An accepted edge: counted, and stamped from the PD_LOG copy unless it is within 10 ns of the one before; a full
FIFO drops the stamp and sets OVF (R454, R455, R462). -/
def State.capAccept (s : State) (n : Nat) (rising close : Bool) : State :=
  let c := { s.capCh n with level := rising }
  let e := s.fld (R.CAP_CFG n) 1 0
  if s.running 121 && (if rising then e % 2 == 1 else decide (2 ≤ e)) then
    let s := s.incReg (R.CAP_CNT n)
    if close then s.setCap n c
    else
      let st : Stamp := ⟨nsField s.time.log, BitVec.ofNat 48 (secOf s.time.log), rising⟩
      if 16 ≤ c.fifo.length then ((s.setCap n c).setFlag R.CAP_OVF n true).irq 121 9
      else
        let s' := s.setCap n { c with fifo := c.fifo ++ [st], newest := some st }
        if c.fifo.isEmpty then s'.irq 121 8 else s'
  else s.setCap n c

/-- CAP_EDGE: an edge at a pad reaches the channel while the pads' island runs locked (R62). -/
def execCapEdge (ch : Fin 25) (rising close : Bool) (s : State) : Host.Outcome State Fault Refusal :=
  .next (if s.locked 8 then s.capAccept ch.val rising close else s)

/-- CAP_TS_NS: the read latches the oldest entry into the three stamp registers (R455, R461). -/
def execCapTsNs (who : Initiator) (ch : Fin 25) (s : State) : Host.Outcome State Fault Refusal :=
  .next (s.rgate who (R.CAP_TS_NS ch.val) fun s =>
    let c := s.capCh ch.val
    let n := ch.val
    match c.fifo with
    | [] => (((s.setCap n { c with latch := none }).setRegs [(R.CAP_TS_NS n, 0), (R.CAP_TS_S n, 0), (R.CAP_TS_SH n, 0x80000000)])).answer 0
    | x :: rest =>
      let sh := wd (x.s.toNat / 2 ^ 32 + 2 ^ 16 * b2n x.edge + 2 ^ 17 * rest.length)
      ((s.setCap n { c with latch := some x }).setRegs
        [(R.CAP_TS_NS n, x.ns), (R.CAP_TS_S n, x.s.setWidth 32), (R.CAP_TS_SH n, sh)]).answer x.ns)

/-- CAP_TS_SH: the read returns the latched word and removes the latched entry (R455). -/
def execCapTsSh (who : Initiator) (ch : Fin 25) (s : State) : Host.Outcome State Fault Refusal :=
  .next (s.rgate who (R.CAP_TS_SH ch.val) fun s =>
    let c := s.capCh ch.val
    let v := s.reg (R.CAP_TS_SH ch.val)
    let c' := if c.latch.isSome then { c with fifo := c.fifo.drop 1, latch := none } else c
    (s.setCap ch.val c').answer v)

end Sys2Proof.Machine
end

