-- ==== Sys2Proof/Machine/Eth.lean ====
section
/-! DEFINITION. Ethernet ports (R426 to R435, R457, R458): links, the receive classifier, the queues of the planes, the
HOST rings and the neighbour cache. -/

namespace Sys2Proof.Machine

/-- A port. -/
def State.port (s : State) (i : Nat) : EthPort := s.eth.get (fun _ => {}) i
/-- Replace it. -/
def State.setPort (s : State) (i : Nat) (p : EthPort) : State := { s with eth := s.eth.set (fun _ => {}) i p }
/-- Page number of port i. -/
abbrev ethPage (i : Nat) : Nat := 112 + i
/-- The physical layer runs: page in RUN or DRAIN, PHY not 0, PD_SDS ON (R428). -/
def State.phyUp (s : State) (i : Nat) : Bool := s.active (ethPage i) && s.fld (R.ETH_MODE i) 1 0 != 0 && s.locked 7
/-- The link is up. -/
def State.linkUp (s : State) (i : Nat) : Bool := s.phyUp i && s.flag (R.ETH_LINK i) 0

/-- Queue depths (R429). -/
abbrev qDepth : EthQueue → Nat | .ptp => 32 | .wit => 64 | .lsx => 64 | .host => 1024
/-- A control-plane frame is dropped and counted (R430); `wit` selects the field. -/
def State.dropCtl (s : State) (i : Nat) (wit : Bool) : State :=
  let a := R.ETH_DROP_CTL i
  (s.setReg a (if wit then satIncField (s.reg a) 31 16 else satIncField (s.reg a) 15 0)).irq (ethPage i) 11

/-- Offer a frame for transmission. A control-plane queue never stalls: the frame is dropped and counted when the
queue is full, the link is down or PD_NET is not ON (R430). -/
def State.ethSend (s : State) (i : Nat) (q : EthQueue) (f : List Byte) : State :=
  let p := s.port i
  let ok := s.up 6 && s.linkUp i
  match q with
  | .ptp => if ok && p.txPtp.length < qDepth .ptp then s.setPort i { p with txPtp := p.txPtp ++ [f] } else s
  | .wit => if ok && p.txWit.length < qDepth .wit then s.setPort i { p with txWit := p.txWit ++ [f] } else s.dropCtl i true
  | .lsx => if ok && p.txLsx.length < qDepth .lsx then s.setPort i { p with txLsx := p.txLsx ++ [f] } else s.dropCtl i false
  | .host => if ok then s.setPort i { p with txOff := p.txOff ++ [f] } else s

/-- Take a frame a control-plane consumer has read out of its receive queue. -/
def State.ethTake (s : State) (i : Nat) (q : EthQueue) (f : List Byte) : State :=
  let p := s.port i
  match q with
  | .ptp => s.setPort i { p with rxPtp := p.rxPtp.erase f }
  | .wit => s.setPort i { p with rxWit := p.rxWit.erase f }
  | .lsx => s.setPort i { p with rxLsx := p.rxLsx.erase f }
  | .host => s

/-- LPDDR5 rings of the HOST queue: address of receive and transmit descriptor k (R431). -/
def State.hqRx (s : State) (i k : Nat) : Nat := s.reg64 (R.ETH_HQ_BASE_LO i) (R.ETH_HQ_BASE_HI i) + 16 * k
def State.hqTx (s : State) (i k : Nat) : Nat := s.hqRx i (s.regN (R.ETH_HQ_SIZE i) + k)
/-- Next index in a ring. -/
def State.hqNext (s : State) (i k : Nat) : Nat := (k + 1) % (max 1 (s.regN (R.ETH_HQ_SIZE i)))

/-- A frame for the HOST queue (R431); `ring` is what the read of its descriptor met, and bad data drops the frame (R85). -/
def State.hostRx (s : State) (i : Nat) (f : List Byte) (ring : Ecc) : State :=
  let k := s.regN (R.ETH_HQ_RX_HEAD i)
  let d := s.hqRx i k
  let st := rdN s.dram (d + 10) 2
  if !s.running 208 ∨ k = s.regN (R.ETH_HQ_RX_TAIL i) ∨ st % 2 = 0 then
    (s.incReg (R.ETH_DROP_HOST i)).irq (ethPage i) 11
  else if ring = .uncorrectable then (s.drmRead ring d 16).incReg (R.ETH_RX_ERR i)
  else
    let s := s.drmRead ring d 16
    let m := wrBytes s.dram (rdN s.dram d 8) f
    let m := wrN (wrN m (d + 8) 2 f.length) (d + 10) 2 2
    (({ s with dram := m }).setReg (R.ETH_HQ_RX_HEAD i) (wd (s.hqNext i k))).irq (ethPage i) 9

/-- Learn a neighbour; of 1,536 entries the oldest gives way. A frame held for it goes to its queue (R434). -/
def State.learn (s : State) (i : Nat) (ip : List Byte) (mac : BitVec 48) : State :=
  if ip.isEmpty then s
  else
    let p := s.port i
    let nb := p.nb.filter fun e => e.ip != ip
    let nb := if 1536 ≤ nb.length then nb.drop 1 else nb
    (p.held.filter fun h => h.1 == ip).foldl (fun s h => s.ethSend i h.2.1 h.2.2)
      (s.setPort i { p with nb := nb ++ [⟨ip, mac, s.time.cnt⟩], held := p.held.filter fun h => h.1 != ip })

/-- A received PAUSE: with PAUSE_RX the port sends nothing for its quanta of 512 bit times, but the frame then on the wire completes
(R427, R429; the quantum is Annex 31B's, PRESUMED in log entry 59). -/
def State.pausePort (s : State) (i quanta : Nat) : State :=
  if !s.flag (R.ETH_MODE i) 5 then s
  else
    let p := s.port i
    let tenthNs := if s.fld (R.ETH_MODE i) 1 0 = 1 then 512 else 5120
    s.setPort i { p with pauseTo := s.time.cnt + quanta * tenthNs * 2 ^ 32 / 10,
                         onWire := !(p.txPtp.isEmpty && p.txWit.isEmpty && p.txLsx.isEmpty && p.txOff.isEmpty) || s.reg (R.ETH_HQ_TX_HEAD i) != s.reg (R.ETH_HQ_TX_TAIL i) }
/-- The port is held by a PAUSE. -/
def State.pausedNow (s : State) (i : Nat) : Bool := decide (s.time.cnt < (s.port i).pauseTo)
/-- Refused by the UDP offload (R433). -/
def udpRefused : EthKind → Bool
  | .udp v6 _ cks frag opts => frag || opts || cks == .bad || (v6 && cks == .zero)
  | .echo n => decide (1280 < n)
  | _ => false

/-- Put an accepted frame into the queue the classifier gives it (R429). -/
def State.classify (s : State) (i : Nat) (f : EthFrame) : State :=
  let p := s.port i
  let host := if f.dst = .foreign then s.incReg (R.ETH_RX_DROP i) else s.hostRx i f.bytes f.ring
  let ptpIn := if p.rxPtp.length < qDepth .ptp then s.setPort i { p with rxPtp := p.rxPtp ++ [f.bytes] } else s
  let reply := if s.linkUp i then s.setPort i { p with txOff := p.txOff ++ [f.bytes] } else s
  match f.kind with
  | .ptp => ptpIn
  | .udp _ port _ _ _ =>
    if port = 319 ∨ port = 320 then ptpIn
    else if port.toNat = s.fld (R.ETH_CLS_WIT i) 15 0 ∧ port ≠ 0 then
      if p.rxWit.length < qDepth .wit then s.setPort i { p with rxWit := p.rxWit ++ [f.bytes] } else s.dropCtl i true
    else if port.toNat = s.fld (R.ETH_CLS_LSX i) 15 0 then
      if p.rxLsx.length < qDepth .lsx then s.setPort i { p with rxLsx := p.rxLsx ++ [f.bytes] } else s.dropCtl i false
    else host
  | .arpReq ours => if ours then reply else s
  | .neighSol ours => if ours then reply else s
  | .arpReply => s
  | .neighAdv => s
  | .echo _ => reply
  | .pause q => s.pausePort i q.toNat
  | .other => host

/-- ETH_RX_FRAME: a received frame is counted, checked, learned from, classified, answered or dropped (R427 to
R435). -/
def execEthRxFrame (i : Fin 6) (f : EthFrame) (s : State) : Host.Outcome State Fault Refusal :=
  let n := i.val
  if !s.linkUp n then .next s
  else if !f.good ∨ 1522 < f.bytes.length then .next (s.incReg (R.ETH_RX_ERR n))
  else
    let s := s.incReg (R.ETH_RX_FRAMES n)
    if f.dst = .foreign then .next (s.incReg (R.ETH_RX_DROP n))
    else if udpRefused f.kind then .next (s.incReg (R.ETH_RX_DROP n))
    else .next ((s.learn n f.srcIp f.srcMac).classify n f)

/-- ETH_TX_DONE: the frame at the head of a queue has left the port; the HOST descriptor is marked DONE (R431). A HOST frame that comes
out of LPDDR5 marked bad is dropped and counted in RX_ERR (R85), and its descriptor is passed over (DESIGN CHOICE, log entry 84). -/
def execEthTxDone (i : Fin 6) (e : PortSent) (s : State) : Host.Outcome State Fault Refusal :=
  let n := i.val
  let p := { s.port n with onWire := (s.port n).onWire && !s.pausedNow n }
  let sent (s : State) := s.incReg (R.ETH_TX_FRAMES n)
  if !s.linkUp n ∨ (s.pausedNow n ∧ !(s.port n).onWire) then .next s
  else match e.queue with
  | .ptp => .next (if p.txPtp.isEmpty then s else sent (s.setPort n { p with txPtp := p.txPtp.drop 1 }))
  | .wit => .next (if p.txWit.isEmpty then s else sent (s.setPort n { p with txWit := p.txWit.drop 1 }))
  | .lsx => .next (if p.txLsx.isEmpty then s else sent (s.setPort n { p with txLsx := p.txLsx.drop 1 }))
  | .host =>
    if !p.txOff.isEmpty then .next (sent (s.setPort n { p with txOff := p.txOff.drop 1 }))
    else
      let k := s.regN (R.ETH_HQ_TX_HEAD n)
      if k = s.regN (R.ETH_HQ_TX_TAIL n) ∨ !s.running 208 then .next s
      else
        let s := s.setPort n p
        let d := s.hqTx n k
        let t := s.drmRead e.ring (rdN s.dram d 8) (rdN s.dram (d + 8) 2)
        if e.ring = .uncorrectable then .next ((t.incReg (R.ETH_RX_ERR n)).setReg (R.ETH_HQ_TX_HEAD n) (wd (s.hqNext n k)))
        else
        let s := t
        .next ((sent (({ s with dram := wrN s.dram (d + 10) 2 2 }).setReg (R.ETH_HQ_TX_HEAD n) (wd (s.hqNext n k)))).irq (ethPage n) 10)

/-- LINK_CHG: the link goes up or down; with auto-negotiation it is up only once that is done (R428). -/
def execLinkChg (i : Fin 6) (up lock anDone remoteFault : Bool) (s : State) : Host.Outcome State Fault Refusal :=
  let n := i.val
  if !s.phyUp n then .next s
  else
    let an := s.fld (R.ETH_MODE n) 1 0 == 2 && s.flag (R.ETH_MODE n) 4
    let isUp := up && lock && (!an || anDone)
    let v := wd (b2n isUp + 2 * b2n lock + 4 * b2n anDone + 8 * b2n remoteFault)
    .next ((s.setReg (R.ETH_LINK n) v).irq (ethPage n) 8)

/-- HQ_TX_TAIL: gives transmit descriptors to the port (R431). -/
def execHqTxTail (who : Initiator) (i : Fin 6) (val : Word) (s : State) : Host.Outcome State Fault Refusal :=
  .next (s.gate who (R.ETH_HQ_TX_TAIL i.val) fun s => s.setReg (R.ETH_HQ_TX_TAIL i.val) val)
/-- HQ_RX_TAIL: gives receive descriptors to the port (R431). -/
def execHqRxTail (who : Initiator) (i : Fin 6) (val : Word) (s : State) : Host.Outcome State Fault Refusal :=
  .next (s.gate who (R.ETH_HQ_RX_TAIL i.val) fun s => s.setReg (R.ETH_HQ_RX_TAIL i.val) val)
/-- NB_EXPIRE: an entry not refreshed for 60 s is removed (R434). -/
def execNbExpire (i : Fin 6) (ip : List Byte) (s : State) : Host.Outcome State Fault Refusal :=
  let p := s.port i.val
  .next (s.setPort i.val { p with nb := p.nb.filter fun e => e.ip != ip })
/-- NB_MISS: no answer within 1 s; the held frame is dropped and counted (R434). -/
def execNbMiss (i : Fin 6) (ip : List Byte) (s : State) : Host.Outcome State Fault Refusal :=
  let p := s.port i.val
  if p.held.any fun h => h.1 == ip then
    .next ((s.setPort i.val { p with held := p.held.filter fun h => h.1 != ip }).incReg (R.ETH_NB_MISS i.val))
  else .next s

/-- First octets of an IPv4 address held in 16 octets (R386). -/
abbrev v4Head : List Byte := List.replicate 10 0 ++ [0xFF, 0xFF]
/-- Octets of an address as a number, the first octet highest. -/
def addrNat (l : List Byte) : Nat := leNat l.reverse
/-- Octets of n address words from a register (R457). -/
def State.addrRegs (s : State) (a n : Nat) : List Byte := (List.range n).flatMap fun k => leBytes 4 (s.regN (a + 4 * k))
/-- The first `plen` of `len` bits agree. -/
def prefixSame (len plen a b : Nat) : Bool := a / 2 ^ (len - plen) == b / 2 ^ (len - plen)
/-- The next hop to an address of 16 octets: the address itself where it lies within the port's prefix, as link-local
addresses do, and otherwise the gateway of its IP version (R432, R434). -/
def State.nextHop (s : State) (i : Nat) (ip : List Byte) : List Byte :=
  if ip.take 12 = v4Head then
    if prefixSame 32 (s.fld (R.ETH_IP4_PLEN i) 5 0) (addrNat (ip.drop 12)) (addrNat (s.addrRegs (R.ETH_IP4_ADDR i) 1)) then ip
    else v4Head ++ s.addrRegs (R.ETH_IP4_GW i) 1
  else if addrNat ip / 2 ^ 118 = 0x3FA ∨ prefixSame 128 (s.fld (R.ETH_IP6_PLEN i) 7 0) (addrNat ip) (addrNat (s.addrRegs (R.ETH_IP6_ADDR i 0) 4)) then ip
  else s.addrRegs (R.ETH_IP6_GW i 0) 4
/-- Send an LSX or witness frame to an IP address: straight to its queue where the next hop is known, and otherwise
held, one frame per next hop, behind one solicitation, which the offload sends (R434). -/
def State.ethSendTo (s : State) (i : Nat) (q : EthQueue) (ip f : List Byte) : State :=
  let p := s.port i
  let hop := s.nextHop i ip
  if !(s.up 6 && s.linkUp i) ∨ (p.nb.any fun e => e.ip == hop) then s.ethSend i q f
  else
    let ask := if p.held.any fun h => h.1 == hop then [] else [hop]
    s.setPort i { p with held := (p.held.filter fun h => h.1 != hop) ++ [(hop, q, f)], txOff := p.txOff ++ ask }

/-- Configuration at fault at a RUN request (R458): the error code and its DETAIL. -/
def State.ethBad (s : State) (i : Nat) : Option (Nat × Nat) :=
  let phy := s.fld (R.ETH_MODE i) 1 0
  let size := s.regN (R.ETH_HQ_SIZE i)
  let extra (a : Nat) (m : Word) : Bool := s.reg a &&& ~~~m != 0
  if phy = 3 ∨ (phy = 1 ∧ 2 ≤ i) ∨ !s.up 7 then some (0x100, 0)
  else if extra (R.ETH_MODE i) 0x73 then some (4, 0x100)
  else if extra (R.ETH_MAC_HI i) 0xFFFF then some (4, 0x108)
  else if extra (R.ETH_VLAN i) 0x1FFF then some (4, 0x10C)
  else if s.regN (R.ETH_IP6_PLEN i) < 1 ∨ 128 < s.regN (R.ETH_IP6_PLEN i) then some (4, 0x120)
  else if s.regN (R.ETH_IP4_PLEN i) < 1 ∨ 32 < s.regN (R.ETH_IP4_PLEN i) then some (4, 0x138)
  else if extra (R.ETH_CLS_LSX i) 0xFFFF then some (4, 0x140)
  else if extra (R.ETH_CLS_WIT i) 0xFFFF then some (4, 0x144)
  else if extra (R.ETH_TX_LAT_NS i) 0xFFFF then some (4, 0x148)
  else if extra (R.ETH_RX_LAT_NS i) 0xFFFF then some (4, 0x14C)
  else if s.regN (R.ETH_HQ_BASE_LO i) % 64 ≠ 0 then some (4, 0x150)
  else if !(size == 16 || size == 32 || size == 64 || size == 128 || size == 256 || size == 512 || size == 1024) then some (4, 0x158)
  else none
/-- The port leaves RUN and DRAIN: transmitter idle, LINK reads zero (R428), which takes a link that was up down. -/
def State.ethStop (s : State) (i : Nat) : State :=
  let t := (s.setReg (R.ETH_LINK i) 0).setPort i { s.port i with pauseTo := 0, onWire := false }
  if s.flag (R.ETH_LINK i) 0 then t.irq (ethPage i) 8 else t

end Sys2Proof.Machine
end

