-- ==== Sys2Proof/Machine/Lane.lean ====
section
/-! DEFINITION. The two lanes of the pair link (R553, R554, R561): frames wait on each lane in strict priority, heartbeats first, then
keeper frames, the other control frames and data frames, and a frame on the lane completes. A clock of 3.2 ns carries four bytes of
10GBASE-R; the table has no row for a departure, so it is a part of what a step does on an empty queue (log entry 28). -/

namespace Sys2Proof.Machine

/-- A frame of TYPE `ty` and QUEUE `queue` joins the frames of its priority (R554). -/
def PlkLane.put (l : PlkLane) (ty queue : Nat) (f : List Byte) : PlkLane :=
  if ty = 1 then { l with hb := l.hb ++ [f] }
  else if queue = 2 then { l with kpr := l.kpr ++ [f] }
  else if queue = 0 then { l with ctl := l.ctl ++ [f] }
  else { l with data := l.data ++ [f] }
/-- The frame that goes next, and the lane without it. -/
def PlkLane.next (l : PlkLane) : Option (List Byte × PlkLane) :=
  match l.hb, l.kpr, l.ctl, l.data with
  | f :: r, _, _, _ => some (f, { l with hb := r })
  | [], f :: r, _, _ => some (f, { l with kpr := r })
  | [], [], f :: r, _ => some (f, { l with ctl := r })
  | [], [], [], f :: r => some (f, { l with data := r })
  | [], [], [], [] => none
/-- Byte times of a frame on the lane: preamble, Ethernet header, FCS and gap about it (IEEE 802.3, PRESUMED in log entry 68). -/
def laneTimes (f : List Byte) : Nat := 8 + max 64 (14 + f.length + 4) + 12
/-- A lane after one clock. -/
def PlkLane.tick (l : PlkLane) : PlkLane :=
  if 4 < l.left then { l with left := l.left - 4 }
  else match l.next with
    | some (f, r) => { r with wire := f, left := laneTimes f }
    | none => { l with wire := [], left := 0 }
/-- A lane of the pair link. -/
def State.lane (s : State) (i : Nat) : PlkLane := s.plk.lanes.get (fun _ => {}) i
/-- Replace it. -/
def State.setLane (s : State) (i : Nat) (l : PlkLane) : State := { s with plk := { s.plk with lanes := s.plk.lanes.set (fun _ => {}) i l } }
/-- Lane i carries frames: PLK in RUN or DRAIN, PD_SDS locked and the lane up. -/
def State.laneUp (s : State) (i : Nat) : Bool := s.active 128 && s.locked 7 && s.flag R.PLK_LANE_STAT i
/-- Both lanes after one clock. -/
def State.lanesTick (s : State) : State :=
  [0, 1].foldl (fun s i => if s.laneUp i && s.lane i != {} then s.setLane i (s.lane i).tick else s) s
/-- A frame is given to every lane that is up (R553). -/
def State.lanesPut (s : State) (ty queue : Nat) (f : List Byte) : State :=
  [0, 1].foldl (fun s i => if s.laneUp i then s.setLane i ((s.lane i).put ty queue f) else s) s
/-- What waits of an older state frame, its pages and its STATE_END, is abandoned (R561). -/
def State.frameAbandon (s : State) : State :=
  [0, 1].foldl (fun s i => s.setLane i { s.lane i with ctl := (s.lane i).ctl.filter fun f => f.getD 1 0 != 0x10 && f.getD 1 0 != 0x11 }) s

end Sys2Proof.Machine
end

