-- ==== Sys2Proof/Machine/Ptp.lean ====
section
/-! DEFINITION. Network time (R436 to R453, R459, R460): device time and its copies, steps, the servo, the PTP
messages, PPS. -/

namespace Sys2Proof.Machine

/-- Kind numbers of this chapter's records. -/
abbrev evTimeStep : Nat := 40
abbrev evStepRefused : Nat := 41
abbrev evOffsetLarge : Nat := 42

/-- A step of device time: every copy takes the new time (R443). The copy of the logic domain counts the steps it has seen; nothing of
the data plane passes to the control plane but the time itself (R11, R12). -/
def State.stepTime (s : State) (t : Nat) : State :=
  let old := s.time.cnt
  let s := { s with ptp := { s.ptp with ppsLast := s.ptp.ppsLast.map fun x => x + ((t : Int) - old) } }
  let s := { s with time := { s.time with cnt := t, aon := t, log := t, nsu := t, kpr := t, nvm := t, logSteps := s.time.logSteps + b2n (s.up 3) } }
  ((s.incReg R.PTP_STEPS).irq 120 10).emit evTimeStep 120
    [lo32 (secOf old), hi32 (secOf old), nsField old, lo32 (secOf t), hi32 (secOf t), nsField t]

/-- A copy after one clock of PD_NET while the broadcast runs: it counts, and closes a difference by slewing at no more
than 500 parts in a million of the rate (R439, R440). -/
def slewCopy (cnt new incr c : Nat) : Nat :=
  if c = cnt then new
  else
    let slew := incr * 500 / 1000000
    if c < new then (if new < c + incr + slew then new else c + incr + slew)
    else max new (c + incr - slew)
/-- One clock of PD_NET, 3.2 ns: the counter adds INCR (R436), and the copies follow or run on (R439, R440). -/
def State.tick (s : State) : State :=
  let t := s.time
  if s.up 6 then
    let i := s.incr
    let n := t.cnt + i
    if s.shown 120 = 4 then
      { s with time := { t with cnt := n, aon := t.aon + t.lastIncr, log := t.log + t.lastIncr, nsu := t.nsu + t.lastIncr,
                                kpr := t.kpr + t.lastIncr, nvm := t.nvm + t.lastIncr } }
    else
      { s with time := { t with cnt := n, lastIncr := i, aon := slewCopy t.cnt n i t.aon, log := slewCopy t.cnt n i t.log,
                                nsu := slewCopy t.cnt n i t.nsu, kpr := slewCopy t.cnt n i t.kpr, nvm := slewCopy t.cnt n i t.nvm } }
  else
    { s with time := { t with aon := t.aon + t.lastIncr, log := t.log + t.lastIncr, nsu := t.nsu + t.lastIncr,
                              kpr := t.kpr + t.lastIncr, nvm := t.nvm + t.lastIncr } }
/-- First time that 48 bits of seconds do not hold (R436). -/
abbrev timeLimit : Nat := 2 ^ 48 * tS
/-- A copy of device time; past the last time of its format the spec states no value, and the k-th free one stands (log entry 27). -/
def timeHeld (n k t : Nat) : Nat := if t < timeLimit then t else (Config.freeBits (n + k)).toNat
/-- What a step does when no command waits: one clock of PD_NET, in which the lanes of the pair link carry their frames on (R554,
log entry 28). -/
def State.idle (s : State) : State :=
  let s := s.lanesTick.tick
  let t := s.time
  if t.cnt < timeLimit ∧ t.aon < timeLimit ∧ t.log < timeLimit ∧ t.nsu < timeLimit ∧ t.kpr < timeLimit ∧ t.nvm < timeLimit then s
  else
    let h := timeHeld s.free
    { s with free := s.free + 6,
             time := { t with cnt := h 0 t.cnt, aon := h 1 t.aon, log := h 2 t.log, nsu := h 3 t.nsu, kpr := h 4 t.kpr, nvm := h 5 t.nvm } }
/-- PD_NET has come ON: the counter is loaded from the PD_AON copy (R441). -/
def State.loadTime (s : State) : State := { s with time := { s.time with cnt := s.time.aon } }

/-- portState of port i, and whether some port is SLAVE or MASTER (IEEE 1588 numbers 9 and 6). -/
def State.ptpPort (s : State) (i : Nat) : Nat := s.fld R.PTP_PORT_STATE (4 * i + 3) (4 * i)
def State.anyPort (s : State) (v : Nat) : Bool := (List.range 6).any fun i => s.ptpPort i == v
/-- Servo state (R447). -/
def State.servo (s : State) : Nat := s.fld R.PTP_SERVO_STAT 2 0
/-- Change the servo state: LOCK_CHG when LOCKED is entered or left, TRACEABLE only in LOCKED (R447, R460). -/
def State.setServo (s : State) (v : Nat) : State :=
  let old := s.servo
  let s := (s.setFld R.PTP_SERVO_STAT 2 0 v).setFlag R.PTP_SERVO_STAT 3 (decide (v = 2) && s.ptp.traceGm)
  let s := if xor (old == 2) (v == 2) then s.irq 120 8 else s
  if v = old then s else { s with ptp := { s.ptp with inLock := 0 } }
/-- Put INCR, within the range of R437, and the rate correction it means. -/
def State.setIncr (s : State) (v : Nat) : State :=
  let v := min 13750767295 (max 13737023399 v)
  let s := (s.setReg R.PTP_INCR_LO (lo32 v)).setReg R.PTP_INCR_HI (wd (v / 2 ^ 32))
  s.setReg R.PTP_FREQ_PPB (wi (rne (((v : Int) - 13743895347) * 1000000000) 13743895347))
/-- Lock is lost: HOLDOVER at the mean of the last 16 values of INCR (R447). -/
def State.toHoldover (s : State) : State :=
  let h := s.ptp.hist
  let s := if h.isEmpty then s else s.setIncr (h.sum / h.length)
  s.setServo 3

/-- An offset measured at a Sync or a PPS_IN edge (R442, R447): a servo step, a report, or a new INCR; then the lock
count. -/
def State.servoOffset (s : State) (ofs : Int) (incr : Nat) (mayStep : Bool) : State :=
  let s := s.setReg R.PTP_OFFSET_NS (wi (clampI (-(2 ^ 31 - 1)) (2 ^ 31 - 1) ofs))
  let big := decide (((s.regN R.PTP_STEP_NS : Nat) : Int) < ofs.natAbs)
  let stepEn := s.flag R.PTP_STEP_EN 0
  let s : State :=
    if big && mayStep && stepEn then s.stepTime ((s.time.cnt : Int) - ofs * 2 ^ 32).toNat
    else
      let s := s.setIncr incr
      let s := { s with ptp := { s.ptp with hist := (s.ptp.hist ++ [s.incr]).drop ((s.ptp.hist.length + 1) - 16) } }
      if big && !stepEn && !s.ptp.large then
        (({ s with ptp := { s.ptp with large := true } }).irq 120 12).emit evOffsetLarge 120 [s.reg R.PTP_OFFSET_NS]
      else if !big then { s with ptp := { s.ptp with large := false } } else s
  if ofs.natAbs < s.regN R.PTP_LOCK_NS then
    let n := s.ptp.inLock + 1
    let s := { s with ptp := { s.ptp with inLock := n } }
    if 16 ≤ n && s.servo != 2 then s.setServo 2 else s
  else
    let s : State := { s with ptp := { s.ptp with inLock := 0 } }
    if s.servo == 2 then s.toHoldover else s

/-- The port states of a decision of the best master clock algorithm (R445, R446): only ports in PORTS, no MASTER with
SLAVE_ONLY; the servo state that follows (R447). -/
def State.setPorts (s : State) (states : List (BitVec 4)) : State :=
  let ports := s.fld R.PTP_CFG 13 8
  let so := s.flag R.PTP_CFG 5
  let v := (List.range 6).foldl (fun v i =>
    let x := (states.getD i 0).toNat
    let x := if so ∧ x = 6 then 4 else x
    putBits v (4 * i + 3) (4 * i) (if ports.testBit i then x else 3)) (0 : Word)
  let wasSlave := s.anyPort 9
  let s := s.setReg R.PTP_PORT_STATE v
  if s.anyPort 9 then (if wasSlave then s else s.setServo 1)
  else if s.anyPort 6 then (if s.ptp.everPps && s.servo == 2 then s else s.setServo 4)
  else if s.servo = 2 then s.toHoldover
  else if s.servo = 3 then s
  else s.setServo 0

/-- A message this port sends, by its IEEE 1588 messageType, with the time the rules insert (R449): type, port, seconds
and nanoseconds in network order. -/
def ptpMsg (ty port : Nat) (t : Nat) : List Byte :=
  [BitVec.ofNat 8 ty, BitVec.ofNat 8 port] ++ (leBytes 6 (secOf t)).reverse ++ (leBytes 4 (nsField t).toNat).reverse
/-- Ones'-complement compensation of inserted octets (R450). -/
def compWord (b : List Byte) : BitVec 16 :=
  let ws := (List.range (b.length / 2)).map fun i => 256 * (b.getD (2 * i) 0).toNat + (b.getD (2 * i + 1) 0).toNat
  let x := ws.sum
  let x := x % 65536 + x / 65536
  let x := x % 65536 + x / 65536
  ~~~(BitVec.ofNat 16 x)
/-- The two octets after a message sent over UDP/IPv6, or UDP/IPv4 with V4CKS, for the octets inserted in it (R450). -/
def State.ptpTail (s : State) (i : Nat) (ins : List Byte) : List Byte :=
  let tr := s.fld R.PTP_CFG 3 2
  let c := compWord ins
  if tr = 2 ∨ (tr = 1 ∧ s.flag (R.ETH_MODE i) 6) then [(c >>> 8).setWidth 8, c.setWidth 8] else []
/-- Send an event message with its inserted time and, over UDP/IPv6 or UDP/IPv4 with V4CKS, the two octets (R449,
R450). -/
def State.ptpSend (s : State) (ty i : Nat) : State :=
  let t := ((s.time.cnt : Int) + sext 16 (s.regN (R.ETH_TX_LAT_NS i)) * 2 ^ 32).toNat
  let m := ptpMsg ty i t
  s.ethSend i .ptp (m ++ s.ptpTail i (m.drop 2))
/-- A one-step Pdelay_Resp: the turnaround time in correctionField, of which the rules give no number, and a
requestReceiptTimestamp of zero (R449). -/
def State.pdelayAnswer (s : State) (i : Nat) : State :=
  let r := s.fresh
  let corr := (leBytes 8 r.1.toNat).reverse
  r.2.ethSend i .ptp ([3, BitVec.ofNat 8 i] ++ corr ++ List.replicate 10 0 ++ r.2.ptpTail i corr)
/-- PTP is in RUN on this port. -/
def State.ptpOn (s : State) (i : Nat) : Bool := s.running 120 && (s.fld R.PTP_CFG 13 8).testBit i
/-- The profile measures end to end (R445). -/
def State.ptpE2e (s : State) : Bool := s.fld R.PTP_CFG 1 0 == 0

/-- TIME_NS: the read latches seconds and fraction of the same clock (R438). -/
def execTimeNs (who : Initiator) (s : State) : Host.Outcome State Fault Refusal :=
  .next (s.rgate who R.PTP_TIME_NS fun s =>
    let t := s.time.cnt
    ({ s with time := { s.time with latS := BitVec.ofNat 48 (secOf t), latF := wd t } }).answer (nsField t))
/-- The time in SET_S and SET_NS. -/
def State.setTimeOf (s : State) (ns : Nat) : Nat := ((s.regN R.PTP_SET_S_LO + 2 ^ 32 * s.fld R.PTP_SET_S_HI 15 0) * 1000000000 + ns) * 2 ^ 32
/-- SET: steps device time, or is recorded as STEP_REFUSED while STEP_EN is clear (R442). -/
def execSet (who : Initiator) (s : State) : Host.Outcome State Fault Refusal :=
  .next (s.gate who R.PTP_TCMD fun s =>
    if s.flag R.PTP_STEP_EN 0 then s.stepTime (s.setTimeOf (s.regN R.PTP_SET_NS)) else s.emit evStepRefused 120 [])
/-- SECONDS: arms the seconds set at the next PPS_IN edge (R453). -/
def execSeconds (who : Initiator) (s : State) : Host.Outcome State Fault Refusal :=
  .next (s.gate who R.PTP_TCMD fun s =>
    if s.flag R.PTP_STEP_EN 0 then { s with ptp := { s.ptp with secArm := true } } else s.emit evStepRefused 120 [])

/-- Offset from the master of a Sync (R447, R448). -/
def State.syncOffset (s : State) (i : Nat) (t : PtpTimes) : Int :=
  (t.rx : Int) + sext 16 (s.regN (R.ETH_RX_LAT_NS i)) - t.origin - t.corr - s.regN R.PTP_MPD_NS
/-- SYNC: a one-step Sync updates the servo; a two-step one waits for its Follow_Up (R445, R447). -/
def execSync (port : Fin 6) (twoStep newGm : Bool) (t : PtpTimes) (incr : BitVec 40) (s : State) : Host.Outcome State Fault Refusal :=
  if !(s.ptpOn port.val && s.ptpPort port.val == 9) then .next s
  else
    let first := newGm || s.ptp.newGm
    if twoStep then .next { s with ptp := { s.ptp with twoStep := some t, newGm := first } }
    else .next ({ s with ptp := { s.ptp with newGm := false } }.servoOffset (s.syncOffset port.val t) incr.toNat first)
/-- FOLLOW_UP: completes a two-step Sync with its origin and correction (R445). -/
def execFollowUp (port : Fin 6) (t : PtpTimes) (incr : BitVec 40) (s : State) : Host.Outcome State Fault Refusal :=
  match s.ptp.twoStep with
  | none => .next s
  | some y =>
    if !(s.ptpOn port.val && s.ptpPort port.val == 9) then .next s
    else
      let first := s.ptp.newGm
      let t' : PtpTimes := { origin := t.origin, rx := y.rx, corr := y.corr + t.corr }
      .next ({ s with ptp := { s.ptp with newGm := false, twoStep := none } }.servoOffset (s.syncOffset port.val t') incr.toNat first)
/-- SYNC_SEND: a MASTER port sends a one-step Sync (R449). -/
def execSyncSend (port : Fin 6) (s : State) : Host.Outcome State Fault Refusal :=
  .next (if s.ptpOn port.val && s.ptpPort port.val == 6 then s.ptpSend 0 port.val else s)
/-- ANNOUNCE: feeds the best master clock algorithm; its port states, the grandmaster and the UTC offset (R445,
R446). -/
def execAnnounce (port : Fin 6) (a : PtpAnnounce) (s : State) : Host.Outcome State Fault Refusal :=
  if !s.ptpOn port.val then .next s
  else
    let s := s.setPorts a.states
    if s.ptpPort port.val = 9 then
      let chg := s.reg R.PTP_GM_ID_LO != a.gm.setWidth 32 || s.reg R.PTP_GM_ID_HI != (a.gm >>> 32).setWidth 32
      let s := s.setRegs [(R.PTP_GM_ID_LO, a.gm.setWidth 32), (R.PTP_GM_ID_HI, (a.gm >>> 32).setWidth 32), (R.PTP_UTC_OFS_RX, a.utc)]
      let s := s.setFld R.PTP_SERVO_STAT 15 8 a.cls.toNat
      let s := { s with ptp := { s.ptp with traceGm := a.trace, newGm := s.ptp.newGm || chg } }
      let s := s.setFlag R.PTP_SERVO_STAT 3 (s.servo == 2 && a.trace)
      .next (if chg then s.irq 120 9 else s)
    else .next s
/-- Clock class announced as master (R446). -/
def State.annClass (s : State) : Nat :=
  if s.fld R.PTP_PPS_CFG 3 2 = 2 ∧ s.servo = 2 then 6 else s.fld R.PTP_CLOCK 23 16
/-- ANNOUNCE_SEND (R446). -/
def execAnnounceSend (port : Fin 6) (s : State) : Host.Outcome State Fault Refusal :=
  .next (if s.ptpOn port.val && s.ptpPort port.val == 6 then
    s.ethSend port.val .ptp ([0xB, BitVec.ofNat 8 port.val, BitVec.ofNat 8 s.annClass] ++ leBytes 4 (s.regN R.PTP_UTC_OFFSET)) else s)
/-- ANNOUNCE_RECEIPT_TIMEOUT: port states are decided again (R445, R447). -/
def execAnnounceReceiptTimeout (port : Fin 6) (states : List (BitVec 4)) (s : State) : Host.Outcome State Fault Refusal :=
  .next (if s.ptpOn port.val then s.setPorts states else s)
/-- DELAY_REQ: received by a MASTER port it is answered by a Delay_Resp; sent by a SLAVE port it goes out (R445). -/
def execDelayReq (port : Fin 6) (received : Bool) (s : State) : Host.Outcome State Fault Refusal :=
  if !(s.ptpOn port.val && s.ptpE2e) then .next s
  else if received then .next (if s.ptpPort port.val = 6 then s.ethSend port.val .ptp (ptpMsg 9 port.val s.time.cnt) else s)
  else .next (if s.ptpPort port.val = 9 then s.ptpSend 1 port.val else s)
/-- DELAY_RESP: updates the mean path delay (R445, R459). -/
def execDelayResp (port : Fin 6) (delayNs : Word) (s : State) : Host.Outcome State Fault Refusal :=
  .next (if s.ptpOn port.val && s.ptpE2e && s.ptpPort port.val == 9 then s.setReg R.PTP_MPD_NS delayNs else s)
/-- PDELAY_REQ: answered by a one-step Pdelay_Resp (R449). -/
def execPdelayReq (port : Fin 6) (s : State) : Host.Outcome State Fault Refusal :=
  .next (if s.ptpOn port.val && !s.ptpE2e then s.pdelayAnswer port.val else s)
/-- PDELAY_RESP: updates the peer delay (R445, R459). -/
def execPdelayResp (port : Fin 6) (delayNs : Word) (s : State) : Host.Outcome State Fault Refusal :=
  .next (if s.ptpOn port.val && !s.ptpE2e then s.setReg R.PTP_MPD_NS delayNs else s)
/-- PDELAY_REQ_SEND: in a P2P profile a port sends a Pdelay_Req (R445). -/
def execPdelayReqSend (port : Fin 6) (s : State) : Host.Outcome State Fault Refusal :=
  .next (if s.ptpOn port.val && !s.ptpE2e then s.ptpSend 2 port.val else s)
/-- MANAGEMENT: a management message is dropped unanswered (R445). -/
def execManagement (_port : Fin 6) (s : State) : Host.Outcome State Fault Refusal := .next s
/-- HOLDOVER_EXPIRE: HOLDOVER becomes FREE (R447). -/
def execHoldoverExpire (s : State) : Host.Outcome State Fault Refusal :=
  .next (if s.running 120 && s.servo == 3 then s.setServo 0 else s)

/-- An edge under discipline is taken as a whole second (R447, R453). -/
def State.ppsSecond (s : State) (incr : Nat) : State :=
  let ns : Int := ((nsField s.time.cnt).toNat : Int)
  let ofs := if ns < 500000000 then ns else ns - 1000000000
  let s := if s.servo = 0 ∨ s.servo = 3 then s.setServo 1 else s
  { s with ptp := { s.ptp with everPps := true } }.servoOffset ofs incr false
/-- Under discipline, with no port SLAVE, an edge carries out an armed seconds set if STEP_EN still allows the step, and is taken as a
whole second otherwise (R442, R453). -/
def State.ppsEdge (s : State) (incr : Nat) : State :=
  if !s.running 120 ∨ !s.locked 8 ∨ s.fld R.PTP_PPS_CFG 3 2 ≠ 2 ∨ s.anyPort 9 then s
  else
    let t : State := { s with ptp := { s.ptp with secArm := false } }
    if s.ptp.secArm && s.flag R.PTP_STEP_EN 0 then t.stepTime (s.setTimeOf 0) else t.ppsSecond incr
/-- PPS_IN: the edge is captured on channel 24, and may discipline device time (R453). -/
def execPpsIn (incr : BitVec 40) (s : State) : Host.Outcome State Fault Refusal :=
  .next ((if s.locked 8 then s.capAccept 24 (!s.flag R.PTP_PPS_CFG 4) false else s).ppsEdge incr.toNat)
/-- PPS_IN_LOSS: no edge for 2 s puts a PPS-disciplined servo in HOLDOVER (R453). -/
def execPpsInLoss (s : State) : Host.Outcome State Fault Refusal :=
  .next (if s.running 120 && s.fld R.PTP_PPS_CFG 3 2 == 2 && !s.anyPort 9 && (s.servo == 1 || s.servo == 2) then s.toHoldover else s)
/-- PPS_OUT: its last rise is kept on the time scale in force, moved by each step; it rises as PPS_CFG.OUT allows, never within 100 ms of the rise before it (R451, R460). -/
def execPpsOut (s : State) : Host.Outcome State Fault Refusal :=
  let o := s.fld R.PTP_PPS_CFG 1 0
  let far := match s.ptp.ppsLast with | none => true | some t => decide (t + (100 * tMs : Nat) ≤ (s.time.cnt : Int))
  if s.running 120 && far && (o == 2 || (o == 1 && (s.servo == 2 || s.servo == 4))) then
    .next (({ s with ptp := { s.ptp with ppsHigh := true, ppsLast := some s.time.cnt } }).irq 120 11)
  else .next s
/-- PPS_PULSE_END: PPS_OUT falls after PPS_WIDTH_US (R451). -/
def execPpsPulseEnd (s : State) : Host.Outcome State Fault Refusal :=
  .next (if s.ptp.ppsHigh then ({ s with ptp := { s.ptp with ppsHigh := false } }).irq 120 11 else s)

/-- The first register whose attributes lie outside the profile's ranges (R445, R460). The ranges are those of IEEE 1588-2019 for the
default profiles and of IEC/IEEE 61850-9-3, which the spec names (PRESUMED, log entry 59). -/
def State.profileBad (s : State) : Option Nat :=
  let byte (lo : Nat) : Int := sext 8 (s.fld R.PTP_INTERVALS (lo + 7) lo)
  let tout := s.fld R.PTP_INTERVALS 27 24
  if s.fld R.PTP_CFG 1 0 = 2 then
    (if byte 0 = 0 ∧ byte 8 = 0 ∧ byte 16 = 0 ∧ tout = 3 then none else some 0x10C)
  else if 127 < s.fld R.PTP_DOMAIN 7 0 then some 0x104
  else if -1 ≤ byte 0 ∧ byte 0 ≤ 1 ∧ 0 ≤ byte 8 ∧ byte 8 ≤ 4 ∧ 0 ≤ byte 16 ∧ byte 16 ≤ 5 ∧ 2 ≤ tout ∧ tout ≤ 10 then none
  else some 0x10C
/-- Configuration at fault at a RUN request (R445, R446, R459, R460). -/
def State.ptpBad (s : State) : Option (Nat × Nat) :=
  let prof := s.fld R.PTP_CFG 1 0
  let tr := s.fld R.PTP_CFG 3 2
  let ports := s.fld R.PTP_CFG 13 8
  let n := ((List.range 6).filter fun i => ports.testBit i).length
  let ofs := (s.reg R.PTP_PPS_OFS_NS).toInt
  if prof = 3 ∨ tr = 3 ∨ (prof = 2 ∧ tr ≠ 0) ∨ (if s.flag R.PTP_CFG 4 then n < 2 else n ≠ 1) then some (0x100, 0x100)
  else if s.profileBad.isSome then s.profileBad.map fun o => (0x100, o)
  else if s.fld R.PTP_PPS_CFG 1 0 = 3 ∨ s.fld R.PTP_PPS_CFG 3 2 = 3 then some (4, 0x11C)
  else if ofs < -500000 ∨ 500000 < ofs then some (4, 0x124)
  else none
/-- Entry to RUN: the ports in PORTS listen, the servo is free or acquires (R445, R447). -/
def State.ptpStart (s : State) : State :=
  let ports := s.fld R.PTP_CFG 13 8
  let v := (List.range 6).foldl (fun v i => putBits v (4 * i + 3) (4 * i) (if ports.testBit i then 4 else 3)) (0 : Word)
  ({ s with ptp := {} }).setRegs [(R.PTP_PORT_STATE, v), (R.PTP_SERVO_STAT, 0)]
/-- The servo stops; the counter runs on undisciplined (R99, R100). -/
def State.ptpStop (s : State) : State :=
  ({ s with ptp := { s.ptp with secArm := false, twoStep := none } }).setRegs [(R.PTP_PORT_STATE, 0), (R.PTP_SERVO_STAT, 0)]

end Sys2Proof.Machine
end

