-- ==== Sys2Proof/Machine/Rtc.lean ====
section
/-! DEFINITION. Real-time clock and calendar (R659 to R674): the calendar, its coherent reads and staged writes,
alarms, wake, backup cell and trim. -/

namespace Sys2Proof.Machine

/-- Leap year of the proleptic Gregorian calendar (R660). -/
def isLeap (y : Nat) : Bool := (y % 4 == 0 && y % 100 != 0) || y % 400 == 0
/-- Days of a month. -/
def daysIn (y m : Nat) : Nat := if m = 2 then (if isLeap y then 29 else 28) else if m = 4 ∨ m = 6 ∨ m = 9 ∨ m = 11 then 30 else 31
/-- Days from 1970-01-01 to the first day of year y, y at least 1970. -/
def daysToYear (y : Nat) : Nat := 365 * (y - 1970) + ((y - 1) / 4 - 492) - ((y - 1) / 100 - 19) + ((y - 1) / 400 - 4)
/-- Days of the months before m. -/
def daysToMonth (y m : Nat) : Nat := ((List.range (m - 1)).map fun i => daysIn y (i + 1)).sum
/-- Days from 1970-01-01. -/
def dayNumber (y m d : Nat) : Nat := daysToYear y + daysToMonth y m + (d - 1)
/-- WDAY: 1 Monday to 7 Sunday (R661); 1970-01-01 was a Thursday. -/
def wdayOf (y m d : Nat) : Nat := (dayNumber y m d + 3) % 7 + 1

/-- A calendar time. -/
abbrev calOf (t0 t1 t2 : Word) : Nat × Nat × Nat × Nat × Nat × Nat :=
  (bits t2 11 0, bits t1 27 24, bits t1 20 16, bits t1 4 0, bits t0 29 24, bits t0 21 16)
/-- TIME0 and TIME1 of a time. -/
def pack0 (sub sec min : Nat) : Word := wd (sub + 2 ^ 16 * sec + 2 ^ 24 * min)
def pack1 (hour wday day month : Nat) : Word := wd (hour + 2 ^ 8 * wday + 2 ^ 16 * day + 2 ^ 24 * month)
/-- Device second of a calendar time (R660). -/
def calSecond (t0 t1 t2 : Word) : Nat :=
  dayNumber (bits t2 11 0) (bits t1 27 24) (bits t1 20 16) * 86400 + bits t1 4 0 * 3600 + bits t0 29 24 * 60 + bits t0 21 16

/-- Set an EVT flag and, while PD_NVM is ON, its cause (R668). -/
def State.rtcEvt (s : State) (i : Nat) : State :=
  let s := s.setFlag R.RTC_EVT i true
  let cause := if i = 0 then 8 else if i = 1 then 9 else if i = 2 then 10 else if i = 4 then 11 else 0
  if cause ≠ 0 ∧ s.up 10 then s.irq 35 cause else s

/-- Alarm a matches the counter (R666). -/
def alarmHit (s : State) (a : Nat) : Bool :=
  let m := s.reg (R.RTC_ALM_MASK a)
  let t0 := s.reg R.RTC_TIME0
  let t1 := s.reg R.RTC_TIME1
  let a0 := s.reg (R.RTC_ALM_T0 a)
  let a1 := s.reg (R.RTC_ALM_T1 a)
  bit m 8 && (bit m 0 || bits a0 21 16 == bits t0 21 16) && (bit m 1 || bits a0 29 24 == bits t0 29 24) &&
  (bit m 2 || bits a1 4 0 == bits t1 4 0) && (bit m 3 || bits a1 10 8 == bits t1 10 8) &&
  (bit m 4 || bits a1 20 16 == bits t1 20 16) && (bit m 5 || bits a1 27 24 == bits t1 27 24) &&
  (bit m 6 || bits (s.reg (R.RTC_ALM_T2 a)) 11 0 == bits (s.reg R.RTC_TIME2) 11 0)

/-- The time one second later, fields carried (R661). -/
def calNext (t0 t1 t2 : Word) : Word × Word × Word :=
  let (y, mo, d, h, mi, sec) := calOf t0 t1 t2
  let wk := bits t1 10 8
  if sec < 59 then (pack0 0 (sec + 1) mi, t1, t2)
  else if mi < 59 then (pack0 0 0 (mi + 1), t1, t2)
  else if h < 23 then (pack0 0 0 0, pack1 (h + 1) wk d mo, t2)
  else
    let (y', mo', d') := if d < daysIn y mo then (y, mo, d + 1) else if mo < 12 then (y, mo + 1, 1) else (y + 1, 1, 1)
    (pack0 0 0 0, pack1 0 (wdayOf y' mo' d') d' mo', wd y')

/-! ### SUB and the trim (R661, R671) -/

/-- What one oscillator cycle adds to SUB, in units of 2⁻²⁰: a window of 2²⁰ cycles adds 2²⁰ + VAL counts, evenly spread. -/
def State.trimRate (s : State) : Nat := (2 ^ 20 + sext 10 (s.fld R.RTC_TRIM 9 0)).toNat
/-- SUB with its fraction, in units of 2⁻²⁰. -/
def State.subPhase (s : State) : Nat := s.fld R.RTC_TIME0 14 0 * 2 ^ 20 + s.rtc.frac
/-- Set SUB and its fraction. -/
def State.setSub (s : State) (p : Nat) : State :=
  { s.setFld R.RTC_TIME0 14 0 (p / 2 ^ 20) with rtc := { s.rtc with frac := p % 2 ^ 20 } }
/-- Oscillator cycles that pass before SUB leaves its second. -/
def State.oscLeft (s : State) : Nat := (32768 * 2 ^ 20 - 1 - s.subPhase) / s.trimRate
/-- The counter runs on through oscillator cycles within its second (R661, R671). -/
def State.oscRun (s : State) (n : Nat) : State := s.setSub (s.subPhase + min n s.oscLeft * s.trimRate)
/-- The oscillator runs between commands: how many of the second's cycles have passed is free (log entry 80). -/
def State.rtcRun (s : State) : State :=
  let f := s.fresh
  f.2.oscRun (f.1.toNat % (f.2.oscLeft + 1))
/-- SUB, with its fraction, after the cycle in which the second ends. -/
def State.subCarry (s : State) : Nat := s.subPhase + (s.oscLeft + 1) * s.trimRate - 32768 * 2 ^ 20

/-- RTC_SECOND: the calendar counts into a new second and evaluates the alarms, or stops at the end of its range
(R661, R666); SUB counts as the trim has it (R671). -/
def execRtcSecond (s : State) : Host.Outcome State Fault Refusal :=
  let t0 := s.reg R.RTC_TIME0
  let t1 := s.reg R.RTC_TIME1
  let t2 := s.reg R.RTC_TIME2
  if calOf t0 t1 t2 = (2399, 12, 31, 23, 59, 59) then
    .next (((s.setReg R.RTC_TIME0 (pack0 32767 59 59)).setFlag R.RTC_STAT 0 false).setFlag R.RTC_STAT 6 true)
  else
    let (n0, n1, n2) := calNext t0 t1 t2
    let s := (((s.setReg R.RTC_TIME0 n0).setReg R.RTC_TIME1 n1).setReg R.RTC_TIME2 n2).setSub s.subCarry
    let s := if alarmHit s 0 then s.rtcEvt 0 else s
    .next (if alarmHit s 1 then s.rtcEvt 1 else s)

/-- WAKE: every N ticks, EVT.WAKE is set while EN is set (R667). -/
def execWake (s : State) : Host.Outcome State Fault Refusal := .next (if s.flag R.RTC_WAKE_PERIOD 31 then s.rtcEvt 2 else s)

/-- WAKE_PERIOD: sets N and EN; N outside 1 to 22,118,400 has no effect and sets ERRCODE (R667, R673). -/
def execWakePeriod (who : Initiator) (val : Word) (s : State) : Host.Outcome State Fault Refusal :=
  .next (s.gate who R.RTC_WAKE_PERIOD fun s =>
    let n := bits val 24 0
    if 1 ≤ n ∧ n ≤ 22118400 then s.setReg R.RTC_WAKE_PERIOD (val &&& 0x81FFFFFF) else s.errc 35 6 0x850)

/-- Freeze the time set, as the counter has run to it, into the shadows unless it is frozen (R662). -/
def State.freeze (s : State) : State :=
  if s.flag R.RTC_STAT 1 then s
  else
    let s := s.rtcRun
    { s.setFlag R.RTC_STAT 1 true with rtc := { s.rtc with sh0 := s.reg R.RTC_TIME0, sh1 := s.reg R.RTC_TIME1, sh2 := s.reg R.RTC_TIME2 } }

/-- TIME_READ: a read of TIME0 or TIME1 (R662). -/
def execTimeRead (who : Initiator) (one : Bool) (s : State) : Host.Outcome State Fault Refusal :=
  .next (s.rgate who (if one then R.RTC_TIME1 else R.RTC_TIME0) fun s =>
    let s := s.freeze
    s.answer (if one then s.rtc.sh1 else s.rtc.sh0))

/-- TIME2_READ: returns its shadow and releases the freeze (R662). -/
def execTime2Read (who : Initiator) (s : State) : Host.Outcome State Fault Refusal :=
  .next (s.rgate who R.RTC_TIME2 fun s =>
    let s := s.freeze
    (s.answer s.rtc.sh2).setFlag R.RTC_STAT 1 false)

/-- RD_TIMEOUT: a freeze held for 32,768 cycles is released and flagged (R662). -/
def execRdTimeout (s : State) : Host.Outcome State Fault Refusal :=
  .next (if s.flag R.RTC_STAT 1 then (s.setFlag R.RTC_STAT 1 false).rtcEvt 3 else s)

/-- Bit position of the first staged field that fails R664, if any. -/
def stageBad (s : State) : Option Nat :=
  let g0 := s.reg R.RTC_STAGE0
  let g1 := s.reg R.RTC_STAGE1
  let (y, mo, d, h, mi, sec) := calOf g0 g1 (s.reg R.RTC_STAGE2)
  if 59 < sec then some 16 else if 59 < mi then some 24 else if 23 < h then some 0
  else if mo < 1 ∨ 12 < mo then some 24 else if d < 1 ∨ daysIn y mo < d then some 16
  else if y < 2000 ∨ 2399 < y then some 0 else none

/-- COMMIT_GO: checks the staged time and schedules its load, or refuses it; nothing while a commit is busy (R664, R665). -/
def execCommitGo (who : Initiator) (s : State) : Host.Outcome State Fault Refusal :=
  .next (s.gate who R.RTC_COMMIT fun s =>
    if s.flag R.RTC_STAT 4 then s
    else match stageBad s with
      | some pos => (s.setFlag R.RTC_STAT 5 true).errc 35 0x100 pos
      | none => { s.setFlag R.RTC_STAT 4 true with
                  rtc := { s.rtc with c0 := s.reg R.RTC_STAGE0, c1 := s.reg R.RTC_STAGE1, c2 := s.reg R.RTC_STAGE2 } })

/-- Kind numbers of the records of this chapter. -/
abbrev evRtcSet : Nat := 30
abbrev evTimeLost : Nat := 31

/-- COMMIT_LOAD: the staged time becomes the counter, WDAY computed, the alarms not evaluated (R664, R666). -/
def execCommitLoad (s : State) : Host.Outcome State Fault Refusal :=
  if s.flag R.RTC_STAT 4 then
    let s := s.rtcRun
    let old := [s.reg R.RTC_TIME0, s.reg R.RTC_TIME1, s.reg R.RTC_TIME2]
    let (y, mo, d, h, mi, sec) := calOf s.rtc.c0 s.rtc.c1 s.rtc.c2
    let n0 := pack0 (bits s.rtc.c0 14 0) sec mi
    let n1 := pack1 h (wdayOf y mo d) d mo
    let s := ((s.setReg R.RTC_TIME0 n0).setReg R.RTC_TIME1 n1).setReg R.RTC_TIME2 (wd y)
    let st := s.reg R.RTC_STAT
    let s := s.setReg R.RTC_STAT (putBit (putBit (putBit (putBit st 0 true) 4 false) 5 false) 6 false)
    .next (s.emit evRtcSet 35 (old ++ [n0, n1, wd y]))
  else .next s

/-- BACKUP_SWITCH: the supply of PD_RTC changes over (R669, R674). -/
def execBackupSwitch (toBat : Bool) (s : State) : Host.Outcome State Fault Refusal :=
  if s.flag R.RTC_STAT 2 = toBat then .next s
  else
    let s := s.setFlag R.RTC_STAT 2 toBat
    let s := if toBat then s.rtcEvt 5 else s
    .next (if s.up 10 then s.irq 35 12 else s)

/-- BAT_LOW: VBAT crosses its warning level (R669). -/
def execBatLow (below : Bool) (s : State) : Host.Outcome State Fault Refusal := .next (s.setFlag R.RTC_STAT 3 below)

/-- RET_LOST: the retention monitor latches the loss (R670). -/
def execRetLost (s : State) : Host.Outcome State Fault Refusal := .next (s.rtcEvt 4)

/-- Addresses of the RTC registers that lie in PD_RTC (R673). -/
def rtcAddrs : List Nat := (List.range 0x60).map fun i => 0x40023800 + 4 * i
/-- The calendar restarts at its first instant: no fraction, no shadow, nothing to load (R670). -/
def State.rtcCleared (s : State) : State := { s with rtc := {} }
/-- PD_AON leaves reset: with RET_LOST latched every RTC register takes its reset value (R670). -/
def State.rtcWake (s : State) : State :=
  let s := if s.flag R.RTC_EVT 4 then
      ((((rtcAddrs.foldl (fun s a => s.setReg a (regReset a)) s).setPage 35 { s.page 35 with irqEn := 0 }).setReg R.RTC_EVT 0x10).rtcCleared.errc 35 0x101 0).emitSev evTimeLost 2 35 []
    else s
  [0, 1, 2, 4].foldl (fun s i => if s.flag R.RTC_EVT i then s.irq 35 (if i = 4 then 11 else 8 + i) else s) s

/-- TRIM_WINDOW: at the end of a window of 32 s with AUTO set and the servo LOCKED throughout, VAL is corrected
(R672). -/
def execTrimWindow (lockedThroughout : Bool) (elapsedNs : Nat) (s : State) : Host.Outcome State Fault Refusal :=
  if s.flag R.RTC_TRIM 16 ∧ lockedThroughout = true ∧ s.fld R.PTP_SERVO_STAT 2 0 = 2 then
    let corr := rha (((elapsedNs : Int) - 32000000000) * 2 ^ 20) 32000000000
    let v := clampI (-512) 511 (sext 10 (s.fld R.RTC_TRIM 9 0) + corr)
    .next ((s.setFld R.RTC_TRIM 9 0 (unsext 10 v)).setReg R.RTC_TRIM_ERR (wi corr))
  else .next s

end Sys2Proof.Machine
end

