-- ==== Sys2Proof/Machine/Axs.lean ====
section
/-! DEFINITION. Valve axes (R485 to R515): the downlink frame and the profile generator of every tick, replies, stall
and fault, referencing and commands, rebase. -/

namespace Sys2Proof.Machine

/-- Kind numbers of this chapter's records. -/
abbrev evAxisStall : Nat := 60
abbrev evRefFail : Nat := 61
abbrev evDrvFault : Nat := 62

/-- An axis. -/
def State.axis (s : State) (a : Nat) : Axis := s.axes.get (fun _ => {}) a
/-- Replace it. -/
def State.setAxis (s : State) (a : Nat) (x : Axis) : State := { s with axes := s.axes.set (fun _ => {}) a x }
/-- Page of link n, and of an axis's link. -/
abbrev dlkPage (n : Nat) : Nat := 161 + n
/-- The driver is enabled (R514). -/
def State.axEnabled (s : State) (a : Nat) : Bool := s.flag (R.DLK_LINK_CFG (a / 16)) (a % 16)
/-- State shown for an axis: DISABLED while its driver is not enabled. -/
def State.axSt (s : State) (a : Nat) : AxState := if s.axEnabled a then (s.axis a).st else .disabled
/-- One microstep in units of `x`. -/
abbrev uStep : Int := 2 ^ 32
/-- Profile word of an axis, masked to its field. -/
def State.prf (s : State) (a ofs : Nat) (hi : Nat) : Nat := s.fld (0x400A0100 + 48 * s.fld (R.DLK_CFG a) 3 0 + ofs) hi 0
/-- Profile speeds in units of `v`, and accelerations per tick in the same units (R494, R495). -/
def State.vStart (s : State) (a : Nat) : Nat := s.prf a 0 23 * 50000
def State.v1 (s : State) (a : Nat) : Nat := s.prf a 4 23 * 50000
def State.vMax (s : State) (a : Nat) : Nat := s.prf a 8 23 * 50000
def State.vStop (s : State) (a : Nat) : Nat := s.prf a 12 23 * 50000
def State.acc1 (s : State) (a : Nat) : Nat := s.prf a 16 27
def State.acc2 (s : State) (a : Nat) : Nat := s.prf a 20 27
def State.dec2 (s : State) (a : Nat) : Nat := s.prf a 24 27
def State.dec1 (s : State) (a : Nat) : Nat := s.prf a 28 27
/-- Sign s of R492. -/
def State.axSign (s : State) (a : Nat) : Int := if s.flag (R.DLK_CFG a) 8 then -1 else 1
/-- ADDR (R492). -/
def State.addrOf (s : State) (a : Nat) (x : Axis) : Nat := ((s.axSign a * x.p + x.adrOfs) % 1024).toNat
def State.axAddr (s : State) (a : Nat) : Nat := s.addrOf a (s.axis a)
/-- Limits (R497). -/
def State.posMin (s : State) (a : Nat) : Int := (s.reg (R.DLK_POS_MIN a)).toInt
def State.posMax (s : State) (a : Nat) : Int := (s.reg (R.DLK_POS_MAX a)).toInt
/-- ENC_PER_FS (R514). -/
def State.encFs (s : State) (a : Nat) : Nat := s.fld (R.DLK_ENC a) 15 0

/-- Assign P a new value: ADDR does not change, E_ref and P_ref are set, target = P; a target held is kept (R492, R497,
R501, R504). -/
def State.assignP (s : State) (a : Nat) (p : Int) : State :=
  let x := s.axis a
  let ofs := (((s.axAddr a : Int) - s.axSign a * p) % 1024).toNat
  s.setAxis a { x with p := p, x := p * uStep, adrOfs := ofs, eRef := x.e, pRef := p, sentP := p, target := p, v := 0,
                       braking := false, decel := false, halting := false, rev := false, level := 0, devN := 0 }

/-- Braking distance in microsteps times 2^32, its fraction dropped: D2 above V1, D1 below (R496). -/
def State.brake (s : State) (a v : Nat) : Int :=
  let v1 := s.v1 a
  let vs := s.vStop a
  let squares (hi lo : Nat) : Nat := if lo < hi then hi * hi - lo * lo else 0
  (((squares v (max v1 vs) * s.dec1 a + squares (min v v1) vs * s.dec2 a) * 2 ^ 32 / (2 * s.dec1 a * s.dec2 a * 2500000000) : Nat) : Int)

/-- Speed one tick later, accelerating (R495). -/
def State.vUp (s : State) (a v : Nat) : Nat :=
  if v < s.v1 a then min (s.v1 a) (v + s.acc1 a) else if v < s.vMax a then min (s.vMax a) (v + s.acc2 a) else v
/-- Speed one tick later, decelerating to VSTOP. -/
def State.vDown (s : State) (a v : Nat) : Nat :=
  let d := if s.v1 a < v then s.dec2 a else s.dec1 a
  if v ≤ s.vStop a then v else max (s.vStop a) (v - d)
/-- Resolution level after a tick (R493). -/
def State.nextLevel (s : State) (a r v addr : Nat) : Nat :=
  let vres := s.fld (0x400A0120 + 48 * s.fld (R.DLK_CFG a) 3 0) 23 0 * 50000
  let rmax := s.fld (0x400A0120 + 48 * s.fld (R.DLK_CFG a) 3 0) 27 24
  let low (r : Nat) : Bool := decide (0 < r) && decide (8 * v < 7 * vres * 2 ^ (r - 1))
  let fall := (List.range 8).foldl (fun r _ => if low r then r - 1 else r) r
  if fall < r then fall
  else if r < rmax ∧ vres * 2 ^ r ≤ v ∧ addr % 2 ^ (r + 1) = 0 then r + 1 else r
/-- The last grid point x has passed, not behind the present P (R493). -/
def State.gridP (s : State) (a : Nat) (x : Axis) : Int :=
  let m : Int := 2 ^ x.level
  let f := if x.pos then x.x / uStep else -((-x.x) / uStep)
  let off := (s.axSign a * f + x.adrOfs) % m
  let q := if x.pos then (if s.axSign a = 1 then f - off else f - (m - off) % m)
           else (if s.axSign a = 1 then f + (m - off) % m else f + off)
  if x.pos then max x.p q else min x.p q

/-- The axis comes to rest; hold time begins (R496, R499). -/
def Axis.rest (x : Axis) : Axis := { x with v := 0, braking := false, decel := false, halting := false, holding := true, level := 0 }

/-- Take the newest target held, clamped, and judge it against the motion in progress; the position at which the axis is
stopping anyway changes nothing (R497, R498). A HALT is carried to its stop first, which becomes the target (R504). -/
def State.takeTarget (s : State) (a : Nat) (x : Axis) : Axis :=
  match x.newTgt with
  | none => x
  | some t =>
    if x.halting then x
    else if x.st = .standstill ∨ x.st = .moving then
      let c := clampI (s.posMin a) (s.posMax a) t
      let same := decide (c = x.target)
      let x := { x with target := c, newTgt := none, limited := decide (c ≠ t) }
      if x.st = .moving ∧ !same then
        let dist := (c * uStep - x.x) * (if x.pos then 1 else -1)
        if dist < 0 then { x with braking := true, decel := false, rev := true }
        else if dist < s.brake a x.v then { x with braking := true, decel := false, rev := false }
        else { x with braking := false, decel := false, rev := false }
      else x
    else x

/-- Move x on by one tick at speed v. -/
def advance (x : Axis) (v : Nat) : Int := x.x + (if x.pos then 1 else -1) * (((v * 2 ^ 32) / 2500000000 : Nat) : Int)

/-- One tick of a moving axis; true when it reached its target (R495, R496, R498). -/
def State.moveTick (s : State) (a : Nat) (x : Axis) : Axis × Bool :=
  if x.braking ∨ x.halting then
    let v := s.vDown a x.v
    if v ≤ s.vStop a then
      let x := { x with x := x.p * uStep }
      if x.halting then ({ x.rest with st := .standstill, target := x.p }, false)
      else ({ x with v := 0, braking := false }, false)
    else
      let x := { x with v := v, x := advance x v }
      let x := { x with p := s.gridP a x }
      ({ x with level := s.nextLevel a x.level v (s.addrOf a x) }, false)
  else if x.v = 0 then
    if x.target = x.p then ({ x.rest with st := .standstill, rev := false }, true)
    else
      let x := { x with pos := decide (x.p < x.target), v := s.vStart a, rebased := false, holding := false, level := 0 }
      let x := { x with x := advance x x.v }
      let x := { x with p := s.gridP a x }
      ({ x with level := s.nextLevel a x.level x.v (s.addrOf a x) }, false)
  else
    let dist := (x.target * uStep - x.x) * (if x.pos then 1 else -1)
    let dec := x.decel || decide (dist ≤ s.brake a x.v)
    let v := if dec then s.vDown a x.v else s.vUp a x.v
    let nx := advance x v
    if dist ≤ (nx - x.x).natAbs then
      ({ x.rest with st := .standstill, p := x.target, x := x.target * uStep, rev := false }, true)
    else
      let y := { x with v := v, x := nx, decel := dec }
      let y := { y with p := s.gridP a y }
      ({ y with level := s.nextLevel a x.level v (s.addrOf a y) }, false)

/-- One tick of an axis (R495 to R499, R505). -/
def State.axTick (s : State) (a : Nat) : State :=
  let page := dlkPage (a / 16)
  let drain := s.shown page != 3
  let x := s.axis a
  let x := if drain then x else s.takeTarget a x
  match x.st with
  | .standstill =>
    if x.target = x.p ∨ drain then s.setAxis a x
    else
      let (y, _) := s.moveTick a { x with st := .moving, v := 0 }
      s.setAxis a y
  | .moving =>
    let (y, done) := s.moveTick a x
    let s := s.setAxis a y
    if done then s.irq page 10 else s
  | .referencing =>
    let v := if x.halting then s.vDown a x.v else s.vStart a
    let y := { x with v := v, x := advance x v }
    let y := { y with p := s.gridP a y }
    let y := { y with level := s.nextLevel a x.level v (s.addrOf a y) }
    if x.halting ∧ v ≤ s.vStop a then s.setAxis a { x.rest with st := .unreferenced, x := x.p * uStep, target := x.p }
    else if s.posMax a - s.posMin a ≤ (y.p - x.refFrom).natAbs then
      (s.setAxis a { y.rest with st := .unreferenced, referenced := false }).emit evRefFail page [wd a]
    else s.setAxis a y
  | _ => s.setAxis a x

/-- Current and coil of a slot: CUR and COIL (R499). An axis that stopped on a stall or a fault keeps CUR_HOLD (R502, R503); at
any other standstill the standby mode stands outside the hold time, STAT.HOLDING (R514). -/
def State.axCur (s : State) (a : Nat) : Nat × Nat :=
  let x := s.axis a
  let prfCur := s.reg (0x400A0124 + 48 * s.fld (R.DLK_CFG a) 3 0)
  let stby := s.fld (R.DLK_CFG a) 5 4
  if x.st = .moving ∨ x.st = .referencing then (if x.curOut = 0 then bits prfCur 7 0 else x.curOut.toNat, 0)
  else if !x.holding && x.st != .stalled && x.st != .fault then (if stby = 0 then (s.fld (R.DLK_CFG a) 23 16, 0) else (0, stby))
  else (bits prfCur 15 8, 0)
/-- Slot of an axis (R487). -/
def State.axSlot (s : State) (a : Nat) : Nat :=
  let (cur, coil) := s.axCur a
  s.axAddr a + 2 ^ 10 * cur + 2 ^ 18 * coil + 2 ^ 20 * s.fld (R.DLK_CFG a) 7 6
/-- The link's frames carry PRIMARY (R510, R549). -/
def State.linkPrimary (s : State) : Bool := s.acts || (s.role == 3 && s.plk.epochOk)
/-- The downlink frame of link n (R487). -/
def State.dlkBytes (s : State) (n : Nat) : List Byte :=
  let prim := s.linkPrimary
  let flags := b2n prim + 2 * b2n s.pwr.pside + 4 * b2n (s.shown (dlkPage n) == 1)
  let slots := (List.range 16).flatMap fun d =>
    leBytes 4 (if prim && s.axEnabled (16 * n + d) then s.axSlot (16 * n + d) else 0)
  let body := [BitVec.ofNat 8 flags] ++ leBytes 4 s.epoch ++ leBytes 2 (nsOf s.time.log / 1000 / 20) ++ slots
  [0xBC] ++ body ++ leBytes 4 (crc32c body).toNat

/-- DLK_FRAME: every 20 µs the link advances its enabled axes and sends its frame; none after a FORCE_STOP (R486, R487,
R509, R510). `sentP` is what the frame before carried, which the reply to this one answers (R501). -/
def execDlkFrame (n : Fin 8) (s : State) : Host.Outcome State Fault Refusal :=
  let n := n.val
  let l := s.dlk.get (fun _ => {}) n
  if s.shown (dlkPage n) = 0 ∨ s.shown (dlkPage n) = 4 ∨ l.silent ∨ !s.locked 8 ∨ s.pwr.saving then .next s
  else
    let s := (List.range 16).foldl (fun s d => let a := 16 * n + d; if s.axEnabled a then s.setAxis a { s.axis a with sentP := (s.axis a).p } else s) s
    let s := if s.linkPrimary && s.active (dlkPage n) then
        (List.range 16).foldl (fun s d => if s.axEnabled (16 * n + d) then s.axTick (16 * n + d) else s) s
      else s
    .next (({ s with dlk := s.dlk.set (fun _ => {}) n { l with frame := s.dlkBytes n } }).incReg (R.DLK_FRAMES n))

/-- One bit and one byte of the CRC-8, and the CRC-8 over bytes (R489). -/
def crc8Bit (c : Byte) : Byte := if c.getLsbD 7 then (c <<< 1) ^^^ 0x2F else c <<< 1
def crc8Byte (c b : Byte) : Byte := crc8Bit (crc8Bit (crc8Bit (crc8Bit (crc8Bit (crc8Bit (crc8Bit (crc8Bit (c ^^^ b))))))))
def crc8 (l : List Byte) : Byte := ~~~(l.foldl crc8Byte 0xFF)

/-- A drive link or stall reports this side fenced (R512, R567, R585): PLK is told and, on a primary in protocol 2, a
contest is due; it opens with the command that follows in Plk. -/
def State.reportFence (s : State) : State := ({ s with plk := { s.plk with fence := true } }).irq 128 11

/-- The axis stops where it is, in STALLED or FAULT (R502, R503). -/
def State.axStop (s : State) (a : Nat) (st : AxState) : State :=
  let x := s.axis a
  s.setAxis a { x.rest with st := st, x := x.p * uStep, holding := false }
/-- The deviation of R501, if the axis has an encoder. -/
def State.axDev (s : State) (a : Nat) (x : Axis) : Option Int :=
  let fs := s.encFs a
  if fs = 0 then none
  else some (((x.e - x.eRef) * 65536 - (x.sentP - x.pRef) * fs).tdiv (fs : Int))
/-- Judge the deviation (R502), or end a reference move on its stall (R505). -/
def State.judgeDev (s : State) (a : Nat) : State :=
  let x := s.axis a
  match s.axDev a x with
  | none => s
  | some dev =>
    let ovr := decide (s.fld (R.DLK_DEV a) 15 0 < dev.natAbs)
    let n := if ovr then x.devN + 1 else 0
    let s := s.setAxis a { x with dev := dev, devN := n }
    if !ovr ∨ n < s.fld (R.DLK_DEV a) 23 16 ∨ x.st = .stalled ∨ x.st = .fault then s
    else if x.st = .referencing then
      let s := s.assignP a (s.reg (R.DLK_REF_POS a)).toInt
      s.setAxis a { (s.axis a).rest with st := .standstill, referenced := true }
    else (((s.axStop a .stalled).irq (dlkPage (a / 16)) 8).emitSev evAxisStall 2 (dlkPage (a / 16)) [wd a])

/-- DLK_REPLY apart from the contest that a fencing opens: a driver's reply is accepted by its CRC and address, or counts as missed (R488, R489, R500 to R503,
R512). -/
def State.dlkReply (s : State) (n : Fin 8) (d : Fin 16) (reply : List Byte) : State :=
  let a := 16 * n.val + d.val
  let page := dlkPage n.val
  let miss (s : State) := (s.setReg (R.DLK_ERRS a) (satIncField (s.reg (R.DLK_ERRS a)) 7 0)).incReg (R.DLK_RX_MISS n.val)
  if s.shown page = 0 ∨ !s.axEnabled a ∨ !s.locked 8 then s
  else if reply.length ≠ 8 ∨ crc8 ((reply.drop 1).take 6) ≠ reply.getD 7 0 ∨ (reply.getD 1 0).toNat % 16 ≠ d.val then miss s
  else
    let id := (reply.getD 1 0).toNat
    let enc := fieldN reply 2 2
    let status := reply.getD 4 0
    let x := s.axis a
    let step := match x.lastEnc with | none => 0 | some p => sext 16 (enc + 65536 - p)
    let x := { x with e := x.e + (if s.flag (R.DLK_ENC a) 16 then -step else step), lastEnc := some enc, status := status,
                      addrRep := (reply.getD 5 0).toNat + 256 * (id / 64), repLost := false, obeyed := id.testBit 4,
                      replyT := s.time.log, replyNo := x.replyNo + 1 }
    let s := s.setAxis a x
    let s := if status.getLsbD 6 then s.setReg (R.DLK_ERRS a) (satIncField (s.reg (R.DLK_ERRS a)) 15 8) else s
    let s := if s.linkPrimary then s.judgeDev a else s
    let s := if status.getLsbD 0 && (s.axis a).st != .fault then
        (((s.axStop a .fault).irq page 9).errc page 0x101 a).emit evDrvFault page [wd a]
      else s
    if status.getLsbD 5 then (s.irq page 12).reportFence else s

/-- Answer a command in CMD_STAT and raise CMD_DONE (R513). -/
def State.cmdDone (s : State) (a res : Nat) : State := (s.setReg R.AXS_CMD_STAT (wd (res + 256 * a))).irq 160 8
/-- A command to an axis: refused by R504 and R513, or carried out. -/
def State.axCmd (s : State) (who : Initiator) (a : Nat) (refuse : State → Option Nat) (k : State → State) : State :=
  s.gate who R.AXS_CMD fun s =>
    if !s.running (dlkPage (a / 16)) then s.cmdDone a 4
    else if !s.axEnabled a then s.cmdDone a 2
    else match refuse s with
      | some r => s.cmdDone a r
      | none => (k s).cmdDone a 0
/-- The axis is moving or referencing. -/
def State.axBusy (s : State) (a : Nat) : Bool := (s.axis a).st == .moving || (s.axis a).st == .referencing

/-- REFERENCE: starts the reference move (R504, R505). A stalled or faulted axis stays so until CLEAR (R502, R503). -/
def execReference (who : Initiator) (axis : Fin 128) (s : State) : Host.Outcome State Fault Refusal :=
  let a := axis.val
  .next (s.axCmd who a (fun s => if s.axBusy a then some 1 else if s.encFs a = 0 then some 5 else none) fun s =>
    let x := s.axis a
    if x.st = .stalled ∨ x.st = .fault then s
    else s.setAxis a { x with st := .referencing, pos := s.flag (R.DLK_CFG a) 9, v := s.vStart a, refFrom := x.p, devN := 0, level := 0,
                              referenced := false, rebased := false, holding := false })
/-- SET_POS: P = CMD_ARG, target = P, REFERENCED (R504). A stalled or faulted axis stays so until CLEAR. -/
def execSetPos (who : Initiator) (axis : Fin 128) (s : State) : Host.Outcome State Fault Refusal :=
  let a := axis.val
  .next (s.axCmd who a (fun s => if s.axBusy a then some 1 else none) fun s =>
    let s := s.assignP a (s.reg R.AXS_CMD_ARG).toInt
    let x := s.axis a
    s.setAxis a (if x.st = .unreferenced then { x.rest with referenced := true, st := .standstill } else { x with referenced := true }))
/-- CLEAR: ends STALLED at P + DEV, or FAULT once the newest reply shows it clear (R503, R504). -/
def execClear (who : Initiator) (axis : Fin 128) (s : State) : Host.Outcome State Fault Refusal :=
  let a := axis.val
  .next (s.axCmd who a (fun _ => none) fun s =>
    let x := s.axis a
    match x.st with
    | .stalled =>
      let s := s.assignP a (x.p + x.dev)
      s.setAxis a { (s.axis a).rest with st := .standstill, referenced := true }
    | .fault => if x.status.getLsbD 0 then s else s.setAxis a { x.rest with st := .standstill }
    | _ => s)
/-- HALT: decelerates; the stop position becomes the target (R504). -/
def State.axHalt (s : State) (a : Nat) : State :=
  let x := s.axis a
  if x.st = .moving then s.setAxis a { x with halting := true, newTgt := none }
  else if x.st = .referencing then s.setAxis a { x with halting := true }
  else s
/-- HALT of an axis: it stops on its ramp (R504). -/
def execHalt (who : Initiator) (axis : Fin 128) (s : State) : Host.Outcome State Fault Refusal :=
  .next (s.axCmd who axis.val (fun _ => none) fun s => s.axHalt axis.val)
/-- THOLD_EXPIRE: the hold time has passed; the axis takes its standby mode (R499). -/
def execTholdExpire (axis : Fin 128) (s : State) : Host.Outcome State Fault Refusal :=
  let x := s.axis axis.val
  .next (if x.holding then s.setAxis axis.val { x with holding := false } else s)
/-- REPLY_LOST: no reply accepted for 100 µs (R514). -/
def execReplyLost (axis : Fin 128) (s : State) : Host.Outcome State Fault Refusal :=
  .next (if s.axEnabled axis.val && s.shown (dlkPage (axis.val / 16)) != 0 then
    s.setAxis axis.val { s.axis axis.val with repLost := true } else s)
/-- LINK_LOSS: an enabled driver gave no reply for 10 ms (R515). -/
def execLinkLoss (axis : Fin 128) (s : State) : Host.Outcome State Fault Refusal :=
  .next (if s.axEnabled axis.val && s.shown (dlkPage (axis.val / 16)) != 0 then s.irq (dlkPage (axis.val / 16)) 11 else s)

/-- A target from OUTPUT (R497, R507), ignored in DRAIN (R509). -/
def State.axTarget (s : State) (a : Nat) (t : Int) : State :=
  if s.running (dlkPage (a / 16)) then s.setAxis a { s.axis a with newTgt := some t } else s
/-- A drain begins: every moving axis decelerates (R509). -/
def State.dlkDrain (s : State) (n : Nat) : State := (List.range 16).foldl (fun s d => s.axHalt (16 * n + d)) s
/-- A FORCE_STOP: frames stop; position counts are kept (R99, R509). -/
def State.dlkForce (s : State) (n : Nat) : State :=
  let s := (List.range 16).foldl (fun s d =>
    let a := 16 * n + d
    let x := s.axis a
    if s.axBusy a then s.setAxis a { x.rest with st := if x.referenced then .standstill else .unreferenced, x := x.p * uStep, target := x.p } else s) s
  { s with dlk := s.dlk.set (fun _ => {}) n { s.dlk.get (fun _ => {}) n with silent := true } }
/-- Entry to RUN (R509, R514). -/
def State.dlkStart (s : State) (n : Nat) : State :=
  let s := (List.range 16).foldl (fun s d => (s.setReg (R.DLK_ERRS (16 * n + d)) 0).setAxis (16 * n + d) { s.axis (16 * n + d) with replyNo := 0 }) s
  { s with dlk := s.dlk.set (fun _ => {}) n { s.dlk.get (fun _ => {}) n with silent := false } }
/-- Configuration at fault at a RUN request of link n: AXIS_CFG with the axis (R514). -/
def State.dlkBad (s : State) (n : Nat) : Option (Nat × Nat) :=
  ((List.range 16).find? fun d =>
    let a := 16 * n + d
    s.axEnabled a && (decide (s.posMax a < s.posMin a) || decide ((s.reg (R.DLK_OPEN_POS a)).toInt ≤ 0) ||
      s.fld (R.DLK_CFG a) 5 4 == 3 || s.fld (R.DLK_CFG a) 7 6 == 3 ||
      (s.encFs a != 0 && s.fld (R.DLK_DEV a) 23 16 == 0))).map fun d => (0x100, 16 * n + d)
/-- A profile breaks R494. -/
def State.prfBad (s : State) (k : Nat) : Bool :=
  let w (o hi : Nat) := s.fld (0x400A0100 + 48 * k + o) hi 0
  !(decide (1 ≤ w 0 23 ∧ w 0 23 ≤ w 4 23 ∧ w 4 23 ≤ w 8 23 ∧ w 8 23 ≤ 12750000 ∧ 1 ≤ w 12 23 ∧ w 12 23 ≤ w 4 23 ∧
    1 ≤ w 16 27 ∧ 1 ≤ w 20 27 ∧ 1 ≤ w 24 27 ∧ 1 ≤ w 28 27 ∧ 1 ≤ w 32 23 ∧ s.fld (0x400A0120 + 48 * k) 27 24 ≤ 8))
/-- PROFILE_INVALID at a RUN request of AXS: the first profile at fault that an enabled axis names (R513). -/
def State.axsBad (s : State) : Option (Nat × Nat) :=
  ((List.range 16).find? fun k =>
    s.prfBad k && ((List.range 128).any fun a => s.axEnabled a && s.fld (R.DLK_CFG a) 3 0 == k)).map fun k => (0x100, k)

/-- Rebase an axis before its first PRIMARY frame (R511): `ps`, `es` and REFERENCED are the newest state frame's. -/
def State.axRebase (s : State) (a : Nat) (ps es : Int) : State :=
  let x := s.axis a
  let fs := s.encFs a
  let est := if fs = 0 then ps else ps + ((x.e - es) * 65536).tdiv (fs : Int)
  let want := (s.axSign a * ((x.addrRep : Int) - x.adrOfs)) % 1024
  let low := est - (est - want) % 1024
  let p := if est - low ≤ low + 1024 - est then low else low + 1024
  s.setAxis a { x.rest with st := .standstill, p := p, x := p * uStep, target := p, newTgt := none, eRef := x.e, pRef := p, sentP := p,
                            rev := false, rebased := true, referenced := true, devN := 0 }

/-- STAT word of an axis (R514). -/
def State.axStat (s : State) (a : Nat) : Word :=
  let x := s.axis a
  let st := match s.axSt a with
    | .disabled => 0 | .unreferenced => 1 | .standstill => 2 | .moving => 3 | .referencing => 4 | .stalled => 5 | .fault => 6
  wd (st + 8 * b2n (decide (x.p = x.target ∧ st ≠ 0)) + 16 * b2n x.holding + 32 * b2n x.referenced + 64 * b2n x.limited + 128 * b2n x.rev +
    256 * x.level + 4096 * b2n x.obeyed + 8192 * b2n x.repLost + 16384 * b2n x.rebased)
/-- Signed speed in microsteps/s. -/
def Axis.speed (x : Axis) : Int := (if x.pos then 1 else -1) * ((x.v / 50000 : Nat) : Int)
/-- Run-time register w (0 to 6) of an axis (R514). -/
def State.axWord (s : State) (a w : Nat) : Word :=
  let x := s.axis a
  match w with
  | 0 => s.axStat a
  | 1 => wi x.p
  | 2 => wi x.target
  | 3 => wi x.speed
  | 4 => wi x.e
  | 5 => wi x.dev
  | _ => wd (x.addrRep + 2 ^ 10 * x.adrOfs + 2 ^ 20 * x.status.toNat)
/-- Bit maps over 32 axes of the AXS page (R513). -/
def State.axMap (s : State) (i : Nat) (f : AxState → Bool) : Word :=
  (List.range 32).foldl (fun v j => putBit v j (f (s.axSt (32 * i + j)))) 0

end Sys2Proof.Machine
end

