-- ==== Sys2Proof/Machine/Crypto.lean ====
section
/-! DEFINITION. SHAKE256 (FIPS 202) and KMAC256 (NIST SP 800-185), which the spec names for its digests and tags
(R617, R625, R631, R637, R412, R557). Digests are at most 64 bytes, so one block is squeezed. -/

namespace Sys2Proof.Machine

/-! The permutation holds the state as five sheets of five lanes, sheet y first, the lane of column x at place x. -/

/-- A sheet: the lanes of one y. -/
abbrev Sheet := List DWord
/-- A list turned left by n places: place x takes what stood at x + n. -/
def turn {α : Type} (n : Nat) (l : List α) : List α := l.drop n ++ l.take n
/-- Two planes, lane by lane. -/
def sheetXor (p q : Sheet) : Sheet := p.zipWith (· ^^^ ·) q
/-- Theta: each lane takes the parity of the column before its own and, turned by one bit, of the one after. -/
def theta (a : List Sheet) : List Sheet :=
  let parity := a.foldr sheetXor (List.replicate 5 0)
  a.map (sheetXor (sheetXor (turn 4 parity) ((turn 1 parity).map fun w => w.rotateLeft 1)))
/-- Rho's offset at column x of plane y: (t + 1)(t + 2)/2 mod 64 at step t of FIPS 202's walk, six bits a lane, lane x + 5 y. -/
def rhoBits (x y : Nat) : Nat := (0xee3d0922153eda6766b2835371ac91b73e040 >>> (6 * (x + 5 * y))) % 64
/-- Rho and pi: column x of the new plane y is the lane at column x + 3 y of the old plane x, turned by its offset. -/
def rhoPi (a : List Sheet) : List Sheet :=
  (List.range 5).map fun y => a.zipIdx.map fun e =>
    let col := (e.2 + 3 * y) % 5
    (e.1.getD col 0).rotateLeft (rhoBits col e.2)
/-- Chi on one plane. -/
def chi (p : Sheet) : Sheet := sheetXor p ((turn 1 p).zipWith (fun u v => ~~~u &&& v) (turn 2 p))
/-- The first 168 bits of the linear feedback shift register of FIPS 202, seven for each of the 24 rounds. -/
def iotaBits : Nat := 0xe886c79cc5a452a7767bf4cd460eabe509fe178d01
/-- Iota's constant of a round: bit j of its seven stands at place 2^j - 1. -/
def iotaConst (round : Nat) : DWord :=
  (List.range 7).foldl (fun c j => if iotaBits.testBit (7 * round + j) then c ^^^ 1#64 <<< (2 ^ j - 1) else c) 0
/-- One round. -/
def keccakRound (a : List Sheet) (round : Nat) : List Sheet :=
  match (rhoPi (theta a)).map chi with
  | (w :: p) :: r => ((w ^^^ iotaConst round) :: p) :: r
  | r => r
/-- Keccak-f[1600]. -/
def keccakF (a : List Sheet) : List Sheet := (List.range 24).foldl keccakRound a
/-- The planes of a block of 136 bytes, the 17 lanes of the rate, and zeros in the capacity. -/
def blockSheets (blk : List Byte) : List Sheet :=
  (List.range 5).map fun y => (List.range 5).map fun x =>
    if x + 5 * y < 17 then BitVec.ofNat 64 (fieldN blk (8 * (x + 5 * y)) 8) else 0
/-- Absorb a padded message of n blocks. -/
def absorb : Nat → List Sheet → List Byte → List Sheet
  | 0, a, _ => a
  | n + 1, a, m => absorb n (keccakF (a.zipWith sheetXor (blockSheets m))) (m.drop 136)
/-- Sponge with rate 136: the message, then its domain byte, padding, and the first n bytes out. -/
def sponge (dom : Byte) (m : List Byte) (n : Nat) : List Byte :=
  let blocks := m.length / 136 + 1
  let gap := 136 * blocks - m.length
  let fill : List Byte := if gap = 1 then [dom ||| 0x80] else dom :: List.replicate (gap - 2) 0 ++ [0x80]
  let a := absorb blocks (blockSheets []) (m ++ fill)
  (a.flatten.flatMap fun w => leBytes 8 w.toNat).take n
/-- SHAKE256 truncated to n bytes. -/
def shake256 (m : List Byte) (n : Nat) : List Byte := sponge 0x1F m n

/-- Bytes of a number, most significant first, at least one. -/
def beBytes (x : Nat) : List Byte :=
  let n := if x < 256 then 1 else if x < 65536 then 2 else if x < 2 ^ 24 then 3 else if x < 2 ^ 32 then 4 else 8
  (leBytes n x).reverse
def leftEncode (x : Nat) : List Byte := let b := beBytes x; BitVec.ofNat 8 b.length :: b
def rightEncode (x : Nat) : List Byte := let b := beBytes x; b ++ [BitVec.ofNat 8 b.length]
def encodeString (l : List Byte) : List Byte := leftEncode (8 * l.length) ++ l
def bytepad (l : List Byte) : List Byte :=
  let x := leftEncode 136 ++ l
  x ++ List.replicate ((136 - x.length % 136) % 136) 0
/-- Bytes of an ASCII string. -/
def ascii (t : String) : List Byte := t.toList.map fun c => BitVec.ofNat 8 c.toNat
/-- KMAC256(K, X, 8 n, S). -/
def kmac256 (k x : List Byte) (n : Nat) (t : String) : List Byte :=
  sponge 0x04 (bytepad (encodeString (ascii "KMAC") ++ encodeString (ascii t)) ++ bytepad (encodeString k) ++ x ++ rightEncode (8 * n)) n
/-- Digest of 256 bits. -/
def digest32 (m : List Byte) : List Byte := shake256 m 32

end Sys2Proof.Machine
end

