-- ==== Sys2Proof/Machine/Can.lean ====
section
/-! DEFINITION. CAN FD channels (R463 to R484): filters, mailboxes and the FIFO with its read latch, transmit buffers and
objects, error confinement. -/

namespace Sys2Proof.Machine

/-- A channel. -/
def State.canCh (s : State) (n : Nat) : CanCh := s.can.get (fun _ => {}) n
/-- Replace it. -/
def State.setCan (s : State) (n : Nat) (c : CanCh) : State := { s with can := s.can.set (fun _ => {}) n c }
/-- Page number of channel n. -/
abbrev canPage (n : Nat) : Nat := 144 + n
/-- Data length of a DLC. -/
def dlcLen (fd : Bool) (dlc : Nat) : Nat :=
  if dlc ≤ 8 then dlc else if !fd then 8 else [12, 16, 20, 24, 32, 48, 64].getD (dlc - 9) 64
/-- Kind numbers of this chapter's records. -/
abbrev evErrPassive : Nat := 50
abbrev evBusOff : Nat := 51

/-- Restricted operation: the side does not act, and is not TAKING with its image applied (R481, R549). -/
def State.canRestricted (s : State) : Bool := !s.acts && !(s.role == 3 && s.plk.applied)
/-- Confinement state (R477). -/
def State.canSt (s : State) (n : Nat) : Nat := s.fld (R.CAN_ERR n) 26 25
/-- Buffer state and outcome (R483). -/
def State.txbSt (s : State) (n b : Nat) : Nat := s.fld (R.CAN_TXB_STAT n) (4 * b + 1) (4 * b)
def State.setTxb (s : State) (n b st out : Nat) : State := s.setFld (R.CAN_TXB_STAT n) (4 * b + 3) (4 * b) (st + 4 * out)
/-- Data length of object o (R476). -/
def State.objLen (s : State) (n o : Nat) : Nat := dlcLen (s.flag (R.CAN_TXO_ID n o) 30) (s.fld (R.CAN_TXO_CFG n o) 3 0)
/-- An output entry writes its bytes into an object's data image (R476). -/
def State.canWrite (s : State) (n o ofs : Nat) (l : List Byte) : State :=
  if s.objLen n o < ofs + l.length then s.incReg (R.CAN_TX_WR_DROP n)
  else let c := s.canCh n; s.setCan n { c with image := wrBytes c.image (64 * o + ofs) l }
/-- Data image of an object. -/
def State.objData (s : State) (n o : Nat) : List Byte := rdBytes (s.canCh n).image (64 * o) (s.objLen n o)
/-- Buffer 0 takes the lowest queued object with its newest data (R476). -/
def State.loadBuf0 (s : State) (n : Nat) : State :=
  let c := s.canCh n
  match c.queue with
  | [] => s
  | o :: rest =>
    if s.txbSt n 0 ≠ 0 then s
    else
      let d := s.objData n o
      let s := s.setCan n { c with queue := rest, loaded := c.loaded.set (fun _ => none) o (some (d, s.time.log)) }
      let s := (s.setReg (R.CAN_TXB_ID n 0) (s.reg (R.CAN_TXO_ID n o))).setReg (R.CAN_TXB_CTL n 0) (wd (s.fld (R.CAN_TXO_CFG n o) 3 0))
      let s := (List.range 16).foldl (fun s k => s.setReg (R.CAN_TXB_D n 0 k) (wd (fieldN d (4 * k) 4))) s
      s.setTxb n 0 1 (s.fld (R.CAN_TXB_STAT n) 3 2)
/-- In RUN buffer 0 takes a queued object whenever it is IDLE (R476). -/
def State.canFeed (s : State) (n : Nat) : State := if s.running (canPage n) then s.loadBuf0 n else s
/-- A buffer returns to IDLE with an outcome (R474, R484). -/
def State.txbEnd (s : State) (n b out : Nat) : State :=
  let c := s.canCh n
  ((s.setCan n { c with aborts := c.aborts.filter (· != b) }).setTxb n b 0 out).irq (canPage n) 10

/-- A filter takes the frame (R468). -/
def State.filterHit (s : State) (n k : Nat) (f : CanFrame) : Bool :=
  s.flag (R.CAN_FLT_CFG n k) 0 && s.flag (R.CAN_FLT_CFG n k) 1 == f.xtd &&
    (BitVec.setWidth 32 f.id ^^^ (s.reg (R.CAN_FLT_ID n k) &&& 0x1FFFFFFF)) &&& (s.reg (R.CAN_FLT_MASK n k) &&& 0x1FFFFFFF) == 0
/-- A message enters the FIFO, or is dropped with RX_OVF (R471, R472, R484). -/
def State.fifoPut (s : State) (n : Nat) (m : CanMsg) : State :=
  let c := s.canCh n
  if 64 ≤ c.fifo.length then (s.incReg (R.CAN_RX_OVF n)).irq (canPage n) 9
  else
    let s' := (s.setCan n { c with fifo := c.fifo ++ [m] }).setReg (R.CAN_RXF_LEVEL n) (wd (c.fifo.length + 1))
    if c.fifo.isEmpty then s'.irq (canPage n) 8 else s'

/-- Change the confinement state after the counters moved: its interrupts, records and AUTO_REC (R477, R478). -/
def State.confine (s : State) (n tec rxc : Nat) : State :=
  let old := s.canSt n
  let tec := min tec 511
  let rxc := min rxc 511
  let st := if 255 < tec then 2 else if 127 < tec ∨ 127 < rxc then 1 else 0
  let s := ((s.setFld (R.CAN_ERR n) 8 0 tec).setFld (R.CAN_ERR n) 24 16 rxc).setFld (R.CAN_ERR n) 26 25 st
  if st = old then s
  else if st = 2 then
    let s := ((((s.incReg (R.CAN_BUSOFFS n)).irq (canPage n) 12).errc (canPage n) 0x100 0).emitSev evBusOff 2 (canPage n) [])
    if s.flag (R.CAN_MODE n) 3 then (s.setFld (R.CAN_ERR n) 26 25 3).setReg (R.CAN_REC_CNT n) 0 else s
  else if st = 1 then (s.irq (canPage n) 11).emitSev evErrPassive 1 (canPage n) []
  else s.irq (canPage n) 13
/-- The error counters may move: not in restricted operation, not in bus monitoring, not in bus off (R481). -/
def State.countsErr (s : State) (n : Nat) : Bool := !s.canRestricted && !s.flag (R.CAN_MODE n) 4 && decide (s.canSt n ≤ 1)

/-- A received frame is filtered into a mailbox and the FIFO, or dropped and counted (R464, R468 to R472). -/
def State.canTake (s : State) (n : Nat) (f : CanFrame) : State :=
  if f.rtr then s.incReg (R.CAN_RX_DROP n)
  else
    let gen := (s.blk (canPage n)).gen
    match (List.range 16).find? fun k => s.filterHit n k f with
    | some k =>
      let m : CanMsg := { f := f, t := s.time.log, filt := some k, gen := gen }
      let c := s.canCh n
      let s := s.setCan n { c with mbox := c.mbox.set (fun _ => none) k (some m) }
      if s.flag (R.CAN_FLT_CFG n k) 2 then s.fifoPut n m else s
    | none =>
      if s.flag (R.CAN_RX_CFG n) 0 then s.fifoPut n { f := f, t := s.time.log, filt := none, gen := gen }
      else s.incReg (R.CAN_RX_DROP n)
/-- CAN_RX_FRAME: a valid frame is filtered into a mailbox and the FIFO, or dropped and counted (R464, R468 to R472). -/
def execCanRxFrame (n : Fin 12) (f : CanFrame) (s : State) : Host.Outcome State Fault Refusal :=
  let n := n.val
  if !s.active (canPage n) ∨ 2 ≤ s.canSt n ∨ !s.locked 8 then .next s
  else
    let s := s.incReg (R.CAN_RX_FRAMES n)
    let rxc := s.fld (R.CAN_ERR n) 24 16
    let s := if s.countsErr n then
        if 127 < rxc then let (v, s) := s.fresh; s.confine n (s.fld (R.CAN_ERR n) 8 0) (119 + v.toNat % 9)
        else s.confine n (s.fld (R.CAN_ERR n) 8 0) (rxc - 1)
      else s
    .next (s.canTake n f)

/-- Page offset of the release word of a message (R471). -/
def relOfs (m : CanMsg) : Nat :=
  let len := dlcLen m.f.fdf m.f.dlc.toNat
  if len = 0 then 0x94C else 0x950 + 4 * ((len + 3) / 4 - 1)
/-- Window word at a page offset for a message (R483). -/
def winWord (m : CanMsg) (o : Nat) : Word :=
  let len := dlcLen m.f.fdf m.f.dlc.toNat
  if o = 0x940 then m.f.id.setWidth 32
  else if o = 0x944 then
    wd (m.f.dlc.toNat + 16 * b2n m.f.xtd + 32 * b2n m.f.fdf + 64 * b2n m.f.brs + 128 * b2n m.f.esi +
      256 * m.filt.getD 0 + 4096 * b2n m.filt.isNone + 65536 * (relOfs m % 256))
  else if o = 0x948 then nsField m.t
  else if o = 0x94C then wd (secOf m.t)
  else wd (fieldN (m.f.data.take len) (o - 0x950) 4)
/-- A read of a window word: latches the oldest entry, and releases it on its release word (R471). -/
def State.winRead (s : State) (n o : Nat) : State :=
  let c := s.canCh n
  match c.fifo with
  | [] => s.answer (if o = 0x940 then 0x80000000 else 0)
  | m :: rest =>
    if o = relOfs m then
      ((s.setCan n { c with fifo := rest, latched := false }).setReg (R.CAN_RXF_LEVEL n) (wd rest.length)).answer (winWord m o)
    else (s.setCan n { c with latched := true }).answer (winWord m o)
/-- RXF_LATCH: a read of window word `ofs` (0 to 19 from 0x940) (R471). -/
def execRxfLatch (who : Initiator) (n : Fin 12) (ofs : Byte) (s : State) : Host.Outcome State Fault Refusal :=
  let o := 0x940 + 4 * (ofs.toNat % 20)
  .next (s.rgate who (pageBase (canPage n.val) + o) fun s => s.winRead n.val o)
/-- RXF_RELEASE: a read of the release word of the oldest entry (R471). -/
def execRxfRelease (who : Initiator) (n : Fin 12) (s : State) : Host.Outcome State Fault Refusal :=
  let o := match (s.canCh n.val).fifo with | m :: _ => relOfs m | [] => 0x94C
  .next (s.rgate who (pageBase (canPage n.val) + o) fun s => s.winRead n.val o)

/-- REQ of buffer 1 or 2: PENDING if IDLE, in RUN (R473, R474). -/
def State.txbReq (s : State) (n b : Nat) : State :=
  if s.running (canPage n) && s.txbSt n b == 0 then s.setTxb n b 1 (s.fld (R.CAN_TXB_STAT n) (4 * b + 3) (4 * b + 2)) else s
/-- TXB_REQ. -/
def execTxbReq (who : Initiator) (n : Fin 12) (b1 b2 : Bool) (s : State) : Host.Outcome State Fault Refusal :=
  .next (s.gate who (R.CAN_TXB_CMD n.val) fun s =>
    let s := if b1 then s.txbReq n.val 1 else s
    if b2 then s.txbReq n.val 2 else s)
/-- ABORT of one buffer (R475). -/
def State.txbAbort (s : State) (n b : Nat) : State :=
  if s.txbSt n b = 1 then (s.txbEnd n b 2).canFeed n
  else if s.txbSt n b = 2 then let c := s.canCh n; s.setCan n { c with aborts := b :: c.aborts.filter (· != b) }
  else s
/-- TXB_ABORT. -/
def execTxbAbort (who : Initiator) (n : Fin 12) (mask : BitVec 3) (s : State) : Host.Outcome State Fault Refusal :=
  .next (s.gate who (R.CAN_TXB_CMD n.val) fun s =>
    [0, 1, 2].foldl (fun s b => if mask.getLsbD b then s.txbAbort n.val b else s) s)
/-- BUS_OFF begins to recover; the count starts from zero (R478). -/
def State.canRecover (s : State) (n : Nat) : State :=
  if s.canSt n = 2 then (s.setFld (R.CAN_ERR n) 26 25 3).setReg (R.CAN_REC_CNT n) 0 else s
/-- REC_REQ: starts bus-off recovery (R478). -/
def execRecReq (who : Initiator) (n : Fin 12) (s : State) : Host.Outcome State Fault Refusal :=
  .next (s.gate who (R.CAN_TXB_CMD n.val) fun s => if s.active (canPage n.val) then s.canRecover n.val else s)

/-- Object o is due: its image differs from the data last loaded, or its cycle time has passed (R476). -/
def State.objDue (s : State) (n o : Nat) : Bool :=
  let cyc := s.fld (R.CAN_TXO_CFG n o) 31 16
  match (s.canCh n).loaded.get (fun _ => none) o with
  | none => true
  | some (d, t) => d != s.objData n o || (cyc != 0 && decide (t + cyc * tMs ≤ s.time.log))
/-- End of OUTPUT: in RUN enabled objects that are due join the queue, in rising order, and buffer 0 takes the first if it is IDLE;
`off` are objects whose safe action is OFF, which leave it (R476, R480). -/
def State.canQueue (s : State) (n : Nat) (off : List Nat) : State :=
  let s := s.setCan n { s.canCh n with queue := (s.canCh n).queue.filter fun o => !off.contains o }
  if !s.running (canPage n) then s
  else
    ((List.range 16).foldl (fun s o =>
      let c := s.canCh n
      if s.flag (R.CAN_TXO_CFG n o) 4 && !off.contains o && s.objDue n o && !c.queue.contains o then
        s.setCan n { c with queue := (c.queue.filter (· < o)) ++ o :: c.queue.filter (o < ·) }
      else s) s).canFeed n
/-- Arbitration key of a buffer: lower wins (R473). -/
def State.arbKey (s : State) (n b : Nat) : Nat :=
  let id := s.reg (R.CAN_TXB_ID n b)
  if bit id 29 then (bits id 28 18 * 2 + 1) * 2 ^ 18 + bits id 17 0 else (bits id 10 0 * 2) * 2 ^ 18
/-- The PENDING buffer chosen by MODE.ORDER (R473). -/
def State.arbPick (s : State) (n : Nat) : Option Nat :=
  let l := [0, 1, 2].filter fun b => s.txbSt n b == 1
  if s.flag (R.CAN_MODE n) 2 then l.head?
  else l.foldl (fun best b => match best with
    | none => some b
    | some a => if s.arbKey n b < s.arbKey n a then some b else some a) none
/-- CAN_ARBITRATION: the bus is idle; buffer 0 is loaded and a PENDING buffer is chosen and sent (R473, R476, R480,
R481). -/
def execCanArbitration (n : Fin 12) (s : State) : Host.Outcome State Fault Refusal :=
  let n := n.val
  if !s.running (canPage n) ∨ !s.locked 8 ∨ s.pwr.saving ∨ !s.acts ∨ s.plk.applied ∨ s.flag (R.CAN_MODE n) 4 ∨ 2 ≤ s.canSt n ∨ ([0, 1, 2].any fun b => s.txbSt n b == 2) then .next s
  else
    let s := s.loadBuf0 n
    match s.arbPick n with
    | none => .next s
    | some b => .next (s.setTxb n b 2 (s.fld (R.CAN_TXB_STAT n) (4 * b + 3) (4 * b + 2)))
/-- The frame that buffer b holds (R482, R483). -/
def State.ownFrame (s : State) (n b : Nat) : CanFrame :=
  let id := s.reg (R.CAN_TXB_ID n b)
  let dlc := s.fld (R.CAN_TXB_CTL n b) 3 0
  let data := (List.range 16).flatMap fun k => leBytes 4 (s.regN (R.CAN_TXB_D n b k))
  { id := if bit id 29 then id.setWidth 29 else (id &&& 0x7FF).setWidth 29, xtd := bit id 29, fdf := bit id 30, brs := bit id 30 && bit id 31,
    esi := s.canSt n == 1, rtr := false, dlc := BitVec.ofNat 4 dlc, data := data.take (dlcLen (bit id 30) dlc) }
/-- With MODE.LOOPBACK a frame sent is looped internally (R464). -/
def State.canLoop (s : State) (n b : Nat) : State :=
  if s.flag (R.CAN_MODE n) 5 then (s.incReg (R.CAN_RX_FRAMES n)).canTake n (s.ownFrame n b) else s
/-- CAN_TX_END: the attempt of the ACTIVE buffer ends (R466, R474, R475, R477). -/
def execCanTxEnd (n : Fin 12) (res : TxEnd) (s : State) : Host.Outcome State Fault Refusal :=
  let n := n.val
  match [0, 1, 2].find? fun b => s.txbSt n b == 2 with
  | none => .next s
  | some b =>
    let once := s.flag (R.CAN_TXB_CTL n b) 4 || (s.canCh n).aborts.contains b
    let back (s : State) := if once then (s.txbEnd n b 2).canFeed n else s.setTxb n b 1 (s.fld (R.CAN_TXB_STAT n) (4 * b + 3) (4 * b + 2))
    match res with
    | .sent =>
      let id := s.reg (R.CAN_TXB_ID n b)
      let s := (((s.incReg (R.CAN_TX_FRAMES n)).canLoop n b).txbEnd n b 1).canFeed n
      let s := if s.countsErr n then s.confine n (s.fld (R.CAN_ERR n) 8 0 - 1) (s.fld (R.CAN_ERR n) 24 16) else s
      if s.flag (R.CAN_TDC n) 8 && bit id 30 then
        let (v, s) := s.fresh
        let s := s.setReg (R.CAN_TDC_MEAS n) (wd (v.toNat % 128))
        .next (if v.toNat % 128 = 127 then s.errc (canPage n) 0x101 0 else s)
      else .next s
    | .lostArb => .next (back s)
    | .error code up =>
      let s := (back s).setFld (R.CAN_ERR n) 31 28 code.toNat
      .next (if s.countsErr n then s.confine n (s.fld (R.CAN_ERR n) 8 0 + up.toNat) (s.fld (R.CAN_ERR n) 24 16) else s)
/-- CAN_BUS_ERROR: a protocol error moves the counters (R477, R481); code 0 is a protocol exception event (R464). -/
def execCanBusError (n : Fin 12) (code tecUp recUp : BitVec 4) (s : State) : Host.Outcome State Fault Refusal :=
  let n := n.val
  if !s.active (canPage n) ∨ !s.locked 8 then .next s
  else if code = 0 then .next ((s.incReg (R.CAN_PEX n)).irq (canPage n) 14)
  else
    let s := s.setFld (R.CAN_ERR n) 31 28 code.toNat
    .next (if s.countsErr n then
      s.confine n (s.fld (R.CAN_ERR n) 8 0 + tecUp.toNat) (s.fld (R.CAN_ERR n) 24 16 + recUp.toNat) else s)
/-- RECOVERY_DONE: the 128th sequence clears both counters and ends bus off (R478). -/
def execRecoveryDone (n : Fin 12) (s : State) : Host.Outcome State Fault Refusal :=
  let n := n.val
  if s.active (canPage n) && s.locked 8 && s.canSt n == 3 then .next ((s.setReg (R.CAN_REC_CNT n) 128).confine n 0 0) else .next s
/-- FILTER_TIMEOUT: TIMEOUT_MS has passed since the filter's newest frame (R470, R484). -/
def execFilterTimeout (n : Fin 12) (f : Fin 16) (s : State) : Host.Outcome State Fault Refusal :=
  let n := n.val
  let c := s.canCh n
  match c.mbox.get (fun _ => none) f.val with
  | some m =>
    if s.fld (R.CAN_FLT_CFG n f.val) 31 16 ≠ 0 ∧ m.late = false then
      .next ((s.setCan n { c with mbox := c.mbox.set (fun _ => none) f.val (some { m with late := true }) }).irq (canPage n) 15)
    else .next s
  | none => .next s
/-- Quality and value of a signal at SNAPSHOT (R470, R22): quality, bytes, acquisition time. -/
def State.canSignal (s : State) (n f ofs width : Nat) : Nat × List Byte × Nat :=
  match (s.canCh n).mbox.get (fun _ => none) f with
  | none => (4, List.replicate width 0, 0)
  | some m =>
    if m.gen ≠ (s.blk (canPage n)).gen then (4, List.replicate width 0, 0)
    else
      let len := dlcLen m.f.fdf m.f.dlc.toNat
      let d := (List.range width).map fun i => m.f.data.getD (ofs + i) 0
      let lim := s.fld (R.CAN_FLT_CFG n f) 31 16
      if len < ofs + width then (3, d, m.t) else if m.late ∨ (lim ≠ 0 ∧ m.t + lim * tMs < s.time.log) then (1, d, m.t) else (0, d, m.t)

/-- Entry to STOP: PENDING buffers end CANCELLED and the object queue empties (R480). A FORCE_STOP during a frame ends
it, and TEC moves as for the error the other nodes signal. -/
def State.canStop (s : State) (n : Nat) (force : Bool) : State :=
  let cut := force && ([0, 1, 2].any fun b => s.txbSt n b == 2)
  let s := [0, 1, 2].foldl (fun s b => if s.txbSt n b = 0 then s else s.txbEnd n b 2) s
  let s := if cut && s.countsErr n then s.confine n (s.fld (R.CAN_ERR n) 8 0 + 8) (s.fld (R.CAN_ERR n) 24 16) else s
  s.setCan n { s.canCh n with queue := [] }
/-- Entry to RUN: a channel that stopped in bus off returns in BUS_OFF and recovers afresh (R478, R480). -/
def State.canStart (s : State) (n : Nat) : State :=
  if 2 ≤ s.canSt n then
    let s := s.setFld (R.CAN_ERR n) 26 25 2
    if s.flag (R.CAN_MODE n) 3 then s.canRecover n else s
  else s
/-- Configuration at fault at a RUN request (R465, R467): offset of the first offending register. -/
def State.canBad (s : State) (n : Nat) : Option (Nat × Nat) :=
  let nb := s.reg (R.CAN_NBTP n)
  let db := s.reg (R.CAN_DBTP n)
  let nt := (bits nb 7 0 + 1) * (3 + bits nb 15 8 + bits nb 22 16)
  let dt := (bits db 4 0 + 1) * (3 + bits db 12 8 + bits db 19 16)
  if !s.flag (R.CAN_MODE n) 0 && ((List.range 16).any fun o => s.flag (R.CAN_TXO_ID n o) 30) then some (4, 0x100)
  else if bits nb 15 8 + 1 < 2 ∨ bits nb 22 16 < bits nb 30 24 ∨ nt < 80 ∨ 4000 < nt then some (4, 0x104)
  else if bits db 19 16 < bits db 27 24 ∨ nt < dt ∨ dt < 10 then some (4, 0x108)
  else if dt < 80 ∧ !s.flag (R.CAN_TDC n) 8 then some (4, 0x10C)
  else none

end Sys2Proof.Machine
end

