-- ==== Sys2Proof/Machine/Water.lean ====
section
/-! DEFINITION. Water property table set 1 (R121 to R123): region 1 of IAPWS-IF97 at 1.0 MPa, the tables within their stated
deviations from it, and what is read from them. -/

namespace Sys2Proof.Machine

/-- Round a rational to the nearest integer, ties to even. -/
def rneQ (q : Rat) : Int := rne q.num q.den

/-! ### IAPWS-IF97, region 1 (PRESUMED coefficients, log entry 9) -/

/-- Exponents I and J and coefficient of each term, the coefficient as a mantissa and the decimal places it is shifted. -/
def if97Terms : List (Nat × Int × Int × Nat) :=
  [(0, -2, 14632971213167, 14), (0, -1, -84548187169114, 14), (0, 0, -37563603672040, 13), (0, 1, 33855169168385, 13),
    (0, 2, -95791963387872, 14), (0, 3, 15772038513228, 14), (0, 4, -16616417199501, 15), (0, 5, 81214629983568, 17),
    (1, -9, 28319080123804, 17), (1, -7, -60706301565874, 17), (1, -1, -18990068218419, 15), (1, 0, -32529748770505, 15),
    (1, 1, -21841717175414, 15), (1, 3, -52838357969930, 18)] ++
  [(2, -3, -47184321073267, 17), (2, 0, -30001780793026, 17), (2, 1, 47661393906987, 18), (2, 3, -44141845330846, 19),
    (2, 17, -72694996297594, 29), (3, -4, -31679644845054, 18), (3, 0, -28270797985312, 19), (3, 6, -85205128120103, 23),
    (4, -5, -22425281908000, 19), (4, -2, -65171222895601, 20), (4, 10, -14341729937924, 26), (5, -8, -40516996860117, 20)] ++
  [(8, -11, -12734301741641, 22), (8, -6, -17424871230634, 23), (21, -29, -68762131295531, 32), (23, -31, 14478307828521, 33),
    (29, -38, 26335781662795, 36), (30, -39, -11947622640071, 36), (31, -40, 18228094581404, 37), (32, -41, -93537087292458, 39)]
/-- Sum over the terms of coefficient times `f I J`, where `f` forms the derivative wanted. -/
def if97Sum (f : Nat → Int → Rat) : Rat := (if97Terms.map fun t => (t.2.2.1 : Rat) / (10 ^ t.2.2.2 : Nat) * f t.1 t.2.1).sum
/-- Absolute temperature of table point i, and the reduced temperature and pressure less their offsets at 1.0 MPa. -/
def kelvinAt (i : Nat) : Rat := (i : Rat) / 16 + 27315 / 100
def if97T (i : Nat) : Rat := 1386 / kelvinAt i - 1222 / 1000
def if97P : Rat := 71 / 10 - 100 / 1653
/-- Specific enthalpy in J/kg, its pressure derivative at constant T in J/(kg·Pa), and density in kg/m³, at 1.0 MPa. -/
def if97H (i : Nat) : Rat := 461526 / 1000 * 1386 * if97Sum fun a j => if97P ^ a * (j * if97T i ^ (j - 1))
def if97G (i : Nat) : Rat := 461526 / 1000 * 1386 / 16530000 * if97Sum fun a j => -(a * if97P ^ (a - 1)) * (j * if97T i ^ (j - 1))
def if97Rho (i : Nat) : Rat := 16530000 / (461526 / 1000 * kelvinAt i * if97Sum fun a j => -(a * if97P ^ (a - 1)) * if97T i ^ j)

/-! ### The tables (R121) -/

/-- A table entry: the device's value where it lies within `dev` of the exact one, in units of 2^-n, else the nearest that does. -/
def tabEntry (n : Nat) (exact dev : Rat) (x : Int) : Int :=
  clampI (((exact - dev) * (2 ^ n : Nat)).ceil) (((exact + dev) * (2 ^ n : Nat)).floor) x
/-- H in 2^-32 J/kg within 1 J/kg, G in 2^-70 J/(kg·Pa) within 0.1 %, RHO in 2^-52 kg/m³ within 0.001 kg/m³. -/
def tabH (i : Nat) : Int := tabEntry 32 (if97H i) 1 (Config.waterH i)
def tabG (i : Nat) : Int := tabEntry 70 (if97G i) (|if97G i| / 1000) (Config.waterG i)
def tabRho (i : Nat) : Int := tabEntry 52 (if97Rho i) (1 / 1000) (Config.waterRho i)
/-- Linear interpolation of a table at temperature T on the index 16 T (R122). -/
def waterAt (tab : Nat → Int) (t : Rat) : Rat :=
  let x := t * 16
  let i := x.floor.toNat
  let a : Rat := tab i
  let b : Rat := tab (i + 1)
  a + (x - (i : Rat)) * (b - a)
/-- H(T) in J/kg. -/
def waterH0 (t : Rat) : Rat := waterAt tabH t / (2 ^ 32 : Nat)
/-- h = H(T) + (p + 101,325 Pa − 1.0 MPa) G(T), in J/kg (R122). -/
def waterEnthalpy (t p : Rat) : Rat := waterH0 t + (p + 101325 - 1000000) * (waterAt tabG t / (2 ^ 70 : Nat))
/-- Density in kg/m3. -/
def waterDensity (t : Rat) : Rat := waterAt tabRho t / (2 ^ 52 : Nat)
/-- A temperature of the model's range (R123). -/
def tempOk (t : Rat) : Bool := decide (0 ≤ t ∧ t ≤ 160)
/-- A temperature held to 0 to 160 °C (R123), and whether it had to be. -/
def holdT (t : Int) : Nat × Bool := if t < 0 then (0, true) else if 10485760 < t then (10485760, true) else (t.toNat, false)
/-- Enthalpy H(T) in J/kg of a temperature in 2^-16 °C. -/
def enthOf (t : Nat) : Rat := waterH0 ((t : Rat) / 65536)
/-- The temperature of an enthalpy (R263), and whether it was held at an end. -/
def tempOf (h : Rat) : Nat × Bool :=
  let x := h * (2 ^ 32 : Nat)
  match ((List.range 2561).filter fun i => decide ((tabH i : Rat) ≤ x)).getLast? with
  | none => (0, true)
  | some i =>
    if 2560 ≤ i then (10485760, decide ((tabH 2560 : Rat) < x))
    else
      let a : Rat := tabH i
      let b : Rat := tabH (i + 1)
      holdT (rneQ (((i : Rat) + (x - a) / (b - a)) * 4096))

end Sys2Proof.Machine
end

