-- ==== Sys2Proof/Machine/Mtr.lean ====
section
/-! DEFINITION. Metering (R516 to R543), pulse outputs (R532 to R545) and GPIO (R546, R547). Energies are in units of
2^-32 mWh. -/

namespace Sys2Proof.Machine

abbrev mtrPage : Nat := 176
abbrev plsPage : Nat := 225
abbrev gpioPage : Nat := 224
/-- Kind numbers of this chapter's records. -/
abbrev evModFault : Nat := 70
abbrev evTotalsReset : Nat := 71
abbrev evRemoteReset : Nat := 72
abbrev evRemoteJump : Nat := 73
abbrev evCatchupShort : Nat := 74
abbrev evPulseCut : Nat := 75

/-! ### Numbers -/

/-- Value of a binary32 pattern; none for an infinity or a NaN. -/
def f32Rat (w : Word) : Option Rat :=
  let m := bits w 22 0
  let e := bits w 30 23
  let v : Option Rat :=
    if e = 255 then none
    else if e = 0 then some ((m : Rat) / (2 ^ 149 : Nat))
    else if e ≤ 150 then some (((2 ^ 23 + m : Nat) : Rat) / (2 ^ (150 - e) : Nat))
    else some (((2 ^ 23 + m) * 2 ^ (e - 150) : Nat) : Rat)
  if bit w 31 then v.map (fun x => -x) else v
/-! ### Accumulators -/

/-- An integer table entry, 0 by default. -/
abbrev geti (t : Tab Int) (k : Nat) : Int := t.get (fun _ => 0) k
/-- Add to an entry. -/
def addi (t : Tab Int) (k : Nat) (x : Int) : Tab Int := t.set (fun _ => 0) k (geti t k + x)
/-- A counter table entry. -/
abbrev getn (t : Tab Nat) (k : Nat) : Nat := t.get (fun _ => 0) k
/-- Put a counter. -/
abbrev putn (t : Tab Nat) (k x : Nat) : Tab Nat := t.set (fun _ => 0) k x

/-- Channel of an accumulator (R526, R532). -/
def selChan (sel : Nat) : Nat := if sel < 64 then sel / 8 else 8 + (sel - 64) / 2
/-- The channel is enabled. -/
def State.chanOn (s : State) (ch : Nat) : Bool := if ch < 8 then s.flag R.MTR_CIR_EN ch else s.flag R.MTR_TH_EN (ch - 8)
/-- First accumulator of a channel: its import; its export follows. -/
def chanSel (ch : Nat) : Nat := if ch < 8 then 8 * ch else 64 + 2 * (ch - 8)
/-- A pulse output. -/
def State.pulse (s : State) (o : Nat) : PulseOut := s.pls.get (fun _ => {}) o
/-- Replace it. -/
def State.setPulse (s : State) (o : Nat) (p : PulseOut) : State := { s with pls := s.pls.set (fun _ => {}) o p }
/-- Change the metering unit. -/
def State.setMtr (s : State) (f : MtrSt → MtrSt) : State := { s with mtr := f s.mtr }

/-- Mark an interval flag of a channel (R529). -/
def State.intFlag (s : State) (ch f : Nat) : State :=
  s.setMtr fun m => { m with flags := putn m.flags ch (getn m.flags ch ||| 2 ^ f) }

/-- Add an input of `x` units to a residue, stopping at 65,535 weights; the rest counts in OVF (R533, R534). -/
def State.addResidue (s : State) (o : Nat) (x : Int) : State :=
  let p := s.pulse o
  let lim : Int := 65535 * (s.regN (R.PLS_WEIGHT o) * 2 ^ 32 : Nat)
  let s := s.setMtr fun m => { m with own := addi m.own (128 + o) x }
  let sum := p.res + x
  if sum < lim then s.setPulse o { p with res := sum, sat := false }
  else
    let res := if lim < p.res then p.res else lim
    let ovf := p.ovf + (sum - res).toNat
    let s := s.setPulse o { p with res := res, ovf := ovf, sat := true }
    let s := s.setReg (R.PLS_OVF o) (wd (min (ovf / 2 ^ 32) (2 ^ 32 - 1)))
    if p.sat then s else s.irq plsPage 8
/-- Energy waiting to be spread at an output: the next sample's energy replaces it, and what its ticks had not yet
brought is added, so that no part of the register is lost (R533). -/
def State.loadPulse (s : State) (o : Nat) (e : Int) (ticks : Nat) : State :=
  let p := s.pulse o
  let rest := p.e - p.e * p.n / p.ticks
  let s := if rest = 0 then s else s.addResidue o rest
  s.setPulse o { s.pulse o with e := e, ticks := ticks, n := 0 }
/-- An accumulator takes a positive energy: the total, the interval's partial sum and the own sum (R520, R521, R539). -/
def State.accumulate (s : State) (sel : Nat) (e : Int) : State :=
  s.setMtr fun m => { m with acc := addi m.acc sel e, part := addi m.part sel e, own := addi m.own sel e }
/-- Energy by its own sign into the import or the export register `sel`, `sel + 1` (R520). -/
def State.accSigned (s : State) (sel : Nat) (e : Int) : State :=
  if 0 < e then s.accumulate sel e else if e < 0 then s.accumulate (sel + 1) (-e) else s
/-- Outputs of source 2 take the energies of the registers they name (R533); `of sel` is a register's energy. -/
def State.feedPulses (s : State) (lo hi ticks : Nat) (f : Nat → Int) : State :=
  (List.range 16).foldl (fun s o =>
    let sel := s.fld (R.PLS_CFG o) 10 4
    if s.running plsPage && s.fld (R.PLS_CFG o) 1 0 == 2 && decide (lo ≤ sel ∧ sel < hi) then s.loadPulse o (f sel) ticks else s) s

/-! ### Samples -/

/-- Decimation ratio of an input's circuit; 0 with the clock off (R516). -/
def State.mclkR (s : State) (n : Nat) : Nat :=
  [0, 2500, 2000, 1250].getD (s.fld R.MTR_MCLK_CFG (2 * (n / 12) + 1) (2 * (n / 12))) 0
/-- MOD_FAULT_LO/HI or CLIP_LO/HI bit of an input. -/
def inBit (lo hi n : Nat) : Nat × Nat := if n < 32 then (lo, n) else (hi, n - 32)
/-- Input n is in fault. -/
def State.modFault (s : State) (n : Nat) : Bool :=
  let e := inBit R.MTR_MOD_FAULT_LO R.MTR_MOD_FAULT_HI n
  s.flag e.1 e.2
/-- A sample scaled to 24 bits and whether it was held (R518). -/
def scaleSample (y : Int) (r : Nat) : Int × Bool :=
  if r = 0 then (0, false)
  else
    let q := rne (y * 2 ^ 23) (r ^ 3)
    (clampI (-8388607) 8388607 q, decide (q < -8388607 ∨ 8388607 < q))
/-- Fault state and clip bit of one input at a sample (R518, R519). -/
def State.sampleInput (s : State) (y : Int) (stuck : Bool) (n : Nat) : State :=
  let r := s.mclkR n
  let bad := stuck || r == 0
  let e := inBit R.MTR_MOD_FAULT_LO R.MTR_MOD_FAULT_HI n
  let s :=
    if bad then
      let on := s.modFault n
      let s := s.setMtr fun m => { m with good := putn m.good n 0 }
      if on then s
      else (((s.setFlag e.1 e.2 true).irq mtrPage 9).errc mtrPage 0x100 n).emit evModFault mtrPage [wd n]
    else if s.modFault n then
      let g := getn s.mtr.good n + 1
      if g < 8 then s.setMtr fun m => { m with good := putn m.good n g }
      else (s.setFlag e.1 e.2 false).setMtr fun m => { m with good := putn m.good n 0 }
    else s
  if (scaleSample y r).2 then
    let c := inBit R.MTR_CLIP_LO R.MTR_CLIP_HI n
    (s.setFlag c.1 c.2 true).irq mtrPage 10
  else s
/-- Corrected sample of input n (R518). -/
def State.corrected (s : State) (y : List Int) (n : Nat) : Int :=
  (scaleSample (y.getD n 0) (s.mclkR n)).1 - sext 24 (s.regN (R.MTR_IN_OFS n))
/-- Sample of input n times its scale, in units of 2^-40 V or A. -/
def State.scaled (s : State) (y : List Int) (n : Nat) : Int := s.corrected y n * (s.regN (R.MTR_IN_K n) : Int)
/-- Product of phase p of circuit c, in units of 2^-80 W (R520). -/
def State.phaseProduct (s : State) (y : List Int) (c p : Nat) : Int :=
  s.scaled y (6 * c + 2 * p) * s.scaled y (6 * c + 2 * p + 1)
/-- A product over 125 us as an energy, rounded once (R520). -/
def productEnergy (x : Int) : Int := rne x (2 ^ 48 * 28800)
/-- Add to the sums of an averaging period. -/
def State.meanAdd (s : State) (key : Nat) (x : Rat) : State :=
  s.setMtr fun m => { m with sums := m.sums.set (fun _ => 0) key (m.sums.get (fun _ => 0) key + x) }
/-- An input of circuit c is in fault. -/
def State.cirFault (s : State) (c : Nat) : Bool := (List.range 6).any fun i => s.modFault (6 * c + i)
/-- One circuit takes a sample (R519, R520, R527). -/
def State.sampleCircuit (s : State) (y : List Int) (c : Nat) : State :=
  if !s.flag R.MTR_CIR_EN c then s
  else
    let bad := s.cirFault c
    let s := s.setMtr fun m => { m with sumN := putn m.sumN c (getn m.sumN c + 1) }
    let s := (List.range 3).foldl (fun s p =>
      let v : Rat := (s.scaled y (6 * c + 2 * p) : Rat) / (2 ^ 40 : Nat)
      let i : Rat := (s.scaled y (6 * c + 2 * p + 1) : Rat) / (2 ^ 40 : Nat)
      (s.meanAdd (16 * c + 4 + p) (v * v)).meanAdd (16 * c + 7 + p) (i * i)) s
    if bad then
      let s := (s.intFlag c 1).setMtr fun m =>
        { m with faultN := putn m.faultN c (getn m.faultN c + 1), worst := putn m.worst c 3, sampled := true }
      s
    else
      let e := (List.range 3).map fun p => productEnergy (s.phaseProduct y c p)
      let tot := productEnergy (((List.range 3).map fun p => s.phaseProduct y c p).sum)
      let s := s.setMtr fun m => { m with sampled := true }
      let s := (s.accSigned (8 * c) tot).meanAdd (16 * c) tot
      let s := (List.range 3).foldl (fun s p =>
        (s.accSigned (8 * c + 2 + 2 * p) (e.getD p 0)).meanAdd (16 * c + 1 + p) (e.getD p 0)) s
      if (List.range 6).any fun i => (scaleSample (y.getD (6 * c + i) 0) (s.mclkR (6 * c + i))).2 then s.intFlag c 2 else s
/-- MTR_SAMPLE: every 125 us the modulator samples close and energy is accumulated (R517 to R520). `y` are the outputs of
the 48 sinc3 filters, `stuck` the inputs whose ball held one level for more than 1,024 clocks. -/
def execMtrSample (y : List Int) (stuck : BitVec 48) (s : State) : Host.Outcome State Fault Refusal :=
  if !s.active mtrPage ∨ s.pwr.saving then .next s
  else
    let stuck := if s.locked 8 then stuck else BitVec.allOnes 48
    let s := (List.range 48).foldl (fun s n => s.sampleInput (y.getD n 0) (stuck.getLsbD n) n) s
    let before := s.mtr.acc
    let s := (List.range 8).foldl (fun s c => s.sampleCircuit y c) s
    let after := s.mtr.acc
    let s := s.feedPulses 0 64 125 fun sel => geti after sel - geti before sel
    .next (s.setMtr fun m => { m with lastT := s.time.log })

/-! ### Heat and cold -/

/-- Value and quality of a signal of a thermal channel (R523, R525): 0 good, 1 held, 2 unusable. -/
def State.thSignal (s : State) (src : Word) (lsb : Word) (hold : Nat) : Rat × Nat × Nat :=
  let i := bits src 7 0
  let fmt := bits src 15 14
  let w := if fmt = 1 then 4 else 2
  if 192 ≤ i ∨ fmt = 3 then (0, 2, 3)
  else
    let sig := s.canSignal (i / 16) (i % 16) (bits src 13 8) w
    let n := leNat sig.2.1
    let cnt : Int := if fmt = 2 then n else sext (8 * w) n
    match f32Rat lsb with
    | none => (0, 2, 3)
    | some k =>
      let v := (cnt : Rat) * k
      if sig.1 = 0 then (v, 0, 0)
      else if sig.1 = 1 then
        let since := sig.2.2 + s.fld (R.CAN_FLT_CFG (i / 16) (i % 16)) 31 16 * tMs
        if s.time.log ≤ since + hold * tMs then (v, 1, 1) else (v, 2, 1)
      else (v, 2, 3)
/-- Rank of a quality: BAD over STALE over GOOD (R527). -/
def worse (a b : Nat) : Nat := if a < b then b else a
/-- One channel at a tick (R523 to R525); the energies it adds to import and export. -/
def State.thermalChan (s : State) (t : Nat) : State :=
  let ch := 8 + t
  let cfg := s.reg (R.MTR_TH_CFG t)
  let hold := bits cfg 31 16
  let q := s.thSignal (s.reg (R.MTR_TH_Q_SRC t)) (s.reg (R.MTR_TH_Q_LSB t)) hold
  let ts := s.thSignal (s.reg (R.MTR_TH_TS_SRC t)) (s.reg (R.MTR_TH_T_LSB t)) hold
  let tr := s.thSignal (s.reg (R.MTR_TH_TR_SRC t)) (s.reg (R.MTR_TH_T_LSB t)) hold
  let tOk := tempOk ts.1 && tempOk tr.1
  let use := worse q.2.1 (worse ts.2.1 tr.2.1)
  let qual := worse (if tOk then 0 else 3) (worse q.2.2 (worse ts.2.2 tr.2.2))
  let s := s.setMtr fun m => { m with worst := putn m.worst ch (worse (getn m.worst ch) qual) }
  if use = 2 ∨ !tOk then
    (s.intFlag ch 1).setMtr fun m =>
      { m with gapMs := putn m.gapMs ch (getn m.gapMs ch + 1), tickOk := m.tickOk.filter (· != t) }
  else
    let s := if use = 1 then (s.intFlag ch 3).setMtr fun m => { m with heldMs := putn m.heldMs ch (getn m.heldMs ch + 1) } else s
    let p : Rat := (s.regN (R.MTR_TH_P_PA t) : Rat)
    let flow := if bit cfg 2 then q.1 * waterDensity (if bit cfg 3 then tr.1 else ts.1) else q.1
    let pw := flow * (waterEnthalpy ts.1 p - waterEnthalpy tr.1 p)
    let clip := decide (pw < -1000000000 ∨ 1000000000 < pw)
    let pw : Rat := if pw < -1000000000 then -1000000000 else if 1000000000 < pw then 1000000000 else pw
    let pw := if bit cfg 1 then -pw else pw
    let e := rneQ (pw / 3600 * (2 ^ 32 : Nat))
    let s := s.accSigned (64 + 2 * t) e
    let s := s.setMtr fun m => { m with sumN := putn m.sumN ch (getn m.sumN ch + 1), tickOk := t :: m.tickOk.filter (· != t), sampled := true }
    let s := (((s.meanAdd (16 * ch) e).meanAdd (16 * ch + 1) flow).meanAdd (16 * ch + 2) ts.1).meanAdd (16 * ch + 3) tr.1
    if clip then ((s.intFlag ch 2).setFlag R.MTR_TH_STAT t true).irq mtrPage 10 else s
/-- One enabled channel, with TH_GAP at the first gap after a good tick (R525). -/
def State.thermalOne (s : State) (t : Nat) : State :=
  if !s.flag R.MTR_TH_EN t then s
  else
    let was := s.mtr.tickOk.contains t
    let s := s.thermalChan t
    if was && !s.mtr.tickOk.contains t then s.irq mtrPage 12 else s
/-- Keep this side's own sums and the residues at the whole millisecond, the last 128 of them (R539). -/
def State.ringPush (s : State) : State :=
  s.setMtr fun m =>
    let res := (List.range 16).foldl (fun t o => Tab.set (fun _ => (0 : Int)) t o (s.pulse o).res) ([] : Tab Int)
    { m with ring := (⟨s.time.log / tMs, m.own, res⟩ :: m.ring).take 128 }
/-- THERMAL_TICK: at every whole millisecond each enabled channel computes and accumulates heat (R524, R525). -/
def execThermalTick (s : State) : Host.Outcome State Fault Refusal :=
  if !s.active mtrPage ∨ s.pwr.saving then .next s
  else
    let before := s.mtr.acc
    let s := (List.range 32).foldl (fun s t => s.thermalOne t) s
    let after := s.mtr.acc
    let s := s.feedPulses 64 128 1000 fun sel => geti after sel - geti before sel
    .next s.ringPush

/-! ### Averages and intervals -/

/-- Publish one mean. -/
def State.putMean (s : State) (key : Nat) (v : Word) (q : Nat) : State :=
  s.setMtr fun m => { m with means := m.means.set (fun _ => {}) key ⟨v, q, s.time.log⟩ }
/-- Mean of a channel's field over its samples: power from the net energy, roots of mean squares, plain means (R527). -/
def State.meanOf (s : State) (ch f : Nat) : Word :=
  let x := s.mtr.sums.get (fun _ => 0) (16 * ch + f)
  let n := getn s.mtr.sumN ch
  let len := s.regN R.MTR_AVG_MS
  if f = 0 ∨ (ch < 8 ∧ f ≤ 3) then
    let w : Rat := x * 3600 / ((2 ^ 32 * len : Nat) : Rat)
    Config.f32Mean w.num w.den
  else
    let w : Rat := if n = 0 then 0 else x / (n : Rat)
    if ch < 8 then Config.f32Root w.num w.den else Config.f32Mean w.num w.den
/-- AVG_PERIOD_END: an averaging period ends and its means become the input points (R527). -/
def execAvgPeriodEnd (s : State) : Host.Outcome State Fault Refusal :=
  if !s.active mtrPage ∨ s.pwr.saving then .next s
  else
    let s := (List.range 40).foldl (fun s ch =>
      if !s.chanOn ch then s
      else
        let q := getn s.mtr.worst ch
        (List.range (if ch < 8 then 10 else 4)).foldl (fun s f => s.putMean (16 * ch + f) (s.meanOf ch f) q) s) s
    .next (s.setMtr fun m => { m with sums := [], sumN := [], worst := [] })

/-- Interval values of a channel are latched (R528, R529, R541, R542). -/
def State.latchChan (s : State) (extra : Nat) (ch : Nat) : State :=
  if !s.chanOn ch then s
  else
    let m := s.mtr
    let imp := (geti m.part (chanSel ch)).toNat / 2 ^ 32
    let ex := (geti m.part (chanSel ch + 1)).toNat / 2 ^ 32
    let fl := wd (getn m.flags ch ||| extra)
    if ch < 8 then
      let s := (s.setReg64 (R.MTR_C_INT_IMP_LO ch) (R.MTR_C_INT_IMP_HI ch) imp).setReg64 (R.MTR_C_INT_EXP_LO ch) (R.MTR_C_INT_EXP_HI ch) ex
      (s.setReg (R.MTR_C_INT_FLAGS ch) fl).setReg (R.MTR_C_FAULT_MS ch) (wd (getn m.faultN ch / 8))
    else
      let t := ch - 8
      let s := (s.setReg64 (R.MTR_TH_INT_IMP_LO t) (R.MTR_TH_INT_IMP_HI t) (imp / 1000)).setReg64
        (R.MTR_TH_INT_EXP_LO t) (R.MTR_TH_INT_EXP_HI t) (ex / 1000)
      ((s.setReg (R.MTR_TH_INT_FLAGS t) fl).setReg (R.MTR_TH_HELD_MS t) (wd (getn m.heldMs ch))).setReg
        (R.MTR_TH_GAP_MS t) (wd (getn m.gapMs ch))
/-- Publish the interval that ends as number `no`. -/
def State.publishInterval (s : State) (no extra : Nat) : State :=
  let s := (List.range 40).foldl (fun s ch => s.latchChan extra ch) s
  (s.setReg R.MTR_INT_NO (wd no)).irq mtrPage 8
/-- The next interval starts from zero. -/
def State.newInterval (s : State) : State :=
  s.setMtr fun m => { m with part := [], flags := [], faultN := [], heldMs := [], gapMs := [], sampled := false, steps := s.time.logSteps }
/-- Set PARTIAL for every channel. -/
def State.markPartial (s : State) : State := (List.range 40).foldl (fun s ch => s.intFlag ch 0) s
/-- INTERVAL_END: a billing interval ends; its energies and flags are latched, unless no sample was accumulated in it
(R528, R529). -/
def execIntervalEnd (s : State) : Host.Outcome State Fault Refusal :=
  if !s.up 3 ∨ s.pwr.saving then .next s
  else
    let no := secOf s.time.log / max 1 (s.regN R.MTR_INT_S)
    let extra := if s.time.logSteps = s.mtr.steps then 0 else 2 ^ 5
    let s := if s.mtr.sampled then s.publishInterval no extra else s
    let s := s.newInterval
    .next (if s.active mtrPage then s else s.markPartial)

/-! ### Reads of totals -/

/-- Bus address of the low word of a visible total, numbered as SEL. -/
def totalAddr (sel : Nat) : Nat :=
  if sel < 64 then R.MTR_C_IMP_LO (sel / 8) 0 + 8 * (sel % 8) else R.MTR_TH_IMP_LO 0 + 8 * (sel - 64)
/-- Visible total: the integer part (R521). -/
def State.visible (s : State) (sel : Nat) : Nat := (geti s.mtr.acc sel).toNat / 2 ^ 32
/-- A read of a total's low word latches its high word (R521). -/
def State.readTotalLo (s : State) (sel : Nat) : State :=
  (s.setMtr fun m => { m with latch := m.latch.set (fun _ => none) sel (some (hi32 (s.visible sel))) }).answer (lo32 (s.visible sel))
/-- High word as the newest read of the low word latched it. -/
def State.totalHi (s : State) (sel : Nat) : Word :=
  match s.mtr.latch.get (fun _ => none) sel with | some w => w | none => hi32 (s.visible sel)
/-- TOTAL_LO_READ: a read of an _LO register of a visible total (R521). -/
def execTotalLoRead (who : Initiator) (sel : Fin 128) (s : State) : Host.Outcome State Fault Refusal :=
  .next (s.rgate who (totalAddr sel.val) fun s => s.readTotalLo sel.val)

/-! ### Input points of metering (R526, R527) -/

/-- Quality, bytes and acquisition time of a field of a circuit or thermal channel. -/
def State.mtrPoint (s : State) (ch f width : Nat) : Nat × List Byte × Nat :=
  let m := s.mtr.means.get (fun _ => {}) (16 * ch)
  if f = 16 ∨ f = 17 then (m.qual, leBytes width (s.visible (chanSel ch + (f - 16))), s.time.log)
  else
    let x := s.mtr.means.get (fun _ => {}) (16 * ch + f)
    (x.qual, leBytes width x.val.toNat, x.t)
/-- A field of remote meter k = 8 s + m. -/
def State.remotePoint (s : State) (k f width : Nat) : List Byte :=
  let v := s.mtr.remote.get (fun _ => {}) k
  leBytes width (if f = 0 then v.delta else if f = 1 then v.raw else if f = 2 then v.flags else v.dt)
/-- Acquisition time of the reading processed last (R527). -/
def State.remoteT (s : State) (k : Nat) : Nat := (s.mtr.remote.get (fun _ => {}) k).t
/-- The raw value of the newest reading was out of range (R530). -/
def State.remoteBad (s : State) (k : Nat) : Bool := (s.mtr.remote.get (fun _ => {}) k).flags == 16
/-- A meter whose declaration changes loses its baseline (R531). -/
def State.dropBaseline (s : State) (k : Nat) : State := s.setMtr fun m => { m with base := m.base.set (fun _ => none) k none }
/-- Process a raw reading of remote meter k, acquired at t: range n, unit exponent u and declared power pm (R530). -/
def State.remoteReading (s : State) (k n u pm r t : Nat) : State :=
  if !s.running mtrPage then s
  else
    let put (s : State) (d f dt : Nat) : State :=
      s.setMtr fun m => { m with remote := m.remote.set (fun _ => {}) k ⟨d * 10 ^ u, r, f, dt, t⟩ }
    let newBase (s : State) : State := s.setMtr fun m => { m with base := m.base.set (fun _ => none) k (some (r, t)) }
    match s.mtr.base.get (fun _ => none) k with
    | none => if n ≤ r then put s 0 16 0 else newBase (put s 0 1 0)
    | some (b, tb) =>
      let dt := (t - tb) / tMs
      let bound := (pm * dt + 3600 * 10 ^ u - 1) / (3600 * 10 ^ u) + 1
      let d := (r + n - b % n) % n
      if n ≤ r then put s 0 16 dt
      else if d ≤ bound then newBase (put s d (if b ≤ r then 0 else 2) dt)
      else
        let args := [wd (k / 8), wd (k % 8), lo32 b, hi32 b, lo32 r, hi32 r, wd dt]
        let s := newBase (put s 0 (if r < b then 4 else 8) dt)
        let s := if r < b then s.setReg R.MTR_REMOTE_N (satIncField (s.reg R.MTR_REMOTE_N) 15 0)
          else s.setReg R.MTR_REMOTE_N (satIncField (s.reg R.MTR_REMOTE_N) 31 16)
        (s.irq mtrPage 11).emit (if r < b then evRemoteReset else evRemoteJump) mtrPage args

/-! ### Pulse outputs -/

/-- A pulse is cut short: its weight returns and PULSE_CUT is recorded (R535). -/
def State.pulseCut (s : State) (o : Nat) : State :=
  let p := s.pulse o
  if !p.high then s
  else
    let s := s.setPulse o { p with high := false, gap := s.fld (R.PLS_GAP_US o) 19 0, res := p.res + (s.regN (R.PLS_WEIGHT o) * 2 ^ 32 : Nat) }
    (s.irq plsPage 9).emit evPulseCut plsPage [wd o]
/-- Input of one tick of 1 us at an output (R533). -/
def State.pulseInput (s : State) (o : Nat) : State :=
  let p := s.pulse o
  let src := s.fld (R.PLS_CFG o) 1 0
  if src = 2 then
    if p.n < p.ticks then
      let x := p.e * (p.n + 1 : Nat) / p.ticks - p.e * p.n / p.ticks
      (s.setPulse o { p with n := p.n + 1 }).addResidue o x
    else s
  else if src = 1 then
    let x := p.frac + s.regN (R.PLS_RATE o) * 2 ^ 32
    (s.setPulse o { p with frac := x % 3600000000 }).addResidue o ((x / 3600000000 : Nat) : Int)
  else s
/-- A pulse starts when the residue holds a weight and the gap has ended (R533). -/
def State.pulseStart (s : State) (o : Nat) : State :=
  let p := s.pulse o
  let w : Int := (s.regN (R.PLS_WEIGHT o) * 2 ^ 32 : Nat)
  if p.high then s
  else if p.gap ≠ 0 then s.setPulse o { p with gap := p.gap - 1 }
  else if s.acts && s.fld (R.PLS_CFG o) 1 0 != 0 && decide (w ≤ p.res) then
    (s.setPulse o { p with high := true, res := p.res - w }).incReg (R.PLS_COUNT o)
  else s
/-- PULSE_TICK: each 1 us tick adds energy to the residues and may start pulses (R533, R534, R540). -/
def execPulseTick (s : State) : Host.Outcome State Fault Refusal :=
  if !s.active plsPage ∨ s.pwr.saving then .next s
  else if !s.running plsPage then .next s
  else .next ((List.range 16).foldl (fun s o => (s.pulseInput o).pulseStart o) s)
/-- PULSE_WIDTH_END: a pulse's WIDTH_US ends and the output falls (R533). -/
def execPulseWidthEnd (o : Fin 16) (s : State) : Host.Outcome State Fault Refusal :=
  let o := o.val
  let p := s.pulse o
  .next (if p.high then s.setPulse o { p with high := false, gap := s.fld (R.PLS_GAP_US o) 19 0 } else s)
/-- The residue as a number of 96 bits. -/
def State.resNat (s : State) (o : Nat) : Nat := (s.pulse o).res.toNat
/-- RES_LO_READ: a read of PLSo_RES_LO latches _HI and _TOP (R544). -/
def execResLoRead (who : Initiator) (o : Fin 16) (s : State) : Host.Outcome State Fault Refusal :=
  .next (s.rgate who (R.PLS_RES_LO o.val) fun s =>
    let n := s.resNat o.val
    (s.setPulse o.val { s.pulse o.val with latch := some (hi32 n, wd (n / 2 ^ 64)) }).answer (lo32 n))
/-- RES_HI and RES_TOP as latched. -/
def State.resHi (s : State) (o : Nat) : Word × Word :=
  match (s.pulse o).latch with | some x => x | none => (hi32 (s.resNat o), wd (s.resNat o / 2 ^ 64))
/-- The output map sets the rate of a pulse output (R532). -/
def State.pulseRate (s : State) (o rate : Nat) : State := s.setReg (R.PLS_RATE o) (wd rate)

/-! ### GPIO -/

/-- GPIO_IN_CHG: the filtered level of a ball changes; the edge is counted and an input ball raises IN_CHG (R546, R547). -/
def execGpioInChg (g : Fin 16) (level : Bool) (s : State) : Host.Outcome State Fault Refusal :=
  let g := g.val
  if !s.up 3 ∨ !s.locked 8 ∨ s.flag R.GPIO_IN g = level then .next s
  else
    let s := s.setFlag R.GPIO_IN g level
    if s.running gpioPage then
      let s := s.incReg (R.GPIO_EDGE g)
      .next (if s.flag R.GPIO_DIR g then s else s.irq gpioPage 8)
    else .next s
/-- An output entry sets a ball's level, or counts in MAP_DIR when the ball is an input (R546). -/
def State.gpioOut (s : State) (g : Nat) (level : Bool) : State :=
  if !s.running gpioPage then s
  else if s.flag R.GPIO_DIR g then s.setFlag R.GPIO_OUT g level else s.incReg R.GPIO_MAP_DIR
/-- Entry to RUN (R547). -/
def State.gpioStart (s : State) : State := (List.range 16).foldl (fun s g => s.setReg (R.GPIO_EDGE g) 0) s

/-! ### Entering and leaving RUN, saving -/

/-- Save item 1 (R71, R536): accumulators by SEL, partial sums from 1000, flags from 2000, residues from 3000, the number
of the interval in progress at 4000 and the time of the newest sample at 4001. -/
def State.mtrItem (s : State) : List (Nat × Int) :=
  let m := s.mtr
  m.acc ++ m.part.map (fun e : Nat × Int => (1000 + e.1, e.2)) ++ m.flags.map (fun e : Nat × Nat => (2000 + e.1, (e.2 : Int))) ++
    s.pls.map (fun e : Nat × PulseOut => (3000 + e.1, e.2.res)) ++
    [(4000, ((secOf s.time.log / max 1 (s.regN R.MTR_INT_S) + 1 : Nat) : Int)), (4001, (m.lastT : Int))]
/-- Save item 1: what MTR holds, or what the newest copy holds while MTR has not taken it back since start-up (R71, R537). -/
def State.mtrSaved (s : State) : List (Nat × Int) :=
  if s.mtr.restored then s.mtrItem
  else match copyNewest s.pwr.saves.mtr with
    | some x => x.2
    | none => s.mtrItem
/-- A field of a saved item. -/
def itemGet (l : List (Nat × Int)) (k : Nat) : Int := match l.find? (fun e => e.1 == k) with | some e => e.2 | none => 0
/-- Freeze of R69, R536: pulses in progress are cut. Sampling stops with the save. -/
def State.mtrFreeze (s : State) : State := (List.range 16).foldl (fun s o => s.pulseCut o) s

/-- Table of the values of `f` at 0 .. n - 1. -/
def tabOf (n : Nat) (f : Nat → Int) : Tab Int := (List.range n).foldl (fun t k => Tab.set (fun _ => (0 : Int)) t k (f k)) []
/-- Totals, residues and partial sums from the newest committed save (R537). -/
def State.mtrRestore (s : State) : State :=
  match copyNewest s.pwr.saves.mtr with
  | none => (s.errc mtrPage 0x101 0).emitSev evTotalsReset 2 mtrPage []
  | some (_, l) =>
    let no := (itemGet l 4000).toNat
    let s := s.setMtr fun m => { m with acc := tabOf 128 (itemGet l), lastT := (itemGet l 4001).toNat }
    let s := (List.range 16).foldl (fun s o => s.setPulse o { s.pulse o with res := itemGet l (3000 + o) }) s
    let s := s.setMtr fun m =>
      { m with part := tabOf 128 (fun k => itemGet l (1000 + k)),
               flags := (List.range 40).foldl (fun t ch => putn t ch (((itemGet l (2000 + ch)).toNat) ||| 17)) [], sampled := true }
    let s := s.setFlag R.MTR_STAT2 1 true
    if secOf s.time.log < no * s.regN R.MTR_INT_S then s
    else (s.publishInterval no 0).newInterval.markPartial
/-- Entry to RUN of MTR: PARTIAL unless the interval starts now; totals come back once after start-up (R527, R529, R537). -/
def State.mtrStart (s : State) : State :=
  let s := s.setMtr fun m => { m with means := [], sums := [], sumN := [], worst := [], tickOk := [], steps := if m.sampled then m.steps else s.time.logSteps }
  let s := s.setReg R.MTR_TH_STAT 0
  let s := if s.time.log % (max 1 (s.regN R.MTR_INT_S) * tS) = 0 then s else s.markPartial
  if s.mtr.restored then s else (s.setMtr fun m => { m with restored := true }).mtrRestore
/-- MTR leaves RUN: the interval in progress is PARTIAL (R529). -/
def State.mtrStop (s : State) : State := s.markPartial
/-- PLS leaves RUN by a FORCE_STOP (R99, R535). -/
def State.plsForce (s : State) : State := (List.range 16).foldl (fun s o => s.pulseCut o) s

/-- First register of thermal channel t with a value its table does not give: HOLD_MS, a map index beyond 191 or the reserved format
(R470, R541). -/
def State.thCfgBad (s : State) (t : Nat) : Option Nat :=
  if 60000 < s.fld (R.MTR_TH_CFG t) 31 16 then some (0x300 + 32 * t)
  else ([R.MTR_TH_Q_SRC t, R.MTR_TH_TS_SRC t, R.MTR_TH_TR_SRC t].find? fun a => s.fld a 15 14 == 3 || decide (192 ≤ s.fld a 7 0)).map ofsOf
/-- THtt_CFG: bit 0 is the copy of the channel's bit of TH_EN (R541). -/
def State.thCfgView (s : State) (t : Nat) : Word := putBit (s.reg (R.MTR_TH_CFG t)) 0 (s.flag R.MTR_TH_EN t)
/-- Configuration of MTR at fault (R516, R522, R541). -/
def State.mtrBad (s : State) : Option (Nat × Nat) :=
  let avg := s.regN R.MTR_AVG_MS
  let iv := s.regN R.MTR_INT_S
  if (List.range 8).any fun c => s.flag R.MTR_CIR_EN c && s.mclkR (6 * c) == 0 then some (4, 0x100)
  else if avg < 10 ∨ 1000 < avg ∨ 1000 % avg ≠ 0 then some (4, 0x108)
  else if iv < 60 ∨ 3600 < iv ∨ 86400 % iv ≠ 0 then some (4, 0x10C)
  else match (List.range 24).find? fun i => s.flag R.MTR_CIR_EN (i / 3) &&
      decide (10 ^ 8 * 2 ^ 34 < s.regN (R.MTR_IN_K (6 * (i / 3) + 2 * (i % 3))) * s.regN (R.MTR_IN_K (6 * (i / 3) + 2 * (i % 3) + 1))) with
    | some i => some (4, 0x144 + 8 * (6 * (i / 3) + 2 * (i % 3)))
    | none =>
      ((List.range 32).findSome? fun t => if s.flag R.MTR_TH_EN t then s.thCfgBad t else none).map fun o => (4, o)
/-- Configuration of PLS at fault (R544). -/
def State.plsBad (s : State) : Option (Nat × Nat) :=
  let rowBad (o : Nat) : Option Nat :=
    let sel := s.fld (R.PLS_CFG o) 10 4
    if s.fld (R.PLS_CFG o) 1 0 = 3 then some (0x100 + 16 * o)
    else if s.fld (R.PLS_CFG o) 1 0 = 2 ∧ !s.chanOn (selChan sel) then some (0x100 + 16 * o)
    else if s.reg (R.PLS_WEIGHT o) = 0 then some (0x104 + 16 * o)
    else if s.fld (R.PLS_WIDTH_US o) 19 0 = 0 ∨ 1000000 < s.fld (R.PLS_WIDTH_US o) 19 0 then some (0x108 + 16 * o)
    else if s.fld (R.PLS_GAP_US o) 19 0 = 0 ∨ 1000000 < s.fld (R.PLS_GAP_US o) 19 0 then some (0x10C + 16 * o)
    else none
  ((List.range 16).findSome? rowBad).map fun o => (4, o)
/-- Configuration of GPIO at fault (R547). -/
def State.gpioBad (s : State) : Option (Nat × Nat) := if 1000 < s.fld R.GPIO_FILTER_US 9 0 then some (4, 0x108) else none

/-! ### The pair (R539) -/

/-- A value at a whole millisecond of the ring, by this side's own sum since. -/
def State.ringAt (s : State) (ms : Nat) : Option MsSnap := s.mtr.ring.find? (fun e => e.ms == ms)
/-- The standby takes a state frame's totals and residues, with its own sums since the frame's millisecond (R539);
`base` are the remote baselines. -/
def State.mtrTake (s : State) (ms : Nat) (tot res : Nat → Int) (base : Tab (Option (Nat × Nat))) : State :=
  let since (k : Nat) : Int := match s.ringAt ms with | some x => geti s.mtr.own k - geti x.own k | none => 0
  let s' := s.setMtr fun m => { m with acc := tabOf 128 (fun k => tot k + since k), base := base }
  let s' := (List.range 16).foldl (fun s o => s.setPulse o { s.pulse o with res := res o + since (128 + o) }) s'
  match s.ringAt ms with
  | some _ => s'
  | none => (s'.setFlag R.MTR_STAT2 0 true).emit evCatchupShort mtrPage [wd ms]

end Sys2Proof.Machine
end

