-- ==== Sys2Proof/Machine/Stl.lean ====
section
/-! DEFINITION. Stalls and the LSX exchange (R386 to R425): windows, frames, binding and negotiation, reads, writes under
epochs and sequences, tags, quality and age. Frames are the datagrams' payloads. -/

namespace Sys2Proof.Machine

abbrev stlPage : Nat := 80
/-- Page of the stable of stall k (R39). -/
abbrev stbPage (k : Nat) : Nat := 96 + k / 64
/-- Kind numbers of this chapter's records. -/
abbrev evLsxRefused : Nat := 80
abbrev evVersionDown : Nat := 81
abbrev evRebind : Nat := 82
abbrev evTagFail : Nat := 83
abbrev evFenced : Nat := 84

/-- A stall. -/
def State.stall (s : State) (k : Nat) : Stall := s.stalls.get (fun _ => {}) k
/-- Replace it. -/
def State.setStall (s : State) (k : Nat) (x : Stall) : State := { s with stalls := s.stalls.set (fun _ => {}) k x }
/-- Bus address of its window (R39). -/
abbrev winBase (k : Nat) : Nat := 0x24000000 + 0x4000 * k
/-- Configuration fields (R423). -/
def State.stEn (s : State) (k : Nat) : Bool := s.flag (R.STB_CFG0 k) 28
def State.stMin2 (s : State) (k : Nat) : Bool := s.flag (R.STB_CFG0 k) 29
def State.stInLen (s : State) (k : Nat) : Nat := s.fld (R.STB_CFG2 k) 10 0
def State.stOutLen (s : State) (k : Nat) : Nat := s.fld (R.STB_CFG2 k) 25 16
/-- The stable of stall k runs. -/
def State.stRun (s : State) (k : Nat) : Bool := s.running (stbPage k)
/-- Window bytes. -/
def State.winN (s : State) (k o n : Nat) : Nat := rdN s.stallMem (winBase k + o) n
def State.winBytes (s : State) (k o n : Nat) : List Byte := rdBytes s.stallMem (winBase k + o) n
def State.winPut (s : State) (k o : Nat) (l : List Byte) : State := { s with stallMem := wrBytes s.stallMem (winBase k + o) l }
/-- BUF_CTL.NEWEST and the base of an input buffer (R386). -/
def State.newest (s : State) (k : Nat) : Nat := s.winN k 0x20 1 % 2
abbrev bufOfs (b : Nat) : Nat := 0x400 + 0x800 * b
/-- Next sequence of a stall (R404). -/
def State.stSeq (s : State) (k : Nat) : Nat := s.reg64 (R.STB_SEQ_LO k) (R.STB_SEQ_HI k)
/-- Count in a field of Sssss_ERRS. -/
def State.stErr (s : State) (k hi lo : Nat) : State := s.setReg (R.STB_ERRS k) (satIncField (s.reg (R.STB_ERRS k)) hi lo)
/-- Change a stall's state, with the causes of R425. -/
def State.stTo (s : State) (k st : Nat) : State :=
  let x := s.stall k
  if x.st = st then s
  else
    let s := s.setStall k { x with st := st }
    if st = 4 then s.irq (stbPage k) 8 else if st = 3 then s.irq (stbPage k) 9 else s
/-- State as shown (R423): DISABLED while EN is clear. -/
def State.stShown (s : State) (k : Nat) : Nat := if s.stEn k then (s.stall k).st else 0
/-- The pair allows writes to an LSX 1 stall: protocol 1 or unpaired (R399). -/
def State.v1Writes (s : State) : Bool := s.role == 5 || s.fld R.PLK_PAIR_STAT 7 6 == 1
/-- WR_HELD: a bound LSX 1 stall that may not be written. -/
def State.stHeld (s : State) (k : Nat) : Bool := (s.stall k).bound && (s.stall k).major == 1 && !s.v1Writes

/-! ### Frames (R389 to R393, R412) -/

/-- Key of a slot (R624). -/
def State.slotKey (s : State) (i : Nat) : List Byte := (s.sec.keys.get (fun _ => {}) i).key
/-- K_s of a stall (R412). -/
def State.stallKey (s : State) (k : Nat) : List Byte :=
  let key := s.slotKey (s.fld (R.STB_KEY_SLOT (k / 64)) 3 0)
  kmac256 key (leBytes 2 k ++ leBytes 8 (s.reg64 (R.STB_UID_LO k) (R.STB_UID_HI k))) 32 "LSX2 KEY"
/-- Tag of the bytes X. -/
def State.lsxTag (s : State) (k : Nat) (x : List Byte) : List Byte := kmac256 (s.stallKey k) x 16 "LSX2"
/-- Header of major version m. -/
def lsxHeader (m ty flags k len epoch seq : Nat) : List Byte :=
  if m = 2 then [2, 0, BitVec.ofNat 8 ty, BitVec.ofNat 8 flags] ++ leBytes 2 k ++ leBytes 2 len ++ leBytes 4 epoch ++ leBytes 4 0 ++ leBytes 8 seq
  else [1, 0, BitVec.ofNat 8 ty, BitVec.ofNat 8 flags] ++ leBytes 2 k ++ leBytes 2 len ++ leBytes 4 seq ++ leBytes 4 0
/-- Header length of a frame's version. -/
def lsxHdrLen (f : List Byte) : Nat := if f.getD 0 0 = 2 then 24 else 16
/-- SEQ and EPOCH of a frame. -/
def lsxSeq (f : List Byte) : Nat := if f.getD 0 0 = 2 then fieldN f 0x10 8 else fieldN f 8 4
def lsxEpoch (f : List Byte) : Nat := if f.getD 0 0 = 2 then fieldN f 8 4 else 0
/-- Send a datagram to a stall's station. -/
def State.stSend (s : State) (k : Nat) (f : List Byte) : State :=
  s.ethSendTo (s.winN k 0x1A 1) .lsx (s.winBytes k 8 16) f
/-- A frame that takes the next sequence (R404): the sequence used, and the state after sending. -/
def State.stFrame (s : State) (k m ty flags : Nat) (payload : List Byte) (tagged : Bool) : Nat × State :=
  let q := s.stSeq k
  let x := lsxHeader m ty flags k payload.length s.epoch q ++ payload
  let f := if tagged && m == 2 then x ++ s.lsxTag k x else x
  let s := s.setReg64 (R.STB_SEQ_LO k) (R.STB_SEQ_HI k) (q + 1)
  (q, (s.setStall k { s.stall k with ep := s.epoch }).stSend k f)
/-- Device hello payload (R392). -/
def State.helloPayload (s : State) (k : Nat) : List Byte :=
  leBytes 8 (s.reg64 (R.STB_UID_LO k) (R.STB_UID_HI k)) ++ [if s.stMin2 k then 2 else 1, 2, 0] ++
    [BitVec.ofNat 8 (b2n (s.flag R.PLK_PAIR_STAT 10) + 2 * b2n s.acts)] ++ leBytes 4 s.epoch ++ leBytes 8 (s.stSeq k) ++ leBytes 8 0

/-- SEQ matches what a request carried: 32 bits in LSX 1 (R404). -/
def seqIs (m q got : Nat) : Bool := if m = 1 then q % 2 ^ 32 == got else q == got

/-! ### Sending (R397, R400, R405, R406, R410, R421) -/

/-- Send a READ unless one is outstanding (R400, R401). -/
def State.sendRead (s : State) (k : Nat) (probe : Bool) : State :=
  let x := s.stall k
  if !s.stRun k ∨ !s.acts ∨ !x.bound ∨ x.major = 0 ∨ x.st = 5 ∨ x.rd.isSome then s
  else
    let r := s.stFrame k x.major 0x10 (if probe then 2 else 0) [] false
    r.2.setStall k { r.2.stall k with rd := some r.1 }
/-- Every output entry of a stall has the action OFF (R411). -/
def State.stAllOff (s : State) (k : Nat) : Bool :=
  match s.lge.image with
  | none => false
  | some g => (g.outmap.zip (List.range g.outmap.length)).all fun e =>
      !(e.1.kind == 0 && e.1.index == k) || ((s.kpr.pdLog.getD []).getD (16 * e.2) 0 == 2)
/-- A stall may be written now (R399, R406, R408, R411, R549). -/
def State.mayWrite (s : State) (k : Nat) : Bool :=
  let x := s.stall k
  s.stRun k && s.acts && x.bound && x.major != 0 && x.st != 5 && s.stOutLen k != 0 && !s.stHeld k && !x.loc &&
    (!x.fenced || decide (s.regN (R.STB_EPOCH k) < s.epoch)) && !(s.lge.safe && s.stAllOff k)
/-- Send a WRITE of the output area as it stands (R405, R406). -/
def State.sendWrite (s : State) (k : Nat) : State :=
  if !s.mayWrite k then s
  else
    let n := s.stOutLen k
    let data := s.winBytes k 0x1400 n
    let s := s.setStall k { s.stall k with fenced := false, dirty := false }
    let r := s.stFrame k (s.stall k).major 0x12 0 (leBytes 2 n ++ leBytes 2 0 ++ data) true
    (r.2.winPut k 0x1600 data).setStall k { r.2.stall k with wr := some r.1 }
/-- Send the acknowledged output as a WRITE with REFRESH set (R410, R573); before the first acknowledgement there is none to send
(DEDUCED, log entry 65). -/
def State.sendRefresh (s : State) (k : Nat) : State :=
  if !s.mayWrite k ∨ (s.stall k).wr.isSome ∨ s.reg64 (R.STB_ACK_LO k) (R.STB_ACK_HI k) = 0 then s
  else
    let n := s.stOutLen k
    let data := s.winBytes k 0x1800 n
    let r := s.stFrame k (s.stall k).major 0x12 1 (leBytes 2 n ++ leBytes 2 0 ++ data) true
    (r.2.winPut k 0x1600 data).setStall k { r.2.stall k with wr := some r.1 }
/-- Stalls by number. -/
abbrev allStalls : List Nat := List.range 1024
/-- End of OUTPUT: stalls whose area changed send a WRITE, or set DIRTY (R405). On the first OUTPUT of a side that acts
anew every writable stall sends one, a write in flight abandoned (R420). -/
def State.stallsOutput (s : State) (anew : Bool) : State :=
  allStalls.foldl (fun s k =>
    let x := s.stall k
    if !s.stEn k ∨ !x.bound then s
    else if anew then (if s.mayWrite k then (s.setStall k { x with wr := none }).sendWrite k else s)
    else
      let n := s.stOutLen k
      if s.winBytes k 0x1400 n == s.winBytes k 0x1600 n then s
      else if x.wr.isSome then s.setStall k { x with dirty := true }
      else s.sendWrite k) s
/-- A probe request of PLK: every bound LSX 2 stall sends a READ with PROBE (R421). -/
def State.probeStalls (s : State) : State :=
  allStalls.foldl (fun s k => if (s.stall k).bound && (s.stall k).major == 2 then s.sendRead k true else s) s
/-- A fence check: bound LSX 2 stalls without a write in flight resend their acknowledged output (R573). -/
def State.fenceStalls (s : State) : State :=
  allStalls.foldl (fun s k => if (s.stall k).bound && (s.stall k).major == 2 then s.sendRefresh k else s) s
/-- Clear the reachability count (R572). -/
def State.clearReach (s : State) : State :=
  { (s.setReg R.STL_REACH 0) with stalls := tabMap (fun _ => {}) (fun _ x => { x with reached := false }) s.stalls }
/-- A reply carries the epoch in force: the stall counts once (R421). -/
def State.countReach (s : State) (k epoch : Nat) : State :=
  let x := s.stall k
  if x.major == 2 && epoch == s.epoch && !x.reached then (s.setStall k { x with reached := true }).incReg R.STL_REACH else s

/-! ### Meter declarations (R416) -/

/-- Range of a declared register. -/
def meterRange (d : List Byte) : Nat := if d.getD 2 0 = 0 then 2 ^ (d.getD 3 0).toNat else 10 ^ (d.getD 3 0).toNat
/-- A declaration obeys R416. -/
def meterOk (d : List Byte) (inLen : Nat) : Bool :=
  let enc := (d.getD 2 0).toNat
  let w := (d.getD 3 0).toNat
  let sz := (d.getD 4 0).toNat
  decide ((enc = 0 ∧ 8 ≤ w ∧ w ≤ 64) ∨ (enc = 1 ∧ 1 ≤ w ∧ w ≤ 19)) && [1, 2, 4, 8].contains sz && decide (d.getD 5 0 ≤ 9 ∧ d.getD 6 0 ≤ 3 ∧ d.getD 7 0 = 0) &&
    fieldN d 8 4 != 0 && fieldN d 12 4 == 0 && decide (meterRange d ≤ 256 ^ sz) && decide (fieldN d 0 2 + sz ≤ inLen)
/-- Declaration m held in the window. -/
def State.meterDecl (s : State) (k m : Nat) : List Byte := s.winBytes k (0x40 + 16 * m) 16

/-! ### Received frames (R391) -/

/-- Source address and port of the binding equal the datagram's. -/
def State.boundTo (s : State) (k : Nat) (src : NetAddr) : Bool :=
  (s.stall k).bound && s.winBytes k 8 16 == src.ip && s.winN k 0x18 2 == src.port.toNat
/-- A dropped frame is counted on the stall it names if its header can be read and it comes from that stall's binding,
and otherwise in RX_DROP. -/
def State.lsxDrop (s : State) (src : NetAddr) (f : List Byte) : State :=
  let m := f.getD 0 0
  let k := fieldN f 4 2
  if (m = 1 ∨ m = 2) ∧ lsxHdrLen f ≤ f.length ∧ k < 1024 ∧ s.boundTo k src then s.stErr k 31 24 else s.incReg R.STL_RX_DROP
/-- Length of the tag a type carries in LSX 2. -/
def tagLen (f : List Byte) : Nat := let t := f.getD 2 0; if f.getD 0 0 = 2 ∧ (t = 0x12 ∨ t = 0x13 ∨ t = 0x14) then 16 else 0
/-- The frame may be read: version, type and length (R391). -/
def lsxReadable (f : List Byte) : Bool :=
  let m := f.getD 0 0
  let t := f.getD 2 0
  let hello := t == 1 || t == 2
  let h := lsxHdrLen f
  (m == 1 || m == 2) && (hello || t == 0x10 || t == 0x11 || t == 0x12 || t == 0x13 || t == 0x14 || t == 0x20 || t == 0x21) &&
    !(hello && m != 1) && decide (h ≤ f.length) && fieldN f 6 2 + h + tagLen f == f.length
/-- Take a frame of type `ty` of a bound stall at its negotiated version; `k` gets the stall. -/
def State.lsxFrom (s : State) (src : NetAddr) (f : List Byte) (ty : Byte) (go : Nat → State → State) : State :=
  let k := fieldN f 4 2
  if !s.running stlPage ∧ !s.active stlPage then s
  else if !lsxReadable f ∨ f.getD 2 0 ≠ ty ∨ 1024 ≤ k ∨ !s.boundTo k src ∨ (ty ≠ 2 ∧ (f.getD 0 0).toNat ≠ (s.stall k).major) then s.lsxDrop src f
  else if !s.active (stbPage k) then s
  else go k s

/-! ### Binding and negotiation (R394 to R398) -/

/-- A frame the STL reads leaves the port's LSX queue. -/
def State.lsxTake (s : State) (src : NetAddr) (f : List Byte) : State :=
  let p := s.port src.eth.val
  match p.rxLsx.find? fun q => f.isSuffixOf q with
  | some q => s.ethTake src.eth.val .lsx q
  | none => s
/-- Hello payload fields of the station. -/
structure Hello where
  uid    : Nat
  lo     : Nat
  hi     : Nat
  epoch  : Nat
  seq    : Nat
  boot   : Nat
  nMet   : Nat
  inLen  : Nat
  outLen : Nat
  met    : List Byte
deriving DecidableEq, Repr
/-- Read a hello payload. -/
def parseHello (f : List Byte) : Hello :=
  let p := f.drop 16
  let n := fieldN p 0x1A 1
  ⟨fieldN p 0 8, fieldN p 8 1, fieldN p 9 1, fieldN p 0xC 4, fieldN p 0x10 8, fieldN p 0x18 2, n, fieldN p 0x1C 2, fieldN p 0x1E 2, (p.drop 0x20).take (16 * n)⟩
/-- The hello says what the binding holds (R394). -/
def State.helloSame (s : State) (k : Nat) (h : Hello) : Bool :=
  s.winN k 0 8 == h.uid && s.winN k 0x1C 2 == h.boot && s.stInLen k == h.inLen && s.stOutLen k == h.outLen &&
    s.winN k 0x1E 1 == h.nMet && s.winBytes k 0x40 (16 * h.nMet) == h.met
/-- A negotiation is refused (R395, R396). -/
def State.stRefuse (s : State) (k : Nat) : State :=
  (((s.setStall k { s.stall k with rd := none, wr := none }).stTo k 5).irq (stbPage k) 11).emit evLsxRefused (stbPage k) [wd k]
/-- Negotiate with a station by its hello (R395 to R397). -/
def State.negotiate (s : State) (k : Nat) (h : Hello) : State :=
  let lo := max h.lo (if s.stMin2 k then 2 else 1)
  let m := min h.hi 2
  let metBad := (List.range h.nMet).any fun i => !meterOk ((h.met.drop (16 * i)).take 16) h.inLen
  if m < lo ∨ h.inLen ≠ s.stInLen k ∨ h.outLen ≠ s.stOutLen k ∨ 8 < h.nMet ∨ h.met.length ≠ 16 * h.nMet ∨ metBad then s.stRefuse k
  else
    let x := s.stall k
    let down := x.major == 2 && m == 1
    let changed := (s.winN k 0x1E 1 != h.nMet || s.winBytes k 0x40 (16 * h.nMet) != h.met)
    let s := if changed then (List.range 8).foldl (fun s i => s.dropBaseline (8 * k + i)) s else s
    let s := (s.winPut k 0x40 (h.met ++ List.replicate (128 - h.met.length) 0)).winPut k 0x1B [BitVec.ofNat 8 m]
    let s := s.winPut k 0x1C (leBytes 2 h.boot ++ [BitVec.ofNat 8 h.nMet])
    let s := s.setReg64 (R.STB_SEQ_LO k) (R.STB_SEQ_HI k) (max (s.stSeq k) (h.seq + 1))
    let s := s.setReg (R.STB_EPOCH k) (wd h.epoch)
    let s := s.setStall k { s.stall k with major := m, rd := none, misses := 0, rdMiss := 0, loc := false }
    let s := s.stTo k (if x.st = 4 ∨ x.st = 2 then 4 else 3)
    let s := if down then (s.irq (stbPage k) 11).emit evVersionDown (stbPage k) [wd k] else s
    let s := s.sendRead k false
    if (s.stall k).written && s.mayWrite k then (s.setStall k { s.stall k with wr := none }).sendWrite k else s
/-- Write the binding block (R386). -/
def State.bind (s : State) (k : Nat) (src : NetAddr) (h : Hello) : State :=
  let s := s.winPut k 0 (leBytes 8 h.uid ++ src.ip.take 16 ++ leBytes 2 src.port.toNat ++ [BitVec.ofNat 8 src.eth.val])
  s.setStall k { s.stall k with bound := true }
/-- Answer a hello (R394): a HELLO_ACK copies STALL and SEQ from its request (R389). -/
def State.helloAck (s : State) (k : Nat) (f : List Byte) : State :=
  s.stSend k (lsxHeader 1 2 0 (fieldN f 4 2) 32 0 (lsxSeq f) ++ s.helloPayload k)
/-- HELLO: matched by UID, bound, answered and negotiated (R394 to R398). -/
def execHello (src : NetAddr) (frame : List Byte) (s : State) : Host.Outcome State Fault Refusal :=
  let s := s.lsxTake src frame
  if !s.running stlPage then .next s
  else if !lsxReadable frame ∨ frame.getD 2 0 ≠ 1 ∨ frame.length < 48 then .next (s.lsxDrop src frame)
  else
    let h := parseHello frame
    match allStalls.find? fun k => s.stEn k && s.stRun k && s.reg64 (R.STB_UID_LO k) (R.STB_UID_HI k) == h.uid with
    | none =>
      -- a stall that is enabled in a stable out of RUN matches, and answers nothing (R394, R99)
      .next (if allStalls.any fun k => s.stEn k && s.reg64 (R.STB_UID_LO k) (R.STB_UID_HI k) == h.uid then s else s.incReg R.STL_RX_UNKNOWN)
    | some k =>
      if !(s.fld (R.STB_PORTS (k / 64)) 5 0).testBit src.eth.val then .next s
      else
        let x := s.stall k
        if s.boundTo k src && s.helloSame k h && x.st != 2 && x.st != 5 then .next (s.helloAck k frame)
        else
          let re := x.bound && !s.boundTo k src
          let s := if s.boundTo k src then s else (s.bind k src h).irq (stbPage k) 13
          let s := if re then s.emit evRebind (stbPage k) [wd k] else s
          let t := s.negotiate k h
          if (t.stall k).st = 5 then .next t else .next (((s.helloAck k frame).negotiate k h))
/-- HELLO_ACK: ends the negotiation of a NEGOTIATING stall (R397, R398). -/
def execHelloAck (src : NetAddr) (frame : List Byte) (s : State) : Host.Outcome State Fault Refusal :=
  .next ((s.lsxTake src frame).lsxFrom src frame 2 fun k s =>
    if (s.stall k).st = 2 ∧ 48 ≤ frame.length then s.negotiate k (parseHello frame) else s)

/-! ### Reads (R400 to R403, R415) -/

/-- READ: a stall's read instant (R398, R400). -/
def execRead (k : Fin 1024) (s : State) : Host.Outcome State Fault Refusal :=
  let k := k.val
  if !s.stEn k ∨ !s.stRun k ∨ !s.acts then .next s
  else if (s.stall k).st = 2 ∧ (s.stall k).bound then .next (s.stFrame k 1 1 0 (s.helloPayload k) false).2
  else .next (s.sendRead k false)
/-- A time given by ns and seconds, in units of 2^-32 ns. -/
def timeOf (ns sec : Nat) : Nat := (sec * 1000000000 + ns) * 2 ^ 32
/-- A time given by ns and seconds [31:0], taken within 2^31 s of the device time `now`. -/
def timeNear (now ns sec : Nat) : Nat :=
  let t := timeOf ns (secOf now / 2 ^ 32 * 2 ^ 32 + sec)
  if now + timeOf 0 (2 ^ 31) < t then t - timeOf 0 (2 ^ 32) else t
/-- A reply enters the buffer that NEWEST does not name; remote meters are processed, then NEWEST flips (R402, R403,
R530). -/
def State.acceptReply (s : State) (k : Nat) (f : List Byte) (rx : Nat) : State :=
  let v2 := (s.stall k).major == 2
  let p := f.drop (lsxHdrLen f)
  let flags := if v2 then fieldN p 8 1 else fieldN p 0 1
  let data := if v2 then (p.drop 16).take (s.stInLen k) else (p.drop 4).take (s.stInLen k)
  let acq := timeNear rx (fieldN p 0 4) (fieldN p 4 4)
  let trust := v2 && flags.testBit 1 && s.flag (R.STB_CFG0 k) 30
  let late := decide (rx < acq)
  let s := if trust && late then s.incReg R.STL_CLOCK_AHEAD else s
  let t := if trust && !late then acq else rx
  let b := 1 - s.newest k
  let hd := leBytes 8 (lsxSeq f) ++ leBytes 4 (nsField rx).toNat ++ leBytes 4 (secOf rx) ++ leBytes 4 (nsField t).toNat ++ leBytes 4 (secOf t) ++
    [BitVec.ofNat 8 flags, 0] ++ leBytes 2 data.length ++ List.replicate 36 0
  let s := s.winPut k (bufOfs b) (hd ++ data)
  let s := (List.range (s.winN k 0x1E 1)).foldl (fun s m =>
    let d := s.meterDecl k m
    s.remoteReading (8 * k + m) (meterRange d) (fieldN d 5 1) (fieldN d 8 4) (fieldN data (fieldN d 0 2) (fieldN d 4 1)) t) s
  let s := s.winPut k 0x20 (leBytes 4 b)
  let s := if v2 then s.winPut k 0x1C (leBytes 2 (fieldN p 0xA 2)) else s
  let wasLoc := (s.stall k).loc
  let s := s.setStall k { s.stall k with replied := true, rd := none, rdMiss := 0, misses := 0, flt := flags.testBit 0,
                                         loc := wasLoc && flags.testBit 2, waiting := none }
  let s := if (s.stall k).st = 4 then s.stTo k 3 else s
  let s := s.countReach k (lsxEpoch f)
  if wasLoc && !flags.testBit 2 then s.sendWrite k else s
/-- READ_RSP: a read reply is accepted, or dropped and counted (R391, R401, R402). -/
def execReadRsp (src : NetAddr) (frame : List Byte) (s : State) : Host.Outcome State Fault Refusal :=
  .next ((s.lsxTake src frame).lsxFrom src frame 0x11 fun k s =>
    let x := s.stall k
    let n := if x.major = 2 then fieldN (frame.drop 24) 0xC 2 else fieldN (frame.drop 16) 2 2
    match x.rd with
    | none => s.stErr k 7 0
    | some q =>
      if !seqIs x.major q (lsxSeq frame) then s.stErr k 7 0
      else if n ≠ s.stInLen k ∨ fieldN frame 6 2 < (if x.major = 2 then 16 else 4) + n then s
      else if (s.winN k 0x20 1).testBit 1 then s.setStall k { x with waiting := some (frame, s.time.log), rd := none }
      else s.acceptReply k frame s.time.log)
/-- REPLY_HOLD_WAIT: a reply waiting on the snapshot's hold is written once the hold ends (R402). -/
def execReplyHoldWait (k : Fin 1024) (s : State) : Host.Outcome State Fault Refusal :=
  match (s.stall k.val).waiting with
  | some (f, t) => .next ((s.winPut k.val 0x20 (leBytes 4 (s.newest k.val))).acceptReply k.val f t)
  | none => .next s
/-- A timeout of any kind counts towards HELLO_AFTER (R398). -/
def State.stMiss (s : State) (k : Nat) : State :=
  let x := s.stall k
  let n := x.misses + 1
  let s := s.setStall k { x with misses := n }
  if s.fld (R.STB_CFG1 k) 15 12 ≤ n ∧ (x.st = 3 ∨ x.st = 4) then s.stTo k 2 else s
/-- READ_TIMEOUT (R401, R398, R415). -/
def execReadTimeout (k : Fin 1024) (s : State) : Host.Outcome State Fault Refusal :=
  let k := k.val
  let x := s.stall k
  if x.rd.isNone then .next s
  else
    let s := s.setReg (R.STB_TOUT k) (satIncField (s.reg (R.STB_TOUT k)) 15 0)
    let s := s.setStall k { x with rd := none, rdMiss := x.rdMiss + 1 }
    let s := if s.fld (R.STB_CFG3 k) 3 0 ≤ x.rdMiss + 1 ∧ x.st = 3 then s.stTo k 4 else s
    .next (s.stMiss k)

/-! ### Writes (R404 to R411) -/

/-- A tag on a received frame holds; a failure is counted, and the first after an accepted tag is recorded (R409). -/
def State.tagCheck (s : State) (k : Nat) (f : List Byte) : Bool × State :=
  let n := f.length - 16
  if (s.stall k).major ≠ 2 then (true, s)
  else if f.drop n == s.lsxTag k (f.take n) then (true, s.setStall k { s.stall k with tagOk := true })
  else
    let was := (s.stall k).tagOk
    let s := (s.stErr k 15 8).setStall k { s.stall k with tagOk := false }
    (false, if was then (s.irq (stbPage k) 12).emit evTagFail (stbPage k) [wd k] else s)
/-- WRITE_ACK: ends the write in flight (R406, R407). -/
def execWriteAck (src : NetAddr) (frame : List Byte) (s : State) : Host.Outcome State Fault Refusal :=
  .next ((s.lsxTake src frame).lsxFrom src frame 0x13 fun k s =>
    let r := s.tagCheck k frame
    if !r.1 then r.2
    else
      let s := r.2
      let x := s.stall k
      match x.wr with
      | none => s.stErr k 7 0
      | some q =>
        if !seqIs x.major q (lsxSeq frame) then s.stErr k 7 0
        else
          let s := s.winPut k 0x1800 (s.winBytes k 0x1600 (s.stOutLen k))
          let s := s.setReg64 (R.STB_ACK_LO k) (R.STB_ACK_HI k) q
          let s := (s.setStall k { x with wr := none, dirty := false, misses := 0 }).countReach k (lsxEpoch frame)
          if x.dirty then s.sendWrite k else s)
/-- WRITE_NAK apart from the contest that a fencing opens (R408). -/
def State.nakCore (s : State) (src : NetAddr) (frame : List Byte) : State :=
  (s.lsxTake src frame).lsxFrom src frame 0x14 fun k s =>
    let r := s.tagCheck k frame
    if !r.1 then r.2
    else
      let s := r.2
      let x := s.stall k
      let p := frame.drop (lsxHdrLen frame)
      let ended : Stall := { x with wr := none, misses := 0 }
      match x.wr with
      | none => s.stErr k 7 0
      | some q =>
        if !seqIs x.major q (lsxSeq frame) then s.stErr k 7 0
        else
          let s := s.stErr k 23 16
          match fieldN p 0 1 with
          | 1 =>
            let s := (s.setStall k { ended with fenced := true }).setReg (R.STB_EPOCH k) (wd (fieldN p 4 4))
            let s := ((s.irq (stbPage k) 10).errc (stbPage k) 0x102 k).emit evFenced (stbPage k) [wd k]
            ({ s with plk := { s.plk with fence := true } }).irq 128 11
          | 2 => ((s.setReg64 (R.STB_SEQ_LO k) (R.STB_SEQ_HI k) (fieldN p 8 8 + 1)).setStall k ended).sendWrite k
          | 3 => s.stErr k 15 8
          | 4 => (s.setStall k ended).stTo k 2
          | 5 => s.setStall k { ended with loc := true }
          | _ => s.stErr k 31 24
/-- WRITE_TIMEOUT (R406, R415, R398). -/
def execWriteTimeout (k : Fin 1024) (s : State) : Host.Outcome State Fault Refusal :=
  let k := k.val
  let x := s.stall k
  if x.wr.isNone then .next s
  else
    let s := s.setReg (R.STB_TOUT k) (satIncField (s.reg (R.STB_TOUT k)) 31 16)
    let s := s.setStall k { x with wr := none }
    let s := (if x.st = 3 then s.stTo k 4 else s).stMiss k
    .next (s.sendWrite k)
/-- REFRESH: REFRESH periods have passed without a WRITE (R410). -/
def execRefresh (k : Fin 1024) (s : State) : Host.Outcome State Fault Refusal :=
  .next (if s.fld (R.STB_CFG1 k.val) 23 16 = 0 then s else s.sendRefresh k.val)

/-! ### Snapshot, quality and age (R387, R414) -/

/-- Quality the next snapshot takes. -/
def State.stQuality (s : State) (k : Nat) : Nat :=
  let x := s.stall k
  if !x.replied then 4 else if x.flt ∨ x.st = 5 then 3 else if x.st = 4 ∨ x.st = 2 ∨ !s.stRun k then 1 else 0
/-- Acquisition time of the newest buffer. -/
def State.stAcq (s : State) (k : Nat) : Nat :=
  let o := bufOfs (s.newest k)
  timeNear s.time.log (s.winN k (o + 0x10) 4) (s.winN k (o + 0x14) 4)
/-- An input point of a stall: quality, bytes, acquisition time. -/
def State.stallPoint (s : State) (k o width : Nat) : Nat × List Byte × Nat :=
  if s.stInLen k < o + width then (3, List.replicate width 0, s.stAcq k)
  else
    let q := s.stQuality k
    (q, if q = 4 then List.replicate width 0 else s.winBytes k (bufOfs (s.newest k) + 0x40 + o) width, s.stAcq k)
/-- An output point of a stall is written into its area, or counts in MAP_OOR (R387, R352). -/
def State.stallOut (s : State) (k o : Nat) (l : List Byte) : State :=
  if s.stOutLen k < o + l.length then s.incReg R.STL_MAP_OOR
  else (s.winPut k (0x1400 + o) l).setStall k { s.stall k with written := true }
/-- Sssss_QUAL (R423). -/
def State.stQual (s : State) (k : Nat) : Word :=
  let x := s.stall k
  let age := if x.replied then min 65535 ((s.time.log - s.stAcq k) / tMs) else 0
  wd (s.stQuality k + 16 * s.stShown k + 256 * x.major + 1024 * b2n x.dirty + 2048 * b2n x.wr.isSome + 4096 * b2n x.fenced +
    8192 * b2n (s.stHeld k) + 16384 * b2n x.loc + 32768 * b2n x.flt + 65536 * age)
/-- Counts of the common page: BOUND, STALE_N, V1_N (R422). -/
def State.stCount (s : State) (p : Stall → Bool) : Nat := (s.stalls.filter fun e => p e.2).length

/-! ### Entering and leaving RUN (R99, R417, R418, R424) -/

/-- A stable enters RUN. -/
def State.stbStart (s : State) (n : Nat) : State :=
  (List.range 64).foldl (fun s p =>
    let k := 64 * n + p
    let x := s.stall k
    ((s.setReg (R.STB_TOUT k) 0).setReg (R.STB_ERRS k) 0).setStall k { x with replied := false, written := false, rd := none, wr := none, rdMiss := 0, misses := 0 }) s
/-- A FORCE_STOP of a stable: transactions in flight are discarded and their stalls go STALE (R99). -/
def State.stbForce (s : State) (n : Nat) : State :=
  (List.range 64).foldl (fun s p =>
    let k := 64 * n + p
    let x := s.stall k
    if x.rd.isSome ∨ x.wr.isSome then (s.setStall k { x with rd := none, wr := none }).stTo k 4 else s) s
/-- Configuration of a stable at fault (R424). -/
def State.stbBad (s : State) (n : Nat) : Option (Nat × Nat) :=
  let l := (List.range 64).map fun p => 64 * n + p
  let rowBad (k : Nat) : Option (Nat × Nat) :=
    let per := s.fld (R.STB_CFG0 k) 13 0
    let rd := s.fld (R.STB_CFG0 k) 27 16
    let wr := s.fld (R.STB_CFG1 k) 11 0
    if !s.stEn k then none
    else if per < 100 ∨ 10000 < per ∨ rd < 10 ∨ 4000 < rd ∨ per ≤ rd then some (4, ofsOf (R.STB_CFG0 k))
    else if wr < 10 ∨ 4000 < wr ∨ s.fld (R.STB_CFG1 k) 15 12 = 0 then some (4, ofsOf (R.STB_CFG1 k))
    else if 1024 < s.stInLen k ∨ 512 < s.stOutLen k then some (4, ofsOf (R.STB_CFG2 k))
    else if s.fld (R.STB_CFG3 k) 3 0 = 0 then some (4, ofsOf (R.STB_CFG3 k))
    else if s.reg64 (R.STB_UID_LO k) (R.STB_UID_HI k) = 0 then some (4, ofsOf (R.STB_UID_LO k))
    else if allStalls.any fun j => j != k && s.stEn j && (s.stRun j || j / 64 == n) && s.reg64 (R.STB_UID_LO j) (R.STB_UID_HI j) == s.reg64 (R.STB_UID_LO k) (R.STB_UID_HI k)
      then some (0x101, k)
    else none
  if (s.sec.keys.get (fun _ => {}) (s.fld (R.STB_KEY_SLOT n) 3 0)).use ≠ 2 then some (0x100, 0)
  else l.findSome? rowBad
/-- STL common at fault: the port (R422). -/
def State.stlBad (s : State) : Option (Nat × Nat) :=
  if s.regN R.STL_LSX_PORT < 1024 ∨ 65535 < s.regN R.STL_LSX_PORT then some (4, 0x100) else none
/-- Save item 3: sequence, epoch of the last frame and version of each stall (R418). -/
def State.stallItem (s : State) : List (Nat × Nat × Nat) := allStalls.map fun k => (s.stSeq k, (s.stall k).ep, (s.stall k).major)
/-- Start-up: sequences from the newest committed copy (R418, R700). -/
def State.stallRestore (s : State) : State :=
  match copyNewest s.pwr.saves.stalls with
  | none => s
  | some (_, l) => (l.zip allStalls).foldl (fun s e => if e.1.1 = 0 then s else s.setReg64 (R.STB_SEQ_LO e.2) (R.STB_SEQ_HI e.2) e.1.1) s

end Sys2Proof.Machine
end

