-- ==== Sys2Proof/Machine/Halt.lean ====
section
/-! DEFINITION. What the keeper and the logic engine do to each other: the safety log (R608, R731), the output enables
(R596, R598), the watchdog trip (R600, R601), the halt order and the safe values (R355 to R358). -/

namespace Sys2Proof.Machine

/-! ### Output enables -/

/-- The keeper is in service: no keeper fault, no reset (R596, R598). -/
def State.kprService (s : State) : Bool := s.up 2 && s.kpr.cause == 0 && !s.kpr.stopped
/-- ARMED bits and latched emergency inputs. -/
def State.armed (s : State) : Nat := s.fld R.KPR_SAFE_STAT 11 8
def State.emgLatched (s : State) : Nat := s.fld R.KPR_EMG_STAT 11 8
/-- An emergency input named by ball n is latched. -/
def State.emgOn (s : State) (n : Nat) : Bool := (s.emgLatched &&& s.fld (R.KPR_SAFE_CFG n) 3 0) != 0
/-- A trip stands for ball n. -/
def State.tripOn (s : State) (n : Nat) : Bool := s.kpr.trip && s.flag (R.KPR_SAFE_CFG n) 4
/-- A ball is driven high only without a cause of R596. -/
def State.safeLevel (s : State) (n : Nat) : Bool :=
  s.kprService && s.armed.testBit n && !s.emgOn n && !s.tripOn n && !s.pwr.saving && !s.pwr.clkFault
/-- WDO_N (R64, R598). -/
def State.wdoN (s : State) : Bool := s.kprService && !s.kpr.trip && !s.pwr.clkFault
/-- Bring the shown levels up to date; a ball dropped by an emergency input or a trip loses its ARMED bit (R596). -/
def State.safeUpdate (s : State) : State :=
  let s := (List.range 4).foldl (fun s n => if s.emgOn n || s.tripOn n then s.setFlag R.KPR_SAFE_STAT (8 + n) false else s) s
  let s := (List.range 4).foldl (fun s n => s.setFlag R.KPR_SAFE_STAT n (s.safeLevel n)) s
  let s := (s.setFlag R.KPR_KSTAT 0 s.kprService).setFlag R.KPR_KSTAT 1 s.kpr.trip
  s.setFld R.KPR_KSTAT 7 4 s.kpr.cause

/-! ### Outputs (R352, R357) -/

/-- Drive an output map entry with bytes. -/
def State.drive (s : State) (e : MapEnt) (l : List Byte) : State :=
  match e.kind with
  | 0 => s.stallOut e.index e.ofs l
  | 1 => s.canWrite (e.index / 16) (e.index % 16) e.ofs l
  | 3 =>
    if e.ofs = 0 then s.axTarget e.index (sext 32 (leNat l))
    else s.setAxis e.index { s.axis e.index with curOut := l.headD 0 }
  | 5 => s.gpioOut e.index (l.headD 0 != 0)
  | 6 => s.pulseRate e.index (leNat l)
  | _ => s
/-- OFF for an output map entry (R357). -/
def State.driveOff (s : State) (e : MapEnt) : State :=
  match e.kind with
  | 3 => s.axHalt e.index
  | 5 => s.setFlag R.GPIO_OUT e.index false
  | 6 => (s.pulseCut e.index).pulseRate e.index 0
  | _ => s
/-- Output map of the image in force. -/
def State.outmap (s : State) : List MapEnt := match s.lge.image with | some g => g.outmap | none => []
/-- Record i of the safe-value table in PD_LOG: its action and value. -/
def State.safeRec (s : State) (i : Nat) : Nat × List Byte :=
  let t := s.kpr.pdLog.getD []
  ((t.getD (16 * i) 0).toNat, (t.drop (16 * i + 8)).take 8)
/-- Transmit objects of channel n that a safe value OFF takes out (R476). -/
def State.canOff (s : State) (n : Nat) : List Nat :=
  if !s.lge.safe then []
  else
    let m := s.outmap
    (m.zip (List.range m.length)).filterMap fun e : MapEnt × Nat =>
      if e.1.kind = 1 ∧ e.1.index / 16 = n ∧ (s.safeRec e.2).1 = 2 then some (e.1.index % 16) else none
/-- What the source blocks do at the end of OUTPUT: stalls compare, CAN objects queue (R405, R476). -/
def State.outputEnd (s : State) (anew : Bool) : State :=
  let s := { s with plk := { s.plk with applied := false } }
  let s := s.stallsOutput anew
  (List.range 12).foldl (fun s n => s.canQueue n (s.canOff n)) s
/-- Drive every output map entry by the safe-value table (R356, R357). -/
def State.driveSafe (s : State) : State :=
  let m := s.outmap
  let s := { s with lge := { s.lge with safe := true } }
  let s := (m.zip (List.range m.length)).foldl (fun s (e : MapEnt × Nat) =>
    let r := s.safeRec e.2
    if r.1 = 1 then
      let l := r.2.take e.1.width
      let s := if e.1.kind = 6 then s.pulseCut e.1.index else s
      let s := s.drive e.1 l
      { s with img := wrBytes s.img e.1.addr l }
    else if r.1 = 2 then s.driveOff e.1 else s) s
  s.outputEnd false

/-! ### Halt of the logic engine -/

/-- The items of R71 change. -/
def State.setSaves (s : State) (f : Saves → Saves) : State := { s with pwr := { s.pwr with saves := f s.pwr.saves } }
/-- Save item 2, the newest complete capture, into MRAM with a sequence (R71, R72). -/
def State.captureItem (s : State) (seq : Nat) : State :=
  match s.lge.capture with
  | some c => s.setSaves fun v => { v with retained := copyPut v.retained seq c }
  | none => s
/-- The newest complete capture is written on its own, by R72: it takes the next sequence (R361). -/
def State.captureSave (s : State) : State :=
  let seq := s.pwr.saves.seq + 1
  (s.captureItem seq).setSaves fun v => { v with seq := seq }
/-- The logic cores stop at once and the work of the cycle is dropped (R356). -/
def State.coresStop (s : State) : State :=
  let s := (List.range 4).foldl (fun s c => (s.setFlag (R.LGEC_STAT c) 0 false).setFlag (R.LGEC_STAT c) 1 true) s
  { s.setReg R.LGE_PHASE 0 with lge := { s.lge with calls := [] } }
/-- The LGE takes the keeper's halt order (R356, R361): cores stop, FAULT with the code of the cause, safe values. -/
def State.haltOrder (s : State) (code detail : Nat) : State :=
  if s.shown lgePage = 0 ∨ s.shown lgePage = 4 then s
  else
    let s := ((s.coresStop.fail lgePage code detail).irq lgePage 8).captureSave
    if s.acts then s.driveSafe else { s with lge := { s.lge with safe := true } }
/-- Milliseconds since the newest RUN-marked read. -/
def State.wdElapsed (s : State) : Nat := (s.time.kpr - s.kpr.lastRun) / tMs
/-- The keeper trips the cycle watchdog (R600): cause, then the LGE's error code and DETAIL. -/
def State.trip (s : State) (cause code detail : Nat) : State :=
  let ms := s.wdElapsed
  let k := s.kpr
  let s := { s with kpr := { k with trip := true, wdFrom := none } }
  let s := (((s.setReg R.KPR_TRIP_T_NS (nsField s.time.kpr)).setReg R.KPR_TRIP_T_S (lo32 (secOf s.time.kpr))).setReg R.KPR_LAST_HALT (wd cause)).irq kprPage 8
  let s := s.safeUpdate.slog slTrip (cause + 256 * b2n k.trip + 2 ^ 32 * min ms (2 ^ 32 - 1))
  s.haltOrder code detail
/-- A HALT-marked read (R355): the keeper trips, or records the mark when a trip is already latched (R601); the LGE is
in FAULT with its own code either way. From the latch of a power-fail warning no mark is made (R354). -/
def State.haltMark (s : State) (code detail : Nat) : State :=
  if s.pwr.saving ∨ !s.kprService then s.haltOrder code detail
  else if s.kpr.trip then (s.slog slTrip (1 + 256 + 2 ^ 32 * min s.wdElapsed (2 ^ 32 - 1))).haltOrder code detail
  else s.trip 1 code detail
/-- A STOP-marked read suspends the watchdog (R349, R354). -/
def State.stopMark (s : State) : State := { s with kpr := { s.kpr with wdFrom := none } }
/-- A keeper fault (R610): balls low, halt order, cores stopped, recorded. -/
def State.keeperFault (s : State) (cause : Nat) : State :=
  let s := { s with kpr := { s.kpr with cause := cause, stopped := true, chk := [] } }
  let s := ((s.setFld R.KPR_KSTAT 9 8 0).safeUpdate.errc kprPage 0x100 cause).slog slFault cause
  s.haltOrder 0x105 0

end Sys2Proof.Machine
end

