-- ==== Sys2Proof/Machine/Lge.lean ====
section
/-! DEFINITION. The logic engine (R342 to R385, R725, R726): logic image, process image, snapshot, output, measurement
set, retained memory, online change, forces, service calls. -/

namespace Sys2Proof.Machine

/-- Kind numbers of this chapter's records. -/
abbrev evLayout : Nat := 120
abbrev evPubSkip : Nat := 121
abbrev evOnlineChange : Nat := 122
abbrev evForce : Nat := 123
abbrev evLoadRefused : Nat := 124
abbrev evScFail : Nat := 125
abbrev evForceRefused : Nat := 126
abbrev evCoreExc : Nat := 127

/-- Change the engine's state. -/
def State.setLge (s : State) (f : LgeSt → LgeSt) : State := { s with lge := f s.lge }
/-- Image bytes. -/
def State.imgN (s : State) (a n : Nat) : Nat := rdN s.img a n
def State.imgPut (s : State) (a : Nat) (l : List Byte) : State := { s with img := wrBytes s.img a l }
/-- Bus address in a core's TCM (R107). -/
abbrev tcmAddr (c o : Nat) : Nat := 0x10000000 + 0x80000 * c + o
/-- Cycle number (R345). -/
def State.cycle (s : State) : Nat := s.reg64 R.LGE_CYCLE_LO R.LGE_CYCLE_HI

/-! ### Loading (R368 to R373) -/

/-- A section of the directory: type, count, offset, length. -/
abbrev Sect := Nat × Nat × Nat × Nat
/-- Read the directory of n entries that follows a header of h bytes (R151). -/
def parseDir (b : List Byte) (h n : Nat) : List Sect :=
  (List.range n).map fun i => let e := b.drop (h + 24 * i); (fieldN e 0 2, fieldN e 4 4, fieldN e 8 8, fieldN e 16 8)
/-- Reserved halves of the directory are zero; a nonzero one fails the check of the directory (DESIGN CHOICE, log entry 85). -/
def dirZero (b : List Byte) (h n : Nat) : Bool := (List.range n).all fun i => fieldN b (h + 24 * i + 2) 2 == 0
/-- The directory obeys R151 for an image of `len` bytes whose header has h bytes. -/
def dirOk (l : List Sect) (h len : Nat) : Bool :=
  let lo := h + 24 * l.length
  (l.all fun e => e.2.2.1 % 64 == 0 && decide (lo ≤ e.2.2.1 ∧ e.2.2.1 + e.2.2.2 ≤ len)) &&
    decide (l.Pairwise fun e f => e.1 ≠ f.1 ∧ (e.2.2.2 = 0 ∨ f.2.2.2 = 0 ∨ e.2.2.1 + e.2.2.2 ≤ f.2.2.1 ∨ f.2.2.1 + f.2.2.2 ≤ e.2.2.1))
/-- Section of a type. -/
def sect (l : List Sect) (t : Nat) : Option Sect := l.find? fun e => e.1 == t
/-- Bytes of a section. -/
def sectBytes (b : List Byte) (l : List Sect) (t : Nat) : List Byte :=
  match sect l t with | some e => (b.drop e.2.2.1).take e.2.2.2 | none => []
/-- Cut bytes into records of w bytes. -/
def chunks : Nat → Nat → List Byte → List (List Byte)
  | 0, _, _ => []
  | n + 1, w, b => b.take w :: chunks n w (b.drop w)
/-- Blocks of the TCM section: core, offset and bytes (R369); none if the bytes do not parse into n blocks. -/
def tcmBlocks : Nat → List Byte → Option (List (Nat × Nat × List Byte))
  | 0, b => if b.isEmpty then some [] else none
  | n + 1, b =>
    let len := fieldN b 8 4
    if b.length < 16 + len then none
    else (tcmBlocks n (b.drop (16 + len))).map fun l => (fieldN b 0 1, fieldN b 4 4, (b.drop 16).take len) :: l
def parseTask (e : List Byte) : Task := ⟨fieldN e 0 1, fieldN e 1 1, fieldN e 2 1, fieldN e 4 4⟩
def parseSlice (e : List Byte) : Slice := ⟨fieldN e 0 4, fieldN e 4 4, fieldN e 8 1, fieldN e 9 1 == 1, fieldN e 12 4⟩
def parseMap (e : List Byte) : MapEnt := ⟨fieldN e 0 4, fieldN e 4 1, fieldN e 5 1, fieldN e 6 2, fieldN e 8 2, fieldN e 10 2⟩
def parsePub (e : List Byte) : PubRec := ⟨fieldN e 0 4, fieldN e 4 4, fieldN e 8 2⟩
def parseRegion (e : List Byte) : Region := ⟨fieldN e 0 1, fieldN e 4 4, fieldN e 8 4⟩
def parseChange (e : List Byte) : Change :=
  ⟨fieldN e 0 4, fieldN e 4 1, fieldN e 5 1, fieldN e 6 1, fieldN e 7 1, fieldN e 8 4, fieldN e 16 8, fieldN e 24 8⟩
/-- Records of a section of w-byte records. -/
def records (b : List Byte) (l : List Sect) (t w : Nat) : List (List Byte) :=
  match sect l t with | some e => chunks e.2.1 w (sectBytes b l t) | none => []
/-- Two ranges overlap. -/
def rangesMeet (a n b m : Nat) : Bool := decide (a < b + m ∧ b < a + n ∧ n ≠ 0 ∧ m ≠ 0)
/-- No two of the ranges of a list overlap. -/
def apart (l : List (Nat × Nat)) : Bool := decide (l.Pairwise fun x y => !rangesMeet x.1 x.2 y.1 y.2)
/-- Value of a binary64 pattern. -/
def f64Rat (n : Nat) : Option Rat :=
  let m : Nat := n % 2 ^ 52
  let e : Nat := n / 2 ^ 52 % 2048
  let v : Option Rat :=
    if e = 2047 then none
    else if e = 0 then some ((m : Rat) / (2 ^ 1074 : Nat))
    else if e ≤ 1075 then some (((2 ^ 52 + m : Nat) : Rat) / (2 ^ (1075 - e) : Nat))
    else some (((2 ^ 52 + m) * 2 ^ (e - 1075) : Nat) : Rat)
  if n.testBit 63 then v.map (fun x => -x) else v
/-- Number of an 8-byte field by TYPE; none where the layout of R726 is broken or the value is not finite. -/
def changeVal (ty n : Nat) : Option Rat :=
  match ty with
  | 0 => some (sext 64 n : Rat)
  | 1 => some ((n : Nat) : Rat)
  | 2 => if n < 2 ^ 32 then f32Rat (wd n) else none
  | 3 => f64Rat n
  | 4 => if n ≤ 1 then some ((n : Nat) : Rat) else none
  | _ => none
/-- WIDTH is allowed for TYPE (R726). -/
def widthOk (ty w : Nat) : Bool :=
  match ty with
  | 0 => [1, 2, 4, 8].contains w
  | 1 => [1, 2, 4, 8].contains w
  | 2 => w == 4
  | 3 => w == 8
  | 4 => w == 1
  | _ => false
/-- A value can be stored at its width. -/
def fits (ty w n : Nat) : Bool :=
  match ty with
  | 0 => sext 64 n == sext (8 * w) n
  | 1 => decide (n < 256 ^ w)
  | _ => true
/-- A CHANGE record obeys R371 and R726. -/
def changeOk (c : Change) : Bool :=
  decide (c.kind ≤ 1) && widthOk c.ty c.width && decide (c.loc ≤ 4) && fits c.ty c.width c.lo && fits c.ty c.width c.hi &&
    (if c.loc ≤ 3 then decide (c.addr + c.width ≤ 0x80000) else decide (0x100000 ≤ c.addr ∧ c.addr + c.width ≤ 0x200000)) &&
    (match changeVal c.ty c.lo, changeVal c.ty c.hi with | some a, some b => decide (a ≤ b) | _, _ => false)
/-- An input map entry names a source that its chapter defines (R372 check 7). -/
def inEntryOk (e : MapEnt) : Bool :=
  match e.kind with
  | 0 => decide (e.index < 1024 ∧ e.ofs + e.width ≤ 1024)
  | 1 => decide (e.index < 192 ∧ e.ofs ≤ 63)
  | 2 =>
    if e.index < 8 then (decide (e.ofs ≤ 9) && e.width == 4) || ((e.ofs == 16 || e.ofs == 17) && e.width == 8)
    else if e.index < 40 then (decide (e.ofs ≤ 3) && e.width == 4) || ((e.ofs == 16 || e.ofs == 17) && e.width == 8)
    else decide (1024 ≤ e.index ∧ e.index < 1024 + 8192) && ((decide (e.ofs ≤ 1) && e.width == 8) || ((e.ofs == 2 || e.ofs == 3) && e.width == 4))
  | 3 => decide (e.index < 128 ∧ e.ofs ≤ 5) && (if e.ofs = 4 then e.width == 2 else e.width == 4)
  | 4 => decide (e.index < 25 ∧ e.ofs ≤ 3) && (if e.ofs = 3 then e.width == 1 else e.width == 4)
  | 5 => decide (e.index < 16) && ((e.ofs == 0 && e.width == 1) || (e.ofs == 1 && e.width == 4))
  | _ => false
/-- An output map entry names a sink that its chapter defines. -/
def outEntryOk (e : MapEnt) : Bool :=
  match e.kind with
  | 0 => decide (e.index < 1024 ∧ e.ofs + e.width ≤ 512)
  | 1 => decide (e.index < 192 ∧ e.ofs ≤ 63)
  | 3 => decide (e.index < 128) && ((e.ofs == 0 && e.width == 4) || (e.ofs == 1 && e.width == 1))
  | 5 => decide (e.index < 16) && e.ofs == 0 && e.width == 1
  | 6 => decide (e.index < 16) && e.ofs == 0 && e.width == 4
  | _ => false
/-- Numbers of a list are pairwise distinct. -/
def distinct (l : List Nat) : Bool := decide l.Nodup
/-- The list rises strictly. -/
def rising (l : List Nat) : Bool := decide (l.Pairwise (· < ·))
/-- Checks 2 to 7 of R372 on the bytes of an image: the number of the first that fails. -/
def limgFail (b : List Byte) : Option Nat :=
  let n := fieldN b 0x18 2
  let dir := parseDir b 128 n
  let nIn := fieldN b 0x1C 4
  let nOut := fieldN b 0x20 4
  let nPub := fieldN b 0x24 4
  let nChg := fieldN b 0x28 4
  let cnt (t : Nat) : Nat := match sect dir t with | some e => e.2.1 | none => 0
  let len (t : Nat) : Nat := match sect dir t with | some e => e.2.2.2 | none => 0
  let blocks := tcmBlocks (cnt 1) (sectBytes b dir 1)
  if fieldN b 0 4 ≠ 0x4C474D4C ∨ fieldN b 4 2 ≠ 1 ∨ fieldN b 6 2 ≠ 128 ∨ b.length ≠ fieldN b 0x10 8 ∨ b.length < 128 then some 2
  else if digest32 (b.take 0x60 ++ List.replicate 32 0 ++ b.drop 0x80) ≠ (b.drop 0x60).take 32 then some 3
  else if 32768 < nIn ∨ 16384 < nOut ∨ 16384 < nPub ∨ 65536 < nChg then some 4
  else if b.length < 128 + 24 * n ∨ !dirZero b 128 n ∨ !dirOk dir 128 b.length ∨ !(dir.all fun e => decide (1 ≤ e.1 ∧ e.1 ≤ 9)) ∨
      !([1, 2, 3, 4, 5, 6, 7, 8].all fun t => (sect dir t).isSome) ∨ cnt 4 ≠ nIn ∨ cnt 5 ≠ nOut ∨ cnt 6 ≠ nOut ∨ cnt 7 ≠ nPub ∨ cnt 9 ≠ nChg ∨
      len 2 ≠ 8 * cnt 2 ∨ len 3 ≠ 16 * cnt 3 ∨ len 4 ≠ 16 * cnt 4 ∨ len 5 ≠ 16 * cnt 5 ∨ len 6 ≠ 16 * cnt 6 ∨ len 7 ≠ 16 * cnt 7 ∨
      len 8 ≠ 16 * cnt 8 ∨ len 9 ≠ 32 * cnt 9 ∨ blocks.isNone then some 5
  else
    let bl := blocks.getD []
    let regs := (records b dir 8 16).map parseRegion
    let sl := (records b dir 3 16).map parseSlice
    let ins := (records b dir 4 16).map parseMap
    let outs := (records b dir 5 16).map parseMap
    let pubs := (records b dir 7 16).map parsePub
    if !(bl.all fun e => decide (e.1 ≤ 3 ∧ e.2.1 + e.2.2.length ≤ 0x80000)) ∨ !apart (bl.map fun e => (0x80000 * e.1 + e.2.1, e.2.2.length)) ∨
        !(regs.all fun r => decide (r.core ≤ 3 ∧ r.tcm + r.len ≤ 0x80000)) ∨ 262080 < (regs.map (·.len)).sum ∨
        !(ins.all fun e => decide (0x4000 ≤ e.addr ∧ e.addr + e.width ≤ 0xE0000 ∧ e.addr % (max 1 e.width) = 0 ∧ e.slot ≤ 32767)) ∨
        !(outs.all fun e => decide (0x100000 ≤ e.addr ∧ e.addr + e.width ≤ 0x200000 ∧ e.addr % (max 1 e.width) = 0)) ∨
        !(pubs.all fun e => decide (0x4000 ≤ e.addr ∧ e.addr + 4 ≤ 0xE0000 ∧ e.slot ≤ 32767)) ∨
        !(sl.all fun e => decide (e.core ≤ 3 ∧ e.tcm + e.len ≤ 0x80000 ∧ e.addr + e.len ≤ 0x200000) && (!e.out || decide (0x100000 ≤ e.addr))) ∨
        !apart ((sl.filter (·.out)).map fun e => (e.addr, e.len)) ∨ !distinct (ins.map (·.slot)) ∨ !rising (pubs.map (·.key)) then some 6
    else if !((records b dir 6 16).all fun e => decide (fieldN e 0 1 ≤ 2)) ∨
        !((records b dir 2 8).all fun e => let t := parseTask e; decide (1 ≤ t.div ∧ t.ofs < t.div ∧ t.core ≤ 3)) ∨
        !((records b dir 3 16).all fun e => decide (fieldN e 9 1 ≤ 1)) ∨
        !(((records b dir 9 32).map parseChange).all changeOk) ∨ !distinct (((records b dir 9 32).map parseChange).map (·.sym)) ∨
        !(ins.all fun e => [1, 2, 4, 8].contains e.width && inEntryOk e) ∨
        !(outs.all fun e => [1, 2, 4, 8].contains e.width && outEntryOk e && e.slot == 0) then some 7
    else none
/-- The image that a load of checked bytes brings into force. -/
def limgOf (b : List Byte) : Limg :=
  let dir := parseDir b 128 (fieldN b 0x18 2)
  let cnt := match sect dir 1 with | some e => e.2.1 | none => 0
  let bl := (tcmBlocks cnt (sectBytes b dir 1)).getD []
  { progId := wd (fieldN b 8 4), rev := wd (fieldN b 12 4), fp := BitVec.ofNat 64 (fieldN b 0x30 8), layout := BitVec.ofNat 64 (fieldN b 0x38 8),
    safe := (b.drop 0x40).take 32, digest := (b.drop 0x60).take 32,
    tcm := bl.foldl (fun m e => wrBytes m (tcmAddr e.1 e.2.1) e.2.2) [],
    tasks := (records b dir 2 8).map parseTask, slices := (records b dir 3 16).map parseSlice,
    inmap := (records b dir 4 16).map parseMap, outmap := (records b dir 5 16).map parseMap,
    publish := (records b dir 7 16).map parsePub, retain := (records b dir 8 16).map parseRegion, change := (records b dir 9 32).map parseChange }

/-- Bytes streamed so far. -/
def State.ldBytes (s : State) : List Byte := s.lge.ld.reverse.flatMap fun w => leBytes 4 w.toNat
/-- No image, empty buffers (R372). -/
def State.lgeClear (s : State) : State :=
  let s := { s with tcm := [], img := [], lge := { s.lge with image := none, forces := [], ld := [] } }
  s.setRegs [(R.LGE_IMG_STAT, 0), (R.LGE_PROG_ID, 0), (R.LGE_PROG_REV, 0), (R.LGE_FORCES, 0), (R.LGE_CHANGES, 0)]
/-- LD_BEGIN (R372, R373). -/
def execLdBegin (who : Initiator) (s : State) : Host.Outcome State Fault Refusal :=
  .next (s.gate who R.LGE_LD_CTRL fun s => if s.shown lgePage = 1 then s.lgeClear.setRegs [(R.LGE_LD_COUNT, 0), (R.LGE_LD_STAT, 1)] else s)
/-- LD_DATA. -/
def execLdData (who : Initiator) (val : Word) (s : State) : Host.Outcome State Fault Refusal :=
  .next (s.gate who R.LGE_LD_DATA fun s =>
    if s.fld R.LGE_LD_STAT 2 0 = 1 then
      (s.setLge fun l => { l with ld := val :: l.ld }).setReg R.LGE_LD_COUNT (s.reg R.LGE_LD_COUNT + 4)
    else s)
/-- Digest of the keeper's safe-value table (R590). -/
def State.safeDigest (s : State) : List Byte :=
  if s.kpr.stopped ∨ !s.up 2 then List.replicate 32 0
  else match copyNewest s.kpr.safe with | some (_, t) => digest32 t | none => List.replicate 32 0
/-- Extend measurement register m with a digest (R637); a MEAS record carries m and the digest. -/
def State.measExtend (s : State) (m : Nat) (d : List Byte) : State :=
  let old := (List.range 8).flatMap fun w => leBytes 4 (s.regN (R.SEC_MEAS_W m w))
  let v := digest32 (old ++ d)
  let s := (List.range 8).foldl (fun s w => s.setReg (R.SEC_MEAS_W m w) (wd (fieldN v (4 * w) 4))) s
  (s.incReg (R.SEC_MEAS_CNT m)).emit 160 32 (wd m :: (List.range 8).map fun w => wd (fieldN d (4 * w) 4))
/-- A refused load (R372). -/
def State.ldRefuse (s : State) (check : Nat) : State :=
  ((s.lgeClear.setReg R.LGE_LD_STAT (wd (3 + 256 * check))).irq lgePage 11).emit evLoadRefused lgePage [wd check]
/-- LD_END: the load checks (R372). An END outside STOP with no load in progress is refused by check 1 and leaves the image in
force, since R372 accepts a load only in STOP (log entry 66). -/
def execLdEnd (who : Initiator) (s : State) : Host.Outcome State Fault Refusal :=
  .next (s.gate who R.LGE_LD_CTRL fun s =>
    if s.fld R.LGE_LD_STAT 2 0 ≠ 1 ∧ s.shown lgePage ≠ 1 then
      ((s.setReg R.LGE_LD_STAT (wd (3 + 256))).irq lgePage 11).emit evLoadRefused lgePage [1]
    else if s.fld R.LGE_LD_STAT 2 0 ≠ 1 ∨ s.shown lgePage ≠ 1 then s.ldRefuse 1
    else
      let b := s.ldBytes
      let dir := parseDir b 128 (fieldN b 0x18 2)
      match limgFail b with
      | some n => s.ldRefuse n
      | none =>
        if (b.drop 0x40).take 32 ≠ s.safeDigest ∨ digest32 (sectBytes b dir 6) ≠ s.safeDigest then s.ldRefuse 8
        else
          let g := limgOf b
          let s := { s with tcm := g.tcm, lge := { s.lge with image := some g, ld := [] } }
          let s := s.setRegs [(R.LGE_LD_STAT, 2), (R.LGE_IMG_STAT, 1), (R.LGE_PROG_ID, g.progId), (R.LGE_PROG_REV, g.rev)]
          (s.irq lgePage 11).measExtend 4 g.digest)
/-- LD_ABORT (R373). -/
def execLdAbort (who : Initiator) (s : State) : Host.Outcome State Fault Refusal :=
  .next (s.gate who R.LGE_LD_CTRL fun s =>
    if s.fld R.LGE_LD_STAT 2 0 = 1 then (s.lgeClear.setRegs [(R.LGE_LD_COUNT, 0), (R.LGE_LD_STAT, 0)]).irq lgePage 11 else s)

/-! ### Retained memory (R359 to R362) -/

/-- Offsets of the regions in the retained area: region and where its bytes start. -/
def regionOfs : Nat → List Region → List (Region × Nat)
  | _, [] => []
  | o, r :: t => (r, o) :: regionOfs (o + r.len) t
/-- Take the retained capture (R360). -/
def State.takeCapture (s : State) : State :=
  match s.lge.image with
  | none => s
  | some g =>
    let hd := wrBytes [] 0 (leBytes 8 g.fp.toNat ++ leBytes 8 s.cycle ++ leBytes 4 g.rev.toNat)
    let c := (regionOfs 64 g.retain).foldl (fun c e => wrBytes c e.2 (rdBytes s.tcm (tcmAddr e.1.core e.1.tcm) e.1.len)) hd
    s.setLge fun l => { l with capture := some c }
/-- Fill the retained regions from the first source that matches (R362). -/
def State.retainFill (s : State) (cold : Bool) : State :=
  match s.lge.image with
  | none => s
  | some g =>
    let okc (c : Option (Tab Byte)) : Option (Tab Byte) := c.filter fun t => rdN t 0 8 == g.fp.toNat
    let src := if cold then none else match okc s.lge.capture with
      | some c => some c
      | none => okc ((copyNewest s.pwr.saves.retained).map (·.2))
    let from' : List (Region × List Byte) := match src with
      | some c => (regionOfs 64 g.retain).map fun e => (e.1, rdBytes c e.2 e.1.len)
      | none => g.retain.map fun r => (r, rdBytes g.tcm (tcmAddr r.core r.tcm) r.len)
    let s := { s with tcm := from'.foldl (fun m (e : Region × List Byte) => wrBytes m (tcmAddr e.1.core e.1.tcm) e.2) s.tcm }
    s.setFlag R.LGE_IMG_STAT 2 src.isNone
/-- Entry of the LGE to RUN. -/
def State.lgeStart (s : State) : State :=
  let s := s.retainFill (s.regN R.LGE_START_MODE == 1)
  let s := (List.range 4).foldl (fun s c => (s.setReg (R.LGEC_MAX_US c) 0).setReg (R.LGEC_STAT c) 2) s
  (s.setRegs [(R.LGE_MAX_US, 0), (R.LGE_PHASE, 0)]).setLge fun l =>
    { l with first := true, safe := false, calls := [], cut := false, firstOut := true }

/-! ### Forces (R378 to R380) -/

/-- Bytes of the image that an entry covers. -/
def ForceEnt.bytes (f : ForceEnt) : Nat := if f.width = 0 then 1 else f.width
/-- Entries in use. -/
def State.forceList (s : State) : List ForceEnt := s.lge.forces.filterMap fun e => e.2
/-- Overwrite the forced bytes in an image. -/
def applyForce (m : Tab Byte) (f : ForceEnt) : Tab Byte :=
  if f.width = 0 then
    let b := (rdB m f.addr).toNat
    let v := if f.val % 2 = 1 then b ||| 2 ^ (f.bit % 8) else b &&& (255 - 2 ^ (f.bit % 8))
    wrB m f.addr (BitVec.ofNat 8 v)
  else wrN m f.addr f.width f.val
/-- Two entries cover the same place. -/
def forceSame (f g : ForceEnt) : Bool := f.addr == g.addr && f.width == g.width && (f.width != 0 || f.bit == g.bit)
/-- They overlap: bit entries of one byte overlap only on the same bit. -/
def forceMeet (f g : ForceEnt) : Bool :=
  if f.width = 0 ∧ g.width = 0 then f.addr == g.addr && f.bit == g.bit else rangesMeet f.addr f.bytes g.addr g.bytes
/-- First free index of a force table. -/
def freeForce (t : Tab (Option ForceEnt)) : Nat := ((List.range 1025).find? fun i => (t.get (fun _ => none) i).isNone).getD 1024
/-- Apply one force item to a table: the table, or a code of FC_LAST (R378, R383). -/
def forceItem (t : Tab (Option ForceEnt)) (i : ForceItem) : Except Nat (Tab (Option ForceEnt)) :=
  let f : ForceEnt := ⟨i.addr.toNat, i.width.toNat, i.bit.toNat, i.val.toNat⟩
  let inUse := t.filterMap fun e => e.2.map fun g => (e.1, g)
  if i.op = 2 then .ok []
  else if 2 < i.op.toNat then .error 2
  else if i.op = 1 then
    match inUse.find? fun e => forceSame e.2 f with
    | some e => .ok (t.set (fun _ => none) e.1 none)
    | none => .ok t
  else if f.addr < 0x4000 ∨ rangesMeet f.addr f.bytes 0xE0000 0x20000 ∨ 0x200000 < f.addr + f.bytes ∨ !([0, 1, 2, 4, 8].contains f.width) ∨ 7 < f.bit then .error 2
  else match inUse.find? fun e => forceSame e.2 f with
    | some e => .ok (t.set (fun _ => none) e.1 (some f))
    | none =>
      if inUse.any fun e => forceMeet e.2 f then .error 3
      else if 1024 ≤ freeForce t then .error 1
      else .ok (t.set (fun _ => none) (freeForce t) (some f))
/-- All items of a command, or the code and the item that refuses it whole (R376). -/
def forceItems : Nat → Tab (Option ForceEnt) → List ForceItem → Except (Nat × Nat) (Tab (Option ForceEnt))
  | _, t, [] => .ok t
  | n, t, i :: r => match forceItem t i with | .error c => .error (c, n) | .ok t' => forceItems (n + 1) t' r
/-- Apply a force command (R376 to R378, R564). -/
def State.applyForces (s : State) (items : List ForceItem) : State :=
  if !s.acts then (s.emit evForceRefused lgePage [0])
  else match forceItems 0 s.lge.forces items with
    | .error (c, n) => (s.setReg R.LGE_FC_LAST (wd (c + 256 * n))).emit evForceRefused lgePage [wd c, wd n]
    | .ok t =>
      let s := s.setLge fun l => { l with forces := t }
      let s := ((s.setReg R.LGE_FC_LAST 0).setReg R.LGE_FORCES (wd s.forceList.length)).irq lgePage 12
      items.foldl (fun s i => s.emit evForce lgePage [lo32 (s.cycle + 1), hi32 (s.cycle + 1), i.op.setWidth 32, i.addr, i.val.setWidth 32]) s

/-! ### Online change (R376, R377) -/

/-- Where a symbol's bytes lie in TCM: its own core, or the output slice that covers its image address. -/
def changePlace (g : Limg) (c : Change) : Option Nat :=
  if c.loc ≤ 3 then some (tcmAddr c.loc c.addr)
  else (g.slices.find? fun e => e.out && decide (e.addr ≤ c.addr ∧ c.addr + c.width ≤ e.addr + e.len)).map fun e => tcmAddr e.core (e.tcm + (c.addr - e.addr))
/-- Code of OC_LAST for an item; none where it may be applied. -/
def changeRefused (g : Limg) (i : OcItem) : Option Nat :=
  match g.change.find? fun c => c.sym == i.sym.toNat with
  | none => some 1
  | some c =>
    match changeVal c.ty i.val.toNat, changeVal c.ty c.lo, changeVal c.ty c.hi with
    | some v, some a, some b => if a ≤ v ∧ v ≤ b then none else some 2
    | _, _, _ => some 2
/-- Bytes from an address of TCM on, written into a capture where their places are retained. -/
def retainBytes (g : Limg) : Nat → List Byte → Tab Byte → Tab Byte
  | _, [], cap => cap
  | a, b :: t, cap =>
    retainBytes g (a + 1) t (match (regionOfs 64 g.retain).find? fun e => let o := tcmAddr e.1.core e.1.tcm; decide (o ≤ a ∧ a < o + e.1.len) with
      | some e => wrB cap (e.2 + (a - tcmAddr e.1.core e.1.tcm)) b
      | none => cap)
/-- Write one item into the program, and into the newest capture where its location is retained. -/
def State.changeOne (s : State) (g : Limg) (i : OcItem) : State :=
  match g.change.find? fun c => c.sym == i.sym.toNat with
  | none => s
  | some c =>
    let l := leBytes c.width i.val.toNat
    let rec64 (o : Nat) : List Word := [lo32 (s.cycle + 1), hi32 (s.cycle + 1), i.sym, lo32 o, hi32 o, i.val.setWidth 32, (i.val >>> 32).setWidth 32]
    match changePlace g c with
    | some a =>
      let old := rdN s.tcm a c.width
      let s' := { s with tcm := wrBytes s.tcm a l }
      let s' := s'.setLge fun x => { x with capture := x.capture.map fun cap => retainBytes g a l cap }
      s'.emit evOnlineChange lgePage (rec64 old)
    | none => (s.imgPut c.addr l).emit evOnlineChange lgePage (rec64 (s.imgN c.addr c.width))
/-- Apply an online change command (R376, R377). -/
def State.applyChange (s : State) (items : List OcItem) : State :=
  match s.lge.image with
  | none => (s.setReg R.LGE_OC_LAST 1).emit evOnlineChange lgePage [1]
  | some g =>
    match (items.zip (List.range items.length)).findSome? fun e => (changeRefused g e.1).map fun c => (c, e.2) with
    | some (c, n) => (s.setReg R.LGE_OC_LAST (wd (c + 256 * n))).emit evOnlineChange lgePage [wd c, wd n]
    | none =>
      let s := items.foldl (fun s i => s.changeOne g i) s
      let s := (s.setRegs [(R.LGE_OC_LAST, 0), (R.LGE_CHANGES, s.reg R.LGE_CHANGES + wd items.length)]).setReg64 R.LGE_OC_CYCLE_LO R.LGE_OC_CYCLE_HI (s.cycle + 1)
      s.irq lgePage 13

/-! ### The snapshot (R343 to R351, R379) -/

/-- Quality, bytes and acquisition time of an input map entry (R350). -/
def State.acquire (s : State) (e : MapEnt) : Nat × List Byte × Nat :=
  match e.kind with
  | 0 => s.stallPoint e.index e.ofs e.width
  | 1 => s.canSignal (e.index / 16) (e.index % 16) e.ofs e.width
  | 2 =>
    if e.index < 1024 then s.mtrPoint e.index e.ofs e.width
    else
      let k := e.index - 1024
      let q := s.stQuality (k / 8)
      (if s.remoteBad k then 3 else q, s.remotePoint k e.ofs e.width, s.remoteT k)
  | 3 =>
    let x := s.axis e.index
    let age := s.time.log - x.replyT
    let drvFault : Bool := x.st == .unreferenced || x.st == .stalled || x.st == .fault
    let q := if x.replyNo = 0 then 4 else if drvFault ∨ 10 * tMs < age then 3 else if 100 * tUs < age then 1 else 0
    let op := (s.reg (R.DLK_OPEN_POS e.index)).toInt
    let v : Nat := match e.ofs with
      | 0 => unsext 32 x.p
      | 1 => if op = 0 then 0 else if x.p * op ≤ 0 then 0 else if op.natAbs ≤ x.p.natAbs then 0x3F800000 else (Config.f32Mean x.p op).toNat
      | 2 => unsext 32 x.e
      | 3 => unsext 32 x.dev
      | 4 => (s.axStat e.index).toNat
      | _ => unsext 32 x.speed
    (q, if q = 4 then List.replicate e.width 0 else leBytes e.width v, x.replyT)
  | 4 =>
    let c := s.capCh e.index
    let t := match c.newest with | some x => timeOf x.ns.toNat x.s.toNat | none => 0
    let v := match e.ofs with
      | 0 => nsField t
      | 1 => lo32 (secOf t)
      | 2 => s.reg (R.CAP_CNT e.index)
      | _ => wd (b2n c.level)
    (if c.newest.isNone then 4 else 0, leBytes e.width v.toNat, t)
  | _ => (0, leBytes e.width (if e.ofs = 0 then b2n (s.flag R.GPIO_IN e.index) else s.regN (R.GPIO_EDGE e.index)), s.lge.tSnap)
/-- Address of a status slot. -/
abbrev slotAddr (n : Nat) : Nat := 0xE0000 + 4 * n
/-- Put an input point and its status word; NO_VALUE reads zero (R22, R343). -/
def State.putInput (s : State) (e : MapEnt) : State :=
  let a := s.acquire e
  let age := min 65535 ((s.lge.tSnap - a.2.2) / tMs)
  (s.imgPut e.addr (if a.1 = 4 then List.replicate a.2.1.length 0 else a.2.1)).imgPut (slotAddr e.slot) (leBytes 4 (a.1 + 65536 * (if a.1 = 4 then 0 else age)))
/-- Input forces (R379). -/
def State.forceInputs (s : State) (g : Limg) : State :=
  (s.forceList.filter fun f => decide (f.addr < 0xE0000)).foldl (fun s f =>
    let s := { s with img := applyForce s.img f }
    g.inmap.foldl (fun s e => if rangesMeet e.addr e.width f.addr f.bytes then s.imgPut (slotAddr e.slot) (leBytes 4 2) else s) s) s
/-- The active half of the setpoint table as bytes (R329). -/
def State.spHalf (s : State) : Tab Byte := if s.kpr.gen % 2 = 0 then s.kpr.half0 else s.kpr.half1
/-- Copy the setpoint half, with R351. -/
def State.snapSetpoints (s : State) (g : Limg) : State :=
  let h := s.spHalf
  let s := s.imgPut 0 (rdBytes h 0 0x2040)
  let mis := rdN h 0x30 8 != g.layout.toNat
  let s := if mis then (List.range 512).foldl (fun s i => s.imgPut (0x40 + 16 * i) (List.replicate 12 0)) s else s
  if s.flag R.LGE_IMG_STAT 1 = mis then s
  else ((s.setFlag R.LGE_IMG_STAT 1 mis).irq lgePage 10).emit evLayout lgePage [wd (b2n mis)]
/-- System block (R344). -/
def State.systemBlock (s : State) (g : Limg) : State :=
  let fl := b2n s.lge.first + 2 * b2n (s.flag R.LGE_IMG_STAT 1) + 4 * b2n (s.flag R.LGE_IMG_STAT 2) + 8 * b2n (!s.forceList.isEmpty)
  s.imgPut 0x3000 (leBytes 8 s.cycle ++ leBytes 4 (nsField s.lge.tSnap).toNat ++ leBytes 4 (secOf s.lge.tSnap) ++ leBytes 4 (s.regN R.LGE_LAST_US) ++
    leBytes 4 fl ++ leBytes 4 s.epoch ++ leBytes 4 g.rev.toNat)
/-- The RUN-marked read, and the keeper's answer while a trip is latched (R348, R354, R707). -/
def State.runMark (s : State) : State :=
  if s.kpr.trip && s.kprService && !s.pwr.saving then
    (s.slog slTrip (3 + 256)).haltOrder 0x107 0
  else { s with kpr := { s.kpr with wdFrom := some s.time.kpr, lastRun := s.time.kpr } }
/-- The cycle before ends with the wait of its BOUNDARY (R346, R381). -/
def State.cycleTimes (s : State) : State :=
  if s.regN R.LGE_PHASE = 6 then
    let us := wd ((s.time.log - s.lge.tSnap) / tUs)
    let s := s.setReg R.LGE_LAST_US us
    if (s.reg R.LGE_MAX_US).ult us then s.setReg R.LGE_MAX_US us else s
  else s
/-- Core c has a program instance due in the cycle (R347). -/
def State.coreDue (s : State) (g : Limg) (c : Nat) : Bool := g.tasks.any fun t => t.core == c && s.cycle % max 1 t.div == t.ofs
/-- CYCLE_SNAPSHOT: a logic cycle starts (R346). In a drain it is the last cycle, and its read is STOP-marked. -/
def execCycleSnapshot (s : State) : Host.Outcome State Fault Refusal :=
  match s.lge.image with
  | none => .next s
  | some g =>
    if !s.active lgePage ∨ !s.acts ∨ s.pwr.saving ∨ (s.regN R.LGE_PHASE ≠ 0 ∧ s.regN R.LGE_PHASE ≠ 6) then .next s
    else
      let s := s.cycleTimes
      let s := if s.running lgePage then s.runMark else s.stopMark
      if s.shown lgePage = 4 then .next s
      else
        let s := (s.setReg64 R.LGE_CYCLE_LO R.LGE_CYCLE_HI (s.cycle + 1)).setLge fun l => { l with tSnap := s.time.log, calls := [] }
        let s := s.snapSetpoints g
        let s := g.inmap.foldl (fun s e => s.putInput e) s
        let s := (s.forceInputs g).systemBlock g
        let s := (g.slices.filter fun e => !e.out).foldl (fun s e =>
          { s with tcm := wrBytes s.tcm (tcmAddr e.core e.tcm) (rdBytes s.img e.addr e.len) }) s
        let s := (List.range 4).foldl (fun s c => s.setReg (R.LGEC_STAT c) (if s.coreDue g c then 1 else 2)) s
        .next (s.setReg R.LGE_PHASE 2)

/-! ### Output (R346, R352, R379) -/

/-- Output slices gathered, output forces applied, every entry driven. -/
def State.gatherOutput (s : State) (g : Limg) : State :=
  let s := (g.slices.filter fun e => e.out).foldl (fun s e => s.imgPut e.addr (rdBytes s.tcm (tcmAddr e.core e.tcm) e.len)) s
  { s with img := (s.forceList.filter fun f => decide (0x100000 ≤ f.addr)).foldl applyForce s.img }
/-- Drive the output map from the image. -/
def State.driveAll (s : State) (g : Limg) : State := g.outmap.foldl (fun s e => s.drive e (rdBytes s.img e.addr e.width)) s
/-- EXECUTE times of the cores (R384); a core with nothing due takes none. -/
def State.execTimes (s : State) (us : List Word) : State :=
  (List.range 4).foldl (fun s c =>
    let t := if s.flag (R.LGEC_STAT c) 0 then us.getD c 0 else 0
    let s := (s.setReg (R.LGEC_EXEC_US c) t).setReg (R.LGEC_STAT c) 2
    if (s.reg (R.LGEC_MAX_US c)).ult t then s.setReg (R.LGEC_MAX_US c) t else s) s

/-! ### The measurement set (R363 to R367) -/

/-- Buffers of the measurement quay and the control block. -/
abbrev setBase (i : Nat) : Nat := 0x21700000 + 0x55000 * i
abbrev setCtl (i : Nat) : Nat := 0x217FF000 + 16 * i
/-- A published entry (R367): binary32 value to units of 2^-32, quality and age at T_PUB. -/
def State.pubEntry (s : State) (p : PubRec) (tPub : Nat) : List Byte :=
  let st := s.imgN (slotAddr p.slot) 4
  let age := min 65535 (st / 65536 + (tPub - s.lge.tSnap) / tMs)
  let bad : Nat × Nat := (3, 0)
  let qv : Nat × Nat := match f32Rat (wd (s.imgN p.addr 4)) with
    | none => bad
    | some v => if v ≤ -(2147483648 : Rat) ∨ (2147483648 : Rat) ≤ v then bad else (st % 8, unsext 64 (rneQ (v * 4294967296)))
  leBytes 4 p.key ++ [BitVec.ofNat 8 qv.1, 0] ++ leBytes 2 age ++ leBytes 8 qv.2
/-- PUBLISH: a set is written into the free buffer with the smallest SET_NO, or skipped (R364, R366). -/
def State.publish (s : State) : State :=
  match s.lge.image with
  | none => s
  | some g =>
    let s := s.setLge fun l => { l with setNo := l.setNo + 1, tPub := s.time.log }
    let free := (List.range 3).filter fun i => rdN s.yard (setCtl i + 8) 4 % 8 == 0
    let best := free.foldl (fun (b : Option Nat) i => match b with
      | none => some i
      | some j => if rdN s.yard (setCtl i) 8 < rdN s.yard (setCtl j) 8 then some i else some j) none
    match best with
    | none => ((s.incReg R.LGE_PUB_SKIPS).irq lgePage 14).emit evPubSkip lgePage [lo32 s.lge.setNo]
    | some i =>
      let subs := g.publish.any fun p => g.inmap.any fun e => e.slot == p.slot && s.forceList.any fun f => rangesMeet e.addr e.width f.addr f.bytes
      let fl := b2n s.lge.first + 2 * b2n (s.flag R.LGE_IMG_STAT 1) + 4 * b2n subs
      let hd := leBytes 8 s.lge.setNo ++ leBytes 8 s.cycle ++ leBytes 4 (nsField s.lge.tPub).toNat ++ leBytes 4 (secOf s.lge.tPub) ++
        leBytes 4 (nsField s.lge.tSnap).toNat ++ leBytes 4 (secOf s.lge.tSnap) ++ leBytes 4 g.publish.length ++ leBytes 4 fl ++ leBytes 4 g.rev.toNat ++
        List.replicate 20 0
      let echo := rdBytes s.img 0 14 ++ [0, 0] ++ rdBytes s.img 0x30 8 ++ rdBytes s.img 0x20 8 ++ List.replicate 32 0
      let ents := (List.range 256).flatMap fun j => rdBytes s.img (0x40 + 16 * j) 12
      let y := wrBytes s.yard (setBase i) (hd ++ echo ++ ents ++ g.publish.flatMap fun p => s.pubEntry p s.lge.tPub)
      if s.locked 5 then { s with yard := wrN y (setCtl i) 8 s.lge.setNo } else s

/-! ### Service calls (R374, R375, R725) -/

/-- Core c runs its programs. -/
def State.coreRuns (s : State) (c : Nat) : Bool := s.active lgePage && s.regN R.LGE_PHASE == 2 && s.flag (R.LGEC_STAT c) 0 && !s.flag (R.LGEC_STAT c) 2
/-- Values a call returns in a0 to a3. -/
def State.ecallRet (s : State) (c : Nat) (l : List Word) : State := s.setLge fun x => { x with ret := x.ret.set (fun _ => []) c l }
/-- Statuses of a call. -/
abbrev scOk : Word := 0
abbrev scRefused : Word := 0xFFFFFFFF
abbrev scBadArg : Word := 0xFFFFFFFE
/-- TIME. -/
def execTime (c : Fin 4) (s : State) : Host.Outcome State Fault Refusal :=
  .next (if s.coreRuns c.val then
    s.ecallRet c.val [scOk, nsField s.time.log, lo32 (secOf s.time.log), wd (secOf s.time.log / 2 ^ 32 % 65536)] else s)
/-- CYCLE. -/
def execCycle (c : Fin 4) (s : State) : Host.Outcome State Fault Refusal :=
  .next (if s.coreRuns c.val then s.ecallRet c.val [scOk, lo32 s.cycle, hi32 s.cycle, s.reg R.LGE_LAST_US] else s)
/-- REG_WRITE: queued for OUTPUT (R374, R375). -/
def execRegWrite (c : Fin 4) (addr val : Word) (s : State) : Host.Outcome State Fault Refusal :=
  let a := addr.toNat
  if !s.coreRuns c.val then .next s
  else if a % 4 ≠ 0 ∨ a < 0x40000000 ∨ 0x40100000 ≤ a ∨ !isPage (pageOf a) then .next (s.ecallRet c.val [scBadArg])
  else if planeOf (pageOf a) ≠ .control ∨ ofsOf a = 0x00C ∨ (0x100 ≤ ofsOf a ∧ ofsOf a < 0x800) ∨ isKp a ∨ 256 ≤ s.lge.calls.length then
    .next (s.ecallRet c.val [scRefused])
  else .next ((s.setLge fun l => { l with calls := l.calls ++ [(c.val, addr, val)] }).ecallRet c.val [scOk])
/-- STALL_READ: window bytes as they stand (R374). -/
def execStallRead (c : Fin 4) (stall ofs len tcmOfs : Word) (s : State) : Host.Outcome State Fault Refusal :=
  if !s.coreRuns c.val then .next s
  else if 1024 ≤ stall.toNat ∨ len.toNat = 0 ∨ 256 < len.toNat ∨ 0x4000 < ofs.toNat + len.toNat ∨ 0x80000 < tcmOfs.toNat + len.toNat then
    .next (s.ecallRet c.val [scBadArg])
  else .next ({ s with tcm := wrBytes s.tcm (tcmAddr c.val tcmOfs.toNat) (s.winBytes stall.toNat ofs.toNat len.toNat) }.ecallRet c.val [scOk])
/-- EVENT: a record at severity INFO (R374). -/
def execEvent (c : Fin 4) (code d1 d2 : Word) (s : State) : Host.Outcome State Fault Refusal :=
  if !s.coreRuns c.val then .next s
  else if code.toNat < 0xF000 ∨ 0xF0FF < code.toNat then .next (s.ecallRet c.val [scBadArg])
  else .next ((s.submit { code := .num (code.setWidth 16), sev := 0, plane := .control, src := pidOf lgePage, body := [d1, d2, 0] }).ecallRet c.val [scOk])
/-- A core exception (R355, R358, R725). -/
def execCoreException (c : Fin 4) (mcause : Byte) (pc : Word) (s : State) : Host.Outcome State Fault Refusal :=
  if !s.coreRuns c.val then .next s
  else
    let s := (s.setRegs [(R.LGE_EXC_CORE, wd (c.val + 256 * mcause.toNat)), (R.LGE_EXC_PC, pc)]).setFlag (R.LGEC_STAT c.val) 2 true
    .next (((s.irq lgePage 9).emit evCoreExc lgePage [wd c.val, wd mcause.toNat, pc]).haltMark 0x102 c.val)
/-- An uncorrectable TCM error (R355, R385). -/
def execTcmUe (c : Fin 4) (s : State) : Host.Outcome State Fault Refusal :=
  if s.shown lgePage = 0 ∨ s.shown lgePage = 4 then .next s
  else .next (((s.statBit lgePage sbUe true).irq lgePage 5).haltMark 0x103 c.val)
/-- FT_INDEX selects the entry that FT_ADDR, FT_VAL_LO and FT_VAL_HI show (R383). -/
def execFtIndex (who : Initiator) (val : Word) (s : State) : Host.Outcome State Fault Refusal :=
  .next (s.gate who R.LGE_FT_INDEX fun s => s.setReg R.LGE_FT_INDEX (val &&& 0x3FF))
/-- The entry FT_INDEX selects: address word and value. -/
def State.ftShown (s : State) : Word × Nat :=
  match s.lge.forces.get (fun _ => none) (s.regN R.LGE_FT_INDEX % 1024) with
  | none => (0, 0)
  | some f =>
    let code := if f.width = 0 then 0 else if f.width = 1 then 1 else if f.width = 2 then 2 else if f.width = 4 then 3 else 4
    (wd (f.addr + 2 ^ 22 * f.bit + 2 ^ 25 * code + 2 ^ 31), f.val)

end Sys2Proof.Machine
end

