-- ==== Sys2Proof/Machine/Pass.lean ====
section
/-! DEFINITION. The end of a pass of the Sequencer (R337, R340): its registers, causes and record. -/

namespace Sys2Proof.Machine

abbrev dsqPage : Nat := 57
abbrev evPass : Nat := 140
abbrev evIsolated : Nat := 145
/-- Change the Sequencer's state. -/
def State.setDsq (s : State) (f : DsqSt → DsqSt) : State := { s with dsq := f s.dsq }
/-- Control word HOLD of set buffer i (R363). -/
abbrev setHold (i : Nat) : Nat := setCtl i + 8
/-- Release a set buffer unless another pass still uses it (R365). -/
def State.setRelease (s : State) (b : Option Nat) : State :=
  match b with
  | none => s
  | some i =>
    let used (p : Option Pass) : Bool := match p with | some x => x.buf == some i | none => false
    if used s.dsq.est || used s.dsq.dsp || !s.up 5 then s
    else { s with yard := wrN s.yard (setHold i) 4 (rdN s.yard (setHold i) 4 &&& 0xFFFFFFFE) }
/-- Isolated nodes of a pass, reported when the set changed (R301). -/
def State.reportIso (s : State) (l : List Nat) : State :=
  let s := s.setReg R.DSQ_ISO_COUNT (wd l.length)
  if l = s.dsq.iso then s
  else ((s.setDsq fun d => { d with iso := l }).irq dsqPage 12).emit evIsolated dsqPage [wd l.length, wd (l.headD 0)]
/-- An EST pass ends with a status, and reports the isolated nodes of its last evaluation (R301): the set of the pass before it
where it made none. -/
def State.estEnd (s : State) (status : Nat) : State :=
  match s.dsq.est with
  | none => s
  | some p =>
    let us := (s.time.nsu - p.start) / tUs
    let s := (((s.setDsq fun d => { d with est := none }).reportIso p.iso).setRelease p.buf).setFlag R.DSQ_PASS_STAT 0 false
    let s := (s.setRegs [(R.DSQ_EST_LAST, wd (status + 256 * (p.flags % 2 ^ 20))), (R.DSQ_EST_US, wd us)]).irq dsqPage 8
    let s := if 3 ≤ status then s.irq dsqPage 10 else s
    s.emitSev evPass (if 3 ≤ status then 2 else 0) dsqPage [1, s.reg R.DSQ_EST_TAG, wd status, wd p.flags, wd us]
/-- A DSP pass ends with a status; `rexp` is the exponent of the primal residual. -/
def State.dspEnd (s : State) (status : Nat) (rexp : Word) : State :=
  match s.dsq.dsp with
  | none => s
  | some p =>
    let ms := (s.time.nsu - p.start) / tMs
    let s := ((s.setDsq fun d => { d with dsp := none }).setRelease p.buf).setFlag R.DSQ_PASS_STAT 1 false
    let s := s.setRegs [(R.DSQ_DSP_LAST, wd (status + 256 * (p.flags % 2 ^ 20))), (R.DSQ_DSP_MS, wd ms),
      (R.DSQ_DSP_ITERS, wd (p.iter % 65536 + 65536 * (p.refac % 256)))]
    let s := s.irq dsqPage 9
    let s := if 3 ≤ status then s.irq dsqPage 10 else s
    s.emitSev evPass (if 3 ≤ status then 2 else 0) dsqPage [2, s.reg R.DSQ_DSP_TAG, wd status, wd p.flags, wd ms, wd p.iter, rexp]
/-- A HYD pass ends. -/
def State.hydEnd (s : State) : State := (s.setDsq fun d => { d with hyd := none }).setFlag R.DSQ_PASS_STAT 2 false
/-- A pass runs only while a model is in force and the NSU and the BTK are in RUN: else it ends at once (R287). -/
def State.passesDown (s : State) : State :=
  if s.mdl.act && s.running 48 && s.running 56 then s
  else
    let st := if s.mdl.act then 9 else 8
    let note (k : Nat) (on : Bool) (s : State) : State := if on && st = 9 then s.errc dsqPage 0x102 k else s
    let s := (note 1 s.dsq.est.isSome s).estEnd st
    let s := (note 2 s.dsq.dsp.isSome s).dspEnd st 0
    if s.dsq.hyd.isSome then ((note 3 true s).setDsq fun d => { d with biasOld := true }).hydEnd else s
/-- Passes running when the side stops acting, or the Sequencer stops, end STOPPED (R288, R322). -/
def State.passesStopped (s : State) : State := ((s.estEnd 12).dspEnd 12 0).hydEnd

end Sys2Proof.Machine
end

