-- ==== Sys2Proof/Machine/Plk.lean ====
section
/-! DEFINITION. Duplex pair operation (R548 to R585): roles, epochs, heartbeats, the state frame, takeover, contest,
leases and start-up resolution. -/

namespace Sys2Proof.Machine

abbrev plkPage : Nat := 128
/-- Kind numbers of this chapter's records. -/
abbrev evRole : Nat := 130
abbrev evPathLost : Nat := 131
abbrev evSideClash : Nat := 132
abbrev evContest : Nat := 133
abbrev evTakeover : Nat := 134
abbrev evStateRev : Nat := 135
abbrev evStateMissing : Nat := 136
abbrev evSwitch : Nat := 137
abbrev evContestEnd : Nat := 138
abbrev evPairVersion : Nat := 157
/-- Role codes (R548). -/
abbrev rResolving : Nat := 0
abbrev rPrimary : Nat := 1
abbrev rStandby : Nat := 2
abbrev rTaking : Nat := 3
abbrev rDeposed : Nat := 4
abbrev rUnpaired : Nat := 5

/-- Change pair state. -/
def State.setPlk (s : State) (f : PlkSt → PlkSt) : State := { s with plk := f s.plk }
/-- Strapped side (R43), mode and protocol. -/
def State.sideB (s : State) : Bool := s.flag R.PLK_PAIR_STAT 10
def State.paired (s : State) : Bool := s.fld R.PLK_CFG 1 0 == 1
def State.ownProto (s : State) : Nat := if s.fld R.PLK_CFG 3 2 = 2 then 2 else 1
def State.proto (s : State) : Nat := s.fld R.PLK_PAIR_STAT 7 6
/-- Lease mode: the pair protocol is 1, or this side offers no other (R577). -/
def State.leaseMode (s : State) : Bool := s.proto == 1 || s.ownProto == 1
/-- FIT: an image is loaded and the LGE is in RUN or FAULT (R556). -/
def State.fit (s : State) : Bool := s.flag R.LGE_IMG_STAT 0 && (s.shown lgePage == 3 || s.shown lgePage == 4)
/-- The pair link can carry frames: PLK in RUN or DRAIN, PD_SDS ON and a lane up. -/
def State.pairLink (s : State) : Bool := s.active plkPage && s.locked 7 && s.fld R.PLK_LANE_STAT 1 0 != 0
/-- A frame of a queue with the header of R555 before its payload; it carries the queue's next SEQ. -/
def State.plkFrame (s : State) (ty queue index : Nat) (final : Bool) (payload : List Byte) : List Byte :=
  let fl := b2n s.sideB + 2 * b2n s.acts + 4 * b2n s.fit + 8 * b2n final
  let pr := if s.proto = 0 then s.ownProto else s.proto
  [BitVec.ofNat 8 pr, BitVec.ofNat 8 ty, BitVec.ofNat 8 fl, BitVec.ofNat 8 queue] ++ leBytes 4 (s.plk.seqTx.get (fun _ => 0) queue) ++
    leBytes 4 s.epoch ++ leBytes 2 payload.length ++ leBytes 2 index ++ leBytes 4 (nsField s.time.log).toNat ++ leBytes 4 (secOf s.time.log) ++ payload
/-- The queue's next SEQ is used. -/
def State.seqNext (s : State) (queue : Nat) : State :=
  s.setPlk fun p => { p with seqTx := p.seqTx.set (fun _ => 0) queue ((p.seqTx.get (fun _ => 0) queue + 1) % 2 ^ 32) }
/-- Send a frame of a queue on both lanes (R553). -/
def State.plkSend (s : State) (ty queue index : Nat) (final : Bool) (payload : List Byte) : State :=
  if !s.pairLink then s
  else
    let f := s.plkFrame ty queue index final payload
    ((s.seqNext queue).lanesPut ty queue f).setPlk fun p => { p with lastTx := f }
/-- Heartbeat payload (R556). -/
def State.hbPayload (s : State) : List Byte :=
  let fl := b2n s.plk.contest + 2 * b2n s.plk.lease.isSome + 4 * b2n (s.flag R.PLK_PAIR_STAT 8) + 8 * b2n s.plk.resync
  let cyc := if s.acts then s.cycle else match s.plk.image with | some g => g.cycle | none => 0
  [BitVec.ofNat 8 s.role, BitVec.ofNat 8 s.ownProto] ++ leBytes 2 fl ++ leBytes 8 cyc ++ leBytes 2 (s.fld R.PLK_REACH_LAST 10 0) ++ [0, 0] ++
    leBytes 4 (s.regN R.LGE_PROG_REV) ++ leBytes 4 (s.regN R.DSQ_MODEL_ACT_REV) ++ rdBytes s.spHalf 0x30 8
/-- HEARTBEAT_SEND: every 1 ms, the same heartbeat with one header on the pair link and, tagged, on the witness path (R556, R557). -/
def execHeartbeatSend (s : State) : Host.Outcome State Fault Refusal :=
  if !s.running plkPage then .next s
  else
    let x := s.plkFrame 1 0 0 false s.hbPayload
    let f := x ++ kmac256 (s.slotKey (s.fld R.PLK_WIT_KEY_SLOT 3 0)) x 16 "PLK2 WIT"
    let ip := (List.range 4).flatMap fun i => leBytes 4 (s.regN (R.PLK_WIT_ADDR i))
    let s := if s.pairLink then s.plkSend 1 0 0 false s.hbPayload else s.seqNext 0
    .next ((List.range 6).foldl (fun s i => if (s.fld R.PLK_WIT_PORTS 5 0).testBit i then s.ethSendTo i .wit ip f else s) s)

/-! ### Roles and epochs (R549 to R552) -/

/-- Take a role (R585). Where the side stops acting, cores are held with a STOP-marked read, pulses fall and passes end;
where it starts, the next cycle is a first one with the retained memory filled (R349, R362, R288). -/
def State.setRole (s : State) (r : Nat) : State :=
  if s.role = r then s
  else
    let old := s.role
    let was := s.acts
    let s := ((s.setFld R.PLK_PAIR_STAT 2 0 r).irq plkPage 8).emit evRole plkPage [wd old, wd r]
    if was && !s.acts then
      let s := if s.running lgePage then s.coresStop.stopMark else s
      let s := (List.range 16).foldl (fun s o => s.pulseCut o) s
      s.passesStopped
    else if !was && s.acts then
      let s := if s.active lgePage then s.retainFill false else s
      s.setLge fun l => { l with first := true, firstOut := true }
    else s
/-- Stand down to a role: at once, or at the end of OUTPUT while the cycle is in SNAPSHOT, EXECUTE or OUTPUT (R552). A contest
that runs ends with it. -/
def State.standDown (s : State) (r : Nat) : State :=
  let ph := s.regN R.LGE_PHASE
  let s := (s.setPlk fun p => { p with contest := false }).setFlag R.PLK_PAIR_STAT 3 false
  if s.acts && s.active lgePage && (ph == 1 || ph == 2 || ph == 3) then s.setPlk fun p => { p with standTo := some r }
  else (s.setRole r).setPlk fun p => { p with standTo := none, resync := p.resync || r == rStandby }
/-- Greatest epoch the side knows (R550). -/
def State.topEpoch (s : State) : Nat :=
  let m := max (max s.epoch (s.regN R.PLK_PARTNER_EPOCH)) s.plk.epochNv
  allStalls.foldl (fun m k => max m (s.regN (R.STB_EPOCH k))) m
/-- Least epoch of its own parity above every epoch it knows. -/
def State.nextEpoch (s : State) : Nat :=
  let n := s.topEpoch + 1
  if n % 2 = b2n s.sideB then n else n + 1
/-- Take the next epoch into force, committed to MRAM; PLK faults when it would pass 0xFFFF_FFFE (R550). -/
def State.takeEpoch (s : State) : State :=
  let e := s.nextEpoch
  if 0xFFFFFFFE < e then (if s.acts ∨ s.role = rTaking then s.standDown rDeposed else s).fail plkPage 0x104 0
  else (s.setReg R.PLK_EPOCH (wd e)).setPlk fun p => { p with epochNv := e, epochOk := true }

/-! ### Contest and takeover (R567, R568, R572 to R576) -/

/-- A contest opens, or continues the one that runs (R572). -/
def State.openContest (s : State) : State :=
  if s.plk.contest then s
  else
    let s := ((s.setPlk fun p => { p with contest := true }).setFlag R.PLK_PAIR_STAT 3 true).irq plkPage 10
    ((s.emit evContest plkPage []).clearReach).probeStalls
/-- A stall or drive link has reported this side fenced: a primary in protocol 2 opens a contest (R567). -/
def State.fenceContest (s : State) : State :=
  if !s.plk.fence then s
  else
    let s := s.setPlk fun p => { p with fence := false }
    if s.active plkPage && s.role == rPrimary && s.proto == 2 then s.openContest else s
/-- WRITE_NAK (R408, R567). -/
def execWriteNak (src : NetAddr) (frame : List Byte) (s : State) : Host.Outcome State Fault Refusal := .next (s.nakCore src frame).fenceContest
/-- DLK_REPLY (R488, R512, R567). -/
def execDlkReply (n : Fin 8) (d : Fin 16) (reply : List Byte) (s : State) : Host.Outcome State Fault Refusal := .next (s.dlkReply n d reply).fenceContest
/-- Both paths are silent. -/
def State.bothSilent (s : State) : Bool := !s.flag R.PLK_PAIR_STAT 4 && !s.flag R.PLK_PAIR_STAT 5
/-- A standby may take over: protocol 2, FIT and the LGE in RUN (R567). -/
def State.mayTake (s : State) : Bool := s.running plkPage && s.role == rStandby && s.proto == 2 && s.fit && s.running lgePage
/-- Become TAKING (R568); a contest opens with it when both paths are silent. -/
def State.takeOver (s : State) (contest : Bool) : State :=
  let s := (s.setPlk fun p => { p with epochOk := false, applied := false, finalReq := false }).setRole rTaking
  if contest then s.openContest else s
/-- The partner's FIT has been clear for 3 consecutive heartbeats (R567). -/
def State.takeCause (s : State) : Bool := decide (3 ≤ s.plk.fitClear)
/-- TAKEOVER: a standby decides to act (R567, R568). -/
def execTakeover (s : State) : Host.Outcome State Fault Refusal :=
  if s.mayTake && (s.bothSilent || s.takeCause) then .next (s.takeOver s.bothSilent) else .next s
/-- Section of the committed image: page p (R559). -/
def State.stPage (s : State) (p : Nat) : List Byte :=
  match s.plk.image with | some g => g.pages.get (fun _ => List.replicate 4096 0) p | none => List.replicate 4096 0
/-- The image holds the sections that only protocol 2 carries (R582). -/
def State.fullSections (s : State) : Bool := s.plk.image.isSome && s.proto != 1
/-- EPOCH_COMMIT: the new epoch is in MRAM, the axes that the image calls REFERENCED are rebased, every other one is UNREFERENCED,
and PRIMARY frames begin (R550, R568, R511, R582). -/
def execEpochCommit (s : State) : Host.Outcome State Fault Refusal :=
  if !s.active plkPage ∨ s.role ≠ rTaking ∨ s.plk.epochOk then .next s
  else
    let s := s.takeEpoch
    if !s.plk.epochOk then .next s
    else
      let pg := s.stPage 325
      let full := s.fullSections
      .next ((List.range 128).foldl (fun s a =>
        let e := pg.drop (32 * a)
        if full && (fieldN e 6 2).testBit 0 then
          (s.setAxis a { s.axis a with adrOfs := fieldN e 4 2 }).axRebase a (sext 32 (fieldN e 0 4)) (sext 32 (fieldN e 8 4))
        else s.setAxis a { (s.axis a).rest with st := .unreferenced, referenced := false, rebased := false }) s)
/-- Force table of the image (R559). -/
def State.imageForces (s : State) : Tab (Option ForceEnt) :=
  (List.range 1024).foldl (fun t i =>
    let e := (s.stPage (343 + i / 256)).drop (16 * (i % 256))
    if fieldN e 6 1 % 2 = 1 then t.set (fun _ => none) i (some ⟨fieldN e 0 4, fieldN e 5 1, fieldN e 4 1, fieldN e 8 8⟩) else t) []
/-- Bytes of a run of pages into a table from an offset. -/
def State.pagesInto (s : State) (m : Tab Byte) (p n base : Nat) : Tab Byte :=
  (List.range n).foldl (fun m i => wrBytes m (base + 4096 * i) (s.stPage (p + i))) m
/-- IMAGE_APPLIED: the committed image is applied, sections it lacks as after power-on, and the side becomes PRIMARY (R568, R563,
R582). `applied` stays set until the first OUTPUT, before which the CAN channels send no frame (R549). -/
def execImageApplied (s : State) : Host.Outcome State Fault Refusal :=
  if !s.active plkPage ∨ s.role ≠ rTaking ∨ !s.plk.epochOk then .next s
  else
    let valid := s.flag R.PLK_PAIR_STAT 8
    let s := if !valid then s.emit evStateMissing plkPage [] else s
    let cyc := match s.plk.image with | some g => g.cycle | none => 0
    let s := if s.plk.image.isSome then
        let revOk := fieldN (s.stPage 0) 0x14 4 == s.regN R.LGE_PROG_REV
        let clear := s.img.filter fun (e : Nat × Byte) => decide (e.1 < 0x100000)
        let s := { s with img := if revOk && valid then s.pagesInto clear 65 256 0x100000 else clear }
        let s := s.setLge fun l => { l with capture := some (s.pagesInto [] 1 64 0) }
        let s := if s.fullSections then s.setLge fun l => { l with forces := s.imageForces } else s.setLge fun l => { l with forces := [] }
        (s.setReg R.LGE_FORCES (wd s.forceList.length)).setReg64 R.LGE_CYCLE_LO R.LGE_CYCLE_HI cyc
      else ({ s with img := s.img.filter fun (e : Nat × Byte) => decide (e.1 < 0x100000) }.setLge
        fun l => { l with capture := none, forces := [] }).setReg R.LGE_FORCES 0
    let s := if s.fullSections then s else (s.setFlag R.MTR_STAT2 0 true).emit evCatchupShort 176 [0]
    let s := (s.setPlk fun p => { p with applied := true }).incReg R.PLK_TAKEOVERS
    let s := s.emit evTakeover plkPage [s.reg R.PLK_PARTNER_EPOCH, s.reg R.PLK_EPOCH, lo32 cyc, hi32 cyc]
    .next ((s.setRole rPrimary).setPlk fun p => { p with fitClear := 0 })
/-- FENCE_CHECK: at half of the contest (R573). -/
def execFenceCheck (s : State) : Host.Outcome State Fault Refusal := .next (if s.plk.contest && s.active plkPage then s.fenceStalls else s)
/-- Count of a contest: REACH less the fenced stalls (R574). -/
def State.contestCount (s : State) : Nat := s.regN R.STL_REACH - (s.stalls.filter fun (e : Nat × Stall) => e.2.fenced).length
/-- CONTEST_END (R574, R576). -/
def execContestEnd (s : State) : Host.Outcome State Fault Refusal :=
  if !s.plk.contest then .next s
  else
    let c := s.contestCount
    let n := s.regN R.PLK_MAJ_N
    let win := decide (n < 2 * c) || (2 * c == n && !s.sideB)
    let s := (s.setPlk fun p => { p with contest := false }).setFlag R.PLK_PAIR_STAT 3 false
    let s := (s.setReg R.PLK_REACH_LAST (wd (c % 2048 + 65536 * b2n (!win)))).emit evContestEnd plkPage [wd c, wd n]
    .next (if win then (if s.role = rTaking ∧ s.plk.epochOk then s.setRole rPrimary else s) else s.standDown rDeposed)
/-- STAND_DOWN_LIMIT: CYC_MAX_MS has passed; OUTPUT stops at the next point boundary (R552). -/
def execStandDownLimit (s : State) : Host.Outcome State Fault Refusal :=
  match s.plk.standTo with
  | none => .next s
  | some r => .next ((s.setReg R.LGE_PHASE 0).standDown r)

/-! ### Heartbeats (R551, R556 to R558, R576) -/

/-- A later copy of a frame already kept (R553): QUEUE and SEQ. -/
def State.dup (s : State) (queue : Nat) (seq : Word) : Bool := s.plk.seen.contains (BitVec.ofNat 8 queue, seq)
/-- A frame of a pair protocol that is not supported (R7). -/
def badProto (h : PairHdr) : Bool := h.proto != 1 && h.proto != 2
/-- A frame of an unsupported protocol is dropped, recorded and counted in LANE_ERR (R7, R584). -/
def State.protoDrop (s : State) (witness : Bool) (h : PairHdr) : State :=
  let n := s.reg R.PLK_LANE_ERR
  (s.setReg R.PLK_LANE_ERR (if witness then satIncField n 31 16 else satIncField n 15 0)).emit evPairVersion plkPage [h.proto.setWidth 32]
/-- Keep a frame of the pair link: its lane must be up, its protocol 1 or 2 (R7), and it must be the first copy. -/
def State.keep (s : State) (h : PairHdr) (queue : Nat) (k : State → State) : State :=
  if s.active plkPage && s.locked 7 && s.flag R.PLK_LANE_STAT h.lane.val && badProto h then s.protoDrop false h
  else if !s.active plkPage ∨ !s.locked 7 ∨ !s.flag R.PLK_LANE_STAT h.lane.val ∨ s.dup queue h.seq then s
  else k (s.setPlk fun p => { p with seen := ((BitVec.ofNat 8 queue, h.seq) :: p.seen).take 4096 })
/-- A valid heartbeat on a path; the witness path's copy of a heartbeat that the pair link also brings is not counted twice. -/
def State.hear (s : State) (witness : Bool) (h : PairHdr) (b : Heartbeat) : State :=
  if h.sideB = s.sideB then
    let s := (s.errc plkPage 0x103 0).emit evSideClash plkPage []
    if s.role = rResolving then s else s.standDown rDeposed
  else if b.protoMax = 0 then (s.errc plkPage 0x102 0).emit evPairVersion plkPage [0]
  else
    let pr := min s.ownProto b.protoMax.toNat
    let twin := witness && s.flag R.PLK_PAIR_STAT 4
    let s := s.setPlk fun p => { p with hbPair := if witness then p.hbPair else some s.time.log, hbWit := if witness then some s.time.log else p.hbWit,
                                        partner := some b, pActing := h.acting, pFit := h.fit, fitClear := if h.fit then 0 else if twin then p.fitClear else p.fitClear + 1 }
    let s := ((s.setFlag R.PLK_PAIR_STAT (if witness then 5 else 4) true).setFld R.PLK_PAIR_STAT 7 6 pr).setFlag R.PLK_PAIR_STAT 9 h.fit
    let s := s.setReg R.PLK_PARTNER_EPOCH h.epoch
    let s := if s.acts && !h.acting then s.setReg64 R.PLK_ACK_LO R.PLK_ACK_HI b.cycle.toNat else s
    let pRole := b.role.toNat
    let theirs := decide (pRole = 1 ∨ pRole = 5)
    let mine := if s.role = rTaking ∧ !s.plk.epochOk then s.nextEpoch else s.epoch
    if theirs && (s.acts || s.role == rTaking) && decide (mine < h.epoch.toNat) then s.standDown rStandby
    else if s.role = rDeposed then
      if theirs then (s.setPlk fun p => { p with resync := true }).setRole rStandby
      else if pRole = 4 ∨ pRole = 0 then s.setRole rResolving
      else s
    else if s.mayTake && decide (3 ≤ s.plk.fitClear) then s.takeOver false
    else s
/-- HEARTBEAT (R556). -/
def execHeartbeat (h : PairHdr) (b : Heartbeat) (s : State) : Host.Outcome State Fault Refusal := .next (s.keep h 0 fun s => s.hear false h b)
/-- WITNESS_HEARTBEAT: header, payload and tag as received; a tag that fails is counted (R557). -/
def execWitnessHeartbeat (raw : List Byte) (s : State) : Host.Outcome State Fault Refusal :=
  if !s.active plkPage then .next s
  else
    let n := raw.length - 16
    if raw.length ≠ 24 + 32 + 16 ∨ raw.getD 1 0 ≠ 1 ∨ raw.drop n ≠ kmac256 (s.slotKey (s.fld R.PLK_WIT_KEY_SLOT 3 0)) (raw.take n) 16 "PLK2 WIT" then
      .next (s.setReg R.PLK_LANE_ERR (satIncField (s.reg R.PLK_LANE_ERR) 31 16))
    else
      let fl := fieldN raw 2 1
      let p := raw.drop 24
      let h : PairHdr := ⟨raw.getD 0 0, fl.testBit 0, fl.testBit 1, fl.testBit 2, fl.testBit 3, wd (fieldN raw 4 4), wd (fieldN raw 8 4), 0⟩
      let hf := fieldN p 2 2
      let b : Heartbeat := ⟨p.getD 0 0, p.getD 1 0, hf.testBit 0, hf.testBit 1, hf.testBit 2, hf.testBit 3, BitVec.ofNat 64 (fieldN p 4 8),
        BitVec.ofNat 16 (fieldN p 12 2), wd (fieldN p 16 4), wd (fieldN p 20 4), BitVec.ofNat 64 (fieldN p 24 8)⟩
      .next (if badProto h then s.protoDrop true h else s.hear true h b)
/-- PATH_SILENT: no valid heartbeat for T_W_MS on a path (R558, R567, R568, R572). -/
def execPathSilent (witness : Bool) (s : State) : Host.Outcome State Fault Refusal :=
  if !s.running plkPage then .next s
  else
    let s := s.setFlag R.PLK_PAIR_STAT (if witness then 5 else 4) false
    if !s.bothSilent then .next ((s.irq plkPage 9).emit evPathLost plkPage [wd (b2n witness)])
    else if s.mayTake then .next (s.takeOver true)
    else if s.role = rPrimary ∧ s.proto = 2 then .next s.openContest
    else .next s
/-- DEGRADED: the link works on one lane; not in a mixed pair (R553, R582). -/
def State.lanes (s : State) : State :=
  let n := s.fld R.PLK_LANE_STAT 1 0
  s.statBit plkPage sbDeg (decide (n = 1 ∨ n = 2) && s.proto != 1)
/-- LANE_DOWN. -/
def execLaneDown (l : Fin 2) (s : State) : Host.Outcome State Fault Refusal := .next ((s.setFlag R.PLK_LANE_STAT l.val false).setLane l.val {}).lanes
/-- LANE_UP. -/
def execLaneUp (l : Fin 2) (s : State) : Host.Outcome State Fault Refusal :=
  .next (if s.active plkPage && s.up 7 then (s.setFlag R.PLK_LANE_STAT l.val true).lanes else s)

/-! ### The state frame (R559 to R563) -/

/-- A page padded to 4 KiB. -/
def pad4k (l : List Byte) : List Byte := (l ++ List.replicate (4096 - l.length) 0).take 4096
/-- Signed number of 12 bytes: the layout that this model gives the record of save item 1 (log entry 24). -/
def le96 (x : Int) : List Byte := leBytes 12 (unsext 96 x)
/-- Newest millisecond of the ring before the retained capture, and its own sums and residues (R539). -/
def State.frameMs (s : State) : MsSnap := match s.mtr.ring with | x :: _ => x | [] => ⟨s.time.log / tMs, s.mtr.own, []⟩
/-- Content of page p of the state image (R559). -/
def State.buildPage (s : State) (p : Nat) : List Byte :=
  if p = 0 then
    pad4k (leBytes 8 s.cycle ++ leBytes 4 (nsField s.lge.tSnap).toNat ++ leBytes 4 (secOf s.lge.tSnap) ++ leBytes 4 s.epoch ++ leBytes 4 (s.regN R.LGE_PROG_REV) ++
      leBytes 8 (match s.lge.image with | some g => g.fp.toNat | none => 0) ++ leBytes 4 (s.shown lgePage) ++ leBytes 4 (b2n s.kpr.trip))
  else if p ≤ 64 then rdBytes (s.lge.capture.getD []) (4096 * (p - 1)) 4096
  else if p ≤ 320 then rdBytes s.img (0x100000 + 4096 * (p - 65)) 4096
  else if p ≤ 324 then
    (List.range 256).flatMap fun i => let k := 256 * (p - 321) + i
      leBytes 8 (s.stSeq k) ++ leBytes 4 (s.stall k).ep ++ [BitVec.ofNat 8 (s.stall k).major, 0, 0, 0]
  else if p = 325 then
    (List.range 128).flatMap fun a => let x := s.axis a
      leBytes 4 (unsext 32 x.p) ++ leBytes 2 x.adrOfs ++ leBytes 2 (b2n x.referenced) ++ leBytes 4 (unsext 32 x.e) ++ leBytes 4 (unsext 32 x.target) ++ List.replicate 16 0
  else if p = 326 then
    let m := s.frameMs
    pad4k (leBytes 8 m.ms ++ ((List.range 128).flatMap fun k => le96 (geti s.mtr.acc k - (geti s.mtr.own k - geti m.own k))) ++
      (List.range 16).flatMap fun o => le96 (geti m.res o))
  else if p ≤ 342 then
    (List.range 512).flatMap fun i => leBytes 8 (match s.mtr.base.get (fun _ => none) (512 * (p - 327) + i) with | some b => b.1 | none => 2 ^ 64 - 1)
  else if p ≤ 346 then
    (List.range 256).flatMap fun i => match s.lge.forces.get (fun _ => none) (256 * (p - 343) + i) with
      | some f => leBytes 4 f.addr ++ [BitVec.ofNat 8 f.bit, BitVec.ofNat 8 f.width, 1, 0] ++ leBytes 8 f.val
      | none => List.replicate 16 0
  else List.replicate 4096 0
/-- An unlisted page is all zeros. -/
abbrev zeroPage : Nat → List Byte := fun _ => List.replicate 4096 0
/-- Pages that this side sends: in protocol 1 only control, retained, output image and stalls (R559, R582). -/
def State.imagePages (s : State) : Nat := if s.proto = 1 then 325 else 347
/-- The cycle's image. -/
def State.buildImage (s : State) : StateImg := ⟨s.cycle, (List.range s.imagePages).foldl (fun t p => t.set zeroPage p (s.buildPage p)) []⟩
/-- CRC-32C over all 512 pages. -/
def imgCrc (g : StateImg) : Word := crc32c ((List.range 512).flatMap fun p => g.pages.get zeroPage p)
/-- Send the state frame: the pages that differ from the acknowledged base, then STATE_END; what still waits of the cycle before is
abandoned (R560, R561). -/
def State.sendFrame (s : State) (final : Bool) : State :=
  if s.role ≠ rPrimary ∨ !s.flag R.PLK_PAIR_STAT 4 ∨ !s.paired then s
  else
    let g := s.buildImage
    let s := s.frameAbandon
    let ack := s.reg64 R.PLK_ACK_LO R.PLK_ACK_HI
    let re := match s.plk.partner with | some b => b.resync | none => true
    let base := if final || re then none else s.plk.sent.find? fun x => x.cycle == ack && ack != 0
    let basePages := match base with | some x => x.pages | none => []
    let l := (List.range s.imagePages).filter fun p => base.isNone || g.pages.get zeroPage p != basePages.get zeroPage p
    let s := l.foldl (fun s p => s.plkSend 0x10 0 p false (g.pages.get zeroPage p)) s
    let map := leBytes 64 (l.foldl (fun m p => m + 2 ^ p) 0)
    let s := s.plkSend 0x11 0 0 final (leBytes 8 g.cycle ++ leBytes 8 (match base with | some x => x.cycle | none => 0) ++
      leBytes 4 (nsField s.lge.tSnap).toNat ++ leBytes 4 (secOf s.lge.tSnap) ++ leBytes 2 l.length ++ leBytes 2 (b2n base.isNone + 2 * b2n final) ++
      leBytes 4 (imgCrc g).toNat ++ map ++ List.replicate 16 0)
    (s.setPlk fun p => { p with sent := (g :: p.sent.filter fun x => decide (ack ≤ x.cycle)).take 64 }).setReg64 R.PLK_CYCLE_LO R.PLK_CYCLE_HI g.cycle
/-- STATE_PAGE: a page enters the pending copy (R562). -/
def execStatePage (h : PairHdr) (page : Fin 512) (data : List Byte) (s : State) : Host.Outcome State Fault Refusal :=
  .next (s.keep h 0 fun s => if s.acts then s else s.setPlk fun p => { p with pend := p.pend.set (fun _ => []) page.val (pad4k data) })
/-- The pending copy of a STATE_END, where every page and the base are held. -/
def State.pendingImage (s : State) (e : StateEnd) : Option StateImg :=
  let base : Option (Tab (List Byte)) :=
    if e.full then some []
    else match s.plk.image with | some g => if g.cycle = e.base.toNat then some g.pages else none | none => none
  match base with
  | none => none
  | some b =>
    if e.map.any fun p => (s.plk.pend.get (fun _ => []) p).isEmpty then none
    else
      let g : StateImg := ⟨e.cycle.toNat, e.map.foldl (fun t p => t.set zeroPage p (s.plk.pend.get (fun _ => []) p)) b⟩
      if imgCrc g = e.crc then some g else none
/-- At a commit: stall sequences rise, metering is taken, STATE_VALID (R563). -/
def State.frameCommit (s : State) (g : StateImg) (full : Bool) : State :=
  let s := s.setPlk fun p => { p with image := some g, pend := [], resync := p.resync && !full }
  let s := s.setReg64 R.PLK_CYCLE_LO R.PLK_CYCLE_HI g.cycle
  let s := allStalls.foldl (fun s k =>
    let q := fieldN ((s.stPage (321 + k / 256)).drop (16 * (k % 256))) 0 8
    if s.stSeq k < q then s.setReg64 (R.STB_SEQ_LO k) (R.STB_SEQ_HI k) q else s) s
  let s := if s.proto = 1 then s
    else
      let pg := s.stPage 326
      let ms := fieldN pg 0 8
      let at12 (i : Nat) : Int := sext 96 (fieldN pg (8 + 12 * i) 12)
      let base := (List.range 8192).foldl (fun (t : Tab (Option (Nat × Nat))) i =>
        let r := fieldN ((s.stPage (327 + i / 512)).drop (8 * (i % 512))) 0 8
        if r = 2 ^ 64 - 1 then t else t.set (fun _ => none) i (some (r, ms * tMs))) []
      s.mtrTake ms (fun k => at12 k) (fun o => at12 (128 + o)) base
  if fieldN (s.stPage 0) 0x14 4 = s.regN R.LGE_PROG_REV then s.setFlag R.PLK_PAIR_STAT 8 true
  else (s.setFlag R.PLK_PAIR_STAT 8 false).emit evStateRev plkPage [wd (fieldN (s.stPage 0) 0x14 4)]
/-- STATE_END: the pending copy commits or is discarded (R562, R567). -/
def execStateEnd (h : PairHdr) (e : StateEnd) (s : State) : Host.Outcome State Fault Refusal :=
  .next (s.keep h 0 fun s =>
    if s.acts then s
    else match s.pendingImage e with
      | none => (s.setPlk fun p => { p with pend := [], resync := true }).irq plkPage 12
      | some g =>
        let s := s.frameCommit g e.full
        if e.final && s.mayTake then s.takeOver false else s)
/-- STREAM: a chunk completes an object of the newest generation (R565). -/
def execStream (h : PairHdr) (chunk : Nat) (obj : Byte) (last : Bool) (gen : Word) (data : List Byte) (s : State) : Host.Outcome State Fault Refusal :=
  .next (s.keep h 1 fun s =>
    let o := obj.toNat
    if s.proto = 1 ∨ o = 0 ∨ 4 < o then s
    else
      let x := s.plk.objs.get (fun _ => {}) o
      if gen.toNat < x.gen then s
      else
        let x := if x.gen < gen.toNat then { gen := gen.toNat } else x
        let x := { x with chunks := x.chunks.set (fun _ => []) chunk data, last := if last then some chunk else x.last }
        let s := s.setPlk fun p => { p with objs := p.objs.set (fun _ => {}) o x }
        match x.last with
        | none => s
        | some n =>
          if (List.range (n + 1)).any fun i => (x.chunks.get (fun _ => []) i).isEmpty then s
          else
            let b := (List.range (n + 1)).flatMap fun i => x.chunks.get (fun _ => []) i
            (s.setPlk fun p => { p with heldObj := p.heldObj.set (fun _ => (0, [])) o (x.gen, b) }).setFlag R.PLK_STREAM_STAT (o - 1) true)

/-! ### Leases (R577 to R582) -/

/-- Send a lease frame to the partner and, where configured, to the witness station over LSX (R578). -/
def State.leaseSend (s : State) (ty : Nat) (pl : List Byte) : State :=
  let s := s.plkSend ty 0 0 false pl
  if s.flag R.PLK_LEASE_STALL 31 && s.flag R.PLK_CFG 4 then
    let k := s.fld R.PLK_LEASE_STALL 9 0
    let m := (s.stall k).major
    if (s.stall k).bound && m != 0 && s.stRun k then (s.stFrame k m (ty - 0x20) 0 pl false).2 else s
  else s
/-- Send a LEASE_REQ; a request is remembered with its sending time. -/
def State.leaseRequest (s : State) (release : Bool) : State :=
  let id := (s.plk.reqId + 1) % 2 ^ 32
  let s := s.setPlk fun p => { p with reqId := id, reqAt := if release then none else some (id, s.time.log) }
  s.leaseSend 0x40 (leBytes 4 id ++ [BitVec.ofNat 8 (b2n s.sideB), BitVec.ofNat 8 (b2n release), 0, 0] ++ leBytes 4 (s.regN R.PLK_LEASE_MS) ++ leBytes 4 s.epoch)
/-- A side in protocol 1 requests unless it holds a live grant to its partner (R580). -/
def State.mayRequest (s : State) : Bool := s.running plkPage && s.paired && s.leaseMode && s.plk.grant.isNone
/-- LEASE_REQ at this side as grantor (R579). -/
def execLeaseReq (src : Peer) (r : LeaseReq) (s : State) : Host.Outcome State Fault Refusal :=
  if !s.active plkPage ∨ src = .witness then .next s
  else if r.release then .next ((s.setPlk fun p => { p with grant := none }).setFlag R.PLK_LEASE_STAT 1 false)
  else
    let ok := !s.acts && r.sideB != s.sideB
    let till := s.time.log + (r.ms.toNat + s.regN R.PLK_GUARD_MS) * tMs
    let s := if ok then (s.setPlk fun p => { p with grant := some till }).setFlag R.PLK_LEASE_STAT 1 true else s
    let left := match s.plk.grant with | some t => (t - s.time.log) / tMs | none => 0
    let holder : Nat := if s.plk.grant.isSome then b2n (!s.sideB) else if s.plk.lease.isSome then b2n s.sideB else 255
    .next (s.plkSend 0x41 0 0 false (leBytes 4 r.id.toNat ++ [BitVec.ofNat 8 (b2n ok), BitVec.ofNat 8 holder, 0, 0] ++ leBytes 4 r.ms.toNat ++ leBytes 4 left))
/-- LEASE_RSP: a granted answer to the newest request extends the lease from the request's sending; a side that gains a
lease takes a new epoch before it acts (R580). -/
def execLeaseRsp (_src : Peer) (r : LeaseRsp) (s : State) : Host.Outcome State Fault Refusal :=
  if !s.active plkPage ∨ !r.granted then .next s
  else match s.plk.reqAt with
    | none => .next s
    | some (id, t) =>
      if id ≠ r.id.toNat then .next s
      else
        let had := s.plk.lease.isSome
        let s := (s.setPlk fun p => { p with lease := some (t + s.regN R.PLK_LEASE_MS * tMs) }).setFlag R.PLK_LEASE_STAT 0 true
        .next (if had || s.acts then s else s.takeOver false)
/-- LEASE_RENEW: every LEASE_MS / 4 (R580). -/
def execLeaseRenew (s : State) : Host.Outcome State Fault Refusal := .next (if s.mayRequest then s.leaseRequest false else s)
/-- LEASE_START_WAIT: side B's first request (R580). -/
def execLeaseStartWait (s : State) : Host.Outcome State Fault Refusal := .next (if s.mayRequest && s.sideB then s.leaseRequest false else s)
/-- LEASE_END: the holder stops acting (R580). -/
def execLeaseEnd (s : State) : Host.Outcome State Fault Refusal :=
  match s.plk.lease with
  | none => .next s
  | some t =>
    if s.time.log < t then .next s
    else
      let s := (s.setPlk fun p => { p with lease := none }).setFlag R.PLK_LEASE_STAT 0 false
      .next (if s.leaseMode ∧ (s.acts ∨ s.role = rTaking) then s.standDown rDeposed else s)
/-- GRANT_END (R579). -/
def execGrantEnd (s : State) : Host.Outcome State Fault Refusal :=
  .next ((s.setPlk fun p => { p with grant := none }).setFlag R.PLK_LEASE_STAT 1 false)

/-! ### Switchover, start-up resolution (R570, R583) -/

/-- SWITCH is taken here and now (R570). -/
def State.switchOk (s : State) : Bool :=
  s.active plkPage && ((s.role == rPrimary && s.proto == 2 && s.plk.pFit && (match s.plk.partner with | some b => b.stValid | none => false)) ||
    (s.leaseMode && s.plk.lease.isSome))
/-- A switchover leaves: the FULL frame with FINAL, then the stand-down; in protocol 1 the release (R570, R580). -/
def State.switchNow (s : State) : State :=
  if s.leaseMode then
    let s := ((s.setPlk fun p => { p with lease := none }).setFlag R.PLK_LEASE_STAT 0 false).standDown rStandby
    s.leaseRequest true
  else ((s.sendFrame true).setPlk fun p => { p with finalReq := false }).standDown rStandby
/-- SWITCH is delivered to PLK: in a cycle it waits for the frame. -/
def State.switchTake (s : State) : State :=
  let ph := s.regN R.LGE_PHASE
  let s := s.emit evSwitch plkPage []
  if s.active lgePage && (ph == 1 || ph == 2 || ph == 3) then s.setPlk fun p => { p with finalReq := true } else s.switchNow
/-- RESOLVE_END: the start-up role is decided (R583); a clash of sides keeps RESOLVING (R558), and in protocol 1 the lease rules
decide (R577, R580). -/
def execResolveEnd (s : State) : Host.Outcome State Fault Refusal :=
  if !s.running plkPage ∨ s.role ≠ rResolving ∨ (s.page plkPage).errcode = 0x103 then .next s
  else if s.plk.pActing ∧ !s.bothSilent then .next ((s.setPlk fun p => { p with resync := true }).setRole rStandby)
  else if s.leaseMode then
    let s := s.setRole rStandby
    .next (if s.mayRequest && !s.sideB then s.leaseRequest false else s)
  else if s.bothSilent then .next (s.takeOver true)
  else if s.sideB then .next ((s.setPlk fun p => { p with resync := true }).setRole rStandby)
  else
    let s := s.takeEpoch
    .next (if s.active plkPage then s.setRole rPrimary else s)
/-- Entry to RUN (R583). -/
def State.plkStart (s : State) : State :=
  let s := if s.plk.standTo.isSome then s.setRole rDeposed else s
  let s := s.setPlk fun p => { p with hbPair := none, hbWit := none, partner := none, pActing := false, pFit := false, fitClear := 0, contest := false,
                                      standTo := none, finalReq := false, epochOk := false, applied := false, lease := none, reqAt := none, fence := false, lanes := [] }
  let s := s.setReg R.PLK_PAIR_STAT (s.reg R.PLK_PAIR_STAT &&& 0x400)
  if s.paired then s
  else
    let s := s.takeEpoch
    if s.active plkPage then s.setRole rUnpaired else s
/-- PLK leaves RUN: an acting side stands down by R552, its cycle in progress with it, and becomes DEPOSED (R583). -/
def State.plkStop (s : State) : State := if s.acts ∨ s.role = rTaking then s.standDown rDeposed else s
/-- Configuration at fault (R575, R584). -/
def State.plkBad (s : State) : Option (Nat × Nat) :=
  let out (a lo hi : Nat) : Bool := decide (s.regN a < lo ∨ hi < s.regN a)
  if 1 < s.fld R.PLK_CFG 1 0 ∨ s.fld R.PLK_CFG 3 2 = 0 ∨ 2 < s.fld R.PLK_CFG 3 2 then some (4, 0x100)
  else if out R.PLK_T_W_MS 10 1000 then some (4, 0x104)
  else if out R.PLK_T_MAJ_MS 20 5000 then some (4, 0x108)
  else if out R.PLK_CYC_MAX_MS 1 1000 then some (4, 0x10C)
  else if out R.PLK_MAJ_N 0 1024 then some (4, 0x110)
  else if out R.PLK_LEASE_MS 100 10000 then some (4, 0x114)
  else if out R.PLK_GUARD_MS 10 1000 then some (4, 0x118)
  else if out R.PLK_RESOLVE_MS 50 10000 then some (4, 0x138)
  else if s.paired ∧ s.ownProto = 2 ∧ s.regN R.PLK_T_MAJ_MS < 2 * (10 + s.regN R.PLK_CYC_MAX_MS) then some (0x100, 0)
  else if s.paired ∧ s.ownProto = 2 ∧ s.regN R.PLK_MAJ_N = 0 then some (0x101, 0)
  else none
/-- SILENCE_MS as read: its reset value until a first heartbeat (R584). -/
def State.silence (s : State) : Word :=
  let f (t : Option Nat) : Nat := match t with | some x => min 65535 ((s.time.log - x) / tMs) | none => 0
  wd (f s.plk.hbPair + 65536 * f s.plk.hbWit)
/-- LEASE_STAT as read. -/
def State.leaseStat (s : State) : Word :=
  let left := match s.plk.lease with | some t => min 65535 ((t - s.time.log) / tMs) | none => 0
  wd (b2n s.plk.lease.isSome + 2 * b2n s.plk.grant.isSome + 65536 * left)

end Sys2Proof.Machine
end

