-- ==== Sys2Proof/Machine/Model.lean ====
section
/-! DEFINITION. The network model image: its records, the load checks, and what comes into force (R109 to R164,
R244 to R246, R333 to R335). -/

namespace Sys2Proof.Machine

abbrev evModel : Nat := 161
abbrev evModelBusy : Nat := 162
/-- Change the model slots. -/
def State.setMdl (s : State) (f : ModelSt → ModelSt) : State := { s with mdl := f s.mdl }
/-- Value of a mantissa at a scale. -/
def dyad (m e : Int) : Rat := if 0 ≤ e then (m : Rat) * (2 ^ e.toNat : Nat) else (m : Rat) / (2 ^ (-e).toNat : Nat)
/-- Signed 64-bit field of a byte list. -/
abbrev fieldI (l : List Byte) (o : Nat) : Int := sext 64 (fieldN l o 8)

/-! ### Records -/

/-- A node (R153). -/
structure NodeRec where
  id     : Nat
  kind   : Nat
  stable : Nat
  elev   : Int
  href   : Int
  demand : Int
deriving DecidableEq, Repr
/-- A branch (R154). -/
structure BranchRec where
  id     : Nat
  ty     : Nat
  flow   : Bool
  cold   : Bool
  char   : Nat
  asset  : Nat
  fromN  : Nat
  toN    : Nat
  aux    : Nat
  kc     : Int
  kqe    : Int
  kqe2   : Int
  kiqe   : Int
  kp     : Int
deriving DecidableEq, Repr
/-- A scale entry (R132). -/
structure ScaleRec where
  id      : Nat
  signed  : Bool
  cert    : Bool
  iterate : Bool
  e       : Int
  bound   : Nat
deriving DecidableEq, Repr
/-- A measurement (R142). -/
structure MeasRec where
  id     : Nat
  kind   : Nat
  qty    : Nat
  index  : Nat
  ofs    : Nat
  age    : Nat
  target : Nat
  weight : Int
  lo     : Int
  hi     : Int
deriving DecidableEq, Repr
/-- A declared input of an asset (R147, R333): its stable ID, dispatch index, setpoint entry and fixed value, with the asset's index
and kind and the input's position in the asset. -/
structure AssetIn where
  id    : Nat
  dsp   : Nat
  sp    : Nat
  fixed : Int
  asset : Nat
  kind  : Nat
  pos   : Nat
deriving DecidableEq, Repr
/-- One record of a LIMITS section (R148, R591). -/
structure LimRec where
  sp   : Nat
  arr  : Nat
  e    : Int
  lo   : Int
  hi   : Int
  rise : Int
  fall : Int
deriving DecidableEq, Repr
/-- A pipe of the THERMAL section as stored in the image (R244). -/
structure ThermRec where
  branch : Nat
  mode   : Nat
  slots  : Nat
  mass   : Int
  tau    : Int
  tg     : Int
  ti     : Int
deriving DecidableEq, Repr

def parseNode (b : List Byte) : NodeRec := ⟨fieldN b 0 4, fieldN b 4 1, fieldN b 5 1, fieldI b 8, fieldI b 16, fieldI b 24⟩
def parseBranch (b : List Byte) : BranchRec :=
  let f : Nat := fieldN b 5 1
  ⟨fieldN b 0 4, fieldN b 4 1, f.testBit 0, f.testBit 1, fieldN b 6 1, fieldN b 7 1, fieldN b 8 4, fieldN b 12 4, fieldN b 16 4,
    fieldI b 0x18, fieldI b 0x20, fieldI b 0x28, fieldI b 0x30, fieldI b 0x38⟩
def parseScale (b : List Byte) : ScaleRec :=
  let f : Nat := fieldN b 2 1
  ⟨fieldN b 0 2, f.testBit 0, f.testBit 1, f.testBit 2, sext 8 (fieldN b 3 1), fieldN b 8 8⟩
def parseMeas (b : List Byte) : MeasRec :=
  ⟨fieldN b 0 4, fieldN b 4 1, fieldN b 5 1, fieldN b 6 2, fieldN b 8 2, fieldN b 10 2, fieldN b 12 4, fieldI b 16, fieldI b 24, fieldI b 32⟩
def parseLim (b : List Byte) : LimRec :=
  ⟨fieldN b 0 2, fieldN b 2 2, sext 8 (fieldN b 4 1), fieldI b 8, fieldI b 16, fieldI b 24, fieldI b 32⟩
/-- Records of a limit table, and its SP_LAYOUT. -/
def limRecs (t : List Byte) : List LimRec := (chunks (fieldN t 0 4) 40 (t.drop 16)).map parseLim
def limLayout (t : List Byte) : Nat := fieldN t 4 8
def parseTherm (b : List Byte) : ThermRec :=
  ⟨fieldN b 0 4, fieldN b 4 1, fieldN b 5 1, fieldI b 8, fieldI b 16, fieldI b 24, fieldI b 32⟩

/-- Header length of a format (R150, R163). -/
def mdlHdr (b : List Byte) : Nat := if fieldN b 4 2 = 2 then 96 else 128
def mdlDir (b : List Byte) : List Sect := parseDir b (mdlHdr b) (fieldN b 0x30 2)
def mdlSect (b : List Byte) (t : Nat) : List Byte := sectBytes b (mdlDir b) t
def mdlNodes (b : List Byte) : List NodeRec := (chunks (fieldN b 0x18 4) 32 (mdlSect b 1)).map parseNode
def mdlBranches (b : List Byte) : List BranchRec := (chunks (fieldN b 0x1C 4) 64 (mdlSect b 2)).map parseBranch
def mdlScales (b : List Byte) : List ScaleRec := let l := mdlSect b 4; (chunks (l.length / 16) 16 l).map parseScale
def mdlMeas (b : List Byte) : List MeasRec := (chunks (fieldN b 0x24 4) 48 (mdlSect b 6)).map parseMeas
def mdlDispatch (b : List Byte) : DspSect := Config.dispatch (mdlSect b 9)
def mdlAssets (b : List Byte) : List (List Byte) := chunks (fieldN b 0x22 2) 80 (mdlSect b 7)
def mdlTherm (b : List Byte) : List ThermRec :=
  let l := mdlSect b 0xB
  (chunks (fieldN l 0 4) 48 (l.drop 16)).map parseTherm
/-- Scale entry of an array. -/
def scaleOf (l : List ScaleRec) (id : Nat) : Option ScaleRec := l.find? fun r => r.id == id
/-- Scale exponent of an array, 0 where none is given. -/
def expOf (l : List ScaleRec) (id : Nat) : Int := match scaleOf l id with | some r => r.e | none => 0
/-- Declared inputs of the assets, asset by asset (R333). -/
def assetInputs (b : List Byte) : List AssetIn :=
  let as := mdlAssets b
  (as.zip (List.range as.length)).flatMap fun (e : List Byte × Nat) =>
    let a := e.1
    (List.range (min 4 (fieldN a 1 1))).map fun i =>
      ⟨fieldN a (0x10 + 16 * i) 4, fieldN a (0x14 + 16 * i) 2, fieldN a (0x16 + 16 * i) 2, fieldI a (0x18 + 16 * i), e.2, fieldN a 0 1, i⟩
/-- The array of an asset input: the one its LIMITS record names (R591), with its scale; scale 0 where it has none. -/
def inputScale (b : List Byte) (sp : Nat) : Int := match (limRecs (mdlSect b 8)).find? fun r => r.sp == sp with | some r => r.e | none => 0
/-- Input `pos` of an asset: the declared one, if there is one. -/
def assetInput (b : List Byte) (asset pos : Nat) : Option AssetIn := (assetInputs b).find? fun a => a.asset == asset && a.pos == pos
/-- Setpoint layout fingerprint over (entry, stable ID, asset kind) in entry order (R149); the fields take their widths
in the ASSETS record (log entry 21). -/
def layoutPrint (b : List Byte) : Nat :=
  let l := (assetInputs b).mergeSort fun x y => decide (x.sp ≤ y.sp)
  leNat (shake256 (l.flatMap fun e => leBytes 2 e.sp ++ leBytes 4 e.id ++ leBytes 1 e.kind) 8)
/-- SP_LAYOUT, LIMIT_DIGEST and IMG_DIGEST of an image; format 2 computes the first two (R163). -/
def mdlLayout (b : List Byte) : Nat := if fieldN b 4 2 = 2 then layoutPrint b else fieldN b 0x38 8
def mdlLimitDigest (b : List Byte) : List Byte := if fieldN b 4 2 = 2 then digest32 (mdlSect b 8) else (b.drop 0x40).take 32
def mdlImgOfs (b : List Byte) : Nat := if fieldN b 4 2 = 2 then 0x40 else 0x60
def mdlDigest (b : List Byte) : List Byte := (b.drop (mdlImgOfs b)).take 32

/-! ### Load checks (R156) -/

/-- Check 5: every count within its capacity (R40, R144, R146, R147, R163). -/
def mdlCounts (b : List Byte) : Bool :=
  let d := mdlDispatch b
  let nnz := d.a.ents.length + d.b.ents.length + d.c.ents.length + d.d.ents.length + d.e.ents.length
  decide (fieldN b 0x18 4 ≤ (if fieldN b 4 2 = 2 then 8192 else 16384) ∧ fieldN b 0x1C 4 ≤ 24576 ∧ fieldN b 0x20 2 ≤ 1024 ∧
    fieldN b 0x22 2 ≤ 128 ∧ fieldN b 0x28 2 ≤ 1024 ∧ fieldN b 0x2A 2 ≤ 256 ∧ 1 ≤ fieldN b 0x2C 2 ∧ fieldN b 0x2C 2 ≤ 96 ∧
    5 ≤ fieldN b 0x2E 2 ∧ fieldN b 0x2E 2 ≤ 60) &&
    decide (d.e.cols ≤ 256 ∧ d.c.rows ≤ 512 ∧ d.delays.length ≤ 64 ∧ nnz ≤ 262144 ∧ (mdlSect b 3).length ≤ 63 * 264) &&
    ((mdlAssets b).all fun a => decide (a.length < 80 ∨ (1 ≤ fieldN a 1 1 ∧ fieldN a 1 1 ≤ 4)))
/-- Check 6: the directory (R151, R152), each record section as long as its records. -/
def mdlDirOk (b : List Byte) : Bool :=
  let n := fieldN b 0x30 2
  let d := mdlDir b
  let len (t : Nat) : Nat := match sect d t with | some e => e.2.2.2 | none => 0
  decide (mdlHdr b + 24 * n ≤ b.length) && dirZero b (mdlHdr b) n && dirOk d (mdlHdr b) b.length &&
    (d.all fun e => decide (1 ≤ e.1 ∧ e.1 ≤ 0xC)) && ([1, 2, 4, 5, 6, 7, 8, 9, 10, 11, 12].all fun t => (sect d t).isSome) &&
    decide (len 1 = 32 * fieldN b 0x18 4 ∧ len 2 = 64 * fieldN b 0x1C 4 ∧ len 4 % 16 = 0 ∧ len 6 = 48 * fieldN b 0x24 4 ∧ len 3 % 264 = 0 ∧
      80 * fieldN b 0x22 2 ≤ len 7 ∧ 16 ≤ len 0xA ∧ 16 ≤ len 0xB ∧ 64 ≤ len 0xC) &&
    ((mdlBranches b).all fun r => decide (r.char = 0 ∨ (sect d 3).isSome = true))
/-- One VALVE_CHAR table: 0 first, a power of two (1 at its scale) last, never falling (R117). -/
def charOk (l : List Int) : Bool :=
  let z : Int := l.getLastD 0
  l.headD 1 == 0 && decide (0 < z) && decide ((z.toNat &&& (z.toNat - 1)) = 0) && decide (l.Pairwise (· ≤ ·))
/-- Nodes that branches of a list join to a set, with as many rounds as fuel (R120, R156). -/
def spread : Nat → List (Nat × Nat) → List Nat → List Nat
  | 0, _, r => r
  | n + 1, es, r =>
    let add := (es.filterMap fun (e : Nat × Nat) =>
      if r.contains e.1 && !r.contains e.2 then some e.2 else if r.contains e.2 && !r.contains e.1 then some e.1 else none).eraseDups
    if add.isEmpty then r else spread n es (r ++ add)
/-- AUX of a branch (R154). An index of an asset input counts the declared inputs of all assets (DESIGN CHOICE, log entry 85). -/
def auxOk (b : List Byte) (bs : List BranchRec) (r : BranchRec) : Bool :=
  match r.ty with
  | 2 =>
    let i := r.aux % 2 ^ 30
    match r.aux / 2 ^ 30 with
    | 0 => decide (i < 128)
    | 1 => decide (i < 1024)
    | 2 => decide (i < (assetInputs b).length)
    | _ => false
  | 3 => decide (r.aux < fieldN b 0x20 2)
  | 6 => match bs[r.aux]? with | some x => x.ty != 6 | none => false
  | 5 => r.aux == 0xFFFFFFFF || (match bs[r.aux]? with | some x => x.ty == 3 | none => false)
  | _ => r.aux == 0
/-- A source of a MEAS record that its chapter defines (R387, R470, R506, R526). -/
def measOk (m : MeasRec) : Bool :=
  decide (m.kind ≤ 3 ∧ m.qty ≤ 4) && ([1, 2, 4, 8].any fun w => inEntryOk ⟨0, m.kind, w, m.index, m.ofs, 0⟩)
/-- Delay paths of the THERMAL section after its pipe records (R245): branch index and reversed flag, with the bytes left. -/
def delayPaths : Nat → List Byte → List (List (Nat × Bool)) × List Byte
  | 0, l => ([], l)
  | n + 1, l =>
    let c := min (fieldN l 0 4) 257
    let p := (chunks c 4 (l.drop 4)).map fun w => let v := leNat w; (v % 2 ^ 31, decide (2 ^ 31 ≤ v))
    let r := delayPaths n (l.drop (4 + 4 * c))
    (p :: r.1, r.2)
/-- Delay paths and forecast points of an image. -/
def mdlPaths (b : List Byte) : List (List (Nat × Bool)) × List Nat :=
  let l := mdlSect b 0xB
  let r := delayPaths (fieldN l 4 2) (l.drop (16 + 48 * fieldN l 0 4))
  (r.1, (chunks (fieldN l 6 2) 4 r.2).map leNat)
/-- Branches of a path join end to end. -/
def pathOk (bs : List BranchRec) : Option Nat → List (Nat × Bool) → Bool
  | _, [] => true
  | at', (i, rev) :: t =>
    match bs[i]? with
    | none => false
    | some r =>
      let a := if rev then r.toN else r.fromN
      let z := if rev then r.fromN else r.toN
      (match at' with | some n => n == a | none => true) && pathOk bs (some z) t
/-- R244 to R246. -/
def thermOk (b : List Byte) : Bool :=
  let l := mdlSect b 0xB
  let bs := mdlBranches b
  let sc := mdlScales b
  let ts := mdlTherm b
  let pipes := (bs.zip (List.range bs.length)).filterMap fun (e : BranchRec × Nat) => if e.1.ty = 0 then some e.2 else none
  let p := mdlPaths b
  let temp (id : Nat) (m : Int) : Bool := tempOk (dyad m (expOf sc id))
  decide (16 + 48 * fieldN l 0 4 ≤ l.length) && decide (ts.map (·.branch) = pipes) && decide (fieldN l 4 2 ≤ 64 ∧ fieldN l 6 2 ≤ 512) &&
    decide (fieldN l 8 4 = (ts.filter fun t => t.mode == 0).length) &&
    (ts.all fun t =>
      let tau := dyad t.tau (expOf sc 0x39)
      decide (t.mode ≤ 1) && (if t.mode = 0 then decide (1 ≤ t.slots ∧ t.slots ≤ 64) && decide (dyad t.mass (expOf sc 0x38) < 16777216 ∧ 0 < t.mass)
        else t.slots == 0) && decide (60 ≤ tau ∧ tau ≤ 1000000000) && temp 0x3A t.tg && temp 0x3B t.ti) &&
    (p.1.all fun q => decide (1 ≤ q.length ∧ q.length ≤ 256) && pathOk bs none q) && (p.2.all fun n => decide (n < fieldN b 0x18 4))
/-- Check 7. -/
def mdlRecords (b : List Byte) : Bool :=
  let ns := mdlNodes b
  let bs := mdlBranches b
  let refs := ((ns.zip (List.range ns.length)).filter fun (e : NodeRec × Nat) => e.1.kind == 1).map (·.2)
  let r := spread ns.length (bs.map fun x => (x.fromN, x.toN)) refs
  let nch := (mdlSect b 3).length / 264
  (ns.all fun n => decide (n.kind ≤ 2)) &&
    (bs.all fun x => decide (x.ty ≤ (if fieldN b 4 2 = 2 then 5 else 6) ∧ x.fromN ≠ x.toN ∧ x.fromN < ns.length ∧ x.toN < ns.length ∧
      x.char ≤ 63 ∧ x.char ≤ nch) && auxOk b bs x) &&
    ((List.range ns.length).all fun i => r.contains i) &&
    ((chunks nch 264 (mdlSect b 3)).all fun t => charOk ((chunks 33 8 t).map fun w => sext 64 (leNat w))) &&
    ((mdlMeas b).all measOk) && ((mdlAssets b).all fun a => decide (fieldN a 0 1 ≤ 5)) && thermOk b
/-- End of the arrays of the object whose header stands at offset o of a section, rounded up to 64 (R183, R184). -/
def objEnd (b : List Byte) (o : Nat) : Nat :=
  let h := b.drop o
  let bl := max 1 (fieldN h 6 2)
  let up (a n : Nat) : Nat := if a = 0 then 0 else a + n
  let e := if fieldN h 0 1 = 1 then
      let n := fieldN h 8 4
      max (up (fieldN h 0x10 4) (8 * n)) (max (up (fieldN h 0x14 4) (4 * (n / bl))) (up (fieldN h 0x18 4) (8 * n)))
    else
      max (max (up (fieldN h 0x14 4) (4 * (fieldN h 8 4 + 1))) (up (fieldN h 0x18 4) (4 * fieldN h 0x10 4)))
        (max (up (fieldN h 0x1C 4) (8 * fieldN h 0x10 4)) (up (fieldN h 0x20 4) (4 * (fieldN h 0xC 4 / bl))))
  (max (o + 64) e + 63) / 64 * 64
/-- Offsets of n objects that follow one another from offset o. -/
def objOfs (b : List Byte) : Nat → Nat → List Nat
  | 0, _ => []
  | n + 1, o => o :: objOfs b n (objEnd b o)
/-- Mantissas that an object of a section holds, its array and its BOUND (R183, R184): a vector's elements and defaults, a matrix's values. -/
def objVals (b : List Byte) (o : Nat) : List Int × Nat × Nat :=
  let h := b.drop o
  let vals (a n : Nat) : List Int := if a = 0 then [] else (chunks n 8 (b.drop a)).map fun w => sext 64 (leNat w)
  if fieldN h 0 1 = 1 then (vals (fieldN h 0x10 4) (fieldN h 8 4) ++ vals (fieldN h 0x18 4) (fieldN h 8 4), fieldN h 2 2, fieldN h 0x28 8)
  else (vals (fieldN h 0x1C 4) (fieldN h 0x10 4), fieldN h 2 2, fieldN h 0x30 8)
/-- An object's array has a scale entry, and its mantissas keep their BOUND (R156). -/
def objBounded (sc : List ScaleRec) (b : List Byte) (o : Nat) : Bool :=
  let v := objVals b o
  (scaleOf sc v.2.1).isSome && decide (v.2.2 ≤ 2 ^ 62) && v.1.all fun m => decide (m.natAbs ≤ v.2.2)
/-- Node head limits of the PASS section: node index, low and high heads (R335). -/
def headLimits (b : List Byte) : List (Nat × Int × Int) :=
  let l := mdlSect b 0xC
  let o := (objOfs l 6 64).getLastD 64
  let o := o + 8 * fieldN l 0x12 2 + 4 * fieldN l 0x24 4
  (chunks (fieldN l 0x28 4) 24 (l.drop o)).map fun r => (fieldN r 0 4, fieldI r 8, fieldI r 16)
/-- Check 8: scale entries, stored mantissas and the regularisation constants. -/
def mdlScaled (b : List Byte) : Bool :=
  let sc := mdlScales b
  let ns := mdlNodes b
  let bs := mdlBranches b
  let ts := mdlTherm b
  let within (id : Nat) (m : Int) : Bool := match scaleOf sc id with | some r => decide (m.natAbs ≤ r.bound) | none => false
  let e (id : Nat) : Int := expOf sc id
  (sc.all fun r => decide (-96 ≤ r.e ∧ r.e ≤ 32 ∧ r.bound ≤ 2 ^ 62)) && distinct (sc.map (·.id)) &&
    (([1, 2, 3, 4] ++ (List.range 6).map (· + 0x10) ++ [0x16, 0x17, 0x18, 0x19, 0x30, 0x31] ++ (bs.map fun (x : BranchRec) => 0x20 + x.ty)).all fun i => (scaleOf sc i).isSome) &&
    (ts.isEmpty || [0x38, 0x39, 0x3A, 0x3B].all fun i => (scaleOf sc i).isSome) &&
    (ns.all fun n => within 1 n.elev && within 2 n.href && within 3 n.demand) &&
    (bs.all fun x => within 0x16 x.kc && within 0x17 x.kqe && within 0x18 x.kqe2 && within 0x19 x.kiqe && within (0x20 + x.ty) x.kp) &&
    (ts.all fun t => within 0x38 t.mass && within 0x39 t.tau && within 0x3A t.tg && within 0x3B t.ti) &&
    (bs.all fun x =>
      let q := dyad x.kqe (e 0x17)
      let near (v w u : Rat) : Bool := decide (v - w ≤ u ∧ w - v ≤ u)
      near (dyad x.kqe2 (e 0x18)) (q * q) (dyad 2 (e 0x18)) && decide (x.kqe ≠ 0) && near (dyad x.kiqe (e 0x19)) (1 / q) (dyad 2 (e 0x19))) &&
    (let lims := limRecs (mdlSect b 8)
     (lims.all fun r => within r.arr r.lo && within r.arr r.hi && within r.arr r.rise && within r.arr r.fall) &&
     ((assetInputs b).all fun a => (lims.all fun r => r.sp != a.sp || within r.arr a.fixed))) &&
    ((mdlMeas b).all fun m => within (Config.measArr m.id 0) m.weight && within (Config.measArr m.id 1) m.lo && within (Config.measArr m.id 1) m.hi) &&
    (let d := mdlDispatch b
     ([d.a, d.b, d.c, d.d, d.e].all fun x => (scaleOf sc x.arr).isSome && x.ents.all fun t => within x.arr t.2.2) &&
     (scaleOf sc d.fArr).isSome && (d.f.all (within d.fArr)) && (d.delays.all fun c => (scaleOf sc c.arr).isSome && c.col.all fun t => within c.arr t.2) &&
     ((d.outLim.map (·.2) ++ d.fc ++ d.inputs).all fun r => within r.arr r.lo && within r.arr r.hi)) &&
    ([(0xA, 4), (0xC, 5)].all fun e => let l := mdlSect b e.1; (objOfs l e.2 64).all (objBounded sc l)) &&
    ((headLimits b).all fun h => within 4 h.2.1 && within 4 h.2.2)
/-- Lists of the IDS section (R141): vector number and IDs. -/
def idLists : Nat → List Byte → List (Nat × List Nat)
  | 0, _ => []
  | n + 1, l =>
    if l.length < 8 then [] else
      let c := min (fieldN l 4 4) (l.length / 4)
      (fieldN l 0 4, (chunks c 4 (l.drop 8)).map leNat) :: idLists n (l.drop (8 + 4 * c))
/-- A stable ID of a class (R139). -/
def idOk (cls id : Nat) : Bool := id / 2 ^ 28 == cls && id % 2 ^ 28 != 0
/-- Serials that an image gives to variables of a class (R139, R140): a node or branch gives its own to its other variables, a STORE to
its state; none where the class's elements have no record. -/
def serials (b : List Byte) (cls : Nat) : Option (List Nat) :=
  let ser (i : Nat) : Nat := i % 2 ^ 28
  if cls = 1 then some ((mdlNodes b).map fun n => ser n.id)
  else if cls = 2 ∨ cls = 3 then some ((mdlBranches b).map fun x => ser x.id)
  else if cls = 4 then some (((mdlBranches b).filter fun x => x.ty == 4).map fun x => ser x.id)
  else if cls = 5 then some ((assetInputs b).map fun a => ser a.id)
  else if cls = 7 then some ((mdlMeas b).map fun m => ser m.id)
  else none
/-- Check 9 (R139, R140). -/
def mdlIds (b : List Byte) : Bool :=
  let l := mdlSect b 5
  let ids := (idLists (l.length / 8 + 1) l).flatMap (·.2)
  (ids.all fun i => decide (1 ≤ i / 2 ^ 28 ∧ i / 2 ^ 28 ≤ 8 ∧ i % 2 ^ 28 ≠ 0) &&
      (match serials b (i / 2 ^ 28) with | some l => l.contains (i % 2 ^ 28) | none => true)) && distinct ids &&
    ((mdlNodes b).all fun n => idOk 1 n.id) && ((mdlBranches b).all fun x => idOk 2 x.id) && ((mdlMeas b).all fun m => idOk 7 m.id) &&
    ((assetInputs b).all fun a => idOk 5 a.id)
/-- Every limit lies within the range of its input (R136). -/
def limitsInRange (b : List Byte) : Bool :=
  let sc := mdlScales b
  let rs := (mdlDispatch b).inputs
  (limRecs (mdlSect b 8)).all fun r =>
    (assetInputs b).all fun a =>
      r.sp != a.sp || (match rs[a.dsp]? with
        | none => true
        | some g => decide (dyad g.lo (expOf sc g.arr) ≤ dyad r.lo r.e ∧ dyad r.hi r.e ≤ dyad g.hi (expOf sc g.arr)))
/-- Digest that the keeper's line shows for its limit table: zeros while no table is valid or the keeper is stopped (R12, R148, R590). -/
def State.limitDigest (s : State) : List Byte :=
  if s.kpr.stopped || !s.up 2 then List.replicate 32 0
  else match copyNewest s.kpr.limit with | some (_, t) => digest32 t | none => List.replicate 32 0
/-- Checks 11 and 12, made again when the model comes into force (R157). -/
def State.mdlLate (s : State) (b : List Byte) : Option Nat :=
  let d := digest32 (mdlSect b 8)
  if !limitsInRange b ∨ d ≠ mdlLimitDigest b ∨ d ≠ s.limitDigest then some 11
  else if (match s.lge.image with | some g => g.layout.toNat != mdlLayout b | none => true) then some 12
  else none
/-- The first check that fails on the bytes read; `len` and `addr` are the registers'. -/
def State.mdlFail (s : State) (b : List Byte) (addr len : Nat) : Option Nat :=
  let o := mdlImgOfs b
  if len < 128 ∨ 12 * 1048576 < len ∨ addr % 64 ≠ 0 then some 1
  else if fieldN b 0 4 ≠ 0x4D504D4C then some 2
  else if !((fieldN b 4 2 == 3 && fieldN b 6 2 == 128) || (fieldN b 4 2 == 2 && fieldN b 6 2 == 96)) then some 3
  else if digest32 (b.take o ++ List.replicate 32 0 ++ b.drop (o + 32)) ≠ mdlDigest b ∨ fieldN b 0x10 8 ≠ len then some 4
  else if !mdlCounts b then some 5
  else if !mdlDirOk b then some 6
  else if !mdlRecords b then some 7
  else if !mdlScaled b then some 8
  else if !mdlIds b then some 9
  else if fieldN b 0x34 2 ≠ 1 then some 10
  else s.mdlLate b

/-! ### Laws of the image that its readers form (R116, R117, R127, R143) -/

/-- Points of a valve characteristic (R117): index 0 is the built-in linear one. -/
def charPoints (b : List Byte) (c : Nat) : List Int :=
  if c = 0 then (List.range 33).map fun (i : Nat) => (i : Int)
  else (chunks 33 8 ((mdlSect b 3).drop (264 * (c - 1)))).map fun w => sext 64 (leNat w)
/-- A number held to 0 to 1. -/
def unitHeld (x : Rat) : Rat := if x < 0 then 0 else if 1 < x then 1 else x
/-- τ(x): linear between the 33 points over 0 to 1, the last of which stands for 1 (R117). -/
def charAt (b : List Byte) (c : Nat) (x : Rat) : Rat :=
  let pts := charPoints b c
  let y := 32 * unitHeld x
  let i := y.floor.toNat
  let p (k : Nat) : Rat := (pts.getD k 0 : Rat) / (pts.getD 32 1 : Rat)
  p i + (y - (i : Rat)) * (p (i + 1) - p i)
/-- A pump or plant circulation stands below its asset's stop ratio (R116). -/
def belowStop (b : List Byte) (asset : Nat) (s : Rat) : Bool := decide (s < Config.stopRatio (fieldN b 8 4) asset)
/-- Linear through listed points with rising abscissas, held at both ends. -/
def through : List (Rat × Rat) → Rat → Rat
  | [], _ => 0
  | [p], _ => p.2
  | p :: q :: l, x =>
    if x ≤ p.1 ∨ q.1 ≤ p.1 then p.2 else if x < q.1 then p.2 + (x - p.1) / (q.1 - p.1) * (q.2 - p.2) else through (q :: l) x
/-- COP of a plant at its outlet setpoint, from its 9 points (R127; linear between them, DESIGN CHOICE, log entry 20). -/
def plantCopAt (bid : Nat) (tSet : Rat) : Rat := through ((List.finRange 9).map (Config.plantCop bid)) tSet
/-- Electrical power of a plant with heat power P at outlet setpoint T_set, produced positive (R127). -/
def plantElec (bid : Nat) (p tSet : Rat) : Rat :=
  match Config.plantCoupling bid with
  | 1 => Config.plantKappa bid * p
  | 2 => -(|p| / plantCopAt bid tSet)
  | 0 => 0
/-- Heat that the hot-network HEX branch linked to an absorption chiller draws for the chiller's power P (R127). -/
def linkedDraw (bid : Nat) (p : Rat) : Rat := |p| / Config.plantCopAbs bid
/-- Plants that name HEX branch i as their link (R127, R154). -/
def linkedPlants (bs : List BranchRec) (i : Nat) : List (BranchRec × Nat) :=
  (bs.zip (List.range bs.length)).filter fun e => e.1.ty == 5 && e.1.aux == i
/-- Model value of a pressure measurement at a node: its head less its elevation term (R143). -/
def pressureModel (head elev : Rat) : Rat := head - elev
/-- Model value of a temperature measurement: the enthalpy-derived temperature of its target, in °C (R143, R263). -/
def temperatureModel (h : Rat) : Rat := ((tempOf h).1 : Rat) / 65536
/-- v(k) of a delay channel for a delay of d steps and the applied inputs u (R145): a delay beyond 15 whole steps is held at 16, with a flag. -/
def delayed (u : Int → Rat) (d : Rat) (k : Int) : Rat × Bool :=
  let h : Rat := if 15 < d.floor then 15 else d
  let m : Int := h.floor
  let phi : Rat := h - m
  if 15 < d.floor then (u (k - 16), true) else ((1 - phi) * u (k - m) + phi * u (k - m - 1), false)
/-- Product of a dispatch matrix and a vector, in values (R144). -/
def dspApply (sc : List ScaleRec) (m : DspMat) (x : Nat → Rat) (i : Nat) : Rat :=
  ((m.ents.filter fun t => t.1 == i).map fun t => dyad t.2.2 (expOf sc m.arr) * x t.2.1).sum
/-- State i of the reduced model one step on (R144). -/
def reducedNext (b : List Byte) (x u v w : Nat → Rat) (i : Nat) : Rat :=
  let sc := mdlScales b
  let d := mdlDispatch b
  dspApply sc d.a x i + dspApply sc d.b u i +
    ((d.delays.zip (List.range d.delays.length)).map fun (c : DelayCh × Nat) =>
      ((c.1.col.filter fun t => t.1 == i).map fun t => dyad t.2 (expOf sc c.1.arr)).sum * v c.2).sum +
    dspApply sc d.e w i + dyad (d.f.getD i 0) (expOf sc d.fArr)
/-- Output i of the reduced model (R144). -/
def reducedOut (b : List Byte) (x u : Nat → Rat) (i : Nat) : Rat :=
  let sc := mdlScales b
  let d := mdlDispatch b
  dspApply sc d.c x i + dspApply sc d.d u i

/-! ### The copy in a slot -/

/-- Base address of a model slot (R170). -/
abbrev slotBase (n : Nat) : Nat := if n = 0 then 0x21800000 else 0x22400000
/-- Relocate the addresses of a header at section offset o (R334): each nonzero one gains the section's address. -/
def relocate (sec : Nat) (b : List Byte) (m : Tab Byte) (o : Nat) : Tab Byte :=
  let fs : List Nat := if fieldN (b.drop o) 0 1 = 1 then [0x10, 0x14, 0x18] else [0x14, 0x18, 0x1C, 0x20]
  fs.foldl (fun m f => let v := fieldN b (o + f) 4; if v = 0 then m else wrN m (sec + o + f) 4 (v + sec)) m
/-- Units of the tracker for one THERMAL record (R246). -/
def thermUnits (sc : List ScaleRec) (t : ThermRec) : Int × Int × Int × Int :=
  let q (id : Nat) (m : Int) : Rat := dyad m (expOf sc id)
  (rneQ (q 0x38 t.mass * 256), rneQ ((2 ^ 32 : Nat) * (64 / 5 : Rat) / q 0x39 t.tau), rneQ (q 0x3A t.tg * 65536), rneQ (q 0x3B t.ti * 65536))
/-- Copy an image into a slot, its THERMAL values in the tracker's units and its object addresses relocated. -/
def mdlCopy (m : Tab Byte) (base : Nat) (b : List Byte) : Tab Byte :=
  let d := mdlDir b
  let ofs (t : Nat) : Nat := match sect d t with | some e => e.2.2.1 | none => 0
  let ts := mdlTherm b
  let m := wrBytes m base b
  let m := (ts.zip (List.range ts.length)).foldl (fun m (e : ThermRec × Nat) =>
    let u := thermUnits (mdlScales b) e.1
    let a := base + ofs 0xB + 16 + 48 * e.2
    wrBytes m (a + 8) (leBytes 8 (unsext 64 u.1) ++ leBytes 8 (unsext 64 u.2.1) ++ leBytes 8 (unsext 64 u.2.2.1) ++ leBytes 8 (unsext 64 u.2.2.2))) m
  let one (m : Tab Byte) (t n : Nat) : Tab Byte :=
    let l := mdlSect b t
    (objOfs l n 64).foldl (relocate (base + ofs t) l) m
  one (one m 0xA 4) 0xC 5
/-- Bytes of the model in a slot. -/
def State.slotBytes (s : State) (n : Nat) : List Byte := rdBytes s.yard (slotBase n) (rdN s.yard (slotBase n + 0x10) 8)
/-- Bytes of the model in force. -/
def State.mdlBytes (s : State) : List Byte := s.slotBytes s.mdl.slot

/-! ### Load states (R155 to R164) -/

/-- LOAD and CHECK; a change raises MODEL (R338). -/
def State.setLoad (s : State) (v check : Nat) : State :=
  if s.fld R.DSQ_MODEL_STAT 2 0 = v ∧ s.fld R.DSQ_MODEL_STAT 15 8 = check then s
  else ((s.setFld R.DSQ_MODEL_STAT 2 0 v).setFld R.DSQ_MODEL_STAT 15 8 check).irq dsqPage 14
/-- The image is refused at a check, recorded by R7. -/
def State.mdlRefuse (s : State) (check : Nat) : State :=
  ((s.setReg R.DSQ_MODEL_PEND_REV 0).setLoad 3 check).emitSev evModel 2 dsqPage [3, wd check]
/-- The pending image comes into force (R157): its registers, and measurement register 5 (R637). -/
def State.mdlActivate (s : State) : State :=
  let n := 1 - s.mdl.slot
  let b := s.slotBytes n
  let s := s.setMdl fun m => { act := true, slot := n, gen := m.gen + 1 }
  let s := s.setRegs [(R.DSQ_MODEL_ACT_ID, wd (fieldN b 8 4)), (R.DSQ_MODEL_ACT_REV, wd (fieldN b 12 4)), (R.DSQ_MODEL_PEND_REV, 0)]
  let s := ((s.setFlag R.DSQ_MODEL_STAT 16 true).setFlag R.DSQ_MODEL_STAT 17 (fieldN b 4 2 == 2)).setLoad 0 0
  (s.measExtend 5 (mdlDigest b)).emitSev evModel 0 dsqPage [0, wd (fieldN b 12 4)]
/-- A pending image comes into force after checks 11 and 12 are made again (R157). -/
def State.mdlTake (s : State) : State :=
  if s.fld R.DSQ_MODEL_STAT 2 0 ≠ 2 then s
  else match s.mdlLate (s.slotBytes (1 - s.mdl.slot)) with
    | some c => s.mdlRefuse c
    | none => s.mdlActivate
/-- A validation or pending image is discarded (R159, R160). -/
def State.mdlDrop (s : State) : State :=
  let v := s.fld R.DSQ_MODEL_STAT 2 0
  if v = 1 ∨ v = 2 then (s.setReg R.DSQ_MODEL_PEND_REV 0).setLoad 4 0 else s
/-- PD_YRD has left ON without retention: no model is in force (R162). -/
def State.mdlLost (s : State) : State :=
  let s := s.setMdl fun m => { m with act := false }
  ((s.setFld R.DSQ_MODEL_STAT 17 16 0).setReg R.DSQ_MODEL_ACT_ID 0).setReg R.DSQ_MODEL_ACT_REV 0
/-- PD_NSU comes ON again over a yard that kept its model (R162): the status registers show it. -/
def State.mdlShow (s : State) : State :=
  if !s.mdl.act then s
  else
    let b := s.mdlBytes
    let s := s.setRegs [(R.DSQ_MODEL_ACT_ID, wd (fieldN b 8 4)), (R.DSQ_MODEL_ACT_REV, wd (fieldN b 12 4))]
    (s.setFlag R.DSQ_MODEL_STAT 16 true).setFlag R.DSQ_MODEL_STAT 17 (fieldN b 4 2 == 2)
/-- REVISION of the image that lies at MODEL_ADDR; 0 where LPDDR5 does not answer. -/
def State.pendRev (s : State) : Word :=
  let a := s.reg64 R.DSQ_MODEL_ADDR_LO R.DSQ_MODEL_ADDR_HI
  if s.dramUp && inDram a 128 then wd (rdN s.dram (a + 12) 4) else 0
/-- MODEL_CMD.LOAD (R155, R159); `image` is what management firmware placed at MODEL_ADDR beforehand. -/
def execModelLoad (who : Initiator) (image : List Byte) (s : State) : Host.Outcome State Fault Refusal :=
  let a := s.reg64 R.DSQ_MODEL_ADDR_LO R.DSQ_MODEL_ADDR_HI
  let s := if s.dramUp && inDram a image.length then { s with dram := wrBytes s.dram a image } else s
  .next (s.gate who R.DSQ_MODEL_CMD fun s =>
    if s.fld R.DSQ_MODEL_STAT 2 0 = 1 then (s.errc dsqPage 0x103 0).emit evModelBusy dsqPage []
    else if !s.up 5 then s.setLoad 4 0
    else (s.setReg R.DSQ_MODEL_PEND_REV s.pendRev).setLoad 1 0)
/-- MODEL_CMD.CANCEL (R159). -/
def execModelCancel (who : Initiator) (s : State) : Host.Outcome State Fault Refusal :=
  .next (s.gate who R.DSQ_MODEL_CMD fun s => s.mdlDrop)
/-- Bytes of the image as read from LPDDR5: none where it cannot be read there. -/
def State.mdlImage (s : State) : List Byte :=
  let a := s.reg64 R.DSQ_MODEL_ADDR_LO R.DSQ_MODEL_ADDR_HI
  let n := s.regN R.DSQ_MODEL_LEN
  if s.dramUp && inDram a n && decide (n ≤ 12 * 1048576) then rdBytes s.dram a n else []
/-- The verdict on the image `b` (R156, R157). In FAULT, of which no rule speaks, an image that passes is PENDING, and stays so after
FAULT_CLR until a RUN or STOP takes it (DESIGN CHOICE, log entry 85). -/
def State.mdlJudge (s : State) (b : List Byte) (readBad : Bool) : State :=
  match s.mdlFail b (s.reg64 R.DSQ_MODEL_ADDR_LO R.DSQ_MODEL_ADDR_HI) (s.regN R.DSQ_MODEL_LEN) with
  | some c => s.mdlRefuse (if readBad && decide (4 < c) then 4 else c)
  | none =>
    if readBad then s.mdlRefuse 4
    else
      let s := { s with yard := mdlCopy s.yard (slotBase (1 - s.mdl.slot)) b }
      let s := s.setReg R.DSQ_MODEL_PEND_REV (wd (fieldN b 12 4))
      if s.shown dsqPage = 1 then s.mdlActivate else s.setLoad 2 0
/-- MODEL_VALIDATED: the checks, then in force at once in STOP and PENDING otherwise (R156, R157). `read` is what the reads of the
image met: with an uncorrectable burst the digest cannot match (R85, R156). MODEL_ADDR and MODEL_LEN are read here, where the image
is checked (DESIGN CHOICE, log entry 85). -/
def execModelValidated (read : Ecc) (s : State) : Host.Outcome State Fault Refusal :=
  if s.fld R.DSQ_MODEL_STAT 2 0 ≠ 1 ∨ !s.up 4 ∨ !s.up 5 then .next s
  else
    let b := s.mdlImage
    let t := if b.isEmpty then s else s.drmRead read (s.reg64 R.DSQ_MODEL_ADDR_LO R.DSQ_MODEL_ADDR_HI) b.length
    .next (t.mdlJudge b (read == .uncorrectable))

end Sys2Proof.Machine
end

