-- ==== Sys2Proof/Machine/Fix.lean ====
section
/-! DEFINITION. Fixed-point arithmetic and the objects in the yard: accumulator, rescale, scalar format, vectors,
matrices, factors, warm starts and the conjugate gradient method (R175 to R223). -/

namespace Sys2Proof.Machine

/-! ### Accumulator and scales (R175 to R178) -/

/-- Where a RANGE struck (R201): operand, sub-array, element. -/
abbrev RangeAt := Nat × Nat × Nat
/-- A computation that may end with RANGE. -/
abbrev Fx (α : Type) := Except RangeAt α
/-- An optional value as such a computation. -/
def inRange {α : Type} (w : RangeAt) : Option α → Fx α
  | some x => .ok x
  | none => .error w
/-- At most 159 magnitude bits (R176). -/
def accOk (x : Int) : Bool := decide (x.natAbs < 2 ^ 159)
/-- Finest scale of a list of terms. -/
def finest : List (Int × Int) → Int
  | [] => 0
  | [t] => t.2
  | t :: l => min t.2 (finest l)
/-- Sum of terms (mantissa, scale) at the finest scale among them; none when the accumulator saturates. -/
def accSum (ts : List (Int × Int)) : Option (Int × Int) :=
  let e := finest ts
  (ts.foldl (fun (acc : Option Int) (t : Int × Int) =>
    match acc with
    | none => none
    | some a =>
      let v := t.1 * 2 ^ (t.2 - e).toNat
      if accOk v && accOk (a + v) then some (a + v) else none) (some 0)).map fun a => (a, e)
/-- The term of a list at which the accumulator saturates; 0 where it does not. -/
def satAt (ts : List (Int × Int)) : Nat := ((List.range ts.length).find? fun i => (accSum (ts.take (i + 1))).isNone).getD 0
/-- Rescale a mantissa from scale e to scale f (R177). -/
def rescale (m e f : Int) : Int := if e ≤ f then rne m (2 ^ (f - e).toNat) else m * 2 ^ (e - f).toNat
/-- Accumulate and rescale once. -/
def sumTo (f : Int) (ts : List (Int × Int)) : Option Int := (accSum ts).map fun a => rescale a.1 a.2 f
/-- A vector of n elements; one that has no value, or that exceeds the bound, strikes RANGE (R178). -/
def build (opnd sub : Nat) (bound : Nat) (f : Nat → Option Int) : List Nat → Fx (List Int)
  | [] => .ok []
  | i :: l =>
    match f i with
    | none => .error (opnd, sub, i)
    | some v =>
      if bound < v.natAbs then .error (opnd, sub, i)
      else match build opnd sub bound f l with
        | .ok r => .ok (v :: r)
        | .error e => .error e
/-- Bound of a scratch vector (R179). -/
abbrev b62 : Nat := 2 ^ 62
/-- Element i. -/
abbrev el (l : List Int) (i : Nat) : Int := l.getD i 0

/-! ### Scalar format (R180, R181) -/

/-- A scalar: mantissa and exponent. -/
abbrev Scal := Int × Int
/-- Convert to scalar format, ties to even; none when the exponent leaves its range. -/
def toScalar (m e : Int) : Option Scal :=
  if m = 0 then some (0, 0)
  else
    let n : Nat := m.natAbs.log2 + 1
    let r : Scal :=
      if n ≤ 63 then (m * 2 ^ (63 - n), e - (63 - n : Nat))
      else
        let q := rne m (2 ^ (n - 63))
        if q.natAbs = 2 ^ 63 then (q / 2, e + (n - 63 : Nat) + 1) else (q, e + (n - 63 : Nat))
    if -32768 ≤ r.2 ∧ r.2 ≤ 32767 then some r else none
/-- Value of a scalar. -/
def Scal.val (a : Scal) : Rat := dyad a.1 a.2
/-- Quotient of the scalar unit: zero for a zero dividend, else some value within 2^-48 of the exact one, the free constant picking
which (R181); none where the denominator is zero or the exponent leaves its range. -/
def scalDiv (a b : Scal) : Option Scal :=
  if b.1 = 0 then none
  else if a.1 = 0 then some (0, 0)
  else
    let n := a.1 * 2 ^ 64
    let q := n / b.1
    let w : Int := ((n.natAbs / (b.1.natAbs * 2 ^ 48) : Nat) : Int) - 4
    toScalar (clampI (q - w) (q + w) (Config.scalarQuot a.1 b.1)) (a.2 - b.2 - 64)
/-- Product, sum and difference of scalars, rounded once into scalar format (R180). -/
def scalMul (a b : Scal) : Option Scal := toScalar (a.1 * b.1) (a.2 + b.2)
def scalAdd (a b : Scal) : Option Scal := (accSum [a, b]).bind fun r => toScalar r.1 r.2
abbrev scalNeg (a : Scal) : Scal := (-a.1, a.2)
/-- Reciprocal square root of a positive mantissa at a scale, as (mantissa, scale), within 2^-48 (R181). -/
def recipRoot (a : Nat) (e : Int) : Int × Int :=
  let o : Nat := (e % 2).toNat
  let a2 := a * 2 ^ o
  let g : Int := (Nat.sqrt (2 ^ 256 / a2) : Nat)
  let w : Int := g / 2 ^ 48 - 2
  (clampI (g - w) (g + w) (Config.scalarRsqrt a e), -128 - (e - o) / 2)
/-- Square root of a scalar that is not negative: its product with its reciprocal root (R166, R181). -/
def scalRoot (a : Scal) : Option Scal :=
  if a.1 ≤ 0 then some (0, 0) else let g := recipRoot a.1.natAbs a.2; toScalar (a.1 * g.1) (a.2 + g.2)
/-- Products of two vectors at their scales. -/
abbrev dotTerms (x : List Int) (ex : Int) (y : List Int) (ey : Int) : List (Int × Int) := (x.zip y).map fun p => (p.1 * p.2, ex + ey)
/-- Dot product of two vectors at their scales: exact, then in scalar format. -/
def dotS (x : List Int) (ex : Int) (y : List Int) (ey : Int) : Option Scal :=
  match accSum (dotTerms x ex y ey) with
  | some a => toScalar a.1 (if x.isEmpty then 0 else a.2)
  | none => none
/-- The same, with the place of a RANGE: operand, sub-array and the element at which the sum saturates (R182). -/
def dotAt (opnd sub : Nat) (x : List Int) (ex : Int) (y : List Int) (ey : Int) : Fx Scal :=
  inRange (opnd, sub, satAt (dotTerms x ex y ey)) (dotS x ex y ey)

/-! ### Headers in the yard (R183, R184, R188) -/

/-- A vector header. -/
structure VHdr where
  at'    : Nat
  kind   : Nat
  arr    : Nat
  e      : Int
  blocks : Nat
  len    : Nat
  cap    : Nat
  data   : Nat
  ids    : Nat
  defs   : Nat
  fp     : Nat
  bound  : Nat
deriving DecidableEq, Repr
/-- A matrix header. -/
structure MHdr where
  at'    : Nat
  kind   : Nat
  fpOk   : Bool
  e      : Int
  blocks : Nat
  nRows  : Nat
  nCols  : Nat
  nnz    : Nat
  rowPtr : Nat
  colIdx : Nat
  vals   : Nat
  ids    : Nat
  fp     : Nat
  bound  : Nat
deriving DecidableEq, Repr
/-- A factor header. -/
structure FHdr where
  at'    : Nat
  kind   : Nat
  flags  : Nat
  eL     : Int
  eD     : Int
  eI     : Int
  n      : Nat
  nnz    : Nat
  rowPtr : Nat
  colIdx : Nat
  buf0   : Nat
  buf1   : Nat
  bL     : Nat
  bD     : Nat
  bI     : Nat
deriving DecidableEq, Repr

def rdVHdr (m : Tab Byte) (a : Nat) : VHdr :=
  ⟨a, rdN m a 1, rdN m (a + 2) 2, rdI m (a + 4) 1, max 1 (rdN m (a + 6) 2), rdN m (a + 8) 4, rdN m (a + 12) 4, rdN m (a + 0x10) 4,
    rdN m (a + 0x14) 4, rdN m (a + 0x18) 4, rdN m (a + 0x20) 8, rdN m (a + 0x28) 8⟩
def rdMHdr (m : Tab Byte) (a : Nat) : MHdr :=
  ⟨a, rdN m a 1, (rdN m (a + 1) 1).testBit 0, rdI m (a + 4) 1, max 1 (rdN m (a + 6) 2), rdN m (a + 8) 4, rdN m (a + 12) 4, rdN m (a + 0x10) 4,
    rdN m (a + 0x14) 4, rdN m (a + 0x18) 4, rdN m (a + 0x1C) 4, rdN m (a + 0x20) 4, rdN m (a + 0x28) 8, rdN m (a + 0x30) 8⟩
def rdFHdr (m : Tab Byte) (a : Nat) : FHdr :=
  ⟨a, rdN m a 1, rdN m (a + 1) 1, rdI m (a + 4) 1, rdI m (a + 5) 1, rdI m (a + 6) 1, rdN m (a + 8) 4, rdN m (a + 12) 4, rdN m (a + 0x10) 4,
    rdN m (a + 0x14) 4, rdN m (a + 0x18) 4, rdN m (a + 0x1C) 4, rdN m (a + 0x28) 8, rdN m (a + 0x30) 8, rdN m (a + 0x38) 8⟩
/-- n signed 64-bit mantissas, or n 32-bit words, from an address. -/
def rdInts (m : Tab Byte) (a n : Nat) : List Int := (List.range n).map fun i => rdI m (a + 8 * i) 8
def rdWords (m : Tab Byte) (a n : Nat) : List Nat := (List.range n).map fun i => rdN m (a + 4 * i) 4
/-- The bytes lie in the working area (R170); in the yard, where a read-only operand may lie. -/
def inWork (a n : Nat) : Bool := decide (0x20000000 ≤ a ∧ a + n ≤ 0x21700000)
/-- Region an operand may lie in. -/
def inRegion (write : Bool) (a n : Nat) : Bool := if write then inWork a n else inYard a n
/-- Elements of a vector. -/
def VHdr.read (h : VHdr) (m : Tab Byte) : List Int := rdInts m h.data h.len
/-- A usable vector header of at least `n` capacity (R200). -/
def VHdr.ok (h : VHdr) (write : Bool) : Bool :=
  h.kind == 1 && h.at' % 64 == 0 && inRegion write h.at' 64 && h.data % 64 == 0 && inRegion write h.data (8 * h.cap) &&
    decide (h.len ≤ h.cap ∧ h.bound ≤ b62)
/-- Entries of a matrix, row by row: (column, mantissa). -/
def MHdr.rows (h : MHdr) (m : Tab Byte) : List (List (Nat × Int)) :=
  (List.range h.nRows).map fun i =>
    let a := rdN m (h.rowPtr + 4 * i) 4
    let z := rdN m (h.rowPtr + 4 * i + 4) 4
    (List.range (z - a)).map fun k => (rdN m (h.colIdx + 4 * (a + k)) 4, rdI m (h.vals + 8 * (a + k)) 8)
/-- Header, pointers and rows are usable (R184, R185, R200). -/
def MHdr.ok (h : MHdr) (m : Tab Byte) (write : Bool) : Bool :=
  (h.kind == 2 || h.kind == 3) && h.at' % 64 == 0 && inRegion write h.at' 64 && decide (h.nRows ≤ 2 ^ 20 ∧ h.nnz ≤ 2 ^ 21 ∧ h.bound ≤ b62) &&
    (h.kind == 3 || h.nCols == h.nRows) && inYard h.rowPtr (4 * (h.nRows + 1)) && inYard h.colIdx (4 * h.nnz) && inRegion write h.vals (8 * h.nnz) &&
    rdN m h.rowPtr 4 == 0 && rdN m (h.rowPtr + 4 * h.nRows) 4 == h.nnz &&
    decide ((rdWords m h.rowPtr (h.nRows + 1)).Pairwise (· ≤ ·)) &&
    (let rs := h.rows m
     (rs.zip (List.range rs.length)).all fun (e : List (Nat × Int) × Nat) =>
      decide ((e.1.map (·.1)).Pairwise (· < ·)) && e.1.all (fun c => decide (c.1 < h.nCols)) &&
        (h.kind == 3 || (match e.1.getLast? with | some c => c.1 == e.2 | none => false)))
/-- Structure fingerprint (R186). The BLOCKS field enters it as it is stored, a 0 as 0 (DESIGN CHOICE, log entry 85). -/
def MHdr.fprint (h : MHdr) (m : Tab Byte) : Nat :=
  leNat (shake256 (leBytes 4 h.nRows ++ leBytes 4 h.nnz ++ leBytes 2 (rdN m (h.at' + 6) 2) ++ rdBytes m h.rowPtr (4 * (h.nRows + 1)) ++
    rdBytes m h.colIdx (4 * h.nnz) ++
    (if h.ids = 0 then List.replicate (4 * (h.nCols / h.blocks)) 0 else rdBytes m h.ids (4 * (h.nCols / h.blocks)))) 8)
/-- The fingerprint in force, computed where FP_VALID is clear, and the header bytes that then change (R187). -/
def MHdr.fpNow (h : MHdr) (m : Tab Byte) : Nat × List (Nat × List Byte) :=
  if h.fpOk then (h.fp, [])
  else
    let f := h.fprint m
    (f, if inWork h.at' 64 then [(h.at' + 1, [BitVec.ofNat 8 (rdN m (h.at' + 1) 1 ||| 1)]), (h.at' + 0x28, leBytes 8 f)] else [])

/-! ### Products -/

/-- A matrix as entries (row, column, mantissa) with its scale; `sym` for SCSR. -/
structure Mat where
  e    : Int
  sym  : Bool
  rows : Nat
  cols : Nat
  ents : List (Nat × Nat × Int)
deriving DecidableEq, Repr
/-- Matrix in the yard. -/
def MHdr.mat (h : MHdr) (m : Tab Byte) : Mat :=
  let rs := h.rows m
  ⟨h.e, h.kind == 2, h.nRows, h.nCols, (rs.zip (List.range rs.length)).flatMap fun (e : List (Nat × Int) × Nat) => e.1.map fun c => (e.2, c.1, c.2)⟩
/-- Products of row i with a vector, in column order. -/
def Mat.rowTerms (a : Mat) (x : List Int) (i : Nat) : List Int :=
  a.ents.filterMap fun (t : Nat × Nat × Int) =>
    if t.1 = i then some (t.2.2 * el x t.2.1) else if a.sym ∧ t.2.1 = i then some (t.2.2 * el x t.1) else none
/-- Products of column i with a vector. -/
def Mat.colTerms (a : Mat) (x : List Int) (i : Nat) : List Int :=
  a.ents.filterMap fun (t : Nat × Nat × Int) => if t.2.1 = i then some (t.2.2 * el x t.1) else none
/-- y = A x at scale f, one rescale per element. -/
def Mat.mul (a : Mat) (opnd sub bound : Nat) (x : List Int) (ex f : Int) : Fx (List Int) :=
  build opnd sub bound (fun i => sumTo f ((a.rowTerms x i).map fun p => (p, a.e + ex))) (List.range a.rows)
/-- y = Aᵀ x. -/
def Mat.mulT (a : Mat) (opnd sub bound : Nat) (x : List Int) (ex f : Int) : Fx (List Int) :=
  build opnd sub bound (fun i => sumTo f ((a.colTerms x i).map fun p => (p, a.e + ex))) (List.range a.cols)
/-- x + c·y at x's scale for a scalar c (R209). -/
def addScaled (opnd sub bound : Nat) (x : List Int) (ex : Int) (c : Scal) (y : List Int) (ey : Int) : Fx (List Int) :=
  build opnd sub bound (fun i => sumTo ex [(el x i, ex), (c.1 * el y i, c.2 + ey)]) (List.range x.length)
/-- c·x at scale f for a scalar c. -/
def scaleVec (opnd sub : Nat) (c : Scal) (x : List Int) (ex f : Int) : Fx (List Int) :=
  build opnd sub b62 (fun i => sumTo f [(c.1 * el x i, c.2 + ex)]) (List.range x.length)
/-- x − y of one scale. -/
def subVec (opnd sub : Nat) (x y : List Int) (e : Int) : Fx (List Int) :=
  build opnd sub b62 (fun i => sumTo e [(el x i, e), (-(el y i), e)]) (List.range x.length)

/-! ### Incomplete factorisation (R205 to R207) -/

/-- A factor: rows of L (column, mantissa) without the diagonal, D, DINV, and the regularised rows. -/
structure Factor where
  eL  : Int
  eD  : Int
  eI  : Int
  l   : List (List (Nat × Int)) := []
  d   : List Int := []
  di  : List Int := []
  log : List Nat := []
deriving DecidableEq, Repr
/-- Entry of a sparse row. -/
def rowAt (r : List (Nat × Int)) (j : Nat) : Option Int := (r.find? fun c => c.1 == j).map (·.2)
/-- Terms −l(i,k)·l(j,k)·d(k) over the columns k < j of both rows. -/
def crossTerms (f : Factor) (ri rj : List (Nat × Int)) (j : Nat) : List (Int × Int) :=
  ri.filterMap fun (c : Nat × Int) =>
    if c.1 < j then (rowAt rj c.1).map fun v => (-(c.2 * v * el f.d c.1), 2 * f.eL + f.eD) else none
/-- Off-diagonal entries of a row, rising; `pos` is the place of its next entry in the pattern (R182). -/
def rowL (f : Factor) (eA : Int) (bL : Nat) : Nat → List (Nat × Int) → List (Nat × Int) → Fx (List (Nat × Int))
  | _, acc, [] => .ok acc
  | pos, acc, (j, a) :: t =>
    match accSum ((a, eA) :: crossTerms f acc (f.l.getD j []) j) with
    | none => .error (3, 0, pos)
    | some s =>
      let v := rescale (s.1 * el f.di j) (s.2 + f.eI) f.eL
      if bL < v.natAbs then .error (3, 0, pos) else rowL f eA bL (pos + 1) (acc ++ [(j, v)]) t
/-- The larger of two nonnegative dyadic numbers. -/
def dyMax (a b : Int × Int) : Int × Int := if dyad a.1 a.2 < dyad b.1 b.2 then b else a
/-- One row of the factorisation: `row` holds A's columns up to the diagonal, the first of them at `pos` in the pattern. -/
def factorRow (indef : Bool) (tau : Nat) (delta : Int × Int) (eA : Int) (bL bD bI : Nat) (f : Factor) (pos i : Nat) (row : List (Nat × Int)) :
    Fx Factor := do
  let aii := (rowAt row i).getD 0
  let r ← rowL f eA bL pos [] (row.filter fun c => decide (c.1 < i))
  let s ← inRange (3, 1, i) (accSum ((aii, eA) :: r.map fun c => (-(c.2 * c.2 * el f.d c.1), 2 * f.eL + f.eD)))
  let t : Int × Int := ((aii.natAbs : Int), eA - tau)
  let big := dyMax t delta
  let low := decide (dyad s.1.natAbs s.2 < dyad t.1 t.2)
  let p : (Int × Int) × Bool :=
    if indef then
      if s.1 = 0 then (delta, true) else if low then ((if s.1 < 0 then -big.1 else big.1, big.2), true) else (s, false)
    else if s.1 ≤ 0 ∨ low then (big, true) else (s, false)
  let d := rescale p.1.1 p.1.2 f.eD
  if bD < d.natAbs then throw (3, 1, i)
  let sc ← inRange (3, 2, i) (toScalar p.1.1 p.1.2)
  let q ← inRange (3, 2, i) (scalDiv (2 ^ 62, -62) sc)
  let v := rescale q.1 q.2 f.eI
  if bI < v.natAbs then throw (3, 2, i)
  return { f with l := f.l ++ [r], d := f.d ++ [d], di := f.di ++ [v], log := if p.2 then f.log ++ [i] else f.log }
/-- How a factorisation ended: built, interrupted at a 256-row check with an outcome, or RANGE. -/
inductive FacEnd
  | built
  | cut (out : Nat)
  | range (w : RangeAt)
deriving DecidableEq, Repr
/-- Rows in order, with the factor as far as it came; `chk` gives the outcome of the n-th 256-row check, where one ends the work. -/
def factorRows (indef : Bool) (tau : Nat) (delta : Int × Int) (eA : Int) (bL bD bI : Nat) (chk : Nat → Option Nat) :
    Factor → Nat → Nat → List (List (Nat × Int)) → Factor × FacEnd
  | f, _, _, [] => (f, .built)
  | f, pos, i, row :: t =>
    match factorRow indef tau delta eA bL bD bI f pos i row with
    | .error e => (f, .range e)
    | .ok g =>
      match (if (i + 1) % 256 = 0 then chk ((i + 1) / 256 - 1) else none) with
      | some o => (g, .cut o)
      | none => factorRows indef tau delta eA bL bD bI chk g (pos + row.length) (i + 1) t
/-- δ_abs (R206). -/
def deltaAbs (param : Int) (ep : Int) (tau : Nat) (eA eD : Int) (rows : List (List (Nat × Int))) : Int × Int :=
  if param ≠ 0 then (param, ep)
  else
    let m := ((rows.zip (List.range rows.length)).map fun (e : List (Nat × Int) × Nat) => ((rowAt e.1 e.2).getD 0).natAbs).foldl max 0
    if m = 0 then (1, eD) else ((m : Int), eA - tau)
/-- M⁻¹r with a factor: forward solve at r's scale, DINV into z's scale, back solve. -/
def factorSolve (f : Factor) (r : List Int) (er ez : Int) : Fx (List Int) := do
  let n := f.l.length
  let y ← (List.range n).foldlM (fun (acc : List Int) i => do
    let v ← inRange (5, 4, i) (sumTo er ((el r i, er) :: (f.l.getD i []).map fun c => (-(c.2 * el acc c.1), f.eL + er)))
    if b62 < v.natAbs then throw (5, 4, i)
    return acc ++ [v]) []
  let w ← build 5 4 b62 (fun i => some (rescale (el y i * el f.di i) (er + f.eI) ez)) (List.range n)
  (List.range n).reverse.foldlM (fun (z : List Int) i => do
    let ts := ((List.range n).filterMap fun k => (rowAt (f.l.getD k []) i).map fun v => (-(v * el z k), f.eL + ez))
    let v ← inRange (5, 4, i) (sumTo ez ((el z i, ez) :: ts))
    if b62 < v.natAbs then throw (5, 4, i)
    return z.set i v) w
/-- A preconditioner: none, a factor, or a diagonal with its scale. -/
inductive Prec
  | none
  | factor (f : Factor)
  | diag (e : Int) (m : List Int)
deriving DecidableEq, Repr
/-- M⁻¹r at z's scale. -/
def Prec.solve (p : Prec) (r : List Int) (er ez : Int) : Fx (List Int) :=
  match p with
  | .none => build 5 4 b62 (fun i => some (rescale (el r i) er ez)) (List.range r.length)
  | .diag e m => build 5 4 b62 (fun i => some (rescale (el m i * el r i) (e + er) ez)) (List.range r.length)
  | .factor f => factorSolve f r er ez
/-- Bytes of a factor buffer: 64-byte header with the fingerprint, L in pattern order, D, DINV, each aligned (R188). -/
def up64 (n : Nat) : Nat := (n + 63) / 64 * 64
/-- Addresses of L, D and DINV in a buffer. -/
def bufParts (buf n nnz : Nat) : Nat × Nat × Nat := (buf + 64, buf + 64 + up64 (8 * nnz), buf + 64 + up64 (8 * nnz) + up64 (8 * n))
/-- The active buffer of a factor header: its number, address and VALID bit. -/
def FHdr.active (h : FHdr) : Nat × Nat × Bool :=
  if h.flags.testBit 2 then (1, h.buf1, h.flags.testBit 1) else (0, h.buf0, h.flags.testBit 0)
/-- The factor in the active buffer. -/
def FHdr.read (h : FHdr) (m : Tab Byte) : Factor :=
  let p := bufParts h.active.2.1 h.n h.nnz
  { eL := h.eL, eD := h.eD, eI := h.eI,
    l := (List.range h.n).map fun i =>
      let a := rdN m (h.rowPtr + 4 * i) 4
      let z := rdN m (h.rowPtr + 4 * i + 4) 4
      ((List.range (z - a)).map fun k => (rdN m (h.colIdx + 4 * (a + k)) 4, rdI m (p.1 + 8 * (a + k)) 8)).filter fun c => decide (c.1 < i),
    d := rdInts m p.2.1 h.n, di := rdInts m p.2.2 h.n }
/-- Bytes that build a factor into the other buffer and commit it (R189). -/
def FHdr.commit (h : FHdr) (m : Tab Byte) (f : Factor) (fp : Nat) (indef : Bool) : List (Nat × List Byte) :=
  let k := 1 - h.active.1
  let buf := if k = 0 then h.buf0 else h.buf1
  let p := bufParts buf h.n h.nnz
  let ls : List Int := (f.l.zip (List.range f.l.length)).flatMap fun (e : List (Nat × Int) × Nat) =>
    let a := rdN m (h.rowPtr + 4 * e.2) 4
    e.1.map (·.2) ++ [rdI m (p.1 + 8 * (a + e.1.length)) 8]
  let flags := (h.flags ||| 2 ^ k) % 4 + 4 * k + 8 * b2n indef
  [(buf, leBytes 8 fp), (p.1, ls.flatMap fun v => leBytes 8 (unsext 64 v)), (p.2.1, f.d.flatMap fun v => leBytes 8 (unsext 64 v)),
    (p.2.2, f.di.flatMap fun v => leBytes 8 (unsext 64 v)), (h.at' + 1, [BitVec.ofNat 8 flags]), (h.at' + 0x20, leBytes 8 fp)]

/-! ### Iterative methods (R208 to R213) -/

/-- The outcome where a job is interrupted before or at point p: an error that struck before it, a deadline with its code, or a drain
(R224, R225). -/
def cutAt (cut : JobCut) (p code : Nat) : Option Nat :=
  match cut.err.filter fun e => decide (e.1 ≤ p) with
  | some (_, .ecc _) => some 7
  | some (_, .hw _) => some 11
  | none =>
    if cut.deadline.any fun q => decide (q ≤ p) then some code
    else if cut.drain.any fun q => decide (q ≤ p) then some 10
    else none
/-- The outcome of the error among what a job meets. -/
def cutErr (cut : JobCut) : Option Nat := cut.err.map fun e => match e.2 with | .ecc _ => 7 | .hw _ => 11
/-- A solve as it runs and as it ended: outcome, iterate, the vectors r, z, p, q, iterations, ‖r‖², r·z, and the place of a RANGE. -/
structure KOut where
  out   : Nat := 0
  x     : List Int
  r     : List Int := []
  z     : List Int := []
  p     : List Int := []
  q     : List Int := []
  iters : Nat := 0
  rr    : Scal := (0, 0)
  rz    : Scal := (0, 0)
  rng   : RangeAt := (0, 0, 0)
deriving DecidableEq, Repr
/-- What a solve works with: A's product at r's scale, the preconditioner, the scales of r and of x, ‖b‖², TOL and MAX_ITER, what
interrupts it and the number of its first iteration boundary. -/
structure KryEnv where
  mul  : List Int → Fx (List Int)
  pre  : Prec
  er   : Int
  ex   : Int
  bb   : Scal
  tol  : Nat
  maxIt : Nat
  cut  : JobCut
  pt   : Nat
/-- The solve ends with RANGE. -/
def KOut.range (k : KOut) (w : RangeAt) : KOut := { k with out := 4, rng := w }
/-- The tests of an iteration boundary, in the order of R225; none where the solve goes on. -/
def KryEnv.boundary (e : KryEnv) (iters : Nat) (rr : Scal) : Option Nat :=
  if rr.val ≤ e.bb.val / (2 ^ (2 * e.tol) : Nat) then some 0
  else if iters = e.maxIt then some 1
  else cutAt e.cut (e.pt + iters - 1) 2

/-- The first half of an iteration of R209, up to the new residual; none where the denominator is not positive. -/
def cgStep (e : KryEnv) (k : KOut) : Fx (Option KOut) := do
  let q ← e.mul k.p
  let pq ← dotAt 5 7 k.p e.ex q e.er
  if pq.1 ≤ 0 then return none
  let al ← inRange (5, 7, 0) (scalDiv k.rz pq)
  let x ← addScaled 5 7 b62 k.x e.ex al k.p e.ex
  let r ← addScaled 5 3 b62 k.r e.er (scalNeg al) q e.er
  let rr ← dotAt 5 7 r e.er r e.er
  return some { k with x := x, r := r, q := q, rr := rr, iters := k.iters + 1 }
/-- The second half: the next direction; none where r·z, the denominator of β, is zero. -/
def cgTurn (e : KryEnv) (k : KOut) : Fx (Option KOut) := do
  let z ← e.pre.solve k.r e.er e.ex
  let rzn ← dotAt 5 7 k.r e.er z e.ex
  if k.rz.1 = 0 then return none
  let be ← inRange (5, 7, 0) (scalDiv rzn k.rz)
  let p ← addScaled 5 5 b62 z e.ex be k.p e.ex
  return some { k with z := z, p := p, rz := rzn }
/-- Iterations of R209. -/
def cgLoop (e : KryEnv) : Nat → KOut → KOut
  | 0, k => { k with out := 1 }
  | n + 1, k =>
    match cgStep e k with
    | .error w => k.range w
    | .ok none => { k with out := 5 }
    | .ok (some k) =>
      match e.boundary k.iters k.rr with
      | some o => { k with out := o }
      | none =>
        match cgTurn e k with
        | .error w => k.range w
        | .ok none => { k with out := 5 }
        | .ok (some k) => cgLoop e n k

/-- MINRES as it runs beside the iterate and the residual: the Lanczos vectors and directions at x's scale, and its scalars
(Paige and Saunders; PRESUMED recurrence, log entry 11). -/
structure MrSt where
  vOld : List Int
  v    : List Int
  z    : List Int
  wOld : List Int
  w    : List Int
  gOld : Scal
  g    : Scal
  eta  : Scal
  s0   : Scal := (0, 0)
  s1   : Scal := (0, 0)
  c0   : Scal := (2 ^ 62, -62)
  c1   : Scal := (2 ^ 62, -62)
deriving DecidableEq, Repr
/-- One in scalar format. -/
abbrev scalOne : Scal := (2 ^ 62, -62)
/-- One iteration of MINRES; none where a Lanczos norm is zero and no rotation can be formed (R210). -/
def mrStep (e : KryEnv) (k : KOut) (m : MrSt) : Fx (Option (KOut × MrSt)) := do
  let sc {α : Type} (o : Option α) : Fx α := inRange (5, 7, 0) o
  if m.g.1 = 0 then return none
  let z ← scaleVec 5 4 (← sc (scalDiv scalOne m.g)) m.z e.ex e.ex
  let q ← e.mul z
  let dl ← dotAt 5 7 q e.er z e.ex
  let a ← sc (scalDiv dl m.g)
  let b ← sc (scalDiv m.g m.gOld)
  let vn ← build 5 7 b62 (fun i => sumTo e.ex [(el q i, e.er), (-(a.1 * el m.v i), a.2 + e.ex), (-(b.1 * el m.vOld i), b.2 + e.ex)]) (List.range q.length)
  let zn ← e.pre.solve vn e.ex e.ex
  let gn ← sc (scalRoot (← dotAt 5 7 zn e.ex vn e.ex))
  let c0g ← sc (scalMul m.c0 m.g)
  let a0 ← sc (scalAdd (← sc (scalMul m.c1 dl)) (scalNeg (← sc (scalMul c0g m.s1))))
  let a1 ← sc (scalRoot (← sc (scalAdd (← sc (scalMul a0 a0)) (← sc (scalMul gn gn)))))
  let a2 ← sc (scalAdd (← sc (scalMul m.s1 dl)) (← sc (scalMul c0g m.c1)))
  let a3 ← sc (scalMul m.s0 m.g)
  if a1.1 = 0 then return none
  let cn ← sc (scalDiv a0 a1)
  let sn ← sc (scalDiv gn a1)
  let w' ← build 5 7 b62 (fun i => sumTo e.ex [(el z i, e.ex), (-(a3.1 * el m.wOld i), a3.2 + e.ex), (-(a2.1 * el m.w i), a2.2 + e.ex)]) (List.range q.length)
  let wn ← scaleVec 5 7 (← sc (scalDiv scalOne a1)) w' e.ex e.ex
  let x ← addScaled 5 7 b62 k.x e.ex (← sc (scalMul cn m.eta)) wn e.ex
  let eta := scalNeg (← sc (scalMul sn m.eta))
  let s2 ← sc (scalMul sn sn)
  let f : Scal ← if gn.1 = 0 then pure (0, 0) else sc (scalDiv (← sc (scalMul eta cn)) gn)
  let r ← build 5 3 b62 (fun i => sumTo e.er [(s2.1 * el k.r i, s2.2 + e.er), (f.1 * el vn i, f.2 + e.ex)]) (List.range q.length)
  let rr ← dotAt 5 7 r e.er r e.er
  return some ({ k with x := x, r := r, q := q, z := z, rr := rr, iters := k.iters + 1 },
    { vOld := m.v, v := vn, z := zn, wOld := m.w, w := wn, gOld := m.g, g := gn, eta := eta, s0 := m.s1, s1 := sn, c0 := m.c1, c1 := cn })
/-- Iterations of MINRES, with the tests of R209. -/
def mrLoop (e : KryEnv) : Nat → KOut → MrSt → KOut
  | 0, k, _ => { k with out := 1 }
  | n + 1, k, m =>
    match mrStep e k m with
    | .error w => k.range w
    | .ok none => { k with out := 5 }
    | .ok (some (k, m)) =>
      match e.boundary k.iters k.rr with
      | some o => { k with out := o }
      | none => mrLoop e n k m
/-- MINRES from the initial residual. -/
def minres (e : KryEnv) (k : KOut) : KOut :=
  let start : Fx MrSt := do
    let v ← scaleVec 5 7 scalOne k.r e.er e.ex
    let z ← e.pre.solve v e.ex e.ex
    let g ← inRange (5, 7, 0) (scalRoot (← dotAt 5 7 z e.ex v e.ex))
    let o : List Int := List.replicate v.length 0
    return { vOld := o, v := v, z := z, wOld := o, w := o, gOld := scalOne, g := g, eta := g }
  match start with
  | .error w => k.range w
  | .ok m => mrLoop e e.maxIt k m

/-- BiCGSTAB as it runs beside the iterate and the residual: r̂ at x's scale, its scalars, and the completed iterate of smallest
‖r‖² seen with its residual (van der Vorst; PRESUMED recurrence, log entry 11). -/
structure BiSt where
  rh   : List Int
  rho  : Scal := scalOne
  al   : Scal := scalOne
  om   : Scal := scalOne
  best : List Int
  bestR : Scal
deriving DecidableEq, Repr
/-- One iteration of BiCGSTAB with p and q in the running solve; none where ρ, r̂·q or ω is zero (R211). -/
def biStep (e : KryEnv) (k : KOut) (b : BiSt) : Fx (Option (KOut × BiSt)) := do
  let sc {α : Type} (o : Option α) : Fx α := inRange (5, 7, 0) o
  let rho ← dotAt 5 7 b.rh e.ex k.r e.er
  if rho.1 = 0 then return none
  let be ← sc (scalMul (← sc (scalDiv rho b.rho)) (← sc (scalDiv b.al b.om)))
  let bo := scalNeg (← sc (scalMul be b.om))
  let p ← build 5 5 b62 (fun i => sumTo e.ex [(el k.r i, e.er), (be.1 * el k.p i, be.2 + e.ex), (bo.1 * el k.q i, bo.2 + e.er)]) (List.range k.r.length)
  let z ← e.pre.solve p e.ex e.ex
  let q ← e.mul z
  let rq ← dotAt 5 7 b.rh e.ex q e.er
  if rq.1 = 0 then return none
  let al ← sc (scalDiv rho rq)
  let s ← addScaled 5 7 b62 k.r e.er (scalNeg al) q e.er
  let x ← addScaled 5 7 b62 k.x e.ex al z e.ex
  let z ← e.pre.solve s e.er e.ex
  let t ← e.mul z
  let tt ← dotAt 5 7 t e.er t e.er
  let ts ← dotAt 5 7 t e.er s e.er
  if tt.1 = 0 ∨ ts.1 = 0 then return none
  let om ← sc (scalDiv ts tt)
  let x ← addScaled 5 7 b62 x e.ex om z e.ex
  let r ← addScaled 5 3 b62 s e.er (scalNeg om) t e.er
  let rr ← dotAt 5 7 r e.er r e.er
  let less := decide (rr.val < b.bestR.val)
  return some ({ k with x := x, r := r, p := p, q := q, z := z, rr := rr, iters := k.iters + 1 },
    { b with rho := rho, al := al, om := om, best := if less then x else b.best, bestR := if less then rr else b.bestR })
/-- The best iterate is what the job returns (R211). -/
def BiSt.finish (b : BiSt) (k : KOut) (out : Nat) : KOut := { k with out := out, x := b.best, rr := b.bestR }
/-- Iterations of BiCGSTAB, with the tests of R209. -/
def biLoop (e : KryEnv) : Nat → KOut → BiSt → KOut
  | 0, k, b => b.finish k 1
  | n + 1, k, b =>
    match biStep e k b with
    | .error w => k.range w
    | .ok none => b.finish k 5
    | .ok (some (k, b)) =>
      match e.boundary k.iters k.rr with
      | some o => b.finish k o
      | none => biLoop e n k b
/-- BiCGSTAB from the initial residual. -/
def bicgstab (e : KryEnv) (k : KOut) : KOut :=
  let o : List Int := List.replicate k.r.length 0
  match scaleVec 5 7 scalOne k.r e.er e.ex with
  | .error w => k.range w
  | .ok rh => biLoop e e.maxIt { k with p := o, q := o } { rh := rh, best := k.x, bestR := k.rr }

/-- A solve from x0 to its end by PCG, MINRES or BiCGSTAB, with ‖b‖²: `res` forms b − A·x, `b` is the right-hand side at r's scale,
and `pt` is the point after the initial residual (R209, R224). -/
def solveFrom (op : Nat) (mul res : List Int → Fx (List Int)) (b : List Int) (pre : Prec) (er ex : Int) (tol maxIt : Nat) (cut : JobCut)
    (pt : Nat) (x0 : List Int) : KOut × Scal :=
  let k0 : KOut := { x := x0 }
  let start : Fx (KOut × Scal) := do
    let r ← res x0
    let bb ← dotAt 5 7 b er b er
    let rr ← dotAt 5 7 r er r er
    let k := { k0 with r := r, rr := rr }
    if op = 0x21 ∨ op = 0x22 then return (k, bb)
    let z ← pre.solve r er ex
    let rz ← dotAt 5 7 r er z ex
    return ({ k with z := z, p := z, rz := rz }, bb)
  match start with
  | .error w => (k0.range w, (0, 0))
  | .ok (k, bb) =>
    if bb.1 = 0 then ({ k with x := x0.map fun _ => 0, rr := (0, 0) }, bb)
    else match cutAt cut pt 3 with
      | some o => ({ k with out := o }, bb)
      | none =>
        let e : KryEnv := ⟨mul, pre, er, ex, bb, tol, maxIt, cut, pt + 1⟩
        (if op = 0x21 then minres e k else if op = 0x22 then bicgstab e k else cgLoop e maxIt k, bb)

/-! ### Warm starts (R219 to R221) -/

/-- Starting iterate with the record flag (1 matched, 2 remapped, 3 rejected, 0 none) and the counts. -/
structure Warm where
  x    : List Int
  flag : Nat := 0
  cnt  : Nat × Nat × Nat × Nat := (0, 0, 0, 0)
deriving DecidableEq, Repr
/-- Defaults of x for n elements. -/
def defaults (m : Tab Byte) (x : VHdr) (n : Nat) : List Int := if x.defs = 0 then List.replicate n 0 else rdInts m x.defs n
/-- The mapper of R220 and the cases of R219 for a source and a matrix with fingerprint fp. -/
def mapper (m : Tab Byte) (a : MHdr) (fp : Nat) (x src : VHdr) : Warm :=
  let n := a.nCols
  let df := defaults m x n
  let sv := src.read m
  let fit (v : Int) : Int := rescale v src.e x.e
  if src.fp = fp then
    let r := (List.range n).map fun i => let v := fit (el sv i); if x.bound < v.natAbs then (el df i, 1) else (v, 0)
    let sat := (r.map (·.2)).sum
    ⟨r.map (·.1), 1, (n - sat, 0, src.len - n, sat)⟩
  else
    let tl := n / a.blocks
    let sl := src.len / src.blocks
    let tid := rdWords m a.ids tl
    let sid := rdWords m src.ids sl
    if a.ids = 0 ∨ src.ids = 0 ∨ !distinct tid ∨ !distinct sid then ⟨df, 3, (0, 0, 0, 0)⟩
    else
      let r : List (Int × Nat) := (List.range (a.blocks * tl)).map fun i =>
        let b := i / max 1 tl
        match sid.findIdx? (· == tid.getD (i % max 1 tl) 0) with
        | none => (el df i, 1)
        | some j =>
          if src.blocks ≤ b then (el df i, 1)
          else
            let v := fit (el sv (b * sl + j))
            if x.bound < v.natAbs then (el df i, 2) else (v, 0)
      let c (k : Nat) : Nat := (r.filter fun p => p.2 == k).length
      ⟨r.map (·.1), 2, (c 0, c 1, src.len - c 0 - c 2, c 2)⟩

end Sys2Proof.Machine
end

