-- ==== Sys2Proof/Machine/Nsu.lean ====
section
/-! DEFINITION. The Network Solver Unit (R165 to R241): the job ring, each operation, the result record, lane tests and
retirement, and the yard's scrubber. -/

namespace Sys2Proof.Machine

abbrev nsuPage : Nat := 48
abbrev yrdPage : Nat := 53
abbrev jqPage : Nat := 54
abbrev evLaneTransient : Nat := 141
abbrev evJobErr : Nat := 142
/-- Change the solver's state. -/
def State.setNsu (s : State) (f : NsuSt → NsuSt) : State := { s with nsu := f s.nsu }
/-- A store of an initiator to a memory that it reaches and that is there (R107, R108). -/
def State.mayStore (s : State) (who : Initiator) (x : Store) : Bool :=
  memReach who true x.addr x.data.length && ((inYard x.addr x.data.length && s.up 5) || (inDram x.addr x.data.length && s.dramUp))
/-- Stores that the initiator of a command made before it, into the yard or LPDDR5 (log entry 22); one that it may not make changes nothing. -/
def State.store (s : State) (who : Initiator) (l : List Store) : State :=
  l.foldl (fun s (x : Store) =>
    if !s.mayStore who x then s
    else if inYard x.addr x.data.length then { s with yard := wrBytes s.yard x.addr x.data }
    else { s with dram := wrBytes s.dram x.addr x.data }) s
/-- A command with the stores made before it: a store that the initiator may not make raised an access fault there (R107). -/
def State.afterStores (s : State) (who : Initiator) (l : List Store) (k : State → State) : State :=
  let t := k (s.store who l)
  if l.all (s.mayStore who) then t else { t with resp := ⟨t.resp.val, true⟩ }

/-! ### Descriptor (R196, R199) -/

/-- Fields of the descriptor. -/
abbrev dW (d : List Word) (i : Nat) : Nat := (d.getD i 0).toNat
def dOp (d : List Word) : Nat := dW d 0 % 256
def dFlag (d : List Word) (i : Nat) : Bool := (dW d 0).testBit (8 + i)
def dTol (d : List Word) : Nat := dW d 12 / 65536 % 256
def dMax (d : List Word) : Nat := dW d 12 % 65536
def dTau (d : List Word) : Nat := let t := dW d 12 / 2 ^ 24; if t = 0 then 20 else t
def dParam (d : List Word) : Int := sext 64 (dW d 13 + 2 ^ 32 * dW d 14)
def dPScale (d : List Word) : Int := sext 8 (dW d 15 % 256)
/-- Operand k, OPA to OPE for 0 to 4. -/
abbrev dOpnd (d : List Word) (k : Nat) : Nat := dW d (4 + k)
/-- Operation codes (R198). -/
def opKnown (o : Nat) : Bool := decide ((1 ≤ o ∧ o ≤ 9) ∨ o = 0x10 ∨ o = 0x11 ∨ (0x20 ≤ o ∧ o ≤ 0x23) ∨ o = 0x30)
def opIter (o : Nat) : Bool := decide ((0x20 ≤ o ∧ o ≤ 0x23) ∨ o = 0x30)
/-- A pivot log follows the record of a job (R201). -/
def hasLog (d : List Word) : Bool := [0x10, 0x11, 0x30].contains (dOp d) || (decide (0x20 ≤ dOp d ∧ dOp d ≤ 0x23) && dFlag d 3)
/-- Bytes of the result area. -/
def resultLen (d : List Word) : Nat := if hasLog d then 384 else 128
/-- RESULT is aligned and its area lies in the working area. -/
def resultOk (d : List Word) : Bool := dW d 11 % 64 == 0 && inWork (dW d 11) (resultLen d)
/-- A job refused with BAD_DESC (R199). -/
def badDesc (d : List Word) : Bool :=
  let o := dOp d
  !opKnown o || decide (dW d 0 / 2 ^ 20 ≠ 0) || dFlag d 6 || dFlag d 7 || decide (dW d 15 / 256 ≠ 0) || decide (1000000000 ≤ dW d 2) ||
    decide (dW d 2 = 0 ∧ dW d 3 = 0) || (opIter o && decide (dMax d = 0)) || decide (dTol d < 1 ∨ 62 < dTol d) || !resultOk d
/-- The deadline has passed on the NSU's time copy (R197). -/
def dlPassed (d : List Word) (t : Nat) : Bool :=
  let df := sext 32 ((secOf t % 2 ^ 32 + 2 ^ 32 - dW d 3) % 2 ^ 32)
  decide (0 < df ∨ (df = 0 ∧ dW d 2 ≤ (nsField t).toNat))

/-! ### Elementary operations (R198, R202 to R204) -/

/-- Elements of a vector as the bytes that a job stores. -/
def elems (a : Nat) (l : List Int) : List (Nat × List Byte) := (l.zip (List.range l.length)).map fun p => (a + 8 * p.2, leBytes 8 (unsext 64 p.1))
/-- The job's outcome is BAD_OPERAND. -/
def Job.bad (j : Job) : Job := { j with out := 9 }
/-- The job's outcome is RANGE at a place (R182). -/
def Job.range (j : Job) (w : RangeAt) : Job := { j with out := 4, rngAt := w, data := [] }

/-! Where operands lie, as addresses with lengths (R200). -/

/-- What a job reads of a vector. -/
def VHdr.reads (h : VHdr) : List (Nat × Nat) := [(h.at', 64), (h.data, 8 * h.len)]
/-- What a job may write of a vector. -/
def VHdr.writes (h : VHdr) : List (Nat × Nat) := [(h.at', 64), (h.data, 8 * h.cap)]
/-- A matrix: header, pointers, columns, values, IDs. -/
def MHdr.areas (h : MHdr) : List (Nat × Nat) :=
  [(h.at', 64), (h.rowPtr, 4 * (h.nRows + 1)), (h.colIdx, 4 * h.nnz), (h.vals, 8 * h.nnz)] ++
    (if h.ids = 0 then [] else [(h.ids, 4 * (h.nCols / h.blocks))])
/-- Bytes of a factor buffer. -/
def FHdr.bufLen (h : FHdr) : Nat := 64 + up64 (8 * h.nnz) + 2 * up64 (8 * h.n)
/-- A factor: header and both buffers. -/
def FHdr.areas (h : FHdr) : List (Nat × Nat) := [(h.at', 64), (h.buf0, h.bufLen), (h.buf1, h.bufLen)]
/-- The work area, where a job has one. -/
def workArea (d : List Word) : List (Nat × Nat) := [(dW d 9, dW d 10)]
/-- Outputs meet neither one another nor what is read. -/
def apartAll (outs ins : List (Nat × Nat)) : Bool := apart outs && outs.all fun o => ins.all fun i => !rangesMeet o.1 o.2 i.1 i.2
/-- An input and an in/out operand: they coincide, or what is read of the input lies apart. -/
def inoutReads (x y : VHdr) : List (Nat × Nat) := if x.at' = y.at' then [] else x.reads

/-- An elementary result of n elements `g i` for vector y: all of them, or RANGE at the first that does not fit, when the
others may be old or new (R224). -/
def Job.elem (j : Job) (y : VHdr) (n : Nat) (g : Nat → Option Int) : Job :=
  let l : List Nat := List.range n
  match build 2 0 y.bound g l with
  | .ok r => { j with data := elems y.data r }
  | .error w => { j with out := 4, rngAt := w,
                         data := l.filterMap fun i => match g i with
                           | some v => if y.bound < v.natAbs then none else some (y.data + 8 * i, leBytes 8 (unsext 64 v))
                           | none => none }
/-- SPMV, SPMVT (R198). -/
def jobMul (m : Tab Byte) (j : Job) (tr : Bool) : Job :=
  let a := rdMHdr m (dOpnd j.desc 0)
  let x := rdVHdr m (dOpnd j.desc 1)
  let y := rdVHdr m (dOpnd j.desc 2)
  if !a.ok m false || !x.ok false || !y.ok true || (tr && a.kind != 3) || x.len != (if tr then a.nRows else a.nCols) ||
      y.len != (if tr then a.nCols else a.nRows) || !apartAll y.writes (a.areas ++ x.reads) then j.bad
  else
    let g := a.mat m
    let xs := x.read m
    { j with other := (a.fpNow m).2 }.elem y y.len fun i =>
      sumTo y.e ((if tr then g.colTerms xs i else g.rowTerms xs i).map fun p => (p, a.e + x.e))
/-- DOT. -/
def jobDot (m : Tab Byte) (j : Job) : Job :=
  let x := rdVHdr m (dOpnd j.desc 1)
  let y := rdVHdr m (dOpnd j.desc 2)
  if !x.ok false || !y.ok false || x.len != y.len then j.bad
  else match dotAt 1 0 (x.read m) x.e (y.read m) y.e with
    | .ok r => { j with res := r }
    | .error w => j.range w
/-- AXPY, SCALE and COPY: each element of y from those of x and y; `inout` says that y may coincide with x. -/
def jobMap (m : Tab Byte) (j : Job) (useX inout : Bool) (f : VHdr → VHdr → Int → Int → Option Int) : Job :=
  let y := rdVHdr m (dOpnd j.desc 2)
  let x := if useX then rdVHdr m (dOpnd j.desc 1) else y
  if !x.ok false || !y.ok true || x.len != y.len || !apartAll y.writes (if inout then inoutReads x y else x.reads) then j.bad
  else
    let xs := x.read m
    let ys := y.read m
    j.elem y y.len fun i => f x y (el xs i) (el ys i)
/-- PROJECT (R203). -/
def jobProject (m : Tab Byte) (j : Job) : Job :=
  let lo := rdVHdr m (dOpnd j.desc 1)
  let x := rdVHdr m (dOpnd j.desc 2)
  let hi := rdVHdr m (dOpnd j.desc 4)
  let l := lo.read m
  let h := hi.read m
  if !lo.ok false || !hi.ok false || !x.ok true || lo.len != x.len || hi.len != x.len || lo.e != x.e || hi.e != x.e ||
      !apartAll x.writes (inoutReads lo x ++ inoutReads hi x) || (l.zip h).any (fun p => decide (p.2 < p.1)) then j.bad
  else
    let xs := x.read m
    j.elem x x.len fun i => some (clampI (el l i) (el h i) (el xs i))
/-- The header of x after a job wrote it (R222). -/
def xHeader (m : Tab Byte) (x : VHdr) (a : MHdr) (fp : Nat) : List (Nat × List Byte) :=
  [(x.at' + 6, rdBytes m (a.at' + 6) 2), (x.at' + 8, leBytes 4 a.nCols), (x.at' + 0x14, leBytes 4 a.ids), (x.at' + 0x20, leBytes 8 fp)]
/-- Warm-start counts and flag in the record. -/
def Job.warmed (j : Job) (w : Warm) : Job := { j with warm := w.cnt, flags := if w.flag = 0 then j.flags else j.flags ||| 2 ^ w.flag }
/-- The job ends with elements for x, which it writes with x's header (R222); RANGE at one that exceeds x's BOUND (R178). -/
def Job.wrote (j : Job) (m : Tab Byte) (x : VHdr) (a : MHdr) (fp : Nat) (l : List Int) : Job :=
  match build 2 0 x.bound (fun i => some (el l i)) (List.range l.length) with
  | .error w => j.range w
  | .ok r => { j with data := elems x.data r ++ xHeader m x a fp }
/-- Bytes of the mapper's index (R220): 16 bytes for the power of two at or above twice the table's length. -/
def mapBytes (src : VHdr) : Nat := 16 * 2 ^ (Nat.clog 2 (2 * (src.len / src.blocks)))
/-- The work area is aligned, lies in the working area and holds n bytes (R200). -/
def workOk (d : List Word) (n : Nat) : Bool := dW d 9 % 64 == 0 && inWork (dW d 9) (dW d 10) && decide (n ≤ dW d 10)
/-- REMAP (R204). -/
def jobRemap (m : Tab Byte) (j : Job) : Job :=
  let a := rdMHdr m (dOpnd j.desc 0)
  let x := rdVHdr m (dOpnd j.desc 2)
  let src := rdVHdr m (dOpnd j.desc 4)
  if !a.ok m false || !x.ok true || !src.ok false || decide (x.cap < a.nCols) || !workOk j.desc (mapBytes src) ||
      !apartAll (x.writes ++ workArea j.desc) (a.areas ++ src.reads) then j.bad
  else
    let fp := a.fpNow m
    let w := mapper m a fp.1 x src
    ({ j with other := fp.2 }.warmed w).wrote m x a fp.1 w.x
/-- FPRINT. -/
def jobFprint (m : Tab Byte) (j : Job) : Job :=
  let a := rdMHdr m (dOpnd j.desc 0)
  if !a.ok m false || !inWork a.at' 64 then j.bad
  else { j with other := ({ a with fpOk := false }.fpNow m).2 }

/-! ### Factorisations and solves -/

/-- A factor header fits the matrix it belongs to; one that is built lies in the working area, a read-only one in the yard (R188, R200). -/
def facFits (m : Tab Byte) (h : FHdr) (a : MHdr) (write : Bool) : Bool :=
  let n := h.bufLen
  h.kind == 5 && rdN m h.at' 1 == 5 && h.at' % 64 == 0 && inRegion write h.at' 64 && h.n == a.nRows && h.nnz == a.nnz && h.rowPtr == a.rowPtr &&
    h.colIdx == a.colIdx && h.buf0 % 64 == 0 && h.buf1 % 64 == 0 && inRegion write h.buf0 n && inRegion write h.buf1 n && !rangesMeet h.buf0 n h.buf1 n
/-- Build a factor; `param` is PARAM where it is δ_abs (R196, R206), the checks are points from `pt` on, and a cut has the outcome `code`. -/
def facBuild (m : Tab Byte) (d : List Word) (param : Int) (a : MHdr) (h : FHdr) (indef : Bool) (cut : JobCut) (pt code : Nat) : Factor × FacEnd :=
  let rows := a.rows m
  factorRows indef (dTau d) (deltaAbs param (dPScale d) (dTau d) a.e h.eD rows) a.e h.bL h.bD h.bI (fun k => cutAt cut (pt + k) code)
    { eL := h.eL, eD := h.eD, eI := h.eI } 0 0 rows
/-- Rows regularised so far: count, flag and log (R201, R207). -/
def Job.pivoted (j : Job) (f : Factor) : Job :=
  { j with pivots := f.log.length, log := some (f.log.take 64), flags := if f.log.isEmpty then j.flags else j.flags ||| 1 }
/-- A factor was built: the bytes that commit it (R189). -/
def Job.built (j : Job) (m : Tab Byte) (h : FHdr) (f : Factor) (fp : Nat) (indef : Bool) : Job :=
  { j.pivoted f with flags := (j.pivoted f).flags ||| 128, other := j.other ++ h.commit m f fp indef }
/-- A job that would end well meets an error on its last stretch, past its last point; it writes no output (R224). -/
def Job.struck (j : Job) (cut : JobCut) : Job :=
  match cutErr cut with
  | some o => if j.out = 0 ∨ j.out = 1 ∨ j.out = 5 then { j with out := o, data := [] } else j
  | none => j
/-- IC0 and ILDL0 (R205 to R207). -/
def jobFactor (m : Tab Byte) (j : Job) (cut : JobCut) (indef : Bool) : Job :=
  let a := rdMHdr m (dOpnd j.desc 0)
  let h := rdFHdr m (dOpnd j.desc 3)
  if !a.ok m false || a.kind != 2 || !facFits m h a true || !apartAll h.areas a.areas then j.bad
  else
    let fp := a.fpNow m
    let j := { j with other := fp.2 }
    let b := facBuild m j.desc (dParam j.desc) a h indef cut 0 2
    match b.2 with
    | .range w => (j.pivoted b.1).range w
    | .cut o => { j.pivoted b.1 with out := o }
    | .built => if (cutErr cut).isSome then (j.pivoted b.1).struck cut else j.built m h b.1 fp.1 indef
/-- The preconditioner a solve names; none when it is unusable (R200, R210). With REFACTOR it is a factor to build. -/
def precOf (m : Tab Byte) (d : List Word) (a : MHdr) (fp : Nat) : Option Prec :=
  let o := dOpnd d 3
  let minres := dOp d == 0x21
  if dFlag d 3 then
    if !facFits m (rdFHdr m o) a true || dOp d == 0x22 || dOp d == 0x23 || (minres && dFlag d 5) then none else some .none
  else if o = 0 then some .none
  else if rdN m o 1 = 5 then
    let h := rdFHdr m o
    if dOp d ≠ 0x20 ∧ dOp d ≠ 0x21 ∧ dOp d ≠ 0x30 then none
    else if !facFits m h a false then none
    else if !h.active.2.2 || rdN m h.active.2.1 8 != fp || (minres && h.flags.testBit 3) then none
    else some (.factor (h.read m))
  else
    let v := rdVHdr m o
    if !v.ok false || v.len != a.nCols then none
    else if minres ∧ (v.read m).any (fun x => decide (x ≤ 0)) then none
    else some (.diag v.e (v.read m))
/-- What a solve reads of its preconditioner, or writes of it with REFACTOR. -/
def precAreas (m : Tab Byte) (d : List Word) : List (Nat × Nat) :=
  let o := dOpnd d 3
  if o = 0 then [] else if rdN m o 1 = 5 then (rdFHdr m o).areas else (rdVHdr m o).reads
/-- Vectors of the work area (R216). -/
def krylovBytes (d : List Word) (n mm : Nat) (src : VHdr) : Nat :=
  let v := up64 (8 * n)
  let k := match dOp d with | 0x20 => 5 * v | 0x21 => 8 * v | 0x22 => 9 * v | _ => 5 * v + 2 * up64 (8 * mm)
  k + 256 + (if dFlag d 2 ∧ dOp d ≠ 0x23 then mapBytes src else 0)
/-- An error ends a solve with x unchanged (R224). -/
def errOut (o : Nat) : Bool := o == 7 || o == 11
/-- The true residual is computed for an outcome, all but those R214 names. -/
def trueOut (o : Nat) : Bool := decide (o = 0 ∨ o = 1 ∨ o = 2 ∨ o = 5 ∨ o = 10)
/-- PCG, MINRES, BiCGSTAB and PCGNE (R208 to R216). -/
def jobSolve (m : Tab Byte) (j : Job) (cut : JobCut) : Job :=
  let d := j.desc
  let op := dOp d
  let a := rdMHdr m (dOpnd d 0)
  let b := rdVHdr m (dOpnd d 1)
  let x := rdVHdr m (dOpnd d 2)
  let ne := op == 0x23
  let w := rdVHdr m (dOpnd d 4)
  let src := if !ne && dOpnd d 4 != 0 then w else x
  let kindOk := match op with | 0x22 => a.kind == 3 && a.nRows == a.nCols | 0x23 => a.kind == 3 | _ => a.kind == 2
  let outs := x.writes ++ workArea d ++ (if dFlag d 3 then precAreas m d else [])
  let ins := a.areas ++ b.reads ++ (if ne then w.reads else []) ++ (if dFlag d 2 then inoutReads src x else []) ++
    (if dFlag d 3 then [] else precAreas m d)
  if !a.ok m false || !kindOk || !b.ok false || !x.ok true || b.len != a.nRows || decide (x.cap < a.nCols) ||
      (ne && (!w.ok false || w.len != a.nRows)) || (dFlag d 2 && !src.ok false) ||
      !workOk d (krylovBytes d a.nCols a.nRows src) || !apartAll outs ins then j.bad
  else
    let fp := a.fpNow m
    match precOf m d a fp.1 with
    | none => j.bad
    | some pre =>
      let wm : Warm := if dFlag d 2 then mapper m a fp.1 x src else ⟨defaults m x a.nCols, 0, (0, 0, 0, 0)⟩
      let j := { j with other := fp.2 }.warmed wm
      let g := a.mat m
      let bs := b.read m
      let ws := w.read m
      let er := if ne then dPScale d else b.e
      let ex := if ne then dPScale d else x.e
      let wmul (v : List Int) : Fx (List Int) := build 5 7 b62 (fun i => some (rescale (el ws i * el v i) (w.e + b.e) b.e)) (List.range a.nRows)
      let nrm (v : List Int) : Fx (List Int) := do g.mulT 5 6 b62 (← wmul v) b.e er
      let mul (p : List Int) : Fx (List Int) := if ne then do nrm (← g.mul 5 7 b62 p ex b.e) else g.mul 5 6 b62 p ex er
      let resx (v : List Int) : Fx (List Int) := do
        if ne then
          let t ← g.mul 5 7 b62 v ex b.e
          nrm (← subVec 5 7 bs t b.e)
        else subVec 5 3 bs (← g.mul 5 6 b62 v ex er) er
      -- the end with an iterate at scale ex: the true residual where it is asked for, then x
      let finish (j : Job) (xs : List Int) : Job :=
        let j := j.struck cut
        if errOut j.out then j
        else
          let out (j : Job) : Job := j.wrote m x a fp.1 (if ne then xs.map fun v => rescale v ex x.e else xs)
          if dFlag d 4 && trueOut j.out then
            match (do let r ← resx xs; dotAt 5 7 r er r er) with
            | .error wr => j.range wr
            | .ok rr => out { j with res := rr, flags := j.flags ||| 32 }
          else out j
      match build 5 7 b62 (fun i => some (if ne then rescale (el wm.x i) x.e ex else el wm.x i)) (List.range wm.x.length) with
      | .error wr => j.range wr
      | .ok x0 =>
        match cutAt cut 0 3 with
        | some o => finish { j with out := o } x0
        | none =>
          let h := rdFHdr m (dOpnd d 3)
          let chk := if dFlag d 3 then a.nRows / 256 else 0
          let fac : Option (Factor × FacEnd) := if dFlag d 3 then some (facBuild m d (dParam d) a h (dFlag d 5) cut 1 3) else none
          let go (pre : Prec) (j : Job) : Job :=
            let rhs : Fx (List Int) := if ne then nrm bs else .ok bs
            match rhs with
            | .error wr => j.range wr
            | .ok rb =>
              let k := solveFrom op mul resx rb pre er ex (dTol d) (dMax d) cut (chk + 1) x0
              let j := { j with iters := k.1.iters, res := k.1.rr, rhs := k.2 }
              if k.1.out = 4 then j.range k.1.rng else finish { j with out := k.1.out } k.1.x
          match fac with
          | none => go pre j
          | some (f, .range wr) => (j.pivoted f).range wr
          | some (f, .cut o) => finish { j.pivoted f with out := o } x0
          | some (f, .built) => go (Prec.factor f) (j.built m h f fp.1 (dFlag d 5))

/-! ### The fused Newton step (R114 to R120, R137, R217, R218) -/

/-- Inputs of the branches: τ, s, q_fix and β with their scales. -/
structure BrIn where
  tau : VHdr
  s   : VHdr
  q   : VHdr
  b   : VHdr
deriving DecidableEq, Repr
/-- Flow and derivative of branch i by R137; `none` when a stored value exceeds the bound of its array, or a sum saturates the
accumulator (R176, R178). -/
def branchEval (m : Tab Byte) (mb : List Byte) (sc : List ScaleRec) (hs : List Int) (eH : Int) (io : BrIn) (qOld : List Int) (i : Nat) (r : BranchRec) :
    Option (Int × Int) :=
  let e (id : Nat) : Int := expOf sc id
  let st (id : Nat) (v : Int) : Option Int := match scaleOf sc id with
    | some a => if a.bound < v.natAbs then none else some v
    | none => none
  -- a product or sum at scale x, in the accumulator, as a mantissa of array id
  let rs (id : Nat) (v x : Int) : Option Int := sumTo (e id) [(v, x)]
  let put (id : Nat) (v x : Int) : Option Int := do st id (← rs id v x)
  let half (id : Nat) (v x : Int) : Option Int := do st id (rne (← rs id v x) 2)
  let tau := rdI m (io.tau.data + 8 * i) 8
  let sp := rdI m (io.s.data + 8 * i) 8
  let fixed : Option (Int × Int) := (put 0x14 (rdI m (io.q.data + 8 * i) 8) io.q.e).map fun q => (q, 0)
  let pump := r.ty == 1 || (r.ty == 5 && !r.flow)
  let valve := r.ty == 2 || (r.ty == 3 && !r.flow)
  if r.ty = 4 ∨ (r.ty = 3 ∧ r.flow) ∨ (r.ty = 5 ∧ r.flow) then fixed
  else if r.ty = 6 then (put 0x14 (rdI m (io.b.data + 8 * i) 8 * el qOld r.aux) (io.b.e + e 0x14)).map fun q => (q, 0)
  else do
    let dh ← st 0x10 (← sumTo (e 0x10) [(el hs r.fromN, eH), (-(el hs r.toN), eH)])
    let arg ← if pump then do st 0x10 (dh + (← rs 0x10 (sp * sp * r.kp) (2 * io.s.e + e (0x20 + r.ty)))) else some dh
    let a ← put 0x11 (arg * r.kc) (e 0x10 + e 0x16)
    if (valve && decide (dyad tau io.tau.e < 1 / 1024)) || (pump && (belowStop mb r.asset (dyad sp io.s.e) || decide (arg ≤ 0))) then return (0, 0)
    let qd : Int × Int ← if dyad a.natAbs (e 0x11) ≥ dyad r.kqe2 (e 0x18) then do
        let g := recipRoot a.natAbs (e 0x11)
        let rr ← put 0x12 g.1 g.2
        let q0 ← put 0x14 (a.natAbs * rr) (e 0x11 + e 0x12)
        let d1 ← half 0x15 (r.kc * rr) (e 0x16 + e 0x12)
        some (if a < 0 then -q0 else q0, d1)
      else do
        let u1 ← rs 0x13 (a * r.kiqe) (e 0x11 + e 0x19)
        let u ← put 0x13 (u1 * r.kiqe) (e 0x13 + e 0x19)
        let c ← accSum [(3 * u, e 0x13), (-(u * u.natAbs), 2 * e 0x13)]
        let q1 ← half 0x14 (r.kqe * c.1) (e 0x17 + c.2)
        let c2 ← accSum [(3, 0), (-(2 * (u.natAbs : Int)), e 0x13)]
        let d1 ← half 0x15 (r.kc * c2.1 * r.kiqe) (e 0x16 + c2.2 + e 0x19)
        some (q1, d1)
    if valve then do
      let q ← put 0x14 (tau * qd.1) (io.tau.e + e 0x14)
      let d ← put 0x15 (tau * qd.2) (io.tau.e + e 0x15)
      some (q, d)
    else some qd
/-- All branches; the index of the first whose values do not fit. -/
def evalAll (f : Nat → BranchRec → Option (Int × Int)) : Nat → List BranchRec → Fx (List (Int × Int))
  | _, [] => .ok []
  | i, r :: t => match f i r with
    | none => .error (5, 7, i)
    | some v => (evalAll f (i + 1) t).map fun l => v :: l
/-- Parts of the NEWTON work area (R218): B_Q, B_D, F, DH, HNEW, ISO, the four vectors of PCG; and its length. -/
def newtonParts (w nb nn n : Nat) : List Nat × Nat :=
  let a0 := w
  let a1 := a0 + up64 (8 * nb)
  let a2 := a1 + up64 (8 * nb)
  let a3 := a2 + up64 (8 * n)
  let a4 := a3 + up64 (8 * n)
  let a5 := a4 + up64 (8 * nn)
  let a6 := a5 + up64 ((nn + 7) / 8)
  ([a0, a1, a2, a3, a4, a5, a6], a6 + 4 * up64 (8 * n) - w)
/-- A list of bits as bytes. -/
def bitBytes (l : List Bool) : List Byte :=
  (List.range ((l.length + 7) / 8)).map fun k => BitVec.ofNat 8 ((List.range 8).foldl (fun a i => a + b2n (l.getD (8 * k + i) false) * 2 ^ i) 0)
/-- What a NEWTON job works on: the model in a slot, the non-REF nodes in order, the heads and the headers of its operands. -/
structure NewtonIn where
  mb   : List Byte
  ns   : List NodeRec
  bs   : List BranchRec
  sc   : List ScaleRec
  free : List Nat
  a    : MHdr
  hv   : VHdr
  io   : BrIn
deriving DecidableEq, Repr
def newtonIn (m : Tab Byte) (d : List Word) : NewtonIn :=
  let slot := dOpnd d 4
  let mb := rdBytes m slot (rdN m (slot + 0x10) 8)
  let ns := mdlNodes mb
  let o := dOpnd d 2
  { mb := mb, ns := ns, bs := mdlBranches mb, sc := mdlScales mb,
    free := ((ns.zip (List.range ns.length)).filter fun (e : NodeRec × Nat) => e.1.kind != 1).map (·.2),
    a := rdMHdr m (dOpnd d 0), hv := rdVHdr m (dOpnd d 1),
    io := ⟨rdVHdr m o, rdVHdr m (o + 64), rdVHdr m (o + 128), rdVHdr m (o + 192)⟩ }
/-- Operands of NEWTON are usable (R200, R217). -/
def NewtonIn.ok (i : NewtonIn) (m : Tab Byte) (d : List Word) : Bool :=
  let slot := dOpnd d 4
  let wl := (newtonParts (dW d 9) i.bs.length i.ns.length i.free.length).2
  let inOk (v : VHdr) : Bool := v.ok false && v.len == i.bs.length
  let th := dyad (dParam d) (dPScale d)
  (slot == 0x21800000 || slot == 0x22400000) && rdN m slot 4 == 0x4D504D4C && i.a.ok m true && i.a.kind == 2 && i.a.nRows == i.free.length && i.hv.ok true &&
    i.hv.len == i.ns.length && inOk i.io.tau && inOk i.io.s && inOk i.io.q && inOk i.io.b && workOk d wl && decide (0 ≤ th ∧ th ≤ 1) &&
    apartAll ([(i.a.at', 64), (i.a.vals, 8 * i.a.nnz)] ++ i.hv.writes ++ workArea d ++ (if dFlag d 3 then precAreas m d else []))
      ([(i.a.rowPtr, 4 * (i.a.nRows + 1)), (i.a.colIdx, 4 * i.a.nnz)] ++ i.io.tau.reads ++ i.io.s.reads ++ i.io.q.reads ++ i.io.b.reads ++
        (if dFlag d 3 then [] else precAreas m d))
/-- Nodes with no path of branches with nonzero D to a REF node (R120). -/
def NewtonIn.isolated (i : NewtonIn) (ds : List Int) : List Nat :=
  let edges : List (Nat × Nat) := (i.bs.zip ds).filterMap fun (e : BranchRec × Int) => if e.2 = 0 then none else some (e.1.fromN, e.1.toN)
  let refs := ((i.ns.zip (List.range i.ns.length)).filter fun (e : NodeRec × Nat) => e.1.kind == 1).map (·.2)
  let joined := spread i.ns.length edges refs
  i.free.filter fun k => !joined.contains k
/-- The node balance f of R118 in row order, at the scale of B_Q; zero at isolated nodes, whose fixed-flow and MIX branches carry none (R120, R217). -/
def NewtonIn.balance (i : NewtonIn) (iso : List Nat) (qs : List Int) : Fx (List Int) :=
  let eq := expOf i.sc 0x14
  let dead (r : BranchRec) : Bool :=
    (r.ty == 4 || r.ty == 6 || ((r.ty == 3 || r.ty == 5) && r.flow)) && (iso.contains r.fromN || iso.contains r.toN)
  build 5 7 b62 (fun k =>
    let n := i.free.getD k 0
    if iso.contains n then some 0
    else
      let nd := i.ns.getD n ⟨0, 0, 0, 0, 0, 0⟩
      let dm : List (Int × Int) := if nd.kind = 2 then [(-nd.demand, expOf i.sc 3)] else []
      sumTo eq (dm ++ (i.bs.zip qs).filterMap fun (e : BranchRec × Int) =>
        if dead e.1 then none else if e.1.toN = n then some (e.2, eq) else if e.1.fromN = n then some (-e.2, eq) else none)) (List.range i.free.length)
/-- Values of J = A·D·Aᵀ on the pattern of the operand; none where the pattern has no place for an entry (R217). -/
def NewtonIn.jacobian (i : NewtonIn) (m : Tab Byte) (iso : List Nat) (ds : List Int) : Option (Fx (List Int)) :=
  let eD := expOf i.sc 0x15
  let n := i.free.length
  let jent (r c : Nat) : Option Int :=
    let u := i.free.getD r 0
    let v := i.free.getD c 0
    if iso.contains u || iso.contains v then some 0
    else sumTo i.a.e ((i.bs.zip ds).filterMap fun (e : BranchRec × Int) =>
      if r = c then if e.1.fromN = u ∨ e.1.toN = u then some (e.2, eD) else none
      else if (e.1.fromN = u ∧ e.1.toN = v) ∨ (e.1.fromN = v ∧ e.1.toN = u) then some (-e.2, eD) else none)
  let pat : List (Nat × Nat) := ((i.a.rows m).zip (List.range n)).flatMap fun (e : List (Nat × Int) × Nat) => e.1.map fun c => (e.2, c.1)
  let rowOf (k : Nat) : Nat := (i.free.findIdx? (· == k)).getD 0
  let missing : Bool := (i.bs.zip ds).any fun (e : BranchRec × Int) => e.2 != 0 &&
    i.free.contains e.1.fromN && i.free.contains e.1.toN && !pat.contains (max (rowOf e.1.fromN) (rowOf e.1.toN), min (rowOf e.1.fromN) (rowOf e.1.toN))
  if missing then none
  else some (build 0 0 i.a.bound (fun k => let p := pat.getD k (0, 0); jent p.1 p.2) (List.range pat.length))
/-- Phases 4 to 6: the factor, the solve of J·Δh = f, the new heads (R217). `m` has J's values, `j` what the phases before left. -/
def NewtonIn.solve (i : NewtonIn) (m : Tab Byte) (j : Job) (cut : JobCut) (fp : Nat) (pre : Prec) (iso : List Nat) (f : List Int) (part : Nat → Nat) : Job :=
  let d := j.desc
  let n := i.free.length
  let eq := expOf i.sc 0x14
  let hv := i.hv
  let h := rdFHdr m (dOpnd d 3)
  let fac : Option (Factor × FacEnd) := if dFlag d 3 then some (facBuild m d 0 i.a h false cut 4 3) else none
  let go (pre : Prec) (j : Job) : Job :=
    let pt := 4 + (if dFlag d 3 then n / 256 else 0)
    match cutAt cut pt 3 with
    | some c => { j with out := c }
    | none =>
      let mat := i.a.mat m
      let mul (p : List Int) : Fx (List Int) := mat.mul 5 6 b62 p hv.e eq
      let res (v : List Int) : Fx (List Int) := do subVec 5 3 f (← mul v) eq
      let s := solveFrom 0x20 mul res f pre eq hv.e (dTol d) (dMax d) cut (pt + 1) (List.replicate n 0)
      let k := s.1
      let v := up64 (8 * n)
      let j := { j with res := k.rr, rhs := s.2, iters := k.iters, out := k.out,
                        other := j.other ++ elems (part 3) k.x ++ elems (part 6) k.r ++ elems (part 6 + v) k.z ++ elems (part 6 + 2 * v) k.p ++
                          elems (part 6 + 3 * v) k.q }
      let j := j.struck cut
      if k.out = 4 then j.range k.rng
      else if j.out ≠ 0 ∧ j.out ≠ 1 then j
      else
        let hs := hv.read m
        let hn : Fx (List Int) := build 1 0 hv.bound (fun u =>
          match i.free.findIdx? (· == u) with
          | none => some (el hs u)
          | some r =>
            if iso.contains u then some (el hs u)
            else sumTo hv.e [(el hs u, hv.e), (dParam d * el k.x r, dPScale d + hv.e)]) (List.range i.ns.length)
        match hn with
        | .error w => j.range w
        | .ok l =>
          let put := i.free.filter fun u => !iso.contains u
          { j with flags := j.flags ||| 256, other := j.other ++ elems (part 4) l,
                   data := put.map fun u => (hv.data + 8 * u, leBytes 8 (unsext 64 (el l u))) }
  match fac with
  | none => go pre j
  | some (f, .range w) => (j.pivoted f).range w
  | some (f, .cut o) => { j.pivoted f with out := o }
  | some (f, .built) => go (Prec.factor f) (j.built m h f fp false)
/-- NEWTON (R217). -/
def jobNewton (m : Tab Byte) (j : Job) (cut : JobCut) : Job :=
  let d := j.desc
  let i := newtonIn m d
  if !i.ok m d then j.bad
  else
    let fp := i.a.fpNow m
    match precOf m d { i.a with nCols := i.free.length } fp.1 with
    | none => j.bad
    | some pre =>
      let parts := (newtonParts (dW d 9) i.bs.length i.ns.length i.free.length).1
      let part (k : Nat) : Nat := parts.getD k 0
      let j := { j with other := fp.2 }
      match cutAt cut 0 3 with
      | some c => { j with out := c }
      | none =>
      match evalAll (branchEval m i.mb i.sc (i.hv.read m) i.hv.e i.io (rdInts m (part 0) i.bs.length)) 0 i.bs with
      | .error w => j.range w
      | .ok qd =>
        let qs := qd.map (·.1)
        let ds := qd.map (·.2)
        let j := { j with other := j.other ++ elems (part 0) qs ++ elems (part 1) ds }
        match cutAt cut 1 3 with
        | some c => { j with out := c }
        | none =>
        let iso := i.isolated ds
        let j := { j with iso := iso.length, flags := if iso.isEmpty then j.flags else j.flags ||| 64,
                          other := j.other ++ [(part 5, bitBytes ((List.range i.ns.length).map fun k => iso.contains k))] }
        match cutAt cut 2 3 with
        | some c => { j with out := c }
        | none =>
        match i.jacobian m iso ds with
        | none => { j.bad with other := [] }
        | some jv =>
          match i.balance iso qs, jv with
          | .error w, _ => j.range w
          | _, .error w => j.range w
          | .ok f, .ok vals =>
            let j := { j with other := j.other ++ elems (part 2) f ++ elems i.a.vals vals }
            match cutAt cut 3 3 with
            | some c => { j with out := c }
            | none => i.solve ((elems i.a.vals vals).foldl (fun m (e : Nat × List Byte) => wrBytes m e.1 e.2) m) j cut fp.1 pre iso f part

end Sys2Proof.Machine
end

