-- ==== Sys2Proof/Machine/Vec.lean ====
section
/-! DEFINITION. Writing objects that a block lays out in the yard (R183, R184), and the integers in which an object goes over the pair
link, whose bytes R565 leaves to the data plane (log entry 86). -/

namespace Sys2Proof.Machine

/-! ### Numbers and the codec of streamed objects -/

/-- A value as a mantissa at scale e (R177). -/
def mant (e : Int) (x : Rat) : Int := rneQ (if 0 ≤ e then x / ((2 ^ e.toNat : Nat) : Rat) else x * ((2 ^ (-e).toNat : Nat) : Rat))
/-- Value of a binary32 word, 0 for one that has none. -/
def f32V (w : Word) : Rat := (f32Rat w).getD 0
/-- Array, scale and bound of a vector or matrix. -/
structure ArrSpec where
  arr   : Nat
  e     : Int
  bound : Nat
deriving DecidableEq, Repr
/-- An array of the model by its scale entry; one without an entry has scale 0. -/
def arrOf (sc : List ScaleRec) (id : Nat) : ArrSpec := match scaleOf sc id with | some r => ⟨id, r.e, r.bound⟩ | none => ⟨id, 0, b62⟩
/-- Integers as bytes on the pair link, each with its length in front (DESIGN CHOICE, log entry 86). -/
def packInt (x : Int) : List Byte := let n := x.natAbs.log2 / 8 + 2; leBytes 4 n ++ leBytes n (unsext (8 * n) x)
def packInts (l : List (List Int)) : List Byte := leBytes 4 l.length ++ l.flatMap fun x => leBytes 4 x.length ++ x.flatMap packInt
/-- n integers from bytes, with the bytes left. -/
def unpackN : Nat → List Byte → List Int × List Byte
  | 0, b => ([], b)
  | k + 1, b =>
    let n := fieldN b 0 4
    let r := unpackN k (b.drop (4 + n))
    (sext (8 * n) (fieldN b 4 n) :: r.1, r.2)
def unpackL : Nat → List Byte → List (List Int)
  | 0, _ => []
  | k + 1, b => let r := unpackN (min (fieldN b 0 4) b.length) (b.drop 4); r.1 :: unpackL k r.2
def unpackInts (b : List Byte) : List (List Int) := unpackL (min (fieldN b 0 4) b.length) (b.drop 4)
/-- A rational as two integers; and back. -/
def ratInts (x : Rat) : List Int := [x.num, (x.den : Int)]
def intsRat : List Int → List Rat
  | n :: d :: t => mkRat n d.toNat :: intsRat t
  | _ => []

/-! ### Objects in the yard -/

/-- A vector's header and elements at an address (R183); `blocks` and `ids` as in its header. -/
def vecHdr (a : Nat) (sp : ArrSpec) (n data blocks ids : Nat) (fp : Nat := 0) : List Byte :=
  [1, 0] ++ leBytes 2 sp.arr ++ leBytes 1 (unsext 8 sp.e) ++ [0] ++ leBytes 2 blocks ++ leBytes 4 n ++ leBytes 4 n ++ leBytes 4 (if data = 0 then a + 64 else data) ++
    leBytes 4 ids ++ leBytes 4 0 ++ leBytes 4 0 ++ leBytes 8 fp ++ leBytes 8 sp.bound ++ List.replicate 16 0
def intBytes (l : List Int) : List Byte := l.flatMap fun x => leBytes 8 (unsext 64 x)
/-- Store a vector of values. -/
def putVals (m : Tab Byte) (a : Nat) (sp : ArrSpec) (l : List Rat) : Tab Byte :=
  wrBytes (wrBytes m a (vecHdr a sp l.length 0 1 0)) (a + 64) (intBytes (l.map (mant sp.e)))
/-- Store a vector of mantissas. -/
def putInts (m : Tab Byte) (a : Nat) (sp : ArrSpec) (l : List Int) : Tab Byte :=
  wrBytes (wrBytes m a (vecHdr a sp l.length 0 1 0)) (a + 64) (intBytes l)

end Sys2Proof.Machine
end

