-- ==== Sys2Proof/Machine/Btk.lean ====
section
/-! DEFINITION. The barge tracker (R242 to R283): barges, the transport step, mixing, flow sets, forecasts. -/

namespace Sys2Proof.Machine

abbrev btkPage : Nat := 56
/-- Change the tracker's state. -/
def State.setBtk (s : State) (f : BtkSt → BtkSt) : State := { s with btk := f s.btk }

/-! ### Temperatures (R248 to R250, R263) -/

/-- e^(-k/128) in units of 2^-128. -/
def expPow : Nat → Nat
  | 0 => 2 ^ 128
  | k + 1 => expPow k * 337634268532609249517744113622081347951 / 2 ^ 128
/-- The heat-loss table F(k) = round(2^31 e^(-k/128)) (R250). -/
def lossF (k : Nat) : Nat := (expPow k * 2 ^ 31 + 2 ^ 127) / 2 ^ 128
/-- F at a rational index. -/
def lossAt (i : Rat) : Rat :=
  let k := i.floor.toNat
  if 1024 ≤ k then 0 else ((lossF k : Rat) + (i - (k : Rat)) * ((lossF (k + 1) : Rat) - (lossF k : Rat))) / (2 ^ 31 : Nat)
/-- Present temperature of a barge in 2^-16 °C under a ground offset in 2^-8 °C (R248). -/
def presentT (p : PipeRec) (ofs : Int) (b : Barge) : Nat × Bool :=
  let tg := p.tg + 256 * ofs
  let f := lossAt (((b.pAge * p.kp : Nat) : Rat) / (2 ^ 32 : Nat))
  holdT (rneQ ((tg : Rat) + ((b.tEntry : Rat) - (tg : Rat)) * f))
/-! ### Barges (R247, R261, R267, R268) -/

/-- Flag bits. -/
abbrev bfClamped : Nat := 1
abbrev bfOverrun : Nat := 2
abbrev bfMerged : Nat := 4
abbrev bfSeeded : Nat := 8
/-- A temperature with CLAMPED set where it had to be held (R123, R247). -/
def clampFlag (flags : Nat) (t : Nat × Bool) : Nat := if t.2 then flags ||| bfClamped else flags
/-- Set T_ENTRY to the present temperature (R249). -/
def Barge.rebase (b : Barge) (p : PipeRec) (ofs : Int) : Barge :=
  { b with tEntry := (presentT p ofs b).1, pAge := 0, flags := clampFlag b.flags (presentT p ofs b) }
/-- Age a barge by d units of 100 ms and ms milliseconds, rebased first where PIPE_AGE would pass 32,768. -/
def Barge.older (b : Barge) (p : PipeRec) (ofs : Int) (d ms : Nat) : Barge :=
  let b := if 32768 < b.pAge + d then b.rebase p ofs else b
  { b with pAge := b.pAge + d, age := min (b.age + ms) (2 ^ 32 - 1) }
/-- Total mass. -/
def massOf (l : List Barge) : Nat := (l.map (·.mass)).sum
/-- Pop a mass from the front of a list: what leaves and what stays (R261). -/
def popFront : Nat → List Barge → List Barge × List Barge
  | _, [] => ([], [])
  | m, b :: t =>
    if m = 0 then ([], b :: t)
    else if b.mass ≤ m then let r := popFront (m - b.mass) t; (b :: r.1, r.2)
    else ([{ b with mass := m }], { b with mass := b.mass - m } :: t)
/-- Pop at an end: the to-node end is the end of the list. -/
def popEnd (toEnd : Bool) (m : Nat) (l : List Barge) : List Barge × List Barge :=
  if toEnd then let r := popFront m l.reverse; (r.1, r.2.reverse) else popFront m l
/-- Weighted mean of two numbers, rounded. -/
def meanN (a x b y : Nat) : Nat := (rneQ (((a * x + b * y : Nat) : Rat) / ((a + b : Nat) : Rat))).toNat
/-- The merged barge of R268. -/
def mergeB (p : PipeRec) (ofs : Int) (a b : Barge) : Barge :=
  let ta := (presentT p ofs a).1
  let tb := (presentT p ofs b).1
  let h := ((a.mass : Rat) * enthOf ta + (b.mass : Rat) * enthOf tb) / ((a.mass + b.mass : Nat) : Rat)
  { mass := a.mass + b.mass, tEntry := (tempOf h).1, flags := clampFlag (a.flags ||| b.flags ||| bfMerged) (tempOf h), pAge := 0, age := meanN a.mass a.age b.mass b.age,
    origin := if b.mass < a.mass then a.origin else if a.mass < b.mass then b.origin else min a.origin b.origin }
/-- Push water at an end (R267); true when it was merged. -/
def pushEnd (p : PipeRec) (ofs : Int) (minMass : Nat) (toEnd : Bool) (b : Barge) (l : List Barge) : List Barge × Bool :=
  if b.mass = 0 then (l, false)
  else if minMass ≤ b.mass then (if toEnd then l ++ [b] else b :: l, false)
  else if toEnd then
    match l.reverse with | [] => ([b], false) | x :: t => ((mergeB p ofs x b :: t).reverse, true)
  else match l with | [] => ([b], false) | x :: t => (mergeB p ofs x b :: t, true)
/-- Merge the adjacent pair at position i. -/
def mergeAt (p : PipeRec) (ofs : Int) : Nat → List Barge → List Barge
  | 0, a :: b :: t => mergeB p ofs a b :: t
  | n + 1, a :: t => a :: mergeAt p ofs n t
  | _, l => l
/-- Position of the adjacent pair whose temperatures differ least; of two that tie, the one nearer the to-node end. -/
def closest (ts : List Nat) : Nat :=
  let d := (ts.zip (ts.drop 1)).map fun e => (max e.1 e.2) - (min e.1 e.2)
  ((d.zip (List.range d.length)).foldl (fun (b : Nat × Nat) (e : Nat × Nat) => if e.1 ≤ b.1 then e else b) (2 ^ 32, 0)).2
/-- Merge until no more barges than SLOTS are left (R268); the number of merges. -/
def fitSlots (p : PipeRec) (ofs : Int) : Nat → List Barge → List Barge × Nat
  | 0, l => (l, 0)
  | n + 1, l =>
    if l.length ≤ p.slots then (l, 0)
    else
      let r := fitSlots p ofs n (mergeAt p ofs (closest (l.map fun b => (presentT p ofs b).1)) l)
      (r.1, r.2 + 1)

/-! ### The step's inputs -/

/-- Water that arrives at a node: mass, enthalpy, age, origin, and whether a temperature was held. -/
structure InFlow where
  node   : Nat
  mass   : Nat
  h      : Rat
  age    : Nat
  origin : Nat
  held   : Bool
deriving DecidableEq, Repr
/-- What a step reads of the model and the flow set: per branch the station heat in W, idle and plant temperatures in °C; `predict` says
that it belongs to a forecast, where a HEX linked to absorption chillers draws their heat (R127; DEDUCED, log entry 87). -/
structure StepIn where
  predict : Bool := false
  brs    : List BranchRec
  qeps   : List Rat
  heat   : List Rat
  tIdle  : List Rat
  tPlant : List Rat
deriving DecidableEq, Repr
/-- A flow set as read (R255): GEN, time, flows per branch in kg/s and the thermal inputs. -/
structure FlowSet where
  gen : Nat
  t   : Nat
  q   : List Rat
  inp : StepIn
deriving DecidableEq, Repr
/-- Values of a vector. -/
def vecVals (m : Tab Byte) (h : VHdr) : List Rat := (h.read m).map fun v => dyad v h.e
/-- Spread values given in order for the branches of a type over all branches. -/
def perBranch (brs : List BranchRec) (ty : Nat) (l : List Rat) : List Rat :=
  (brs.foldl (fun (acc : List Rat × List Rat) r =>
    if r.ty = ty then (acc.1 ++ [acc.2.headD 0], acc.2.drop 1) else (acc.1 ++ [0], acc.2)) ([], l)).1
/-- The flow-set record at an address; none when its headers fail R200 (R256). -/
def readSet (m : Tab Byte) (mb : List Byte) (a : Nat) : Option FlowSet :=
  let brs := mdlBranches mb
  let sc := mdlScales mb
  let q := rdVHdr m (rdN m (a + 0x10) 4)
  let p := rdVHdr m (rdN m (a + 0x14) 4)
  let i := rdVHdr m (rdN m (a + 0x18) 4)
  let t := rdVHdr m (rdN m (a + 0x1C) 4)
  let cnt (ty : Nat) : Nat := (brs.filter fun r => r.ty == ty).length
  if q.ok false && p.ok false && i.ok false && t.ok false && q.len == brs.length && p.len == cnt 3 && i.len == cnt 3 && t.len == cnt 5 then
    some ⟨rdN m a 8, rdN m (a + 8) 4 * 2 ^ 32 + rdN m (a + 12) 4 * tS, vecVals m q,
      { brs := brs, qeps := brs.map fun r => dyad r.kqe (expOf sc 0x17), heat := perBranch brs 3 (vecVals m p), tIdle := perBranch brs 3 (vecVals m i),
        tPlant := perBranch brs 5 (vecVals m t) }⟩
  else none
/-- Inputs of a step that finds no flow set: those used last (R257). -/
def heldInputs (mb : List Byte) (c : BtkCopy) : StepIn :=
  let brs := mdlBranches mb
  { brs := brs, qeps := brs.map fun r => dyad r.kqe (expOf (mdlScales mb) 0x17), heat := c.heat, tIdle := c.tIdle, tPlant := c.tPlant }
/-- The queued pipes of a model in a slot, its THERMAL values in the tracker's units (R246). -/
def pipeRecs (mb : List Byte) : List PipeRec :=
  let brs := mdlBranches mb
  let ns := mdlNodes mb
  (mdlTherm mb).filterMap fun t =>
    if t.mode ≠ 0 then none
    else match brs[t.branch]? with
      | none => none
      | some r => some ⟨t.branch, r.id, (ns.getD r.fromN ⟨0, 0, 0, 0, 0, 0⟩).id, (ns.getD r.toN ⟨0, 0, 0, 0, 0, 0⟩).id, t.slots, t.mass.toNat, t.tau.toNat, t.tg, t.ti.toNat⟩
/-- A seeded barge (R278). -/
def seedBarge (p : PipeRec) : Barge := ⟨p.mass, p.tInit, bfSeeded, 0, 0, 0⟩
/-- First state of a store. -/
def seedStore (r : BranchRec) : Nat × Rat × Rat := (r.id, Config.storeInit r.id 0, Config.storeInit r.id 1)
/-- State with no committed copy before it: seeded queues, first node and store values (R278; log entry 20). -/
def seedCopy (gen t : Nat) (mb : List Byte) : BtkCopy :=
  let ps := pipeRecs mb
  { gen := gen, pipes := ps, queues := ps.map fun p => [seedBarge p],
    nodes := (mdlNodes mb).map fun n => (n.id, ⟨(Config.nodeInit n.id).toNat, 0, 0⟩),
    stores := ((mdlBranches mb).filter fun r => r.ty == 4).map seedStore, flows := (mdlBranches mb).map fun _ => 0, t := t }
/-- A copy carried over to a new model (R279): queues by BRANCH_ID, masses scaled, order reversed for swapped ends, merged
to fewer slots; stores by branch ID within the new m_tot; nodes by NODE_ID. -/
def mapCopy (c : BtkCopy) (gen : Nat) (ofs : Int) (mb : List Byte) : BtkCopy × Nat :=
  let ps := pipeRecs mb
  let old := c.pipes.zip c.queues
  let one (p : PipeRec) : List Barge × Nat :=
    match old.find? fun e => e.1.bid == p.bid with
    | none => ([seedBarge p], 0)
    | some (o, q) =>
      let q := q.filterMap fun b =>
        let m := (rneQ (((b.mass * p.mass : Nat) : Rat) / (o.mass : Rat))).toNat
        if m = 0 then none else some { b with mass := m }
      let q := match q.reverse with
        | [] => [seedBarge p]
        | z :: t => let d := massOf q; if d = p.mass then q else ({ z with mass := z.mass + p.mass - d } :: t).reverse
      fitSlots p ofs q.length (if p.fromN = o.toN ∧ p.toN = o.fromN then q.reverse else q)
  let r := ps.map one
  let oldFlows := c.flows
  ({ c with gen := gen, pipes := ps, queues := r.map (·.1),
            nodes := (mdlNodes mb).map fun n => (n.id, match c.nodes.find? fun e => e.1 == n.id with | some e => e.2 | none => ⟨(Config.nodeInit n.id).toNat, 0, 0⟩),
            stores := ((mdlBranches mb).filter fun b => b.ty == 4).map fun b => match c.stores.find? fun e => e.1 == b.id with
              | some e => (e.1, min e.2.1 (Config.storeFact b.id 0), e.2.2)
              | none => seedStore b,
            flows := let n := (mdlBranches mb).length; if oldFlows.length = n then oldFlows else List.replicate n 0, heat := [], tIdle := [], tPlant := [] },
    (r.map (·.2)).sum)

/-! ### One step (R258 to R270) -/

/-- Mass in 2^-8 kg that a flow from qa to qb of one sign moves in dt seconds (R259). -/
def moved (qa qb dt : Rat) : Nat := (rneQ ((|qa| + |qb|) / 2 * dt * 256)).toNat
/-- Sub-steps of a branch (R269): mass and direction (true towards the to-node), one or two. -/
def subSteps (q0 q1 dt : Rat) : List (Nat × Bool) :=
  if q0 * q1 < 0 then
    let t0 := dt * |q0| / (|q0| + |q1|)
    [(moved q0 0 t0, decide (0 < q0)), (moved q1 0 (dt - t0), decide (0 < q1))]
  else [(moved q0 q1 dt, decide (0 < q1 ∨ (q1 = 0 ∧ 0 < q0)))]
/-- Popped barges as one inflow (R261). -/
def inflowOf (p : PipeRec) (ofs : Int) (node : Nat) (l : List Barge) : List InFlow :=
  if l.isEmpty then []
  else
    let m : Nat := massOf l
    let ts := l.map fun b => (b, presentT p ofs b)
    let h := ts.foldl (fun (a : Rat) e => a + (e.1.mass : Rat) * enthOf e.2.1) 0
    let ag : Nat := (l.map fun b => b.mass * b.age).sum
    let big := l.foldl (fun (a : Nat × Nat) b => if a.1 < b.mass ∨ (a.1 = b.mass ∧ b.origin < a.2) then (b.mass, b.origin) else a) (0, 65535)
    [⟨node, m, h / (m : Rat), (rneQ ((ag : Rat) / (m : Rat))).toNat, big.2, ts.any fun e => e.2.2⟩]
/-- A push due after mixing: mass, at the to-node end, OVERRUN. -/
abbrev Push := Nat × Bool × Bool
/-- Pops of one pipe in a step: the queue left, inflows to its end nodes, pushes, and overrun sub-steps (R261, R262, R270). -/
def pipePops (p : PipeRec) (ofs : Int) (fromN toN : Nat) (subs : List (Nat × Bool)) (q : List Barge) : List Barge × List InFlow × List Push × Nat :=
  let out (m : Nat) (dir : Bool) (q : List Barge) : List Barge × List InFlow × Nat :=
    let r := popEnd dir m q
    let ex := m - massOf r.1
    let tail := (if dir then q.head? else q.getLast?)
    let extra := match tail with | some b => if ex = 0 then [] else [{ b with mass := ex }] | none => []
    (r.2, inflowOf p ofs (if dir then toN else fromN) (r.1 ++ extra), ex)
  match subs with
  | [(m, dir)] =>
    let r := out m dir q
    (r.1, r.2.1, [(m - r.2.2, !dir, decide (0 < r.2.2))], b2n (decide (0 < r.2.2)))
  | [(m1, d1), (m2, d2)] =>
    let c := min m1 m2
    let r1 := out m1 d1 q
    let r2 := out (m2 - c) d2 r1.1
    (r2.1, r1.2.1 ++ r2.2.1, [(m1 - c - min (m1 - c) r1.2.2, !d1, decide (0 < r1.2.2)), (m2 - r2.2.2, !d2, decide (0 < r2.2.2))],
      b2n (decide (0 < r1.2.2)) + b2n (decide (0 < r2.2.2)))
  | _ => (q, [], [], 0)
/-- The nodes that edges reach from a node. -/
def reachF (fuel : Nat) (es : List (Nat × Nat)) (a : Nat) : List Nat :=
  match fuel with
  | 0 => []
  | n + 1 =>
    let d := (es.filterMap fun e => if e.1 = a then some e.2 else none).eraseDups
    (d ++ d.flatMap fun x => reachF n (es.filter fun e => e.1 != a) x).eraseDups
/-- Nodes in an order that respects edges without loops. -/
def nodeOrder : Nat → List (Nat × Nat) → List Nat → List Nat
  | 0, _, l => l
  | n + 1, es, l =>
    let ready := l.filter fun v => !(es.any fun e => e.2 == v && l.contains e.1)
    if ready.isEmpty then l else ready ++ nodeOrder n es (l.filter fun v => !ready.contains v)
/-- Enthalpy of the layer that the energy of a store is counted from. A hot store counts it from its cold layer, at h_cold. In a COLD one
the layers swap roles: the charged layer is the cold one at h_chg, and the warm one stands above it by the deficit E over the charged mass
(R128, R129; DEDUCED, log entry 87); with nothing charged the warm layer's enthalpy is h_cold as declared. -/
def storeBase (bid : Nat) (cold : Bool) (st : Rat × Rat) : Rat :=
  if cold && decide (0 < st.1) then Config.storeFact bid 2 + st.2 / st.1 else Config.storeFact bid 1
/-- Outflow of a store over a step (R128, R129): enthalpy, and its new state. `m` is the mass in kg, positive on charge. -/
def storeLaw (bid : Nat) (cold : Bool) (m dt hIn : Rat) (st : Rat × Rat) : Rat × Rat × Rat :=
  let tot := Config.storeFact bid 0
  let base := storeBase bid cold st
  let sg : Rat := if cold then -1 else 1
  let leak (e : Rat) : Rat := e - Config.storeFact bid 3 * e * dt
  let cap (x : Rat) : Rat := if x < 0 then 0 else if tot < x then tot else x
  if 0 < m then
    if st.1 < tot then (base, cap (st.1 + m), leak (st.2 + sg * m * (hIn - base)))
    else let ho := base + sg * st.2 / tot; (ho, st.1, leak (st.2 + sg * m * (hIn - ho)))
  else if m < 0 then
    if 0 < st.1 then (base + sg * st.2 / st.1, cap (st.1 + m), leak (st.2 + m * st.2 / st.1))
    else (base, st.1, leak st.2)
  else (base, st.1, leak st.2)
/-- Outflow enthalpy of a HEX (R125) or a PLANT (R126) for mean flow q, positive from the from-node to the to-node. -/
def hexLaw (hIn p q qe tIdle : Rat) : Rat := if q < qe then enthOf (holdT (rneQ (tIdle * 65536))).1 else hIn - p / q
def plantLaw (bid : Nat) (hIn q tSet : Rat) : Rat :=
  if q < Config.plantLimit bid 2 then hIn
  else
    let hs := enthOf (holdT (rneQ (tSet * 65536))).1
    let p := q * (hs - hIn)
    if Config.plantLimit bid 0 < p then hIn + Config.plantLimit bid 0 / q
    else if p < Config.plantLimit bid 1 then hIn + Config.plantLimit bid 1 / q else hs
/-- Mix the inflows of a node (R263, R264). -/
def mixNode (n : NodeT) (ins : List InFlow) (ms : Nat) (loop : Bool) : NodeT × Bool :=
  let m : Nat := (ins.map (·.mass)).sum
  if m = 0 then ({ n with age := min (n.age + ms) (2 ^ 32 - 1), origin := if loop then 0 else n.origin }, false)
  else
    let h := ins.foldl (fun (a : Rat) x => a + (x.mass : Rat) * x.h) 0
    let t := tempOf (h / (m : Rat))
    let ag : Nat := (ins.map fun x => x.mass * x.age).sum
    let big := ins.foldl (fun (a : Nat × Nat) x => if a.1 < x.mass ∨ (a.1 = x.mass ∧ x.origin < a.2) then (x.mass, x.origin) else a) (0, 65535)
    (⟨t.1, min (rneQ ((ag : Rat) / (m : Rat))).toNat (2 ^ 32 - 1), if loop then 0 else big.2⟩, t.2 || ins.any (·.held))
/-- Flags of a step (R272). -/
abbrev sfStale : Nat := 1
abbrev sfReversal : Nat := 2
abbrev sfOverrun : Nat := 4
abbrev sfLoop : Nat := 8
abbrev sfClamp : Nat := 16
abbrev sfSeeded : Nat := 32
abbrev sfRebased : Nat := 64
abbrev sfSkipped : Nat := 128
/-- What the mixing of nodes carries along: node states, inflows so far, stores, a temperature held, the nodes where it was, and the power
of each plant passed, by branch index. -/
structure MixAcc where
  nodes  : List (Nat × NodeT)
  ins    : List InFlow
  stores : List (Nat × Rat × Rat)
  held   : Bool
  clamps : List Nat
  power  : List (Nat × Rat)
deriving DecidableEq, Repr
/-- One sub-step of dt seconds (ms milliseconds, d units of 100 ms) with flows from q0 to q1: the new copy, flags, overrun
sub-steps and merges. -/
def oneStep (i : StepIn) (ofs : Int) (minMass : Nat) (q0 q1 : List Rat) (dt : Rat) (ms d : Nat) (c : BtkCopy) : BtkCopy × Nat × Nat × Nat :=
  let nN := c.nodes.length
  let qa (b : Nat) : Rat := q0.getD b 0
  let qb (b : Nat) : Rat := q1.getD b 0
  let brI := i.brs.zip (List.range i.brs.length)
  let queued := c.pipes.map (·.branch)
  let ends (b : Nat) : Nat × Nat := match i.brs[b]? with | some r => (r.fromN, r.toN) | none => (0, 0)
  let pops := (c.pipes.zip c.queues).map fun (e : PipeRec × List Barge) =>
    let b := e.1.branch
    pipePops e.1 ofs (ends b).1 (ends b).2 (subSteps (qa b) (qb b) dt) (e.2.map fun x => x.older e.1 ofs d ms)
  let inst : List (BranchRec × Nat × Nat × Nat × Nat) := brI.filterMap fun (e : BranchRec × Nat) =>
    if queued.contains e.2 then none
    else
      let m := ((subSteps (qa e.2) (qb e.2) dt).map (·.1)).sum
      let fwd := decide (0 < qb e.2 ∨ (qb e.2 = 0 ∧ 0 < qa e.2))
      if m = 0 then none else some (e.1, e.2, m, if fwd then (e.1.fromN, e.1.toN) else (e.1.toN, e.1.fromN))
  let es := inst.map fun e => (e.2.2.2.1, e.2.2.2.2)
  let loops := es.filter fun e => (reachF es.length es e.2).contains e.1
  let es' := es.filter fun e => !loops.contains e
  -- a plant comes before the HEX branch it is linked to
  let links := inst.filterMap fun e => if e.1.ty = 5 then (inst.find? fun x => x.2.1 == e.1.aux && x.1.ty == 3).map fun x => (e.2.2.2.1, x.2.2.2.1) else none
  let order := nodeOrder nN (es' ++ if i.predict then links.filter fun e => e.1 != e.2 else []) (List.range nN)
  let acc0 : MixAcc := ⟨c.nodes, pops.flatMap fun r => r.2.1, c.stores, false, [], []⟩
  let acc := order.foldl (fun (a : MixAcc) v =>
    let inLoop := loops.any fun e => e.1 == v || e.2 == v
    let nd := a.nodes.getD v (0, ⟨0, 0, 0⟩)
    let r := mixNode nd.2 (a.ins.filter fun x => x.node == v) ms inLoop
    let a := { a with nodes := a.nodes.set v (nd.1, r.1), held := a.held || r.2, clamps := if r.2 then v :: a.clamps else a.clamps }
    (inst.filter fun e => e.2.2.2.1 == v).foldl (fun (a : MixAcc) e =>
      let br := e.1
      let m : Rat := (e.2.2.1 : Rat) / 256
      let fwd := e.2.2.2.1 == br.fromN
      let q := if fwd then m / dt else -(m / dt)
      let hIn := enthOf r.1.t
      let back := loops.contains (e.2.2.2.1, e.2.2.2.2)
      let mk (h : Rat) (age o : Nat) : List InFlow := if back then [] else [⟨e.2.2.2.2, e.2.2.1, h, age, o, false⟩]
      match br.ty with
      | 3 =>
        let linked := linkedPlants i.brs e.2.1
        let p := if i.predict && !linked.isEmpty then
            (linked.map fun l => linkedDraw l.1.id ((a.power.find? fun x => x.1 == l.2).elim 0 (·.2))).sum
          else i.heat.getD e.2.1 0
        { a with ins := a.ins ++ mk (hexLaw hIn p q (i.qeps.getD e.2.1 0) (i.tIdle.getD e.2.1 0)) 0 (3 * 8192 + br.aux % 8192) }
      | 5 =>
        let h := plantLaw br.id hIn q (i.tPlant.getD e.2.1 0)
        { a with ins := a.ins ++ mk h 0 (8192 + br.asset), power := (e.2.1, q * (h - hIn)) :: a.power }
      | 4 =>
        match a.stores.find? fun x => x.1 == br.id with
        | none => a
        | some st =>
          let l := storeLaw br.id br.cold (if fwd then m else -m) dt hIn st.2
          { a with ins := a.ins ++ mk l.1 0 (2 * 8192 + br.asset), stores := a.stores.map fun x => if x.1 = br.id then (x.1, l.2) else x }
      | _ => { a with ins := a.ins ++ mk hIn r.1.age r.1.origin }) a) acc0
  let idle := (i.brs.filter fun r => r.ty == 4).filter fun r => !(inst.any fun e => e.1.id == r.id)
  let stores := acc.stores.map fun x => match idle.find? fun r => r.id == x.1 with
    | some r => (x.1, (storeLaw r.id r.cold 0 dt 0 x.2).2)
    | none => x
  let pushed := (c.pipes.zip pops).map fun (e : PipeRec × (List Barge × List InFlow × List Push × Nat)) =>
    let b := e.1.branch
    let r := e.2.2.2.1.foldl (fun (q : List Barge × Nat) (pu : Push) =>
      let nd := (acc.nodes.getD (if pu.2.1 then (ends b).2 else (ends b).1) (0, ⟨0, 0, 0⟩)).2
      let held := acc.clamps.contains (if pu.2.1 then (ends b).2 else (ends b).1)
      let x := pushEnd e.1 ofs minMass pu.2.1 ⟨pu.1, nd.t, (if pu.2.2 then bfOverrun else 0) + (if held then bfClamped else 0), nd.origin, 0, nd.age⟩ q.1
      (x.1, q.2 + b2n x.2)) (e.2.1, 0)
    let f := fitSlots e.1 ofs r.1.length r.1
    (f.1, r.2 + f.2)
  let over' := (pops.map fun r => r.2.2.2).sum
  let rev := brI.any fun e => decide (qa e.2 * qb e.2 < 0)
  let fl := (if rev then sfReversal else 0) ||| (if over' = 0 then 0 else sfOverrun) ||| (if loops.isEmpty then 0 else sfLoop) ||| (if acc.held then sfClamp else 0)
  ({ c with queues := pushed.map (·.1), nodes := acc.nodes, stores := stores, flows := q1, heat := i.heat, tIdle := i.tIdle, tPlant := i.tPlant }, fl, over', (pushed.map (·.2)).sum)
/-- Steps of at most `lim` that together cover a time, in the unit of both. -/
def cutMs (lim : Nat) : Nat → Nat → List Nat
  | 0, ms => [ms]
  | n + 1, ms => if ms ≤ lim then [ms] else lim :: cutMs lim n (ms - lim)
/-- Run sub-steps from a time `base`, with the flow at each boundary on the line from q0 to q1 (R259); ages count the whole units passed. -/
def runSubs (i : StepIn) (ofs : Int) (minMass : Nat) (q0 q1 : List Rat) (total : Nat) :
    Nat → Nat → List Nat → BtkCopy → BtkCopy × Nat × Nat × Nat
  | _, _, [], c => (c, 0, 0, 0)
  | base, done, x :: t, c =>
    let at' (x : Nat) : List Rat := (q0.zip q1).map fun (e : Rat × Rat) => e.1 + (e.2 - e.1) * ((x : Nat) : Rat) / ((max 1 total : Nat) : Rat)
    let units (u : Nat) : Nat := (base + done + x) / u - (base + done) / u
    let r := oneStep i ofs minMass (at' done) (at' (done + x)) ((x : Rat) / (tS : Rat)) (units tMs) (units (100 * tMs)) c
    let r2 := runSubs i ofs minMass q0 q1 total base (done + x) t r.1
    (r2.1, r.2.1 ||| r2.2.1, r.2.2.1 + r2.2.2.1, r.2.2.2 + r2.2.2.2)

/-! ### The commands -/

/-- A copy as integers for the pair link (log entry 86): GEN and time, then the pipes each with its queue, the nodes, the stores, and the
flows and inputs of its last step. -/
def streamOf (c : BtkCopy) : List Byte :=
  packInts ([[(c.gen : Int), c.t, c.pipes.length]] ++
    (c.pipes.map fun p => [(p.branch : Int), p.bid, p.fromN, p.toN, p.slots, p.mass, p.kp, p.tg, p.tInit]) ++
    (c.queues.map fun q => q.flatMap fun b => [(b.mass : Int), b.tEntry, b.flags, b.origin, b.pAge, b.age]) ++
    [c.nodes.flatMap fun n => [(n.1 : Int), n.2.t, n.2.age, n.2.origin], c.stores.flatMap fun x => ((x.1 : Nat) : Int) :: ratInts x.2.1 ++ ratInts x.2.2] ++
    [c.flows, c.heat, c.tIdle, c.tPlant].map fun l => l.flatMap ratInts)
/-- Groups of k numbers. -/
def groupsOf (k : Nat) (l : List Int) : List (List Int) := (List.range (l.length / k)).map fun i => (l.drop (k * i)).take k
/-- The copy that bytes of the pair link hold; none where they are no such object. -/
def streamCopy (b : List Byte) : Option BtkCopy :=
  let l := unpackInts b
  let at' (x : List Int) (i : Nat) : Nat := (x.getD i 0).toNat
  let n := at' (l.getD 0 []) 2
  let row (i : Nat) : List Int := l.getD (2 * n + 1 + i) []
  if l.length ≠ 2 * n + 7 then none
  else some
    { gen := at' (l.getD 0 []) 0, t := at' (l.getD 0 []) 1,
      pipes := ((l.drop 1).take n).map fun p => ⟨at' p 0, at' p 1, at' p 2, at' p 3, at' p 4, at' p 5, at' p 6, p.getD 7 0, at' p 8⟩,
      queues := ((l.drop (n + 1)).take n).map fun q => (groupsOf 6 q).map fun b => ⟨at' b 0, at' b 1, at' b 2, at' b 3, at' b 4, at' b 5⟩,
      nodes := (groupsOf 4 (row 0)).map fun x => (at' x 0, ⟨at' x 1, at' x 2, at' x 3⟩),
      stores := (groupsOf 5 (row 1)).map fun x => (at' x 0, mkRat (x.getD 1 0) (at' x 2), mkRat (x.getD 3 0) (at' x 4)),
      flows := intsRat (row 2), heat := intsRat (row 3), tIdle := intsRat (row 4), tPlant := intsRat (row 5) }
/-- Send an object whole on the data queue of the pair link, in chunks whose payload of up to 4,096 bytes begins with eight of their own (R555, R565). -/
def State.sendObj (s : State) (obj gen : Nat) (b : List Byte) : State :=
  let n := b.length / 4088
  if s.proto = 1 ∨ !s.acts then s
  else (List.range (n + 1)).foldl (fun s k =>
    s.plkSend 0x20 1 k false ([BitVec.ofNat 8 obj, BitVec.ofNat 8 (b2n (k == n)), 0, 0] ++ leBytes 4 gen ++ (b.drop (4088 * k)).take 4088)) s
/-- Ground offset in 2^-8 °C. -/
def State.tgOfs (s : State) : Int := sext 32 (s.regN R.BTK_TG_OFFSET)
/-- Store region of one bank: N_QUEUED queues of the model in force (R251). -/
def State.bankBase (s : State) (k : Nat) : Nat :=
  s.reg64 R.BTK_STORE_ADDR_LO R.BTK_STORE_ADDR_HI + k * 1024 * (pipeRecs s.mdlBytes).length
/-- Bytes of a barge (R247). -/
def bargeBytes (b : Barge) : List Byte :=
  leBytes 4 b.mass ++ leBytes 3 b.tEntry ++ leBytes 1 b.flags ++ leBytes 2 b.origin ++ leBytes 2 b.pAge ++ leBytes 4 b.age
/-- Write the queues of a copy into a bank. -/
def State.writeBank (s : State) (k : Nat) (c : BtkCopy) : State :=
  if !s.dramUp then s
  else
    let a := s.bankBase k
    { s with dram := (c.queues.zip (List.range c.queues.length)).foldl (fun m (e : List Barge × Nat) =>
        wrBytes m (a + 1024 * e.2) (e.1.flatMap bargeBytes)) s.dram }
/-- Bytes of a state copy for a model (R252, R281). -/
def stateLenOf (mb : List Byte) : Word :=
  Config.stateLen (pipeRecs mb).length (mdlNodes mb).length ((mdlBranches mb).filter fun r => r.ty == 4).length
/-- STATE_LEN: zero with no model in force. -/
def State.stateLen (s : State) : Word := if s.mdl.act then stateLenOf s.mdlBytes else 0
/-- What a state copy holds (R252): the barge counts, the nodes and the stores. -/
def stateInts (c : BtkCopy) : List (List Int) :=
  [c.queues.map fun q => (q.length : Int), c.nodes.flatMap fun n => [(n.2.t : Int), n.2.age, n.2.origin],
   c.stores.flatMap fun x => ratInts x.2.1 ++ ratInts x.2.2]
/-- Write a state of STATE_LEN bytes at an address of the yard. -/
def State.putState (s : State) (a : Nat) (l : List (List Int)) : State :=
  if !s.up 5 ∨ !inWork a s.stateLen.toNat then s
  else { s with yard := wrBytes s.yard a ((List.range s.stateLen.toNat).map fun i => Config.stateByte l i) }
/-- Address of a state copy; `b` is the bank it goes with. -/
def State.stateAt (s : State) (b : Bool) : Nat := s.regN R.BTK_STATE_ADDR + Config.stateOfs b
/-- The store that commits a step: its number and the bank flag, in the state header (R252). -/
def State.putHdr (s : State) (step : Nat) (b : Bool) : State :=
  let a := s.regN R.BTK_STATE_ADDR + Config.stateHdrOfs
  if !s.up 5 ∨ !inWork a 8 then s else { s with yard := wrN s.yard a 8 (Config.stateHdr step b) }
/-- A copy becomes the committed one, in the committed bank and state copy. -/
def State.btkPut (s : State) (c : BtkCopy) : State :=
  ((s.setBtk fun b => { b with com := some c, tg := s.tgOfs }).writeBank (b2n s.btk.bankB) c).putState (s.stateAt s.btk.bankB) (stateInts c)
/-- A copy to go on from: the one streamed where SEED_SRC asks for it, else one seeded for the model in force (R278). -/
def State.btkSeed (s : State) : State :=
  let str := if s.regN R.BTK_SEED_SRC = 1 ∧ s.flag R.PLK_STREAM_STAT 0 then streamCopy (s.plk.heldObj.get (fun _ => (0, [])) 1).2 else none
  match str with
  | some c => s.btkPut c
  | none => if s.btk.com.isSome ∨ !s.mdl.act then s else s.btkPut (seedCopy s.mdl.gen s.time.nsu s.mdlBytes)
/-- The newest valid flow set (R255, R256): an unusable slot is counted and the other one used. -/
def State.takeSet (s : State) : Option FlowSet × State :=
  let a := s.regN R.BTK_FLOW_ADDR
  let g (k : Nat) : Nat := rdN s.yard (a + 64 * k) 8
  let first := if g 0 < g 1 then 1 else 0
  let rd (k : Nat) : Option FlowSet := readSet s.yard s.mdlBytes (a + 64 * k)
  let bad (s : State) (k : Nat) : State := if g k = 0 then s else (s.incReg R.BTK_FLOW_BAD).errc btkPage 0x102 k
  match rd first with
  | some f => (if f.gen = 0 then none else some f, s)
  | none =>
    let s := bad s first
    match rd (1 - first) with
    | some f => (if f.gen = 0 then none else some f, s)
    | none => (none, bad s (1 - first))
/-- TRANSPORT_STEP (R258): the step runs on the committed copy into the other bank and waits for its commit, or is
skipped while one still runs. `r` is what the reads of the queues met (R280). -/
def execTransportStep (r : QueueReads) (s : State) : Host.Outcome State Fault Refusal :=
  if !s.running btkPage ∨ !s.mdl.act then .next s
  else if !s.acts then .next (s.setBtk fun b => { b with idle := true })
  else if s.btk.next.isSome then .next (((s.incReg R.BTK_SKIPS).irq btkPage 11).setBtk fun b => { b with skipped := true })
  else
    let s := if s.btk.idle then (s.btkSeed).setBtk fun b => { b with idle := false } else if s.btk.com.isNone then s.btkSeed else s
    match s.btk.com with
    | none => .next s
    | some c =>
      let mb := s.mdlBytes
      let old := s.btk.tg
      let mp := if c.gen = s.mdl.gen then (c, 0) else mapCopy c s.mdl.gen old mb
      let c := mp.1
      let reb := decide (old ≠ s.tgOfs)
      let c := if reb then { c with queues := (c.pipes.zip c.queues).map fun e => e.2.map fun b => b.rebase e.1 old } else c
      let ue : Option (BtkCopy) := match r.bad with
        | none => none
        | some k => match c.pipes[k]? with
          | none => none
          | some p =>
            let nt (id : Nat) : Nat := match c.nodes.find? fun e => e.1 == id with | some e => e.2.t | none => 0
            let t := (rneQ (((nt p.fromN + nt p.toN : Nat) : Rat) / 2)).toNat
            some { c with queues := c.queues.set k [⟨p.mass, t, bfSeeded, 0, 0, 0⟩] }
      let s := match ue, r.bad with
        | some _, some k => ((s.drmRead .uncorrectable (s.bankBase (b2n s.btk.bankB) + 1024 * k) 1024).errc btkPage 0x103 k).irq btkPage 12
        | _, _ => if r.corrected then s.drmCe else s
      let c := ue.getD c
      let f := s.takeSet
      let s := f.2
      let now := s.time.nsu
      let fresh := match f.1, s.btk.setGen with | some x, some g => decide (g < x.gen) | some _, none => true | none, _ => false
      let none' := f.1.isNone && s.btk.setGen.isNone
      let q0 := if none' then c.flows.map fun _ => 0 else c.flows
      let q1 := match f.1 with | some x => if fresh then x.q else q0 | none => q0
      let inp := match f.1 with | some x => x.inp | none => heldInputs mb c
      let setT := match f.1 with | some x => if fresh then x.t else s.btk.setT | none => s.btk.setT
      let stale := !none' && decide (setT + s.regN R.BTK_FLOW_AGE_MAX * tMs < now)
      let dt := now - c.t
      let lim := s.regN R.BTK_STEP_MS * tMs
      let subs := if dt ≤ 4 * lim then [dt] else cutMs lim (dt / max 1 lim + 1) dt
      let r := runSubs inp s.tgOfs (s.regN R.BTK_MIN_MASS) q0 q1 dt c.t 0 subs c
      let nc := { r.1 with t := now }
      let seeded := nc.queues.any fun q => q.any fun b => b.flags.testBit 3
      let fl := r.2.1 ||| (if stale then sfStale else 0) ||| (if seeded then sfSeeded else 0) ||| (if reb then sfRebased else 0) |||
        (if s.btk.skipped then sfSkipped else 0)
      let s := (s.setReg R.BTK_OVERRUNS (s.reg R.BTK_OVERRUNS + wd r.2.2.1)).setReg R.BTK_MERGES (s.reg R.BTK_MERGES + wd (r.2.2.2 + mp.2))
      let s := s.setBtk fun b => { b with next := some (nc, fl), skipped := false, tgN := s.tgOfs, setTN := setT,
                                          setGenN := match f.1 with | some x => some x.gen | none => b.setGen }
      .next ((s.writeBank (if s.btk.bankB then 0 else 1) nc).putState (s.stateAt !s.btk.bankB) (stateInts nc))
/-- A committed copy shown in the registers (R271, R272, R281). -/
def State.btkShow (s : State) (c : BtkCopy) (fl : Nat) (us : Word) : State :=
  let live := (c.queues.map (·.length)).sum
  let seeded := (c.queues.filter fun q => q.any fun b => b.flags.testBit 3).length
  (s.incReg R.BTK_STEP_GEN).setRegs [(R.BTK_STEP_T_NS, nsField c.t), (R.BTK_STEP_T_S, lo32 (secOf c.t)), (R.BTK_STEP_STAT, wd fl),
    (R.BTK_STEP_US, us), (R.BTK_LIVE, wd live), (R.BTK_SEEDED, wd seeded)]
/-- Place of an output buffer, whose layout no rule gives (log entry 20). -/
def State.outBase (s : State) (second : Bool) (n : Nat) : Nat := s.regN R.BTK_OUT_ADDR + 64 * Config.outOfs (b2n second) n
/-- A yard with the output buffer `o` at a, its ages at b (R271): device time and flags, the vectors N_TEMP and N_AGE with their headers, and
the step number last. -/
def outYard (sp : List ScaleRec) (m : Tab Byte) (a b : Nat) (o : BtkOut) : Tab Byte :=
  wrBytes (putVals (putVals (wrBytes m (a + 8) (leBytes 4 (nsField o.t).toNat ++ leBytes 4 (secOf o.t) ++ leBytes 4 o.flags))
    (a + 64) (arrOf sp 0x30) (o.temps.map fun t => (t : Rat) / 65536)) b (arrOf sp 0x31) (o.ages.map fun t => (t : Rat))) a (leBytes 8 o.step)
/-- The output buffer is written in the yard (R271). -/
def State.writeOut (s : State) (second : Bool) (o : BtkOut) : State :=
  let n := o.temps.length
  let a := s.outBase second n
  let b := a + 64 + 64 + up64 (8 * n)
  if !s.up 5 ∨ !inWork a (64 + 2 * (64 + up64 (8 * n))) then s
  else
    { s with yard := outYard (mdlScales s.mdlBytes) s.yard a b o }
/-- STEP_COMMIT (R252, R271): the other bank and copy become the committed ones, and the outputs are published. -/
def execStepCommit (us : Word) (s : State) : Host.Outcome State Fault Refusal :=
  match s.btk.next with
  | none => .next s
  | some (c, fl) =>
    if !s.active btkPage then .next s
    else
      let s := s.setBtk fun b => { b with com := some c, next := none, bankB := !b.bankB, tg := b.tgN, setT := b.setTN, setGen := b.setGenN }
      let s := (s.putHdr (s.regN R.BTK_STEP_GEN + 1) s.btk.bankB).btkShow c fl us
      let o : BtkOut := ⟨s.regN R.BTK_STEP_GEN, c.t, fl, c.nodes.map (·.2.t), c.nodes.map (·.2.age)⟩
      let second := decide (s.btk.out1.step < s.btk.out0.step)
      let s := (s.setBtk fun b => if second then { b with out1 := o } else { b with out0 := o }).writeOut second o
      let s := s.irq btkPage 8
      let s := if fl.testBit 2 then s.irq btkPage 10 else s
      .next (s.sendObj 1 (s.regN R.BTK_STEP_GEN) (streamOf c))
/-- Delay of a path in ms; none when it is blocked (R276). -/
def delayOf (ps : List PipeRec) (brs : List BranchRec) (qeps q : List Rat) (path : List (Nat × Bool)) : Option Nat :=
  let pipes := path.filter fun e => match brs[e.1]? with | some r => r.ty == 0 | none => false
  let fl (e : Nat × Bool) : Rat := if e.2 then -(q.getD e.1 0) else q.getD e.1 0
  if pipes.any fun e => decide (fl e < qeps.getD e.1 0 ∨ fl e ≤ 0) then none
  else
    let ms := pipes.foldl (fun (a : Rat) e => match ps.find? fun p => p.branch == e.1 with
      | some p => a + (p.mass : Rat) / 256 / fl e * 1000
      | none => a) 0
    some (min (rneQ ms).toNat (2 ^ 32 - 1))
/-- A forecast request (R274): none when it breaks a condition. -/
def State.fcRequest (s : State) : Option FcJob :=
  let a := s.regN R.BTK_FC_ADDR
  let m := s.yard
  let n := rdN m a 1
  let mb := s.mdlBytes
  let fl := rdN m (a + 0x10) 4
  let tb := rdVHdr m (rdN m (a + 0x14) 4)
  let dt := rdN m (a + 0x18) 4
  let sc := rdN m (a + 0x1C) 4
  let pf := mdlPaths mb
  match s.btk.com with
  | none => none
  | some c =>
    if a % 64 = 0 ∧ inWork a 64 ∧ 1 ≤ n ∧ n ≤ 96 ∧ 300 ≤ rdN m (a + 4) 4 ∧ rdN m (a + 4) 4 ≤ 3600 ∧ rdN m (a + 8) 4 < 1000000000 ∧
        rdN m (a + 1) 3 = 0 ∧ ((rdBytes m (a + 0x24) 28).all fun x => x == 0) ∧ inWork fl (4 * n) ∧
        ((List.range n).all fun k => inWork (rdN m (fl + 4 * k) 4) 64 && (readSet m mb (rdN m (fl + 4 * k) 4)).isSome) ∧ tb.ok true ∧ tb.len = n * pf.2.length ∧ tb.arr = 0x32 ∧
        inWork dt (8 * pf.1.length) ∧ sc % 64 = 0 ∧ inWork sc (rdN m (a + 0x20) 4) ∧
        s.stateLen.toNat ≤ rdN m (a + 0x20) 4 ∧ s.mdl.act then
      some ⟨n, rdN m (a + 4) 4, fl, tb.at', dt, sc, c⟩
    else none
/-- Bytes of bank F, of n queues. -/
def bankBytes (n : Nat) (l : List (List Int)) : List Byte := (List.range (1024 * n)).map fun i => Config.stateByte l i
/-- Until a forecast is done no rule gives what its scratch area and bank F hold (R273, R276): a free value. -/
def State.fcFree (s : State) (f : FcJob) : State :=
  let r := s.fresh
  let k : List (List Int) := [[(r.1.toNat : Int)]]
  let s := r.2.putState f.scratch k
  { s with dram := wrBytes s.dram (s.bankBase 2) (bankBytes f.copy.pipes.length k) }
/-- A forecast that is done leaves its state in the scratch area and its queues in bank F (R251, R273). -/
def State.fcKeep (s : State) (f : FcJob) (c : BtkCopy) : State := (s.writeBank 2 c).putState f.scratch (stateInts c)
/-- A forecast starts (R273, R274, R276): the delay table is written first; the run is left for its end. A START while RUNNING has no
effect (R282). Bank F and the scratch state, on which the run works from then on, hold free values until it is done (log entry 8). -/
def State.fcBegin (s : State) : State :=
  if !s.running btkPage ∨ s.fld R.BTK_FC_STAT 2 0 = 1 then s
  else match s.fcRequest with
    | none => (s.setReg R.BTK_FC_STAT 6).irq btkPage 9
    | some f =>
      let mb := s.mdlBytes
      let q := match s.takeSet.1 with | some x => x.q | none => []
      let brs := mdlBranches mb
      let qe := brs.map fun r => dyad r.kqe (expOf (mdlScales mb) 0x17)
      let rows := (mdlPaths mb).1.flatMap fun p => match delayOf (pipeRecs mb) brs qe q p with
        | some d => leBytes 4 d ++ leBytes 4 0
        | none => leBytes 4 (2 ^ 32 - 1) ++ leBytes 4 1
      let s := ({ s with yard := wrBytes s.yard f.delay rows } : State).fcFree f
      (s.setReg R.BTK_FC_STAT 1).setBtk fun b => { b with fc := some f }
/-- FC_CMD.START (R273). -/
def execFcStart (who : Initiator) (stores : List Store) (s : State) : Host.Outcome State Fault Refusal :=
  .next (s.afterStores who stores fun s => s.gate who R.BTK_FC_CMD fun s => s.fcBegin)
/-- Dispatch steps of a forecast: for each, the mean temperature of every point over its sub-steps (R273, R275); and the copy after them. -/
def fcRows (m : Tab Byte) (mb : List Byte) (ofs : Int) (minMass sub stepS flows : Nat) (pts : List Nat) :
    Nat → Nat → BtkCopy → List (List Rat) × BtkCopy
  | 0, _, c => ([], c)
  | n + 1, k, c =>
    let f := readSet m mb (rdN m (flows + 4 * k) 4)
    let q := match f with | some x => x.q | none => c.flows
    let inp := match f with | some x => x.inp | none => heldInputs mb c
    let subs := cutMs (1000 * sub) (stepS / max 1 sub + 1) (1000 * stepS)
    let r := subs.foldl (fun (a : BtkCopy × List Rat) (ms : Nat) =>
      let x := (oneStep { inp with predict := true } ofs minMass q q ((ms : Rat) / 1000) ms (ms / 100) a.1).1
      (x, (a.2.zip pts).map fun e => e.1 + ((x.nodes.getD e.2 (0, ⟨0, 0, 0⟩)).2.t : Rat) / 65536)) (c, pts.map fun _ => 0)
    let rest := fcRows m mb ofs minMass sub stepS flows pts n (k + 1) r.1
    ((r.2.map fun v => v / (subs.length : Rat)) :: rest.1, rest.2)
/-- Temperature in °C with which a forecast point is held when no row was completed (R277): T_INIT of a queued pipe at its node. -/
def initRow (c : BtkCopy) (pts : List Nat) : List Rat :=
  pts.map fun n =>
    let id := (c.nodes.getD n (0, ⟨0, 0, 0⟩)).1
    match c.pipes.find? fun p => p.fromN == id || p.toN == id with
    | some p => (p.tInit : Rat) / 65536
    | none => ((Config.nodeInit id).toNat : Rat) / 65536
/-- A forecast leaves RUNNING (R277, R282): the table's rows, the last completed one repeated. -/
def State.fcFinish (s : State) (why : FcEnd) : State :=
  match s.btk.fc with
  | none => s
  | some f =>
    let s := s.setBtk fun b => { b with fc := none }
    let code := match why with | .done => 2 | .deadline _ => 3 | .aborted => 5
    let done := match why with | .done => f.n | .deadline k => min k.val f.n | .aborted => 0
    let s := (s.setReg R.BTK_FC_STAT (wd (code + 256 * done))).irq btkPage 9
    if code = 5 ∨ !s.up 5 then s
    else
      let mb := s.mdlBytes
      let pts := (mdlPaths mb).2
      let run := fcRows s.yard mb s.tgOfs (s.regN R.BTK_MIN_MASS) (s.regN R.BTK_FC_SUB) f.stepS f.flows pts done 0 f.copy
      let rows := run.1
      let last := rows.getLastD (initRow f.copy pts)
      let tb := rdVHdr s.yard f.table
      let vals := ((rows ++ List.replicate (f.n - done) last).flatten).map fun v => clampI (-(tb.bound : Int)) tb.bound (mant tb.e v)
      let s := { s with yard := (elems tb.data vals).foldl (fun (m : Tab Byte) (e : Nat × List Byte) => wrBytes m e.1 e.2) s.yard }
      if code = 2 then s.fcKeep f run.2 else s

/-! ### Block states -/

/-- Configuration for RUN (R281). -/
def State.btkBad (s : State) : Option (Nat × Nat) :=
  let a := s.reg64 R.BTK_STORE_ADDR_LO R.BTK_STORE_ADDR_HI
  let n := s.regN R.BTK_STORE_LEN
  let need := if s.mdl.act then 3 * 1024 * (pipeRecs s.mdlBytes).length else 0
  let yardOk (r : Nat) : Bool := s.regN r % 64 == 0 && inWork (s.regN r) 64
  if s.regN R.BTK_STEP_MS < 100 ∨ 1000 < s.regN R.BTK_STEP_MS then some (4, 0x100)
  else if a % 1024 ≠ 0 ∨ !inDram a n then some (4, 0x104)
  else if !yardOk R.BTK_STATE_ADDR then some (4, 0x110)
  else if !yardOk R.BTK_FLOW_ADDR then some (4, 0x114)
  else if !yardOk R.BTK_OUT_ADDR then some (4, 0x118)
  else if s.regN R.BTK_FLOW_AGE_MAX < 100 ∨ 60000 < s.regN R.BTK_FLOW_AGE_MAX then some (4, 0x11C)
  else if s.regN R.BTK_FC_SUB < 10 ∨ 300 < s.regN R.BTK_FC_SUB then some (4, 0x120)
  else if 1 < s.regN R.BTK_SEED_SRC then some (4, 0x128)
  else if !s.up 9 then some (4, 0x104)
  else if n < need then some (0x100, 0)
  else none
/-- Entry to RUN: seeding where there is no committed state, and no flow set taken yet (R257, R278). -/
def State.btkStart (s : State) : State :=
  let s := s.setBtk fun b => { b with setGen := none, next := none, skipped := false }
  if s.btk.com.isNone then s.btkSeed else s
/-- A running forecast is aborted (R282). -/
def State.fcAbort (s : State) : State :=
  if s.fld R.BTK_FC_STAT 2 0 = 1 then ((s.setReg R.BTK_FC_STAT 5).irq btkPage 9).setBtk fun b => { b with fc := none } else s
/-- A stop that abandons the step (R253). -/
def State.btkAbandon (s : State) : State := (s.setBtk fun b => { b with next := none }).fcAbort
/-- The queues are lost with LPDDR5 (R254). -/
def State.btkLost (s : State) : State := (s.setBtk fun b => { b with com := none, next := none }).fcAbort

end Sys2Proof.Machine
end

