-- ==== Sys2Proof/Machine/Evr.lean ====
section
/-! DEFINITION. Event recorder: staging with rate limiting, flush to MRAM, the start-up scan, clearing, and the
register rows of the EVR page (R641 to R658). -/

namespace Sys2Proof.Machine

/-- Data area, and the part of it LOG_FULL is kept for (R652, R654). -/
abbrev logData : Nat := 4190208
abbrev logReserve : Nat := 48
/-- Codes without a limit (R650). -/
def noLimit (c : Nat) : Bool := decide ((1 ≤ c ∧ c ≤ 5) ∨ c = 0x20)
/-- RL_CFG of a bucket (R650, R657). -/
def State.rlCfg (s : State) (b : Nat) : Word := if noLimit b then 0x80000000 else s.evr.cfg.get (fun _ => 0x0010003C) b
/-- One token in the units of the bucket levels. -/
abbrev tokenUnit : Nat := 60 * tS

/-- Bytes of a record (R641). -/
def Staged.bytes (x : Staged) : List Byte :=
  let h := leBytes 8 x.seq ++ leBytes 4 (nsField x.t).toNat ++ leBytes 6 (secOf x.t) ++ leBytes 2 x.code.toNat ++
    [BitVec.ofNat 8 (x.body.length / 2), x.flags, 0, 0] ++ x.body.flatMap (fun w => leBytes 4 w.toNat) ++
    leBytes 4 (min x.count (2 ^ 32 - 1))
  h ++ leBytes 4 (crc32c h).toNat
/-- Length of a record (R641). -/
def Staged.len (x : Staged) : Nat := 32 + 4 * x.body.length
/-- Bytes now staged: records, and 16 for each pending trailer update (R649). -/
def EvrSt.bytes (e : EvrSt) : Nat := (e.staging.map Staged.len).sum + 16 * e.updates.length
/-- Update the shown fill of the staging buffer. -/
def State.showStage (s : State) : State := s.setReg R.EVR_STAGE_BYTES (wd s.evr.bytes)

/-- Put a record into the staging buffer with the next SEQ, making it the newest of its code (R642, R648). -/
def State.stageRec (s : State) (code : BitVec 16) (sev : BitVec 2) (pl : Plane) (lost : Bool) (t : Nat) (body : List Word) : State :=
  let e := s.evr
  let x : Staged := ⟨e.nextSeq, t, code, BitVec.ofNat 8 (sev.toNat + 4 * b2n lost + 8 * planeNum pl), body, 0⟩
  let n : Newest := { seq := e.nextSeq, len := body.length, count := 0 }
  { s with evr := { e with staging := e.staging ++ [x], nextSeq := e.nextSeq + 1,
                           newest := e.newest.set (fun _ => {}) (bucketOf code.toNat) n } }.showStage
/-- One of the recorder's own records (R643). -/
def State.stageOwn (s : State) (code : BitVec 16) (sev : BitVec 2) (body : List Word) : State :=
  s.stageRec code sev .management false s.time.nvm (pidOf 34 :: body)

/-- Raise the COUNT of the newest record of a bucket (R648, R649). -/
def State.bumpCount (s : State) (b : Nat) : State :=
  let e := s.evr
  let n := e.newest.get (fun _ => {}) b
  let n := { n with count := n.count + 1 }
  let e := { e with newest := e.newest.set (fun _ => {}) b n }
  match n.ofs with
  | some o => { s with evr := { e with updates := (e.updates.filter fun (u : Nat × Nat) => u.1 != o) ++ [(o, n.count)] } }.showStage
  | none => { s with evr := { e with staging := e.staging.map fun x => if x.seq = n.seq then { x with count := n.count } else x } }

/-- Level of a bucket now (R648). -/
def State.tokens (s : State) (b : Nat) : Nat :=
  let cfg := s.rlCfg b
  let cap := bits cfg 23 16 * tokenUnit
  match s.evr.tokens.find? (fun e => e.1 = b) with
  | none => cap
  | some (_, tok, t) => min cap (tok + bits cfg 11 0 * (s.time.nvm - t))

/-- A record that would be added to a full log is dropped and counted (R654). -/
def State.fullDrop (s : State) : State := (s.incReg R.EVR_FULL_DROP).bumpCount 3
/-- A record that passed the rate limit is staged, unless the log is full (R654). -/
def State.addRec (s : State) (code : BitVec 16) (sev : BitVec 2) (pl : Plane) (lost : Bool) (t : Nat) (body : List Word) : State :=
  if s.flag R.EVR_LOG_STAT 0 then s.fullDrop else s.stageRec code sev pl lost t body
/-- A record meets the rate limit and is added or suppressed (R648, R650). -/
def State.passRec (s : State) (code : BitVec 16) (sev : BitVec 2) (pl : Plane) (lost : Bool) (t : Nat) (body : List Word) : State :=
  let b := bucketOf code.toNat
  if noLimit code.toNat then s.addRec code sev pl lost t body
  else
    let lvl := s.tokens b
    let first := (s.evr.newest.get (fun _ => {}) b).seq = 0
    let spent := if tokenUnit ≤ lvl then lvl - tokenUnit else lvl
    let s' := { s with evr := { s.evr with tokens := s.evr.tokens.insert b (spent, s.time.nvm) } }
    if first ∨ tokenUnit ≤ lvl then s'.addRec code sev pl lost t body
    else (s'.bumpCount b).incReg R.EVR_SUPPRESSED

/-- Kind number of a LANE_RETIRE record (R231, R651). -/
abbrev evLaneRetire : Nat := 20

/-- A record of this code passes the rate limit now (R648, R650). -/
def State.recPasses (s : State) (code : BitVec 16) : Bool :=
  noLimit code.toNat || (s.evr.newest.get (fun _ => {}) (bucketOf code.toNat)).seq == 0 || decide (tokenUnit ≤ s.tokens (bucketOf code.toNat))
/-- The oldest record of a partition's queue goes to staging, RECORDS_LOST before it where the partition lost any and the record
passes, through the rate limit; a record that does not pass leaves the loss for the next (R31, R644). A LANE_RETIRE record sets
its lane in the MRAM map (R642, R648, R651). -/
def State.stageNext (s : State) (p : Plane) : State :=
  match s.evr.queues.get (fun _ => []) (planeNum p) with
  | [] => s
  | q :: rest =>
    if !s.active 34 ∨ (s.up (plicDom p) && !s.locked (plicDom p)) then s
    else if 65536 < s.evr.bytes + 36 + 4 * q.r.body.length + (if s.evr.lostNew.get (fun _ => 0) (planeNum p) = 0 then 0 else 48) then s
    else
      let n := planeNum p
      let full := s.flag R.EVR_LOG_STAT 0
      let pass := s.recPasses (recNumber q.r) && !full
      let lost := if pass then s.evr.lostNew.get (fun _ => 0) n else 0
      let s := { s with evr := { s.evr with queues := s.evr.queues.set (fun _ => []) n rest,
                                            lostNew := if pass then s.evr.lostNew.set (fun _ => 0) n 0 else s.evr.lostNew } }
      let s := match q.r.code, q.r.facts with
        | .evt k, c :: l :: _ =>
          if k = evLaneRetire then
            let a := if l.toNat < 32 then R.NVM_LMAP_LO c.toNat else R.NVM_LMAP_HI c.toNat
            s.setFlag a (l.toNat % 32) true
          else s
        | _, _ => s
      let s := if lost = 0 then s else s.stageOwn 5 1 [wd n, wd lost, 0]
      s.passRec (recNumber q.r) q.r.sev q.r.plane (decide (0 < lost)) q.t (q.r.src :: q.r.body)
/-- RECORD_STAGE. -/
def execRecordStage (p : Plane) (s : State) : Host.Outcome State Fault Refusal := .next (s.stageNext p)
/-- Every record that waits in a partition's queue is staged, as far as the buffer holds them. -/
def State.stageQueue (s : State) (p : Plane) : State :=
  (s.evr.queues.get (fun _ => []) (planeNum p)).foldl (fun (s : State) _ => s.stageNext p) s

/-- RECORD_SUBMIT: a record enters its partition's queue, or is lost (R31, R32, R101, R642, R643). -/
def execRecordSubmit (r : Record) (s : State) : Host.Outcome State Fault Refusal := .next (s.submit r)

/-- Write one trailer update into the log: COUNT and the CRC over the record (R649). -/
def writeUpdate (d : Tab Byte) (o count : Nat) : Tab Byte :=
  let len := 8 * (rdB d (o + 0x14)).toNat
  let d := wrN d (o + 0x18 + len) 4 (min count (2 ^ 32 - 1))
  wrN d (o + 0x1C + len) 4 (crc32c (rdBytes d o (0x1C + len))).toNat

/-- Percent of the data area used. -/
def fillOf (ende : Nat) : Nat := 100 * ende / logData

/-- Show a committed control in the registers and raise ALMOST_FULL once per fill (R654, R657). -/
def State.showLog (s : State) (c : LogCtl) : State :=
  let s := s.setReg R.EVR_END (wd c.ende)
  let s := s.setReg64 R.EVR_SEQ_LO R.EVR_SEQ_HI (c.next - 1)
  let s := s.setReg R.EVR_LOG_STAT (wd (b2n c.full + 256 * fillOf c.ende))
  if s.regN R.EVR_FILL_WARN ≤ fillOf c.ende ∧ s.evr.almost = false then
    ({ s with evr := { s.evr with almost := true } }).irq 34 8
  else s

/-- Write one staged record at END, or LOG_FULL where it would end inside the reserve (R645, R654). -/
def flushOne (s : State) (c : LogCtl) (x : Staged) : State × LogCtl :=
  if c.full then (s.fullDrop, c)
  else if c.ende + x.len + logReserve ≤ logData then
    let e := { s.evr with data := wrBytes s.evr.data c.ende x.bytes }
    let b := bucketOf x.code.toNat
    let nw := e.newest.get (fun _ => {}) b
    let e := if nw.seq = x.seq then { e with newest := e.newest.set (fun _ => {}) b { nw with ofs := some c.ende } } else e
    ({ s with evr := e }, { c with ende := c.ende + x.len, next := x.seq + 1 })
  else
    let y : Staged := ⟨x.seq, s.time.nvm, 3, 3 + 8 * 2, [pidOf 34, 0, 0, 0], 1⟩
    let e := { s.evr with data := wrBytes s.evr.data c.ende y.bytes,
                          newest := s.evr.newest.set (fun _ => {}) 3 { seq := x.seq, ofs := some c.ende, len := 4, count := 1 } }
    ((({ s with evr := e }).incReg R.EVR_FULL_DROP).irq 34 9, { c with ende := c.ende + 48, next := x.seq + 1, full := true })

/-- Write every staged record and trailer update and commit the control (R645, R649, R652). -/
def State.flushLog (s : State) : State :=
  let c := s.evr.ctl.getD {}
  let e := s.evr
  let st := e.staging
  let s := { s with evr := { e with data := e.updates.foldl (fun d u => writeUpdate d u.1 u.2) e.data, updates := [], staging := [] } }
  let (s, c) := st.foldl (fun (acc : State × LogCtl) x => flushOne acc.1 acc.2 x) (s, c)
  let s := { s with evr := { s.evr with ctl := some c } }
  (s.showStage).showLog c

/-- FLUSH (R645). -/
def execFlush (s : State) : Host.Outcome State Fault Refusal := .next (if s.active 34 then s.flushLog else s)

/-- A record found in the log at offset o: its length, when LEN is valid and the CRC holds (R653). -/
def logRecAt (d : Tab Byte) (o : Nat) : Option (Nat × Nat) :=
  let len := (rdB d (o + 0x14)).toNat
  if 2 ≤ len ∧ len ≤ 32 ∧ o + 32 + 8 * len ≤ logData ∧
      (crc32c (rdBytes d o (0x1C + 8 * len))).toNat = rdN d (o + 0x1C + 8 * len) 4 then
    some (rdN d o 8, 32 + 8 * len)
  else none
/-- Scan forward: END, next SEQ and records adopted (R653). -/
def logScan (d : Tab Byte) : Nat → Nat → Nat → Nat → Bool → Nat → Nat × Nat × Nat
  | 0, o, next, n, _, _ => (o, next, n)
  | fuel + 1, o, next, n, any, start =>
    match logRecAt d o with
    | some (seq, len) =>
      if (any ∨ seq = next) ∧ o + len ≤ start + 65824 then logScan d fuel (o + len) (seq + 1) (n + 1) false start
      else (o, next, n)
    | none => (o, next, n)
/-- LOG_FULL of a full log found at start-up, its last record, which goes on counting what is dropped (R654). -/
def logFullAt (d : Tab Byte) (ende : Nat) : Tab Newest :=
  let o := ende - logReserve
  Tab.set (fun _ => {}) [] 3 { seq := rdN d o 8, ofs := some o, len := 4, count := rdN d (o + 0x28) 4 }
/-- Start-up of the recorder: newest control, scan, commit, EVR_START (R653); buckets full, nothing staged (R648). -/
def State.evrStart (s : State) : State :=
  let c := s.evr.ctl.getD {}
  let (o, next, n) := logScan s.evr.data 1372 c.ende c.next 0 s.evr.ctl.isNone c.ende
  let c' := { c with ende := o, next := next }
  let lostCtl := s.evr.ctl.isNone
  let s := { s with evr := { s.evr with ctl := some c', nextSeq := next, staging := [], updates := [], tokens := [],
                                        newest := if c.full then logFullAt s.evr.data c.ende else [],
                                        almost := decide (s.regN R.EVR_FILL_WARN ≤ fillOf c.ende) }}
  let s := if lostCtl then s.errc 34 0x100 0 else s
  (s.showLog c').stageOwn 1 0 [s.reg R.PWR_RST_CAUSE, wd n, 0]

/-- LOG_CLEAR at its boundary: refused while newer records stand, otherwise the log is emptied and LOG_CLEARED written
(R656). -/
def State.logClear (s : State) (slot : Byte) (counter archived : DWord) : State :=
  let s := s.flushLog
  let c := s.evr.ctl.getD {}
  if archived.toNat < c.next - 1 ∧ archived ≠ BitVec.allOnes 64 then
    let s := s.stageOwn 4 1 [wd (slot.toNat + 256), lo32 archived.toNat, hi32 archived.toNat]
    let s := s.setReg R.EVR_CLR_LAST (wd (2 + 256 * slot.toNat))
    ((s.irq 34 12).errc 34 0x101 1)
  else
    let recs := c.next - c.first
    let c' : LogCtl := { ende := 0, next := c.next, full := false, first := c.next, clrSlot := slot, clrCtr := counter,
                         clrT := s.time.nvm, clrFirst := c.first, clrLast := c.next - 1, clrRecs := recs, clrBytes := c.ende }
    let x : Staged := ⟨s.evr.nextSeq, s.time.nvm, 2, 1 + 8 * 2,
      [pidOf 34, wd slot.toNat, lo32 counter.toNat, hi32 counter.toNat, lo32 c'.clrFirst, hi32 c'.clrFirst, lo32 c'.clrLast,
       hi32 c'.clrLast, wd recs, wd c.ende], 0⟩
    let e := { s.evr with data := wrBytes [] 0 x.bytes, nextSeq := s.evr.nextSeq + 1, newest := [], almost := false,
                          updates := [] }
    let c'' := { c' with ende := x.len, next := x.seq + 1 }
    let s := { s with evr := { e with ctl := some c'' } }
    let s := s.setReg R.EVR_CLR_LAST (wd (1 + 256 * slot.toNat))
    (s.showLog c'').irq 34 11

/-- Word w of the RD window (R655). -/
def State.logWord (s : State) (w : Nat) : Word :=
  let o := s.regN R.EVR_RD_OFS + 4 * w
  if (s.evr.ctl.getD {}).ende ≤ o then 0 else wd (rdN s.evr.data o 4)

/-- SW_SEND: a firmware record (R657). -/
def execSwSend (who : Initiator) (val : Word) (s : State) : Host.Outcome State Fault Refusal :=
  .next (s.gate who R.EVR_SW_SEND fun s =>
    let code := val.setWidth 16
    if !decide (0x200 ≤ code.toNat ∧ code.toNat ≤ 0x2FF) then s.incReg R.EVR_BAD_REC
    else s.submit ⟨.num code, BitVec.ofNat 2 (bits val 17 16), .management, s.reg (R.EVR_SW_D 0),
      (List.range (2 * bits val 29 24 - 1)).map (fun i => s.reg (R.EVR_SW_D (i + 1))), []⟩)
/-- RD_OFS: selects the offset shown, 8-byte aligned (R655). -/
def execRdOfs (who : Initiator) (val : Word) (s : State) : Host.Outcome State Fault Refusal :=
  .next (s.gate who R.EVR_RD_OFS fun s => s.setReg R.EVR_RD_OFS (val &&& 0xFFFFFFF8))
/-- RL_INDEX: selects the bucket shown by RL_CFG (R650, R657). -/
def execRlIndex (who : Initiator) (val : Word) (s : State) : Host.Outcome State Fault Refusal :=
  .next (s.gate who R.EVR_RL_INDEX fun s => s.rws R.EVR_RL_INDEX fun s => s.setReg R.EVR_RL_INDEX (val &&& 0x3FF))
/-- A write of RL_CFG goes to the bucket selected; a BURST of 0 is outside its range (R90, R650, R657). -/
def State.wrRlCfg (s : State) (val : Word) : State :=
  let b := s.fld R.EVR_RL_INDEX 9 0
  if noLimit b then s
  else if bits val 23 16 = 0 then s.cfgRej 34 0x10C
  else { s with evr := { s.evr with cfg := s.evr.cfg.set (fun _ => 0x0010003C) b (val &&& 0x00FF0FFF) } }

end Sys2Proof.Machine
end

