-- ==== Sys2Proof/Machine/Jobs.lean ====
section
/-! DEFINITION. Jobs in the ring (R190 to R201, R224): taking one, its end and its result record; lane tests
(R228 to R235) and the scrubber (R174). -/

namespace Sys2Proof.Machine

/-! ### Ring registers (R190, R191, R240) -/

/-- JQ_BASE and JQ_SIZE set all three indices to 0 (R190). -/
def execJqCfgWrite (who : Initiator) (size : Bool) (val : Word) (s : State) : Host.Outcome State Fault Refusal :=
  let a := if size then R.JQ_JQ_SIZE else R.JQ_JQ_BASE
  .next (s.gate who a fun s => s.rws a fun s =>
    s.setRegs [(a, val), (R.JQ_JQ_HEAD, 0), (R.JQ_JQ_TAIL, 0), (R.JQ_JQ_DONE, 0)])
/-- JQ_TAIL: accepted unless it passes the ring's size or moves backwards (R191). `stores` are what the producer wrote
into the yard before: the descriptor, and operands. -/
def execJqTail (who : Initiator) (val : Word) (stores : List Store) (s : State) : Host.Outcome State Fault Refusal :=
  .next (s.afterStores who stores fun s => s.gate who R.JQ_JQ_TAIL fun s =>
    let back := decide (2 ^ 31 ≤ (val - s.reg R.JQ_JQ_TAIL).toNat)
    let long := decide (s.regN R.JQ_JQ_SIZE < (val - s.reg R.JQ_JQ_HEAD).toNat)
    if back || long then (s.incReg R.JQ_JQ_REJ).irq jqPage 10 else s.setReg R.JQ_JQ_TAIL val)
/-- Ring configuration for RUN (R239). -/
def State.nsuBad (s : State) : Option (Nat × Nat) :=
  let a := s.regN R.JQ_JQ_BASE
  let n := s.regN R.JQ_JQ_SIZE
  if a % 64 ≠ 0 ∨ !inWork a (64 * n) then some (0x100, 0x100)
  else if !([16, 32, 64, 128, 256, 512, 1024, 2048, 4096].contains n) then some (0x100, 0x104)
  else if s.fld R.NSU_CLUSTER_EN 3 0 = 0 then some (4, 0x100)
  else none

/-! ### The end of a job -/

/-- The error that the job met shows (R166, R172, R173): the address and the bank of a word, whose factor loses its VALID bit where it
lies in its active buffer, or the cluster of a mismatch, which goes offline. `m` is the yard with the outputs of the job. -/
def facHit (m : Tab Byte) (d : List Word) (a : Nat) : List (Nat × List Byte) :=
  let o := dOpnd d 3
  let h := rdFHdr m o
  let b := h.active
  if o ≠ 0 ∧ h.kind = 5 ∧ b.2.1 ≤ a ∧ a < b.2.1 + h.bufLen ∧ inWork o 64 then
    [(o + 1, [BitVec.ofNat 8 (h.flags &&& (255 - 2 ^ b.1))])]
  else []
/-- The result record (R201) as bytes. -/
def resultBytes (j : Job) (tEnd : Nat) (iterNs fails : Word) : List Byte :=
  leBytes 4 (dW j.desc 1) ++ leBytes 1 j.out ++ leBytes 1 (dOp j.desc) ++ leBytes 2 j.flags ++ leBytes 4 j.iters ++ leBytes 4 j.pivots ++
    leBytes 8 (unsext 64 j.res.1) ++ leBytes 8 (unsext 64 j.rhs.1) ++ leBytes 2 (unsext 16 j.res.2) ++ leBytes 2 (unsext 16 j.rhs.2) ++
    leBytes 4 j.iso ++ leBytes 4 j.warm.1 ++ leBytes 4 j.warm.2.1 ++ leBytes 4 j.warm.2.2.1 ++ leBytes 4 j.warm.2.2.2 ++ leBytes 4 j.rngAt.2.2 ++
    leBytes 1 (j.rngAt.1 + 16 * j.rngAt.2.1) ++ leBytes 1 j.cl ++ [0, 0] ++
    leBytes 4 (nsField j.start).toNat ++ leBytes 4 (secOf j.start) ++ leBytes 4 (nsField tEnd).toNat ++ leBytes 4 (secOf tEnd) ++
    leBytes 4 iterNs.toNat ++ leBytes 4 fails.toNat ++ List.replicate 40 0
/-- The pivot log: 64 row numbers, unused ones all ones. -/
def pivotBytes (l : List Nat) : List Byte := (List.range 64).flatMap fun i => leBytes 4 (l.getD i 0xFFFFFFFF)
/-- Apply stores to the yard. -/
def yardPut (m : Tab Byte) (l : List (Nat × List Byte)) : Tab Byte := l.foldl (fun m e => wrBytes m e.1 e.2) m
/-- Clusters busy with the jobs left. -/
def State.showBusy (s : State) : State :=
  let busy := s.nsu.jobs.foldl (fun a j => a ||| j.cl) 0
  let s := s.setFld R.NSU_ACTIVE 3 0 busy
  (List.range 4).foldl (fun s c =>
    let j := s.nsu.jobs.find? fun j => j.cl.testBit c
    (s.setFlag (R.NSUC_STAT c) 8 j.isSome).setReg (R.NSUC_JOB_TAG c) (match j with | some j => wd (dW j.desc 1) | none => s.reg (R.NSUC_JOB_TAG c))) s
/-- The outputs of a job, and a factor that an error met (R173, R194). -/
def jobOutputs (j : Job) (m : Tab Byte) : Tab Byte :=
  match j.out, j.cut.err with
  | 7, some (_, .ecc a) => yardPut (yardPut (yardPut m j.data) j.other) (facHit (yardPut (yardPut m j.data) j.other) j.desc a.toNat)
  | _, _ => yardPut (yardPut m j.data) j.other
/-- A job's record `r` and its pivot log (R201). -/
def jobRecord (j : Job) (r : List Byte) (m : Tab Byte) : Tab Byte :=
  match j.log with
  | some l => wrBytes (wrBytes m (dW j.desc 11) r) (dW j.desc 11 + 128) (pivotBytes l)
  | none => wrBytes m (dW j.desc 11) r
/-- The yard when a job has ended. -/
def State.jobYard (s : State) (j : Job) (iterNs : Word) : Tab Byte :=
  if resultOk j.desc then jobRecord j (resultBytes j s.time.nsu iterNs (s.reg R.NSU_LANE_FAILS)) (jobOutputs j s.yard) else jobOutputs j s.yard
/-- A job ends: outputs, record, then JQ_DONE, then the causes (R194). -/
def State.jobFinish (s : State) (j : Job) (iterNs : Word) : State :=
  let t := s.time.nsu
  let s := if s.up 5 then { s with yard := s.jobYard j iterNs } else s
  let s := s.setNsu fun n => { n with jobs := n.jobs.filter fun x => x.idx != j.idx }
  let busyClk := (t - j.start) / 2 ^ 32 * 4 / 5
  let s := (List.range 4).foldl (fun s c =>
    if j.cl.testBit c then s.setReg64 (R.NSUC_BUSY_LO c) (R.NSUC_BUSY_HI c) (s.reg64 (R.NSUC_BUSY_LO c) (R.NSUC_BUSY_HI c) + busyClk) else s) s
  let s := (s.incReg R.JQ_JQ_DONE).setRegs [(R.JQ_JQ_LAST_TAG, wd (dW j.desc 1)), (R.JQ_JQ_LAST_OUT, wd (j.out + 256 * dOp j.desc))]
  let err := decide ((4 ≤ j.out ∧ j.out ≤ 9) ∨ j.out = 11)
  let s := if err then (s.incReg R.NSU_JOB_ERRS).irq jqPage 9 else s
  let s := if dFlag j.desc 0 then s.irq jqPage 8 else s
  let s := s.showBusy
  if s.nsu.jobs.isEmpty && s.reg R.JQ_JQ_HEAD == s.reg R.JQ_JQ_TAIL then s.irq jqPage 11 else s
/-- Elements that may be old or new: each stays in the list by a fresh free bit (R224). -/
def State.someOf (s : State) (l : List (Nat × List Byte)) : List (Nat × List Byte) × State :=
  let n := s.free
  (((l.zip (List.range l.length)).filter fun p => (Config.freeBits (n + p.2)).getLsbD 0).map (·.1), { s with free := n + l.length })
/-- Every running job ends ABORTED: outputs unchanged, unless the abort fell into the final copy (R224). Its record says what it ran on
(R193) and nothing of its work, with an empty pivot log. -/
def State.jobsAbort (s : State) : State :=
  s.nsu.jobs.foldl (fun s j =>
    let f := s.fresh
    let k := if f.1.getLsbD 0 then f.2.someOf j.data else ([], f.2)
    k.2.jobFinish { idx := j.idx, desc := j.desc, cl := j.cl, start := j.start, out := 6, data := k.1, flags := j.flags &&& 16,
                    log := if hasLog j.desc then some [] else none } 0) s
/-- The NSU enters FAULT with a code, its jobs ABORTED, and passes end (R173, R232, R287). -/
def State.nsuFail (s : State) (code detail : Nat) : State := ((s.jobsAbort).fail nsuPage code detail).passesDown

/-! ### Lanes (R228 to R235) -/

/-- Number of good lanes of a cluster. -/
def State.goodLanes (s : State) (c : Nat) : Nat :=
  ((List.range 34).filter fun l => if l < 32 then !s.flag (R.NSUL_LRET_LO c) l else !s.flag (R.NSUL_LRET_HI c) (l - 32)).length
/-- The lane is retired. -/
def State.laneOut (s : State) (c l : Nat) : Bool := if l < 32 then s.flag (R.NSUL_LRET_LO c) l else s.flag (R.NSUL_LRET_HI c) (l - 32)
/-- Width, DEGRADED and OFFLINE of a cluster from its map (R232, R240). -/
def State.clusterShow (s : State) (c : Nat) : State :=
  let g := s.goodLanes c
  let w := if 33 ≤ g then 32 else g - 1
  let deg := decide (g ≤ 32)
  let off := decide (w < 16) || s.flag (R.NSUC_STAT c) 7
  let was := (s.flag (R.NSUC_STAT c) 6, s.flag (R.NSUC_STAT c) 7)
  let s := ((s.setFld (R.NSUC_STAT c) 5 0 w).setFlag (R.NSUC_STAT c) 6 deg).setFlag (R.NSUC_STAT c) 7 off
  let s := s.setFlag R.NSU_ACTIVE (4 + c) off
  let diff := s.reg (R.NSUL_LMAP_LO c) != s.reg (R.NSUL_LRET_LO c) || s.reg (R.NSUL_LMAP_HI c) != s.reg (R.NSUL_LRET_HI c)
  let s := s.setFlag R.NSUL_LMAP_CHANGED c diff
  let s := if deg then (s.statBit (49 + c) sbDeg true).statBit nsuPage sbDeg true else s
  let s := if was = (deg, off) then s else s.irq nsuPage 9
  let s := if off && !was.2 then s.irq (49 + c) 10 else s
  if s.fld R.NSU_ACTIVE 7 4 = 15 ∧ s.shown nsuPage ≠ 4 then (s.irq nsuPage 10).nsuFail 0x102 0 else s
/-- A cluster goes offline (R166). -/
def State.clusterOff (s : State) (c : Nat) : State := ((s.setFlag (R.NSUC_STAT c) 7 true).irq (49 + c) 10).irq nsuPage 9 |>.clusterShow c
/-- Every good lane was tested since the first entry to RUN (R229). -/
def State.lanesTested (s : State) : Bool :=
  (List.range 4).all fun c => (List.range 34).all fun l => s.laneOut c l || s.nsu.tested.get (fun _ => false) (64 * c + l)
/-- LMAP: a 1 retires a lane, a 0 has no effect (R233, R240). -/
def execLmapWrite (who : Initiator) (c : Fin 4) (hi : Bool) (val : Word) (s : State) : Host.Outcome State Fault Refusal :=
  let a := if hi then R.NSUL_LMAP_HI c.val else R.NSUL_LMAP_LO c.val
  let r := if hi then R.NSUL_LRET_HI c.val else R.NSUL_LRET_LO c.val
  .next (s.gate who a fun s => s.rws a fun s =>
    let v := if hi then val &&& 3 else val
    ((s.setReg a (s.reg a ||| v)).setReg r (s.reg r ||| v)).clusterShow c.val)
/-- LANE_TEST: the next good lane in cyclic order goes under test (R228, R229). -/
def execLaneTest (c : Fin 4) (s : State) : Host.Outcome State Fault Refusal :=
  if !s.up 4 ∨ s.shown nsuPage = 4 ∨ s.fld (R.NSUC_STAT c.val) 21 16 ≠ 63 then .next s
  else
    let cur := s.nsu.cur.get (fun _ => 33) c.val
    match ((List.range 34).map fun i => (cur + 1 + i) % 34).find? fun l => !s.laneOut c.val l with
    | none => .next s
    | some l => .next (s.setFld (R.NSUC_STAT c.val) 21 16 l)
/-- LANE_TEST_DONE: passed, cleared by the second test, or failed and retired (R230, R231). -/
def execLaneTestDone (c : Fin 4) (res : LaneEnd) (s : State) : Host.Outcome State Fault Refusal :=
  let l := s.fld (R.NSUC_STAT c.val) 21 16
  if !s.up 4 ∨ l = 63 then .next s
  else
    let s := (s.setFld (R.NSUC_STAT c.val) 21 16 63).setNsu fun n =>
      { n with cur := n.cur.set (fun _ => 33) c.val l, tested := n.tested.set (fun _ => false) (64 * c.val + l) true }
    let passed (s : State) : State :=
      (s.incReg (R.NSUC_TESTS c.val)).setNsu fun n => { n with passed := n.passed.set (fun _ => 0) (64 * c.val + l) s.time.nsu }
    match res with
    | .pass => .next (passed s)
    | .transient => .next ((((passed s).incReg (R.NSUC_TRANSIENTS c.val)).irq (49 + c.val) 9).emit evLaneTransient nsuPage [wd c.val, wd l])
    | .failed =>
      let t := s.nsu.passed.get (fun _ => 0) (64 * c.val + l)
      let s := if l < 32 then s.setFlag (R.NSUL_LRET_LO c.val) l true else s.setFlag (R.NSUL_LRET_HI c.val) (l - 32) true
      let s := (s.incReg R.NSU_LANE_FAILS).setRegs [(R.NSU_LF_LANE, wd (c.val + 256 * l)), (R.NSU_LF_WIN_NS, nsField t), (R.NSU_LF_WIN_S, lo32 (secOf t))]
      let s := ((s.irq nsuPage 8).irq (49 + c.val) 8).emit evLaneRetire nsuPage [wd c.val, wd l, nsField t, lo32 (secOf t)]
      .next (s.clusterShow c.val)

/-! ### Errors of the yard and of a cluster (R166, R171 to R174) -/

/-- An uncorrectable word of the yard is counted and latched (R172, R174). -/
def State.yardUe (s : State) (a : Nat) : State := (s.incReg R.YRD_YRD_UE_COUNT).setReg R.YRD_YRD_UE_ADDR (wd a)
/-- One that a job met: STAT.ECC_UE and its cause are the first page's (R87, R172). -/
def State.nsuUe (s : State) (a : Nat) : State := ((s.yardUe a).statBit nsuPage sbUe true).irq nsuPage 5
/-- What the error that ended a job does beyond its record (R166, R172). -/
def State.jobMet (s : State) (j : Job) : State :=
  match j.out, j.cut.err with
  | 7, some (_, .ecc a) => (s.nsuUe a.toNat).errc nsuPage 3 (a.toNat / 64 % 48)
  | 11, some (_, .hw c) => (s.errc nsuPage 0x103 c.val).clusterOff c.val
  | _, _ => s
/-- A corrected word; STAT.ECC_CE and its cause are the first page's (R87, R171). -/
def State.yardCe (s : State) (a : Nat) : State :=
  let b := a / 64 % 48
  let s := s.incReg R.YRD_YRD_CE_COUNT
  let s := if s.up 4 then (s.statBit nsuPage sbCe true).irq nsuPage 4 else s
  if b < 32 then s.setFlag R.YRD_YRD_CE_BANKS_LO b true else s.setFlag R.YRD_YRD_CE_BANKS_HI (b - 32) true
/-- Words that reads of the yard corrected. -/
def State.yardFixed (s : State) (l : List Word) : State := if s.up 5 then l.foldl (fun s a => s.yardCe a.toNat) s else s
/-- YARD_SCRUB: the word at YRD_SCRUB_POS is read; the pass ends at the top of the yard. -/
def execYardScrub (res : Ecc) (s : State) : Host.Outcome State Fault Refusal :=
  if !s.up 5 then .next s
  else
    let a := s.regN R.YRD_YRD_SCRUB_POS
    let s := match res with
      | .clean => s
      | .corrected => s.yardCe a
      | .uncorrectable => (s.yardUe a).irq yrdPage 9
    .next (if a + 8 < 0x23000000 then s.setReg R.YRD_YRD_SCRUB_POS (wd (a + 8))
      else (s.setReg R.YRD_YRD_SCRUB_POS 0x20000000).irq yrdPage 8)

/-! ### Taking a job (R192, R193) -/

/-- Descriptor in the ring at a free-running index. -/
def State.descAt (s : State) (i : Nat) : List Word :=
  let a := s.regN R.JQ_JQ_BASE + 64 * (i % max 1 (s.regN R.JQ_JQ_SIZE))
  (rdWords s.yard a 16).map wd
/-- Clusters a job may run on and whether it fell back to every working one (R193). -/
def State.clusterSet (s : State) (d : List Word) : Nat × Bool :=
  let off := s.fld R.NSU_ACTIVE 7 4
  let m := dW d 0 / 65536 % 16
  let base := if m = 0 then s.fld R.NSU_CLUSTER_EN 3 0 else m
  let c := base &&& (15 - off)
  if c = 0 then (15 - off, true) else (c, false)
/-- An elementary operation or FPRINT (R202, R224): its deadline and a drain are seen at the start alone; an error met at point 0 comes
before what `f` finds in its operands, a later one before its end. -/
def Job.atStart (j : Job) (cut : JobCut) (f : Job) : Job :=
  match (if f.out = 9 then (if (cutAt { cut with deadline := none, drain := none } 0 0).isSome then cutErr cut else none)
    else cutAt cut 0 3) with
  | some o => { f with out := o, data := if errOut o then f.data else [], other := if errOut o then f.other else j.other, res := (0, 0) }
  | none => match cutErr cut with
    | some o => if f.out = 0 then { f with out := o, res := (0, 0) } else f
    | none => f
/-- A solve, a factorisation or NEWTON: an error at point 0 comes before its operands are looked at. -/
def Job.solving (j : Job) (cut : JobCut) (f : Job) : Job :=
  if (cutAt { cut with deadline := none, drain := none } 0 0).isSome && (f.out = 9) then { j with out := (cutErr cut).getD 7 } else f
/-- What a job computes by its operation, with what it meets. -/
def jobRun (m : Tab Byte) (j : Job) (cut : JobCut) : Job :=
  let d := j.desc
  let j := { j with log := if hasLog d then some [] else none }
  if badDesc d then { j with out := 8 }
  else match dOp d with
    | 1 => j.atStart cut (jobMul m j false)
    | 2 => j.atStart cut (jobMul m j true)
    | 3 => j.atStart cut (jobDot m j)
    | 4 => j.atStart cut (jobMap m j true true fun x y a b => sumTo y.e [(dParam d * a, dPScale d + x.e), (b, y.e)])
    | 5 => j.atStart cut (jobMap m j false true fun _ y _ b => some (rescale (dParam d * b) (dPScale d + y.e) y.e))
    | 6 => j.atStart cut (jobMap m j true false fun x y a _ => some (rescale a x.e y.e))
    | 7 => j.atStart cut (jobProject m j)
    | 8 => j.atStart cut (jobRemap m j)
    | 9 => j.atStart cut (jobFprint m j)
    | 0x10 => j.solving cut (jobFactor m j cut false)
    | 0x11 => j.solving cut (jobFactor m j cut true)
    | 0x30 => j.solving cut (jobNewton m j cut)
    | _ => j.solving cut (jobSolve m j cut)
/-- A job as it will end: elements of an elementary operation that an error or RANGE ended may be old or new (R224). -/
def State.jobPlan (s : State) (j : Job) (cut : JobCut) : Job × State :=
  let r := jobRun s.yard j cut
  if decide (dOp j.desc ≤ 9) && (r.out == 4 || errOut r.out) then let k := s.someOf r.data; ({ r with data := k.1 }, k.2) else (r, s)
/-- The NSU takes the next descriptor of the ring and runs it; `op` is the operation of the command's row, and a
descriptor with an unknown operation is taken by any of them. An uncorrectable descriptor takes the NSU to FAULT (R173);
which of its words it was is free. -/
def State.takeJob (s : State) (op : Nat) (cut : JobCut) : State :=
  let i := s.regN R.JQ_JQ_HEAD
  if !s.running nsuPage ∨ s.reg R.JQ_JQ_HEAD = s.reg R.JQ_JQ_TAIL then s
  else
    let d := s.descAt i
    let cs := s.clusterSet d
    if (dOp d ≠ op ∧ opKnown (dOp d)) ∨ (cs.1 &&& s.fld R.NSU_ACTIVE 3 0) ≠ 0 ∨ (dFlag d 1 ∧ s.nsu.jobs ≠ []) ∨ !s.lanesTested then s
    else if cut.descUe then
      let k := i % max 1 (s.regN R.JQ_JQ_SIZE)
      let f := s.fresh
      (f.2.nsuUe (s.regN R.JQ_JQ_BASE + 64 * k + 8 * (f.1.toNat % 8))).nsuFail 0x101 k
    else
      let s := s.incReg R.JQ_JQ_HEAD
      let deg := cs.2 || (List.range 4).any fun c => cs.1.testBit c && s.flag (R.NSUC_STAT c) 6
      let mine : Nat × JobErr → Bool := fun e => match e.2 with | .hw c => cs.1.testBit c.val | .ecc _ => true
      let cut := { cut with deadline := if dlPassed d s.time.nsu then some 0 else cut.deadline, err := cut.err.filter mine }
      let s := cut.fixed.foldl (fun s a => s.yardCe a.toNat) s
      let j : Job := { idx := i, desc := d, cl := cs.1, start := s.time.nsu, flags := if deg then 16 else 0 }
      let r := s.jobPlan j { cut with drain := none }
      (r.2.setNsu fun n => { n with jobs := n.jobs ++ [{ r.1 with cut := cut }] }).showBusy
/-- A drain begins: each job that runs sees it at the point its command gave (R99, R224). -/
def State.jobsDrain (s : State) : State :=
  s.nsu.jobs.foldl (fun s j =>
    if dOp j.desc ≤ 9 ∨ j.cut.drain = none then s
    else
      let r := s.jobPlan { idx := j.idx, desc := j.desc, cl := j.cl, start := j.start, flags := j.flags &&& 16 } j.cut
      r.2.setNsu fun n => { n with jobs := n.jobs.map fun x => if x.idx = j.idx then { r.1 with cut := j.cut } else x }) s
/-- The NSU enters RUN: the bank bits count from here (R238), and at the first entry after PD_NSU came ON every good lane is to be
tested (R229). -/
def State.nsuStart (s : State) : State :=
  let s := s.setRegs [(R.YRD_YRD_CE_BANKS_LO, 0), (R.YRD_YRD_CE_BANKS_HI, 0)]
  s.setNsu fun n => if n.swept then n else { n with swept := true, tested := [] }
def execSpmv (cut : JobCut) (s : State) : Host.Outcome State Fault Refusal := .next (s.takeJob 0x01 cut)
def execSpmvt (cut : JobCut) (s : State) : Host.Outcome State Fault Refusal := .next (s.takeJob 0x02 cut)
def execDot (cut : JobCut) (s : State) : Host.Outcome State Fault Refusal := .next (s.takeJob 0x03 cut)
def execAxpy (cut : JobCut) (s : State) : Host.Outcome State Fault Refusal := .next (s.takeJob 0x04 cut)
def execScale (cut : JobCut) (s : State) : Host.Outcome State Fault Refusal := .next (s.takeJob 0x05 cut)
def execCopy (cut : JobCut) (s : State) : Host.Outcome State Fault Refusal := .next (s.takeJob 0x06 cut)
def execProject (cut : JobCut) (s : State) : Host.Outcome State Fault Refusal := .next (s.takeJob 0x07 cut)
def execRemap (cut : JobCut) (s : State) : Host.Outcome State Fault Refusal := .next (s.takeJob 0x08 cut)
def execFprint (cut : JobCut) (s : State) : Host.Outcome State Fault Refusal := .next (s.takeJob 0x09 cut)
def execIc0 (cut : JobCut) (s : State) : Host.Outcome State Fault Refusal := .next (s.takeJob 0x10 cut)
def execIldl0 (cut : JobCut) (s : State) : Host.Outcome State Fault Refusal := .next (s.takeJob 0x11 cut)
def execPcg (cut : JobCut) (s : State) : Host.Outcome State Fault Refusal := .next (s.takeJob 0x20 cut)
def execMinres (cut : JobCut) (s : State) : Host.Outcome State Fault Refusal := .next (s.takeJob 0x21 cut)
def execBicgstab (cut : JobCut) (s : State) : Host.Outcome State Fault Refusal := .next (s.takeJob 0x22 cut)
def execPcgne (cut : JobCut) (s : State) : Host.Outcome State Fault Refusal := .next (s.takeJob 0x23 cut)
def execNewton (cut : JobCut) (s : State) : Host.Outcome State Fault Refusal := .next (s.takeJob 0x30 cut)

end Sys2Proof.Machine
end

