-- ==== Sys2Proof/Machine/Seq.lean ====
section
/-! DEFINITION. What the Sequencer reads and forms on its own core (R289 to R335): entries of a measurement set, branch inputs, rows and
weights, the objects in its work area, the dispatch program's matrices and bounds. How it splits lines into jobs and where it places the
objects no rule says: DESIGN CHOICE, log entry 86. -/

namespace Sys2Proof.Machine

/-! ### A measurement set (R289, R366) -/

/-- Publication time of a set, from nanoseconds and seconds [31:0]. -/
def setTime (m : Tab Byte) (i : Nat) : Nat := rdN m (setBase i + 0x10) 4 * 2 ^ 32 + rdN m (setBase i + 0x14) 4 * tS
/-- Entry of a measurement in set buffer i: quality, age field, value in units of 2^-32. -/
def setEntry (m : Tab Byte) (i : Nat) (r : MeasRec) : Option (Nat × Nat × Int) :=
  let key := 2 ^ 30 * r.kind + 2 ^ 16 * (r.index % 2 ^ 14) + r.ofs
  let at' (k : Nat) : Nat := setBase i + 0xC80 + 16 * k
  ((List.range (min (rdN m (setBase i + 0x20) 4) 16384)).find? fun k => rdN m (at' k) 4 == key).map fun k =>
    (rdN m (at' k + 4) 1 % 8, rdN m (at' k + 6) 2, rdI m (at' k + 8) 8)
/-- Value of a measurement in a set at time t; none where it is excluded: BAD or NO_VALUE, a value outside its range or a temperature
outside the model's (R123, R136), or STALE with an age at use, the age field plus t − T_PUB, beyond its limit (R21 to R23). -/
def measValue (m : Tab Byte) (mb : List Byte) (i t : Nat) (r : MeasRec) : Option Rat :=
  match setEntry m i r with
  | none => none
  | some (q, age, v) =>
    let x := dyad v (-32)
    let e := expOf (mdlScales mb) (Config.measArr r.id 1)
    let bad := decide (3 ≤ q) || decide (x < dyad r.lo e ∨ dyad r.hi e < x) || (r.qty == 2 && !tempOk x)
    let use := age * tMs + (t - setTime m i)
    if bad || (q == 1 && decide (r.age * tMs < use)) then none else some x
/-- Echo entry of a setpoint entry: its value, the next one and its state (R366). -/
def echoAt (m : Tab Byte) (i sp : Nat) : Rat × Rat × Nat :=
  let a := setBase i + 0x80 + 12 * sp
  (f32V (wd (rdN m a 4)), f32V (wd (rdN m (a + 4) 4)), rdN m (a + 8) 4 % 4)
/-- Fixed value of an asset input (R333). -/
def fixedIn (mb : List Byte) (a : AssetIn) : Rat := dyad a.fixed (inputScale mb a.sp)
/-- Value of an asset input by the plan echo, the fixed one while its entry is NONE or EXPIRED (R293). -/
def echoIn (m : Tab Byte) (mb : List Byte) (i : Nat) (a : AssetIn) : Rat :=
  let e := echoAt m i a.sp
  if e.2.2 = 0 ∨ e.2.2 = 3 then fixedIn mb a else e.1
/-- Input `pos` of an asset under a valuation; one that is not declared takes the value the image fixes in its slot (R147). -/
def assetVal (mb : List Byte) (val : AssetIn → Rat) (asset pos : Nat) : Rat :=
  match assetInput mb asset pos with
  | some a => val a
  | none => dyad (fieldI ((mdlAssets mb).getD asset []) (0x18 + 16 * pos)) 0

/-! ### Branch inputs (R112, R115 to R117, R293) -/

/-- Value of the first measurement with a property; `mv` gives a measurement's value, none where it is excluded. -/
def sourceVal (mb : List Byte) (mv : MeasRec → Option Rat) (p : MeasRec → Bool) : Option Rat := ((mdlMeas mb).find? p).bind mv
/-- A measurement's target is the branch, as the variable of a class (R140). -/
def targets (cls : Nat) (r : MeasRec) (b : BranchRec) : Bool := r.target / 2 ^ 28 == cls && r.target % 2 ^ 28 == b.id % 2 ^ 28
/-- Opening of a valve: the axis position or stall input of the set, or the asset input AUX names (R154). -/
def openingOf (mb : List Byte) (mv : MeasRec → Option Rat) (val : AssetIn → Rat) (b : BranchRec) : Rat :=
  let k := b.aux % 2 ^ 30
  let src (kind : Nat) : Rat := (sourceVal mb mv fun r => r.qty == 4 && r.kind == kind && r.index == k).getD 0
  if b.ty = 3 then (sourceVal mb mv fun r => r.qty == 4 && r.kind == 0 && r.index == b.aux).getD 0
  else match b.aux / 2 ^ 30 with
    | 0 => src 3
    | 1 => src 0
    | _ => match (assetInputs mb)[k]? with | some a => val a | none => 0
/-- Flow of a fixed-flow branch: a HEX's q_set, a measured flow of a store or plant, or else its asset's input (R293). -/
def fixedFlow (mb : List Byte) (mv : MeasRec → Option Rat) (val : AssetIn → Rat) (measured : Bool) (b : BranchRec) : Rat :=
  let meas : Option Rat := sourceVal mb mv fun r => r.qty == 1 && targets 2 r b
  if b.ty = 3 then (sourceVal mb mv fun r => r.qty == 1 && r.kind == 0 && r.index == b.aux).getD 0
  else match (if measured then meas else none) with
    | some q => q
    | none => assetVal mb val b.asset 0
/-- τ, s, q_fix and β of a branch (R293). `val` values the asset inputs, `measured` admits flow measurements. -/
def branchIn (mb : List Byte) (mv : MeasRec → Option Rat) (val : AssetIn → Rat) (measured : Bool) (b : BranchRec) : Rat × Rat × Rat × Rat :=
  let valve := b.ty == 2 || (b.ty == 3 && !b.flow)
  let pump := b.ty == 1 || (b.ty == 5 && !b.flow)
  let fixed := b.ty == 4 || ((b.ty == 3 || b.ty == 5) && b.flow)
  (if valve then charAt mb b.char (openingOf mb mv val b) else 0, if pump then assetVal mb val b.asset 0 else 0,
    if fixed then fixedFlow mb mv val measured b else 0, if b.ty == 6 then assetVal mb val b.asset 0 else 0)

/-! ### Rows of the measurement model (R291, R292) -/

/-- A branch with a conductance law. -/
def conducts (b : BranchRec) : Bool := b.ty ≤ 2 || ((b.ty == 3 || b.ty == 5) && !b.flow)
/-- Nodes that are not REF, in node order. -/
def freeNodes (mb : List Byte) : List Nat :=
  let ns := mdlNodes mb
  ((ns.zip (List.range ns.length)).filter fun (e : NodeRec × Nat) => e.1.kind != 1).map (·.2)
/-- Row of a node among them. -/
def rowOfNode (fr : List Nat) (n : Nat) : Option Nat := fr.findIdx? (· == n)
/-- Pressure rows with the node index, flow rows with the branch index, in the order of MEAS. -/
def pressRows (mb : List Byte) : List (MeasRec × Nat) :=
  (mdlMeas mb).filterMap fun r => if r.qty = 0 then ((mdlNodes mb).findIdx? fun n => n.id == r.target).map fun k => (r, k) else none
def flowRows (mb : List Byte) : List (MeasRec × Nat) :=
  let bs := mdlBranches mb
  (mdlMeas mb).filterMap fun r => if r.qty = 1 then (bs.findIdx? fun b => conducts b && targets 2 r b).map fun k => (r, k) else none
/-- Sort a row by column, entries of one column added. -/
def tidyRow (l : List (Nat × Rat)) : List (Nat × Rat) :=
  (l.mergeSort fun a b => decide (a.1 ≤ b.1)).foldr (fun (c : Nat × Rat) (acc : List (Nat × Rat)) => match acc with
    | d :: t => if c.1 = d.1 then (c.1, c.2 + d.2) :: t else c :: acc
    | [] => [c]) []
/-- Columns of the full row of J for the r-th free node, rising (R119). -/
def jacCols (mb : List Byte) (fr : List Nat) (r : Nat) : List Nat :=
  let u := fr.getD r 0
  let nb := (mdlBranches mb).filterMap fun b =>
    if !conducts b then none else if b.fromN = u then rowOfNode fr b.toN else if b.toN = u then rowOfNode fr b.fromN else none
  (tidyRow ((r :: nb).map fun c => (c, 0))).map (·.1)
/-- Pattern of H (R291): one column for a pressure row, the ends of the branch for a flow row, the full row of J for a virtual row. -/
def hPattern (mb : List Byte) : List (List Nat) :=
  let fr := freeNodes mb
  let bs := mdlBranches mb
  let ends (k : Nat) : List Nat := let b := bs.getD k (parseBranch []); (tidyRow (([b.fromN, b.toN].filterMap (rowOfNode fr)).map fun c => (c, 0))).map (·.1)
  (pressRows mb).map (fun e => (rowOfNode fr e.2).toList) ++ (flowRows mb).map (fun e => ends e.2) ++ (List.range fr.length).map (jacCols mb fr)
/-- Measured values by row (R291): a pressure is compared with head less ELEV (R143), so z carries ELEV, and the head of a REF node is
known; virtual rows measure zero. -/
def rowZ (mb : List Byte) (val : MeasRec → Option Rat) : List Rat :=
  let ns := mdlNodes mb
  let sc := mdlScales mb
  (pressRows mb).map (fun e =>
      let n := ns.getD e.2 (parseNode [])
      (val e.1).getD 0 - pressureModel (if n.kind = 1 then dyad n.href (expOf sc 2) else 0) (dyad n.elev (expOf sc 1))) ++
    (flowRows mb).map (fun e => (val e.1).getD 0) ++ (freeNodes mb).map fun _ => 0
/-- Weights by row (R292): WEIGHT, or zero where the measurement is excluded or held out; 2^VIRT_SHIFT times the largest real weight for
the virtual rows; zero for every row that touches an isolated node. -/
def rowW (mb : List Byte) (val : MeasRec → Option Rat) (held : List Nat) (iso : List Nat) (shift : Nat) : List Rat :=
  let sc := mdlScales mb
  let bs := mdlBranches mb
  let wOf (r : MeasRec) : Rat := if (val r).isNone || held.contains r.id then 0 else dyad r.weight (expOf sc (Config.measArr r.id 0))
  let real : List Rat := (pressRows mb).map (fun e => if iso.contains e.2 then 0 else wOf e.1) ++
    (flowRows mb).map fun e => let b := bs.getD e.2 (parseBranch []); if iso.contains b.fromN || iso.contains b.toN then 0 else wOf e.1
  let big := real.foldl max 0
  real ++ (freeNodes mb).map fun n => if iso.contains n then 0 else ((2 ^ shift : Nat) : Rat) * big

/-! ### Objects in the work area -/

/-- Addresses of the row pointers, columns and values of a matrix that lies at an address. -/
def matParts (a rows nnz : Nat) : Nat × Nat × Nat :=
  let p := a + 64
  let c := p + up64 (4 * (rows + 1))
  (p, c, c + up64 (4 * nnz))
/-- Running sums of row lengths. -/
def rowPtrs : Nat → List Nat → List Nat
  | n, [] => [n]
  | n, l :: t => n :: rowPtrs (n + l) t
/-- Store a matrix (R184): SCSR where `sym`. -/
def putMat (m : Tab Byte) (a : Nat) (sp : ArrSpec) (sym : Bool) (cols blocks ids : Nat) (rows : List (List (Nat × Int))) : Tab Byte :=
  let nnz := (rows.map List.length).sum
  let p := matParts a rows.length nnz
  let h := [if sym then 2 else 3, 0] ++ leBytes 2 sp.arr ++ leBytes 1 (unsext 8 sp.e) ++ [0] ++ leBytes 2 blocks ++ leBytes 4 rows.length ++ leBytes 4 cols ++
    leBytes 4 nnz ++ leBytes 4 p.1 ++ leBytes 4 p.2.1 ++ leBytes 4 p.2.2 ++ leBytes 4 ids ++ leBytes 4 0 ++ leBytes 8 0 ++ leBytes 8 sp.bound ++ leBytes 8 0
  let m := wrBytes (wrBytes m a h) p.1 ((rowPtrs 0 (rows.map List.length)).flatMap (leBytes 4))
  wrBytes (wrBytes m p.2.1 (rows.flatten.flatMap fun c => leBytes 4 c.1)) p.2.2 (intBytes (rows.flatten.map (·.2)))
/-- Store a factor header over a matrix at an address (R188), its buffers behind it; neither is VALID. -/
def putFac (m : Tab Byte) (a mat : Nat) (l d i : ArrSpec) (n nnz : Nat) : Tab Byte :=
  let p := matParts mat n nnz
  let b0 := a + 64
  let b1 := b0 + 64 + up64 (8 * nnz) + 2 * up64 (8 * n)
  wrBytes m a ([5, 0, 0, 0] ++ leBytes 1 (unsext 8 l.e) ++ leBytes 1 (unsext 8 d.e) ++ leBytes 1 (unsext 8 i.e) ++ [0] ++ leBytes 4 n ++ leBytes 4 nnz ++
    leBytes 4 p.1 ++ leBytes 4 p.2.1 ++ leBytes 4 b0 ++ leBytes 4 b1 ++ leBytes 8 0 ++ leBytes 8 l.bound ++ leBytes 8 d.bound ++ leBytes 8 i.bound)
/-- Sizes in bytes of a vector, a matrix and a factor with their arrays. -/
def vecSize (n : Nat) : Nat := 64 + up64 (8 * n)
def matSize (rows nnz : Nat) : Nat := 64 + up64 (4 * (rows + 1)) + up64 (4 * nnz) + up64 (8 * nnz)
def facSize (n nnz : Nat) : Nat := 64 + 2 * (64 + up64 (8 * nnz) + 2 * up64 (8 * n))
/-- Objects of the Sequencer. A pair is an operand set 0 or 1. -/
inductive SeqObj
  | heads | xEst | inputs | jac | jacFac | nWork | bq | bd | hv | hp | hq | h0 | h1 | r0 | r1 | w0 | w1 | dx0 | dx1 | dprev | neWork
  | unit | yBd | hyBd | flows0 | flows1 | pubE | entE | resE | srcV | srcVt | srcIds
  | fcReq | fcTable | fcDelay | fcFlow | fcScratch | hHeads | hInputs | hJac | hFac | hWork | resH | resD | pubD | entD
  | ah | kp | ka | k | kFac | kVal | kpVal | kaVal | ids | q | tq | price | target | src | x0 | pw | bMat | tRow | cLo | cHi | lo | hi
  | v0 | v1 | z0 | z1 | y0 | y1 | vt0 | vt1 | rhs0 | rhs1 | cv | cz | cy | zt | zr | tm | tn | tn2 | kWork | vp | pLo | pHi
deriving DecidableEq, Repr
/-- All rows of H; entries of a dispatch vector. -/
def SeqDim.rows (d : SeqDim) : Nat := d.np + d.nq + d.nf
def SeqDim.nv (d : SeqDim) : Nat := (d.nx + d.nu) * d.nst
/-- Bytes of the vectors of a flow set. -/
def SeqDim.flow (d : SeqDim) : Nat := vecSize d.nb + 2 * vecSize d.nHex + vecSize d.nPlant
/-- Bytes of the work area of the solve and of the mapper (R216, R220). -/
def SeqDim.work (d : SeqDim) : Nat := 5 * up64 (8 * d.nv) + 256 + 16 * 2 ^ Nat.clog 2 (2 * max d.nv d.old)
/-- Objects of the estimator with their sizes, from the start of the work area up, and the sources of a REMAP behind them. -/
def SeqDim.low (d : SeqDim) : List (SeqObj × Nat) :=
  let v := vecSize
  [(.heads, v d.nn), (.xEst, v d.nf), (.inputs, 4 * 64 + 4 * up64 (8 * d.nb)), (.jac, matSize d.nf d.nj), (.jacFac, facSize d.nf d.nj),
    (.nWork, (newtonParts 0 d.nb d.nn d.nf).2), (.bq, 64), (.bd, 64), (.hv, v d.nh), (.hp, v d.np), (.hq, v d.nq), (.h0, matSize d.rows d.nh),
    (.h1, matSize d.rows d.nh), (.r0, v d.rows), (.r1, v d.rows), (.w0, v d.rows), (.w1, v d.rows), (.dx0, v d.nf), (.dx1, v d.nf), (.dprev, v d.nf),
    (.neWork, 5 * up64 (8 * d.nf) + 2 * up64 (8 * d.rows) + 256), (.unit, v d.rows), (.yBd, v d.nf), (.hyBd, v d.rows), (.flows0, d.flow), (.flows1, d.flow),
    (.pubE, v d.nPubE), (.entE, up64 (2 * d.nPubE)), (.resE, 384), (.srcV, v d.old), (.srcVt, v d.old), (.srcIds, up64 (4 * d.old))]
/-- Objects of the dispatch and hydraulic passes, from the end of the work area down. -/
def SeqDim.high (d : SeqDim) : List (SeqObj × Nat) :=
  let v := vecSize
  [(.fcReq, 64 + up64 (4 * d.nst)), (.fcTable, v (d.nst * d.nPts)), (.fcDelay, up64 (8 * d.nPath)), (.fcFlow, 64 + d.flow), (.fcScratch, up64 d.stLen),
    (.hHeads, v d.nn), (.hInputs, 4 * 64 + 4 * up64 (8 * d.nb)), (.hJac, matSize d.nf d.nj), (.hFac, facSize d.nf d.nj),
    (.hWork, (newtonParts 0 d.nb d.nn d.nf).2), (.resH, 384), (.resD, 384), (.pubD, v d.nPubD), (.entD, up64 (2 * d.nu))] ++
  [(.ah, matSize d.nr d.na), (.kp, matSize d.nv d.nk), (.ka, matSize d.nv d.nk), (.k, matSize d.nv d.nk), (.kFac, facSize d.nv d.nk), (.kVal, 64), (.kpVal, 64),
    (.kaVal, 64), (.ids, up64 (4 * (d.nx + d.nu))), (.q, v d.nv), (.tq, v d.nv), (.price, v (d.nPrice * d.nst)), (.target, v (d.nTgt * d.nst)), (.src, v d.nObs),
    (.x0, 64), (.pw, v (d.nx + d.nw * d.nst)), (.bMat, matSize d.nr (d.nx + d.nw * d.nx * d.nst)), (.tRow, v d.nr), (.cLo, v d.nr), (.cHi, v d.nr),
    (.lo, v d.nr), (.hi, v d.nr)] ++
  ([.v0, .v1, .y0, .y1, .z0, .z1, .cz, .cy, .zt, .zr, .tm].map fun o => (o, v (max d.nv d.nr))) ++
  ([.vt0, .vt1, .rhs0, .rhs1, .cv, .tn, .tn2, .vp, .pLo, .pHi].map fun o => (o, v d.nv)) ++
  [(.kWork, d.work)]
/-- Address of an object above a base: the sizes before it and free gaps (log entry 86). -/
def placeUp : Nat → Nat → List (SeqObj × Nat) → SeqObj → Nat
  | a, _, [], _ => a
  | a, n, (o, z) :: t, x => let a := a + 64 * Config.seqGap n; if o = x then a else placeUp (a + z) (n + 1) t x
/-- Address of an object below an end. -/
def placeDown : Nat → Nat → List (SeqObj × Nat) → SeqObj → Nat
  | a, _, [], _ => a
  | a, n, (o, z) :: t, x => let a := a - z - 64 * Config.seqGap n; if o = x then a else placeDown a (n + 1) t x
/-- Bytes that objects take with their gaps; `n` numbers the gap before the first. -/
def placeSize (n : Nat) (l : List (SeqObj × Nat)) : Nat :=
  (l.map (·.2)).sum + ((List.range l.length).map fun k => 64 * Config.seqGap (n + k)).sum
/-- Number of the first gap of the upper region. -/
abbrev highGap : Nat := 64
/-- Address of an object. -/
def State.seqAt (s : State) (d : SeqDim) (o : SeqObj) : Nat :=
  if (d.low.map (·.1)).contains o then placeUp (s.regN R.DSQ_WORK_BASE) 0 d.low o
  else placeDown ((s.regN R.DSQ_WORK_BASE + s.regN R.DSQ_WORK_LEN) / 64 * 64) highGap d.high o
/-- The objects do not fit the work area (R313). -/
def State.seqFull (s : State) (d : SeqDim) : Bool := decide (s.regN R.DSQ_WORK_LEN < placeSize 0 d.low + placeSize highGap d.high + 63)

/-! ### The PASS and COST sections in a slot (R334, R335) -/

/-- Field of n bytes of the PASS section. -/
def passN (mb : List Byte) (o n : Nat) : Nat := fieldN (mdlSect mb 0xC) o n
def passI (mb : List Byte) (o : Nat) : Int := sext 8 (passN mb o 1)
/-- Address of the k-th object of a section of the image in a slot. -/
def sectObj (mb : List Byte) (slot t n k : Nat) : Nat :=
  let ofs : Nat := match sect (mdlDir mb) t with | some e => e.2.2.1 | none => 0
  slotBase slot + ofs + (objOfs (mdlSect mb t) n 64).getD k 0
/-- S_H, G_P, G_Q, Φ, φ₀ of PASS and P, q₀, Q_π, Q_t of COST. -/
def passObj (mb : List Byte) (slot k : Nat) : Nat := sectObj mb slot 0xC 5 k
def costObj (mb : List Byte) (slot k : Nat) : Nat := sectObj mb slot 0xA 4 k
/-- The published-estimate list: variable ID and setpoint entry; and the observer sources. -/
def pubList (mb : List Byte) : List (Nat × Nat) :=
  let l := mdlSect mb 0xC
  (chunks (fieldN l 0x12 2) 8 (l.drop ((objOfs l 6 64).getLastD 64))).map fun r => (fieldN r 0 4, fieldN r 4 2)
def obsList (mb : List Byte) : List Nat :=
  let l := mdlSect mb 0xC
  (chunks (fieldN l 0x24 4) 4 (l.drop ((objOfs l 6 64).getLastD 64 + 8 * fieldN l 0x12 2))).map leNat
/-- IDs of a solver vector by its number in the IDS section (R141); which number it has is free (log entry 86). -/
def idsOf (mb : List Byte) (v : Nat) : List Nat :=
  let l := mdlSect mb 5
  match (idLists (l.length / 8 + 1) l).find? fun e => e.1 == Config.seqVector v with | some e => e.2 | none => []

/-! ### The dispatch program (R306 to R309, R319) -/

/-- What a program is built from: the image, the pass's delays as whole steps and rest, the step before step 0 and the inputs applied then
and before, by steps back from 1, the bias of the outputs. -/
structure PlanIn where
  mb    : List Byte
  del   : List (Nat × Rat)
  past  : List (List Rat)
  prev  : List (Option Rat)
  bias  : List Rat
deriving DecidableEq, Repr
def PlanIn.nx (p : PlanIn) : Nat := fieldN p.mb 0x28 2
def PlanIn.nu (p : PlanIn) : Nat := fieldN p.mb 0x2A 2
def PlanIn.n (p : PlanIn) : Nat := fieldN p.mb 0x2C 2
/-- Input i as applied k steps before step 0; the oldest value held where the history is shorter (R290). -/
def PlanIn.back (p : PlanIn) (k i : Nat) : Rat := (p.past.getD (min k p.past.length - 1) []).getD i 0
/-- Position of x_i(k) and u_i(k) in v. -/
def PlanIn.xAt (p : PlanIn) (k i : Nat) : Nat := k * (p.nx + p.nu) + i
def PlanIn.uAt (p : PlanIn) (k i : Nat) : Nat := k * (p.nx + p.nu) + p.nx + i
/-- Entries of row i of a dispatch matrix as values. -/
def matRow (sc : List ScaleRec) (m : DspMat) (i : Nat) : List (Nat × Rat) :=
  (m.ents.filter fun t => t.1 == i).map fun t => (t.2.1, dyad t.2.2 (expOf sc m.arr))
/-- b_j at state i. -/
def delayCoef (sc : List ScaleRec) (c : DelayCh) (i : Nat) : Rat := ((c.col.filter fun t => t.1 == i).map fun t => dyad t.2 (expOf sc c.arr)).sum
/-- The declared asset input of dispatch index i, and its limits. -/
def inputAt (mb : List Byte) (i : Nat) : Option AssetIn := (assetInputs mb).find? fun a => a.dsp == i
def limitAt (mb : List Byte) (i : Nat) : LimRec :=
  match (inputAt mb i).bind fun a => (limRecs (mdlSect mb 8)).find? fun r => r.sp == a.sp with | some r => r | none => parseLim []
/-- Bound of the array of input i as a value. -/
def inputBound (mb : List Byte) (i : Nat) : Rat := let r := limitAt mb i; dyad (arrOf (mdlScales mb) r.arr).bound r.e
/-- Row of the dynamics for x_i(k + 1), with the terms of inputs before step 0 apart (R145, R307). -/
def PlanIn.dynRow (p : PlanIn) (k i : Nat) : List (Nat × Rat) × Rat :=
  let sc := mdlScales p.mb
  let d := mdlDispatch p.mb
  let neg (l : List (Nat × Rat)) (at' : Nat → Nat) : List (Nat × Rat) := l.map fun e => (at' e.1, -e.2)
  let ch := (d.delays.zip p.del).map fun (e : DelayCh × (Nat × Rat)) =>
    let b := delayCoef sc e.1 i
    let u := e.1.input
    let part (m : Nat) (w : Rat) : List (Nat × Rat) × Rat := if m ≤ k then ([(p.uAt (k - m) u, -(b * w))], 0) else ([], b * w * p.back (m - k) u)
    let a1 := part e.2.1 (1 - e.2.2)
    let a2 := part (e.2.1 + 1) e.2.2
    if b = 0 then ([], 0) else (a1.1 ++ a2.1, a1.2 + a2.2)
  (tidyRow ((p.xAt (k + 1) i, 1) :: neg (matRow sc d.a i) (p.xAt k) ++ neg (matRow sc d.b i) (p.uAt k) ++ ch.flatMap (·.1)), (ch.map (·.2)).sum)
/-- The rows of A_h with the constant parts of their bounds, in the order of R307. -/
def PlanIn.program (p : PlanIn) : List (List (Nat × Rat) × Rat × Rat) :=
  let sc := mdlScales p.mb
  let d := mdlDispatch p.mb
  let ks := List.range p.n
  let lim (i : Nat) : LimRec := limitAt p.mb i
  let f (i : Nat) : Rat := dyad (d.f.getD i 0) (expOf sc d.fArr)
  (List.range p.nx).map (fun i => ([(p.xAt 0 i, 1)], 0, 0)) ++
    (List.range (p.n - 1)).flatMap (fun k => (List.range p.nx).map fun i => let r := p.dynRow k i; (r.1, f i + r.2, f i + r.2)) ++
    ks.flatMap (fun k => d.outLim.map fun o =>
      let e := expOf sc o.2.arr
      (tidyRow ((matRow sc d.c o.1).map (fun t => (p.xAt k t.1, t.2)) ++ (matRow sc d.d o.1).map fun t => (p.uAt k t.1, t.2)),
        dyad o.2.lo e - p.bias.getD o.1 0, dyad o.2.hi e - p.bias.getD o.1 0)) ++
    ks.flatMap (fun k => (List.range p.nu).map fun i => let r := lim i; ([(p.uAt k i, 1)], dyad r.lo r.e, dyad r.hi r.e)) ++
    ks.flatMap fun k => (List.range p.nu).map fun i =>
      let r := lim i
      let fall := dyad r.fall r.e
      let rise := dyad r.rise r.e
      if k = 0 then match p.prev.getD i none with
        | some u => ([(p.uAt 0 i, 1)], u - fall, u + rise)
        | none => ([(p.uAt 0 i, 1)], -inputBound p.mb i, inputBound p.mb i)
      else (tidyRow [(p.uAt k i, 1), (p.uAt (k - 1) i, -1)], -fall, rise)
/-- The matrix that carries x̂₀ and w into the bounds (R307): the identity on the initial state, E on the dynamics. -/
def PlanIn.boundRows (p : PlanIn) : List (List (Nat × Rat)) :=
  let sc := mdlScales p.mb
  let d := mdlDispatch p.mb
  (List.range p.nx).map (fun i => [(i, 1)]) ++
    (List.range (p.n - 1)).flatMap (fun k => (List.range p.nx).map fun i => tidyRow ((matRow sc d.e i).map fun t => (p.nx + k * d.e.cols + t.1, t.2))) ++
    List.replicate (p.program.length - p.nx - (p.n - 1) * p.nx) []
/-- Rows of the lower triangle of the union of A_hᵀ·A_h, P and the diagonal: the columns of row i. -/
def unionRow (rows : List (List (Nat × Int))) (pm : Mat) (i : Nat) : List Nat :=
  let a := (rows.filter fun r => r.any fun c => c.1 == i).flatMap fun r => (r.map (·.1)).filter fun c => decide (c ≤ i)
  let b := pm.ents.filterMap fun (t : Nat × Nat × Int) => if t.1 = i ∧ t.2.1 ≤ i then some t.2.1 else none
  (tidyRow ((i :: a ++ b).map fun c => (c, 0))).map (·.1)
/-- Entry (i, j) of A_hᵀ·A_h, exact, at twice A_h's scale. -/
def gramAt (rows : List (List (Nat × Int))) (i j : Nat) : Int :=
  (rows.map fun r => ((rowAt r i).getD 0) * ((rowAt r j).getD 0)).sum

end Sys2Proof.Machine
end

