-- ==== Sys2Proof/Machine/Run.lean ====
section
/-! DEFINITION. How the Sequencer runs the lines of a pass on the NSU (R286, R318, R321 to R323), the hydraulic solve (R304), and what
several passes read. That each line is submitted as soon as the one before it ended, job after job, is a DESIGN CHOICE, log entry 86. -/

namespace Sys2Proof.Machine

/-! ### Passes and their lines -/

/-- The pass of kind k: 0 EST, 1 DSP, 2 HYD. -/
def State.passOf (s : State) (k : Nat) : Option Pass := if k = 0 then s.dsq.est else if k = 1 then s.dsq.dsp else s.dsq.hyd
def State.setPass (s : State) (k : Nat) (p : Pass) : State :=
  s.setDsq fun d => if k = 0 then { d with est := some p } else if k = 1 then { d with dsp := some p } else { d with hyd := some p }
/-- A pass ends with a status; a HYD pass that does leaves the bias old (R305). -/
def State.passEnd (s : State) (k : Nat) (p : Pass) (status : Nat) : State :=
  let s := s.setPass k p
  if k = 0 then s.estEnd status
  else if k = 1 then s.dspEnd status (wd (unsext 32 p.rexp))
  else (s.setDsq fun d => { d with biasOld := true }).hydEnd
/-- The image of the model that a pass began with (R158), and its digest as a number. -/
def State.passMb (s : State) (p : Pass) : List Byte := s.slotBytes p.slot
def mdlKey (mb : List Byte) : Nat := leNat (mdlDigest mb)
/-- Cut: the pass deadline less FIN_RESERVE_MS (R321). -/
def State.passCut (s : State) (p : Pass) : Nat := p.due - passN (s.passMb p) 0x22 2 * tMs
/-- Array of the n-th of the Sequencer's own vectors and matrices (log entry 86). -/
def ownSpec (mb : List Byte) (n : Nat) : ArrSpec := arrOf (mdlScales mb) (Config.seqArray (fieldN mb 8 4) n)

/-- A job of a line: operation, flags, operands OPA to OPE, work area, iteration limit, tolerance and parameter (R196). -/
structure JobArg where
  op    : Nat
  flags : Nat := 0
  a     : Nat := 0
  b     : Nat := 0
  c     : Nat := 0
  d     : Nat := 0
  e     : Nat := 0
  work  : Nat × Nat := (0, 0)
  iter  : Nat := 1
  tol   : Nat := 1
  par   : Int × Int := (0, 0)
deriving DecidableEq, Repr
/-- Elementary jobs. -/
def spmvJob (a x y : Nat) : JobArg := { op := 1, a := a, b := x, c := y }
def spmvtJob (a x y : Nat) : JobArg := { op := 2, a := a, b := x, c := y }
def dotJob (x y : Nat) : JobArg := { op := 3, b := x, c := y }
def axpyJob (m e : Int) (x y : Nat) : JobArg := { op := 4, b := x, c := y, par := (m, e) }
def scaleJob (m e : Int) (x : Nat) : JobArg := { op := 5, c := x, par := (m, e) }
def copyJob (x y : Nat) : JobArg := { op := 6, b := x, c := y }
def projectJob (lo x hi : Nat) : JobArg := { op := 7, b := lo, c := x, e := hi }
/-- The descriptor of a job (R196); CHAIN is never set (R286). -/
def descOf (group tag dl res : Nat) (x : JobArg) : List Word :=
  let p := unsext 64 x.par.1
  [wd (x.op + 256 * x.flags + 65536 * group), wd tag, nsField dl, lo32 (secOf dl), wd x.a, wd x.b, wd x.c, wd x.d, wd x.e, wd x.work.1, wd x.work.2, wd res,
    wd (x.iter + 65536 * x.tol), lo32 p, hi32 p, wd (unsext 8 x.par.2)]
/-- A pass comes to a line: its jobs wait to be submitted, each with the cluster group of its kind (R286). The job's tag is that of the
pass (DESIGN CHOICE, log entry 86). -/
def State.line (s : State) (k : Nat) (p : Pass) (ph : SeqPhase) (dl res : Nat) (jobs : List JobArg) : State :=
  let g := if k = 0 then s.fld R.DSQ_CL_GROUPS 3 0 else s.fld R.DSQ_CL_GROUPS 11 8
  let tag := s.regN (if k = 0 then R.DSQ_EST_TAG else R.DSQ_DSP_TAG)
  s.setPass k { p with phase := ph, dots := [], todo := jobs.map (descOf g tag dl res) }
/-- The ring holds job i, or the NSU runs it. -/
def State.outstanding (s : State) (i : Nat) : Bool :=
  (s.nsu.jobs.any fun j => j.idx == i) || decide ((wd i - s.reg R.JQ_JQ_HEAD).toNat < (s.reg R.JQ_JQ_TAIL - s.reg R.JQ_JQ_HEAD).toNat)
/-- Submit the next job of a pass when it waits for none and the ring has room; a DSP or HYD job only when every earlier one has ended
(R191, R286). -/
def State.submitJob (s : State) (k : Nat) : State :=
  match s.passOf k with
  | none => s
  | some p => match p.await, p.todo with
    | none, d :: t =>
      let i := s.regN R.JQ_JQ_TAIL
      let room := decide ((s.reg R.JQ_JQ_TAIL - s.reg R.JQ_JQ_HEAD).toNat < s.regN R.JQ_JQ_SIZE)
      let busy := k != 0 && (match s.dsq.last with | some x => s.outstanding x | none => false)
      if !room || busy then s
      else
        let a := s.regN R.JQ_JQ_BASE + 64 * (i % max 1 (s.regN R.JQ_JQ_SIZE))
        let s := { s with yard := wrBytes s.yard a (d.flatMap fun (w : Word) => leBytes 4 w.toNat) }
        let s := (s.incReg R.JQ_JQ_TAIL).setPass k { p with await := some i, todo := t }
        if k = 0 then s else s.setDsq fun d => { d with last := some i }
    | _, _ => s
/-- Each pass submits what it can. -/
def State.seqPump (s : State) : State := ((s.submitJob 0).submitJob 1).submitJob 2

/-! ### The end of a job -/

/-- Outcomes that end a pass at once (R318, R322): RANGE, a hardware or descriptor outcome, or a stop of the NSU; in a DSP pass a
BREAKDOWN too. -/
def hardEnd (out : Nat) (dsp : Bool) : Option Nat :=
  if out = 4 then some 4
  else if out = 6 ∨ out = 7 ∨ out = 8 ∨ out = 9 ∨ out = 11 then some 5
  else if out = 10 then some 12
  else if out = 5 ∧ dsp then some 5
  else none
/-- A job may hold a failed lane's error (R235, R323). -/
def State.laneDoubt (s : State) (p : Pass) (j : Job) : Bool :=
  s.reg R.NSU_LANE_FAILS != p.fails && j.cl.testBit (s.fld R.NSU_LF_LANE 1 0) &&
    decide (s.regN R.NSU_LF_WIN_NS * 2 ^ 32 + s.regN R.NSU_LF_WIN_S * tS < s.time.nsu)
/-- Flags, doubt and DOT results that a job leaves on its pass. -/
def State.marked (s : State) (p : Pass) (j : Job) : Pass :=
  { p with flags := p.flags ||| 2 * b2n (j.flags.testBit 0) ||| 4 * b2n (decide (j.iso ≠ 0)) |||
             (if dOp j.desc = 8 then 128 * b2n (j.flags.testBit 2) ||| 256 * b2n (j.flags.testBit 3) else 0),
           suspect := p.suspect || s.laneDoubt p j, await := none, dots := if dOp j.desc = 3 then p.dots ++ [j.res] else p.dots }
/-- Value of the i-th DOT result of a line. -/
def Pass.dot (p : Pass) (i : Nat) : Rat := Scal.val (p.dots.getD i (0, 0))

/-! ### What passes read -/

/-- The newest complete measurement set (R365). -/
def State.newestSet (s : State) : Option Nat :=
  let n (i : Nat) : Nat := rdN s.yard (setCtl i) 8
  let best := if n 0 < n 1 then (if n 1 < n 2 then 2 else 1) else (if n 0 < n 2 then 2 else 0)
  if n best = 0 then none else some best
/-- The Sequencer takes a set buffer by its HOLD bit. -/
def State.holdSet (s : State) (i : Nat) : State := { s with yard := wrN s.yard (setHold i) 4 (rdN s.yard (setHold i) 4 ||| 1) }
/-- Sizes of a model's objects; those of a dispatch program are filled in once its delays are known. -/
def State.dimOf (s : State) (mb : List Byte) : SeqDim :=
  let bs := mdlBranches mb
  let nf := (freeNodes mb).length
  let cnt (ty : Nat) : Nat := (bs.filter fun b => b.ty == ty).length
  let d := mdlDispatch mb
  let nx := fieldN mb 0x28 2
  let nu := fieldN mb 0x2A 2
  let n := fieldN mb 0x2C 2
  { nn := (mdlNodes mb).length, nb := bs.length, nf := nf, np := (pressRows mb).length, nq := (flowRows mb).length, nh := ((hPattern mb).map List.length).sum,
    nj := ((List.range nf).map fun r => ((jacCols mb (freeNodes mb) r).filter fun c => decide (c ≤ r)).length).sum, nHex := cnt 3, nPlant := cnt 5,
    nPubE := (pubList mb).length, nx := nx, nu := nu, nst := n, nr := n * (nx + d.outLim.length + 2 * nu), nw := d.e.cols,
    nPrice := fieldN (mdlSect mb 0xA) 0 2, nTgt := fieldN (mdlSect mb 0xA) 2 2, nObs := (obsList mb).length, nPubD := nu * passN mb 0x20 1,
    nPts := (mdlPaths mb).2.length, nPath := (mdlPaths mb).1.length, stLen := (stateLenOf mb).toNat,
    old := match s.dsq.kept with | some k => k.v.length | none => 0 }
/-- Temperature in °C that the BTK's committed state gives a node, and m_hot and E of a store (R271, R308). -/
def State.nodeTemp (s : State) (id : Nat) : Rat :=
  match s.btk.com.bind fun c => c.nodes.find? fun e => e.1 == id with | some e => (e.2.t : Rat) / 65536 | none => Config.hydOther id
def State.storeState (s : State) (bid : Nat) : Rat × Rat :=
  match s.btk.com.bind fun c => c.stores.find? fun e => e.1 == bid with | some e => e.2 | none => (Config.hydOther bid, Config.hydOther bid)
/-- Values of variables by their stable IDs (R139, R308): a head; a flow; the temperature of the node into which a branch flows; m_hot at
the first and E at the second place of a store's ID. A variable of another class has no value here and takes a free one (log entry 86). -/
def State.varVals (s : State) (mb : List Byte) (heads flows : List Rat) : List Nat → List Nat → List Rat
  | _, [] => []
  | before, id :: t =>
    let bs := mdlBranches mb
    let ns := mdlNodes mb
    let br := bs.findIdx? fun b => b.id % 2 ^ 28 == id % 2 ^ 28
    let v : Option Rat := match id / 2 ^ 28 with
      | 1 => (ns.findIdx? fun n => n.id == id).map fun k => heads.getD k 0
      | 2 => br.map fun k => flows.getD k 0
      | 3 => br.map fun k => let b := bs.getD k (parseBranch []); s.nodeTemp (ns.getD (if flows.getD k 0 < 0 then b.fromN else b.toN) (parseNode [])).id
      | 4 => br.map fun k => let x := s.storeState (bs.getD k (parseBranch [])).id; if before.contains id then x.2 else x.1
      | _ => none
    v.getD (Config.hydOther id) :: s.varVals mb heads flows (id :: before) t

/-! ### The hydraulic solve (R304) -/

/-- Objects of a solve: heads, branch inputs, J, M, work area, result. -/
structure HydObj where
  heads  : Nat
  inputs : Nat
  jac    : Nat
  fac    : Nat
  work   : Nat
  res    : Nat
deriving DecidableEq, Repr
def State.hydObj (s : State) (d : SeqDim) (est : Bool) : HydObj :=
  let a := s.seqAt d
  if est then ⟨a .heads, a .inputs, a .jac, a .jacFac, a .nWork, a .resE⟩ else ⟨a .hHeads, a .hInputs, a .hJac, a .hFac, a .hWork, a .resH⟩
/-- Lay out a solve: heads by node, the four input vectors by branch, J's pattern, M over it (R198, R217). -/
def hydPut (m : Tab Byte) (mb : List Byte) (o : HydObj) (heads : List Int) (ins : List (Rat × Rat × Rat × Rat)) : Tab Byte :=
  let fr := freeNodes mb
  let nb := ins.length
  let low := (List.range fr.length).map fun r => (jacCols mb fr r).filter fun c => decide (c ≤ r)
  let nj := (low.map List.length).sum
  let m := putInts m o.heads (ownSpec mb 0) heads
  let vec (m : Tab Byte) (k : Nat) (sp : ArrSpec) (l : List Rat) : Tab Byte :=
    let a := o.inputs + 256 + k * up64 (8 * nb)
    wrBytes (wrBytes m (o.inputs + 64 * k) (vecHdr (o.inputs + 64 * k) sp nb a 1 0)) a (intBytes (l.map (mant sp.e)))
  let m := vec m 0 (ownSpec mb 11) (ins.map (·.1))
  let m := vec m 1 (ownSpec mb 12) (ins.map (·.2.1))
  let m := vec m 2 (arrOf (mdlScales mb) 0x14) (ins.map (·.2.2.1))
  let m := vec m 3 (ownSpec mb 14) (ins.map (·.2.2.2))
  let m := putMat m o.jac (ownSpec mb 1) true fr.length 1 0 (low.map fun l => l.map fun c => (c, 0))
  putFac m o.fac o.jac (ownSpec mb 8) (ownSpec mb 9) (ownSpec mb 10) fr.length nj
/-- A NEWTON job of a solve on the model in a slot, with damping θ (R198). -/
def newtonJob (mb : List Byte) (o : HydObj) (slot : Nat) (refactor : Bool) (theta : Int × Int) (iter tol : Nat) : JobArg :=
  { op := 0x30, flags := 8 * b2n refactor, a := o.jac, b := o.heads, c := o.inputs, d := o.fac, e := slotBase slot,
    work := (o.work, (newtonParts 0 (mdlBranches mb).length (mdlNodes mb).length (freeNodes mb).length).2), iter := iter, tol := tol, par := theta }
/-- Parts of a solve's work area as a job left them: B_Q, B_D, F, and the isolated nodes (R218). -/
def State.hydPart (s : State) (mb : List Byte) (o : HydObj) (k n : Nat) : List Int :=
  rdInts s.yard ((newtonParts o.work (mdlBranches mb).length (mdlNodes mb).length (freeNodes mb).length).1.getD k 0) n
def State.hydIso (s : State) (mb : List Byte) (o : HydObj) : List Nat :=
  let nn := (mdlNodes mb).length
  let a := (newtonParts o.work (mdlBranches mb).length nn (freeNodes mb).length).1.getD 5 0
  (List.range nn).filter fun i => (rdB s.yard (a + i / 8)).getLsbD (i % 8)
/-- Flows of MIX branches in the work area. -/
def State.mixFlows (s : State) (mb : List Byte) (o : HydObj) : List Int :=
  let bs := mdlBranches mb
  ((bs.zip (s.hydPart mb o 0 bs.length)).filter fun e => e.1.ty == 6).map (·.2)
/-- Sum of the squared fixed and design flows: the demands, and K_P of the HEX branches (DEDUCED, log entry 86). -/
def flowScale (mb : List Byte) : Rat :=
  let sc := mdlScales mb
  ((mdlNodes mb).map fun n => if n.kind = 2 then dyad n.demand (expOf sc 3) ^ 2 else 0).sum +
    ((mdlBranches mb).map fun b => if b.ty = 3 then dyad b.kp (expOf sc 0x23) ^ 2 else 0).sum
/-- The next NEWTON job of a solve; TOL and MAX_ITER of its inner solve are EST_TOL and EST_ITER (DESIGN CHOICE, log entry 86). -/
def State.hydLine (s : State) (k : Nat) (p : Pass) (dl : Nat) : State :=
  let mb := s.passMb p
  let o := s.hydObj p.dim (k = 0)
  s.line k p .hydNewton dl o.res [newtonJob mb o p.slot (p.fn.isNone) (1, -(p.theta : Int)) (passN mb 2 2) (passN mb 4 1)]
/-- A NEWTON job of a solve ended (R304): it converged with its MIX flows settled, or goes on with another θ. -/
def State.hydNext (s : State) (k : Nat) (p : Pass) (j : Job) : Pass × Bool :=
  let mb := s.passMb p
  let o := s.hydObj p.dim (k = 0)
  let fn := Scal.val j.rhs
  let tol : Rat := flowScale mb / ((2 ^ (2 * passN mb 0x11 1) : Nat) : Rat)
  let mix := s.mixFlows mb o
  let eq := expOf (mdlScales mb) 0x14
  let settled := mix.isEmpty || (p.mix.length == mix.length && (p.mix.zip mix).all fun e => decide ((dyad (e.1 - e.2) eq) ^ 2 < tol))
  let worse := match p.fn with | some f => decide (f < fn) | none => false
  ({ p with iter := p.iter + 1, mix := mix, fn := some fn, theta := if worse then min 4 (p.theta + 1) else 0 }, decide (fn ≤ tol) && settled)
/-- Heads that a solve left, by node. -/
def State.hydHeads (s : State) (o : HydObj) : List Int := let h := rdVHdr s.yard o.heads; h.read s.yard

end Sys2Proof.Machine
end

