-- ==== Sys2Proof/Machine/Est.lean ====
section
/-! DEFINITION. The estimation pass (R291 to R303): the Gauss–Newton loop, the bad-data test, the estimate's outputs; and the handoff
record (R324) with the objects streamed to the partner (R565). -/

namespace Sys2Proof.Machine

abbrev evMeasStale : Nat := 143
abbrev evBadData : Nat := 144
/-- The handoff area (R324). -/
abbrev handoff : Nat := 0x216FF000

/-! ### Streamed objects (R288, R565) -/

/-- Objects 2 to 4 as integers: the newest estimate with its diagonal, the kept iterate, the echo history (log entry 86). -/
def estInts (e : Estimate) : List (List Int) := [[(e.tag : Int), e.key, e.start], e.heads, e.diag]
def intsEst (l : List (List Int)) : Estimate :=
  let n (i : Nat) : Nat := ((l.getD 0 []).getD i 0).toNat
  ⟨n 0, n 1, n 2, l.getD 1 [], l.getD 2 []⟩
def keptInts (k : KeptIter) : List (List Int) :=
  [[(k.key : Int), k.t0, k.rho, k.fp], k.whole.map fun (n : Nat) => (n : Int), k.v, k.z, k.y, k.vt, k.ids.map fun (n : Nat) => (n : Int)]
def intsKept (l : List (List Int)) : KeptIter :=
  let h := l.getD 0 []
  ⟨(h.getD 0 0).toNat, (l.getD 1 []).map Int.toNat, (h.getD 1 0).toNat, h.getD 2 0, (h.getD 3 0).toNat, l.getD 2 [], l.getD 3 [], l.getD 4 [], l.getD 5 [],
    (l.getD 6 []).map Int.toNat⟩
def histInts (h : List (Nat × List Byte)) : List (List Int) := h.map fun e => [(e.1 : Int), (leNat e.2 : Nat)]
def intsHist (l : List (List Int)) : List (Nat × List Byte) := l.map fun r => ((r.getD 0 0).toNat, leBytes 3072 (r.getD 1 0).toNat)
/-- The side has begun to act: the streamed objects it holds become its previous estimate, its kept iterate and its echo history (R288). -/
def State.seqAdopt (s : State) : State :=
  if !s.dsq.adopt then s
  else
    let has (o : Nat) : Bool := s.flag R.PLK_STREAM_STAT (o - 1)
    let obj (o : Nat) : List (List Int) := unpackInts (s.plk.heldObj.get (fun _ => (0, [])) o).2
    s.setDsq fun d =>
      { d with adopt := false, ests := if has 2 then [intsEst (obj 2)] else d.ests, kept := if has 3 then some (intsKept (obj 3)) else d.kept,
               hist := if has 4 then intsHist (obj 4) else d.hist }
/-- The echo of a set: its generation is shown, its values at a dispatch step boundary are kept for 16 steps (R289, R290), and an estimate
that it first shows as certified goes to the partner (R565). -/
def State.keepEcho (s : State) (i : Nat) : State :=
  let dt := max 1 (60 * fieldN s.mdlBytes 0x2E 2) * tS
  let b := s.time.nsu / dt
  let s := s.setReg R.DSQ_ECHO_GEN (wd (rdN s.yard (setBase i + 0x40) 4))
  let tag := rdN s.yard (setBase i + 0x48) 4
  let s := match s.dsq.ests.find? fun e => e.tag == tag with
    | some e => if tag = 0 ∨ tag = s.dsq.sent then s else (s.setDsq fun d => { d with sent := tag }).sendObj 2 tag (packInts (estInts e))
    | none => s
  if s.dsq.hist.any fun e => e.1 == b then s
  else
    let s := s.setDsq fun d => { d with hist := ((b, rdBytes s.yard (setBase i + 0x80) 3072) :: d.hist).take 16 }
    s.sendObj 4 b (packInts (histInts s.dsq.hist))

/-! ### The handoff record (R324) -/

/-- Device time as ns and seconds, 8 bytes. -/
def timeBytes (t : Nat) : List Byte := leBytes 4 (nsField t).toNat ++ leBytes 4 (secOf t)
/-- Commit the handoff record of a kind, 1 EST or 2 DSP, with the addresses of its values, its entries and its check operands; none when
T_DUE − 250 µs has passed (R321) or the Sequencer is not in RUN (R99). -/
def State.commitRecord (s : State) (kind tag : Nat) (p : Pass) (next values entries : Nat) (check : List Nat) : Option State :=
  if p.due ≤ s.time.nsu + 250 * tUs ∨ !s.running dsqPage then none
  else
    let base := handoff + (if kind = 1 then 0 else 0x200)
    let a := if rdN s.yard (base + 0x100) 8 < rdN s.yard base 8 then base + 0x100 else base
    let mb := s.passMb p
    let n := s.dsq.seq + 1
    let exps := if kind = 1 then [0, 0] else leBytes 1 (unsext 8 p.rhoOk) ++ leBytes 1 (passN mb 0x19 1)
    let chk := ((List.range 9).flatMap fun i => leBytes 4 (check.getD i 0)) ++ exps ++ List.replicate 42 0
    let body := [BitVec.ofNat 8 kind, BitVec.ofNat 8 p.status, if kind = 2 then BitVec.ofNat 8 (passN mb 0x20 1) else 0, 0] ++ leBytes 4 tag ++ leBytes 4 p.flags ++
      leBytes 4 (fieldN mb 0xC 4) ++ timeBytes p.due ++ timeBytes next ++ (if kind = 2 then timeBytes p.planT0 else List.replicate 8 0) ++
      leBytes 4 values ++ leBytes 4 entries ++ leBytes 8 (mdlLayout mb) ++ chk ++ mdlLimitDigest mb ++ List.replicate 80 0
    some ({ s with yard := wrBytes s.yard a (leBytes 8 n ++ body) }.setDsq fun d => { d with seq := n })
/-- Next instant of a period after a time, and the deadline of the pass that falls due then. -/
def nextDue (start period dl : Nat) : Nat := (start / period + 1) * period + dl

/-! ### Reading a set for a pass -/

/-- Value of a measurement for a pass; none where it is excluded (R23, R136). -/
def State.measOf (s : State) (p : Pass) (mb : List Byte) (r : MeasRec) : Option Rat :=
  match p.buf with | some i => measValue s.yard mb i p.start r | none => none
/-- One that a bad-data hold does not exclude (R292). -/
def State.includedOf (s : State) (p : Pass) (mb : List Byte) (r : MeasRec) : Option Rat :=
  if s.dsq.held.any fun h => h.1 == wd r.id then none else s.measOf p mb r
/-- Value of an asset input by the plan echo of the pass's set. -/
def State.echoOf (s : State) (p : Pass) (mb : List Byte) (a : AssetIn) : Rat :=
  match p.buf with | some i => echoIn s.yard mb i a | none => fixedIn mb a
/-- Head of every node as a mantissa: REF nodes by HREF, the others from a list in node order (R291). -/
def fillHeads (mb : List Byte) (x : List Int) : List Int :=
  let fr := freeNodes mb
  let sp := ownSpec mb 0
  ((mdlNodes mb).zip (List.range (mdlNodes mb).length)).map fun (e : NodeRec × Nat) =>
    match rowOfNode fr e.2 with | some k => x.getD k 0 | none => mant sp.e (dyad e.1.href (expOf (mdlScales mb) 2))
/-- First heads of a solve with no previous estimate (log entry 86). -/
def coldHeads (mb : List Byte) : List Int := let ns := mdlNodes mb; (freeNodes mb).map fun k => Config.headInit (ns.getD k (parseNode [])).id
/-- Heads as values, by node. -/
def headVals (mb : List Byte) (l : List Int) : List Rat := l.map fun v => dyad v (ownSpec mb 0).e

/-! ### The Gauss–Newton loop (R294 to R297) -/

/-- An object of operand set o. -/
def pick (o : Nat) (a b : SeqObj) : SeqObj := if o % 2 = 0 then a else b
/-- Stored entries of the pressure rows of H. -/
def pressEntries (mb : List Byte) : Nat := (((hPattern mb).take (pressRows mb).length).map List.length).sum
/-- Lay out the estimator's objects: both H with the pressure entries set, the vectors of both sets, x, and dprev where there is one. -/
def State.estPut (s : State) (mb : List Byte) (d : SeqDim) (x : List Int) (dprev : Option (List Int)) : Tab Byte :=
  let a := s.seqAt d
  let np := (pressRows mb).length
  let rows : List (List (Nat × Int)) := ((hPattern mb).zip (List.range d.rows)).map fun (e : List Nat × Nat) => e.1.map fun c => (c, if e.2 < np then mant (ownSpec mb 2).e 1 else 0)
  let m := putMat (putMat s.yard (a .h0) (ownSpec mb 2) false d.nf 1 0 rows) (a .h1) (ownSpec mb 2) false d.nf 1 0 rows
  let zero (n : Nat) : List Int := List.replicate n 0
  let m := ([.r0, .r1, .unit, .hyBd] : List SeqObj).foldl (fun m o => putInts m (a o) (ownSpec mb 5) (zero d.rows)) m
  let m := ([.w0, .w1] : List SeqObj).foldl (fun m o => putInts m (a o) (ownSpec mb 6) (zero d.rows)) m
  let m := ([.dx0, .dx1, .yBd] : List SeqObj).foldl (fun m o => putInts m (a o) (ownSpec mb 0) (zero d.nf)) m
  let m := putInts (putInts (putInts m (a .hv) (ownSpec mb 2) (zero (d.nh - pressEntries mb))) (a .hp) (ownSpec mb 3) (zero d.np)) (a .hq) (ownSpec mb 4) (zero d.nq)
  let m := putInts m (a .xEst) (ownSpec mb 0) x
  match dprev with | some l => putInts m (a .dprev) (ownSpec mb 7) l | none => m
/-- Deadline of the jobs of the loop and of the bad-data test. -/
def State.estJobs (s : State) (p : Pass) (ph : SeqPhase) (jobs : List JobArg) : State := s.line 0 p ph (s.passCut p) (s.seqAt p.dim .resE) jobs
/-- Evaluate at x: NEWTON with θ = 0, which leaves the heads (R295). -/
def State.estEval (s : State) (p : Pass) : State :=
  let mb := s.passMb p
  let o := s.hydObj p.dim true
  let x := rdVHdr s.yard (s.seqAt p.dim .xEst)
  let heads := putInts s.yard o.heads (ownSpec mb 0) (fillHeads mb (x.read s.yard))
  { s with yard := heads }.estJobs p .estEval [{ newtonJob mb o p.slot false (0, 0) 1 1 with d := 0 }]
/-- After an evaluation: B_D and B_Q under vector headers, and the three products (R294). -/
def State.estRows (s : State) (p : Pass) : State :=
  let mb := s.passMb p
  let a := s.seqAt p.dim
  let o := s.hydObj p.dim true
  let parts := (newtonParts o.work p.dim.nb p.dim.nn p.dim.nf).1
  let sc := mdlScales mb
  let m := wrBytes (wrBytes s.yard (a .bq) (vecHdr (a .bq) (arrOf sc 0x14) p.dim.nb (parts.getD 0 0) 1 0)) (a .bd)
    (vecHdr (a .bd) (arrOf sc 0x15) p.dim.nb (parts.getD 1 0) 1 0)
  { s with yard := m }.estJobs { p with iso := s.hydIso mb o } .estRows
    [spmvJob (passObj mb p.slot 0) (a .bd) (a .hv), spmvJob (passObj mb p.slot 1) (a .xEst) (a .hp), spmvJob (passObj mb p.slot 2) (a .bq) (a .hq)]
/-- The previous estimate, where it is of the model of the pass (R294). -/
def State.prevEst (s : State) (mb : List Byte) : Option Estimate := s.dsq.ests.head?.filter fun e => e.key == mdlKey mb
/-- The preconditioner that it left; none where no diagonal was formed (R296). -/
def State.prevDiag (s : State) (mb : List Byte) : Option (List Int) := ((s.prevEst mb).map (·.diag)).filter fun l => !l.isEmpty
/-- A PCGNE job on operand set o: solves (HᵀWH)·y = HᵀW·b (R294, R298); PARAM_SCALE is the scale of x (DESIGN CHOICE, log entry 86). -/
def State.pcgneJob (s : State) (p : Pass) (o : Nat) (b y : SeqObj) : JobArg :=
  let mb := s.passMb p
  let a := s.seqAt p.dim
  { op := 0x23, flags := 16, a := a (pick o .h0 .h1), b := a b, c := a y, d := if (s.prevDiag mb).isSome then a .dprev else 0, e := a (pick o .w0 .w1),
    work := (a .neWork, 5 * up64 (8 * p.dim.nf) + 2 * up64 (8 * p.dim.rows) + 256), iter := passN mb 2 2, tol := passN mb 4 1, par := (0, (ownSpec mb 0).e) }
/-- After the products: H of the set, r = z − model values, the weights, and the step (R292, R294). -/
def State.estStep (s : State) (p : Pass) : State :=
  let mb := s.passMb p
  let a := s.seqAt p.dim
  let o := (p.iter + 1) % 2
  let obj (x y : SeqObj) : Nat := a (pick o x y)
  let vec (x : SeqObj) : List Rat := vecVals s.yard (rdVHdr s.yard (a x))
  let f := (s.hydPart mb (s.hydObj p.dim true) 2 p.dim.nf).map fun v => dyad v (expOf (mdlScales mb) 0x14)
  let val := s.measOf p mb
  let r := ((rowZ mb val).zip (vec .hp ++ vec .hq ++ f)).map fun e => e.1 - e.2
  let w := rowW mb val (s.dsq.held.map fun h => h.1.toNat) p.iso (passN mb 5 1)
  let hv := rdVHdr s.yard (a .hv)
  let hm := rdMHdr s.yard (obj .h0 .h1)
  let m := wrBytes s.yard (hm.vals + 8 * pressEntries mb) (intBytes (hv.read s.yard))
  let m := putVals (putVals m (obj .r0 .r1) (ownSpec mb 5) r) (obj .w0 .w1) (ownSpec mb 6) w
  let m := putInts m (obj .dx0 .dx1) (ownSpec mb 0) (List.replicate p.dim.nf 0)
  let s := { s with yard := m }
  s.estJobs p .estStep [s.pcgneJob p o (pick o .r0 .r1) (pick o .dx0 .dx1)]
/-- x = x + Δx. -/
def State.estAdd (s : State) (p : Pass) : State :=
  let a := s.seqAt p.dim
  s.estJobs p .estAdd [axpyJob 1 0 (a (pick (p.iter + 1) .dx0 .dx1)) (a .xEst)]
/-- The norms of Δx and x. -/
def State.estNorm (s : State) (p : Pass) : State :=
  let a := s.seqAt p.dim
  let dx := a (pick p.iter .dx0 .dx1)
  s.estJobs p .estNorm [dotJob dx dx, dotJob (a .xEst) (a .xEst)]

/-! ### The estimate's outputs (R296, R302, R303) -/

/-- w and r of operand set o as values. -/
def State.rowsOf (s : State) (p : Pass) (o : Nat) : List (Rat × Rat) :=
  let vec (x : SeqObj) : List Rat := vecVals s.yard (rdVHdr s.yard (s.seqAt p.dim x))
  (vec (pick o .w0 .w1)).zip (vec (pick o .r0 .r1))
/-- J = Σ w r² over the real rows (R294). -/
def State.costJ (s : State) (p : Pass) : Rat := (((s.rowsOf p p.lastOk).take (p.dim.np + p.dim.nq)).map fun e => e.1 * e.2 * e.2).sum
/-- The inverse diagonal of HᵀWH of the handed set; isolated columns carry zero (R296). -/
def State.diagOf (s : State) (p : Pass) : List Int :=
  let mb := s.passMb p
  let h := rdMHdr s.yard (s.seqAt p.dim (pick p.lastOk .h0 .h1))
  let rows := (h.rows s.yard).zip ((s.rowsOf p p.lastOk).map (·.1))
  let fr := freeNodes mb
  (List.range p.dim.nf).map fun c =>
    let g : Rat := (rows.map fun (e : List (Nat × Int) × Rat) => match rowAt e.1 c with | some v => e.2 * (dyad v h.e) ^ 2 | none => 0).sum
    if g = 0 ∨ p.iso.contains (fr.getD c 0) then 0 else mant (ownSpec mb 7).e (1 / g)
/-- Write a flow set into the slot with the smaller GEN, its vectors beside it (R255, R302). -/
def State.writeFlow (s : State) (p : Pass) : State :=
  let mb := s.passMb p
  let bs := mdlBranches mb
  let b := s.regN R.BTK_FLOW_ADDR
  let g0 := rdN s.yard b 8
  let g1 := rdN s.yard (b + 64) 8
  let second := decide (g1 < g0)
  let at' := if second then b + 64 else b
  let v0 := s.seqAt p.dim (if second then .flows1 else .flows0)
  let v1 := v0 + vecSize p.dim.nb
  let v2 := v1 + vecSize p.dim.nHex
  let v3 := v2 + vecSize p.dim.nHex
  let inc := s.includedOf p mb
  let hexes := bs.filter fun x => x.ty == 3
  let old (x : BranchRec) : Rat × Rat := match s.dsq.flowOld.find? fun e => e.1 == x.id with | some e => e.2 | none => (Config.flowInit 0 x.id, Config.flowInit 1 x.id)
  let heat (x : BranchRec) : Rat := (sourceVal mb inc fun r => r.qty == 3 && r.target % 2 ^ 28 == x.id % 2 ^ 28).getD (old x).1
  let idle (x : BranchRec) : Rat := (sourceVal mb inc fun r => r.qty == 2 && targets 3 r x).getD (old x).2
  let plant (x : BranchRec) : Rat := (sourceVal mb inc fun r => r.qty == 2 && targets 3 r x).getD (assetVal mb (s.echoOf p mb) x.asset 1)
  let vals := hexes.map fun x => (x.id, heat x, idle x)
  let m := putInts s.yard v0 (arrOf (mdlScales mb) 0x14) (s.hydPart mb (s.hydObj p.dim true) 0 bs.length)
  let m := putVals (putVals m v1 (ownSpec mb 40) (vals.map (·.2.1))) v2 (ownSpec mb 41) (vals.map (·.2.2))
  let m := putVals m v3 (ownSpec mb 42) ((bs.filter fun x => x.ty == 5).map plant)
  let rec' := timeBytes p.start ++ [v0, v1, v2, v3].flatMap (leBytes 4) ++ List.replicate 32 0
  let s := s.setDsq fun d => { d with flowOld := vals }
  if inWork at' 64 then { s with yard := wrBytes (wrBytes m (at' + 8) rec') at' (leBytes 8 (max g0 g1 + 1)) } else { s with yard := m }
/-- The estimate of a pass is complete: handoff unless a lane is in doubt, published estimates, flow set, and the diagonal for the next
pass (R296, R302, R303, R321 to R324). -/
def State.estDone (s : State) (p : Pass) : State :=
  if p.suspect then s.passEnd 0 p 6
  else
    let mb := s.passMb p
    let a := s.seqAt p.dim
    let o := p.lastOk
    let x := (rdVHdr s.yard (a .xEst)).read s.yard
    let flows := (s.hydPart mb (s.hydObj p.dim true) 0 p.dim.nb).map fun v => dyad v (expOf (mdlScales mb) 0x14)
    let pubs := pubList mb
    let vals := s.varVals mb (headVals mb (fillHeads mb x)) flows [] (pubs.map (·.1))
    let m := wrBytes (putVals s.yard (a .pubE) (ownSpec mb 43) vals) (a .entE) (pubs.flatMap fun e => leBytes 2 e.2)
    let next := nextDue p.start (max 1 (s.regN R.DSQ_EST_PERIOD_MS) * tMs) (s.regN R.DSQ_EST_DEADLINE_MS * tMs)
    match { s with yard := m }.commitRecord 1 (s.regN R.DSQ_EST_TAG) p next (a .pubE) (a .entE)
        [a (pick o .h0 .h1), a (pick o .w0 .w1), a (pick o .r0 .r1), a (pick o .dx0 .dx1), a .xEst] with
    | none => s.passEnd 0 p 3
    | some s =>
      let e : Estimate := ⟨s.regN R.DSQ_EST_TAG, mdlKey mb, p.start, x, s.diagOf p⟩
      ((s.setDsq fun d => { d with ests := (e :: d.ests).take 16 }).writeFlow p).passEnd 0 p p.status

/-! ### Bad data (R298 to R300) -/

/-- The real rows of largest w·r², BD_CAND of them (R298). -/
def State.candidates (s : State) (p : Pass) : List Nat :=
  let l := ((s.rowsOf p p.lastOk).take (p.dim.np + p.dim.nq)).map fun e => e.1 * e.2 * e.2
  let o := (l.zip (List.range l.length)).mergeSort fun a b => decide (b.1 < a.1 ∨ (a.1 = b.1 ∧ a.2 ≤ b.2))
  (o.map (·.2)).take (passN (s.passMb p) 6 1)
/-- The next candidate's PCGNE: e_i against H and W of the last set. -/
def State.bdSolve (s : State) (p : Pass) (i : Nat) : State :=
  let mb := s.passMb p
  let a := s.seqAt p.dim
  let e := (List.range p.dim.rows).map fun k => if k = i then (1 : Rat) else 0
  let m := putInts (putVals s.yard (a .unit) (ownSpec mb 5) e) (a .yBd) (ownSpec mb 0) (List.replicate p.dim.nf 0)
  let s := { s with yard := m }
  s.estJobs p .bdSolve [s.pcgneJob p p.lastOk .unit .yBd]
/-- H·y of the candidate. -/
def State.bdMul (s : State) (p : Pass) : State :=
  let a := s.seqAt p.dim
  s.estJobs p .bdMul [spmvJob (a (pick p.lastOk .h0 .h1)) (a .yBd) (a .hyBd)]
/-- Ω of a candidate and its squared normalised residual, zero when Ω ≤ 0 (R298, R299). -/
def State.bdRatio (s : State) (p : Pass) (i : Nat) : Rat × Bool :=
  let y := (vecVals s.yard (rdVHdr s.yard (s.seqAt p.dim .hyBd))).getD i 0
  let e := (s.rowsOf p p.lastOk).getD i (0, 0)
  let omega := if e.1 = 0 then 0 else (1 - y) / e.1
  if omega ≤ 0 then (0, true) else (e.2 * e.2 / omega, false)
/-- Measurement of a real row. -/
def rowMeas (mb : List Byte) (i : Nat) : Option MeasRec := (((pressRows mb).map (·.1)) ++ (flowRows mb).map (·.1))[i]?
/-- The test is complete: the candidate of largest rn is removed when it passes BD_LAMBDA, and the loop goes on; else the estimate
stands (R298). -/
def State.bdEnd (s : State) (p : Pass) : State :=
  let mb := s.passMb p
  let best := p.rns.foldl (fun (b : Nat × Rat) e => if b.2 < e.2 then e else b) (0, 0)
  let lam : Rat := (passN mb 8 2 : Rat) / 256
  match (if lam * lam < best.2 then rowMeas mb best.1 else none) with
  | none => s.estDone p
  | some r =>
    let p := { p with removed := p.removed + 1, flags := p.flags ||| 8 }
    let s := s.setDsq fun d => { d with held := d.held ++ [(wd r.id, passN mb 0xA 2)] }
    let s := ((s.setReg R.DSQ_BAD_HELD (wd s.dsq.held.length)).irq dsqPage 13).emit evBadData dsqPage [wd r.id]
    s.estEval p
/-- The Gauss–Newton loop ended with a status: no estimate, the bad-data test, or the hand over (R294, R297, R322). -/
def State.estLoopEnd (s : State) (p : Pass) (status noEst : Nat) : State :=
  let mb := s.passMb p
  let p := { p with status := status }
  if p.lastOk = 0 then s.passEnd 0 p noEst
  else if (passN mb 0xC 4 : Rat) / 16 < s.costJ p ∧ p.removed < passN mb 7 1 then
    match s.candidates p with
    | [] => s.estDone p
    | i :: t => s.bdSolve { p with cand := t, rns := [(i, 0)] } i
  else s.estDone p
/-- A job of an EST pass ended, the last of its line (R294 to R300). `cut` says that it met its deadline. -/
def State.estJob (s : State) (p : Pass) (j : Job) (cut : Bool) : State :=
  let mb := s.passMb p
  match p.phase with
  | .hydNewton =>
    if cut then s.passEnd 0 p 3
    else
      let r := s.hydNext 0 p j
      let o := s.hydObj p.dim true
      let q := { r.1 with iter := 0, fn := none, mix := [], theta := 0 }
      let ready := r.2 || decide (passN mb 0x10 1 ≤ r.1.iter)
      if ready then
        let h := s.hydHeads o
        let m := putInts s.yard (s.seqAt p.dim .xEst) (ownSpec mb 0) ((freeNodes mb).map fun k => h.getD k 0)
        { s with yard := m }.estEval q
      else s.hydLine 0 r.1 (s.passCut p)
  | .estEval => if cut then s.estLoopEnd p 2 3 else s.estRows p
  | .estRows => if cut then s.estLoopEnd p 2 3 else s.estStep p
  | .estStep => if j.out = 0 then s.estAdd p else s.estLoopEnd p 2 (if cut then 3 else 5)
  | .estAdd => if cut then s.estLoopEnd p 2 3 else s.estNorm { p with iter := p.iter + 1, lastOk := p.iter + 1 }
  | .estNorm =>
    if cut then s.estLoopEnd p 2 3
    else if p.dot 0 * ((2 ^ (2 * passN mb 1 1) : Nat) : Rat) ≤ p.dot 1 then s.estLoopEnd p 0 3
    else if passN mb 0 1 + p.removed ≤ p.iter then s.estLoopEnd p 2 3
    else s.estEval p
  | .bdSolve => if cut then s.estDone { p with flags := p.flags ||| 32 } else s.bdMul p
  | .bdMul =>
    if cut then s.estDone { p with flags := p.flags ||| 32 }
    else
      let i := (p.rns.headD (0, 0)).1
      let r := s.bdRatio p i
      let p := { p with rns := (i, r.1) :: p.rns.drop 1, flags := p.flags ||| 16 * b2n r.2 }
      match p.cand with
      | [] => s.bdEnd p
      | n :: t => s.bdSolve { p with cand := t, rns := (n, 0) :: p.rns } n
  | _ => s
/-- The loop starts, from the previous estimate where its model is the one in force, else from a hydraulic solve on the plan echo (R294). -/
def State.estBegin (s : State) (p : Pass) : State :=
  let mb := s.passMb p
  let d := s.dimOf mb
  let prev := s.prevEst mb
  let x := match prev with | some e => e.heads | none => coldHeads mb
  let p := { p with dim := d, flags := p.flags ||| 64 * b2n prev.isNone }
  let ins := (mdlBranches mb).map (branchIn mb (s.includedOf p mb) (s.echoOf p mb) true)
  let m := s.estPut mb d x (s.prevDiag mb)
  let s := { s with yard := hydPut m mb (s.hydObj d true) (fillHeads mb x) ins }
  if prev.isNone then s.hydLine 0 p (s.passCut p) else s.estEval p

end Sys2Proof.Machine
end

