-- ==== Sys2Proof/Machine/Plan.lean ====
section
/-! DEFINITION. The dispatch pass (R306 to R323) and the hydraulic pass after it (R305): the program's objects, the operator-splitting
solve, the final projection and rate repair. -/

namespace Sys2Proof.Machine

abbrev evHydViol : Nat := 147

/-! ### The host forecast block (R310, R311) -/

/-- Dispatch step length as a time. -/
def stepLen (mb : List Byte) : Nat := 60 * fieldN mb 0x2E 2 * tS
/-- The slot with the larger GEN. -/
def State.fcSlot (s : State) : List Byte :=
  let a := s.reg64 R.DSQ_FC_IN_ADDR_LO R.DSQ_FC_IN_ADDR_HI
  let n := s.regN R.DSQ_FC_IN_LEN
  let k := if rdN s.dram a 8 < rdN s.dram (a + n) 8 then 1 else 0
  if s.dramUp && inDram a (2 * n) then rdBytes s.dram (a + k * n) n else []
/-- Device time of a block's row 0. -/
def fcTime (b : List Byte) : Nat := fieldN b 8 4 * 2 ^ 32 + fieldN b 12 4 * tS
/-- Why a block is refused for a plan from t0: DETAIL of FC_IN_BAD (R311, R339). -/
def fcWhy (d : SeqDim) (mb b : List Byte) (t0 : Nat) : Option Nat :=
  let dt := stepLen mb
  let rows := fieldN b 0x14 2
  if b.length < 64 ∨ b.length < 64 + 8 * rows * (d.nw + d.nPrice + d.nTgt) then some 2
  else if fieldN b 0x10 4 ≠ 60 * fieldN mb 0x2E 2 ∨ rows < 1 ∨ 192 < rows ∨ fieldN b 0x16 2 ≠ d.nw ∨ fieldN b 0x18 2 ≠ d.nPrice ∨ fieldN b 0x1A 2 ≠ d.nTgt then some 1
  else if t0 < fcTime b ∨ dt = 0 ∨ (t0 - fcTime b) % dt ≠ 0 then some 0
  else none
/-- Value of column c for plan step k, clamped into its range, and whether it was: the rows of w, then those of the prices, then those of
the targets (R310, R311, R136). Rows beyond the last repeat it. With no block ever accepted it is a free value (log entry 86). -/
def fcValue (d : SeqDim) (mb : List Byte) (b : Option (List Byte)) (t0 k c : Nat) : Rat × Bool :=
  let rng := ((mdlDispatch mb).fc)[c]?
  let e := match rng with | some r => expOf (mdlScales mb) r.arr | none => 0
  match b with
  | none => (dyad (Config.fcNone c k) e, false)
  | some b =>
    let rows := fieldN b 0x14 2
    let row := min (rows - 1) (k + (t0 - fcTime b) / max 1 (stepLen mb))
    let at' := if c < d.nw then row * d.nw + c
      else if c < d.nw + d.nPrice then rows * d.nw + row * d.nPrice + (c - d.nw)
      else rows * (d.nw + d.nPrice) + row * d.nTgt + (c - d.nw - d.nPrice)
    let v := fieldI b (64 + 8 * at')
    let x := match rng with | some r => max r.lo (min r.hi v) | none => v
    (dyad x e, x != v)
/-- Take the forecast block for a pass: a refused one leaves the previous accepted one in use (R310, R311). -/
def State.takeFc (s : State) (p : Pass) : State × Pass :=
  let mb := s.passMb p
  let b := s.fcSlot
  let r : Option (List Byte) × State := match fcWhy p.dim mb b p.planT0 with
    | none => (some b, s.setDsq fun d => { d with fcIn := some b })
    | some w => (s.dsq.fcIn.filter fun o => (fcWhy p.dim mb o p.planT0).isNone, s.errc dsqPage 0x100 w)
  match r.1 with
  | none => (r.2, { p with fcIn := none })
  | some o =>
    let short := decide (fieldN o 0x14 2 < (p.planT0 - fcTime o) / max 1 (stepLen mb) + p.dim.nst)
    let cols := p.dim.nw + p.dim.nPrice + p.dim.nTgt
    let clamp := (List.range p.dim.nst).any fun k => (List.range cols).any fun c => (fcValue p.dim mb (some o) p.planT0 k c).2
    (r.2.setReg R.DSQ_FC_IN_GEN (wd (fieldN o 0 8)), { p with fcIn := some o, flags := p.flags ||| 4096 * b2n short ||| 2048 * b2n clamp })

/-! ### The thermal forecast (R312) -/

/-- The forecast's request, and a copy of the flow set that it starts from (R304, R273): every step takes that set, until the middle of the
pass's time. -/
def State.fcYard (s : State) (p : Pass) (mb : List Byte) : Tab Byte :=
  let a := s.seqAt p.dim
  let b := s.regN R.BTK_FLOW_ADDR
  let slot := if rdN s.yard b 8 < rdN s.yard (b + 64) 8 then b + 64 else b
  let vec (o : Nat) : VHdr := rdVHdr s.yard (rdN s.yard (slot + o) 4)
  let v0 := a .fcFlow + 64
  let at4 : List Nat := [v0, v0 + vecSize p.dim.nb, v0 + vecSize p.dim.nb + vecSize p.dim.nHex, v0 + vecSize p.dim.nb + 2 * vecSize p.dim.nHex]
  let half := p.start + s.regN R.DSQ_DSP_DEADLINE_S * tS / 2
  let req := leBytes 4 p.dim.nst ++ leBytes 4 (60 * fieldN mb 0x2E 2) ++ timeBytes half ++ leBytes 4 (a .fcReq + 64) ++ leBytes 4 (a .fcTable) ++
    leBytes 4 (a .fcDelay) ++ leBytes 4 (a .fcScratch) ++ leBytes 4 p.dim.stLen ++ List.replicate 28 0
  let m := (at4.zip [0x10, 0x14, 0x18, 0x1C]).foldl (fun m (e : Nat × Nat) => putInts m e.1 ⟨(vec e.2).arr, (vec e.2).e, (vec e.2).bound⟩ ((vec e.2).read s.yard)) s.yard
  let m := wrBytes m (a .fcFlow) (rdBytes s.yard slot 16 ++ at4.flatMap (leBytes 4) ++ List.replicate 32 0)
  let m := putInts m (a .fcTable) (arrOf (mdlScales mb) 0x32) (List.replicate (p.dim.nst * p.dim.nPts) 0)
  wrBytes (wrBytes m (a .fcReq) req) (a .fcReq + 64) ((List.range p.dim.nst).flatMap fun _ => leBytes 4 (a .fcFlow))
/-- Ask the BTK for a forecast over the horizon, every step with a copy of the newest estimate's flow set (R273, R274, R312). -/
def State.dspForecast (s : State) (p : Pass) : State :=
  let s := (({ s with yard := s.fcYard p (s.passMb p) }.setReg R.BTK_FC_ADDR (wd (s.seqAt p.dim .fcReq))).setPass 1 { p with phase := .dspForecast }).fcBegin
  if s.fld R.BTK_FC_STAT 2 0 = 1 then s else s.passEnd 1 p 5
/-- Whole delays with their rests in steps from the delay table, and whether one was held (R145, R276). -/
def State.takeDelays (s : State) (p : Pass) : List (Nat × Rat) × Bool :=
  let a := s.seqAt p.dim .fcDelay
  let dt := max 1 (60000 * fieldN (s.passMb p) 0x2E 2)
  let l := (List.range p.dim.nPath).map fun k => (rdN s.yard (a + 8 * k) 4, rdN s.yard (a + 8 * k + 4) 4 % 2)
  let long (e : Nat × Nat) : Bool := decide (e.2 = 1 ∨ 16 ≤ e.1 / dt)
  (l.map fun e => if long e then (15, 1) else (e.1 / dt, ((e.1 % dt : Nat) : Rat) / (dt : Rat)), l.any long)

/-! ### Building the program (R307 to R309, R312, R313) -/

/-- Inputs as applied in a step of the echo history, by dispatch index; the oldest echo held where the step has none (R290). -/
def State.appliedAt (s : State) (mb : List Byte) (nu b : Nat) : List Rat :=
  let e : List Byte := match s.dsq.hist.find? fun e => e.1 == b with | some e => e.2 | none => (s.dsq.hist.getLastD (0, [])).2
  (List.range nu).map fun i => match inputAt mb i with | some a => f32V (wd (fieldN e (12 * a.sp) 4)) | none => 0
/-- u(−1): the echo value for the step that covers PLAN_T0, NEXT where that step follows the one in force at the set; none while the entry
is NONE or EXPIRED (R307, R319). -/
def State.lastInput (s : State) (p : Pass) (mb : List Byte) (i : Nat) : Option Rat :=
  match p.buf, inputAt mb i with
  | some b, some a =>
    let e := echoAt s.yard b a.sp
    let dt := max 1 (stepLen mb)
    if e.2.2 = 0 ∨ e.2.2 = 3 then none else some (if setTime s.yard b / dt < p.planT0 / dt then e.2.1 else e.1)
  | _, _ => none
/-- The program's inputs. -/
def State.planIn (s : State) (p : Pass) : PlanIn :=
  let mb := s.passMb p
  let dt := max 1 (stepLen mb)
  let lim (i : Nat) (u : Rat) : Rat := let r := limitAt mb i; max (dyad r.lo r.e) (min (dyad r.hi r.e) u)
  { mb := mb, del := p.del, past := (List.range 17).map fun k => s.appliedAt mb p.dim.nu (p.planT0 / dt - (k + 1)),
    prev := (List.range p.dim.nu).map fun i => (s.lastInput p mb i).map (lim i), bias := if s.dsq.bias.1 = mdlKey mb then s.dsq.bias.2 else [] }
/-- Rows of A_h as mantissas. -/
def ahRows (mb : List Byte) (prog : List (List (Nat × Rat) × Rat × Rat)) : List (List (Nat × Int)) :=
  prog.map fun r => r.1.map fun c => (c.1, mant (ownSpec mb 20).e c.2)
/-- Exponent of σ (R314, R335). -/
def sigmaExp (mb : List Byte) : Int := passI mb 0x19
/-- KP = P + σI and KA = A_hᵀ·A_h on the union pattern, as mantissas (R312). -/
def kkt (mb : List Byte) (rows : List (List (Nat × Int))) (pm : Mat) (n : Nat) : List (List (Nat × Int)) × List (List (Nat × Int)) :=
  let e := (ownSpec mb 21).e
  let eA := (ownSpec mb 20).e
  let pat := (List.range n).map (unionRow rows pm)
  let pAt (i j : Nat) : Rat := ((pm.ents.filter fun t => t.1 == i && t.2.1 == j).map fun t => dyad t.2.2 pm.e).sum
  ((pat.zip (List.range n)).map fun (r : List Nat × Nat) => r.1.map fun j => (j, mant e (pAt r.2 j + if r.2 = j then dyad 1 (sigmaExp mb) else 0)),
   (pat.zip (List.range n)).map fun (r : List Nat × Nat) => r.1.map fun j => (j, rescale (gramAt rows r.2 j) (2 * eA) e))
/-- For which program the factor of K stands: model, address and whole delays. -/
def State.builtKey (s : State) (p : Pass) : Nat × Nat × List Nat := (mdlKey (s.passMb p), s.seqAt p.dim .k, p.del.map (·.1))
/-- Vectors of a program, zero, with their headers. -/
def State.planVectors (s : State) (m : Tab Byte) (mb : List Byte) (d : SeqDim) : Tab Byte :=
  let a := s.seqAt d
  let put (m : Tab Byte) (n k : Nat) (l : List SeqObj) : Tab Byte := l.foldl (fun m o => putInts m (a o) (ownSpec mb n) (List.replicate k 0)) m
  let m := put m 25 d.nv [.q, .tq, .rhs0, .rhs1, .tn, .tn2]
  let m := put m 31 d.nr [.tRow, .lo, .hi, .z0, .z1, .cz, .zt, .zr, .tm]
  let m := put m 33 d.nr [.y0, .y1, .cy]
  put m 32 d.nv [.v0, .v1, .vt0, .vt1, .cv, .vp, .pLo, .pHi]
/-- The program's matrices (R312, R313): all of them in a full build, else the values of KP, KA and K alone, whose factor stands; A_h and the
bounds' matrix always. `sum` is K and `rows` are A_h's rows. -/
def State.planMats (s : State) (m : Tab Byte) (mb : List Byte) (d : SeqDim) (same : Bool) (k : List (List (Nat × Int)) × List (List (Nat × Int)))
    (sum rows bnds : List (List (Nat × Int))) : Tab Byte :=
  let a := s.seqAt d
  let sp := ownSpec mb 21
  let mat (m : Tab Byte) (o : SeqObj) (ids : Nat) (l : List (List (Nat × Int))) : Tab Byte :=
    if same then wrBytes m (matParts (a o) d.nv d.nk).2.2 (intBytes (l.flatten.map (·.2))) else putMat m (a o) sp true d.nv (if ids = 0 then 1 else d.nst) ids l
  let val (m : Tab Byte) (h o : SeqObj) : Tab Byte := wrBytes m (a h) (vecHdr (a h) sp d.nk (matParts (a o) d.nv d.nk).2.2 1 0)
  let ids := if fieldN mb 4 2 = 2 then 0 else a .ids
  let m := wrBytes m (a .ids) ((idsOf mb 0).flatMap (leBytes 4))
  let m := mat (mat (mat m .kp 0 k.1) .ka 0 k.2) .k ids sum
  let m := if same then m else putFac m (a .kFac) (a .k) (ownSpec mb 22) (ownSpec mb 23) (ownSpec mb 24) d.nv d.nk
  let m := putMat m (a .ah) (ownSpec mb 20) false d.nv 1 0 rows
  putMat (val (val (val m .kVal .k) .kpVal .kp) .kaVal .ka) (a .bMat) (ownSpec mb 30) false (d.nx + d.nw * d.nst) 1 0 bnds
/-- The program's vectors: what the forecast, the observer's sources at the heads and the limits give (R307 to R311); `prog` are its rows. -/
def State.planVals (s : State) (m : Tab Byte) (mb : List Byte) (d : SeqDim) (p : Pass) (heads : List Rat)
    (prog : List (List (Nat × Rat) × Rat × Rat)) : Tab Byte :=
  let a := s.seqAt d
  let col (c0 n : Nat) : List Rat := (List.range d.nst).flatMap fun t => (List.range n).map fun c => (fcValue d mb p.fcIn p.planT0 t (c0 + c)).1
  let box (f : LimRec → Rat) (x : Int) : List Int := (List.range d.nst).flatMap fun _ => List.replicate d.nx x ++ (List.range d.nu).map fun i => mant (ownSpec mb 32).e (f (limitAt mb i))
  let bnd : Int := (ownSpec mb 32).bound
  let m := s.planVectors m mb d
  let m := putVals (putVals m (a .price) (ownSpec mb 26) (col d.nw d.nPrice)) (a .target) (ownSpec mb 27) (col (d.nw + d.nPrice) d.nTgt)
  let m := putVals m (a .src) (ownSpec mb 28) (s.varVals mb heads [] [] (obsList mb))
  let m := putVals m (a .pw) (ownSpec mb 29) (List.replicate d.nx 0 ++ col 0 d.nw)
  let m := wrBytes m (a .x0) (vecHdr (a .x0) (ownSpec mb 29) d.nx (a .pw + 64) 1 0)
  let m := putVals (putVals m (a .cLo) (ownSpec mb 31) (prog.map (·.2.1))) (a .cHi) (ownSpec mb 31) (prog.map (·.2.2))
  putInts (putInts m (a .pLo) (ownSpec mb 32) (box (fun r => dyad r.lo r.e) (-bnd))) (a .pHi) (ownSpec mb 32) (box (fun r => dyad r.hi r.e) bnd)
/-- Build the program's objects (R312, R313): a full build when the model or a whole delay changed, else the values alone; K keeps its
factor in a build of the values alone, and its values follow. -/
def State.dspBuild (s : State) (p : Pass) (heads : List Rat) : State :=
  let mb := s.passMb p
  let pi := s.planIn p
  let prog := pi.program
  let rows := ahRows mb prog
  let d := p.dim
  let pm := (rdMHdr s.yard (costObj mb p.slot 0)).mat s.yard
  let k := kkt mb rows pm d.nv
  let d := { d with na := (rows.map List.length).sum, nk := (k.1.map List.length).sum }
  let p := { p with dim := d }
  if 2 ^ 21 < d.na ∨ 2 ^ 21 < d.nk then (s.errc dsqPage 0x101 0).passEnd 1 p 10
  else if s.seqFull d then (s.errc dsqPage 0x101 1).passEnd 1 p 10
  else
    let a := s.seqAt d
    let key := s.builtKey p
    let same := match s.dsq.built with | some b => b.1 == key | none => false
    let rho := match s.dsq.kept with | some x => if x.key = mdlKey mb ∧ x.whole = p.del.map (·.1) then x.rho else passI mb 0x18 | none => passI mb 0x18
    let sp := ownSpec mb 21
    let sum : List (List (Nat × Int)) := (k.1.zip k.2).map fun (r : List (Nat × Int) × List (Nat × Int)) => (r.1.zip r.2).map fun c =>
      (c.1.1, c.1.2 + rescale c.2.2 (sp.e + (match s.dsq.built with | some b => b.2 | none => rho)) sp.e)
    let bnds := pi.boundRows.map fun r => r.map fun c => (c.1, mant (ownSpec mb 30).e c.2)
    let o (n : Nat) : Nat := costObj mb p.slot n
    let lin (n : Nat) (v : SeqObj) (on : Bool) : List JobArg := if on then [spmvJob (o n) (a v) (a .tq), axpyJob 1 0 (a .tq) (a .q)] else []
    let s := ({ s with yard := s.planVals (s.planMats s.yard mb d same k sum rows bnds) mb d p heads prog }).setDsq fun x =>
      { x with built := if same then x.built else none }
    s.line 1 { p with rho := rho } .dspAssemble (s.passCut p) (a .resD)
      ([copyJob (o 1) (a .q)] ++ lin 2 .price (d.nPrice != 0) ++ lin 3 .target (d.nTgt != 0) ++
        [spmvJob (passObj mb p.slot 3) (a .src) (a .x0), axpyJob 1 0 (passObj mb p.slot 4) (a .x0), spmvJob (a .bMat) (a .pw) (a .tRow),
         copyJob (a .cLo) (a .lo), axpyJob 1 0 (a .tRow) (a .lo), copyJob (a .cHi) (a .hi), axpyJob 1 0 (a .tRow) (a .hi)])

/-! ### The solve (R314 to R317, R320) -/

/-- Blocks of a list, shifted by n of them with the last one repeated. -/
def shiftBlocks (size n : Nat) (l : List Int) : List Int :=
  if size = 0 ∨ l.isEmpty then l
  else let k := l.length / size; (List.range k).flatMap fun i => (l.drop (size * min (k - 1) (i + n))).take size
/-- A vector over the rows of A_h shifted group by group (R307, R320; DEDUCED, log entry 86). -/
def shiftRows (d : SeqDim) (nOut n : Nat) (l : List Int) : List Int :=
  let g (o len size : Nat) : List Int := shiftBlocks size n ((l.drop o).take len)
  let o1 := d.nx * d.nst
  let o2 := o1 + nOut * d.nst
  l.take d.nx ++ g d.nx (o1 - d.nx) d.nx ++ g o1 (o2 - o1) nOut ++ g o2 (d.nu * d.nst) d.nu ++ g (o2 + d.nu * d.nst) (d.nu * d.nst) d.nu
/-- Deadline of the assembly's and the solve's jobs. -/
def State.dspJobs (s : State) (p : Pass) (ph : SeqPhase) (jobs : List JobArg) : State := s.line 1 p ph (s.passCut p) (s.seqAt p.dim .resD) jobs
/-- Start of an iteration: rhs = σv − q + A_hᵀ(ρz − y). -/
def State.dspRhs (s : State) (p : Pass) : State :=
  let a := s.seqAt p.dim
  let o := p.iter + 1
  let rhs := a (pick o .rhs0 .rhs1)
  s.dspJobs p .dspRhs
    [copyJob (a (pick p.iter .v0 .v1)) rhs, scaleJob 1 (sigmaExp (s.passMb p)) rhs, axpyJob (-1) 0 (a .q) rhs, copyJob (a (pick p.iter .z0 .z1)) (a .tm),
     scaleJob 1 p.rho (a .tm), axpyJob (-1) 0 (a (pick p.iter .y0 .y1)) (a .tm), spmvtJob (a .ah) (a .tm) (a .tn), axpyJob 1 0 (a .tn) rhs]
/-- K = KP + ρ·KA and its factor, when the pattern or ρ changed (R314, R317). -/
def State.dspFactor (s : State) (p : Pass) : State :=
  let a := s.seqAt p.dim
  if s.dsq.built = some (s.builtKey p, p.rho) then s.dspRhs p
  else s.dspJobs p .dspFactor [copyJob (a .kpVal) (a .kVal), axpyJob 1 p.rho (a .kaVal) (a .kVal), { op := 0x10, a := a .k, d := a .kFac }]
/-- The iterate kept, shifted by n steps, as the first one (R320). -/
def State.warmYard (s : State) (mb : List Byte) (d : SeqDim) (k : KeptIter) (n : Nat) : Tab Byte :=
  let a := s.seqAt d
  let nOut := (mdlDispatch mb).outLim.length
  let v (l : List Int) : List Int := shiftBlocks (d.nx + d.nu) n l
  let m := putInts s.yard (a .v0) (ownSpec mb 32) (v k.v)
  let m := putInts (putInts m (a .z0) (ownSpec mb 31) (shiftRows d nOut n k.z)) (a .y0) (ownSpec mb 33) (shiftRows d nOut n k.y)
  wrBytes (putInts m (a .vt0) (ownSpec mb 32) (v k.vt)) (a .vt0) (vecHdr (a .vt0) (ownSpec mb 32) d.nv 0 1 0 k.fp)
/-- The iterate kept of another program, as the source of two REMAP jobs (R320). -/
def State.remapYard (s : State) (mb : List Byte) (d : SeqDim) (k : KeptIter) : Tab Byte :=
  let a := s.seqAt d
  let ids := if k.ids.isEmpty then 0 else a .srcIds
  let blocks := if k.ids.isEmpty then 1 else k.v.length / k.ids.length
  let src (m : Tab Byte) (o : SeqObj) (l : List Int) : Tab Byte :=
    wrBytes (wrBytes m (a o) (vecHdr (a o) (ownSpec mb 32) l.length 0 blocks ids k.fp)) (a o + 64) (intBytes l)
  wrBytes (src (src s.yard .srcV k.v) .srcVt k.vt) (a .srcIds) (k.ids.flatMap (leBytes 4))
/-- The warm start (R320). -/
def State.dspWarm (s : State) (p : Pass) : State :=
  let mb := s.passMb p
  let a := s.seqAt p.dim
  let d := p.dim
  let p := { p with iter := 0, lastOk := 0 }
  let project : List JobArg := [projectJob (a .lo) (a .z0) (a .hi)]
  match s.dsq.kept with
  | none => s.dspJobs p .dspWarm project
  | some k =>
    if k.key = mdlKey mb ∧ k.whole = p.del.map (·.1) then
      { s with yard := s.warmYard mb d k ((p.planT0 - k.t0) / max 1 (stepLen mb)) }.dspFactor p
    else
      let remap (o x : SeqObj) : JobArg := { op := 8, a := a .k, c := a x, e := a o, work := (a .kWork, d.work) }
      { s with yard := s.remapYard mb d k }.dspJobs p .dspWarm ([remap .srcV .v0, remap .srcVt .vt0, spmvJob (a .ah) (a .v0) (a .z0)] ++ project)
/-- K·ṽ = rhs, warm from the ṽ before it. -/
def State.dspPcg (s : State) (p : Pass) : State :=
  let mb := s.passMb p
  let a := s.seqAt p.dim
  let o := p.iter + 1
  let warm := a (pick p.iter .vt0 .vt1)
  let first := p.iter = 0 ∧ s.dsq.kept.isNone
  let x : JobArg :=
    { op := 0x20, flags := if first then 0 else 4, a := a .k, b := a (pick o .rhs0 .rhs1), c := a (pick o .vt0 .vt1), d := a .kFac,
      e := if first then 0 else warm, work := (a .kWork, p.dim.work),
      iter := passN mb 0x1E 2, tol := passN mb 0x1D 1 }
  s.dspJobs p .dspPcg [x]
/-- z̃, v, the relaxed z, z and y of the iteration (R314). -/
def State.dspUpdate (s : State) (p : Pass) : State :=
  let mb := s.passMb p
  let a := s.seqAt p.dim
  let o := p.iter + 1
  let al : Int := passN mb 0x17 1
  let v := a (pick o .v0 .v1)
  let z := a (pick o .z0 .z1)
  let y := a (pick o .y0 .y1)
  s.dspJobs p .dspUpdate
    [spmvJob (a .ah) (a (pick o .vt0 .vt1)) (a .zt), copyJob (a (pick o .vt0 .vt1)) v, scaleJob al (-4) v, axpyJob (16 - al) (-4) (a (pick p.iter .v0 .v1)) v,
     copyJob (a .zt) (a .zr), scaleJob al (-4) (a .zr), axpyJob (16 - al) (-4) (a (pick p.iter .z0 .z1)) (a .zr),
     copyJob (a .zr) z, axpyJob 1 (-p.rho) (a (pick p.iter .y0 .y1)) z, projectJob (a .lo) z (a .hi),
     copyJob (a (pick p.iter .y0 .y1)) y, copyJob (a .zr) (a .tm), axpyJob (-1) 0 z (a .tm), axpyJob 1 p.rho (a .tm) y]
/-- The norms of R314 and R315 at the committed iterate: ‖A_h·v‖², ‖z‖² and rp, then ‖P·v‖², ‖A_hᵀ·y‖², ‖q‖² and rd. -/
def State.dspNorm (s : State) (p : Pass) : State :=
  let a := s.seqAt p.dim
  let o := p.iter
  let v := a (pick o .v0 .v1)
  let z := a (pick o .z0 .z1)
  s.dspJobs p .dspNorm
    [spmvJob (a .ah) v (a .tm), dotJob (a .tm) (a .tm), dotJob z z, axpyJob (-1) 0 z (a .tm), dotJob (a .tm) (a .tm),
     spmvJob (costObj (s.passMb p) p.slot 0) v (a .tn), dotJob (a .tn) (a .tn), spmvtJob (a .ah) (a (pick o .y0 .y1)) (a .tn2), dotJob (a .tn2) (a .tn2),
     dotJob (a .q) (a .q), axpyJob 1 0 (a .q) (a .tn), axpyJob 1 0 (a .tn2) (a .tn), dotJob (a .tn) (a .tn)]
/-- round(log2 x) in quarters: round(log2(√x)/2) for x = rp/rd, ties to even (R314). A quotient with a zero takes the limits of ρ. -/
def rhoStep (rp rd : Rat) : Int :=
  if rd = 0 then (if rp = 0 then 0 else 128)
  else if rp = 0 then -128
  else
    let x := rp / rd
    let up : Nat := if 1 ≤ x then Nat.log2 x.floor.toNat else 0
    let dn : Nat := if 1 ≤ x then 0 else Nat.clog 2 (1 / x).ceil.toNat
    let k : Int := (up : Int) - (dn : Int)
    let e := (k + 2) / 4
    if (k + 2) % 4 = 0 ∧ x = dyad 1 k ∧ e % 2 ≠ 0 then e - 1 else e
/-- Element mantissas of an object. -/
def State.intsAt (s : State) (p : Pass) (o : SeqObj) : List Int := let h := rdVHdr s.yard (s.seqAt p.dim o); h.read s.yard
/-- The last committed iterate is kept for the next pass, and sent to the partner (R320, R565); one under which a lane failed is not. -/
def State.keepIter (s : State) (p : Pass) : State :=
  if p.lastOk = 0 ∨ p.suspect then s
  else
    let mb := s.passMb p
    let at' (x y : SeqObj) : List Int := s.intsAt p (pick p.lastOk x y)
    let k : KeptIter := ⟨mdlKey mb, p.del.map (·.1), p.planT0, p.rho, (rdVHdr s.yard (s.seqAt p.dim (pick p.lastOk .vt0 .vt1))).fp, at' .v0 .v1, at' .z0 .z1, at' .y0 .y1,
      at' .vt0 .vt1, if fieldN mb 4 2 = 2 then [] else idsOf mb 0⟩
    (s.setDsq fun d => { d with kept := some k }).sendObj 3 (s.regN R.DSQ_DSP_TAG) (packInts (keptInts k))
/-- The pass ends with nothing handed over. -/
def State.dspFail (s : State) (p : Pass) (status : Nat) : State := (s.keepIter p).passEnd 1 p status
/-- The solve ended: nothing without a committed iterate, else the final projection on its v (R319, R322). -/
def State.dspSolveEnd (s : State) (p : Pass) (status : Nat) : State :=
  if p.lastOk = 0 then s.dspFail p 3
  else
    let a := s.seqAt p.dim
    s.line 1 { p with status := status } .dspProject (p.due - passN (s.passMb p) 0x22 2 * tMs / 2) (a .resD)
      [copyJob (a (pick p.lastOk .v0 .v1)) (a .vp), projectJob (a .pLo) (a .vp) (a .pHi)]
/-- An iteration is committed and its norms are known: converged, at its limit, or on, with another ρ every RHO_EVERY (R314, R315). -/
def State.dspIterated (s : State) (p : Pass) : State :=
  let mb := s.passMb p
  let tol : Rat := 1 / ((2 ^ (2 * passN mb 0x16 1) : Nat) : Rat)
  let rp := p.dot 2
  let rd := p.dot 6
  let p := { p with rexp := (p.dots.getD 2 (0, 0)).2 }
  if rp ≤ tol * max (p.dot 0) (p.dot 1) ∧ rd ≤ tol * max (p.dot 3) (max (p.dot 4) (p.dot 5)) then s.dspSolveEnd p 0
  else if passN mb 0x14 2 ≤ p.iter then s.dspSolveEnd p 1
  else
    let e := if p.iter % max 1 (passN mb 0x1A 1) = 0 then rhoStep rp rd else 0
    let rho := if 2 ≤ e ∨ e ≤ -2 then max (passI mb 0x1B) (min (passI mb 0x1C) (p.rho + e)) else p.rho
    if rho = p.rho then s.dspRhs p else s.dspFactor { p with rho := rho }

/-! ### The plan (R319, R323, R324) -/

/-- Rates of one published input repaired, in rising steps, on mantissas; `prev` is u(−1), none for a step 0 held in its box alone. -/
def repair (lo hi fall rise : Int) : Option Int → List Int → List Int
  | _, [] => []
  | prev, u :: t =>
    let x := match prev with
      | some q => max (max lo (q - fall)) (min (min hi (q + rise)) u)
      | none => max lo (min hi u)
    x :: repair lo hi fall rise (some x) t
/-- The published mantissas, input by input, step by step, before and after the repair (R319, R324). -/
def State.published (s : State) (p : Pass) : List Int × List Int :=
  let mb := s.passMb p
  let e := (ownSpec mb 32).e
  let v := s.intsAt p .vp
  let pi := s.planIn p
  let one (i : Nat) : List Int × List Int :=
    let r := limitAt mb i
    let m (x : Int) : Int := mant e (dyad x r.e)
    let raw := (List.range (passN mb 0x20 1)).map fun k => el v (pi.uAt k i)
    (raw, repair (m r.lo) (m r.hi) (m r.fall) (m r.rise) ((pi.prev.getD i none).map (mant e)) raw)
  let l := (List.range p.dim.nu).map one
  (l.flatMap (·.1), l.flatMap (·.2))
/-- The plan's objects for the keeper: the iterate before the last, the published values and their entries (R323, R324). -/
def State.planYard (s : State) (p : Pass) (mb : List Byte) (pub : List Int) : Tab Byte :=
  let a := s.seqAt p.dim
  let c (n : Nat) : List Int := p.origin.getD n []
  let m := putInts (putInts (putInts s.yard (a .cv) (ownSpec mb 32) (c 0)) (a .cz) (ownSpec mb 31) (c 1)) (a .cy) (ownSpec mb 33) (c 2)
  wrBytes (putInts m (a .pubD) (ownSpec mb 32) pub) (a .entD) ((List.range p.dim.nu).flatMap fun i => leBytes 2 ((inputAt mb i).elim 0 (·.sp)))
/-- The final projection ended: the plan is handed over, or the solve runs again once for a lane in doubt (R319, R321, R323, R324). -/
def State.dspDone (s : State) (p : Pass) : State :=
  let mb := s.passMb p
  let a := s.seqAt p.dim
  let o := p.lastOk
  let v := s.intsAt p (pick o .v0 .v1)
  let vp := s.intsAt p .vp
  let clipped := (List.range p.dim.nst).any fun k => (List.range p.dim.nu).any fun i => let n := k * (p.dim.nx + p.dim.nu) + p.dim.nx + i; el v n != el vp n
  let pub := s.published p
  let p := { p with flags := p.flags ||| 2 ^ 18 * b2n clipped ||| 2 ^ 19 * b2n (pub.1 != pub.2) }
  if p.suspect then
    if !p.again && decide (2 * s.time.nsu ≤ p.start + p.due) then s.dspWarm { p with again := true, suspect := false, fails := s.reg R.NSU_LANE_FAILS }
    else s.dspFail p 6
  else
    let s := s.keepIter p
    let next := nextDue p.start (max 1 (s.regN R.DSQ_DSP_PERIOD_S) * tS) (s.regN R.DSQ_DSP_DEADLINE_S * tS)
    match { s with yard := s.planYard p mb pub.2 }.commitRecord 2 (s.regN R.DSQ_DSP_TAG) p next (a .pubD) (a .entD)
        [a .kp, a .ka, a .ah, a (pick o .vt0 .vt1), a .cv, a .cz, a .cy, a .q, a (pick o .rhs0 .rhs1)] with
    | none => s.passEnd 1 p 3
    | some s =>
      let e := (ownSpec mb 32).e
      let k := passN mb 0x20 1
      let u := (List.range p.dim.nu).map fun i => dyad (el pub.2 (k * i)) e
      let x := (s.intsAt p .x0).map fun v => dyad v (ownSpec mb 29).e
      (s.passEnd 1 p p.status).setDsq fun d => { d with hydDue := true, hydIn := ⟨p.slot, u, x⟩ }
/-- A job of a DSP pass ended, the last of its line (R312 to R323). -/
def State.dspJob (s : State) (p : Pass) (j : Job) (cut : Bool) : State :=
  match p.phase with
  | .dspAssemble => if cut then s.dspFail p 3 else s.dspWarm p
  | .dspWarm => if cut then s.dspSolveEnd p 1 else s.dspFactor p
  | .dspFactor =>
    if cut then s.dspSolveEnd p 1
    else (s.setDsq fun d => { d with built := some (s.builtKey p, p.rho) }).dspRhs { p with refac := p.refac + b2n (decide (0 < p.iter)) }
  | .dspRhs => if cut then s.dspSolveEnd p 1 else s.dspPcg p
  | .dspPcg => if j.out = 0 then s.dspUpdate p else s.dspSolveEnd p 1
  | .dspUpdate =>
    if cut then s.dspSolveEnd p 1
    else
      let before (x y : SeqObj) : List Int := s.intsAt p (pick p.iter x y)
      s.dspNorm { p with iter := p.iter + 1, lastOk := p.iter + 1, rhoOk := p.rho, origin := [before .v0 .v1, before .z0 .z1, before .y0 .y1] }
  | .dspNorm => if cut then s.dspSolveEnd p 1 else s.dspIterated p
  | .dspProject => if cut then s.dspFail p 3 else s.dspDone p
  | _ => s

/-! ### The hydraulic pass (R305) -/

/-- The HYD pass begins: the solve on the inputs of step 0, from the newest estimate. -/
def State.hydBegin (s : State) (p : Pass) : State :=
  let mb := s.passMb p
  let d := s.dimOf mb
  let p := { p with dim := d }
  let x := match s.prevEst mb with | some e => e.heads | none => coldHeads mb
  let val (a : AssetIn) : Rat := match s.dsq.hydIn.u[a.dsp]? with | some u => u | none => fixedIn mb a
  let ins := (mdlBranches mb).map (branchIn mb (s.includedOf p mb) val false)
  let s := { s with yard := hydPut s.yard mb (s.hydObj d false) (fillHeads mb x) ins }
  s.hydLine 2 p p.due
/-- The solve ended well: the bias of every reduced output, and the head limits (R305). -/
def State.hydDone (s : State) (p : Pass) : State :=
  let mb := s.passMb p
  let o := s.hydObj p.dim false
  let heads := headVals mb (s.hydHeads o)
  let flows := (s.hydPart mb o 0 p.dim.nb).map fun v => dyad v (expOf (mdlScales mb) 0x14)
  let y := s.varVals mb heads flows [] (idsOf mb 1)
  let h := s.dsq.hydIn
  let red (i : Nat) : Rat := reducedOut mb (fun k => h.x.getD k 0) (fun k => h.u.getD k 0) i
  let bias := (y.zip (List.range y.length)).map fun (e : Rat × Nat) => e.1 - red e.2
  let eh := expOf (mdlScales mb) 2
  let viol := (headLimits mb).any fun e => let x := heads.getD e.1 0; decide (x < dyad e.2.1 eh ∨ dyad e.2.2 eh < x)
  let s := if viol then (s.setFlag R.DSQ_DSP_LAST 24 true).emit evHydViol dsqPage [s.reg R.DSQ_DSP_TAG] else s
  ((s.setPass 2 p).setDsq fun d => { d with biasOld := false, bias := (mdlKey mb, bias) }).hydEnd
/-- A job of a HYD pass ended. -/
def State.hydJob (s : State) (p : Pass) (j : Job) (cut : Bool) : State :=
  if cut then s.passEnd 2 p 3
  else
    let r := s.hydNext 2 p j
    if r.2 then s.hydDone r.1
    else if passN (s.passMb p) 0x10 1 ≤ r.1.iter then s.passEnd 2 r.1 2
    else s.hydLine 2 r.1 p.due

end Sys2Proof.Machine
end

