-- ==== Sys2Proof/Machine/Dsq.lean ====
section
/-! DEFINITION. The Dispatch Sequencer's commands (R284 to R288, R336): passes fall due, jobs and forecasts end. -/

namespace Sys2Proof.Machine

abbrev evDspBusy : Nat := 146

/-! ### Passes fall due -/

/-- Flags every pass starts with (R341): the model's format, the tracker's stale flows and held temperatures. -/
def State.startFlags (s : State) : Nat :=
  b2n (s.flag R.DSQ_MODEL_STAT 17) + 512 * b2n (s.flag R.BTK_STEP_STAT 0) + 2 ^ 17 * b2n (s.flag R.BTK_STEP_STAT 4)
/-- Status of a pass that cannot run (R287): no model, or the NSU or the BTK not in RUN. -/
def State.passBlocked (s : State) : Option Nat :=
  if !s.mdl.act then some 8 else if !s.running nsuPage ∨ !s.running btkPage then some 9 else none
/-- Count a skip in half h of SKIPS (R285). -/
def State.countSkip (s : State) (h : Nat) : State := s.setReg R.DSQ_SKIPS (satIncField (s.reg R.DSQ_SKIPS) (16 * h + 15) (16 * h))
/-- Show BAD_HELD. -/
def State.showHeld (s : State) : State := s.setReg R.DSQ_BAD_HELD (wd s.dsq.held.length)
/-- A pass that falls due on a side that does not act does not start; once it acts, its passes go on from what the partner streamed
(R288). -/
def State.notActing (s : State) : State := s.setDsq fun d => { d with adopt := true }
/-- The pass finds no set that is new enough: MEAS_STALE, recorded once until the next pass with a set (R24, R294). -/
def State.estStale (s : State) : State :=
  (if s.dsq.stale then s else ((s.irq dsqPage 11).emit evMeasStale dsqPage []).setDsq fun d => { d with stale := true }).estEnd 7
/-- EST_PASS (R284 to R294): skipped while one runs; a pending model comes into force first (R157). -/
def execEstPass (s : State) : Host.Outcome State Fault Refusal :=
  if !s.running dsqPage then .next s
  else if !s.acts then .next s.notActing
  else if s.dsq.est.isSome then .next (s.countSkip 0)
  else
    let s := s.seqAdopt.mdlTake
    let now := s.time.nsu
    let p : Pass := { start := now, due := now + s.regN R.DSQ_EST_DEADLINE_MS * tMs, flags := s.startFlags, fails := s.reg R.NSU_LANE_FAILS,
                      slot := s.mdl.slot, iso := s.dsq.iso }
    let s := (s.incReg R.DSQ_EST_TAG).setDsq fun d => { d with est := some p, held := d.held.filterMap fun h => if h.2 ≤ 1 then none else some (h.1, h.2 - 1) }
    let s := (s.setFlag R.DSQ_PASS_STAT 0 true).showHeld
    match s.passBlocked with
    | some st => .next ((if st = 9 then s.errc dsqPage 0x102 1 else s).estEnd st)
    | none =>
      match s.newestSet with
      | none => .next s.estStale
      | some i =>
        if setTime s.yard i + s.regN R.DSQ_MEAS_AGE_MAX_MS * tMs < now then .next s.estStale
        else
          let s := ((s.holdSet i).keepEcho i).setDsq fun d => { d with stale := false }
          .next (s.estBegin { p with buf := some i }).seqPump
/-- A DSP pass starts (R284 to R313). The estimate it plans from is the newest that its echo shows as certified; its certification is taken
to lie no later than its deadline (DEDUCED, log entry 86). -/
def State.dspStart (s : State) : State :=
  let s := s.seqAdopt
  let now := s.time.nsu
  let due := now + s.regN R.DSQ_DSP_DEADLINE_S * tS
  let dt := max 1 (stepLen s.mdlBytes)
  let p : Pass := { start := now, due := due, flags := s.startFlags, fails := s.reg R.NSU_LANE_FAILS, planT0 := due / dt * dt, slot := s.mdl.slot }
  let s := ((s.incReg R.DSQ_DSP_TAG).setDsq fun d => { d with dsp := some p }).setFlag R.DSQ_PASS_STAT 1 true
  match s.passBlocked with
  | some st => (if st = 9 then s.errc dsqPage 0x102 2 else s).dspEnd st 0
  | none =>
    match s.newestSet with
    | none => s.dspEnd 11 0
    | some i =>
      let tag := rdN s.yard (setBase i + 0x48) 4
      let lim := (s.regN R.DSQ_EST_DEADLINE_MS + 1000) * tMs
      match s.dsq.ests.find? fun e => e.tag == tag && decide (now ≤ e.start + s.regN R.DSQ_EST_DEADLINE_MS * tMs + lim) with
      | none => s.dspEnd 11 0
      | some e =>
        let d := s.dimOf s.mdlBytes
        if s.seqFull d then (s.errc dsqPage 0x101 1).dspEnd 10 0
        else
          let s := (s.holdSet i).keepEcho i
          let b := p.planT0 / dt
          let full := (List.range 16).all fun k => s.dsq.hist.any fun e => e.1 + k + 1 == b
          let f := s.takeFc { p with dim := d, buf := some i, heads := e.heads, flags := p.flags ||| 2 ^ 14 * b2n (!full) ||| 2 ^ 15 * b2n s.dsq.biasOld }
          (f.1.dspForecast f.2).seqPump
/-- DSP_PASS. -/
def execDspPass (s : State) : Host.Outcome State Fault Refusal :=
  if !s.running dsqPage then .next s
  else if !s.acts then .next s.notActing
  else if s.dsq.dsp.isSome then .next (s.countSkip 1)
  else .next s.dspStart
/-- DSP_NOW (R284, R285). -/
def execDspNow (who : Initiator) (s : State) : Host.Outcome State Fault Refusal :=
  .next (s.gate who R.DSQ_CMD fun s =>
    if !s.running dsqPage ∨ !s.acts then s
    else if s.dsq.dsp.isSome then s.emit evDspBusy dsqPage [s.reg R.DSQ_DSP_TAG]
    else s.dspStart)
/-- HYD_PASS: at the end of a DSP pass that handed a plan over, on the model of that pass (R158, R284, R305). -/
def execHydPass (s : State) : Host.Outcome State Fault Refusal :=
  if !s.running dsqPage ∨ !s.acts ∨ !s.dsq.hydDue ∨ s.dsq.hyd.isSome then .next s
  else
    let s := s.setDsq fun d => { d with hydDue := false }
    match s.passBlocked with
    | some st => .next ((if st = 9 then s.errc dsqPage 0x102 3 else s).setDsq fun d => { d with biasOld := true })
    | none =>
      let p : Pass := { start := s.time.nsu, due := s.time.nsu + 5 * tS, fails := s.reg R.NSU_LANE_FAILS, slot := s.dsq.hydIn.slot, buf := s.newestSet }
      .next ((s.setFlag R.DSQ_PASS_STAT 2 true).hydBegin p).seqPump

/-! ### Jobs and forecasts end -/

/-- The pass that waits for a job goes on: at once to its end where the outcome says so, to the next job of its line, or to what follows
the line (R294, R304, R314, R318, R322). -/
def State.seqJob (s : State) (j : Job) : State :=
  match [0, 1, 2].find? fun k => match s.passOf k with | some p => p.await == some j.idx | none => false with
  | none => s
  | some k => match s.passOf k with
    | none => s
    | some p0 =>
      let p := s.marked p0 j
      let cut := j.out == 2 || j.out == 3
      match hardEnd j.out (k == 1) with
      | some st => if k = 1 then s.dspFail p st else s.passEnd k p st
      | none =>
        if !cut && !p.todo.isEmpty then s.setPass k p
        else
          let p := { p with todo := [] }
          if k = 0 then s.estJob p j cut else if k = 1 then s.dspJob p j cut else s.hydJob p j cut
/-- JOB_END: the i-th running job ends; its record, what the error that ended it does, then its pass (R194, R201). `fixed` are the words
that its reads corrected since it was taken, `core` those that the Sequencer's core then corrected (R171). -/
def execJobEnd (i : Nat) (iterNs : Word) (fixed core : List Word) (s : State) : Host.Outcome State Fault Refusal :=
  match s.nsu.jobs[i]? with
  | none => .next s
  | some j => if !s.up 4 then .next s else .next (((((s.jobFinish j iterNs).jobMet j).yardFixed fixed).seqJob j).yardFixed core).seqPump
/-- The forecast of a DSP pass left RUNNING: the program is built and assembled on its delays (R145, R312), or the pass ends JOB_ERR where
it was cancelled or aborted (DESIGN CHOICE, log entry 86). -/
def State.forecastOver (s : State) (code : Nat) : State :=
  match s.dsq.dsp with
  | none => s
  | some p =>
    if p.phase ≠ .dspForecast then s
    else if code ≠ 2 ∧ code ≠ 3 then s.passEnd 1 p 5
    else
      let mb := s.passMb p
      let d := s.takeDelays p
      let p := { p with del := d.1, flags := p.flags ||| 2 ^ 13 * b2n (code == 3) ||| 2 ^ 10 * b2n d.2 }
      (s.dspBuild p (headVals mb (fillHeads mb p.heads))).seqPump
/-- FORECAST_END (R277, R282, R312): the table's rows, the last completed one repeated; then the pass that waits for it. -/
def execForecastEnd (why : FcEnd) (s : State) : Host.Outcome State Fault Refusal :=
  if s.btk.fc.isNone then .next s
  else .next ((s.fcFinish why).forecastOver (match why with | .done => 2 | .deadline _ => 3 | .aborted => 5))
/-- FC_CMD.CANCEL (R282). -/
def execFcCancel (who : Initiator) (s : State) : Host.Outcome State Fault Refusal :=
  .next (s.gate who R.BTK_FC_CMD fun s =>
    if s.fld R.BTK_FC_STAT 2 0 = 1 then
      (((s.setReg R.BTK_FC_STAT 4).irq btkPage 9).setBtk fun b => { b with fc := none }).forecastOver 4
    else s)

/-! ### Block states -/

/-- Configuration for RUN (R336). -/
def State.dsqBad (s : State) : Option (Nat × Nat) :=
  let r (a : Nat) : Nat := s.regN a
  if r R.DSQ_EST_PERIOD_MS < 50 ∨ 10000 < r R.DSQ_EST_PERIOD_MS then some (4, 0x100)
  else if r R.DSQ_EST_DEADLINE_MS < 10 ∨ r R.DSQ_EST_PERIOD_MS < r R.DSQ_EST_DEADLINE_MS then some (4, 0x104)
  else if r R.DSQ_DSP_PERIOD_S < 10 ∨ 3600 < r R.DSQ_DSP_PERIOD_S then some (4, 0x108)
  else if r R.DSQ_DSP_DEADLINE_S < 1 ∨ r R.DSQ_DSP_PERIOD_S ≤ r R.DSQ_DSP_DEADLINE_S then some (4, 0x10C)
  else if r R.DSQ_MEAS_AGE_MAX_MS < 50 ∨ 60000 < r R.DSQ_MEAS_AGE_MAX_MS then some (4, 0x110)
  else if r R.DSQ_CL_GROUPS &&& 0xF0F ≠ r R.DSQ_CL_GROUPS then some (4, 0x114)
  else if r R.DSQ_WORK_BASE % 64 ≠ 0 ∨ r R.DSQ_WORK_BASE < 0x20000000 then some (4, 0x118)
  else if handoff < r R.DSQ_WORK_BASE + r R.DSQ_WORK_LEN then some (4, 0x11C)
  else if r R.DSQ_FC_IN_ADDR_LO % 64 ≠ 0 then some (4, 0x120)
  else none
/-- A stop: passes end STOPPED; a pending model comes into force at once (R160, R322). -/
def State.dsqStop (s : State) : State := s.passesStopped.mdlTake

end Sys2Proof.Machine
end

