-- ==== Sys2Proof/Machine/Kpr.lean ====
section
/-! DEFINITION. The keeper: result checker, setpoint table, mirror, keeper tables, output enables, emergency inputs and
faults (R324 to R332, R566, R586 to R615, R703, R708, R729 to R731). -/

namespace Sys2Proof.Machine

def State.setKpr (s : State) (f : KprSt → KprSt) : State := { s with kpr := f s.kpr }
/-- The keeper cores run: PD_KPR is up and no comparator fault stopped them (R610). -/
def State.kprCores (s : State) : Bool := s.up 2 && !s.kpr.stopped

/-! ### Binary32 -/

/-- Round m·2^e to binary32, ties to even; a value beyond the format is infinite (R326). -/
def f32Of (m e : Int) : Word :=
  let n := m.natAbs
  let sg : Nat := if m < 0 then 2 ^ 31 else 0
  if n = 0 then 0
  else
    let top : Int := (n.log2 : Nat) + e
    -- exponent of the unit in the last place
    let u : Int := max (top - 23) (-149)
    let q : Nat := (rescale n e u).toNat
    -- q is at most 2^24; 2^24 carries into the next exponent
    let w : Nat := if u = -149 ∧ q < 2 ^ 24 then q else (u + 149).toNat * 2 ^ 23 + q
    wd (sg + min w 0x7F800000)
/-- One unit in the last place of a binary32 value. -/
def f32Ulp (w : Word) : Rat := dyad 1 ((max 1 (bits w 30 23) : Nat) - 150)
/-- m·2^e rounded to binary32, as a value. -/
def f32Val (m e : Int) : Rat := f32V (f32Of m e)

/-! ### The setpoint table (R25, R329) -/

/-- Offset of entry n in a half. -/
abbrev spEnt (n : Nat) : Nat := 64 + 16 * n
/-- STATE of entry n. -/
def spState (h : Tab Byte) (n : Nat) : Nat := rdN h (spEnt n + 8) 4 % 4
/-- A half with the state of an entry replaced. -/
def spSetState (h : Tab Byte) (n st : Nat) : Tab Byte := wrN h (spEnt n + 8) 4 (rdN h (spEnt n + 8) 4 / 4 * 4 + st)
/-- Entries of a kind: 0 to 255 dispatch, 256 to 511 estimates. -/
def spRange (k : Kind) : List Nat := match k with | .dsp => List.range 256 | .est => (List.range 256).map (· + 256)
/-- Entries of a kind in one of the states `from'` take state `to'`. -/
def spMove (k : Kind) (from' : List Nat) (to' : Nat) (h : Tab Byte) : Tab Byte :=
  (spRange k).foldl (fun (h : Tab Byte) n => if from'.contains (spState h n) then spSetState h n to' else h) h
/-- Standing causes against ball n, as bits of ARM_REFUSED (R596, R597). -/
def State.armCauses (s : State) (n : Nat) : Nat :=
  b2n (s.kpr.cause != 0 || !s.kprService) + 2 * b2n (s.emgOn n) + 4 * b2n (s.tripOn n) + 8 * b2n s.pwr.saving + 16 * b2n s.pwr.clkFault + 32 * b2n (!s.kpr.gate)
/-- Set ARMED for the balls of a mask without a standing cause. -/
def State.armBalls (s : State) (mask : Nat) : State :=
  let ok := (List.range 4).filter fun n => mask.testBit n && s.armCauses n == 0
  (ok.foldl (fun (s : State) n => s.setFlag R.KPR_SAFE_STAT (8 + n) true) s).safeUpdate
/-- The start gate opens when the table first shows an EST_TAG, and a saved ARMED mask is armed once (R703, R708). -/
def State.gateCheck (s : State) : State :=
  if s.kpr.gate ∨ rdN s.spHalf 8 4 = 0 then s
  else
    let s := s.setKpr fun k => { k with gate := true }
    match s.kpr.rearm with
    | none => s
    | some m => (s.armBalls m.toNat).setKpr fun k => { k with rearm := none }
/-- Write the inactive half and swap by one write of the generation counter (R25); the acting side mirrors the new half
in three chunks, followed by the digest of its limit table (R566). -/
def State.swapTo (s : State) (h : Tab Byte) : State :=
  let g := (s.kpr.gen + 1) % 2 ^ 32
  let h := wrN h 0 4 g
  let s := s.setKpr fun k => if g % 2 = 0 then { k with gen := g, half0 := h } else { k with gen := g, half1 := h }
  let s :=
    if s.acts && s.paired && s.proto == 2 then
      let b := rdBytes h 0 0x2040 ++ s.limitDigest
      (List.range 3).foldl (fun (s : State) i => s.plkSend 0x30 2 i false ((b.drop (4096 * i)).take 4096)) s
    else s
  s.gateCheck
/-- Swap in a half unless nothing changed. -/
def State.swapIf (s : State) (h : Tab Byte) : State := if h = s.spHalf then s else s.swapTo h

/-! ### The limit table (R590, R591) -/

/-- The limit table in force. -/
def State.limTable (s : State) : Option (List Byte) := (copyNewest s.kpr.limit).map (·.2)
/-- Record of a setpoint entry. -/
def limOf (l : List LimRec) (n : Nat) : Option LimRec := l.find? fun r => r.sp == n

/-! ### Handoff records as read (R324) -/

def kindNum : Kind → Nat | .est => 1 | .dsp => 2
/-- Address of the newer record of a kind, and its SEQ. -/
def State.newestRec (s : State) (k : Kind) : Nat × Nat :=
  let a := handoff + (match k with | .est => 0 | .dsp => 0x200)
  let q0 := rdN s.yard a 8
  let q1 := rdN s.yard (a + 0x100) 8
  if q0 < q1 then (a + 0x100, q1) else (a, q0)
/-- Device time in an 8-byte field of a record. -/
def timeAt (b : List Byte) (o : Nat) : Nat := fieldN b o 4 * 2 ^ 32 + fieldN b (o + 4) 4 * tS
/-- Published steps of a record: one for an estimate. -/
def recSteps (k : Kind) (b : List Byte) : Nat := match k with | .est => 1 | .dsp => max 1 (fieldN b 0xA 1)
/-- Header of the published values, the entry numbers, and the mantissas entry by entry, step by step. -/
def State.recVals (s : State) (k : Kind) (b : List Byte) : VHdr × List (Nat × List Int) :=
  let h := rdVHdr s.yard (fieldN b 0x30 4)
  let n := recSteps k b
  let vs := h.read s.yard
  let ea := fieldN b 0x34 4
  (h, (List.range (h.len / n)).map fun i => (rdN s.yard (ea + 2 * i) 2, (vs.drop (n * i)).take n))

/-! ### The tests of R325 -/

/-- An exact vector: mantissas and their scale. The spec names no scale for the checker's intermediate vectors (log entry 23). -/
abbrev XVec := List Int × Int
def xRead (m : Tab Byte) (a : Nat) : XVec := let h := rdVHdr m a; (h.read m, h.e)
def xMul (a : Mat) (x : XVec) : XVec := ((List.range a.rows).map fun i => (a.rowTerms x.1 i).foldl (· + ·) 0, a.e + x.2)
def xMulT (a : Mat) (x : XVec) : XVec := ((List.range a.cols).map fun i => (a.colTerms x.1 i).foldl (· + ·) 0, a.e + x.2)
def xAlign (e : Int) (x : XVec) : List Int := x.1.map fun v => v * 2 ^ (x.2 - e).toNat
def xSub (x y : XVec) : XVec :=
  let e := min x.2 y.2
  let b := xAlign e y
  (((xAlign e x).zip (List.range x.1.length)).map fun (p : Int × Nat) => p.1 - el b p.2, e)
def xHad (x y : XVec) : XVec := ((x.1.zip y.1).map fun p => p.1 * p.2, x.2 + y.2)
def xShift (x : XVec) (k : Int) : XVec := (x.1, x.2 + k)
/-- Squared norm in scalar format (R602). -/
def xNorm (x : XVec) : Option Rat := (toScalar (x.1.foldl (fun (a : Int) v => a + v * v) 0) (2 * x.2)).map Scal.val
/-- ‖e‖² ≤ 2^(−2T)·‖r‖². -/
def xSmall (t : Nat) (e r : XVec) : Bool :=
  match xNorm e, xNorm r with
  | some a, some b => decide (a * ((2 ^ (2 * t) : Nat) : Rat) ≤ b)
  | _, _ => false
/-- EST: g = HᵀW(r − HΔx) against g₀ = HᵀWr. -/
def State.estResidual (s : State) (b : List Byte) (t : Nat) : Bool :=
  let m := s.yard
  let a (o : Nat) : Nat := fieldN b o 4
  let h := (rdMHdr m (a 0x40)).mat m
  let w := xRead m (a 0x44)
  let r := xRead m (a 0x48)
  let g := xMulT h (xHad w (xSub r (xMul h (xRead m (a 0x4C)))))
  xSmall t g (xMulT h (xHad w r))
/-- DSP: rhs = σv − q + A_hᵀ(ρz − y), then e = rhs − KP·ṽ − ρ·KA·ṽ, both against rhs. -/
def State.dspResidual (s : State) (b : List Byte) (t : Nat) : Bool :=
  let m := s.yard
  let a (o : Nat) : Nat := fieldN b o 4
  let mat (o : Nat) : Mat := (rdMHdr m (a o)).mat m
  let rho := sext 8 (fieldN b 0x64 1)
  let sig := sext 8 (fieldN b 0x65 1)
  let vt := xRead m (a 0x4C)
  let u := xMulT (mat 0x48) (xSub (xShift (xRead m (a 0x54)) rho) (xRead m (a 0x58)))
  let sv := xSub (xShift (xRead m (a 0x50)) sig) (xRead m (a 0x5C))
  let rhs := xSub sv (u.1.map fun v => -v, u.2)
  let e := xSub (xSub rhs (xMul (mat 0x40) vt)) (xShift (xMul (mat 0x44) vt) rho)
  xSmall t e rhs && xSmall t (xSub rhs (xRead m (a 0x60))) rhs
/-- Every published input lies in its box. -/
def inBox (l : List LimRec) (e : Int) (v : Nat × List Int) : Bool :=
  match limOf l v.1 with
  | none => false
  | some r => v.2.all fun m => decide (dyad r.lo r.e ≤ dyad m e ∧ dyad m e ≤ dyad r.hi r.e)
/-- Every published step keeps its rates, from the value in force unless that entry is NONE or EXPIRED. -/
def inRate (l : List LimRec) (half : Tab Byte) (e : Int) (v : Nat × List Int) : Bool :=
  match limOf l v.1 with
  | none => false
  | some r =>
    let rise := dyad r.rise r.e
    let fall := dyad r.fall r.e
    let vs := v.2.map fun m => dyad m e
    let st := spState half v.1
    let f := max (dyad r.lo r.e) (min (dyad r.hi r.e) (f32V (wd (rdN half (spEnt v.1) 4))))
    let seq : List Rat := if st = 1 ∨ st = 2 then f :: vs else vs
    (seq.zip (seq.drop 1)).all fun (p : Rat × Rat) => decide (p.2 - p.1 ≤ rise ∧ p.1 - p.2 ≤ fall)
/-- Verdict of a check by the tests in order; 0 passes (R325, R607). -/
def State.verdict (s : State) (k : Kind) (c : Check) : Nat :=
  let b := c.body
  let vals := s.recVals k b
  let t := c.tK
  match c.lim with
  | none => if timeAt b 0x18 < c.t then 1 else 2
  | some lt =>
    let l := limRecs lt
    if timeAt b 0x18 < c.t then 1
    else if fieldN b 0x38 8 ≠ limLayout lt ∨ (b.drop 0x90).take 32 ≠ digest32 lt then 2
    else if !(vals.2.all fun (v : Nat × List Int) => v.2.all fun m => decide (m.natAbs ≤ vals.1.bound)) then 3
    else match k with
      | .est => if !s.estResidual b t then 4 else 0
      | .dsp =>
        if !s.dspResidual b t then 4
        else if !vals.2.all (inBox l vals.1.e) then 5
        else if !vals.2.all (inRate l s.spHalf vals.1.e) then 6
        else 0

/-! ### Publishing (R326, R330) -/

/-- An emergency input with VETO is latched (R599). -/
def State.vetoed (s : State) : Bool := (List.range 4).any fun i => s.emgLatched.testBit i && s.flag (R.KPR_EMG_CFG i) 2
/-- VAR_ID of an entry: the asset input's, or the estimated variable's (R147, R303, R329). -/
def varId (b : List Byte) (n : Nat) : Nat :=
  if n < 256 then match (assetInputs b).find? fun e => e.sp == n with | some e => e.id | none => 0
  else match (pubList b).find? fun e => e.2 == n with | some e => e.1 | none => 0
/-- Write VALUE and NEXT of an entry. -/
def spPut (h : Tab Byte) (n : Nat) (v x : Word) : Tab Byte := wrN (wrN h (spEnt n) 4 v.toNat) (spEnt n + 4) 4 x.toNat
/-- The step of a plan that covers a time, held in its published steps. -/
def stepAt (t t0 dt k : Nat) : Nat := if t < t0 ∨ dt = 0 then 0 else min (k - 1) ((t - t0) / dt)
/-- A record that passed is published: values of its steps, states CURRENT, T_CERT, NEXT_DUE (R326). The handoff marks no
single entry as clamped, so an entry's PROJECTED or RATE_REPAIRED is clear in a pass without that flag and free in one with it. -/
def State.publishRec (s : State) (k : Kind) (b : List Byte) : State :=
  let v := s.recVals k b
  let now := s.time.kpr
  let n := recSteps k b
  let t0 := timeAt b 0x28
  let dt := 60 * fieldN s.mdlBytes 0x2E 2
  let i := match k with | .est => 0 | .dsp => stepAt now t0 (dt * tS) n
  let w (l : List Int) (j : Nat) : Word := f32Of (el l (min j (n - 1))) v.1.e
  let fl := fieldN b 0x10 4
  let mb := s.mdlBytes
  let f := s.fresh
  let s := f.2
  let mark (e : Nat) : Nat :=
    4 * b2n (fl.testBit 18 && f.1.getLsbD (e % 32)) + 8 * b2n (fl.testBit 19 && f.1.getLsbD (32 + e % 32))
  let h := v.2.foldl (fun (h : Tab Byte) (e : Nat × List Int) =>
    if e.1 < 512 then wrN (wrN (spPut h e.1 (w e.2 i) (w e.2 (i + 1))) (spEnt e.1 + 8) 4 (1 + mark e.1)) (spEnt e.1 + 12) 4 (varId mb e.1) else h) s.spHalf
  let h := match k with
    | .est => wrBytes (wrN h 8 4 (fieldN b 0xC 4)) 0x18 (timeBytes now)
    | .dsp => wrN (wrN (wrBytes (wrBytes (wrN (wrN (wrN h 4 4 (fieldN b 0xC 4)) 0xC 1 i) 0xD 1 n) 0x10 (timeBytes now)) 0x20 ((b.drop 0x28).take 8))
        0x28 4 dt) 0x2C 4 (fieldN b 0x14 4)
  let h := wrBytes h 0x30 ((b.drop 0x38).take 8)
  let s := s.setKpr fun q => match k with
    | .est => q
    | .dsp => { q with steps := (List.range n).map fun j => v.2.map fun (e : Nat × List Int) => (e.1, w e.2 j, w e.2 (j + 1)) }
  s.swapTo h
/-- CURRENT entries of a kind become AGED (R327, R328). -/
def State.ageKind (s : State) (k : Kind) : State := s.swapIf (spMove k [1] 2 s.spHalf)
/-- A verdict is given: its registers; a failed one is counted, logged and ages the kind (R327, R613). -/
def State.giveVerdict (s : State) (k : Kind) (c : Check) (v : Nat) (us : Word) : State :=
  let tag := fieldN c.body 0xC 4
  let s := s.setRegs [(R.KPR_CHK_LAST, wd (kindNum k + 256 * v)), (R.KPR_CHK_TAG, wd tag), (R.KPR_CHK_US, us)]
  if v = 0 then s.publishRec k c.body
  else if v = 9 then s.incReg R.KPR_CHK_VETOED
  else if v = 8 then s.incReg R.KPR_CHK_OVERTAKEN
  else (((s.incReg R.KPR_CHK_FAILS).irq kprPage 10).slog slVerdict (kindNum k + 256 * v + 2 ^ 32 * tag)).ageKind k

/-! ### Polls and checks (R324, R603 to R607) -/

/-- `seen` keeps for each kind the newest SEQ read, ten above the time it was first read, twenty above the SEQ checked last. -/
def State.seenAt (s : State) (k : Kind) (o : Nat) : Nat := s.kpr.seen.get (fun _ => 0) (o + kindNum k)
def State.setSeen (s : State) (k : Kind) (o v : Nat) : State := s.setKpr fun q => { q with seen := q.seen.set (fun _ => 0) (o + kindNum k) v }
/-- Note the newest SEQ of a kind with the time at which it is first read (R603). -/
def State.noteSeq (s : State) (k : Kind) : State :=
  let n := (s.newestRec k).2
  if n ≤ s.seenAt k 0 then s else (s.setSeen k 0 n).setSeen k 10 s.time.kpr
/-- Start a check of the newest record of a kind, unless it was checked. -/
def State.startCheck (s : State) (k : Kind) : State :=
  let a := s.newestRec k
  if a.2 ≤ s.seenAt k 20 then s
  else
    let c : Check := ⟨rdBytes s.yard a.1 256, a.1, a.2, s.seenAt k 10, s.limTable, s.regN R.KPR_T_K⟩
    (((s.setSeen k 20 a.2).setKpr fun q => { q with chk := q.chk.set (fun _ => none) (kindNum k) (some c) })).setFlag R.KPR_KSTAT (7 + kindNum k) true
/-- The check of a kind ends. -/
def State.endCheck (s : State) (k : Kind) : State :=
  (s.setKpr fun q => { q with chk := q.chk.set (fun _ => none) (kindNum k) none }).setFlag R.KPR_KSTAT (7 + kindNum k) false
/-- A check of a kind runs. -/
def State.checking (s : State) (k : Kind) : Bool := (s.kpr.chk.get (fun _ => none) (kindNum k)).isSome
/-- A new record of a kind must wait for the checker: no check is interrupted but a DSP check, by an EST record (R604). -/
def State.chkBusy (s : State) (k : Kind) : Bool := s.checking .est || (k == .dsp && s.checking .dsp)
/-- Read the SEQs of a kind: a new record is ignored on a side that does not act, else checked when the checker is free for
it (R603, R604, R607). -/
def State.pollKind (s : State) (k : Kind) : State :=
  let new := decide (s.seenAt k 0 < (s.newestRec k).2)
  let s := s.noteSeq k
  if !s.acts then (if new then (s.incReg R.KPR_CHK_IGNORED).setSeen k 20 (s.newestRec k).2 else s)
  else if s.chkBusy k then s
  else s.startCheck k
/-- KEEPER_POLL (R324). -/
def execKeeperPoll (s : State) : Host.Outcome State Fault Refusal :=
  if !s.kprCores || s.kpr.cause != 0 || !s.locked 5 then .next s else .next ((s.pollKind .est).pollKind .dsp)
/-- CHECK_DONE: the check of a kind ends; its tests decide unless its record was overtaken, could not be read, or the
known-answer test failed (R325, R605, R606). A side that no longer acts gives no verdict and counts the record as ignored
(R607). -/
def execCheckDone (kind : Kind) (cut : CheckCut) (us : Word) (s : State) : Host.Outcome State Fault Refusal :=
  match s.kpr.chk.get (fun _ => none) (kindNum kind) with
  | none => .next s
  | some c =>
    if !s.kprCores then .next s
    else if cut = .katFail then .next ((s.endCheck kind).keeperFault 3)
    else
      let s := s.endCheck kind
      if !s.acts then .next (s.incReg R.KPR_CHK_IGNORED)
      else if rdN s.yard c.at' 8 ≠ c.seq then .next (((s.giveVerdict kind c 8 us).noteSeq kind).startCheck kind)
      else
        let v := if cut = .readErr then 7 else s.verdict kind c
        let v := if v = 0 ∧ kind = .dsp ∧ s.vetoed then 9 else v
        .next (s.giveVerdict kind c v us)

/-! ### Ageing of the table (R328 to R332) -/

/-- The keeper still changes states: its cores run (R30). -/
def State.tableLive (s : State) : Bool := s.kprCores
/-- PLAN_STEP: at PLAN_T0 + s·Δt the values of step s are swapped in, states kept. A mirrored half brings one later step; the
steps beyond it are on the failed side only, so those values are free (R330, log entry 24). -/
def execPlanStep (s : State) : Host.Outcome State Fault Refusal :=
  let h := s.spHalf
  let i := rdN h 0xC 1 + 1
  let n := rdN h 0xD 1
  if !s.tableLive || !s.acts || decide (n ≤ i) then .next s
  else
    let h := wrN h 0xC 1 i
    match s.kpr.steps[i]? with
    | some l => .next (s.swapTo (l.foldl (fun (h : Tab Byte) (e : Nat × Word × Word) => if e.1 < 512 then spPut h e.1 e.2.1 e.2.2 else h) h))
    | none =>
      let f := s.free
      let s := { s with free := f + 256 }
      let x (e : Nat) (v : Word) : Word := if i + 1 = n then v else (Config.freeBits (f + e)).setWidth 32
      .next (s.swapTo ((List.range 256).foldl (fun (h : Tab Byte) e =>
        if spState h e = 0 then h
        else
          let v := wd (rdN h (spEnt e + 4) 4)
          spPut h e v (x e v)) h))
/-- NEXT_DUE: no newer result of the kind was certified in time (R328). -/
def execNextDue (kind : Kind) (s : State) : Host.Outcome State Fault Refusal := .next (if s.tableLive then s.ageKind kind else s)
/-- ENTRY_EXPIRE: the lifetime of a kind, or the last published step of its plan, has passed (R331). -/
def execEntryExpire (kind : Kind) (s : State) : Host.Outcome State Fault Refusal :=
  .next (if s.tableLive then s.swapIf (spMove kind [1, 2] 3 s.spHalf) else s)

/-! ### The mirror on a standby (R566, R607, R730) -/

/-- Binary32 VALUE and NEXT of an entry. -/
def spVal (h : Tab Byte) (n o : Nat) : Word := wd (rdN h (spEnt n + o) 4)
/-- A difference of two values as held exceeds its limit by more than a unit in the last place of each. -/
def rateOk (r : LimRec) (a b : Word) : Bool :=
  let tol := f32Ulp a + f32Ulp b
  let d := f32V b - f32V a
  decide (d ≤ f32Val r.rise r.e + tol ∧ -d ≤ f32Val r.fall r.e + tol)
/-- The test of R325 that a mirrored half fails, 0 for none. Entries in state NONE carry no value and are not compared. -/
def State.mirrorTest (s : State) (h : Tab Byte) (dig : List Byte) : Nat :=
  match s.limTable with
  | none => 2
  | some lt =>
    let l := limRecs lt
    let sc := mdlScales s.mdlBytes
    let held := s.spHalf
    let es := (List.range 256).filter fun n => spState h n != 0
    let both (n : Nat) (p : Rat → Bool) : Bool := p (f32V (spVal h n 0)) && p (f32V (spVal h n 4))
    let boundOk (n : Nat) : Bool :=
      match limOf l n with
      | none => true
      | some r => match scaleOf sc r.arr with
        | none => true
        | some x => let b := f32Val x.bound x.e; both n fun v => decide (-b ≤ v ∧ v ≤ b)
    let boxOk (n : Nat) : Bool :=
      match limOf l n with
      | none => true
      | some r => both n fun v => decide (f32Val r.lo r.e ≤ v ∧ v ≤ f32Val r.hi r.e)
    let next := rdN h 4 4 == rdN held 4 4 && rdN h 0xC 1 == rdN held 0xC 1 + 1
    let rOk (n : Nat) : Bool :=
      match limOf l n with
      | none => true
      | some r =>
        rateOk r (spVal h n 0) (spVal h n 4) &&
          (spState held n == 0 || spState held n == 3 || rateOk r (spVal held n (if next then 4 else 0)) (spVal h n 0))
    if rdN h 0x30 8 ≠ limLayout lt ∨ dig ≠ s.limitDigest then 2
    else if !es.all boundOk then 3
    else if !es.all boxOk then 5
    else if !es.all rOk then 6
    else 0
/-- KEEPER: the third chunk completes a half, which is judged and held (R566). With a veto latched its plan entries are held
as EXPIRED (R599). -/
def execKeeper (h : PairHdr) (chunk : Fin 3) (data : List Byte) (s : State) : Host.Outcome State Fault Refusal :=
  .next (s.keep h 2 fun s =>
    if s.acts ∨ s.proto = 1 ∨ !s.kprCores ∨ s.kpr.cause ≠ 0 then s
    else
      let old : Tab (List Byte) := if chunk.val = 0 then [] else s.kpr.mirror
      let m := Tab.set (fun _ => []) old chunk.val data
      let s := s.setKpr fun k => { k with mirror := m }
      if (List.range 3).any fun i => (Tab.get (fun _ => []) m i).isEmpty then s
      else
        let b := (List.range 3).flatMap fun i => Tab.get (fun _ => []) m i
        let half := wrBytes [] 0 (b.take 0x2040)
        let s := s.setKpr fun k => { k with mirror := [] }
        let t := s.mirrorTest half ((b.drop 0x2040).take 32)
        if t ≠ 0 then s.slog slMirror t
        else
          let s := s.setKpr fun k => { k with steps := [] }
          let veto := s.vetoed && (List.range 256).any fun n => spState half n == 1 || spState half n == 2
          if veto then (s.incReg R.KPR_CHK_VETOED).swapTo (spMove .dsp [1, 2] 3 half) else s.swapTo half)

/-! ### Watchdog, emergency inputs, keeper faults (R599, R600, R609, R610) -/

/-- WDOG_TRIP: the cycle limit passed; not while the watchdog is suspended (R354, R600). -/
def execWdogTrip (s : State) : Host.Outcome State Fault Refusal :=
  if s.kpr.wdFrom.isNone || !s.kprCores || s.pwr.saving then .next s
  else .next (s.trip 0 0x101 (min s.wdElapsed 65535))
/-- EMG_ASSERT: input i is asserted; one that is asserted already is not asserted again before its release (R599). -/
def execEmgAssert (i : Fin 4) (s : State) : Host.Outcome State Fault Refusal :=
  if !s.kprCores || s.flag R.KPR_EMG_STAT i.val then .next s
  else
    let c := s.reg (R.KPR_EMG_CFG i.val)
    let s := ((s.setFlag R.KPR_EMG_STAT i.val true).setFlag R.KPR_EMG_STAT (8 + i.val) true).irq kprPage 9
    let s := s.safeUpdate.slog slEmg (i.val + 256 * b2n (bit c 0))
    let s := if bit c 2 then s.swapIf (spMove .dsp [1, 2] 3 s.spHalf) else s
    .next (if bit c 1 && !s.pwr.saving then s.trip 2 0x106 i.val else s)
/-- EMG_RELEASE: the input is no longer asserted; its latch stays (R599). -/
def execEmgRelease (i : Fin 4) (s : State) : Host.Outcome State Fault Refusal :=
  .next (if s.kprCores then s.setFlag R.KPR_EMG_STAT i.val false else s)
/-- LOCKSTEP (R586, R610). -/
def execLockstep (s : State) : Host.Outcome State Fault Refusal := .next (if s.kprCores then s.keeperFault 1 else s)
/-- KEEPER_TCM_UE: an uncorrectable error in the state of KPR takes it to FAULT (R91), and the keeper stops (R610). -/
def execKeeperTcmUe (s : State) : Host.Outcome State Fault Refusal :=
  .next (if s.kprCores then (((s.statBit kprPage sbUe true).irq kprPage 5).toFault kprPage).keeperFault 2 else s)
/-- SLOG_INDEX: select a ring slot, the one KPR write open to the management cores (R614). -/
def execSlogIndex (who : Initiator) (val : Word) (s : State) : Host.Outcome State Fault Refusal :=
  .next (s.gate who R.KPR_SLOG_INDEX fun s => s.setReg R.KPR_SLOG_INDEX (val &&& 0x1FFF))

/-! ### Keeper tables (R590 to R595, R612, R729) -/

/-- A byte list is zero. -/
def allZero (l : List Byte) : Bool := l.all (· == 0)
/-- A complete safe-value table: ACTION and reserved bytes of every record (R357, R729). -/
def safeOk (t : List Byte) : Bool := (chunks (t.length / 16) 16 t).all fun r => decide ((r.headD 0).toNat ≤ 2) && allZero ((r.drop 1).take 7)
/-- A complete limit table: none, or the reason of its refusal. -/
def limBad (t : List Byte) : Option Nat :=
  let n := fieldN t 0 4
  let rs := limRecs t
  if t.length ≠ 16 + 40 * n then some 3
  else if 256 < n ∨ !allZero ((t.drop 12).take 4) then some 4
  else if !((chunks n 40 (t.drop 16)).all fun r => allZero ((r.drop 5).take 3)) then some 4
  else if !(rs.all fun r => decide (r.sp ≤ 255 ∧ -96 ≤ r.e ∧ r.e ≤ 32 ∧ r.lo ≤ r.hi ∧ 0 ≤ r.rise ∧ 0 ≤ r.fall)) then some 4
  else if !decide ((rs.map (·.sp)).Pairwise (· < ·)) then some 4
  else none
/-- A complete parameter table holds values in the ranges of R612. -/
def paramOk (t : List Byte) : Bool :=
  let w (i : Nat) : Nat := fieldN t (4 * i) 4
  decide (1 ≤ w 0 ∧ w 0 ≤ 1000 ∧ 8 ≤ w 1 ∧ w 1 ≤ 60 ∧ 60 ≤ w 2 ∧ w 2 ≤ 86400 ∧ 100 ≤ w 3 ∧ w 3 ≤ 60000 ∧ 1 ≤ w 4 ∧ w 4 ≤ 10000) &&
    ([5, 6, 7, 12, 13, 14, 15].all fun i => w i == 0) && ([8, 9, 10, 11].all fun i => decide (w i < 32)) && ([16, 17, 18, 19].all fun i => decide (w i < 8))
/-- The parameters enter the page 1 registers (R612). -/
def State.paramLoad (s : State) (t : List Byte) : State :=
  let w (i : Nat) : Word := wd (fieldN t (4 * i) 4)
  let s := s.setRegs [(R.KPR_WDOG_MS, w 0), (R.KPR_T_K, w 1), (R.KPR_PLAN_LIFE_S, w 2), (R.KPR_EST_LIFE_MS, w 3), (R.KPR_EMG_FILT_US, w 4)]
  (List.range 4).foldl (fun (s : State) i => (s.setReg (R.KPR_SAFE_CFG i) (w (8 + i))).setReg (R.KPR_EMG_CFG i) (w (16 + i))) s
/-- The newest copy of table m = 0 safe, 1 limit, 2 parameters. -/
def State.kprTable (s : State) (m : Nat) : Option (List Byte) :=
  (copyNewest (if m = 0 then s.kpr.safe else if m = 1 then s.kpr.limit else s.kpr.param)).map (·.2)
/-- DIGm show the first digest bytes of each table, zeros where it is absent (R590, R613). -/
def State.showDigs (s : State) : State :=
  (List.range 3).foldl (fun (s : State) m =>
    let d := match s.kprTable m with | some t => digest32 t | none => List.replicate 32 0
    (s.setReg (R.KPR_DIG_LO m) (wd (fieldN d 0 4))).setReg (R.KPR_DIG_HI m) (wd (fieldN d 4 4))) s
/-- The safe-value table is copied into the memory of PD_LOG (R593). -/
def State.safeCopy (s : State) : State := if s.up 3 then s.setKpr fun k => { k with pdLog := s.kprTable 0 } else s
/-- The keeper reads its tables at start-up; a kind without a valid copy is lost (R609, stage 2 of R694). -/
def State.tablesRead (s : State) : State :=
  let lost := (List.range 3).filterMap fun m => if (s.kprTable m).isNone then some (m + 1) else none
  let s := match s.kprTable 2 with | some t => s.paramLoad t | none => s
  let s := s.showDigs.setKpr fun k => { k with lost := lost, cause := if lost.isEmpty then 0 else 4 }
  let s := if lost.isEmpty then s else (s.errc kprPage 0x100 4).slog slFault 4
  s.safeUpdate
/-- A segment is refused and recorded, its staging discarded (R595, R729). -/
def State.tabRefuse (s : State) (g : Segment) (reason : Nat) : State :=
  let k := g.kind.toNat
  let s := s.setKpr fun q => { q with stage := q.stage.set (fun _ => none) k none }
  (((s.irq kprPage 11).errc kprPage 0x101 k).slog slTabRef (k + 256 * reason + 65536 * g.seg.toNat))
/-- The complete table passes: none, or the reason of its refusal. -/
def tabBad (k : Nat) (t : List Byte) : Option Nat :=
  if k = 1 then (if t.length % 16 ≠ 0 ∨ 262144 < t.length then some 3 else if safeOk t then none else some 4)
  else if k = 2 then limBad t
  else if t.length ≠ 80 then some 3 else if paramOk t then none else some 4
/-- TOTAL is no length that a table of the KIND can have (R729); N_LIM is known once its bytes are staged. -/
def totalBad (k total : Nat) (d : List Byte) : Bool :=
  if k = 1 then total % 16 != 0 || decide (262144 < total)
  else if k = 2 then decide (4 ≤ d.length) && total != 16 + 40 * fieldN d 0 4
  else total != 80
/-- Commit a table by R72, recorded and measured (R593 to R595, R637). -/
def State.tabCommit (s : State) (k : Nat) (t : List Byte) : State :=
  let s := s.setKpr fun q =>
    let q := { q with stage := q.stage.set (fun _ => none) k none, tabSeq := q.tabSeq + 1, lost := q.lost.filter (· != k) }
    if k = 1 then { q with safe := copyPut q.safe q.tabSeq t } else if k = 2 then { q with limit := copyPut q.limit q.tabSeq t }
    else { q with param := copyPut q.param q.tabSeq t }
  let d := digest32 t
  let s := if k = 1 then s.safeCopy else if k = 3 then s.paramLoad t else s
  let s := (s.showDigs.irq kprPage 11).slog slTableSet (k + 256 * fieldN d 0 7)
  let s := s.measExtend 6 d
  let s := if s.kpr.cause = 4 ∧ s.kpr.lost.isEmpty then s.setKpr fun q => { q with cause := 0 } else s
  s.safeUpdate
/-- ARM: clear released latches, then arm (R597, R708, R729). -/
def State.armMask (s : State) (mask : Nat) : State :=
  if 16 ≤ mask then
    let c := (List.range 4).foldl (fun (a : Nat) n => if mask.testBit n then a ||| s.armCauses n else a) 0
    s.slog slArmRef (mask % 16 + 2 ^ 32 * (c ||| 64))
  else
    let named := (List.range 4).foldl (fun (a : Nat) n => if mask.testBit n then a ||| s.fld (R.KPR_SAFE_CFG n) 3 0 else a) 0
    let s := (List.range 4).foldl (fun (s : State) i =>
      if named.testBit i && !s.flag R.KPR_EMG_STAT i then s.setFlag R.KPR_EMG_STAT (8 + i) false else s) s
    let s := s.setKpr fun k => { k with rearm := if !k.gate && k.rearm.isSome then some (BitVec.ofNat 4 mask) else k.rearm }
    let bad := (List.range 4).filter fun n => mask.testBit n && s.armCauses n != 0
    let c := bad.foldl (fun (a : Nat) n => a ||| s.armCauses n) 0
    let refused := bad.foldl (fun (a : Nat) n => a + 2 ^ n) 0
    let s := s.armBalls mask
    let s := if mask = refused then s else s.slog slArm (mask - refused)
    if bad.isEmpty ∧ mask ≠ 0 then s else s.slog slArmRef (refused + 2 ^ 32 * c)
/-- A keeper-table segment as the quay delivers it (R592, R593, R729). -/
def State.segment (s : State) (g : Segment) : State :=
  let k := g.kind.toNat
  let fin := g.flags.getLsbD 0
  let st := if g.seg = 0 then some ⟨0, 0, []⟩ else s.kpr.stage.get (fun _ => none) k
  if !s.kprCores then s
  else if k = 0 ∨ 4 < k ∨ 2 ≤ g.flags.toNat then s.tabRefuse g 4
  else if g.total = 0 then s.tabRefuse g 3
  else if !fin && !allZero g.digest then s.tabRefuse g 2
  else if k = 4 then
    if g.seg ≠ 0 ∨ !fin then s.tabRefuse g 1
    else if g.total ≠ 1 ∨ g.data.length ≠ 1 then s.tabRefuse g 3
    else if g.digest ≠ digest32 g.data then s.tabRefuse g 2
    else s.armMask (g.data.headD 0).toNat
  else if k = 1 ∧ s.shown lgePage ≠ 1 ∧ s.shown lgePage ≠ 0 then s.tabRefuse g 5
  else match st with
    | none => s.tabRefuse g 1
    | some p =>
      let d := p.data ++ g.data
      if g.seg.toNat ≠ p.next then s.tabRefuse g 1
      else if totalBad k g.total.toNat d ∨ g.total.toNat < d.length then s.tabRefuse g 3
      else if !fin then s.setKpr fun q => { q with stage := q.stage.set (fun _ => none) k (some ⟨p.next + 1, g.total.toNat, d⟩) }
      else if d.length ≠ g.total.toNat then s.tabRefuse g 3
      else if digest32 d ≠ g.digest then s.tabRefuse g 2
      else match tabBad k d with
        | some r => s.tabRefuse g r
        | none => s.tabCommit k d
/-- SAFE_VALUE (R592). -/
def execSafeValue (seg : Segment) (s : State) : Host.Outcome State Fault Refusal := .next (s.segment seg)
/-- ARM: a segment of KIND 4 (R597). -/
def execArm (seg : Segment) (s : State) : Host.Outcome State Fault Refusal := .next (s.segment { seg with kind := 4 })

end Sys2Proof.Machine
end

