-- ==== Sys2Proof/Machine/Pnl.lean ====
section
/-! DEFINITION. Status panel driver (R675 to R693): pixels and waveforms, rails, the waveform table, region updates,
dirty tiles and recovery. -/

namespace Sys2Proof.Machine

/-- Width and height of the glass (R675). -/
def State.glassW (s : State) : Nat := s.fld R.PNL_GEOM 9 0
def State.glassH (s : State) : Nat := s.fld R.PNL_GEOM 25 16
/-- Key of a pixel. -/
abbrev pixKey (x y : Nat) : Nat := 1024 * y + x
/-- Tile of a pixel (R675). -/
def tileOf (w x y : Nat) : Nat := (y / 16) * (w / 16) + x / 16
/-- Number of tiles. -/
def State.tiles (s : State) : Nat := s.glassW / 16 * (s.glassH / 16)
/-- Pixels of a region. -/
def regionPix (x y w h : Nat) : List (Nat × Nat) := (List.range h).flatMap fun j => (List.range w).map fun i => (x + i, y + j)
/-- Pixels of a tile. -/
def tilePix (w t : Nat) : List (Nat × Nat) := regionPix (16 * (t % (w / 16))) (16 * (t / (w / 16))) 16 16
/-- A pixel. -/
def State.pixel (s : State) (k : Nat) : Pix := s.pnl.pix.get (fun _ => {}) k
/-- It is idle: nothing runs, nothing is queued. -/
def Pix.idle (p : Pix) : Bool := p.run.isNone && p.q.isNone
/-- Insert into a sorted list without repeats. -/
def insertNat (n : Nat) : List Nat → List Nat
  | [] => [n]
  | m :: l => if n < m then n :: m :: l else if n = m then m :: l else m :: insertNat n l

/-- Words of a waveform row (R682). -/
def State.wfRow (s : State) (r : Nat) : List Word := (s.pnl.table.getD []).get (fun _ => []) r
/-- LEN of a row. -/
def wfLen (r : List Word) : Nat := bits (r.headD 0) 6 0
/-- Code of frame f of a row. -/
def wfCode (r : List Word) (f : Nat) : Nat := let w := r.getD (1 + f / 16) 0; bits w (2 * (f % 16) + 1) (2 * (f % 16))

/-- Give a pixel a new level: it starts at once where nothing runs, and is queued otherwise, replacing what was
queued (R686). -/
def Pix.give (p : Pix) (w : Wave) : Pix := if p.run.isNone then { p with run := some w } else { p with q := some w }
/-- Waveform row that a pixel's waveform runs: CLEAR, or the one from its level to the new one (R682). -/
def State.waveRow (s : State) (p : Pix) (w : Wave) : List Word := s.wfRow (if w.clear then 256 else 16 * p.cur.val + w.tgt.val)
/-- Drive code that a pixel takes in the next frame: that of its waveform's frame index, NEUTRAL where none runs (R677, R684). -/
def State.pixCode (s : State) (p : Pix) : Nat :=
  match p.run with
  | none => 0
  | some w => if w.i < wfLen (s.waveRow p w) then wfCode (s.waveRow p w) w.i else 0
/-- One frame of a pixel (R684). -/
def State.pixFrame (s : State) (p : Pix) : Pix :=
  match p.run with
  | none => p
  | some w =>
    let len := wfLen (s.waveRow p w)
    let i := if w.i < len then w.i + 1 else w.i
    if i < len then { p with run := some { w with i := i } } else { cur := if w.clear then 15 else w.tgt, run := p.q, q := none }
/-- Pixels slot k owns (R687). -/
def State.slotCount (s : State) (k : Fin 4) : Nat :=
  (s.pnl.pix.filter fun e => (match e.2.run with | some w => w.slot == some k | none => false) ||
    (match e.2.q with | some w => w.slot == some k | none => false)).length
/-- Free the slots that own no pixel, raising UPD_DONE (R687), and show the counts. -/
def State.freeSlots (s : State) : State :=
  [(0 : Fin 4), 1, 2, 3].foldl (fun s k =>
    let n := s.slotCount k
    let s := s.setReg (R.PNL_SLOT_PIX k.val) (wd n)
    if s.flag R.PNL_SLOT_STAT k.val && n == 0 then (s.setFlag R.PNL_SLOT_STAT k.val false).irq 192 8 else s) s
/-- Dirty map, shown in DIRTY_N. -/
def State.setDirty (s : State) (d : List Nat) : State := ({ s with pnl := { s.pnl with dirty := d } }).setReg R.PNL_DIRTY_N (wd d.length)
/-- Idle dirty tiles are written to the glass image and cleared (R688). -/
def State.cleanTiles (s : State) : State :=
  let w := s.glassW
  let done := s.pnl.dirty.filter fun t => (tilePix w t).all fun xy => (s.pixel (pixKey xy.1 xy.2)).idle
  let img := done.foldl (fun m t => (tilePix w t).foldl (fun m xy =>
    let k := pixKey xy.1 xy.2
    m.set (fun _ => 0) k (s.pixel k).cur) m) s.pnl.img
  ({ s with pnl := { s.pnl with img := img } }).setDirty (s.pnl.dirty.filter fun t => !done.contains t)
/-- Something must still be scanned. -/
def State.pnlWork (s : State) : Bool := s.pnl.pix.any fun e => !e.2.idle
/-- Begin raising the rails if they are down (R680). -/
def State.railsNeed (s : State) : State :=
  if s.pnl.rails = .down then { s with pnl := { s.pnl with rails := .rising } } else s
/-- Begin taking them down, PNL_OE falling first (R679). -/
def State.railsDrop (s : State) : State :=
  if s.pnl.rails = .down then s else { s with pnl := { s.pnl with rails := .falling, oe := false } }

/-- Drive codes of the next frame other than NEUTRAL, by pixel (R684). -/
def State.frameCodes (s : State) : Tab Nat := (s.pnl.pix.map fun e : Nat × Pix => (e.1, s.pixCode e.2)).filter fun e => e.2 != 0
/-- PNL_FRAME: one frame is scanned while the rails are up: it sends its codes and the waveforms advance (R676, R680, R684, R687, R688). -/
def execPnlFrame (s : State) : Host.Outcome State Fault Refusal :=
  if s.active 192 && s.pnl.rails == .up && !s.pwr.panelNeutral && (s.pnlWork || 0 < s.pnl.hold) then
    let s := s.incReg R.PNL_FRAMES
    if s.pnlWork then
      let s := { s with pnl := { s.pnl with oe := true, codes := s.frameCodes, pix := tabMap (fun _ => {}) (fun _ p => s.pixFrame p) s.pnl.pix } }
      let s := s.freeSlots.cleanTiles
      let h := s.fld R.PNL_RAIL_CFG 15 8
      .next (if s.pnlWork then s else { s with pnl := { s.pnl with hold := h, oe := decide (0 < h) } })
    else .next { s with pnl := { s.pnl with hold := s.pnl.hold - 1, codes := [], oe := decide (1 < s.pnl.hold) } }
  else .next s

/-- RAIL_UP_DONE (R679). -/
def execRailUpDone (s : State) : Host.Outcome State Fault Refusal :=
  if s.pnl.rails = .rising then .next ({ s with pnl := { s.pnl with rails := .up } }.setReg R.PNL_RAIL_STAT 0x1F) else .next s
/-- RAIL_DOWN_DONE: the rails are down; an update accepted meanwhile raises them again (R680). -/
def execRailDownDone (s : State) : Host.Outcome State Fault Refusal :=
  if s.pnl.rails = .falling then
    let s := ({ s with pnl := { s.pnl with rails := .down } }).setReg R.PNL_RAIL_STAT 0
    .next (if s.pnlWork && s.running 192 then s.railsNeed else s)
  else .next s
/-- RAIL_IDLE: with AUTO_OFF, IDLE_MS without an update takes the rails down (R680). -/
def execRailIdle (s : State) : Host.Outcome State Fault Refusal :=
  if s.flag R.PNL_RAIL_CFG 1 && s.pnl.rails == .up && !s.pnlWork && s.pnl.hold == 0 then .next s.railsDrop else .next s

/-- Every running and queued waveform ends where it stands; its tile stays dirty (R681, R689). -/
def State.dropWaves (s : State) : State :=
  ({ s with pnl := { s.pnl with pix := tabMap (fun _ => {}) (fun _ p => { p with run := none, q := none }) s.pnl.pix, hold := 0, codes := [] } }).setRegs
    [(R.PNL_SLOT_STAT, 0), (R.PNL_SLOT_PIX 0, 0), (R.PNL_SLOT_PIX 1, 0), (R.PNL_SLOT_PIX 2, 0), (R.PNL_SLOT_PIX 3, 0)]
/-- Put a dirty map into MRAM with a sequence (R72). -/
def State.dirtyPut (s : State) (seq : Nat) (d : List Nat) : State :=
  { s with pwr := { s.pwr with saves := { s.pwr.saves with dirty := copyPut s.pwr.saves.dirty seq d } } }
/-- Save item 5, the dirty map, into MRAM with a sequence (R71, R72, R689): the working map, or what the newest copy holds while PNL
has not entered RUN since its domain came ON and so has loaded none (R691). -/
def State.dirtyItem (s : State) (seq : Nat) : State :=
  if (s.blk 192).gen ≠ 0 then s.dirtyPut seq s.pnl.dirty
  else match copyNewest s.pwr.saves.dirty with
    | some x => s.dirtyPut seq x.2
    | none => s
/-- Commit the working map on its own: it takes the next sequence (R72, R689). -/
def State.commitDirty (s : State) : State :=
  let seq := s.pwr.saves.seq + 1
  let s := s.dirtyItem seq
  { s with pwr := { s.pwr with saves := { s.pwr.saves with seq := seq } } }
/-- Entry to STOP by drain or FORCE_STOP (R689). -/
def State.pnlStop (s : State) : State := s.dropWaves.railsDrop.commitDirty

/-- RAIL_FAULT: the driver stops and PNL enters FAULT (R681). -/
def execRailFault (rail : Fin 4) (s : State) : Host.Outcome State Fault Refusal :=
  if s.pnl.rails = .down ∨ s.shown 192 = 0 then .next s
  else .next (((s.dropWaves.railsDrop).fail 192 0x102 rail.val).irq 192 9)

/-! ### The waveform table (R682, R683) -/

/-- WF_BEGIN: only in STOP; opens an empty staging table. -/
def execWfBegin (who : Initiator) (s : State) : Host.Outcome State Fault Refusal :=
  .next (s.gate who R.PNL_WF_CTL fun s =>
    if s.shown 192 = 1 then ({ s with pnl := { s.pnl with staging := [], row := [] } }).setReg R.PNL_WF_STAT 1 else s)
/-- WF_DATA: the next word of the row named in WF_ROW. -/
def execWfData (who : Initiator) (val : Word) (s : State) : Host.Outcome State Fault Refusal :=
  .next (s.gate who R.PNL_WF_DATA fun s =>
    let r := s.fld R.PNL_WF_ROW 8 0
    if s.fld R.PNL_WF_STAT 2 0 ≠ 1 ∨ 256 < r then s
    else
      let ws := s.pnl.row ++ [val]
      if ws.length < 5 then { s with pnl := { s.pnl with row := ws } }
      else ({ s with pnl := { s.pnl with row := [], staging := s.pnl.staging.set (fun _ => []) r ws } }).setReg R.PNL_WF_ROW (wd (r + 1)))
/-- Reason a row fails, if any. -/
def wfReason (r : Nat) (ws : List Word) : Option Nat :=
  let len := wfLen ws
  let fs := (List.range 64).map (wfCode ws)
  let live := fs.take len
  if ws.length ≠ 5 then some 5
  else if live.count 1 ≠ live.count 2 then some 1
  else if fs.contains 3 then some 2
  else if (fs.drop len).any (fun c => c != 0) then some 3
  else if 64 < len ∨ (r = 256 ∧ len = 0) then some 4
  else none
/-- First failing row of a staging table. -/
def wfFail (t : Tab (List Word)) : Nat → Nat → Option (Nat × Nat)
  | 0, _ => none
  | n + 1, r => match wfReason r (t.get (fun _ => []) r) with
    | some x => some (x, r)
    | none => wfFail t n (r + 1)
/-- WF_END: checks every row; commits the table or refuses it. -/
def execWfEnd (who : Initiator) (s : State) : Host.Outcome State Fault Refusal :=
  .next (s.gate who R.PNL_WF_CTL fun s =>
    if s.fld R.PNL_WF_STAT 2 0 ≠ 1 then s
    else match wfFail s.pnl.staging 257 0 with
      | some (x, r) => ((s.setReg R.PNL_WF_STAT (wd (3 + 16 * x + 65536 * r))).errc 192 0x101 r).irq 192 11
      | none => (({ s with pnl := { s.pnl with table := some s.pnl.staging } }).setReg R.PNL_WF_STAT 2).irq 192 11)
/-- WF_ABORT: discards the staging table. -/
def execWfAbort (who : Initiator) (s : State) : Host.Outcome State Fault Refusal :=
  .next (s.gate who R.PNL_WF_CTL fun s =>
    if s.fld R.PNL_WF_STAT 2 0 ≠ 1 then s
    else (({ s with pnl := { s.pnl with staging := [], row := [] } }).setReg R.PNL_WF_STAT 0).irq 192 11)

/-! ### Updates (R685, R686, R688) -/

/-- Lowest free slot. -/
def State.freeSlot (s : State) : Option (Fin 4) := [(0 : Fin 4), 1, 2, 3].find? fun k => !s.flag R.PNL_SLOT_STAT k.val
/-- Result of an update other than acceptance, by the table of R685. -/
def State.updRefuse (s : State) (clear full : Bool) (x y w h src : Nat) : Option Nat :=
  let slots := s.fld R.PNL_SLOT_STAT 3 0
  if slots = 15 ∨ (full ∧ slots ≠ 0) then some 1
  else if !full ∧ (w = 0 ∨ h = 0 ∨ s.glassW < x + w ∨ s.glassH < y + h ∨ x % 2 = 1 ∨ w % 2 = 1) then some 2
  else if !clear ∧ (!s.dramUp ∨ src % 64 ≠ 0) then some 3
  else if !s.running 192 then some 4
  else if s.flag R.PNL_STAT2 0 then some 5
  else none
/-- Run an accepted update on slot k. -/
def State.updApply (s : State) (k : Fin 4) (clear : Bool) (x y w h src : Nat) : State :=
  let stride := s.fld R.PNL_UPD_STRIDE 15 0
  let lvl (px py : Nat) : Fin 16 :=
    let b := (rdB s.dram (src + stride * (py - y) + (px - x) / 2)).toNat
    Fin.ofNat 16 (if (px - x) % 2 = 0 then b % 16 else b / 16)
  let pix := (regionPix x y w h).foldl (fun m xy =>
    let key := pixKey xy.1 xy.2
    let wv : Wave := { tgt := if clear then 15 else lvl xy.1 xy.2, clear := clear, i := 0, slot := some k }
    m.set (fun _ => {}) key ((m.get (fun _ => {}) key).give wv)) s.pnl.pix
  let d := (regionPix x y w h).foldl (fun d xy => insertNat (tileOf s.glassW xy.1 xy.2) d) s.pnl.dirty
  let s := ({ s with pnl := { s.pnl with pix := pix } }).setDirty d
  let s := (s.setFlag R.PNL_SLOT_STAT k.val true).setReg R.PNL_UPD_STAT (wd (16 * k.val))
  s.freeSlots.railsNeed
/-- An update: refused with its result, or accepted. -/
def State.update (s : State) (clear full : Bool) : State :=
  let x := if full then 0 else s.fld R.PNL_UPD_X 9 0
  let y := if full then 0 else s.fld R.PNL_UPD_Y 9 0
  let w := if full then s.glassW else s.fld R.PNL_UPD_W 9 0
  let h := if full then s.glassH else s.fld R.PNL_UPD_H 9 0
  let src := s.reg64 R.PNL_UPD_SRC_LO R.PNL_UPD_SRC_HI
  match s.updRefuse clear full x y w h src, s.freeSlot with
  | some v, _ => s.setReg R.PNL_UPD_STAT (wd v)
  | none, none => s.setReg R.PNL_UPD_STAT 1
  | none, some k => s.updApply k clear x y w h src
/-- UPD_GO: a region update; `source` is what firmware stored at UPD_SRC beforehand. -/
def execUpdGo (who : Initiator) (source : List Byte) (s : State) : Host.Outcome State Fault Refusal :=
  .next (s.gate who R.PNL_UPD_CMD fun s =>
    let src := s.reg64 R.PNL_UPD_SRC_LO R.PNL_UPD_SRC_HI
    let s := if s.dramUp && inDram src source.length then { s with dram := wrBytes s.dram src source } else s
    s.update false false)
/-- CLEAR_WF: row CLEAR on the region. -/
def execClearWf (who : Initiator) (s : State) : Host.Outcome State Fault Refusal :=
  .next (s.gate who R.PNL_UPD_CMD fun s => s.update true false)
/-- FULL_CLEAR: row CLEAR on the whole glass. -/
def execFullClear (who : Initiator) (s : State) : Host.Outcome State Fault Refusal :=
  .next (s.gate who R.PNL_UPD_CMD fun s => s.update true true)

/-- Entry to RUN: the dirty map is loaded and every dirty tile is cleared by row CLEAR (R691). -/
def State.pnlStart (s : State) : State :=
  let w := s.glassW
  let all := List.range s.tiles
  let lost := !s.pnl.imgValid
  let d := if lost then all else match copyNewest s.pwr.saves.dirty with | some x => x.2 | none => all
  let base : Tab Pix := (s.pnl.img.filter fun e => e.2 ≠ 0).map fun e => (e.1, { cur := e.2 })
  let pix := d.foldl (fun m t => (tilePix w t).foldl (fun m xy =>
    let key := pixKey xy.1 xy.2
    let p := m.get (fun _ => {}) key
    m.set (fun _ => {}) key { p with run := some { tgt := 15, clear := true, i := 0, slot := none }, q := none }) m) base
  let s := ({ s with pnl := { s.pnl with pix := pix } }).setDirty d
  let s := s.setReg R.PNL_STAT2 (wd (1 + 2 * b2n s.pnl.imgValid))
  let s := if lost then s.errc 192 0x103 0 else s
  if s.pnlWork then s.railsNeed else s
/-- RECOVERED: the clear of the dirty tiles has ended, and updates are accepted (R691). -/
def execRecovered (s : State) : Host.Outcome State Fault Refusal :=
  if s.flag R.PNL_STAT2 0 && s.active 192 && !s.pnlWork then
    .next ((({ s with pnl := { s.pnl with imgValid := true } }).setReg R.PNL_STAT2 2).irq 192 10)
  else .next s
/-- First inconsistent configuration beyond the ranges (R693). -/
def State.pnlBad (s : State) : Option (Nat × Nat) :=
  let w := s.glassW
  let h := s.glassH
  if w < 16 ∨ 800 < w ∨ w % 16 ≠ 0 ∨ h < 16 ∨ 480 < h ∨ h % 16 ≠ 0 then some (4, 0x100)
  else if s.fld R.PNL_BUS_CFG 15 8 < 8 ∨ s.fld R.PNL_BUS_CFG 23 16 < 1 then some (4, 0x104)
  else if !s.flag R.PNL_RAIL_CFG 0 ∧ 7 < s.fld R.PNL_RAIL_CFG 6 4 then some (4, 0x108)
  else if s.pnl.table.isNone then some (0x100, 0)
  else none
/-- The power-fail warning: neutral frames, rails discharged, no further frame (R69, R690). -/
def State.pnlPowerFail (s : State) : State :=
  ({ s with pwr := { s.pwr with panelNeutral := true }, pnl := { s.pnl with rails := .down, oe := false, codes := [] } }).setReg R.PNL_RAIL_STAT 0

end Sys2Proof.Machine
end

