-- ==== Sys2Proof/Machine/Sec.lean ====
section
/-! DEFINITION. The security unit (R616 to R640, R727, R728): images and boot, firmware update, keys, measured boot and
quotes. The command port is in Quay.lean. -/

namespace Sys2Proof.Machine

abbrev secPage : Nat := 32
/-- Kind numbers of this chapter's records. -/
abbrev evCmdRefused : Nat := 163
abbrev evKeyChanged : Nat := 164
abbrev evFwReverted : Nat := 165
abbrev evFwUpdate : Nat := 166
abbrev evKind3Refused : Nat := 156

def State.setSec (s : State) (f : SecSt → SecSt) : State := { s with sec := f s.sec }
/-- Slot i; slots of the key store. -/
def State.key (s : State) (i : Nat) : KeySlot := s.sec.keys.get (fun _ => {}) i
def State.setKey (s : State) (i : Nat) (k : KeySlot) : State := s.setSec fun c => { c with keys := c.keys.set (fun _ => {}) i k }

/-! ### Images (R629 to R631) -/

/-- Offset of KIND k in a slot and its largest size (R629). -/
def kindOfs (k : Nat) : Nat := if k = 1 then 0 else if k = 2 then 0x100000 else 0xB00000
def kindMax (k : Nat) : Nat := if k = 2 then 10 * 1048576 else 1048576
/-- Flash offset of a slot, B for true. -/
def slotOfs (b : Bool) : Nat := if b then 0x1000000 else 0
/-- Length of the image whose header is at the head of these bytes. -/
def fwLen (b : List Byte) : Nat := 0x1600 + fieldN b 0xC 4
/-- The check that an image fails, 0 for none (R631). -/
def State.fwCheck (s : State) (k : Nat) (b : List Byte) : Nat :=
  let pk := (b.drop 0x100).take 1952
  let root := fieldN b 7 1
  let hdr := b.take 0x100
  if fieldN b 0 4 ≠ 0x4C4D4657 ∨ fieldN b 4 2 ≠ 1 ∨ fieldN b 6 1 ≠ k ∨ kindMax k < fwLen b then 1
  else if 3 < root ∨ !Config.rootIntact root ∨ digest32 pk ≠ Config.rootDigest root then 2
  else if !Config.mldsaVerify pk (shake256 (hdr ++ pk) 64) ((b.drop 0x8A0).take 3309) then 3
  else if fieldN b 8 4 < s.sec.boot.floors.getD (k - 1) 0 then 4
  else if digest32 ((b.drop 0x1600).take (fieldN b 0xC 4)) ≠ (b.drop 0x20).take 32 then 5
  else 0
/-- Signed digest of an image as measured (R637). -/
def fwDigest (b : List Byte) : List Byte := digest32 (b.take 0x100 ++ (b.drop 0x100).take 1952)
/-- Image of KIND k in a slot of the flash: no more than its place holds. -/
def State.fwImage (s : State) (slotB : Bool) (k : Nat) : List Byte :=
  let a := slotOfs slotB + kindOfs k
  let n := min (fwLen (rdBytes s.sec.flash a 0x1600)) (kindMax k)
  rdBytes s.sec.flash a n
/-- First failing check of KIND 1 and KIND 2 in a slot; an update that was abandoned leaves the other slot invalid (R635). -/
def State.slotFail (s : State) (slotB : Bool) : Nat :=
  if s.sec.boot.invalid ∧ slotB ≠ s.sec.boot.active then 1
  else
    let c := s.fwCheck 1 (s.fwImage slotB 1)
    if c ≠ 0 then c else s.fwCheck 2 (s.fwImage slotB 2)

/-! ### Boot (R628, R632, R637) -/

/-- The images of a slot run: versions and measurement register 1. -/
def State.bootSlot (s : State) (slotB : Bool) : State :=
  let i1 := s.fwImage slotB 1
  let v (k : Nat) : Nat := fieldN (s.fwImage slotB k) 8 4
  let r := s.sec.boot
  let s := s.setSec fun c => { c with booted := slotB, versions := [v 1, v 2, c.versions.getD 2 0] }
  let st := b2n slotB + 2 * b2n r.trial + 4 * s.pwr.bootmode.toNat + 16 * (fieldN i1 7 1 % 4) + 64 * min 3 r.attempts
  (s.setReg R.SEC_BOOT_STAT (wd st)).measExtend 1 (fwDigest i1)
/-- No slot passes: the management cores stay in the boot ROM (R632). -/
def State.bootNone (s : State) (check : Nat) : State :=
  s.setReg R.SEC_BOOT_STAT (wd (2 * b2n s.sec.boot.trial + 4 * s.pwr.bootmode.toNat + 64 * min 3 s.sec.boot.attempts + 256 * check))
/-- The boot ROM chooses a slot: an update cut off by a power failure leaves the inactive slot invalid (R635). -/
def State.bootRom (s : State) : State :=
  let s := s.setSec fun c => if c.upd.isSome then { c with upd := none, boot := { c.boot with invalid := true } } else c
  let s := s.measExtend 0 (digest32 (Config.fuseDigest ++ [BitVec.ofNat 8 s.pwr.bootmode.toNat]))
  if s.pwr.bootmode = 1 then (let c := s.slotFail false; if c = 0 then s.bootSlot false else s.bootNone c)
  else if s.pwr.bootmode ≠ 0 then s.bootNone 0
  else
    let r := s.sec.boot
    let spent := r.trial && decide (3 ≤ r.attempts)
    let s := if r.trial && !spent then s.setSec fun c => { c with boot := { c.boot with attempts := r.attempts + 1 } } else s
    let c1 := s.slotFail r.next
    if c1 = 0 ∧ !spent then s.bootSlot r.next
    else
      let c2 := s.slotFail (!r.next)
      if c2 ≠ 0 then s.bootNone (if c1 = 0 then c2 else c1)
      else
        let s := s.setSec fun c => { c with boot := { c.boot with next := !r.next, active := !r.next, trial := false, attempts := 0 } }
        (s.bootSlot (!r.next)).emit evFwReverted secPage [wd (b2n (!r.next)), wd c1]
/-- SEC checks KIND 3 and loads it when PD_NSU comes ON (R631, R637). -/
def State.kind3Load (s : State) : State :=
  let b := s.fwImage s.sec.booted 3
  let c := s.fwCheck 3 b
  if c ≠ 0 then (s.setSec fun q => { q with kind3 := false }).emit evKind3Refused secPage [wd c]
  else (s.setSec fun q => { q with kind3 := true, versions := [q.versions.getD 0 0, q.versions.getD 1 0, fieldN b 8 4] }).measExtend 3 (fwDigest b)
/-- SEC_RUN: SEC enters RUN by itself when PD_NVM has left reset and its key store is read (R728). -/
def execSecRun (s : State) : Host.Outcome State Fault Refusal :=
  if s.shown secPage = 1 ∧ (s.blk secPage).gen = 0 ∧ !s.pwr.saving then .next (s.toRun secPage) else .next s

/-! ### Key slots (R624 to R626) -/

/-- R626: why a KEY_CHANGE is refused with TARGET. -/
def State.keyRefused (s : State) (k : KeyChange) : Bool :=
  let n := k.slotNo.toNat
  let named := ((List.range 16).any fun i => s.running (96 + i) && s.fld (R.STB_KEY_SLOT i) 3 0 == n) ||
    (s.running plkPage && s.fld R.PLK_WIT_KEY_SLOT 3 0 == n)
  let left := (List.range 16).any fun i =>
    if i = n then k.use == 1 && k.perms.getLsbD 5 else (s.key i).use == 1 && (s.key i).perms.getLsbD 5
  named || (!left && Config.ownerDigest.isNone)
/-- The change takes effect: the key is unwrapped with the authorising slot's, or comes in clear from the owner; the slot's
counter stays (R625 to R627, R637). -/
def State.keyApply (s : State) (slot : Nat) (counter : DWord) (k : KeyChange) : State :=
  let n := k.slotNo.toNat
  let wrap := if slot = 255 then List.replicate 32 0
    else kmac256 (s.key slot).key (leBytes 8 counter.toNat ++ [k.slotNo]) 32 "LMP WRAP"
  let old := s.key n
  let new : KeySlot := if k.use = 0 then { ctr := old.ctr }
    else { use := k.use.toNat, perms := k.perms, key := (k.wkey.zip wrap).map fun e => e.1 ^^^ e.2, ctr := old.ctr }
  let s := (s.setKey n new).measExtend 7 (digest32 ([k.slotNo, k.use] ++ leBytes 2 k.perms.toNat))
  s.emit evKeyChanged secPage [wd n, wd k.use.toNat, wd k.perms.toNat]
/-- KEY_CHANGE: the change of a command whose tag, or owner signature, has passed (R625 to R627). -/
def execKeyChange (slot : Byte) (counter : DWord) (k : KeyChange) (s : State) : Host.Outcome State Fault Refusal :=
  .next (if !s.running secPage ∨ s.pwr.saving then s
    else if s.keyRefused k then s.emit evCmdRefused secPage [6, wd slot.toNat, 0x40020000, lo32 counter.toNat, hi32 counter.toNat, 5]
    else s.keyApply slot.toNat counter k)

/-! ### Firmware update (R633 to R636) -/

/-- LPDDR5 can be read or written for SEC (R85, R633). -/
def State.fwRefused (s : State) : Bool := s.sec.upd.isSome || !s.dramUp
/-- An update starts, at its stage 1 (R634, R639). -/
def State.fwStart (s : State) (b : FwBundle) : State :=
  (s.setSec fun c => { c with upd := some ⟨b.kmask.toNat, b.addr.toNat, b.digest⟩ }).setRegs [(R.SEC_FW_STAT, 0x101), (R.SEC_FW_DONE_KB, 0)]
/-- FW_UPDATE: `bundle` is what firmware staged at ADDR (R633). -/
def execFwUpdate (b : FwBundle) (bundle : List Byte) (s : State) : Host.Outcome State Fault Refusal :=
  if !s.running secPage ∨ s.pwr.saving then .next s
  else if s.fwRefused then .next (s.emit evCmdRefused secPage [7, 0, 0x40020000, 0, 0, 5])
  else
    let s := if inDram b.addr.toNat bundle.length then { s with dram := wrBytes s.dram b.addr.toNat bundle } else s
    .next (s.fwStart b)
/-- KINDs named by a mask. -/
def kindsOf (m : Nat) : List Nat := [1, 2, 3].filter fun k => m.testBit (k - 1)
/-- Images of a bundle at an address, one after another on 4 KiB boundaries. -/
def State.bundleImages (s : State) : Nat → List Nat → List (Nat × List Byte)
  | _, [] => []
  | a, k :: t =>
    let n := min (fwLen (rdBytes s.dram a 0x1600)) (kindMax k)
    (k, rdBytes s.dram a n) :: s.bundleImages (a + (n + 4095) / 4096 * 4096) t
/-- Bytes of a bundle from its images. -/
def bundleLen : List (Nat × List Byte) → Nat
  | [] => 0
  | [(_, b)] => b.length
  | (_, b) :: t => (b.length + 4095) / 4096 * 4096 + bundleLen t
/-- The end of an update is shown. -/
def State.fwShow (s : State) (st stage check : Nat) : State :=
  let s := ((s.setSec fun c => { c with upd := none }).setReg R.SEC_FW_STAT (wd (st + 256 * stage + 65536 * check))).irq secPage 9
  let s := if st = 3 then s.errc secPage 0x101 stage else s
  s.emit evFwUpdate secPage [wd st, wd stage, wd check]
/-- The update ends ABORTED and the inactive slot is invalid (R635). -/
def State.fwAbort (s : State) : State :=
  if s.sec.upd.isNone then s else (s.setSec fun c => { c with boot := { c.boot with invalid := true } }).fwShow 4 0 0
/-- The inactive slot erased and written with these images, one of each KIND (R634). -/
def State.fwWritten (s : State) (all : List (Nat × List Byte)) : State :=
  let o := slotOfs (!s.sec.boot.active)
  let clean := s.sec.flash.filter fun e => e.1 < o || o + 0x1000000 ≤ e.1
  let f := all.foldl (fun (m : Tab Byte) (e : Nat × List Byte) => wrBytes m (o + kindOfs e.1) e.2) clean
  let kb := (all.map fun e => (e.2.length + 1023) / 1024).sum
  (s.setSec fun c => { c with flash := f }).setReg R.SEC_FW_DONE_KB (wd kb)
/-- The stages of R634 on the staged bundle: what is read back, the images copied from the active slot too, is checked again. -/
def State.fwRun (s : State) (u : FwUpd) : State :=
  let im := s.bundleImages u.addr (kindsOf u.kmask)
  let bad := im.findSome? fun (e : Nat × List Byte) => let c := s.fwCheck e.1 e.2; if c = 0 then none else some c
  if !s.dramUp ∨ digest32 (rdBytes s.dram u.addr (bundleLen im)) ≠ u.digest then s.fwShow 3 1 0
  else match bad with
    | some c => s.fwShow 3 1 c
    | none =>
      let act := s.sec.boot.active
      let t := s.fwWritten ([1, 2, 3].map fun k => match im.find? fun e => e.1 == k with | some e => e | none => (k, s.fwImage act k))
      match [1, 2, 3].findSome? fun k => let c := t.fwCheck k (t.fwImage (!act) k); if c = 0 then none else some c with
      | some c => t.fwShow 3 4 c
      | none => (t.setSec fun c => { c with boot := { c.boot with next := !act, trial := true, attempts := 0, invalid := false } }).fwShow 2 0 0
/-- What the inactive slot holds after an update that failed once the slot was erased is not stated: the headers, keys and
signatures there are free (R634, log entry 56). -/
def State.slotSpoilt (s : State) : State :=
  let o := slotOfs (!s.sec.boot.active)
  let f := s.free
  let b (k : Nat) : List Byte := (List.range 0x1600).map fun i => (Config.freeBits (f + 0x1600 * (k - 1) + i)).setWidth 8
  { s with free := f + 3 * 0x1600,
           sec := { s.sec with flash := [1, 2, 3].foldl (fun (m : Tab Byte) k => wrBytes m (o + kindOfs k) (b k)) s.sec.flash } }
/-- FW_UPDATE_DONE: the update ends; one that ends well has passed every check (R634, R635). -/
def execFwUpdateDone (e : FwEnd) (s : State) : Host.Outcome State Fault Refusal :=
  match s.sec.upd with
  | none => .next s
  | some u =>
    if !s.active secPage then .next s
    else match e with
      | .done => .next (s.fwRun u)
      | .failed stage check =>
        let s := if 2 ≤ stage.val then s.slotSpoilt else s
        .next (s.fwShow 3 stage.val check.val)
      | .aborted => .next s.fwAbort
/-- FW_CONFIRM: the trial slot becomes active and the floors rise. A trial is in force while the slot that runs is the one on trial
(R636, log entry 56). -/
def execFwConfirm (who : Initiator) (val : Word) (s : State) : Host.Outcome State Fault Refusal :=
  .next (s.gate who R.SEC_FW_CONFIRM fun s =>
    if !s.running secPage ∨ !bit val 0 ∨ !s.sec.boot.trial ∨ s.sec.booted ≠ s.sec.boot.next then s
    else
      let s := s.setSec fun c =>
        { c with boot := { c.boot with active := c.booted, next := c.booted, trial := false, attempts := 0, invalid := false,
                                       floors := (c.boot.floors.zip c.versions).map fun e => max e.1 e.2 } }
      s.setFlag R.SEC_BOOT_STAT 1 false)

/-! ### Measured boot and quotes (R637, R638, R640) -/

/-- EXTEND2: register 2 takes the digest of MEAS_EXT_D before LOCK2. -/
def execExtend2 (who : Initiator) (s : State) : Host.Outcome State Fault Refusal :=
  .next (s.gate who R.SEC_MEAS_CTRL fun s =>
    if !s.running secPage ∨ s.sec.lock2 then s
    else s.measExtend 2 ((List.range 8).flatMap fun w => leBytes 4 (s.regN (R.SEC_MEAS_EXT_D w))))
/-- LOCK2: until the next reset. -/
def execLock2 (who : Initiator) (s : State) : Host.Outcome State Fault Refusal :=
  .next (s.gate who R.SEC_MEAS_CTRL fun s => if s.running secPage then s.setSec fun c => { c with lock2 := true } else s)
/-- The quote as the registers stand now. -/
def State.quoteBytes (s : State) : List Byte :=
  let m := s.fld R.SEC_QUOTE_MASK 7 0
  let w (a : Nat) : List Byte := leBytes 4 (s.regN a)
  let h := leBytes 4 0x4C4D5154 ++ leBytes 2 1 ++ [BitVec.ofNat 8 m, 0] ++ leBytes 8 Config.uid.toNat ++ w R.SYS_DEVID ++
    [BitVec.ofNat 8 (b2n s.sec.booted), 0, 0, 0] ++ timeBytes s.time.nvm ++ ((List.range 8).flatMap fun n => w (R.SEC_QUOTE_NONCE n)) ++
    ((List.range 8).flatMap fun k => w (R.SEC_MEAS_CNT k)) ++
    ((List.range 8).flatMap fun k => (List.range 8).flatMap fun i => if m.testBit k then w (R.SEC_MEAS_W k i) else [0, 0, 0, 0])
  h ++ Config.mldsaSign h
/-- A quote or certificate write begins, or ends ERROR without LPDDR5; nothing while one is BUSY (R640). -/
def State.quoteBegin (s : State) (b : List Byte) : State :=
  if !s.running secPage ∨ s.fld R.SEC_QUOTE_STAT 1 0 = 1 then s
  else if !s.dramUp then (s.setReg R.SEC_QUOTE_STAT 3).irq secPage 10
  else (s.setSec fun c => { c with quote := b }).setReg R.SEC_QUOTE_STAT 1
/-- QUOTE_START (R638). -/
def execQuoteStart (who : Initiator) (s : State) : Host.Outcome State Fault Refusal :=
  .next (s.gate who R.SEC_QUOTE_CMD fun s => s.quoteBegin s.quoteBytes)
/-- QUOTE_CERT (R638). -/
def execQuoteCert (who : Initiator) (s : State) : Host.Outcome State Fault Refusal :=
  .next (s.gate who R.SEC_QUOTE_CMD fun s => s.quoteBegin Config.certificate)
/-- QUOTE_DONE: the bytes reach QUOTE_ADDR in LPDDR5 (R638). -/
def execQuoteDone (s : State) : Host.Outcome State Fault Refusal :=
  if s.fld R.SEC_QUOTE_STAT 1 0 ≠ 1 ∨ !s.active secPage then .next s
  else
    let b := s.sec.quote
    let a := s.reg64 R.SEC_QUOTE_ADDR_LO R.SEC_QUOTE_ADDR_HI
    let s := (s.setSec fun c => { c with quote := [] }).irq secPage 10
    if s.dramUp && inDram a b.length then .next ({ s with dram := wrBytes s.dram a b }.setReg R.SEC_QUOTE_STAT 2)
    else .next (s.setReg R.SEC_QUOTE_STAT 3)

/-! ### The command port's end (R623, R728) -/

/-- A command ends with a result: its registers, CMD_DONE, and a record unless ACCEPTED. -/
def State.cmdEnd (s : State) (res : Nat) (h : List Byte) : State :=
  let slot := fieldN h 2 1
  let s := s.setSec fun c => { c with buf := [] }
  let s := s.setRegs [(R.SEC_CMD_STAT, wd (3 + 256 * res + 65536 * slot)), (R.SEC_CMD_CTR_LO, wd (fieldN h 8 4)), (R.SEC_CMD_CTR_HI, wd (fieldN h 12 4))]
  let s := s.irq secPage 8
  if res = 0 then s
  else s.emit evCmdRefused secPage [wd (fieldN h 1 1), wd slot, wd (fieldN h 4 4), wd (fieldN h 8 4), wd (fieldN h 12 4), wd res]
/-- Bytes received so far. -/
def State.cmdBytes (s : State) : List Byte := s.sec.buf.reverse.flatMap fun w => leBytes 4 w.toNat
/-- A command being received ends ABORTED. -/
def State.cmdDrop (s : State) : State := if s.fld R.SEC_CMD_STAT 1 0 = 1 then s.cmdEnd 6 s.cmdBytes else s
/-- SEC leaves RUN: what runs ends ABORTED (R99, R635, R728). -/
def State.secStop (s : State) : State :=
  let s := s.cmdDrop.fwAbort
  if s.fld R.SEC_QUOTE_STAT 1 0 = 1 then ((s.setSec fun c => { c with quote := [] }).setReg R.SEC_QUOTE_STAT 3).irq secPage 10 else s

end Sys2Proof.Machine
end

