-- ==== Sys2Proof/Machine/Blocks.lean ====
section
/-! DEFINITION. Block states (R87, R96 to R99): what a CTRL request does, what each block does on entering and leaving RUN,
and the LPDDR5 controller (R84, R85). -/

namespace Sys2Proof.Machine

/-! ### Configuration -/

/-- Offsets of a row's registers. -/
def rowOffsets (r : RegRow) : List Nat :=
  (List.range (max 1 r.n1)).flatMap fun i => (List.range (max 1 r.n2)).map fun j => r.ofs + r.st1 * i + r.st2 * j
/-- First configuration register of a page outside the range its Purpose states. -/
def State.rangeBad (s : State) (p : Nat) : Option Nat :=
  (pageRows p).findSome? fun r =>
    if r.acc = .rws ∧ (r.lo ≠ 0 ∨ r.hi ≠ 4294967295) then
      (rowOffsets r).find? fun o => let v := s.regN (pageBase p + o); decide (v < r.lo ∨ r.hi < v)
    else none
/-- Why a RUN request on the block of page p is refused: ERRCODE and DETAIL (R96 and the blocks' chapters). -/
def State.runBad (s : State) (p : Nat) (val : Word) : Option (Nat × Nat) :=
  let refused : Option (Nat × Nat) := some (8, val.toNat)
  let range : Option (Nat × Nat) := ((pagesOf p).findSome? s.rangeBad).map fun o => (4, o)
  if p = 57 ∧ !s.sec.kind3 then refused
  else if p = 64 ∧ s.lge.image.isNone then some (0x100, 0)
  else if p = 64 ∧ s.kpr.pdLog.isNone then refused
  else if 96 ≤ p ∧ p ≤ 111 ∧ !s.running 80 then refused
  else if 161 ≤ p ∧ p ≤ 168 ∧ !s.running 160 then refused
  else match range with
    | some e => some e
    | none =>
      if p = 48 then s.nsuBad else if p = 56 then s.btkBad else if p = 57 then s.dsqBad
      else if p = 80 then s.stlBad else if 96 ≤ p ∧ p ≤ 111 then s.stbBad (p - 96)
      else if 112 ≤ p ∧ p ≤ 117 then s.ethBad (p - 112) else if p = 120 then s.ptpBad
      else if p = 128 then s.plkBad else if 144 ≤ p ∧ p ≤ 155 then s.canBad (p - 144)
      else if p = 160 then s.axsBad else if 161 ≤ p ∧ p ≤ 168 then s.dlkBad (p - 161)
      else if p = 176 then s.mtrBad else if p = 192 then s.pnlBad else if p = 224 then s.gpioBad
      else if p = 225 then s.plsBad else none

/-! ### Entering and leaving RUN -/

/-- What a block does on entry to RUN. `crit`: the request was a critical command, which clears a latched trip (R601). -/
def State.onRun (s : State) (p : Nat) (crit : Bool) : State :=
  if p = 34 then s.flushLog
  else if p = 48 then s.nsuStart
  else if p = 56 then s.btkStart
  else if p = 64 then
    let s := if crit && s.kpr.trip then (s.setKpr fun k => { k with trip := false }).safeUpdate else s
    s.lgeStart
  else if 96 ≤ p ∧ p ≤ 111 then s.stbStart (p - 96)
  else if p = 120 then s.ptpStart
  else if p = 121 then { s with cap := tabMap (fun _ => {}) (fun _ c => { c with newest := none }) s.cap }
  else if p = 128 then s.plkStart
  else if 144 ≤ p ∧ p ≤ 155 then s.canStart (p - 144)
  else if 161 ≤ p ∧ p ≤ 168 then s.dlkStart (p - 161)
  else if p = 176 then s.mtrStart
  else if p = 192 then s.pnlStart
  else if p = 224 then s.gpioStart
  else s
/-- What a block does when a drain begins (R99). -/
def State.onDrain (s : State) (p : Nat) : State :=
  if p = 32 then s.cmdDrop
  else if p = 48 then s.jobsDrain
  else if p = 56 then s.fcAbort
  else if p = 57 then s.passesStopped
  else if p = 128 then s.plkStop
  else if 161 ≤ p ∧ p ≤ 168 then s.dlkDrain (p - 161)
  else s
/-- DRM leaves RUN: the BTK loses LPDDR5 (R85, R254). -/
def State.drmGone (s : State) : State := if s.active 56 then (s.btkLost.fail 56 0x101 0).passesDown else s
/-- What a block does on entry to STOP by drain (R99, R361); the LGE's STOP-marked read suspends the watchdog (R354, log entry 61). -/
def State.onStop (s : State) (p : Nat) : State :=
  if p = 32 then s.secStop
  else if p = 34 then s.flushLog
  else if p = 57 then s.dsqStop
  else if p = 64 then s.captureSave.stopMark.setReg R.LGE_PHASE 0
  else if 112 ≤ p ∧ p ≤ 117 then s.ethStop (p - 112)
  else if p = 120 then s.ptpStop
  else if p = 128 then s.plkStop
  else if 144 ≤ p ∧ p ≤ 155 then s.canStop (p - 144) false
  else if p = 176 then s.mtrStop
  else if p = 192 then s.pnlStop
  else if p = drmPage then s.drmGone
  else s
/-- What a block does when its work is abandoned (R99). -/
def State.onForce (s : State) (p : Nat) : State :=
  if p = 32 then s.secStop
  else if p = 48 then s.jobsAbort
  else if p = 56 then s.btkAbandon
  else if p = 57 then s.dsqStop
  else if 96 ≤ p ∧ p ≤ 111 then s.stbForce (p - 96)
  else if 112 ≤ p ∧ p ≤ 117 then s.ethStop (p - 112)
  else if p = 120 then s.ptpStop
  else if p = 128 then s.plkStop
  else if 144 ≤ p ∧ p ≤ 155 then s.canStop (p - 144) true
  else if 161 ≤ p ∧ p ≤ 168 then s.dlkForce (p - 161)
  else if p = 176 then s.mtrStop
  else if p = 192 then s.pnlStop
  else if p = drmPage then s.drmGone
  else if p = 225 then s.plsForce
  else s
/-- The block of page p enters FAULT, its work abandoned as by FORCE_STOP; the LGE makes a HALT-marked read (R91, R96, R355),
and a DSQ in FAULT discards a pending model (R160). -/
def State.blockFault (s : State) (p code detail : Nat) : State :=
  if s.shown p = 0 ∨ s.shown p = 4 then s
  else if p = 64 then s.haltMark code detail
  else
    let s := if s.active p then (if p = 57 then s.passesStopped else s.onForce p) else s
    let s := if p = 57 then s.mdlDrop else s
    (s.fail p code detail).passesDown
/-- CTRL.REQ takes a value. -/
def State.setReq (s : State) (p n : Nat) : State := s.setBlk p { s.blk p with req := BitVec.ofNat 3 n }
/-- A request is refused with an error code: REQ_REJ, ERRCODE, recorded (R96). -/
def State.refuse (s : State) (p : Nat) (val : Word) (e : Nat × Nat) : State := ((s.irq p 2).errc p e.1 e.2).emit 3 p [val, wd e.1]
/-- CTRL.REQ = RUN (R96). DRM shows RUN only once it is trained (R85). -/
def State.reqRun (s : State) (p : Nat) (crit : Bool) (val : Word) : State :=
  if s.shown p = 3 then s.setReq p 3
  else if s.shown p ≠ 1 then s.refuse p val (8, val.toNat)
  else match s.runBad p val with
    | some e => s.refuse p val e
    | none => if p = drmPage then (s.setReq p 3).setFld R.DRM_TRAIN_STAT 1 0 0 else (s.toRun p).onRun p crit
/-- A STOP of STL or AXS is refused while a stable or a link is not in STOP or OFF (R417, R508). -/
def State.stopRefused (s : State) (p : Nat) : Bool :=
  let idle (q : Nat) : Bool := s.shown q == 0 || s.shown q == 1
  noStop p || (p == 80 && !((List.range 16).all fun n => idle (96 + n))) || (p == 160 && !((List.range 8).all fun n => idle (161 + n)))
/-- A drain ends: STOP (R96). -/
def State.drained (s : State) (p : Nat) : State := (s.onStop p).setSt p .stop
/-- CTRL.REQ = STOP (R96); a block with no drain unit stops at once (R99). While DRM trains, the request is withdrawn with it, and the end
of the training starts nothing (DESIGN CHOICE, log entry 84). -/
def State.reqStop (s : State) (p : Nat) (val : Word) : State :=
  if s.stopRefused p then s.refuse p val (8, val.toNat)
  else if s.shown p = 3 then
    let s := (((s.setReq p 1).setSt p .drain).onDrain p).passesDown
    if p = 120 ∨ p = 121 ∨ p = 224 then s.drained p else s
  else s.setReq p 1
/-- CTRL.FORCE_STOP (R96, R97, R99). The LGE takes the halt of R355 instead of a STOP. -/
def State.reqForce (s : State) (p : Nat) (val : Word) : State :=
  if noStop p then s.refuse p val (8, val.toNat)
  else if !s.active p then s
  else if p = 64 then ((s.setReq p 1).haltMark 0x104 0)
  else (((s.onForce p).setReq p 1).toStopAbandoned p).passesDown
/-- Rails of a domain, as bits of RAIL_MON (R44, R46). -/
def railsOf (k : Nat) : Nat :=
  if k = 7 then 0x3 else if k = 4 ∨ k = 5 then 0x100 else if k = 9 then 0x1E00 else if k = 8 then 0x18000 else if k = 11 then 0x60000 else 0
/-- The cause of a FAULT is gone as far as the registers show it. -/
def State.causeGone (s : State) (p : Nat) : Bool :=
  let k := domOf p
  let e := (s.page p).err
  (!e.getLsbD sbClk || s.flag R.CLK_ISL_STAT k) && (!e.getLsbD sbBo || s.regN R.PWR_RAIL_MON &&& railsOf k == railsOf k) &&
    !(p == 48 && s.fld R.NSU_ACTIVE 7 4 == 15) && !(p == 16 && s.kpr.stopped)
/-- FAULT is left: STOP, or RUN for a block that cannot be stopped (R96, R99). -/
def State.faultLeft (s : State) (p : Nat) : State :=
  let s := (pagesOf p).foldl (fun (s : State) q => (s.statBit q sbClk false).statBit q sbBo false) s
  if noStop p then s.toRun p else s.setSt p .stop
/-- CTRL.FAULT_CLR: refused while the cause persists, and in any state but FAULT (R96, R97). -/
def State.reqClear (s : State) (p : Nat) (val : Word) (gone : Bool) : State :=
  if s.shown p = 4 ∧ gone then s.faultLeft p else s.refuse p val (8, val.toNat)

/-! ### The run record (R704, R705) -/

/-- Bit of RUN_REC of a page. -/
def runBit (p : Nat) : Option Nat :=
  if p = 64 then some 0 else if p = 80 then some 1 else if 96 ≤ p ∧ p ≤ 111 then some (p - 94) else if p = 128 then some 18
  else if 144 ≤ p ∧ p ≤ 155 then some (p - 125) else if p = 160 then some 31 else if 161 ≤ p ∧ p ≤ 168 then some (p - 129)
  else if p = 176 then some 40 else if p = 225 then some 41 else if p = 48 then some 42 else if p = 56 then some 43 else if p = 57 then some 44
  else if 112 ≤ p ∧ p ≤ 117 then some (p - 67) else if p = 120 then some 51 else if p = 121 then some 52 else if p = 224 then some 53
  else if p = 192 then some 54 else none
/-- Note a request that reached a page. -/
def State.noteRun (s : State) (p : Nat) (run : Bool) : State :=
  match runBit p with
  | none => s
  | some b => if b < 32 then s.setFlag R.SYS_RUN_REC_LO b run else s.setFlag R.SYS_RUN_REC_HI (b - 32) run
/-- The request of a CTRL write: RUN, STOP, or a value that is none. A field of 0 beside FORCE_STOP or FAULT_CLR asks for nothing. -/
def State.reqTake (s : State) (p : Nat) (crit : Bool) (val : Word) : State :=
  let req := bits val 2 0
  if req = 3 then s.reqRun p crit val
  else if req = 1 then s.reqStop p val
  else if req = 0 ∧ (bit val 8 ∨ bit val 9) then s
  else s.refuse p val (8, val.toNat)
/-- A write of CTRL that reaches the block: FAULT_CLR, then FORCE_STOP, then the request. A FORCE_STOP that acts takes the request
of its write as STOP; in STOP and FAULT it has no effect (R97). A further page drops the write (R87), and from the latch of a
power-fail warning no request is taken (R98). DESIGN CHOICE in the order, log entry 83. -/
def State.ctrlReach (s : State) (p : Nat) (crit : Bool) (val : Word) : State :=
  if firstPage p ≠ p ∨ s.pwr.saving ∨ s.shown p = 0 then s
  else
    let req := bits val 2 0
    let s := if bit val 8 ∨ req = 1 then s.noteRun p false else if req = 3 then s.noteRun p true else s
    let s := if bit val 9 then s.reqClear p val (s.causeGone p) else s
    if bit val 8 && (noStop p || s.active p) then s.reqForce p val else s.reqTake p crit val
/-- A write of CTRL by an initiator: on a further page it is dropped and raises nothing (R87), and a plain write to a page with
OWNER.CRIT is dropped and recorded (R93). -/
def State.ctrlWrite (s : State) (who : Initiator) (p : Nat) (val : Word) : State :=
  s.gate who (pageBase p + 0xC) fun s =>
    if firstPage p ≠ p then s
    else if critOf p && who != .quay then s.protDrop p 0xC false else s.ctrlReach p (who == .quay) val

/-! ### Rows -/

/-- BLOCK_RUN_REQ (R96). -/
def execBlockRunReq (who : Initiator) (b : Block) (s : State) : Host.Outcome State Fault Refusal := .next (s.ctrlWrite who (blockPage b) 3)
/-- BLOCK_STOP_REQ (R96). -/
def execBlockStopReq (who : Initiator) (b : Block) (s : State) : Host.Outcome State Fault Refusal := .next (s.ctrlWrite who (blockPage b) 1)
/-- FORCE_STOP (R96). -/
def execForceStop (who : Initiator) (b : Block) (s : State) : Host.Outcome State Fault Refusal := .next (s.ctrlWrite who (blockPage b) 0x101)
/-- FAULT_CLR; `gone` says that the cause of the FAULT has ended, an island being locked and the rails in range again (R96, R97). -/
def execFaultClr (who : Initiator) (b : Block) (gone : Bool) (s : State) : Host.Outcome State Fault Refusal :=
  let p := blockPage b
  .next (s.gate who (pageBase p + 0xC) fun s =>
    if critOf p && who != .quay then s.protDrop p 0xC false
    else if s.pwr.saving then s
    else
      let e := (s.page p).err
      let fault : Bool := s.shown p == 4
      let s := if fault && gone && e.getLsbD sbClk then s.setFlag R.CLK_ISL_STAT (domOf p) true else s
      let s := if fault && gone && e.getLsbD sbBo then s.setReg R.PWR_RAIL_MON (s.reg R.PWR_RAIL_MON ||| wd (railsOf (domOf p))) else s
      s.reqClear p 0x200 (gone && s.causeGone p))
/-- An axis of drive link n moves. -/
def State.linkMoves (s : State) (n : Nat) : Bool :=
  (List.range 16).any fun d => let x := (s.axis (16 * n + d)).st; x == .moving || x == .referencing
/-- A stall of stable n has an exchange in flight. -/
def State.stableBusy (s : State) (n : Nat) : Bool :=
  (List.range 64).any fun i => let x := s.stall (64 * n + i); x.rd.isSome || x.wr.isSome
/-- The drain unit of a block still runs, as far as the state shows it (R99). -/
def State.drainBusy (s : State) (p : Nat) : Bool :=
  (p == 48 && !s.nsu.jobs.isEmpty) || (p == 56 && s.btk.next.isSome) || (p == 57 && !s.nsu.jobs.isEmpty) ||
    (p == 64 && s.regN R.LGE_PHASE != 0 && s.regN R.LGE_PHASE != 6) ||
    (decide (96 ≤ p ∧ p ≤ 111) && s.stableBusy (p - 96)) ||
    (decide (144 ≤ p ∧ p ≤ 155) && [0, 1, 2].any fun b => s.txbSt (p - 144) b == 2) ||
    (decide (161 ≤ p ∧ p ≤ 168) && s.linkMoves (p - 161)) || (p == 225 && (List.range 16).any fun o => (s.pulse o).high)
/-- DRAIN_COMPLETE (R99). -/
def execDrainComplete (b : Block) (s : State) : Host.Outcome State Fault Refusal :=
  let p := blockPage b
  .next (if s.shown p ≠ 2 ∨ s.drainBusy p then s else s.drained p)
/-- DRAIN_TIMEOUT: as FORCE_STOP, with DRAIN_TIMEOUT (R96). -/
def execDrainTimeout (b : Block) (s : State) : Host.Outcome State Fault Refusal :=
  let p := blockPage b
  if s.shown p ≠ 2 then .next s
  else if p = 64 then .next (s.haltMark 5 0)
  else .next (((s.onForce p).toStopAbandoned p).errc p 5 0)

/-! ### LPDDR5 controller (R84, R85) -/

/-- TRAIN_DONE: training ends, with the cause TRAIN_DONE in either case (DESIGN CHOICE, log entry 84). A failed channel and its step
number less 1 end it; how far the other channel came is not stated and its bit is free. -/
def execTrainDone (failed : Option (Fin 2 × Fin 5)) (s : State) : Host.Outcome State Fault Refusal :=
  if s.shown drmPage ≠ 1 ∨ (s.blk drmPage).req ≠ 3 then .next s
  else match failed with
    | none => .next (((s.setFld R.DRM_TRAIN_STAT 1 0 3).toRun drmPage).irq drmPage 8)
    | some (c, step) =>
      let f := s.fresh
      let n := step.val + 1
      let s := f.2.setReg R.DRM_TRAIN_STAT (wd (b2n (f.1.getLsbD 0) * 2 ^ (1 - c.val) + 256 * n))
      .next ((s.fail drmPage 0x100 (c.val + 256 * n)).irq drmPage 8)
/-- DRM_REFRESH: in every state but OFF; the code the dies report is shown. The HOT cause rises when REFRESH.HOT becomes 1
(DESIGN CHOICE, log entry 84). -/
def execDrmRefresh (code : BitVec 4) (hot : Bool) (s : State) : Host.Outcome State Fault Refusal :=
  if !s.up 9 then .next s
  else
    let was := s.flag R.DRM_REFRESH 8
    let s := s.setReg R.DRM_REFRESH (wd (code.toNat + 256 * b2n hot))
    .next (if hot && !was then s.irq drmPage 9 else s)
/-- DRM_SCRUB: one burst, at SCRUB_POS. SCRUB_POS counts bytes of the 4 GiB from 0, and an UE_ADDR latched here too (DESIGN CHOICE,
log entry 84). -/
def execDrmScrub (res : Ecc) (s : State) : Host.Outcome State Fault Refusal :=
  if !s.running drmPage ∨ !s.flag R.DRM_DRM_CFG 1 then .next s
  else
    let a := s.reg64 R.DRM_SCRUB_POS_LO R.DRM_SCRUB_POS_HI
    let s := match res with | .clean => s | .corrected => s.drmCe | .uncorrectable => s.drmUe a
    .next (s.setReg64 R.DRM_SCRUB_POS_LO R.DRM_SCRUB_POS_HI ((a + burstBytes) % 2 ^ 32))

end Sys2Proof.Machine
end

