-- ==== Sys2Proof/Machine/Quay.lean ====
section
/-! DEFINITION. The command quay and the command port of SEC (R33 to R36, R616 to R623, R627, R727). -/

namespace Sys2Proof.Machine

/-! ### The form of a command (R616, R618, R619, R727) -/

/-- TARGET suits OP (R618). -/
def cmdSuits (op target : Nat) : Bool :=
  if op = 1 then target % 0x1000 == 0 && decide (0x40000000 ≤ target ∧ target < 0x40100000) && isPage (pageOf target) && critOf (pageOf target)
  else if op = 2 ∨ op = 3 then target == 0x40040000
  else if op = 4 then target == 0x40010000
  else if op = 5 then target == 0x40022000
  else if op = 6 ∨ op = 7 then target == 0x40020000
  else op == 8 && target == 0x40080000
/-- Item i of an ONLINE_CHANGE or FORCE payload. -/
def cmdItem (p : List Byte) (i : Nat) : List Byte := (p.drop (4 + 16 * i)).take 16
/-- The payload has the layout of its OP (R727). -/
def payloadOk (op slot : Nat) (p : List Byte) : Bool :=
  let n := p.length
  let k := fieldN p 0 1
  if op = 1 then n == 4
  else if op = 2 ∨ op = 3 then
    decide (1 ≤ k ∧ k ≤ 16 ∧ n = 4 + 16 * k) && fieldN p 1 3 == 0 &&
      (List.range k).all fun i =>
        let e := cmdItem p i
        if op = 2 then fieldN e 4 4 == 0 else decide (fieldN e 0 1 ≤ 2) && fieldN e 3 1 == 0
  else if op = 4 then decide (40 ≤ n ∧ n ≤ 4136)
  else if op = 5 then n == 16 && fieldN p 8 8 == 0
  else if op = 6 then n == (if slot = 255 then 1992 else 40) && decide (k ≤ 15 ∧ fieldN p 1 1 ≤ 3) && fieldN p 4 4 == 0
  else if op = 7 then n == 48 && decide (1 ≤ k ∧ k ≤ 7) && fieldN p 1 7 == 0
  else n == 0
/-- Bytes of a tag, or of an owner's signature (R616, R627). -/
def sigLen (slot : Nat) : Nat := if slot = 255 then 3309 else 16
/-- A command of these bytes is refused with FORMAT (R619, R727). -/
def formatBad (b : List Byte) : Bool :=
  let op := fieldN b 1 1
  let slot := fieldN b 2 1
  let len := fieldN b 0x18 4
  let n := 32 + len + sigLen slot
  !(fieldN b 0 1 == 1 && decide (1 ≤ op ∧ op ≤ 8) && fieldN b 3 1 == 0 && fieldN b 0x1C 4 == 0 &&
    (slot != 255 || op == 6) && decide (len ≤ 4160) && b.length == (n + 3) / 4 * 4 && allZero (b.drop n) &&
    fieldN b 0x10 8 == Config.uid.toNat && cmdSuits op (fieldN b 4 4) && payloadOk op slot ((b.drop 32).take len))

/-! ### Checks (R619 to R621, R627) -/

/-- Refused with SLOT: a command of a slot that may not sign it (R619, R620). -/
def State.slotBad (s : State) (op slot : Nat) : Bool :=
  slot != 255 &&
    (decide (16 ≤ slot) || (s.key slot).use != 1 || !(s.key slot).perms.getLsbD (op - 1) || (s.key slot).ctr == 2 ^ 64 - 1)
/-- Refused with TAG (R617), or for the owner's key or signature (R627). -/
def State.tagBad (s : State) (b : List Byte) : Bool :=
  let slot := fieldN b 2 1
  let n := 32 + fieldN b 0x18 4
  let hp := b.take n
  let tag := (b.drop n).take (sigLen slot)
  if slot = 255 then
    let pk := (b.drop 72).take 1952
    !(Config.ownerDigest == some (digest32 pk) && Config.mldsaVerify pk (shake256 hp 64) tag)
  else tag != kmac256 (s.key slot).key hp 16 "LMP CMD"
/-- Last accepted counter of a slot, or of the owner. -/
def State.lastCtr (s : State) (slot : Nat) : Nat := if slot = 255 then s.sec.ownerCtr else (s.key slot).ctr
/-- The counter is stored before anything else (R34, R620). -/
def State.storeCtr (s : State) (slot n : Nat) : State :=
  if slot = 255 then s.setSec fun c => { c with ownerCtr := n }
  else
    let s := s.setKey slot { s.key slot with ctr := n }
    if n = 2 ^ 64 - 1 then s.errc secPage 0x102 slot else s
/-- A KEY_CHANGE payload (R625). -/
def keyChangeOf (p : List Byte) : KeyChange :=
  ⟨p.getD 0 0, p.getD 1 0, BitVec.ofNat 16 (fieldN p 2 2), (p.drop 8).take 32⟩
/-- Refused with TARGET (R621). -/
def State.targetBad (s : State) (op target : Nat) (p : List Byte) : Bool :=
  !s.up (domOf (pageOf target)) || decide (16 ≤ (s.sec.queue.filter fun c => c.target == target).length) ||
    (op == 3 && !s.acts) || (op == 5 && !s.running 34) || (op == 6 && s.keyRefused (keyChangeOf p)) ||
    (op == 7 && s.fwRefused) || (op == 8 && !s.switchOk)

/-! ### Delivery (R35, R622) -/

/-- What a command does at its target. -/
def State.applyCmd (s : State) (c : QuayCmd) : State :=
  let p := c.payload
  let n := fieldN p 0 1
  if c.op = 1 then s.ctrlReach (pageOf c.target) true (wd (fieldN p 0 4))
  else if c.op = 2 then
    s.applyChange ((List.range n).map fun i => let e := cmdItem p i; ⟨wd (fieldN e 0 4), BitVec.ofNat 64 (fieldN e 8 8)⟩)
  else if c.op = 3 then
    s.applyForces ((List.range n).map fun i =>
      let e := cmdItem p i
      ⟨e.getD 0 0, e.getD 1 0, e.getD 2 0, wd (fieldN e 4 4), BitVec.ofNat 64 (fieldN e 8 8)⟩)
  else if c.op = 4 then
    s.segment ⟨p.getD 0 0, p.getD 1 0, BitVec.ofNat 16 (fieldN p 2 2), wd (fieldN p 4 4), (p.drop 8).take 32, p.drop 40⟩
  else if c.op = 5 then s.logClear (BitVec.ofNat 8 c.slot) (BitVec.ofNat 64 c.counter) (BitVec.ofNat 64 (fieldN p 0 8))
  else if c.op = 6 then s.keyApply c.slot (BitVec.ofNat 64 c.counter) (keyChangeOf p)
  else if c.op = 7 then s.fwStart ⟨p.getD 0 0, BitVec.ofNat 64 (fieldN p 8 8), (p.drop 16).take 32⟩
  else s.switchTake
/-- The target takes commands at a boundary of its own: the LGE while it runs cycles, CAN channels and drive links in
RUN; a FORCE_STOP never waits (R35, R622). -/
def State.waitsFor (s : State) (c : QuayCmd) : Bool :=
  let p := pageOf c.target
  !(c.op == 1 && fieldN c.payload 1 1 % 2 == 1) && s.running p &&
    ((p == 64 && s.acts) || decide ((144 ≤ p ∧ p ≤ 155) ∨ (161 ≤ p ∧ p ≤ 168)))
/-- Queue a command in counter order among those of its target. -/
def quayPut (c : QuayCmd) : List QuayCmd → List QuayCmd
  | [] => [c]
  | x :: t => if x.target = c.target ∧ c.counter < x.counter then c :: x :: t else x :: quayPut c t
/-- Deliver every command queued for a target, in counter order. What reaches it after the latch of a power-fail warning is
lost (R622). -/
def State.deliverAll (s : State) (target : Nat) : State :=
  let mine := s.sec.queue.filter fun c => c.target == target
  let s := s.setSec fun q => { q with queue := q.queue.filter fun c => c.target != target }
  if s.pwr.saving then s else mine.foldl (fun s c => s.applyCmd c) s
/-- Put an accepted command on its way. A FORCE_STOP passes those that wait. -/
def State.deliver (s : State) (c : QuayCmd) : State :=
  if s.waitsFor c then s.setSec fun q => { q with queue := quayPut c q.queue }
  else if c.op = 1 ∧ fieldN c.payload 1 1 % 2 = 1 then s.applyCmd c
  else (s.setSec fun q => { q with queue := quayPut c q.queue }).deliverAll c.target
/-- The save sequence that WARM_OK rests on is consumed (R705). -/
def State.warmConsume (s : State) : State :=
  if s.flag R.SYS_START_STAT 0 then
    { s.setFlag R.SYS_START_STAT 0 false with pwr := { s.pwr with consumed := s.reg64 R.PWR_SAVE_SEQ_LO R.PWR_SAVE_SEQ_HI } }
  else s
/-- The checks in their order, then delivery (R33, R34, R619 to R623). -/
def State.cmdCheck (s : State) (b : List Byte) : State :=
  let op := fieldN b 1 1
  let slot := fieldN b 2 1
  let target := fieldN b 4 4
  let ctr := fieldN b 8 8
  let p := (b.drop 32).take (fieldN b 0x18 4)
  if s.pwr.saving then s.cmdEnd 6 b
  else if formatBad b then s.cmdEnd 1 b
  else if s.slotBad op slot then s.cmdEnd 2 b
  else if s.tagBad b then s.cmdEnd 3 b
  else if ctr ≤ s.lastCtr slot then s.cmdEnd 4 b
  else
    let s := s.storeCtr slot ctr
    if s.targetBad op target p then s.cmdEnd 5 b
    else
      let s := s.cmdEnd 0 b
      let s := if op = 1 ∧ fieldN p 0 1 % 8 = 3 ∧ fieldN p 1 1 % 2 = 0 then s.warmConsume else s
      s.deliver ⟨op, target, slot, ctr, p⟩

/-! ### The port (R623, R728) -/

/-- CMD_BEGIN: a command begins, unless one is being received. -/
def execCmdBegin (who : Initiator) (s : State) : Host.Outcome State Fault Refusal :=
  .next (s.gate who R.SEC_CMD_CTRL fun s =>
    if !s.running secPage then s
    else if s.fld R.SEC_CMD_STAT 1 0 = 1 then s.errc secPage 0x100 0
    else (s.setSec fun c => { c with buf := [] }).setReg R.SEC_CMD_STAT 1)
/-- CMD_DATA: the next word. A command of more words than the largest has is no longer one; what lies past it is dropped. -/
def execCmdData (who : Initiator) (val : Word) (s : State) : Host.Outcome State Fault Refusal :=
  .next (s.gate who R.SEC_CMD_DATA fun s =>
    if !s.running secPage ∨ s.fld R.SEC_CMD_STAT 1 0 ≠ 1 then s
    else s.setSec fun c => { c with buf := val :: c.buf })
/-- CMD_SUBMIT: check and deliver, or refuse. -/
def execCmdSubmit (who : Initiator) (s : State) : Host.Outcome State Fault Refusal :=
  .next (s.gate who R.SEC_CMD_CTRL fun s =>
    if !s.running secPage ∨ s.fld R.SEC_CMD_STAT 1 0 ≠ 1 then s else s.cmdCheck s.cmdBytes)
/-- CMD_ABORT: the command being received ends ABORTED. -/
def execCmdAbort (who : Initiator) (s : State) : Host.Outcome State Fault Refusal :=
  .next (s.gate who R.SEC_CMD_CTRL fun s => if s.running secPage then s.cmdDrop else s)

/-! ### Commands as delivered -/

/-- The target of page p is at no boundary now: the LGE while it runs cycles, whose BOUNDARY phase is a part of FRAME_TAKEN and takes what
came before it (R376), and a CAN channel that sends a frame (R35). A drive link's frames are whole steps. -/
def State.betweenBounds (s : State) (p : Nat) : Bool :=
  if p = lgePage then s.active lgePage && s.acts
  else decide (144 ≤ p ∧ p ≤ 155) && [0, 1, 2].any fun b => s.fld (R.CAN_TXB_STAT (p - 144)) (4 * b + 1) (4 * b) == 2
/-- COMMAND_DELIVER: the oldest command queued for a target, in counter order, takes effect at the target's boundary (R35). -/
def execCommandDeliver (target : Word) (s : State) : Host.Outcome State Fault Refusal :=
  let t := target.toNat
  match s.sec.queue.find? fun c => c.target == t with
  | none => .next s
  | some c =>
    if s.betweenBounds (pageOf t) then .next s
    else
      let s := s.setSec fun q => { q with queue := q.queue.erase c }
      .next (if s.pwr.saving then s else s.applyCmd c)
/-- A critical command that comes to its target waits for the target's next boundary, behind those that wait there already; where the
target is at one, or in no RUN, it has its effect `k` at once (R35, R376, R622). A FORCE_STOP never waits. -/
def State.arrive (s : State) (c : QuayCmd) (k : State → State) : State :=
  if s.waitsFor c && s.betweenBounds (pageOf c.target) then
    let last := (s.sec.queue.filter fun x => x.target == c.target).foldl (fun n x => max n x.counter) 0
    s.setSec fun q => { q with queue := quayPut { c with counter := last } q.queue }
  else k s
/-- Payload of a command of items: their number, then 16 bytes of each (R618, R376). -/
def itemPayload (l : List (List Byte)) : List Byte := leBytes 4 l.length ++ l.flatten
/-- BLOCK_CTRL: CTRL of a page with OWNER.CRIT takes the value (R93, R618). -/
def execBlockCtrl (target val : Word) (s : State) : Host.Outcome State Fault Refusal :=
  .next (if s.pwr.saving ∨ !cmdSuits 1 target.toNat ∨ !s.up (domOf (pageOf target.toNat)) then s
    else s.arrive ⟨1, target.toNat, 0, 0, leBytes 4 val.toNat⟩ fun s => s.ctrlReach (pageOf target.toNat) true val)
/-- ONLINE_CHANGE (R376, R377). -/
def execOnlineChange (items : List OcItem) (s : State) : Host.Outcome State Fault Refusal :=
  .next (if s.pwr.saving ∨ s.shown lgePage = 0 then s
    else s.arrive ⟨2, 0x40040000, 0, 0, itemPayload (items.map fun i => leBytes 4 i.sym.toNat ++ leBytes 4 0 ++ leBytes 8 i.val.toNat)⟩ fun s => s.applyChange items)
/-- FORCE (R376, R378, R564). -/
def execForce (items : List ForceItem) (s : State) : Host.Outcome State Fault Refusal :=
  .next (if s.pwr.saving ∨ s.shown lgePage = 0 then s
    else s.arrive ⟨3, 0x40040000, 0, 0,
      itemPayload (items.map fun i => [i.op, i.width, i.bit, 0] ++ leBytes 4 i.addr.toNat ++ leBytes 8 i.val.toNat)⟩ fun s => s.applyForces items)
/-- LOG_CLEAR (R656). -/
def execLogClear (slot : Byte) (counter archived : DWord) (s : State) : Host.Outcome State Fault Refusal :=
  .next (if s.pwr.saving ∨ !s.running 34 then s else s.logClear slot counter archived)
/-- SWITCH (R570). -/
def execSwitch (s : State) : Host.Outcome State Fault Refusal :=
  .next (if s.pwr.saving ∨ !s.switchOk then s else s.switchTake)

end Sys2Proof.Machine
end

