-- ==== Sys2Proof/Machine/Power.lean ====
section
/-! DEFINITION. Power domains, resets, clock checks, the power-fail save and start-up (R43 to R83, R694 to R708). -/

namespace Sys2Proof.Machine

/-- Kind numbers of this chapter's records. -/
abbrev evPfw : Nat := 148
abbrev evTimeRec : Nat := 149
abbrev evBrownout : Nat := 150
abbrev evReplay : Nat := 151

def State.setPwr (s : State) (f : PwrSt → PwrSt) : State := { s with pwr := f s.pwr }

/-! ### What a domain loses (R50 to R52, R65) -/

/-- Registers in MRAM, in PD_RTC, or that outlive a reset (R82, R83, R704, R710): the measured rails are not the reset's to change
(log entry 2). -/
def nvReg (a : Nat) : Bool :=
  decide ((0x40023800 ≤ a ∧ a < 0x40024000) ∨ (0x40021800 ≤ a ∧ a < 0x40021840)) ||
    [R.SYS_RUN_REC_LO, R.SYS_RUN_REC_HI, R.PWR_SAVE_STAT, R.PWR_SAVE_SEQ_LO, R.PWR_SAVE_SEQ_HI, R.PWR_RST_CAUSE, R.PWR_RAIL_MON].contains a
/-- What of the recorder is in MRAM. -/
def evrNv (e : EvrSt) : EvrSt := { data := e.data, ctl := e.ctl }
/-- What of the panel driver is in MRAM. -/
def pnlNv (p : PnlSt) : PnlSt := { table := p.table, img := p.img, imgValid := p.imgValid }
/-- What of SEC is in MRAM and in the flash; an update cut off is found at the next start (R635). -/
def secNv (c : SecSt) : SecSt := { keys := c.keys, ownerCtr := c.ownerCtr, boot := c.boot, flash := c.flash, upd := c.upd }
/-- What of the keeper is in its MRAM (R590, R608). -/
def kprNv (k : KprSt) : KprSt :=
  { safe := k.safe, limit := k.limit, param := k.param, tabSeq := k.tabSeq, slog := k.slog, slogNext := k.slogNext,
    slogSeq := k.slogSeq, slogLost := k.slogLost }
/-- Blocks, by their first pages. -/
def allBlocks : List Nat :=
  [0, 1, 2, 16, 32, 33, 34, 35, 48, 56, 57, 64, 80] ++ (List.range 22).map (· + 96) ++ [120, 121, 128] ++
    (List.range 12).map (· + 144) ++ (List.range 9).map (· + 160) ++ [176, 192, 208, 224, 225]
/-- Blocks of a domain (R46); the yard's page is a page of the NSU (R106). -/
def blocksIn (k : Nat) : List Nat := if k = 5 then [48] else allBlocks.filter fun p => domOf p == k
/-- IRQ_EN of the RTC page lies in PD_RTC with its other registers; IRQ_STAT and ERRCODE do not (R673). -/
def State.rtcHeader (s : State) : State := s.setPage 35 { irqEn := (s.page 35).irqEn }
/-- The pages of a domain go back to their reset values. -/
def State.pagesWiped (s : State) (k : Nat) : State :=
  let s := if k = 10 then s.rtcHeader else s
  { s with regs := s.regs.filter fun e : Nat × Word => domOf (pageOf e.1) != k || nvReg e.1,
           pages := s.pages.filter fun e : Nat × PageHdr => domOf e.1 != k || e.1 == 35,
           blks := s.blks.filter fun e : Nat × Blk => domOf e.1 != k,
           plic := if k = 3 then { s.plic with control := {} } else if k = 4 then { s.plic with data := {} }
                   else if k = 10 then { s.plic with management := {} } else s.plic }
/-- All working state of a domain is lost (R51). -/
def State.domWiped (s : State) (k : Nat) : State :=
  let s := s.pagesWiped k
  let r : State := State.reset
  if k = 3 then
    { s with lge := r.lge, tcm := r.tcm, img := r.img, stallMem := r.stallMem, stalls := r.stalls, cap := r.cap, can := r.can, axes := r.axes,
             dlk := r.dlk, mtr := r.mtr, pls := r.pls, plk := { epochNv := s.plk.epochNv }, time := { s.time with log := 0, logSteps := 0 },
             kpr := { s.kpr with pdLog := none } }
  else if k = 4 then { s with nsu := r.nsu, dsq := r.dsq, btk := r.btk, time := { s.time with nsu := 0 } }
  else if k = 5 then { s with yard := r.yard, mdl := { s.mdl with act := false } }
  else if k = 6 then { s with eth := r.eth, ptp := r.ptp, time := { s.time with cnt := 0 } }
  else if k = 9 then { s with dram := r.dram }
  else if k = 10 then { s with evr := evrNv s.evr, sec := secNv s.sec, time := { s.time with nvm := 0 } }
  else if k = 11 then { s with pnl := pnlNv s.pnl }
  else s
/-- Every domain but PD_RTC, PD_AON and PD_KPR loses its state (R64, R69). -/
def State.planesWiped (s : State) : State := [3, 4, 5, 6, 7, 8, 9, 10, 11].foldl (fun (s : State) k => s.domWiped k) s

/-! ### Domain states (R47 to R50, R82) -/

/-- State last accepted for a domain (R82). -/
def State.goalOf (s : State) (k : Nat) : Nat := bits s.pwr.goal (2 * k + 1) (2 * k)
def State.setGoal (s : State) (k v : Nat) : State := s.setPwr fun p => { p with goal := putBits p.goal (2 * k + 1) (2 * k) v }
/-- A change is under way. -/
def State.moving (s : State) (k : Nat) : Bool := s.goalOf k != s.dom k
/-- A request is refused: bit k of DOM_ERR (R47). -/
def State.domRefuse (s : State) (k : Nat) : State := s.setFlag R.PWR_DOM_ERR k true
/-- PEN ball i is high (R49). -/
def State.pen (s : State) (i : Nat) : Bool :=
  let on (k : Nat) : Bool := s.dom k != 0 || s.goalOf k != 0
  if i = 0 then on 4 || on 5 else if i = 1 then on 9 else if i = 2 then on 7 else on 11
/-- Requests that wait for domain k are refused (R82), also when the change they wait for is withdrawn by a later write or ends in a
failed rail check (DESIGN CHOICE, log entry 34). -/
def State.waitersRefused (s : State) (k : Nat) : State :=
  (s.pwr.wait.filter fun e => e.2 == k).foldl (fun (s : State) e => (s.setGoal e.1 (s.dom e.1)).domRefuse e.1)
    (s.setPwr fun p => { p with wait := p.wait.filter fun e => e.2 != k })
/-- The lanes of the pair link are gone with the SerDes (R11, R62). -/
def State.lanesGone (s : State) : State := (s.setFld R.PLK_LANE_STAT 1 0 0).lanes
/-- The interrupt controller of a partition that comes ON samples the lines of its pages (R104, R105). -/
def State.plicWake (s : State) (k : Nat) : State :=
  (List.range 256).foldl (fun (s : State) p => if isPage p && plicDom (planeOf p) == k then s.setPage p (s.page p) else s) s
/-- Domain k leaves ON, or RETAIN for OFF. The registers of the yard page are lost at OFF and kept through RETAIN (DESIGN CHOICE, log
entry 34). -/
def State.domLeave (s : State) (k v : Nat) : State :=
  let s := if k = 9 then s.drmGone else if k = 4 ∨ k = 5 then s.mdlDrop else s
  let s := if k = 5 ∧ v = 0 then s.mdlLost.passesDown else s
  let s := if k = 7 then s.lanesGone else s
  let s := ((s.setFld R.PWR_DOM_STAT (2 * k + 1) (2 * k) v).setGoal k v).setFlag R.CLK_ISL_STAT k false
  let s := s.waitersRefused k
  if v = 0 then s.domWiped k else s
/-- Domain k comes ON (R50, R51, R162, R418, R441, R593, R631). -/
def State.domEnter (s : State) (k : Nat) : State :=
  let s := ((s.setFld R.PWR_DOM_STAT (2 * k + 1) (2 * k) 1).setGoal k 1).setFlag R.CLK_ISL_STAT k true
  if k = 3 then
    let s := { s with time := { s.time with log := s.time.aon } }
    (((s.setReg R.PLK_EPOCH (wd s.plk.epochNv)).setFlag R.PLK_PAIR_STAT 10 s.pwr.pside).safeCopy.stallRestore).plicWake 3
  else if k = 4 then ({ s with time := { s.time with nsu := s.time.aon } }.mdlShow.kind3Load).plicWake 4
  else if k = 6 then s.loadTime
  else s
/-- Every block of the domain shows STOP or OFF (R47). -/
def State.domIdle (s : State) (k : Nat) : Bool := (blocksIn k).all fun p => s.shown p == 0 || s.shown p == 1
/-- A request away from ON, or to RETAIN, is carried out or refused (R47, R48, R82). -/
def State.domAway (s : State) (k v : Nat) : State :=
  if v = 3 ∨ (v = 2 ∧ k ≠ 5) then s.domRefuse k
  else if s.dom k = 0 then
    let s := s.setPwr fun p => { p with wait := p.wait.filter fun e => e.1 != k }
    (s.setGoal k v).waitersRefused k
  else if s.dom k = 1 ∧ (!s.domIdle k ∨ (k = 5 ∧ s.dom 4 = 1) ∨ (k = 7 ∧ (s.dom 6 = 1 ∨ s.running plkPage))) then s.domRefuse k
  else if s.dom k = v then (s.setGoal k v).waitersRefused k
  else s.domLeave k v
/-- The domain that domain k needs ON (R48). -/
def domNeeds (k : Nat) : Option Nat := if k = 4 then some 5 else if k = 6 then some 7 else none
/-- A request to ON is started, waits for the domain it needs while that one moves to ON, or is refused (R48, R82). -/
def State.domToOn (s : State) (k : Nat) : State :=
  match domNeeds k with
  | none => s.setGoal k 1
  | some d =>
    if s.dom d = 1 then s.setGoal k 1
    else if s.goalOf d = 1 then (s.setGoal k 1).setPwr fun p => { p with wait := p.wait ++ [(k, d)] }
    else s.domRefuse k
/-- The requests of one write in the order of R82. -/
def State.domRequests (s : State) (ks : List Nat) (val : Word) : State :=
  let v (k : Nat) : Nat := bits val (2 * k + 1) (2 * k)
  let asked := ks.filter fun k => v k != s.goalOf k
  let ups := asked.filter fun k => v k == 1
  let fills := asked.filter fun k => k == 5 && v k == 2 && s.dom k == 0
  let downs := asked.filter fun k => v k != 1 && !fills.contains k
  let s := downs.foldl (fun (s : State) k => s.domAway k (v k)) s
  let s := fills.foldl (fun (s : State) k => s.domAway k 2) s
  ([5, 4, 7, 6, 3, 8, 9, 11].filter fun k => ups.contains k).foldl (fun (s : State) k => s.domToOn k) s
/-- DOM_REQ: from the latch of a power-fail warning no request is carried out (R98). -/
def execDomReq (who : Initiator) (val : Word) (s : State) : Host.Outcome State Fault Refusal :=
  .next (s.gate who R.PWR_DOM_REQ fun s =>
    let s := s.setReg R.PWR_DOM_REQ (val &&& 0xCCFF00)
    if s.pwr.saving then s else s.domRequests [4, 5, 6, 7, 9, 11] val)
/-- DOM_REQ_KP: the keeper's domains (R46, R82). -/
def execDomReqKp (who : Initiator) (val : Word) (s : State) : Host.Outcome State Fault Refusal :=
  .next (s.gate who R.PWR_DOM_REQ_KP fun s =>
    let s := s.setReg R.PWR_DOM_REQ_KP (val &&& 0x300C0)
    if s.pwr.saving then s else s.domRequests [3, 8] val)
/-- DOM_TRANSITION_DONE: a domain reaches its requested state, and a request that waited for it goes on (R50, R82). -/
def execDomTransitionDone (k : Fin 12) (s : State) : Host.Outcome State Fault Refusal :=
  let k := k.val
  let v := s.goalOf k
  if !s.moving k ∨ s.pwr.saving ∨ s.heldDom k ∨ s.pwr.wait.any (fun e => e.1 == k) then .next s
  else if v = 1 then
    match domNeeds k with
    | some d => .next (if s.dom d = 1 then s.domEnter k else (s.setGoal k (s.dom k)).domRefuse k)
    | none => .next ((s.domEnter k).setPwr fun p => { p with wait := p.wait.filter fun e => e.2 != k })
  else .next (s.setFld R.PWR_DOM_STAT (2 * k + 1) (2 * k) v)
/-- Group-3 rails of a domain, as bits of RAIL_MON (R46, R53). -/
def penRails (k : Nat) : Nat := if k = 9 then 0x1C00 else if k = 8 then 0 else railsOf k
/-- PEN_CHECK: with a rail out of range the domain stays OFF (R57). -/
def execPenCheck (k : Fin 12) (rails : BitVec 19) (s : State) : Host.Outcome State Fault Refusal :=
  let k := k.val
  let s := if s.up 1 then s.setReg R.PWR_RAIL_MON (rails.setWidth 32) else s
  if s.dom k ≠ 0 ∨ !s.moving k ∨ s.pwr.wait.any (fun e => e.1 == k) ∨ rails.toNat &&& penRails k = penRails k then .next s
  else .next (((s.setGoal k 0).waitersRefused k).setFlag R.PWR_DOM_ERR (16 + k) true)
/-- Domains with a switching authority that a rail other than VDD_CORE supplies (R44, R46). -/
def railDoms (r : Nat) : List Nat :=
  if r = 1 ∨ r = 2 then [7] else if r = 9 then [4, 5] else if 10 ≤ r ∧ r ≤ 13 then [9] else if r = 16 ∨ r = 17 then [8]
  else if r = 18 ∨ r = 19 then [11] else []
/-- A block enters FAULT for the supply or the clock of its domain, with the STAT bit that says so (R62, R65, R91). -/
def State.islandFault (s : State) (p b code detail : Nat) : State :=
  if s.shown p = 0 then s else (s.blockFault p code detail).statBit p b true
/-- DOMAIN_BROWNOUT: the domain's blocks enter FAULT (R65). -/
def execDomainBrownout (rail : Fin 20) (s : State) : Host.Outcome State Fault Refusal :=
  let r := rail.val
  if railDoms r = [] ∨ !s.up 1 then .next s
  else
    let s := s.setFlag R.PWR_RAIL_MON (r - 1) false
    .next ((railDoms r).foldl (fun (s : State) k =>
      if s.dom k = 0 then s
      else ((blocksIn k).foldl (fun (s : State) p => s.islandFault p sbBo 2 r) s).setFlag R.PWR_DOM_ERR (16 + k) true)
      s)
/-- PWR_CFG_WRITE: PEN_DLY or PFW_RESTART within its range, or a rejected write (R81). -/
def execPwrCfgWrite (who : Initiator) (restart : Bool) (val : Word) (s : State) : Host.Outcome State Fault Refusal :=
  let a := if restart then R.PWR_PFW_RESTART else R.PWR_PEN_DLY
  let lo := if restart then 100 else 1
  let hi := if restart then 10000 else 50
  .next (s.gate who a fun s => if lo ≤ val.toNat ∧ val.toNat ≤ hi then s.setReg a val else s.cfgRej 1 (ofsOf a))

/-! ### Start-up (R694 to R708) -/

/-- The ARMED mask of the newest POWER_FAIL record, unless a START record follows it (R708). -/
def State.savedArm (s : State) : Option (BitVec 4) :=
  let f (b : List Byte) : Bool := fieldN b 4 2 == slPower || fieldN b 4 2 == slStart
  let newest := s.kpr.slog.foldl (fun (best : List Byte) (e : Nat × List Byte) =>
    if f e.2 && decide (fieldN best 0 4 < fieldN e.2 0 4) then e.2 else best) []
  if fieldN newest 4 2 = slPower then some (BitVec.ofNat 4 (fieldN newest 0x14 1)) else none
/-- Keeper stage: its tables, PD_LOG and PD_FIO ON, the copy of the safe-value table, START (R694, R703, R708). -/
def State.keeperStart (s : State) : State :=
  let arm := s.savedArm
  let s := (s.setKpr fun k => { k with gate := false, rearm := arm, chk := [], wdFrom := none }).setFld R.KPR_SAFE_STAT 11 8 0
  let s := ((s.tablesRead.domEnter 3).domEnter 8).safeUpdate
  s.slog slStart (s.regN R.PWR_RST_CAUSE)
/-- TIME_REC leaves PENDING (R696, R709). -/
def State.timeRec (s : State) (v : Nat) : State := (s.setReg R.SYS_TIME_REC (wd v)).irq 0 8
/-- The boot ROM and the service layer: the log is scanned, and EVR runs once images run (R632, R653, R694). -/
def State.serviceStart (s : State) : State :=
  let s := ({ s with time := { s.time with nvm := s.time.aon } } : State)
  let s := s.evrStart
  let s := s.bootRom
  let ok : Bool := s.fld R.SEC_BOOT_STAT 15 8 == 0 && s.pwr.bootmode.toNat < 2
  if ok then s.toRun 34 else s
/-- Rails of the core brown-out row and VDD_AON, as bits of RAIL_MON: in range whenever start-up runs (R44, R65). -/
abbrev coreRails : Nat := 0x60CC
/-- Start-up once the reset has ended: stages 1 to 5 of R694. -/
def State.startUp (s : State) : State :=
  let s := s.setPwr fun p => { p with hold := .none, started := true, startWait := false, railWait := false, saving := false, saveDone := false,
                                      panelNeutral := false, clkFault := false, clkMiss := 0, clkPass := 0, mgmtReq := false,
                                      goal := 0x00100015, wait := [] }
  let s := s.setRegs [(R.PWR_DOM_STAT, 0x00100015), (R.CLK_ISL_STAT, 0x407), (R.PWR_PFW_STAT, wd (b2n !s.pwr.pfwHigh)), (R.SYS_START_STAT, 0),
                      (R.PWR_RAIL_MON, s.reg R.PWR_RAIL_MON ||| wd coreRails)]
  let s := s.keeperStart
  let s := s.rtcWake
  let s := if s.flag R.RTC_STAT 0 then s else if s.fld R.SYS_TIME_REC 1 0 = 0 then s.timeRec 2 else s
  let s := s.setFlag R.SYS_START_STAT 0 (s.flag R.PWR_SAVE_STAT 8 && decide (s.pwr.consumed < s.reg64 R.PWR_SAVE_SEQ_LO R.PWR_SAVE_SEQ_HI))
  s.serviceStart
/-- RELEASE: PORST_N rises; PSIDE and BOOTMODE are sampled (R43, R628, R694). Start-up waits for PFW_N (R77), and for a core
rail still out of range (R65). -/
def execRelease (sideB : Bool) (bootmode : BitVec 2) (rails : BitVec 19) (pfwHigh : Bool) (s : State) : Host.Outcome State Fault Refusal :=
  if s.pwr.started ∧ s.pwr.hold ≠ .reset then .next s
  else
    let s := s.setPwr fun p => { p with pside := sideB, bootmode := bootmode, pfwHigh := pfwHigh, porstLow := false, hold := .reset, rstoutN := false,
                                        startWait := !pfwHigh, railWait := decide (rails.toNat &&& coreRails ≠ coreRails) }
    let s := s.setReg R.PWR_RAIL_MON (rails.setWidth 32)
    if s.pwr.startWait ∨ s.pwr.railWait then .next s else .next s.startUp
/-- PFW_START_WAIT: PFW_N has been high for 10 ms (R77). -/
def execPfwStartWait (s : State) : Host.Outcome State Fault Refusal :=
  if !s.pwr.startWait ∨ s.pwr.hold ≠ .reset then .next s
  else
    let s := s.setPwr fun p => { p with pfwHigh := true, startWait := false }
    .next (if s.pwr.railWait then s else s.startUp)
/-- TIME_RECOVERED: at the roll-over of SUB the reference copy takes the calendar; with PD_NET ON it is a SET (R696, R697). -/
def execTimeRecovered (s : State) : Host.Outcome State Fault Refusal :=
  if !s.pwr.started ∨ !s.up 1 ∨ s.fld R.SYS_TIME_REC 1 0 ≠ 0 ∨ !s.flag R.RTC_STAT 0 then .next s
  else
    let sec := calSecond (s.reg R.RTC_TIME0) (s.reg R.RTC_TIME1) (s.reg R.RTC_TIME2)
    let t := sec * tS
    if s.up 6 ∧ !s.flag R.PTP_STEP_EN 0 then .next ((s.emit evStepRefused 120 []).timeRec 2)
    else
      let s := if s.up 6 then s.stepTime t else { s with time := { s.time with aon := t, log := t, nsu := t, kpr := t, nvm := t } }
      .next (((s.setReg R.SYS_TIME_REC_S (lo32 sec)).emit evTimeRec 0 [lo32 sec]).timeRec 1)

/-! ### Save items (R71 to R73) -/

/-- Save item 4: staged records and trailer updates reach the data area with SAVED, and no control is committed (R646). -/
def State.saveStaged (s : State) : State :=
  let c := s.evr.ctl.getD {}
  let e := s.evr
  let s := { s with evr := { e with data := e.updates.foldl (fun d u => writeUpdate d u.1 u.2) e.data, updates := [], staging := [] } }
  (e.staging.foldl (fun (acc : State × LogCtl) x => flushOne acc.1 acc.2 { x with flags := x.flags ||| 0x20 }) (s, c)).1
/-- The first n items of R71 are committed, each by a marker with the sequence of the save (R72), and shown as the newest save. -/
def State.saveItems (s : State) (n : Nat) (complete : Bool) : State :=
  if n = 0 then s
  else
    let torn := s.lge.cut
    let seq := s.pwr.saves.seq + 1
    let s := s.setSaves fun v => { v with mtr := copyPut v.mtr seq s.mtrSaved }
    let s := if 2 ≤ n then s.captureItem seq else s
    let s := if 3 ≤ n then s.setSaves fun v => { v with stalls := copyPut v.stalls seq s.stallItem } else s
    let s := if 4 ≤ n then s.saveStaged else s
    let s := if 5 ≤ n then s.dirtyItem seq else s
    let s := s.setSaves fun v => { v with seq := seq }
    (s.setReg R.PWR_SAVE_STAT (wd (2 ^ n - 1 + 256 * b2n complete + 512 * b2n torn))).setReg64 R.PWR_SAVE_SEQ_LO R.PWR_SAVE_SEQ_HI seq
/-- A save runs. -/
def State.saveRuns (s : State) : Bool := s.pwr.saving && !s.pwr.saveDone
/-- A reset or a clock fault cuts a save that runs: what it committed stays (R73). How many items that were is a free value. -/
def State.saveCut (s : State) : State := if s.saveRuns then s.fresh.2.saveItems (s.fresh.1.toNat % 6) false else s

/-! ### Resets (R65, R66, R83) -/

/-- A reset of all but PD_RTC: what MRAM and the fuses hold stays; the reset adds its bit to RST_CAUSE (R65, R83). The pins
that are sampled once keep their sample. -/
def State.resetAll (s : State) (cause : Nat) : State :=
  let p := s.pwr
  let pw : PwrSt := { hold := .reset, pside := p.pside, bootmode := p.bootmode, rstoutN := false, pfwHigh := p.pfwHigh, porstLow := p.porstLow,
                      started := true, consumed := p.consumed, saves := p.saves, tapReset := p.tapReset }
  let c := s.reg R.PWR_RST_CAUSE
  let r : State := { pending := s.pending, resp := s.resp, free := s.free, regs := s.regs.filter fun e : Nat × Word => nvReg e.1,
                     pwr := pw, rtc := s.rtc, evr := evrNv s.evr, pnl := pnlNv s.pnl, plk := { epochNv := s.plk.epochNv }, sec := secNv s.sec,
                     kpr := kprNv s.kpr }
  (r.setPage 35 { irqEn := (s.page 35).irqEn }).setReg R.PWR_RST_CAUSE (if cause = 0 then 1 else c ||| bitW cause)
/-- POWER_ON: VDD_AON has left its range (R65); PFW_N and PORST_N are as the board drives them. -/
def execPowerOn (s : State) : Host.Outcome State Fault Refusal := .next ((s.saveCut.resetAll 0).setPwr fun p => { p with railWait := true })
/-- PIN_RESET: PORST_N has been low for 1 µs. -/
def execPinReset (s : State) : Host.Outcome State Fault Refusal :=
  .next ((s.saveCut.resetAll 1).setPwr fun p => { p with porstLow := true, railWait := s.pwr.railWait })
/-- CORE_BROWNOUT: a rail of the core brown-out row has left its range while VDD_AON is in range. -/
def execCoreBrownout (s : State) : Host.Outcome State Fault Refusal :=
  .next ((s.saveCut.resetAll 4).setPwr fun p => { p with railWait := true })
/-- KEEPER_RESET: 10 ms after a keeper fault of cause LOCKSTEP, TCM_UE or CHK_KAT (R610), in any hold but a reset's. With a save made or
begun and PFW_N low, start-up waits for PFW_N as it does at PORST_N (R76, R77; DESIGN CHOICE, log entry 38). -/
def execKeeperReset (s : State) : Host.Outcome State Fault Refusal :=
  if !s.kpr.stopped ∨ s.pwr.hold = .reset then .next s
  else
    let t := s.saveCut.resetAll 6
    .next (if s.pwr.saving && !s.pwr.pfwHigh then t.setPwr fun p => { p with startWait := true } else t.startUp)
/-- SUPPLY_RETURN: the excursion that held the reset has ended; with PORST_N low the device stays in reset, and a wait for PFW_N goes
on (R65, R77). -/
def execSupplyReturn (s : State) : Host.Outcome State Fault Refusal :=
  if !s.pwr.started ∨ s.pwr.hold ≠ .reset then .next s
  else
    let s := s.setPwr fun p => { p with railWait := false }
    .next (if s.pwr.porstLow ∨ s.pwr.startWait then s else s.startUp)
/-- TAP_RESET: TRST_N low resets the TAP only. -/
def execTapReset (s : State) : Host.Outcome State Fault Refusal := .next (s.setPwr fun p => { p with tapReset := true })
/-- RSTOUT_RELEASE: 1 ms after PD_AON has left reset (R66). -/
def execRstoutRelease (s : State) : Host.Outcome State Fault Refusal :=
  .next (if s.pwr.hold = .reset ∨ !s.pwr.started then s else s.setPwr fun p => { p with rstoutN := true })
/-- MGMT_RST.GO asks for a reset of PD_NVM (R81). -/
def execMgmtRst (who : Initiator) (val : Word) (s : State) : Host.Outcome State Fault Refusal :=
  .next (s.gate who R.PWR_MGMT_RST fun s => if bit val 0 then s.setPwr fun p => { p with mgmtReq := true } else s)
/-- MGMT_RESET: once EVR has flushed, PD_NVM is reset and its start-up runs again (R65, R647, R653). -/
def execMgmtReset (s : State) : Host.Outcome State Fault Refusal :=
  if !s.pwr.mgmtReq ∨ !s.up 10 ∨ s.pwr.saving then .next s
  else
    let s := if s.active 34 then s.flushLog else s
    let s := ((s.domWiped 10).setFlag R.PWR_RST_CAUSE 7 true).setPwr fun p => { p with mgmtReq := false }
    .next s.serviceStart

/-! ### Clock checks (R61 to R64) -/

/-- CLK_UNLOCK: the blocks of an island that loses lock enter FAULT, and its crossings deliver nothing more (R62). `back` reports the
end of the event: the island runs locked again (R61; DESIGN CHOICE, log entry 35). -/
def execClkUnlock (l : LockChange) (s : State) : Host.Outcome State Fault Refusal :=
  let k := l.isl.val
  if !s.up k then .next s
  else if l.back then .next (s.setFlag R.CLK_ISL_STAT k true)
  else
    let s := if k = 7 then s.lanesGone else s
    .next ((blocksIn k).foldl (fun (s : State) p => s.islandFault p sbClk 1 0) (s.setFlag R.CLK_ISL_STAT k false))
/-- A clock fault (R64). It cuts a save that runs; after a complete save the planes are held already, and the restart of R76 stays the
one awaited (DESIGN CHOICE, log entry 38). -/
def State.clkFail (s : State) (noEdge : Bool) : State :=
  let s := s.slog slClk (s.pwr.clkCount.toNat + 2 ^ 32 * b2n noEdge)
  let s := if noEdge then s.setFlag R.CLK_ISL_STAT 1 false else s
  let s := s.saveCut.setPwr fun p => { p with clkFault := true, clkMiss := 0, clkPass := 0, hold := if p.saveDone then .save else .clk,
                                               saving := p.saveDone }
  ((s.setKpr fun k => { k with chk := [], wdFrom := none }).planesWiped).safeUpdate
/-- CLK_CHECK_WINDOW: the reference cycles of a window are compared; three misses in a row are a fault, and three passes
after one end it with a full start-up (R63, R64). -/
def execClkCheckWindow (count : Word) (s : State) : Host.Outcome State Fault Refusal :=
  if s.heldDom 2 ∨ !s.pwr.started then .next s
  else
    let ok := decide (32768 - 983 ≤ count.toNat ∧ count.toNat ≤ 32768 + 983)
    let s := s.setPwr fun p => { p with clkCount := count, clkMiss := if ok then 0 else p.clkMiss + 1, clkPass := if ok then p.clkPass + 1 else 0 }
    if s.pwr.clkFault then
      let t := s.setFlag R.PWR_RST_CAUSE 5 true
      .next (if s.pwr.clkPass < 3 then s else if s.pwr.saveDone then t.setPwr fun p => { p with clkFault := false } else t.startUp)
    else .next (if 3 ≤ s.pwr.clkMiss then s.clkFail false else s)
/-- CLK_EDGE_TIMEOUT: no reference edge for 1 µs (R63). -/
def execClkEdgeTimeout (s : State) : Host.Outcome State Fault Refusal :=
  if s.heldDom 2 ∨ !s.pwr.started then .next s
  else .next (if s.pwr.clkFault then s.setPwr fun p => { p with clkPass := 0 } else s.clkFail true)

/-! ### The power-fail save (R67 to R76) -/

/-- PFW_WARN: PFW_N falls below its threshold; a wait for the restart is given up (R67, R76). -/
def execPfwWarn (s : State) : Host.Outcome State Fault Refusal :=
  let s := s.setPwr fun p => { p with pfwHigh := false }
  .next (if s.up 1 then s.setFlag R.PWR_PFW_STAT 0 true else s)
/-- PFW_CLEAR: PFW_N rises above its threshold, and the wait starts (R67, R76). -/
def execPfwClear (s : State) : Host.Outcome State Fault Refusal :=
  let s := s.setPwr fun p => { p with pfwHigh := true }
  .next (if s.up 1 then s.setFlag R.PWR_PFW_STAT 0 false else s)
/-- PLS and GPIO outputs take their safe values (R69, R357). -/
def State.padsSafe (s : State) : State :=
  let m := s.outmap
  (m.zip (List.range m.length)).foldl (fun (s : State) (e : MapEnt × Nat) =>
    if e.1.kind ≠ 5 ∧ e.1.kind ≠ 6 then s
    else
      let r := s.safeRec e.2
      if r.1 = 1 then
        let l := r.2.take e.1.width
        let s := (if e.1.kind = 6 then s.pulseCut e.1.index else s).drive e.1 l
        { s with img := wrBytes s.img e.1.addr l }
      else if r.1 = 2 then s.driveOff e.1 else s) s
/-- PFW_LATCH: the warning is latched; halt, shedding and freeze (R69, R70, R621, R708). -/
def execPfwLatch (s : State) : Host.Outcome State Fault Refusal :=
  if !s.pwr.started ∨ s.pwr.hold ≠ .none ∨ s.pwr.saving ∨ !s.flag R.PWR_PFW_STAT 0 then .next s
  else
    let s := ((s.setFlag R.PWR_PFW_STAT 1 true).emit evPfw 1 []).stageQueue .management
    let s := (if s.up 10 then s.cmdDrop else s).slog slPower s.armed
    let s := s.setKpr fun k => { k with chk := [], wdFrom := none }
    let s := (if s.active lgePage then s.coresStop else s).mtrFreeze.padsSafe
    let s := if s.shown 192 = 0 then s else s.pnlPowerFail
    let s := s.setPwr fun p => { p with saving := true, wait := [] }
    let s := [4, 5, 6, 7, 9].foldl (fun (s : State) k => if s.dom k = 0 then s.setGoal k 0 else s.domLeave k 0) s
    .next s.safeUpdate
/-- OUT_TORN: the output write phase is cut off (R70). -/
def execOutTorn (s : State) : Host.Outcome State Fault Refusal :=
  .next (if s.pwr.saving ∧ !s.pwr.saveDone ∧ !s.lge.cut then
    ((s.setLge fun l => { l with cut := true }).setFlag R.PWR_SAVE_STAT 9 true).slog slTorn 0 else s)
/-- SAVE_COMPLETE: every item is committed and the planes are held in reset (R69, R71). -/
def execSaveComplete (s : State) : Host.Outcome State Fault Refusal :=
  if !s.pwr.saving ∨ s.pwr.saveDone then .next s
  else
    let s := s.saveItems 5 true
    let s := if s.dom 11 = 0 then s.setGoal 11 0 else s.domLeave 11 0
    let s := s.planesWiped.setPwr fun p => { p with saveDone := true, hold := .save }
    .next s.safeUpdate
/-- PFW_RESTART: PFW_N has stayed high long enough after a complete save (R76). -/
def execPfwRestart (s : State) : Host.Outcome State Fault Refusal :=
  .next (if s.pwr.saveDone ∧ s.pwr.hold = .save ∧ s.pwr.pfwHigh then (s.resetAll 3).startUp else s)
/-- LATE_POWER_FAIL: the controller is reset at once, whatever the save has reached: the items it committed stay (R68, R73). -/
def execLatePowerFail (itemsSaved : Fin 6) (s : State) : Host.Outcome State Fault Refusal :=
  let s := if s.saveRuns then s.saveItems itemsSaved.val false else s
  .next (s.resetAll 2)

/-! ### Restart after a save (R704 to R707) -/

/-- Pages in the order of R702. -/
def restartOrder : List Nat :=
  (List.range 6).map (· + 112) ++ [120, 48, 56, 57, 80] ++ (List.range 16).map (· + 96) ++ (List.range 12).map (· + 144) ++
    (List.range 9).map (· + 160) ++ [176, 225, 224, 121, 192, 128, 64]
/-- Bit of the run record of a page. -/
def State.runNoted (s : State) (p : Nat) : Bool :=
  match runBit p with
  | none => false
  | some b => if b < 32 then s.flag R.SYS_RUN_REC_LO b else s.flag R.SYS_RUN_REC_HI (b - 32)
/-- RESTART.GO: RUN requests replayed from the run record (R706); they are not critical and clear no trip (R707). -/
def execRestartGo (who : Initiator) (s : State) : Host.Outcome State Fault Refusal :=
  .next (s.gate who R.SYS_RESTART fun s =>
    if !s.flag R.SYS_START_STAT 0 then s.errc 0 0x100 0
    else
      let s := s.warmConsume.setFlag R.SYS_START_STAT 1 true
      restartOrder.foldl (fun (s : State) p =>
        if !s.runNoted p ∨ s.shown p = 3 then s
        else if s.shown p = 0 then s.emit evReplay 0 [wd (pageBase p)]
        else s.ctrlReach p false 3) s)

end Sys2Proof.Machine
end

