-- ==== Sys2Proof/Machine/Bus.lean ====
section
/-! DEFINITION. The memory windows (R107, R108) and the interrupt controllers of the partitions (R104, R105), which RISC-V's PLIC
specification lays out (PRESUMED, log entry 78). -/

namespace Sys2Proof.Machine

/-! ### Interrupt controllers -/

/-- Contexts of a partition's controller (R105). -/
def plicContexts : Plane → Nat | .control => 4 | .data => 1 | .management => 4 | .keeper => 1
/-- Partition of an initiator; the quay's commands are the management plane's. -/
def planeWho : Initiator → Plane | .logic => .control | .dsq => .data | .keeper => .keeper | .mgmt => .management | .quay => .management
/-- Context c may take source n: pending, enabled for it, with a priority above its threshold. -/
def Plic.wants (p : Plic) (c n : Nat) : Bool :=
  p.pending.get (fun _ => false) n && p.enable.get (fun _ => false) (256 * c + n) &&
    decide (p.thresh.get (fun _ => 0) c < p.prio.get (fun _ => 0) n)
/-- A source of context c that waits, whatever its threshold: pending, enabled, of a priority that is not 0. -/
def Plic.waits (p : Plic) (c n : Nat) : Bool :=
  p.pending.get (fun _ => false) n && p.enable.get (fun _ => false) (256 * c + n) && decide (0 < p.prio.get (fun _ => 0) n)
/-- The context's interrupt line. -/
def Plic.line (p : Plic) (c : Nat) : Bool := (List.range 256).any fun n => p.wants c n
/-- The source that a claim of context c takes: the highest priority, of equal ones the lowest number. -/
def Plic.best (p : Plic) (c : Nat) : Option Nat :=
  ((List.range 256).filter fun n => decide (1 ≤ n) && p.waits c n).foldl (fun (b : Option Nat) n => match b with
    | none => some n
    | some m => if p.prio.get (fun _ => 0) m < p.prio.get (fun _ => 0) n then some n else some m) none
/-- A claim of context c: the source answered, no longer pending, and in service; 0 where none waits. -/
def Plic.claim (p : Plic) (c : Nat) : Nat × Plic :=
  match p.best c with
  | none => (0, p)
  | some n => (n, { p with pending := p.pending.set (fun _ => false) n false, claimed := p.claimed.set (fun _ => false) n true })
/-- Change a partition's controller. -/
def State.setPlic (s : State) (pl : Plane) (f : Plic → Plic) : State := { s with plic := s.plic.set pl (f (s.plic.get pl)) }
/-- A completion of source n by context c: its gateway samples the line again. -/
def State.plicComplete (s : State) (pl : Plane) (c n : Nat) : State :=
  if !(s.plic.get pl).enable.get (fun _ => false) (256 * c + n) then s
  else
    let s := s.setPlic pl fun p => { p with claimed := p.claimed.set (fun _ => false) n false }
    s.setPlic pl fun p => p.sense n (isPage (n - 1) && planeOf (n - 1) == pl && ((s.page (n - 1)).irqStat &&& (s.page (n - 1)).irqEn != 0))
/-- A write at offset o of a partition's window: a priority, enables, a threshold or a completion. -/
def State.plicWrite (s : State) (pl : Plane) (o : Nat) (v : Word) : State :=
  let n := plicContexts pl
  if 4 ≤ o ∧ o < 0x400 then s.setPlic pl fun p => { p with prio := p.prio.set (fun _ => 0) (o / 4) (bits v 2 0) }
  else if 0x2000 ≤ o ∧ o < 0x2000 + 0x80 * n ∧ (o - 0x2000) % 0x80 < 0x20 then
    let c := (o - 0x2000) / 0x80
    let w := (o - 0x2000) % 0x80 / 4
    s.setPlic pl fun p => { p with enable := (List.range 32).foldl (fun (t : Tab Bool) i =>
      if w + i = 0 then t else t.set (fun _ => false) (256 * c + 32 * w + i) (bit v i)) p.enable }
  else if 0x200000 ≤ o ∧ o < 0x200000 + 0x1000 * n then
    let c := (o - 0x200000) / 0x1000
    if o % 0x1000 = 0 then s.setPlic pl fun p => { p with thresh := p.thresh.set (fun _ => 0) c (bits v 2 0) }
    else if o % 0x1000 = 4 then s.plicComplete pl c v.toNat
    else s
  else s
/-- A word of flags, source 32·w + i at bit i. -/
def flagWord (f : Nat → Bool) (w : Nat) : Word := (List.range 32).foldl (fun v i => putBit v i (f (32 * w + i))) 0
/-- A read at offset o of a partition's window: what it answers, and the claim that a read of the claim register makes. -/
def State.plicRead (s : State) (pl : Plane) (o : Nat) : State :=
  let n := plicContexts pl
  let p := s.plic.get pl
  if 4 ≤ o ∧ o < 0x400 then s.answer (wd (p.prio.get (fun _ => 0) (o / 4)))
  else if 0x1000 ≤ o ∧ o < 0x1020 then s.answer (flagWord (p.pending.get fun _ => false) ((o - 0x1000) / 4))
  else if 0x2000 ≤ o ∧ o < 0x2000 + 0x80 * n ∧ (o - 0x2000) % 0x80 < 0x20 then
    s.answer (flagWord (fun i => p.enable.get (fun _ => false) (256 * ((o - 0x2000) / 0x80) + i)) ((o - 0x2000) % 0x80 / 4))
  else if 0x200000 ≤ o ∧ o < 0x200000 + 0x1000 * n then
    let c := (o - 0x200000) / 0x1000
    if o % 0x1000 = 0 then s.answer (wd (p.thresh.get (fun _ => 0) c))
    else if o % 0x1000 = 4 then (s.setPlic pl fun p => (p.claim c).2).answer (wd (p.claim c).1)
    else s.answer 0
  else s.answer 0

/-! ### Windows -/

/-- Offset of an address in the window of the partitions' controllers. -/
def plicOfs (a : Nat) : Option Nat := if 0x0C000000 ≤ a ∧ a < 0x10000000 then some (a - 0x0C000000) else none
/-- A write of one aligned word outside the pages (R107): to the partition's own controller, or to a memory that the initiator reaches.
The boot ROM takes none; LPDDR5 out of reach raises an access fault at the management cores (R85). -/
def State.windowWrite (s : State) (who : Initiator) (a : Nat) (v : Word) : State :=
  match plicOfs a with
  | some o => if who = .quay then s.accFault else (s.answer 0).plicWrite (planeWho who) o v
  | none =>
    if !memReach who true a 4 then s.accFault
    else if a < 0x10000 then s.answer 0
    else if inTcm a 4 then { s.answer 0 with tcm := wrN s.tcm a 4 v.toNat }
    else if inYard a 4 then { s.answer 0 with yard := wrN s.yard a 4 v.toNat }
    else if s.dramUp then { s.answer 0 with dram := wrN s.dram a 4 v.toNat }
    else s.accFault
/-- A read of one aligned word outside the pages. -/
def State.windowRead (s : State) (who : Initiator) (a : Nat) : State :=
  match plicOfs a with
  | some o => if who = .quay then s.accFault else s.plicRead (planeWho who) o
  | none =>
    if !memReach who false a 4 then s.accFault
    else if a < 0x10000 then s.answer (wd (leNat ((List.range 4).map fun i => Config.bootRom (a + i))))
    else if inTcm a 4 then s.answer (wd (rdN s.tcm a 4))
    else if inYard a 4 then s.answer (wd (rdN s.yard a 4))
    else if s.dramUp then s.answer (wd (rdN s.dram a 4))
    else s.accFault

end Sys2Proof.Machine
end

