-- ==== Sys2Proof/Machine/RegWrite.lean ====
section
/-! DEFINITION. Plain accesses to registers: writes by access code, with the registers whose write does more sent to their own rows
(R8, R9, R52, R86 to R95), the interrupt lines (R104), and what every register reads as (R374). -/

namespace Sys2Proof.Machine

/-! ### Interrupt causes -/

/-- Causes that exist on page p: bits [6:0] and the block causes of its chapter (R88). -/
def causeMask (p : Nat) : Word :=
  let own : Nat :=
    if p = 0 then 0x100 else if p = 16 then 0x1F00 else if p = 32 then 0x700 else if p = 34 ∨ p = 35 then 0x1F00
    else if 48 ≤ p ∧ p ≤ 52 then 0x700 else if p = 53 then 0x300 else if p = 54 then 0xF00 else if p = 56 then 0x1F00
    else if p = 57 ∨ p = 64 then 0x7F00 else if 96 ≤ p ∧ p ≤ 111 then 0x3F00 else if 112 ≤ p ∧ p ≤ 117 then 0xF00
    else if p = 120 then 0x1F00 else if p = 121 then 0x300 else if p = 128 then 0x1F00 else if 144 ≤ p ∧ p ≤ 155 then 0xFF00
    else if p = 160 then 0x100 else if 161 ≤ p ∧ p ≤ 168 then 0x1F00 else if p = 176 then 0x1F00 else if p = 192 then 0xF00
    else if p = 208 then 0x700 else if p = 224 then 0x100 else if p = 225 then 0x300 else 0
  wd (0x7F + own)
/-- The interrupt line of page p (R104). -/
def State.irqLine (s : State) (p : Nat) : Bool := (s.page p).irqStat &&& (s.page p).irqEn != 0
/-- Source n of a partition's interrupt controller is high: source p + 1 is the line of page p, and a page of another
partition never reaches it (R104, R105; log entry 78). -/
def State.plicSource (s : State) (pl : Plane) (n : Nat) : Bool :=
  decide (1 ≤ n ∧ n ≤ 255) && isPage (n - 1) && planeOf (n - 1) == pl && s.irqLine (n - 1)

/-! ### Generic writes -/

/-- The transmit buffer 0 to 2 of channel n whose ID, CTL or data an offset names (R483). -/
def txbAt (p o : Nat) : Option (Nat × Nat) :=
  if 144 ≤ p ∧ p ≤ 155 ∧ 0x840 ≤ o ∧ o < 0x930 then some (p - 144, (o - 0x840) / 0x50) else none
/-- A write of a transmit buffer that is not IDLE is dropped (R474). -/
def State.txbBusy (s : State) (a : Nat) : Bool :=
  match txbAt (pageOf a) (ofsOf a) with
  | some (n, b) => b != 0 && s.txbSt n b != 0
  | none => false
/-- Bits of a register that a write stores: those its table documents. A reserved bit set in a configuration register of an
Ethernet page refuses RUN (R458), so there it is kept, and reads as zero. -/
def writeMask (a : Nat) (r : RegRow) : Word := if 112 ≤ pageOf a ∧ pageOf a ≤ 117 ∧ r.acc = .rws then 0xFFFFFFFF else r.mask
/-- A write of a header register other than CTRL (R86, R88). -/
def State.hdrWrite (s : State) (p o : Nat) (val : Word) : State :=
  let h := s.page p
  let v := val &&& causeMask p
  if o = 0x14 then s.setPage p { h with irqStat := h.irqStat &&& ~~~v }
  else if o = 0x18 then s.setPage p { h with irqEn := v }
  else if o = 0x1C then s.setPage p { h with irqStat := h.irqStat ||| v }
  else s
/-- A write to an RW register: a transmit buffer takes it only in IDLE, and buffer 0 not at all (R474). -/
def State.rwWrite (s : State) (a : Nat) (v : Word) : State :=
  match txbAt (pageOf a) (ofsOf a) with
  | some (n, b) => if b = 0 then s else if s.txbBusy a then s.incReg (R.CAN_TX_WR_DROP n) else s.setReg a v
  | none => s.setReg a v
/-- A write by access code (R9, R90). -/
def State.rowWrite (s : State) (a : Nat) (val : Word) (r : RegRow) : State :=
  let v := val &&& writeMask a r
  match r.acc with
  | .ro => s
  | .rw => s.rwWrite a v
  | .rws => s.rws a fun s => s.setReg a v
  | .w1c => s.setReg a (s.reg a &&& ~~~v)
  | .wo => if 0x40020920 ≤ a ∧ a < 0x40020940 then s.setReg a val else s
  | .kp => if r.mask = 0 then s else (s.setReg a v).safeUpdate
/-- A write to a register of a table; an offset with no register takes none. -/
def State.tableWrite (s : State) (a : Nat) (val : Word) : State :=
  match regRow a with
  | none => s
  | some r => s.rowWrite a val r
/-- A write to a register with no row of its own. -/
def State.genericWrite (s : State) (who : Initiator) (a : Nat) (val : Word) : State :=
  s.gate who a fun s => if ofsOf a < 0x100 then s.hdrWrite (pageOf a) (ofsOf a) val else s.tableWrite a val

/-! ### Writes that start something -/

/-- The state of a next outcome; a stop keeps the state. -/
def State.after (s : State) (f : State → Host.Outcome State Fault Refusal) : State := match f s with | .next t => t | _ => s
/-- The same, if bit i of the value is set. -/
def State.afterBit (s : State) (val : Word) (i : Nat) (f : State → Host.Outcome State Fault Refusal) : State :=
  if bit val i then s.after f else s
/-- A write of a register whose bits are commands: those set act in the order of the list; with none set nothing happens. -/
def State.bitsWrite (s : State) (who : Initiator) (a : Nat) (val : Word)
    (l : List (Nat × (State → Host.Outcome State Fault Refusal))) : State :=
  if l.all fun e => !bit val e.1 then s.gate who a fun s => s else l.foldl (fun s e => s.afterBit val e.1 e.2) s
/-- Ethernet, CAN, lane map and axis instances of a page or a value. -/
def ethIx (p : Nat) : Fin 6 := Fin.ofNat 6 (p - 112)
def canIx (p : Nat) : Fin 12 := Fin.ofNat 12 (p - 144)
def lmapIx (o : Nat) : Fin 4 := Fin.ofNat 4 ((o - 0x100) / 8)
def axisIx (v : Word) : Fin 128 := Fin.ofNat 128 (bits v 6 0)
/-- CMD of AXS: the axis and its operation; a value that names none answers bad op (R504, R513). -/
def State.axsWrite (s : State) (who : Initiator) (val : Word) : State :=
  let a := axisIx val
  match bits val 10 8 with
  | 1 => s.after (execReference who a)
  | 2 => s.after (execSetPos who a)
  | 3 => s.after (execClear who a)
  | 4 => s.after (execHalt who a)
  | _ => s.gate who R.AXS_CMD fun s => s.cmdDone a.val 3
/-- TXB_CMD of a CAN channel (R474, R475, R478). -/
def State.txbWrite (s : State) (who : Initiator) (n : Fin 12) (val : Word) : State :=
  let s := if val &&& 0x176 = 0 then s.gate who (R.CAN_TXB_CMD n.val) fun s => s else s
  let s := if bits val 2 1 = 0 then s else s.after (execTxbReq who n (bit val 1) (bit val 2))
  let s := if bits val 6 4 = 0 then s else s.after (execTxbAbort who n (BitVec.ofNat 3 (bits val 6 4)))
  s.afterBit val 8 (execRecReq who n)
/-- Registers whose write has an effect of its own: CTRL of every page, and those below. -/
def ownRow (a : Nat) : Bool :=
  let p := pageOf a
  let o := ofsOf a
  o == 0xC || [R.SYS_RESTART, R.PWR_PEN_DLY, R.PWR_PFW_RESTART, R.PWR_DOM_REQ, R.PWR_DOM_REQ_KP, R.PWR_MGMT_RST, R.KPR_SLOG_INDEX,
    R.SEC_CMD_CTRL, R.SEC_CMD_DATA, R.SEC_FW_CONFIRM, R.SEC_MEAS_CTRL, R.SEC_QUOTE_CMD, R.EVR_RL_INDEX, R.EVR_RL_CFG,
    R.EVR_RD_OFS, R.EVR_SW_SEND, R.RTC_COMMIT, R.RTC_WAKE_PERIOD, R.JQ_JQ_BASE, R.JQ_JQ_SIZE, R.JQ_JQ_TAIL, R.BTK_FC_CMD,
    R.DSQ_MODEL_CMD, R.DSQ_CMD, R.LGE_LD_CTRL, R.LGE_LD_DATA, R.LGE_FT_INDEX, R.PTP_TCMD, R.PLK_CMD, R.AXS_CMD,
    R.PNL_UPD_CMD, R.PNL_WF_CTL, R.PNL_WF_DATA].contains a ||
    decide ((p = 55 ∧ 0x100 ≤ o ∧ o < 0x120) ∨ (112 ≤ p ∧ p ≤ 117 ∧ o = 0x810) ∨ (112 ≤ p ∧ p ≤ 117 ∧ o = 0x808) ∨ (144 ≤ p ∧ p ≤ 155 ∧ o = 0x808))
/-- Their effects. PLK.CMD is written only by a critical command; a plain write is dropped as for CTRL (R93, R584). -/
def State.ownWrite (s : State) (who : Initiator) (a : Nat) (val : Word) : State :=
  let p := pageOf a
  let o := ofsOf a
  if o = 0xC then s.ctrlWrite who p val
  else if a = R.SYS_RESTART then s.bitsWrite who a val [(0, execRestartGo who)]
  else if a = R.PWR_PEN_DLY then s.after (execPwrCfgWrite who false val)
  else if a = R.PWR_PFW_RESTART then s.after (execPwrCfgWrite who true val)
  else if a = R.PWR_DOM_REQ then s.after (execDomReq who val)
  else if a = R.PWR_DOM_REQ_KP then s.after (execDomReqKp who val)
  else if a = R.PWR_MGMT_RST then s.after (execMgmtRst who val)
  else if a = R.KPR_SLOG_INDEX then s.after (execSlogIndex who val)
  else if a = R.SEC_CMD_CTRL then s.bitsWrite who a val [(0, execCmdBegin who), (1, execCmdSubmit who), (2, execCmdAbort who)]
  else if a = R.SEC_CMD_DATA then s.after (execCmdData who val)
  else if a = R.SEC_FW_CONFIRM then s.after (execFwConfirm who val)
  else if a = R.SEC_MEAS_CTRL then s.bitsWrite who a val [(0, execExtend2 who), (1, execLock2 who)]
  else if a = R.SEC_QUOTE_CMD then s.bitsWrite who a val [(0, execQuoteStart who), (1, execQuoteCert who)]
  else if a = R.EVR_RL_INDEX then s.after (execRlIndex who val)
  else if a = R.EVR_RL_CFG then s.gate who a fun s => s.rws a fun s => s.wrRlCfg val
  else if a = R.EVR_RD_OFS then s.after (execRdOfs who val)
  else if a = R.EVR_SW_SEND then s.after (execSwSend who val)
  else if a = R.RTC_COMMIT then s.bitsWrite who a val [(0, execCommitGo who)]
  else if a = R.RTC_WAKE_PERIOD then s.after (execWakePeriod who val)
  else if a = R.JQ_JQ_BASE then s.after (execJqCfgWrite who false val)
  else if a = R.JQ_JQ_SIZE then s.after (execJqCfgWrite who true val)
  else if a = R.JQ_JQ_TAIL then s.after (execJqTail who val [])
  else if p = 55 ∧ 0x100 ≤ o ∧ o < 0x120 then s.after (execLmapWrite who (lmapIx o) (o % 8 == 4) val)
  else if a = R.BTK_FC_CMD then s.bitsWrite who a val [(0, execFcStart who []), (1, execFcCancel who)]
  else if a = R.DSQ_MODEL_CMD then s.bitsWrite who a val [(0, execModelLoad who []), (1, execModelCancel who)]
  else if a = R.DSQ_CMD then s.bitsWrite who a val [(0, execDspNow who)]
  else if a = R.LGE_LD_CTRL then s.bitsWrite who a val [(0, execLdBegin who), (1, execLdEnd who), (2, execLdAbort who)]
  else if a = R.LGE_LD_DATA then s.after (execLdData who val)
  else if a = R.LGE_FT_INDEX then s.after (execFtIndex who val)
  else if 112 ≤ p ∧ p ≤ 117 ∧ o = 0x810 then s.after (execHqTxTail who (ethIx p) val)
  else if 112 ≤ p ∧ p ≤ 117 ∧ o = 0x808 then s.after (execHqRxTail who (ethIx p) val)
  else if a = R.PTP_TCMD then s.bitsWrite who a val [(0, execSet who), (1, execSeconds who)]
  else if a = R.PLK_CMD then s.gate who a fun s => s.protDrop p o false
  else if 144 ≤ p ∧ p ≤ 155 ∧ o = 0x808 then s.txbWrite who (canIx p) val
  else if a = R.AXS_CMD then s.axsWrite who val
  else if a = R.PNL_UPD_CMD then
    if bit val 2 then s.after (execFullClear who) else if bit val 1 then s.after (execClearWf who)
    else s.bitsWrite who a val [(0, execUpdGo who [])]
  else if a = R.PNL_WF_CTL then s.bitsWrite who a val [(0, execWfBegin who), (1, execWfEnd who), (2, execWfAbort who)]
  else if a = R.PNL_WF_DATA then s.after (execWfData who val)
  else s
/-- A plain write of a word: to a memory window (R107), or to a register (R9), with an effect of its own or by access code. -/
def State.regWrite (s : State) (who : Initiator) (a : Nat) (val : Word) : State :=
  if a % 4 ≠ 0 then s.accFault
  else if a < 0x40000000 ∨ 0x40100000 ≤ a then s.windowWrite who a val
  else if !isPage (pageOf a) then s.accFault
  else if ownRow a then s.ownWrite who a val
  else s.genericWrite who a val

/-! ### What a register reads as -/

/-- STAT (R88). -/
def State.statWord (s : State) (p : Nat) : Word :=
  let b := s.blk (firstPage p)
  wd (s.shown p + 8 * b2n b.draining + 16 * b2n b.abandoned + 256 * (s.page p).err.toNat)
/-- A header register (R87, R88). -/
def State.hdrView (s : State) (p o : Nat) : Word :=
  let b := s.blk (firstPage p)
  let h := s.page p
  if o = 0 then pidOf p else if o = 4 then 0x00010000 else if o = 8 then capOf p else if o = 0xC then b.req.setWidth 32
  else if o = 0x10 then s.statWord p else if o = 0x14 then h.irqStat else if o = 0x18 then h.irqEn
  else if o = 0x20 then ownerOf p else if o = 0x24 then h.errcode else if o = 0x28 then b.gen else 0
/-- Half lo or hi of a 64-bit number. -/
def half (hi : Bool) (n : Nat) : Word := if hi then hi32 n else lo32 n
/-- A register of SEC that shows keys and counters (R639). -/
def State.secView (s : State) (o : Nat) : Option Word :=
  if 0x840 ≤ o ∧ o < 0x880 then
    let k := s.key ((o - 0x840) / 4)
    some (wd (k.use + 16 * b2n (k.ctr == 2 ^ 64 - 1) + 65536 * k.perms.toNat))
  else if 0x880 ≤ o ∧ o < 0x900 then some (half (o % 8 == 4) (s.key ((o - 0x880) / 8)).ctr)
  else if o = 0x81C ∨ o = 0x820 then some (half (o == 0x820) s.sec.ownerCtr)
  else if o = 0x808 ∧ !s.running secPage then some 0
  else none
/-- A register of the safety log window (R614). -/
def State.slogView (s : State) (o : Nat) : Option Word :=
  let k := s.kpr
  if o = 0x804 then some (wd k.slogNext) else if o = 0x808 then some (wd k.slogSeq) else if o = 0x80C then some (wd k.slogLost)
  else if 0x820 ≤ o ∧ o < 0x840 then some (wd (fieldN (k.slog.get (fun _ => []) (s.regN R.KPR_SLOG_INDEX)) (o - 0x820) 4))
  else none
/-- A register of an axis page (R513, R514). -/
def State.axisView (s : State) (p o : Nat) : Option Word :=
  if p = 160 then
    if 0x810 ≤ o ∧ o < 0x820 then some (s.axMap ((o - 0x810) / 4) (· == .moving))
    else if 0x820 ≤ o ∧ o < 0x830 then some (s.axMap ((o - 0x820) / 4) fun x => x == .stalled || x == .fault)
    else if 0x830 ≤ o ∧ o < 0x840 then some (s.axMap ((o - 0x830) / 4) (· == .unreferenced))
    else none
  else
    let n := p - 161
    if 0x800 ≤ o ∧ o < 0xA00 then
      let w := o % 32 / 4
      if w = 7 then none else some (s.axWord (16 * n + (o - 0x800) / 32) w)
    else if o = 0xA08 then
      some (if s.linkPrimary then (List.range 16).foldl (fun v d =>
        putBit v d (s.axEnabled (16 * n + d) && !(s.axis (16 * n + d)).obeyed)) 0 else 0)
    else none
/-- A register whose value is computed from other state. -/
def State.composed (s : State) (p o : Nat) : Option Word :=
  let a := pageBase p + o
  if p = 19 then s.slogView o
  else if p = 32 then s.secView o
  else if a = R.EVR_RL_CFG then some (s.rlCfg (s.fld R.EVR_RL_INDEX 9 0))
  else if p = 34 ∧ 0x900 ≤ o ∧ o < 0xA20 then some (s.logWord ((o - 0x900) / 4))
  else if a = R.NSU_TIME_NS then some (nsField s.time.nsu)
  else if a = R.NSU_TIME_S then some (lo32 (secOf s.time.nsu))
  else if a = R.LGE_FT_ADDR then some s.ftShown.1
  else if a = R.LGE_FT_VAL_LO then some (lo32 s.ftShown.2)
  else if a = R.LGE_FT_VAL_HI then some (hi32 s.ftShown.2)
  else if a = R.STL_BOUND then some (wd (s.stCount (·.bound)))
  else if a = R.STL_STALE_N then some (wd (s.stCount fun x => x.st == 4))
  else if a = R.STL_V1_N then some (wd (s.stCount fun x => x.bound && x.major == 1))
  else if 96 ≤ p ∧ p ≤ 111 ∧ 0x800 ≤ o ∧ o % 32 = 0 then some (s.stQual (64 * (p - 96) + (o - 0x800) / 32))
  else if a = R.PTP_TIME_S_LO then some (s.time.latS.setWidth 32)
  else if a = R.PTP_TIME_S_HI then some ((s.time.latS >>> 32).setWidth 32)
  else if a = R.PTP_TIME_FRAC then some s.time.latF
  else if a = R.PLK_SILENCE_MS then some s.silence
  else if a = R.PLK_LEASE_STAT then some s.leaseStat
  else if 160 ≤ p ∧ p ≤ 168 then s.axisView p o
  else if p = 176 ∧ 0x300 ≤ o ∧ o < 0x700 ∧ o % 32 = 0 then some (s.thCfgView ((o - 0x300) / 32))
  else if p = 176 ∧ 0x800 ≤ o ∧ o < 0xC00 ∧ o % 8 = 4 then some (s.totalHi ((o - 0x800) / 8))
  else if p = 225 ∧ 0x800 ≤ o ∧ o < 0x900 ∧ o % 16 = 4 then some (s.resHi ((o - 0x800) / 16)).1
  else if p = 225 ∧ 0x940 ≤ o ∧ o < 0x980 then some (s.resHi ((o - 0x940) / 4)).2
  else if a = R.BTK_STATE_LEN then some s.stateLen
  else if a = R.PNL_DIRTY_N then some (wd s.pnl.dirty.length)
  else none
/-- What a register reads as, apart from what its read does: WO and reserved offsets read zero (R9, R86). -/
def State.regView (s : State) (a : Nat) : Word :=
  let p := pageOf a
  let o := ofsOf a
  if !s.up (domOf p) then (if o ≤ 8 then s.hdrView p o else 0)
  else if o < 0x100 then s.hdrView p o
  else match s.composed p o with
    | some v => v
    | none =>
      match regRow a with
      | none => 0
      | some r => if r.acc = .wo then 0 else if 112 ≤ p ∧ p ≤ 117 ∧ r.acc = .rws then s.reg a &&& r.mask else s.reg a
/-- A read of a register by an initiator that reaches it, with what the read does (R374, R438, R455, R471, R521, R544, R662). -/
def State.pageRead (s : State) (who : Initiator) (a : Nat) : State :=
  let p := pageOf a
  let o := ofsOf a
  if p = 121 ∧ 0x800 ≤ o ∧ o < 0x990 ∧ o % 16 = 0 then s.after (execCapTsNs who (Fin.ofNat 25 ((o - 0x800) / 16)))
  else if p = 121 ∧ 0x800 ≤ o ∧ o < 0x990 ∧ o % 16 = 8 then s.after (execCapTsSh who (Fin.ofNat 25 ((o - 0x800) / 16)))
  else if 144 ≤ p ∧ p ≤ 155 ∧ 0x940 ≤ o ∧ o < 0x990 then s.winRead (p - 144) o
  else if p = 176 ∧ 0x800 ≤ o ∧ o < 0xC00 ∧ o % 8 = 0 then s.readTotalLo ((o - 0x800) / 8)
  else if p = 225 ∧ 0x800 ≤ o ∧ o < 0x900 ∧ o % 16 = 0 then s.after (execResLoRead who (Fin.ofNat 16 ((o - 0x800) / 16)))
  else if a = R.PTP_TIME_NS then s.after (execTimeNs who)
  else if a = R.RTC_TIME0 then s.after (execTimeRead who false)
  else if a = R.RTC_TIME1 then s.after (execTimeRead who true)
  else if a = R.RTC_TIME2 then s.after (execTime2Read who)
  else s.answer (s.regView a)
/-- A read of a control-plane register by a logic core. -/
abbrev State.coreRead (s : State) (a : Nat) : State := s.pageRead .logic a
/-- A read of one word by any initiator: `wordAccess` is false for one that is not an aligned word. The table has a row for a few such
reads only; this is what all of them do (R52, R92, R95, R107). -/
def State.busRead (s : State) (who : Initiator) (a : Nat) (wordAccess : Bool) : State :=
  if !wordAccess ∨ a % 4 ≠ 0 then s.accFault
  else if a < 0x40000000 ∨ 0x40100000 ≤ a then s.windowRead who a
  else if !s.up (domOf (pageOf a)) then (if isPage (pageOf a) then s.answer (s.regView a) else s.accFault)
  else s.rgate who a fun s => s.pageRead who a

/-! ### Rows -/

/-- PLAIN_REG_WRITE; `wordAccess` is false for an access that is not one aligned word (R8, R95). -/
def execPlainRegWrite (who : Initiator) (addr val : Word) (wordAccess : Bool) (s : State) : Host.Outcome State Fault Refusal :=
  .next (if wordAccess then s.regWrite who addr.toNat val else s.accFault)
/-- IRQ_SET (R88). -/
def execIrqSet (who : Initiator) (page : Byte) (val : Word) (s : State) : Host.Outcome State Fault Refusal :=
  .next (s.genericWrite who (pageBase page.toNat + 0x1C) val)
/-- REG_READ: a register of a control-plane page (R374). -/
def execRegRead (c : Fin 4) (addr : Word) (s : State) : Host.Outcome State Fault Refusal :=
  let a := addr.toNat
  if !s.coreRuns c.val then .next s
  else if a % 4 ≠ 0 ∨ a < 0x40000000 ∨ 0x40100000 ≤ a ∨ !isPage (pageOf a) then .next (s.ecallRet c.val [scBadArg])
  else if planeOf (pageOf a) ≠ .control then .next (s.ecallRet c.val [scRefused])
  else
    let s := s.coreRead a
    .next (s.ecallRet c.val [scOk, s.resp.val])

end Sys2Proof.Machine
end

