-- ==== Sys2Proof/Machine/Cycle.lean ====
section
/-! DEFINITION. The end of a logic cycle: OUTPUT, FRAME, PUBLISH and BOUNDARY (R346, R352, R360, R364, R374 to R376, R552, R560, R570). -/

namespace Sys2Proof.Machine

/-- Stores that the running cores made into their own TCMs (R725 keeps them within). -/
def State.coreStores (s : State) (l : List TcmStore) : State :=
  { s with tcm := (l.filter fun x => s.flag (R.LGEC_STAT x.core.val) 0).foldl (fun m x => wrBytes m (tcmAddr x.core.val x.ofs.val) (x.data.take (0x80000 - x.ofs.val))) s.tcm }
/-- A queued REG_WRITE is applied; one that fails is counted and recorded (R375, R474). -/
def State.applyCall (s : State) (e : Nat × Word × Word) : State :=
  let a := e.2.1.toNat
  let busy := s.txbBusy a
  let t := s.regWrite .logic a e.2.2
  if busy || t.resp.fault then (t.incReg R.LGE_SC_FAIL).emit evScFail lgePage [wd e.1, e.2.1] else t
/-- Queued writes in call order over all cores, core 0 first (R374). -/
def State.applyCalls (s : State) : State :=
  let q := s.lge.calls
  let q := (List.range 4).flatMap fun c => q.filter fun e => e.1 == c
  q.foldl (fun s e => s.applyCall e) (s.setLge fun l => { l with calls := [] })
/-- EXECUTE_DONE: every core has returned; `stores` are what the programs left in their TCMs and `us` the EXECUTE times. A stand-down
that waited takes effect at the end of OUTPUT, and the cycle then sends no state frame (R552). -/
def execExecuteDone (stores : List TcmStore) (us : List Word) (s : State) : Host.Outcome State Fault Refusal :=
  match s.lge.image with
  | none => .next s
  | some g =>
    if !s.active lgePage ∨ !s.acts ∨ s.pwr.saving ∨ s.regN R.LGE_PHASE ≠ 2 then .next s
    else
      let s := ((s.coreStores stores).execTimes us).setReg R.LGE_PHASE 3
      let s := ((s.gatherOutput g).driveAll g).applyCalls
      let s := ((s.outputEnd s.lge.firstOut).setLge fun l => { l with firstOut := false }).takeCapture
      if s.shown lgePage ≠ 3 ∧ s.shown lgePage ≠ 2 then .next s
      else
        let s := s.setReg R.LGE_PHASE 4
        match s.plk.standTo with
        | some r => .next (s.standDown r)
        | none => .next s
/-- A switchover that waited for the frame ends the side's last cycle (R570, R580). -/
def State.switchEnd (s : State) : State :=
  if s.leaseMode then s.switchNow else (s.setPlk fun p => { p with finalReq := false }).standDown rStandby
/-- FRAME_TAKEN: PLK takes the state frame, the set is published, and pending commands apply at BOUNDARY. -/
def execFrameTaken (s : State) : Host.Outcome State Fault Refusal :=
  if !s.active lgePage ∨ !s.acts ∨ s.pwr.saving ∨ s.regN R.LGE_PHASE ≠ 4 then .next s
  else
    let last := s.plk.finalReq
    let s := ((s.sendFrame (last && !s.leaseMode)).setReg R.LGE_PHASE 5).publish
    let s := ((s.setLge fun l => { l with first := false }).setReg R.LGE_PHASE 6).deliverAll 0x40040000
    .next (if last && s.acts then s.switchEnd else s)

end Sys2Proof.Machine
end

