-- ==== Sys2Proof/Machine/Dispatch.lean ====
section
/-! DEFINITION. One arm for each command: a direct call of its meaning. -/

namespace Sys2Proof.Machine

/-- The effect of a command on everything but the queue. -/
def exec (i : Instr) (s : State) : Host.Outcome State Fault Refusal :=
  match i with
  | .plainRegWrite who addr val wordAccess => Sys2Proof.Machine.execPlainRegWrite who addr val wordAccess s
  | .irqSet who page val => Sys2Proof.Machine.execIrqSet who page val s
  | .blockRunReq who b => Sys2Proof.Machine.execBlockRunReq who b s
  | .blockStopReq who b => Sys2Proof.Machine.execBlockStopReq who b s
  | .forceStop who b => Sys2Proof.Machine.execForceStop who b s
  | .faultClr who b gone => Sys2Proof.Machine.execFaultClr who b gone s
  | .drainComplete b => Sys2Proof.Machine.execDrainComplete b s
  | .drainTimeout b => Sys2Proof.Machine.execDrainTimeout b s
  | .powerOn => Sys2Proof.Machine.execPowerOn s
  | .release sideB bootmode rails pfwHigh => Sys2Proof.Machine.execRelease sideB bootmode rails pfwHigh s
  | .pinReset => Sys2Proof.Machine.execPinReset s
  | .latePowerFail itemsSaved => Sys2Proof.Machine.execLatePowerFail itemsSaved s
  | .coreBrownout => Sys2Proof.Machine.execCoreBrownout s
  | .domainBrownout rail => Sys2Proof.Machine.execDomainBrownout rail s
  | .tapReset => Sys2Proof.Machine.execTapReset s
  | .rstoutRelease => Sys2Proof.Machine.execRstoutRelease s
  | .domReq who val => Sys2Proof.Machine.execDomReq who val s
  | .domReqKp who val => Sys2Proof.Machine.execDomReqKp who val s
  | .domTransitionDone k => Sys2Proof.Machine.execDomTransitionDone k s
  | .penCheck k rails => Sys2Proof.Machine.execPenCheck k rails s
  | .pwrCfgWrite who restart val => Sys2Proof.Machine.execPwrCfgWrite who restart val s
  | .mgmtRst who val => Sys2Proof.Machine.execMgmtRst who val s
  | .mgmtReset => Sys2Proof.Machine.execMgmtReset s
  | .clkUnlock l => Sys2Proof.Machine.execClkUnlock l s
  | .clkCheckWindow count => Sys2Proof.Machine.execClkCheckWindow count s
  | .clkEdgeTimeout => Sys2Proof.Machine.execClkEdgeTimeout s
  | .pfwWarn => Sys2Proof.Machine.execPfwWarn s
  | .pfwLatch => Sys2Proof.Machine.execPfwLatch s
  | .outTorn => Sys2Proof.Machine.execOutTorn s
  | .saveComplete => Sys2Proof.Machine.execSaveComplete s
  | .pfwClear => Sys2Proof.Machine.execPfwClear s
  | .pfwRestart => Sys2Proof.Machine.execPfwRestart s
  | .pfwStartWait => Sys2Proof.Machine.execPfwStartWait s
  | .trainDone failed => Sys2Proof.Machine.execTrainDone failed s
  | .drmRefresh code hot => Sys2Proof.Machine.execDrmRefresh code hot s
  | .drmScrub res => Sys2Proof.Machine.execDrmScrub res s
  | .modelLoad who image => Sys2Proof.Machine.execModelLoad who image s
  | .modelCancel who => Sys2Proof.Machine.execModelCancel who s
  | .modelValidated read => Sys2Proof.Machine.execModelValidated read s
  | .jqTail who val stores => Sys2Proof.Machine.execJqTail who val stores s
  | .jqCfgWrite who size val => Sys2Proof.Machine.execJqCfgWrite who size val s
  | .spmv cut => Sys2Proof.Machine.execSpmv cut s
  | .spmvt cut => Sys2Proof.Machine.execSpmvt cut s
  | .dot cut => Sys2Proof.Machine.execDot cut s
  | .axpy cut => Sys2Proof.Machine.execAxpy cut s
  | .scale cut => Sys2Proof.Machine.execScale cut s
  | .copy cut => Sys2Proof.Machine.execCopy cut s
  | .project cut => Sys2Proof.Machine.execProject cut s
  | .remap cut => Sys2Proof.Machine.execRemap cut s
  | .fprint cut => Sys2Proof.Machine.execFprint cut s
  | .ic0 cut => Sys2Proof.Machine.execIc0 cut s
  | .ildl0 cut => Sys2Proof.Machine.execIldl0 cut s
  | .pcg cut => Sys2Proof.Machine.execPcg cut s
  | .minres cut => Sys2Proof.Machine.execMinres cut s
  | .bicgstab cut => Sys2Proof.Machine.execBicgstab cut s
  | .pcgne cut => Sys2Proof.Machine.execPcgne cut s
  | .newton cut => Sys2Proof.Machine.execNewton cut s
  | .jobEnd ix iterNs fixed core => Sys2Proof.Machine.execJobEnd ix iterNs fixed core s
  | .laneTest c => Sys2Proof.Machine.execLaneTest c s
  | .laneTestDone c res => Sys2Proof.Machine.execLaneTestDone c res s
  | .yardScrub res => Sys2Proof.Machine.execYardScrub res s
  | .lmapWrite who c hi val => Sys2Proof.Machine.execLmapWrite who c hi val s
  | .transportStep r => Sys2Proof.Machine.execTransportStep r s
  | .stepCommit us => Sys2Proof.Machine.execStepCommit us s
  | .fcStart who stores => Sys2Proof.Machine.execFcStart who stores s
  | .fcCancel who => Sys2Proof.Machine.execFcCancel who s
  | .forecastEnd why => Sys2Proof.Machine.execForecastEnd why s
  | .estPass => Sys2Proof.Machine.execEstPass s
  | .dspPass => Sys2Proof.Machine.execDspPass s
  | .dspNow who => Sys2Proof.Machine.execDspNow who s
  | .hydPass => Sys2Proof.Machine.execHydPass s
  | .keeperPoll => Sys2Proof.Machine.execKeeperPoll s
  | .checkDone kind cut us => Sys2Proof.Machine.execCheckDone kind cut us s
  | .planStep => Sys2Proof.Machine.execPlanStep s
  | .nextDue kind => Sys2Proof.Machine.execNextDue kind s
  | .entryExpire kind => Sys2Proof.Machine.execEntryExpire kind s
  | .wdogTrip => Sys2Proof.Machine.execWdogTrip s
  | .emgAssert ix => Sys2Proof.Machine.execEmgAssert ix s
  | .emgRelease ix => Sys2Proof.Machine.execEmgRelease ix s
  | .lockstep => Sys2Proof.Machine.execLockstep s
  | .keeperTcmUe => Sys2Proof.Machine.execKeeperTcmUe s
  | .keeperReset => Sys2Proof.Machine.execKeeperReset s
  | .slogIndex who val => Sys2Proof.Machine.execSlogIndex who val s
  | .cycleSnapshot => Sys2Proof.Machine.execCycleSnapshot s
  | .executeDone stores us => Sys2Proof.Machine.execExecuteDone stores us s
  | .frameTaken => Sys2Proof.Machine.execFrameTaken s
  | .time c => Sys2Proof.Machine.execTime c s
  | .cycle c => Sys2Proof.Machine.execCycle c s
  | .regRead c addr => Sys2Proof.Machine.execRegRead c addr s
  | .regWrite c addr val => Sys2Proof.Machine.execRegWrite c addr val s
  | .stallRead c stall ofs len tcmOfs => Sys2Proof.Machine.execStallRead c stall ofs len tcmOfs s
  | .event c code d1 d2 => Sys2Proof.Machine.execEvent c code d1 d2 s
  | .coreException c mcause pc => Sys2Proof.Machine.execCoreException c mcause pc s
  | .tcmUe c => Sys2Proof.Machine.execTcmUe c s
  | .ldBegin who => Sys2Proof.Machine.execLdBegin who s
  | .ldData who val => Sys2Proof.Machine.execLdData who val s
  | .ldEnd who => Sys2Proof.Machine.execLdEnd who s
  | .ldAbort who => Sys2Proof.Machine.execLdAbort who s
  | .ftIndex who val => Sys2Proof.Machine.execFtIndex who val s
  | .hello src frame => Sys2Proof.Machine.execHello src frame s
  | .helloAck src frame => Sys2Proof.Machine.execHelloAck src frame s
  | .read k => Sys2Proof.Machine.execRead k s
  | .readRsp src frame => Sys2Proof.Machine.execReadRsp src frame s
  | .replyHoldWait k => Sys2Proof.Machine.execReplyHoldWait k s
  | .readTimeout k => Sys2Proof.Machine.execReadTimeout k s
  | .writeAck src frame => Sys2Proof.Machine.execWriteAck src frame s
  | .writeNak src frame => Sys2Proof.Machine.execWriteNak src frame s
  | .writeTimeout k => Sys2Proof.Machine.execWriteTimeout k s
  | .refresh k => Sys2Proof.Machine.execRefresh k s
  | .ethRxFrame ix f => Sys2Proof.Machine.execEthRxFrame ix f s
  | .ethTxDone ix e => Sys2Proof.Machine.execEthTxDone ix e s
  | .linkChg ix up lock anDone remoteFault => Sys2Proof.Machine.execLinkChg ix up lock anDone remoteFault s
  | .hqTxTail who ix val => Sys2Proof.Machine.execHqTxTail who ix val s
  | .hqRxTail who ix val => Sys2Proof.Machine.execHqRxTail who ix val s
  | .nbExpire ix ip => Sys2Proof.Machine.execNbExpire ix ip s
  | .nbMiss ix ip => Sys2Proof.Machine.execNbMiss ix ip s
  | .timeNs who => Sys2Proof.Machine.execTimeNs who s
  | .set who => Sys2Proof.Machine.execSet who s
  | .seconds who => Sys2Proof.Machine.execSeconds who s
  | .sync port twoStep newGm t incr => Sys2Proof.Machine.execSync port twoStep newGm t incr s
  | .followUp port t incr => Sys2Proof.Machine.execFollowUp port t incr s
  | .syncSend port => Sys2Proof.Machine.execSyncSend port s
  | .announce port a => Sys2Proof.Machine.execAnnounce port a s
  | .announceSend port => Sys2Proof.Machine.execAnnounceSend port s
  | .announceReceiptTimeout port states => Sys2Proof.Machine.execAnnounceReceiptTimeout port states s
  | .delayReq port received => Sys2Proof.Machine.execDelayReq port received s
  | .delayResp port delayNs => Sys2Proof.Machine.execDelayResp port delayNs s
  | .pdelayReq port => Sys2Proof.Machine.execPdelayReq port s
  | .pdelayResp port delayNs => Sys2Proof.Machine.execPdelayResp port delayNs s
  | .management port => Sys2Proof.Machine.execManagement port s
  | .holdoverExpire => Sys2Proof.Machine.execHoldoverExpire s
  | .ppsIn incr => Sys2Proof.Machine.execPpsIn incr s
  | .ppsInLoss => Sys2Proof.Machine.execPpsInLoss s
  | .ppsOut => Sys2Proof.Machine.execPpsOut s
  | .ppsPulseEnd => Sys2Proof.Machine.execPpsPulseEnd s
  | .capEdge ch rising close => Sys2Proof.Machine.execCapEdge ch rising close s
  | .capTsNs who ch => Sys2Proof.Machine.execCapTsNs who ch s
  | .capTsSh who ch => Sys2Proof.Machine.execCapTsSh who ch s
  | .canRxFrame n f => Sys2Proof.Machine.execCanRxFrame n f s
  | .rxfLatch who n ofs => Sys2Proof.Machine.execRxfLatch who n ofs s
  | .rxfRelease who n => Sys2Proof.Machine.execRxfRelease who n s
  | .txbReq who n b1 b2 => Sys2Proof.Machine.execTxbReq who n b1 b2 s
  | .txbAbort who n mask => Sys2Proof.Machine.execTxbAbort who n mask s
  | .recReq who n => Sys2Proof.Machine.execRecReq who n s
  | .canArbitration n => Sys2Proof.Machine.execCanArbitration n s
  | .canTxEnd n res => Sys2Proof.Machine.execCanTxEnd n res s
  | .canBusError n code tecUp recUp => Sys2Proof.Machine.execCanBusError n code tecUp recUp s
  | .recoveryDone n => Sys2Proof.Machine.execRecoveryDone n s
  | .filterTimeout n f => Sys2Proof.Machine.execFilterTimeout n f s
  | .dlkFrame n => Sys2Proof.Machine.execDlkFrame n s
  | .dlkReply n d reply => Sys2Proof.Machine.execDlkReply n d reply s
  | .reference who axis => Sys2Proof.Machine.execReference who axis s
  | .setPos who axis => Sys2Proof.Machine.execSetPos who axis s
  | .clear who axis => Sys2Proof.Machine.execClear who axis s
  | .halt who axis => Sys2Proof.Machine.execHalt who axis s
  | .tholdExpire axis => Sys2Proof.Machine.execTholdExpire axis s
  | .replyLost axis => Sys2Proof.Machine.execReplyLost axis s
  | .linkLoss axis => Sys2Proof.Machine.execLinkLoss axis s
  | .mtrSample y stuck => Sys2Proof.Machine.execMtrSample y stuck s
  | .thermalTick => Sys2Proof.Machine.execThermalTick s
  | .avgPeriodEnd => Sys2Proof.Machine.execAvgPeriodEnd s
  | .intervalEnd => Sys2Proof.Machine.execIntervalEnd s
  | .totalLoRead who sel => Sys2Proof.Machine.execTotalLoRead who sel s
  | .pulseTick => Sys2Proof.Machine.execPulseTick s
  | .pulseWidthEnd o => Sys2Proof.Machine.execPulseWidthEnd o s
  | .resLoRead who o => Sys2Proof.Machine.execResLoRead who o s
  | .gpioInChg g level => Sys2Proof.Machine.execGpioInChg g level s
  | .heartbeatSend => Sys2Proof.Machine.execHeartbeatSend s
  | .heartbeat h b => Sys2Proof.Machine.execHeartbeat h b s
  | .witnessHeartbeat raw => Sys2Proof.Machine.execWitnessHeartbeat raw s
  | .pathSilent witness => Sys2Proof.Machine.execPathSilent witness s
  | .laneDown l => Sys2Proof.Machine.execLaneDown l s
  | .statePage h page data => Sys2Proof.Machine.execStatePage h page data s
  | .stateEnd h e => Sys2Proof.Machine.execStateEnd h e s
  | .stream h chunk obj last gen data => Sys2Proof.Machine.execStream h chunk obj last gen data s
  | .keeper h chunk data => Sys2Proof.Machine.execKeeper h chunk data s
  | .leaseReq src r => Sys2Proof.Machine.execLeaseReq src r s
  | .leaseRsp src r => Sys2Proof.Machine.execLeaseRsp src r s
  | .leaseRenew => Sys2Proof.Machine.execLeaseRenew s
  | .leaseEnd => Sys2Proof.Machine.execLeaseEnd s
  | .grantEnd => Sys2Proof.Machine.execGrantEnd s
  | .takeover => Sys2Proof.Machine.execTakeover s
  | .epochCommit => Sys2Proof.Machine.execEpochCommit s
  | .imageApplied => Sys2Proof.Machine.execImageApplied s
  | .fenceCheck => Sys2Proof.Machine.execFenceCheck s
  | .contestEnd => Sys2Proof.Machine.execContestEnd s
  | .standDownLimit => Sys2Proof.Machine.execStandDownLimit s
  | .resolveEnd => Sys2Proof.Machine.execResolveEnd s
  | .secRun => Sys2Proof.Machine.execSecRun s
  | .cmdBegin who => Sys2Proof.Machine.execCmdBegin who s
  | .cmdData who val => Sys2Proof.Machine.execCmdData who val s
  | .cmdSubmit who => Sys2Proof.Machine.execCmdSubmit who s
  | .cmdAbort who => Sys2Proof.Machine.execCmdAbort who s
  | .commandDeliver target => Sys2Proof.Machine.execCommandDeliver target s
  | .blockCtrl target val => Sys2Proof.Machine.execBlockCtrl target val s
  | .onlineChange items => Sys2Proof.Machine.execOnlineChange items s
  | .force items => Sys2Proof.Machine.execForce items s
  | .safeValue seg => Sys2Proof.Machine.execSafeValue seg s
  | .arm seg => Sys2Proof.Machine.execArm seg s
  | .logClear slot counter archived => Sys2Proof.Machine.execLogClear slot counter archived s
  | .keyChange slot counter k => Sys2Proof.Machine.execKeyChange slot counter k s
  | .fwUpdate b bundle => Sys2Proof.Machine.execFwUpdate b bundle s
  | .fwUpdateDone e => Sys2Proof.Machine.execFwUpdateDone e s
  | .switch => Sys2Proof.Machine.execSwitch s
  | .fwConfirm who val => Sys2Proof.Machine.execFwConfirm who val s
  | .extend2 who => Sys2Proof.Machine.execExtend2 who s
  | .lock2 who => Sys2Proof.Machine.execLock2 who s
  | .quoteStart who => Sys2Proof.Machine.execQuoteStart who s
  | .quoteCert who => Sys2Proof.Machine.execQuoteCert who s
  | .quoteDone => Sys2Proof.Machine.execQuoteDone s
  | .recordSubmit r => Sys2Proof.Machine.execRecordSubmit r s
  | .recordStage p => Sys2Proof.Machine.execRecordStage p s
  | .flush => Sys2Proof.Machine.execFlush s
  | .swSend who val => Sys2Proof.Machine.execSwSend who val s
  | .rdOfs who val => Sys2Proof.Machine.execRdOfs who val s
  | .rlIndex who val => Sys2Proof.Machine.execRlIndex who val s
  | .rtcSecond => Sys2Proof.Machine.execRtcSecond s
  | .wake => Sys2Proof.Machine.execWake s
  | .wakePeriod who val => Sys2Proof.Machine.execWakePeriod who val s
  | .timeRead who one => Sys2Proof.Machine.execTimeRead who one s
  | .time2Read who => Sys2Proof.Machine.execTime2Read who s
  | .rdTimeout => Sys2Proof.Machine.execRdTimeout s
  | .commitGo who => Sys2Proof.Machine.execCommitGo who s
  | .commitLoad => Sys2Proof.Machine.execCommitLoad s
  | .backupSwitch toBat => Sys2Proof.Machine.execBackupSwitch toBat s
  | .batLow below => Sys2Proof.Machine.execBatLow below s
  | .retLost => Sys2Proof.Machine.execRetLost s
  | .trimWindow lockedThroughout elapsedNs => Sys2Proof.Machine.execTrimWindow lockedThroughout elapsedNs s
  | .pnlFrame => Sys2Proof.Machine.execPnlFrame s
  | .railUpDone => Sys2Proof.Machine.execRailUpDone s
  | .railDownDone => Sys2Proof.Machine.execRailDownDone s
  | .railIdle => Sys2Proof.Machine.execRailIdle s
  | .railFault rail => Sys2Proof.Machine.execRailFault rail s
  | .wfBegin who => Sys2Proof.Machine.execWfBegin who s
  | .wfData who val => Sys2Proof.Machine.execWfData who val s
  | .wfEnd who => Sys2Proof.Machine.execWfEnd who s
  | .wfAbort who => Sys2Proof.Machine.execWfAbort who s
  | .updGo who source => Sys2Proof.Machine.execUpdGo who source s
  | .clearWf who => Sys2Proof.Machine.execClearWf who s
  | .fullClear who => Sys2Proof.Machine.execFullClear who s
  | .recovered => Sys2Proof.Machine.execRecovered s
  | .timeRecovered => Sys2Proof.Machine.execTimeRecovered s
  | .restartGo who => Sys2Proof.Machine.execRestartGo who s
  | .supplyReturn => Sys2Proof.Machine.execSupplyReturn s
  | .pdelayReqSend port => Sys2Proof.Machine.execPdelayReqSend port s
  | .laneUp l => Sys2Proof.Machine.execLaneUp l s
  | .leaseStartWait => Sys2Proof.Machine.execLeaseStartWait s

end Sys2Proof.Machine
end

