-- ==== Sys2Proof/Safety.lean ====
section
/-! DEFINITION. What counts as a well-kept state, and how statements say what a command does: every table of the state has its
one canonical form, and a command answers a next state with a property. -/

namespace Sys2Proof.Machine

/-- A memory has its canonical form: addresses rise strictly and no listed byte equals what an unlisted one reads as. -/
abbrev Memory.wf (m : List Host.Cell) : Bool := Tab.wf byte0 m

/-- Every register file, memory and numbered table of the state has its canonical form. -/
def State.canon (s : State) : Bool :=
  Tab.wf regReset s.regs && Tab.wf (fun _ => {}) s.pages && Tab.wf blkReset s.blks &&
  Memory.wf s.yard && Memory.wf s.dram && Memory.wf s.stallMem && Memory.wf s.tcm && Memory.wf s.img &&
  Tab.wf (fun _ => {}) s.eth && Tab.wf (fun _ => {}) s.cap && Tab.wf (fun _ => {}) s.can && Tab.wf (fun _ => {}) s.axes &&
  Tab.wf (fun _ => {}) s.dlk && Tab.wf (fun _ => {}) s.pls && Tab.wf (fun _ => {}) s.stalls

/-- What every command does to what it does not act on: the queue stays, a free value is drawn once, and tables stay canonical. -/
structure Keeps (s t : State) : Prop where
  queue : t.pending = s.pending
  drawn : s.free ≤ t.free
  form  : s.canon = true → t.canon = true

/-- The command answers a next state that has a property. -/
def Answers (i : Instr) (s : State) (P : State → Prop) : Prop := ∃ t, exec i s = .next t ∧ P t

/-- Every byte of every memory is as before. -/
def SameMem (s t : State) : Prop :=
  t.yard = s.yard ∧ t.dram = s.dram ∧ t.stallMem = s.stallMem ∧ t.tcm = s.tcm ∧ t.img = s.img

/-- Every register is as before, but for those named. -/
def RegsBut (l : List Nat) (s t : State) : Prop := ∀ a, a ∉ l → t.reg a = s.reg a

/-- A write of an initiator reaches the register at an address and is not dropped (R52, R92, R94, R95). -/
def MayWrite (who : Initiator) (a : Nat) (s : State) : Bool :=
  decide (a % 4 = 0 ∧ 0x40000000 ≤ a ∧ a < 0x40100000) && isPage (pageOf a) && s.up (domOf (pageOf a)) &&
    !(isKp a && who != .keeper) && reaches who a

/-- A read of an initiator reaches it. -/
def MayRead (who : Initiator) (a : Nat) (s : State) : Bool :=
  decide (a % 4 = 0 ∧ 0x40000000 ≤ a ∧ a < 0x40100000) && isPage (pageOf a) && s.up (domOf (pageOf a)) &&
    (who == .mgmt || reaches who a)

/-- Counters of the recorder that an event record may change (R31, R658). -/
def evrRegs : List Nat := [R.EVR_LOST 0, R.EVR_LOST 1, R.EVR_LOST 2, R.EVR_LOST 3, R.EVR_BAD_REC]

end Sys2Proof.Machine
end

