-- ==== Sys2Proof/Certificates/Slice0/Obligations.lean ====
section
/-! DEFINITION. The statements for the provers, family by family, from the numbered rules of the spec. -/

open Sys2Proof Sys2Proof.Machine

/-! ### Register pages and block states (chapter 03) -/

/-- From R94, R9: every register of a page with OWNER.KPROT and every register whose access code is KP is a KP register, SLOG_INDEX excepted; a
write to one from any initiator but the keeper is dropped: PROT_DROP, ERRCODE 7 with the offset, a record in the event log and one in the
safety log, and nothing else. -/
def Obligations.KeeperRegisterWriteDropped : Prop :=
  (∀ a, isKp a = true ↔ a ≠ R.KPR_SLOG_INDEX ∧ (kprotOf (pageOf a) = true ∨ ∃ r, regRow a = some r ∧ r.acc = .kp)) ∧
  ∀ (s : State) (who : Initiator) (a val : Word), who ≠ .keeper → isKp a.toNat = true → a.toNat % 4 = 0 →
    0x40000000 ≤ a.toNat → a.toNat < 0x40100000 → isPage (pageOf a.toNat) = true → s.up (domOf (pageOf a.toNat)) = true →
    exec (.plainRegWrite who a val true) s =
      .next ((((((s.answer 0).irq (pageOf a.toNat) 6).errc (pageOf a.toNat) 7 (ofsOf a.toNat)).emit 1 (pageOf a.toNat)
        [wd (ofsOf a.toNat)])).slogProt who a.toNat)

/-- From R95: an access that is not one aligned word, or that falls where no page lies, raises an access fault at the initiator and has no
other effect; a page whose domain is not ON raises no fault, and a write to it is dropped (R52). -/
def Obligations.BadAccessFaults : Prop :=
  (∀ (s : State) (who : Initiator) (a val : Word) (w : Bool),
    (w = false ∨ a.toNat % 4 ≠ 0 ∨ (0x40000000 ≤ a.toNat ∧ a.toNat < 0x40100000 ∧ isPage (pageOf a.toNat) = false)) →
    exec (.plainRegWrite who a val w) s = .next { s with resp := { val := 0, fault := true } }) ∧
  ∀ (s : State) (who : Initiator) (a val : Word), a.toNat % 4 = 0 → 0x40000000 ≤ a.toNat → a.toNat < 0x40100000 →
    isPage (pageOf a.toNat) = true → s.up (domOf (pageOf a.toNat)) = false →
    exec (.plainRegWrite who a val true) s = .next { s with resp := { val := 0, fault := false } }

/-- From R9: a plain write that reaches a register of a table does what its access code says: RW and, in STOP, RWS store the documented
bits, W1C clears the bits written as 1, RO ignores the write. Nothing else changes. IRQ_SET ORs into IRQ_STAT what the page has of
causes (R88). -/
def Obligations.PlainWriteByAccessCode : Prop :=
  ∀ (s : State) (who : Initiator) (a val : Word) (r : RegRow),
    MayWrite who a.toNat s = true → ownRow a.toNat = false → txbAt (pageOf a.toNat) (ofsOf a.toNat) = none →
    (0x100 ≤ ofsOf a.toNat → regRow a.toNat = some r →
      ((r.acc = .rw ∨ (r.acc = .rws ∧ s.shown (pageOf a.toNat) = 1)) → Answers (.plainRegWrite who a val true) s fun t =>
        t.reg a.toNat = val &&& writeMask a.toNat r ∧ RegsBut [a.toNat] s t ∧ SameMem s t ∧ t.pages = s.pages ∧ t.blks = s.blks) ∧
      (r.acc = .w1c → Answers (.plainRegWrite who a val true) s fun t =>
        t.reg a.toNat = s.reg a.toNat &&& ~~~(val &&& writeMask a.toNat r) ∧ RegsBut [a.toNat] s t ∧ SameMem s t ∧ t.pages = s.pages ∧
          t.blks = s.blks) ∧
      (r.acc = .ro → exec (.plainRegWrite who a val true) s = .next { s with resp := {} })) ∧
    ∀ page : Byte, MayWrite who (pageBase page.toNat + 0x1C) s = true → pageOf (pageBase page.toNat + 0x1C) = page.toNat →
      Answers (.irqSet who page val) s fun t =>
        t.page page.toNat = { s.page page.toNat with irqStat := (s.page page.toNat).irqStat ||| (val &&& causeMask page.toNat) } ∧
          t.regs = s.regs ∧ t.blks = s.blks ∧ SameMem s t ∧ ∀ q, q ≠ page.toNat → t.page q = s.page q

/-- From R90: an RWS write made while the block is not in STOP has no effect but its report. That ERRCODE of a further page takes the report of
its own registers is the model's choice (log entry 83). -/
def Obligations.RwsWriteOutsideStopRefused : Prop :=
  ∀ (s : State) (who : Initiator) (a val : Word) (r : RegRow),
    MayWrite who a.toNat s = true → ownRow a.toNat = false → 0x100 ≤ ofsOf a.toNat → regRow a.toNat = some r → r.acc = .rws →
    s.shown (pageOf a.toNat) ≠ 1 →
    exec (.plainRegWrite who a val true) s =
      .next ((((s.answer 0).irq (pageOf a.toNat) 1).errc (pageOf a.toNat) 6 (ofsOf a.toNat)).emit 2 (pageOf a.toNat) [wd (ofsOf a.toNat)])

/-- From R88, R89: IRQ_STAT gains one cause; ERRCODE takes code and detail; BLOCKERR follows the code (the model's reading, log entry 26); no
other page changes. -/
def Obligations.CauseAndErrorCode : Prop :=
  ∀ (s : State) (p i code detail q : Nat), i < 32 → code < 0x10000 → detail < 0x10000 →
    ((s.irq p i).page p).irqStat = (s.page p).irqStat ||| bitW i ∧
    ((s.errc p code detail).page p).errcode.toNat = code + 0x10000 * detail ∧
    ((s.errc p code detail).page p).err.getLsbD 5 = decide (0x100 ≤ code) ∧
    (q ≠ p → (s.irq p i).page q = s.page q ∧ (s.errc p code detail).page q = s.page q)

/-- From R96: a block in STOP whose start conditions hold enters RUN: the request stands in CTRL.REQ, GEN counts one up, ERRCODE and the
error bits of the run clear, and what the block does on its start follows (the LPDDR5 controller trains first, R85). -/
def Obligations.RunRequestStartsBlock : Prop :=
  ∀ (s : State) (who : Initiator) (b : Block),
    MayWrite who (pageBase (blockPage b) + 0xC) s = true → (critOf (blockPage b) = true → who = .quay) → s.pwr.saving = false →
    s.shown (blockPage b) = 1 → ((s.answer 0).noteRun (blockPage b) true).runBad (blockPage b) 3 = none →
    (b ≠ .drm → exec (.blockRunReq who b) s =
      .next ((((s.answer 0).noteRun (blockPage b) true).toRun (blockPage b)).onRun (blockPage b) (who == .quay))) ∧
    (b = .drm → exec (.blockRunReq who b) s = .next (((s.answer 0).setReq 208 3).setFld R.DRM_TRAIN_STAT 1 0 0)) ∧
    (((s.toRun (blockPage b)).blk (blockPage b)).st = .run ∧ ((s.toRun (blockPage b)).blk (blockPage b)).req = 3 ∧
      ((s.toRun (blockPage b)).blk (blockPage b)).gen = (s.blk (blockPage b)).gen + 1 ∧
      ((s.toRun (blockPage b)).page (blockPage b)).errcode = 0)

/-- From R96, R99: a STOP request in RUN begins the drain, which a block without a drain unit (PTP, CAP, GPIO) ends at once; a block that
cannot be stopped refuses it with REQ_REJ and ERRCODE 8; a STOP request drains, and only the end of the drain, or its timeout with
ERRCODE 5, stops the block. FORCE_STOP abandons the work at once; the LGE takes the halt of R355 in its place. FAULT_CLR leaves FAULT, and is
refused in any other state. -/
def Obligations.StopDrainForceClear : Prop :=
  ∀ (s : State) (who : Initiator) (b : Block) (p : Nat), p = blockPage b →
    (MayWrite who (pageBase p + 0xC) s = true → (critOf p = true → who = .quay) → s.pwr.saving = false → s.shown p = 3 →
      (s.stopRefused p = false → exec (.blockStopReq who b) s = .next
        (let t := ((((((s.answer 0).noteRun p false).setReq p 1).setSt p .drain).onDrain p).passesDown)
         if p = 120 ∨ p = 121 ∨ p = 224 then t.drained p else t)) ∧
      (s.stopRefused p = true → exec (.blockStopReq who b) s = .next
        (((((s.answer 0).noteRun p false).irq p 2).errc p 8 1).emit 3 p [1, 8])) ∧
      (noStop p = false → p ≠ 64 →
        exec (.forceStop who b) s = .next ((((((s.answer 0).noteRun p false).onForce p).setReq p 1).toStopAbandoned p).passesDown)) ∧
      (p = 64 → exec (.forceStop who b) s = .next ((((s.answer 0).noteRun p false).setReq p 1).haltMark 0x104 0))) ∧
    (s.shown p = 2 → (s.drainBusy p = false → exec (.drainComplete b) s = .next ((s.onStop p).setSt p .stop)) ∧
      (s.drainBusy p = true → exec (.drainComplete b) s = .next s) ∧
      (p ≠ 64 → exec (.drainTimeout b) s = .next (((s.onForce p).toStopAbandoned p).errc p 5 0)) ∧
      (p = 64 → exec (.drainTimeout b) s = .next (s.haltMark 5 0))) ∧
    (MayWrite who (pageBase p + 0xC) s = true → (critOf p = true → who = .quay) → s.pwr.saving = false → s.shown p = 4 →
      ((p = 48 → s.fld R.NSU_ACTIVE 7 4 ≠ 15) → (p = 16 → s.kpr.stopped = false) →
        Answers (.faultClr who b true) s fun t => (t.blk p).st = (if noStop p then .run else .stop) ∧
          RegsBut [R.CLK_ISL_STAT, R.PWR_RAIL_MON] s t ∧ SameMem s t) ∧
      exec (.faultClr who b false) s = .next ((((s.answer 0).irq p 2).errc p 8 0x200).emit 3 p [0x200, 8])) ∧
    (MayWrite who (pageBase p + 0xC) s = true → (critOf p = true → who = .quay) → s.pwr.saving = false → s.shown p ≠ 4 → ∀ gone,
      exec (.faultClr who b gone) s = .next ((((s.answer 0).irq p 2).errc p 8 0x200).emit 3 p [0x200, 8])) ∧
    ((s.toStopAbandoned p).blk p = { s.blk p with st := .stop, draining := false, abandoned := true } ∧
      ((s.setSt p .stop).blk p).st = .stop ∧ ((s.setSt p .drain).blk p).st = .drain)

/-- From R84, R85: the controller shows RUN when both channels are trained, and TRAIN_FAIL with the channel and step when one is not. The code
of the dies is shown by REFRESH. A scrubbed burst moves SCRUB_POS on and counts and latches an uncorrectable error. The burst's 32
bytes are the model's choice (log entry 25). -/
def Obligations.MemoryController : Prop :=
  ∀ (s : State) (code : BitVec 4) (ch : Fin 2) (k : Fin 5),
    (s.shown 208 = 1 → (s.blk 208).req = 3 →
      exec (.trainDone none) s = .next (((s.setFld R.DRM_TRAIN_STAT 1 0 3).toRun 208).irq 208 8) ∧
      Answers (.trainDone (some (ch, k))) s fun t => (t.blk 208).st = .fault ∧
        (t.page 208).errcode = wd (0x100 + 0x10000 * (ch.val + 256 * (k.val + 1))) ∧ bit (t.page 208).irqStat 8 = true ∧
        bit (t.reg R.DRM_TRAIN_STAT) ch.val = false ∧ bits (t.reg R.DRM_TRAIN_STAT) 15 8 = k.val + 1 ∧ SameMem s t) ∧
    (s.up 9 = true →
      exec (.drmRefresh code false) s = .next (s.setReg R.DRM_REFRESH (wd code.toNat)) ∧
      (s.flag R.DRM_REFRESH 8 = false →
        exec (.drmRefresh code true) s = .next ((s.setReg R.DRM_REFRESH (wd (code.toNat + 256))).irq 208 9))) ∧
    (s.running 208 = true → s.flag R.DRM_DRM_CFG 1 = true →
      exec (.drmScrub .clean) s = .next (s.setReg64 R.DRM_SCRUB_POS_LO R.DRM_SCRUB_POS_HI
        ((s.reg64 R.DRM_SCRUB_POS_LO R.DRM_SCRUB_POS_HI + 32) % 2 ^ 32)) ∧
      Answers (.drmScrub .corrected) s (fun t => t.reg R.DRM_CE_COUNT = s.reg R.DRM_CE_COUNT + 1 ∧
        bit (t.page 208).irqStat 4 = true ∧
        RegsBut [R.DRM_CE_COUNT, R.DRM_SCRUB_POS_LO, R.DRM_SCRUB_POS_HI] s t ∧ SameMem s t) ∧
      Answers (.drmScrub .uncorrectable) s fun t => t.reg R.DRM_UE_COUNT = s.reg R.DRM_UE_COUNT + 1 ∧
        t.reg R.DRM_UE_ADDR_LO = s.reg R.DRM_SCRUB_POS_LO ∧ t.reg R.DRM_UE_ADDR_HI = s.reg R.DRM_SCRUB_POS_HI ∧
        bit (t.page 208).irqStat 5 = true ∧ bit (t.page 208).irqStat 10 = true ∧
        RegsBut [R.DRM_UE_COUNT, R.DRM_UE_ADDR_LO, R.DRM_UE_ADDR_HI, R.DRM_SCRUB_POS_LO, R.DRM_SCRUB_POS_HI] s t ∧ SameMem s t)
/-! ### Power, resets, clocks and the power-fail save (chapters 02 and 20) -/

/-- From R46 to R48, R82: a write of DOM_REQ or DOM_REQ_KP carries its requests out in order; from the latch of a power-fail warning it carries
none out (R98). A request away from ON is refused while a block of the domain is neither in STOP nor OFF, and PD_YRD and PD_HSS are
refused while a domain that needs them is ON or, for PD_HSS, PLK is in RUN; PD_NSU and PD_NET wait for PD_YRD and PD_HSS while
these move to ON and are refused to ON without them. A refused request sets its bit of DOM_ERR and changes nothing else. -/
def Obligations.DomainRequestRules : Prop :=
  ∀ (s : State) (who : Initiator) (val : Word) (k v d : Nat),
    (MayWrite who R.PWR_DOM_REQ s = true →
      exec (.domReq who val) s = .next (if s.pwr.saving then (s.answer 0).setReg R.PWR_DOM_REQ (val &&& 0xCCFF00)
        else ((s.answer 0).setReg R.PWR_DOM_REQ (val &&& 0xCCFF00)).domRequests [4, 5, 6, 7, 9, 11] val)) ∧
    (MayWrite who R.PWR_DOM_REQ_KP s = true →
      exec (.domReqKp who val) s = .next (if s.pwr.saving then (s.answer 0).setReg R.PWR_DOM_REQ_KP (val &&& 0x300C0)
        else ((s.answer 0).setReg R.PWR_DOM_REQ_KP (val &&& 0x300C0)).domRequests [3, 8] val)) ∧
    ((v = 0 ∨ v = 2 ∧ k = 5) → s.dom k = 1 →
      (s.domIdle k = false ∨ (k = 5 ∧ s.dom 4 = 1) ∨ (k = 7 ∧ (s.dom 6 = 1 ∨ s.running 128 = true))) →
      s.domAway k v = s.setFlag R.PWR_DOM_ERR k true) ∧
    (v = 3 ∨ (v = 2 ∧ k ≠ 5) → s.domAway k v = s.setFlag R.PWR_DOM_ERR k true) ∧
    ((k = 4 ∧ d = 5 ∨ k = 6 ∧ d = 7) →
      (s.dom d ≠ 1 → s.goalOf d ≠ 1 → s.domToOn k = s.setFlag R.PWR_DOM_ERR k true) ∧
      (s.dom d ≠ 1 → s.goalOf d = 1 → s.domToOn k =
        { s with pwr := { s.pwr with goal := putBits s.pwr.goal (2 * k + 1) (2 * k) 1, wait := s.pwr.wait ++ [(k, d)] } }) ∧
      (s.dom d = 1 → s.domToOn k = { s with pwr := { s.pwr with goal := putBits s.pwr.goal (2 * k + 1) (2 * k) 1 } })) ∧
    (k ≠ 4 → k ≠ 6 → s.domToOn k = { s with pwr := { s.pwr with goal := putBits s.pwr.goal (2 * k + 1) (2 * k) 1 } })

/-- From R50, R57, R82: a domain that came into its requested state shows it in DOM_STAT, a domain that comes ON with its clock island locked; a
request to ON is refused when the domain it needs is not ON. With a rail of it out of range a domain stays OFF and its bit of DOM_ERR
[27:16] is set. -/
def Obligations.DomainTransitions : Prop :=
  ∀ (s : State) (k : Fin 12) (d : Nat) (rails : BitVec 19), s.moving k.val = true → (s.pwr.wait.any fun e => e.1 == k.val) = false →
    (s.pwr.saving = false → s.heldDom k.val = false → s.goalOf k.val = 1 → domNeeds k.val = none →
      exec (.domTransitionDone k) s = .next ((s.domEnter k.val).setPwr fun p => { p with wait := p.wait.filter fun e => e.2 != k.val })) ∧
    (s.pwr.saving = false → s.heldDom k.val = false → s.goalOf k.val = 1 → domNeeds k.val = some d →
      exec (.domTransitionDone k) s = .next (if s.dom d = 1 then s.domEnter k.val else
        (s.setGoal k.val (s.dom k.val)).setFlag R.PWR_DOM_ERR k.val true)) ∧
    (s.pwr.saving = false → s.heldDom k.val = false → s.goalOf k.val ≠ 1 → Answers (.domTransitionDone k) s fun t =>
      t.dom k.val = s.goalOf k.val ∧ RegsBut [R.PWR_DOM_STAT] s t ∧ SameMem s t ∧ t.blks = s.blks) ∧
    (k.val ≠ 3 → k.val ≠ 4 → k.val ≠ 6 → (s.domEnter k.val).dom k.val = 1 ∧ (s.domEnter k.val).flag R.CLK_ISL_STAT k.val = true ∧
      RegsBut [R.PWR_DOM_STAT, R.CLK_ISL_STAT] s (s.domEnter k.val)) ∧
    (s.up 1 = true → s.dom k.val = 0 → rails.toNat &&& penRails k.val ≠ penRails k.val → s.pwr.wait = [] →
      Answers (.penCheck k rails) s fun t => t.dom k.val = 0 ∧ t.flag R.PWR_DOM_ERR (16 + k.val) = true ∧
        t.reg R.PWR_RAIL_MON = rails.setWidth 32 ∧ RegsBut [R.PWR_RAIL_MON, R.PWR_DOM_ERR] s t ∧ SameMem s t)

/-- From R61, R62, R65: the blocks of a domain whose supply leaves its range, or whose clock island loses lock, enter FAULT, and with the
SerDes island the lanes of the pair link go. An island that runs locked again shows it (the model's choice, log entry 35). -/
def Obligations.SupplyAndClockFaults : Prop :=
  ∀ (s : State) (rail : Fin 20) (k : Fin 12) (p code detail : Nat),
    (s.up 1 = true → railDoms rail.val ≠ [] → exec (.domainBrownout rail) s = .next
      ((railDoms rail.val).foldl (fun t d => if t.dom d = 0 then t else
          ((blocksIn d).foldl (fun t q => t.islandFault q sbBo 2 rail.val) t).setFlag R.PWR_DOM_ERR (16 + d) true)
        (s.setFlag R.PWR_RAIL_MON (rail.val - 1) false))) ∧
    (railDoms rail.val = [] → exec (.domainBrownout rail) s = .next s) ∧
    (s.dom k.val = 1 → s.heldDom k.val = false →
      exec (.clkUnlock ⟨k, false⟩) s = .next ((blocksIn k.val).foldl (fun t q => t.islandFault q sbClk 1 0)
        ((if k.val = 7 then s.lanesGone else s).setFlag R.CLK_ISL_STAT k.val false)) ∧
      exec (.clkUnlock ⟨k, true⟩) s = .next (s.setFlag R.CLK_ISL_STAT k.val true)) ∧
    ((s.dom k.val ≠ 1 ∨ s.heldDom k.val = true) → ∀ back, exec (.clkUnlock ⟨k, back⟩) s = .next s) ∧
    (s.shown p ≠ 0 → s.shown p ≠ 4 → p ≠ 64 → (p = 57 → s.active 57 = true) → ((s.blockFault p code detail).blk p).st = .fault ∧
      ((s.blockFault p code detail).blk p).abandoned = true ∧
      (code < 0x10000 → detail < 0x10000 → ((s.blockFault p code detail).page p).errcode = wd (code + 0x10000 * detail)))

/-- From R65, R66, R83: a reset of all but PD_RTC holds every domain but that in reset, adds its bit to RST_CAUSE (a power-on leaves only its
own), and sets every register to its reset value but for those in MRAM, in PD_RTC or that record the reset; the calendar stays. A save
that runs is cut off first, with what it has committed kept (R73). TRST_N resets the TAP alone; RSTOUT_N rises 1 ms after the reset. -/
def Obligations.ResetsAndTheirCauses : Prop :=
  ∀ (s : State) (a : Nat) (n : Fin 6),
    Answers .powerOn s (fun t => t.pwr.hold = .reset ∧ t.reg R.PWR_RST_CAUSE = 1 ∧ t.rtc = s.rtc ∧ t.yard = [] ∧ t.dram = [] ∧ t.blks = [] ∧
      t.pwr.rstoutN = false ∧
      (nvReg a = false → t.reg a = regReset a) ∧ (nvReg a = true → a ≠ R.PWR_RST_CAUSE → t.reg a = s.saveCut.reg a)) ∧
    Answers .pinReset s (fun t => t.pwr.hold = .reset ∧ t.pwr.porstLow = true ∧ t.reg R.PWR_RST_CAUSE = s.reg R.PWR_RST_CAUSE ||| 2 ∧
      (nvReg a = false → t.reg a = regReset a) ∧ (nvReg a = true → a ≠ R.PWR_RST_CAUSE → t.reg a = s.saveCut.reg a)) ∧
    Answers .coreBrownout s (fun t => t.pwr.hold = .reset ∧ t.reg R.PWR_RST_CAUSE = s.reg R.PWR_RST_CAUSE ||| 16 ∧
      (nvReg a = false → t.reg a = regReset a) ∧ (nvReg a = true → a ≠ R.PWR_RST_CAUSE → t.reg a = s.saveCut.reg a)) ∧
    (s.saveRuns = false → s.saveCut = s) ∧
    (s.saveRuns = true → ∃ n, n < 6 ∧ s.saveCut = s.fresh.2.saveItems n false) ∧
    ((s.pwr.saving = false ∨ s.pwr.saveDone = true ∨ n = 0) → Answers (.latePowerFail n) s fun t => t.pwr.hold = .reset ∧
      t.reg R.PWR_RST_CAUSE = s.reg R.PWR_RST_CAUSE ||| 4 ∧ (nvReg a = true → a ≠ R.PWR_RST_CAUSE → t.reg a = s.reg a)) ∧
    (s.pwr.saving = true → s.pwr.saveDone = false →
      exec (.latePowerFail n) s = .next ((s.saveItems n.val false).resetAll 2)) ∧
    exec .tapReset s = .next { s with pwr := { s.pwr with tapReset := true } } ∧
    (s.pwr.hold ≠ .reset → s.pwr.started = true → exec .rstoutRelease s = .next { s with pwr := { s.pwr with rstoutN := true } }) ∧
    ((s.pwr.hold = .reset ∨ s.pwr.started = false) → exec .rstoutRelease s = .next s) ∧
    (∀ d, 0 < d → (s.resetAll 1).up d = false)

/-- From R65, R77, R610, R694: start-up follows the release of PORST_N, once every core rail is in range and PFW_N has been high for 10 ms; the
return of the supply; a keeper fault's own reset, where no power-fail save stands and PFW_N is low (log entry 38). PSIDE and BOOTMODE
are sampled at the release. -/
def Obligations.StartUpFollows : Prop :=
  ∀ (s : State) (side hi : Bool) (bm : BitVec 2) (rails : BitVec 19) (who : Initiator),
    ((s.pwr.started = false ∨ s.pwr.hold = .reset) → rails.toNat &&& 0x60CC = 0x60CC →
      exec (.release side bm rails true) s = .next
        (({ s with pwr := { s.pwr with pside := side, bootmode := bm, pfwHigh := true, porstLow := false, hold := .reset, rstoutN := false,
                                       startWait := false, railWait := false } }).setReg R.PWR_RAIL_MON (rails.setWidth 32)).startUp) ∧
    (s.pwr.started = true → s.pwr.hold ≠ .reset → exec (.release side bm rails hi) s = .next s) ∧
    ((s.pwr.started = false ∨ s.pwr.hold = .reset) → (hi = false ∨ rails.toNat &&& 0x60CC ≠ 0x60CC) →
      Answers (.release side bm rails hi) s fun t => t.pwr.hold = .reset ∧ t.pwr.pside = side ∧ t.pwr.bootmode = bm ∧
        t.pwr.startWait = !hi ∧ t.pwr.railWait = decide (rails.toNat &&& 0x60CC ≠ 0x60CC) ∧ t.pwr.rstoutN = false ∧
        RegsBut [R.PWR_RAIL_MON] s t ∧ SameMem s t) ∧
    (s.pwr.startWait = true → s.pwr.hold = .reset → ∀ u, u = ({ s with pwr := { s.pwr with pfwHigh := true, startWait := false } } : State) →
      (s.pwr.railWait = false → exec .pfwStartWait s = .next u.startUp) ∧ (s.pwr.railWait = true → exec .pfwStartWait s = .next u)) ∧
    (s.pwr.started = true → s.pwr.hold = .reset → ∀ u, u = ({ s with pwr := { s.pwr with railWait := false } } : State) →
      (s.pwr.porstLow = false → s.pwr.startWait = false → exec .supplyReturn s = .next u.startUp) ∧
      ((s.pwr.porstLow = true ∨ s.pwr.startWait = true) → exec .supplyReturn s = .next u)) ∧
    (s.kpr.stopped = true → s.pwr.hold ≠ .reset → ∀ u, u = s.saveCut.resetAll 6 →
      ((s.pwr.saving = false ∨ s.pwr.pfwHigh = true) → exec .keeperReset s = .next u.startUp) ∧
      (s.pwr.saving = true → s.pwr.pfwHigh = false → exec .keeperReset s = .next { u with pwr := { u.pwr with startWait := true } })) ∧
    ((s.kpr.stopped = false ∨ s.pwr.hold = .reset) → exec .keeperReset s = .next s) ∧
    (s.pwr.saveDone = true → s.pwr.hold = .save → s.pwr.pfwHigh = true → exec .pfwRestart s = .next (s.resetAll 3).startUp) ∧
    (MayWrite who R.PWR_MGMT_RST s = true →
      exec (.mgmtRst who 1) s = .next { s.answer 0 with pwr := { s.pwr with mgmtReq := true } }) ∧
    (s.pwr.mgmtReq = true → s.up 10 = true → s.pwr.saving = false →
      exec .mgmtReset s = .next ((((if s.active 34 then s.flushLog else s).domWiped 10).setFlag R.PWR_RST_CAUSE 7 true).setPwr fun p => { p with mgmtReq := false }).serviceStart)

/-- From R63, R64: a window whose count is within 983 of 32768 passes and clears the count of misses; the third miss in a row, or no edge for a
microsecond, is a clock fault, which holds the planes; after one, three passes in a row start the device up again with CLK_FAULT in
RST_CAUSE (after a complete save the restart of R76 stays the one awaited, log entry 38). PWR configuration writes within their ranges are stored and others rejected (R81). -/
def Obligations.ClockChecks : Prop :=
  ∀ (s : State) (count val : Word) (who : Initiator) (restart : Bool), s.heldDom 2 = false → s.pwr.started = true →
    (32768 - 983 ≤ count.toNat → count.toNat ≤ 32768 + 983 → s.pwr.clkFault = false →
      exec (.clkCheckWindow count) s = .next { s with pwr := { s.pwr with clkCount := count, clkMiss := 0, clkPass := s.pwr.clkPass + 1 } }) ∧
    ((count.toNat < 32768 - 983 ∨ 32768 + 983 < count.toNat) → s.pwr.clkFault = false →
      exec (.clkCheckWindow count) s = .next
        (let t : State := { s with pwr := { s.pwr with clkCount := count, clkMiss := s.pwr.clkMiss + 1, clkPass := 0 } }
         if s.pwr.clkMiss < 2 then t else t.clkFail false)) ∧
    (32768 - 983 ≤ count.toNat → count.toNat ≤ 32768 + 983 → s.pwr.clkFault = true → 2 ≤ s.pwr.clkPass →
      exec (.clkCheckWindow count) s = .next
        (let t := (({ s with pwr := { s.pwr with clkCount := count, clkMiss := 0, clkPass := s.pwr.clkPass + 1 } }).setFlag R.PWR_RST_CAUSE 5 true)
         if s.pwr.saveDone then { t with pwr := { t.pwr with clkFault := false } } else t.startUp)) ∧
    (s.pwr.clkFault = true → (count.toNat < 32768 - 983 ∨ 32768 + 983 < count.toNat ∨ s.pwr.clkPass < 2) → Answers (.clkCheckWindow count) s
      fun t => t.pwr.clkFault = true ∧ t.pwr.clkPass = (if 32768 - 983 ≤ count.toNat ∧ count.toNat ≤ 32768 + 983 then s.pwr.clkPass + 1 else 0) ∧
        t.regs = s.regs ∧ SameMem s t) ∧
    (∀ b, (s.clkFail b).pwr.clkFault = true ∧ (s.clkFail b).pwr.hold = (if s.pwr.saveDone then .save else .clk) ∧
      ∀ n, n < 4 → (s.clkFail b).flag R.KPR_SAFE_STAT n = false) ∧
    (s.pwr.clkFault = false → exec .clkEdgeTimeout s = .next (s.clkFail true)) ∧
    (s.pwr.clkFault = true → exec .clkEdgeTimeout s = .next { s with pwr := { s.pwr with clkPass := 0 } }) ∧
    (MayWrite who (if restart then R.PWR_PFW_RESTART else R.PWR_PEN_DLY) s = true →
      ((if restart then 100 else 1) ≤ val.toNat → val.toNat ≤ (if restart then 10000 else 50) →
        exec (.pwrCfgWrite who restart val) s = .next ((s.answer 0).setReg (if restart then R.PWR_PFW_RESTART else R.PWR_PEN_DLY) val)) ∧
      ((val.toNat < (if restart then 100 else 1) ∨ (if restart then 10000 else 50) < val.toNat) →
        exec (.pwrCfgWrite who restart val) s = .next
          ((s.answer 0).cfgRej 1 (ofsOf (if restart then R.PWR_PFW_RESTART else R.PWR_PEN_DLY)))))

/-- From R67 to R76: PFW_N low is a warning, and high again clears it until it is latched; the latch sheds the domains and opens the save; a
torn output phase is noted once (R70). The n items of a save that are committed are shown by SAVE_STAT with its sequence, COMPLETE and
TORN; a complete save ends with the planes held in reset. -/
def Obligations.PowerFailSave : Prop :=
  ∀ (s : State) (n : Nat) (c : Bool),
    (s.up 1 = false → exec .pfwWarn s = .next { s with pwr := { s.pwr with pfwHigh := false } } ∧
      exec .pfwClear s = .next { s with pwr := { s.pwr with pfwHigh := true } }) ∧
    (s.up 1 = true → exec .pfwWarn s = .next (({ s with pwr := { s.pwr with pfwHigh := false } } : State).setFlag R.PWR_PFW_STAT 0 true) ∧
      exec .pfwClear s = .next (({ s with pwr := { s.pwr with pfwHigh := true } } : State).setFlag R.PWR_PFW_STAT 0 false)) ∧
    ((s.pwr.saving = true ∨ s.flag R.PWR_PFW_STAT 0 = false ∨ s.pwr.started = false ∨ s.pwr.hold ≠ .none) → exec .pfwLatch s = .next s) ∧
    (s.pwr.started = true → s.pwr.hold = .none → s.pwr.saving = false → s.flag R.PWR_PFW_STAT 0 = true →
      Answers .pfwLatch s fun t => t.pwr.saving = true ∧ t.flag R.PWR_PFW_STAT 1 = true ∧ (∀ k, k ∈ [4, 5, 6, 7, 9] → t.dom k = 0) ∧
        (∀ i, i < 4 → t.flag R.KPR_SAFE_STAT i = false) ∧ t.kpr.chk = [] ∧ t.kpr.wdFrom = none) ∧
    (s.pwr.saving = true → s.pwr.saveDone = false → s.lge.cut = false →
      exec .outTorn s = .next ((({ s with lge := { s.lge with cut := true } } : State).setFlag R.PWR_SAVE_STAT 9 true).slog slTorn 0)) ∧
    ((s.pwr.saving = false ∨ s.pwr.saveDone = true ∨ s.lge.cut = true) → exec .outTorn s = .next s) ∧
    (0 < n → n ≤ 5 → (s.saveItems n c).reg R.PWR_SAVE_STAT = wd (2 ^ n - 1 + 256 * b2n c + 512 * b2n s.lge.cut) ∧
      (s.saveItems n c).reg64 R.PWR_SAVE_SEQ_LO R.PWR_SAVE_SEQ_HI = (s.pwr.saves.seq + 1) % 2 ^ 64 ∧
      (s.saveItems n c).pwr.saves.seq = s.pwr.saves.seq + 1) ∧
    (s.saveItems 0 c = s) ∧
    (s.pwr.saving = true → s.pwr.saveDone = false → Answers .saveComplete s fun t => t.pwr.saveDone = true ∧ t.pwr.hold = .save) ∧
    ((s.pwr.saving = false ∨ s.pwr.saveDone = true) → exec .saveComplete s = .next s)

/-- From R696, R697, R704 to R707: TIME_RECOVERED gives the reference copy the calendar's second, steps the counter when PD_NET is ON, and ends
PENDING; RESTART replays the run record in its order after a complete save and is refused with ERRCODE 0x100 otherwise. -/
def Obligations.TimeAndRunsRecovered : Prop :=
  ∀ (s : State) (who : Initiator),
    (s.pwr.started = true → s.up 1 = true → s.fld R.SYS_TIME_REC 1 0 = 0 → s.flag R.RTC_STAT 0 = true → s.up 6 = false →
      Answers .timeRecovered s fun t => t.time.aon = calSecond (s.reg R.RTC_TIME0) (s.reg R.RTC_TIME1) (s.reg R.RTC_TIME2) * tS ∧
        t.time.cnt = s.time.cnt ∧ t.reg R.SYS_TIME_REC = 1 ∧ bit (t.page 0).irqStat 8 = true ∧
        RegsBut (evrRegs ++ [R.SYS_TIME_REC, R.SYS_TIME_REC_S]) s t ∧ SameMem s t) ∧
    ((s.flag R.RTC_STAT 0 = false ∨ s.fld R.SYS_TIME_REC 1 0 ≠ 0) → exec .timeRecovered s = .next s) ∧
    (MayWrite who R.SYS_RESTART s = true → s.flag R.SYS_START_STAT 0 = false →
      exec (.restartGo who) s = .next ((s.answer 0).errc 0 0x100 0)) ∧
    (MayWrite who R.SYS_RESTART s = true → s.flag R.SYS_START_STAT 0 = true →
      exec (.restartGo who) s = .next (restartOrder.foldl
        (fun t p => if !t.runNoted p ∨ t.shown p = 3 then t else if t.shown p = 0 then t.emit evReplay 0 [wd (pageBase p)]
          else t.ctrlReach p false 3)
        ((s.answer 0).warmConsume.setFlag R.SYS_START_STAT 1 true)))

/-! ### The network model and the Network Solver Unit (chapters 04 and 05) -/

/-- From R155 to R160: LOAD is refused while a load is validated, ends CANCELLED with the yard off, and otherwise starts a validation of
the image's revision; CANCEL discards a validation or a pending image; a validated image is refused at its first failed check, in
force at once in STOP, and PENDING otherwise; what its reads met is counted and latched (R85). LOAD and CHECK read as they were put.
A load with the yard off is the model's choice (log entry 85). -/
def Obligations.ModelLoads : Prop :=
  ∀ (s : State) (who : Initiator) (image : List Byte) (read : Ecc) (bad : Bool) (b : List Byte) (v c : Nat),
    (MayWrite who R.DSQ_MODEL_CMD s = true → (s.dramUp = false ∨ image = []) → s.fld R.DSQ_MODEL_STAT 2 0 = 1 →
      exec (.modelLoad who image) s = .next (((s.answer 0).errc 57 0x103 0).emit evModelBusy 57 [])) ∧
    (MayWrite who R.DSQ_MODEL_CMD s = true → s.fld R.DSQ_MODEL_STAT 2 0 ≠ 1 → s.up 5 = true →
      inDram (s.reg64 R.DSQ_MODEL_ADDR_LO R.DSQ_MODEL_ADDR_HI) image.length = true → s.dramUp = true →
      (let u : State := { s with dram := wrBytes s.dram (s.reg64 R.DSQ_MODEL_ADDR_LO R.DSQ_MODEL_ADDR_HI) image }
       exec (.modelLoad who image) s = .next (((u.answer 0).setReg R.DSQ_MODEL_PEND_REV u.pendRev).setLoad 1 0))) ∧
    (MayWrite who R.DSQ_MODEL_CMD s = true → s.fld R.DSQ_MODEL_STAT 2 0 ≠ 1 → s.up 5 = false → image = [] →
      Answers (.modelLoad who image) s fun t => t.fld R.DSQ_MODEL_STAT 2 0 = 4 ∧ RegsBut [R.DSQ_MODEL_STAT] s t) ∧
    (MayWrite who R.DSQ_MODEL_CMD s = true → (s.fld R.DSQ_MODEL_STAT 2 0 = 1 ∨ s.fld R.DSQ_MODEL_STAT 2 0 = 2) →
      Answers (.modelCancel who) s fun t => t.fld R.DSQ_MODEL_STAT 2 0 = 4 ∧ t.reg R.DSQ_MODEL_PEND_REV = 0 ∧
        RegsBut [R.DSQ_MODEL_STAT, R.DSQ_MODEL_PEND_REV] s t ∧ SameMem s t ∧ t.mdl = s.mdl) ∧
    (s.fld R.DSQ_MODEL_STAT 2 0 = 1 → s.up 4 = true → s.up 5 = true → s.dramUp = true →
      inDram (s.reg64 R.DSQ_MODEL_ADDR_LO R.DSQ_MODEL_ADDR_HI) (s.regN R.DSQ_MODEL_LEN) = true → s.regN R.DSQ_MODEL_LEN ≤ 12 * 1048576 →
      let a := s.reg64 R.DSQ_MODEL_ADDR_LO R.DSQ_MODEL_ADDR_HI
      let n := s.regN R.DSQ_MODEL_LEN
      (0 < n → exec (.modelValidated read) s = .next ((s.drmRead read a n).mdlJudge (rdBytes s.dram a n) (read == .uncorrectable))) ∧
      (n = 0 → exec (.modelValidated read) s = .next (s.mdlJudge [] (read == .uncorrectable)))) ∧
    (s.fld R.DSQ_MODEL_STAT 2 0 = 1 → s.up 4 = true → s.up 5 = true →
      (s.dramUp = false ∨ inDram (s.reg64 R.DSQ_MODEL_ADDR_LO R.DSQ_MODEL_ADDR_HI) (s.regN R.DSQ_MODEL_LEN) = false ∨
        12 * 1048576 < s.regN R.DSQ_MODEL_LEN) → exec (.modelValidated read) s = .next (s.mdlJudge [] (read == .uncorrectable))) ∧
    (s.fld R.DSQ_MODEL_STAT 2 0 ≠ 1 → exec (.modelValidated read) s = .next s) ∧
    (∀ n a, a = s.reg64 R.DSQ_MODEL_ADDR_LO R.DSQ_MODEL_ADDR_HI → s.mdlFail b a (s.regN R.DSQ_MODEL_LEN) = some n →
      s.mdlJudge b bad = s.mdlRefuse (if bad ∧ 4 < n then 4 else n)) ∧
    (∀ a, a = s.reg64 R.DSQ_MODEL_ADDR_LO R.DSQ_MODEL_ADDR_HI → s.mdlFail b a (s.regN R.DSQ_MODEL_LEN) = none →
      s.mdlJudge b true = s.mdlRefuse 4 ∧
      ∀ t, t = ({ s with yard := mdlCopy s.yard (slotBase (1 - s.mdl.slot)) b } : State).setReg R.DSQ_MODEL_PEND_REV (wd (fieldN b 12 4)) →
        s.mdlJudge b false = if t.shown 57 = 1 then t.mdlActivate else t.setLoad 2 0) ∧
    (v < 8 → c < 256 → (s.setLoad v c).fld R.DSQ_MODEL_STAT 2 0 = v ∧ (s.setLoad v c).fld R.DSQ_MODEL_STAT 15 8 = c) ∧
    (s.mdlActivate.mdl = { act := true, slot := 1 - s.mdl.slot, gen := s.mdl.gen + 1 })

/-- Operation codes by row (R198). -/
def Sys2Proof.Machine.jobRows : List ((JobCut → Instr) × Nat) :=
  [(.spmv, 1), (.spmvt, 2), (.dot, 3), (.axpy, 4), (.scale, 5), (.copy, 6), (.project, 7), (.remap, 8), (.fprint, 9), (.ic0, 0x10),
   (.ildl0, 0x11), (.pcg, 0x20), (.minres, 0x21), (.bicgstab, 0x22), (.pcgne, 0x23), (.newton, 0x30)]

/-- From R192, R193, R198, R199, R229: in RUN, once every good lane was tested, the job at JQ_HEAD whose clusters are free is taken by its
operation's row: HEAD counts, the job runs with its descriptor, and no memory changes before its end. A passed deadline is met at its
start; a mismatch of a cluster it does not run on is none of it (R166); each word corrected on its way is counted (R171). A malformed
descriptor's outcome is BAD_DESC. Of an elementary job that an error or RANGE ends some elements are written (R224). An uncorrectable
descriptor takes the NSU to FAULT (R173). -/
def Obligations.JobsAreTaken : Prop :=
  ∀ (s : State) (mk : JobCut → Instr) (op : Nat) (cut : JobCut), (mk, op) ∈ jobRows →
    (s.running 48 = true → s.reg R.JQ_JQ_HEAD ≠ s.reg R.JQ_JQ_TAIL → s.lanesTested = true →
      let d := s.descAt (s.regN R.JQ_JQ_HEAD)
      (dOp d = op ∨ opKnown (dOp d) = false) → (s.clusterSet d).1 &&& s.fld R.NSU_ACTIVE 3 0 = 0 → (dFlag d 1 = false ∨ s.nsu.jobs = []) →
      let deg := (s.clusterSet d).2 || (List.range 4).any fun c => (s.clusterSet d).1.testBit c && s.flag (R.NSUC_STAT c) 6
      let c : JobCut := { cut with deadline := if dlPassed d s.time.nsu then some 0 else cut.deadline,
                                   err := cut.err.filter fun e => match e.2 with | .hw k => (s.clusterSet d).1.testBit k.val | .ecc _ => true }
      let j := jobRun s.yard { idx := s.regN R.JQ_JQ_HEAD, desc := d, cl := (s.clusterSet d).1, start := s.time.nsu,
                                  flags := if deg then 16 else 0 } { c with drain := none }
      (cut.descUe = false → Answers (mk cut) s fun t => t.reg R.JQ_JQ_HEAD = s.reg R.JQ_JQ_HEAD + 1 ∧
        (∃ l, (∀ e, e ∈ l → e ∈ j.data) ∧ (¬(dOp d ≤ 9 ∧ (j.out = 4 ∨ errOut j.out = true)) → l = j.data) ∧
          t.nsu.jobs = s.nsu.jobs ++ [{ j with data := l, cut := c }]) ∧
        (badDesc d = true → j.out = 8) ∧ SameMem s t ∧ t.reg R.JQ_JQ_TAIL = s.reg R.JQ_JQ_TAIL ∧ t.reg R.JQ_JQ_DONE = s.reg R.JQ_JQ_DONE ∧
        t.reg R.YRD_YRD_CE_COUNT = s.reg R.YRD_YRD_CE_COUNT + wd cut.fixed.length) ∧
      (cut.descUe = true → Answers (mk cut) s fun t => (t.blk 48).st = .fault ∧ bits (t.page 48).errcode 15 0 = 0x101 ∧ t.nsu.jobs = [] ∧
        t.reg R.YRD_YRD_UE_COUNT = s.reg R.YRD_YRD_UE_COUNT + 1 ∧ t.reg R.JQ_JQ_HEAD = s.reg R.JQ_JQ_HEAD)) ∧
    ((s.running 48 = false ∨ s.reg R.JQ_JQ_HEAD = s.reg R.JQ_JQ_TAIL ∨ s.lanesTested = false) → exec (mk cut) s = .next s)

/-- From R198, R202, R203: an elementary job writes elements of its output vector and nothing else in its data; COPY between vectors of one
scale copies the elements; each element PROJECT writes lies between its bounds. -/
def Obligations.ElementaryOperations : Prop :=
  ∀ (m : Tab Byte) (j : Job) (tr useX inout : Bool) (f : VHdr → VHdr → Int → Int → Option Int) (e : Nat × List Byte), j.data = [] → j.out = 0 →
    let x := rdVHdr m (dOpnd j.desc 1)
    let y := rdVHdr m (dOpnd j.desc 2)
    let inY (e : Nat × List Byte) : Prop := y.data ≤ e.1 ∧ e.1 + 8 ≤ y.data + 8 * y.len ∧ e.2.length = 8
    (e ∈ (jobMul m j tr).data → inY e) ∧ (e ∈ (jobMap m j useX inout f).data → inY e) ∧ (e ∈ (jobProject m j).data → inY e) ∧
    (x.e = y.e → let k := jobMap m j true false fun x y a _ => some (rescale a x.e y.e)
      k.out = 0 → k.data = elems y.data (x.read m)) ∧
    (let k := jobProject m j
     k.out = 0 → ∃ r : List Int, k.data = elems y.data r ∧ r.length = y.len ∧
       ∀ i, i < y.len → el (x.read m) i ≤ el r i ∧ el r i ≤ el ((rdVHdr m (dOpnd j.desc 4)).read m) i)

/-- From R190, R191, R194: a ring configuration clears its three indices; a TAIL that moves back or passes the ring is rejected and counted;
a job's end counts JQ_DONE, shows its tag and outcome, ends it in the ring and raises JOB_ERR for an error and JOB_DONE where asked; then
the error it met shows (R166, R172) with the words its reads corrected (R171), and a pass of the Sequencer that waits for it goes on (R286). -/
def Obligations.JobRing : Prop :=
  ∀ (s : State) (who : Initiator) (size : Bool) (val iterNs : Word) (i : Nat) (j : Job) (fixed core : List Word),
    (MayWrite who (if size then R.JQ_JQ_SIZE else R.JQ_JQ_BASE) s = true → s.shown 54 = 1 →
      Answers (.jqCfgWrite who size val) s fun t => t.reg (if size then R.JQ_JQ_SIZE else R.JQ_JQ_BASE) = val ∧ t.reg R.JQ_JQ_HEAD = 0 ∧
        t.reg R.JQ_JQ_TAIL = 0 ∧ t.reg R.JQ_JQ_DONE = 0 ∧
        RegsBut [if size then R.JQ_JQ_SIZE else R.JQ_JQ_BASE, R.JQ_JQ_HEAD, R.JQ_JQ_TAIL, R.JQ_JQ_DONE] s t ∧ SameMem s t) ∧
    (MayWrite who R.JQ_JQ_TAIL s = true → (val - s.reg R.JQ_JQ_TAIL).toNat < 2 ^ 31 → (val - s.reg R.JQ_JQ_HEAD).toNat ≤ s.regN R.JQ_JQ_SIZE →
      exec (.jqTail who val []) s = .next ((s.answer 0).setReg R.JQ_JQ_TAIL val)) ∧
    (MayWrite who R.JQ_JQ_TAIL s = true → (2 ^ 31 ≤ (val - s.reg R.JQ_JQ_TAIL).toNat ∨ s.regN R.JQ_JQ_SIZE < (val - s.reg R.JQ_JQ_HEAD).toNat) →
      exec (.jqTail who val []) s = .next (((s.answer 0).incReg R.JQ_JQ_REJ).irq 54 10)) ∧
    (s.nsu.jobs[i]? = some j → s.up 4 = true →
      exec (.jobEnd i iterNs fixed core) s = .next ((((((s.jobFinish j iterNs).jobMet j).yardFixed fixed).seqJob j).yardFixed core).seqPump) ∧
      (s.dsq.est = none → s.dsq.dsp = none → s.dsq.hyd = none →
        exec (.jobEnd i iterNs fixed core) s = .next ((((s.jobFinish j iterNs).jobMet j).yardFixed fixed).yardFixed core))) ∧
    (s.nsu.jobs[i]? = none → exec (.jobEnd i iterNs fixed core) s = .next s) ∧
    (s.up 5 = true → (s.yardFixed fixed).reg R.YRD_YRD_CE_COUNT = s.reg R.YRD_YRD_CE_COUNT + wd fixed.length ∧ SameMem s (s.yardFixed fixed)) ∧
    (j.out ≠ 7 → j.out ≠ 11 → s.jobMet j = s) ∧
    (∀ k a, j.out = 7 → j.cut.err = some (k, .ecc a) → (s.jobMet j).reg R.YRD_YRD_UE_ADDR = a ∧
      (s.jobMet j).reg R.YRD_YRD_UE_COUNT = s.reg R.YRD_YRD_UE_COUNT + 1 ∧
      ((s.jobMet j).page 48).errcode = wd (3 + 65536 * (a.toNat / 64 % 48)) ∧ SameMem s (s.jobMet j)) ∧
    ((∀ k p, s.passOf k = some p → p.await ≠ some j.idx) → s.seqJob j = s) ∧
    ((s.jobFinish j iterNs).reg R.JQ_JQ_DONE = s.reg R.JQ_JQ_DONE + 1 ∧ (s.jobFinish j iterNs).reg R.JQ_JQ_LAST_TAG = wd (dW j.desc 1) ∧
      (s.jobFinish j iterNs).reg R.JQ_JQ_LAST_OUT = wd (j.out + 256 * dOp j.desc) ∧
      (s.jobFinish j iterNs).nsu.jobs = s.nsu.jobs.filter (fun x => x.idx != j.idx) ∧
      (dFlag j.desc 0 = true → bit ((s.jobFinish j iterNs).page 54).irqStat 8 = true) ∧
      ((4 ≤ j.out ∧ j.out ≤ 9) ∨ j.out = 11 → bit ((s.jobFinish j iterNs).page 54).irqStat 9 = true ∧
        (s.jobFinish j iterNs).reg R.NSU_JOB_ERRS = s.reg R.NSU_JOB_ERRS + 1))

/-- From R228 to R233: the good lanes of a cluster are tested in turn; a failed lane is retired, counted and shown with the time of its last
passed test; LMAP retires a lane and never brings one back; a cluster's width is one lane below its good lanes, at most 32. R174: the
scrubber reads the yard word by word and starts over at its top. -/
def Obligations.LanesAndScrubber : Prop :=
  ∀ (s : State) (who : Initiator) (c : Fin 4) (hi : Bool) (val : Word) (l : Nat),
    (s.up 4 = true → s.shown 48 ≠ 4 → s.fld (R.NSUC_STAT c.val) 21 16 = 63 →
      (((List.range 34).map fun i => (s.nsu.cur.get (fun _ => 33) c.val + 1 + i) % 34).find? fun l => !s.laneOut c.val l) = some l →
      exec (.laneTest c) s = .next (s.setFld (R.NSUC_STAT c.val) 21 16 l)) ∧
    (s.up 4 = true → s.fld (R.NSUC_STAT c.val) 21 16 = l → l < 34 →
      Answers (.laneTestDone c .pass) s (fun t => t.fld (R.NSUC_STAT c.val) 21 16 = 63 ∧ t.reg (R.NSUC_TESTS c.val) = s.reg (R.NSUC_TESTS c.val) + 1 ∧
        t.nsu.passed.get (fun _ => 0) (64 * c.val + l) = s.time.nsu ∧ t.nsu.cur.get (fun _ => 33) c.val = l ∧
        RegsBut [R.NSUC_STAT c.val, R.NSUC_TESTS c.val] s t ∧ SameMem s t) ∧
      Answers (.laneTestDone c .transient) s (fun t => t.reg (R.NSUC_TRANSIENTS c.val) = s.reg (R.NSUC_TRANSIENTS c.val) + 1 ∧
        bit (t.page (49 + c.val)).irqStat 9 = true ∧
        RegsBut (evrRegs ++ [R.NSUC_STAT c.val, R.NSUC_TESTS c.val, R.NSUC_TRANSIENTS c.val]) s t ∧ SameMem s t) ∧
      ∃ u : State, exec (.laneTestDone c .failed) s = .next (u.clusterShow c.val) ∧ u.laneOut c.val l = true ∧
        u.reg R.NSU_LANE_FAILS = s.reg R.NSU_LANE_FAILS + 1 ∧ u.reg R.NSU_LF_LANE = wd (c.val + 256 * l) ∧
        u.reg R.NSU_LF_WIN_NS = nsField (s.nsu.passed.get (fun _ => 0) (64 * c.val + l)) ∧ bit (u.page 48).irqStat 8 = true) ∧
    (MayWrite who (if hi then R.NSUL_LMAP_HI c.val else R.NSUL_LMAP_LO c.val) s = true → s.shown 55 = 1 →
      exec (.lmapWrite who c hi val) s = .next (
        let a := if hi then R.NSUL_LMAP_HI c.val else R.NSUL_LMAP_LO c.val
        let r := if hi then R.NSUL_LRET_HI c.val else R.NSUL_LRET_LO c.val
        let v := if hi then val &&& 3 else val
        (((s.answer 0).setReg a (s.reg a ||| v)).setReg r (s.reg r ||| v)).clusterShow c.val)) ∧
    (17 ≤ s.goodLanes c.val → s.flag (R.NSUC_STAT c.val) 7 = false →
      (s.clusterShow c.val).fld (R.NSUC_STAT c.val) 5 0 = (if 33 ≤ s.goodLanes c.val then 32 else s.goodLanes c.val - 1) ∧
      (s.clusterShow c.val).flag (R.NSUC_STAT c.val) 6 = decide (s.goodLanes c.val ≤ 32)) ∧
    (s.up 5 = true → s.regN R.YRD_YRD_SCRUB_POS + 8 < 0x23000000 →
      exec (.yardScrub .clean) s = .next (s.setReg R.YRD_YRD_SCRUB_POS (wd (s.regN R.YRD_YRD_SCRUB_POS + 8))) ∧
      exec (.yardScrub .uncorrectable) s = .next ((((s.incReg R.YRD_YRD_UE_COUNT).setReg R.YRD_YRD_UE_ADDR
        (s.reg R.YRD_YRD_SCRUB_POS)).irq 53 9).setReg R.YRD_YRD_SCRUB_POS (wd (s.regN R.YRD_YRD_SCRUB_POS + 8))) ∧
      Answers (.yardScrub .corrected) s fun t => t.reg R.YRD_YRD_CE_COUNT = s.reg R.YRD_YRD_CE_COUNT + 1 ∧ SameMem s t) ∧
    (s.up 5 = true → 0x23000000 ≤ s.regN R.YRD_YRD_SCRUB_POS + 8 →
      exec (.yardScrub .clean) s = .next ((s.setReg R.YRD_YRD_SCRUB_POS 0x20000000).irq 53 8))

/-! ### The barge tracker and the Dispatch Sequencer (chapters 06 and 07) -/

/-- From R252, R258, R271: a transport step runs on the committed copy, writes the other state copy, and leaves the first committed until its commit, which makes the new copy and
bank the committed ones, counts STEP_GEN, shows the step's flags and raises STEP; a step that falls due while one still runs is skipped
and counted; a side that does not act runs none. A node that nothing flows into keeps its temperature and ages. -/
def Obligations.TrackerSteps : Prop :=
  ∀ (s : State) (q : Option Nat) (ce : Bool) (us : Word) (c : BtkCopy) (fl : Nat) (n : NodeT) (ms : Nat),
    ((s.running 56 = false ∨ s.mdl.act = false) → exec (.transportStep ⟨q, ce⟩) s = .next s) ∧
    (s.running 56 = true → s.mdl.act = true → s.acts = true → s.btk.next.isSome = true →
      exec (.transportStep ⟨q, ce⟩) s = .next (((s.incReg R.BTK_SKIPS).irq 56 11).setBtk fun b => { b with skipped := true })) ∧
    (s.running 56 = true → s.mdl.act = true → s.acts = false →
      exec (.transportStep ⟨q, ce⟩) s = .next { s with btk := { s.btk with idle := true } }) ∧
    (s.running 56 = true → s.mdl.act = true → s.acts = true → s.btk.next = none → s.btk.idle = false → s.btk.com.isSome = true →
      Answers (.transportStep ⟨q, ce⟩) s fun t => (∃ nc f, t.btk.next = some (nc, f) ∧ nc.t = s.time.nsu) ∧ t.btk.com = s.btk.com ∧
        t.btk.bankB = s.btk.bankB ∧ t.btk.tg = s.btk.tg ∧ t.btk.skipped = false ∧
        (∀ a, (a < s.stateAt (!s.btk.bankB) ∨ s.stateAt (!s.btk.bankB) + s.stateLen.toNat ≤ a) → rdB t.yard a = rdB s.yard a) ∧
        RegsBut [R.BTK_OVERRUNS, R.BTK_MERGES, R.BTK_FLOW_BAD, R.DRM_CE_COUNT, R.DRM_UE_COUNT, R.DRM_UE_ADDR_LO, R.DRM_UE_ADDR_HI] s t) ∧
    (s.btk.next = some (c, fl) → s.active 56 = true → Answers (.stepCommit us) s fun t => t.btk.com = some c ∧ t.btk.next = none ∧
      t.btk.bankB = !s.btk.bankB ∧ t.btk.tg = s.btk.tgN ∧ t.reg R.BTK_STEP_GEN = s.reg R.BTK_STEP_GEN + 1 ∧ t.reg R.BTK_STEP_STAT = wd fl ∧
      t.reg R.BTK_STEP_US = us ∧ bit (t.page 56).irqStat 8 = true ∧ t.dram = s.dram ∧ t.stallMem = s.stallMem ∧ t.tcm = s.tcm ∧ t.img = s.img ∧
      (let o := s.outBase (decide (s.btk.out1.step < s.btk.out0.step)) c.nodes.length
       let h := s.regN R.BTK_STATE_ADDR + Config.stateHdrOfs
       ∀ a, (a < o ∨ o + 64 + 2 * (64 + up64 (8 * c.nodes.length)) ≤ a) → (a < h ∨ h + 8 ≤ a) → rdB t.yard a = rdB s.yard a)) ∧
    ((s.btk.next = none ∨ s.active 56 = false) → exec (.stepCommit us) s = .next s) ∧
    (mixNode n [] ms false = ({ n with age := min (n.age + ms) (2 ^ 32 - 1) }, false))

/-- From R273, R274, R277, R282: a forecast request that breaks a condition ends BAD_REQUEST; a good one runs on the committed copy; a running one
is cancelled by CANCEL, and its end shows its outcome and how many rows were completed. A DSP pass that waits for it goes on, or ends
JOB_ERR with an aborted or cancelled one (the model's choice, log entry 86). -/
def Obligations.Forecasts : Prop :=
  ∀ (s : State) (who : Initiator) (f : FcJob) (k : Fin 97),
    (MayWrite who R.BTK_FC_CMD s = true → s.running 56 = true → s.fld R.BTK_FC_STAT 2 0 ≠ 1 → Answers (.fcStart who []) s fun t =>
      match s.fcRequest with
      | none => t = ((s.answer 0).setReg R.BTK_FC_STAT 6).irq 56 9
      | some f => t.btk = { s.btk with fc := some f } ∧ t.reg R.BTK_FC_STAT = 1 ∧ RegsBut [R.BTK_FC_STAT] s t) ∧
    (MayWrite who R.BTK_FC_CMD s = true → (s.running 56 = false ∨ s.fld R.BTK_FC_STAT 2 0 = 1) →
      exec (.fcStart who []) s = .next (s.answer 0)) ∧
    (MayWrite who R.BTK_FC_CMD s = true → s.fld R.BTK_FC_STAT 2 0 = 1 → ∃ u : State, exec (.fcCancel who) s = .next (u.forecastOver 4) ∧
      u.reg R.BTK_FC_STAT = 4 ∧ u.btk = { s.btk with fc := none } ∧ bit (u.page 56).irqStat 9 = true ∧ RegsBut [R.BTK_FC_STAT] s u ∧
      SameMem s u ∧ u.dsq = s.dsq) ∧
    (MayWrite who R.BTK_FC_CMD s = true → s.fld R.BTK_FC_STAT 2 0 ≠ 1 → exec (.fcCancel who) s = .next (s.answer 0)) ∧
    (s.btk.fc = some f → exec (.forecastEnd .aborted) s = .next ((s.fcFinish .aborted).forecastOver 5) ∧
      exec (.forecastEnd .done) s = .next ((s.fcFinish .done).forecastOver 2) ∧
      exec (.forecastEnd (.deadline k)) s = .next ((s.fcFinish (.deadline k)).forecastOver 3) ∧
      ∀ why, ∀ u, u = s.fcFinish why →
        u.reg R.BTK_FC_STAT = (match why with | .done => wd (2 + 256 * f.n) | .deadline k => wd (3 + 256 * min k.val f.n) | .aborted => 5) ∧
        u.btk = { s.btk with fc := none } ∧ bit (u.page 56).irqStat 9 = true ∧ RegsBut [R.BTK_FC_STAT] s u ∧ (why ≠ .done → u.dram = s.dram) ∧
        u.dsq = s.dsq ∧ (why = .aborted → SameMem s u)) ∧
    (s.dsq.dsp = none → ∀ c, s.forecastOver c = s) ∧
    (∀ p, s.dsq.dsp = some p → p.phase ≠ .dspForecast → ∀ c, s.forecastOver c = s) ∧
    (∀ p, s.dsq.dsp = some p → p.phase = .dspForecast → s.forecastOver 4 = s.passEnd 1 p 5 ∧ s.forecastOver 5 = s.passEnd 1 p 5) ∧
    (s.btk.fc = none → ∀ why, exec (.forecastEnd why) s = .next s)

/-- From R284 to R289, R157, R337, R340: an EST or DSP pass that falls due while one of its kind runs is skipped and counted; an EST pass takes the
newest complete measurement set and its hold, the deadline after its start; a pass that cannot run ends with its status at once; a
side that does not act starts none (R288); a HYD pass follows a plan handed over, on that plan's model. The end of a pass shows its status and flags, clears its bit of PASS_STAT and raises its cause. -/
def Obligations.SequencerPasses : Prop :=
  ∀ (s : State) (who : Initiator) (i st : Nat) (p : Pass) (w : Word), s.running 57 = true →
    (s.acts = false → exec .estPass s = .next { s with dsq := { s.dsq with adopt := true } } ∧
      exec .dspPass s = .next { s with dsq := { s.dsq with adopt := true } } ∧ exec .hydPass s = .next s) ∧ (s.acts = true →
    (s.dsq.est.isSome = true → exec .estPass s = .next (s.setReg R.DSQ_SKIPS (satIncField (s.reg R.DSQ_SKIPS) 15 0))) ∧
    (s.dsq.est = none → s.fld R.DSQ_MODEL_STAT 2 0 ≠ 2 → s.passBlocked = some st → Answers .estPass s fun t =>
      t.dsq.est = none ∧ t.reg R.DSQ_EST_TAG = s.reg R.DSQ_EST_TAG + 1 ∧ t.reg R.DSQ_EST_LAST = wd (st + 256 * (s.startFlags % 2 ^ 20)) ∧
      bit (t.page 57).irqStat 8 = true ∧ bit (t.page 57).irqStat 10 = true) ∧
    (s.dsq.est = none → s.fld R.DSQ_MODEL_STAT 2 0 ≠ 2 → s.passBlocked = none → s.newestSet = some i →
      s.time.nsu ≤ setTime s.yard i + s.regN R.DSQ_MEAS_AGE_MAX_MS * tMs → ∃ (u : State) (e : Pass),
      exec .estPass s = .next (u.estBegin e).seqPump ∧ u.dsq.est.isSome = true ∧ e.start = s.time.nsu ∧
      e.due = s.time.nsu + s.regN R.DSQ_EST_DEADLINE_MS * tMs ∧ e.buf = some i ∧ e.slot = s.mdl.slot ∧ u.dsq.stale = false ∧
      u.reg R.DSQ_EST_TAG = s.reg R.DSQ_EST_TAG + 1 ∧ u.flag R.DSQ_PASS_STAT 0 = true ∧
      u.yard = wrN s.yard (setHold i) 4 (rdN s.yard (setHold i) 4 ||| 1)) ∧
    (∀ e, (s.estBegin e).seqPump.dsq.est.isSome = true ∧ (s.hydBegin e).seqPump.dsq.hyd.isSome = true) ∧
    (s.dsq.dsp.isSome = true → exec .dspPass s = .next (s.setReg R.DSQ_SKIPS (satIncField (s.reg R.DSQ_SKIPS) 31 16)) ∧
      (MayWrite who R.DSQ_CMD s = true → exec (.dspNow who) s = .next ((s.answer 0).emit evDspBusy 57 [s.reg R.DSQ_DSP_TAG]))) ∧
    (s.dsq.dsp = none → exec .dspPass s = .next s.dspStart ∧
      (MayWrite who R.DSQ_CMD s = true → exec (.dspNow who) s = .next (s.answer 0).dspStart) ∧
      (s.passBlocked = some st → s.dspStart.dsq.dsp = none ∧ s.dspStart.reg R.DSQ_DSP_LAST = wd (st + 256 * (s.startFlags % 2 ^ 20)))) ∧
    (s.dsq.hydDue = true → s.dsq.hyd = none → s.passBlocked = none → ∃ (u : State) (e : Pass),
      exec .hydPass s = .next (u.hydBegin e).seqPump ∧ e.start = s.time.nsu ∧ e.due = s.time.nsu + 5 * tS ∧ e.slot = s.dsq.hydIn.slot ∧
      u.flag R.DSQ_PASS_STAT 2 = true ∧ u.dsq.hydDue = false ∧ RegsBut [R.DSQ_PASS_STAT] s u ∧ SameMem s u) ∧
    (s.dsq.hydDue = true → s.dsq.hyd = none → s.passBlocked = some st → Answers .hydPass s fun t => t.dsq.hydDue = false ∧
      t.dsq.hyd = none ∧ t.dsq.biasOld = true ∧ SameMem s t) ∧
    ((s.dsq.hydDue = false ∨ s.dsq.hyd.isSome = true) → exec .hydPass s = .next s)) ∧
    (s.dsq.est = some p → (s.estEnd st).dsq.est = none ∧ (s.estEnd st).reg R.DSQ_EST_LAST = wd (st + 256 * (p.flags % 2 ^ 20)) ∧
      (s.estEnd st).flag R.DSQ_PASS_STAT 0 = false ∧ bit ((s.estEnd st).page 57).irqStat 8 = true) ∧
    (s.dsq.dsp = some p → (s.dspEnd st w).dsq.dsp = none ∧ (s.dspEnd st w).reg R.DSQ_DSP_LAST = wd (st + 256 * (p.flags % 2 ^ 20)) ∧
      (s.dspEnd st w).flag R.DSQ_PASS_STAT 1 = false ∧ bit ((s.dspEnd st w).page 57).irqStat 9 = true)

/-! ### The keeper (chapter 15) -/

/-- From R324, R603, R605 to R607: a poll of an acting side starts a check of a record newer than the one checked last; on a side that does not
act it counts the record as ignored, as does the end of a check there. No check is interrupted but a DSP check, by an EST record
(R604). The limit table and T_K are those in force at the start (R594). A check that ends is judged: a record overtaken by another, one that could not be read, the
known-answer failure that is a keeper fault, or its tests. A failed check is counted and recorded; a vetoed plan changes no state. -/
def Obligations.ResultChecks : Prop :=
  ∀ (s : State) (k : Kind) (c : Check) (cut : CheckCut) (us : Word) (v : Nat),
    ((s.kprCores = false ∨ s.kpr.cause ≠ 0 ∨ s.locked 5 = false) → exec .keeperPoll s = .next s) ∧
    (s.kprCores = true → s.kpr.cause = 0 → s.locked 5 = true → exec .keeperPoll s = .next ((s.pollKind .est).pollKind .dsp)) ∧
    (s.acts = true → s.chkBusy k = false → s.seenAt k 20 < (s.newestRec k).2 →
      (∃ e, (s.pollKind k).kpr.chk.get (fun _ => none) (kindNum k) = some e ∧ e.at' = (s.newestRec k).1 ∧ e.seq = (s.newestRec k).2 ∧
        e.body = rdBytes s.yard (s.newestRec k).1 256 ∧ e.lim = s.limTable ∧ e.tK = s.regN R.KPR_T_K) ∧ (s.pollKind k).flag R.KPR_KSTAT (7 + kindNum k) = true ∧
        RegsBut [R.KPR_KSTAT] s (s.pollKind k) ∧ SameMem s (s.pollKind k)) ∧
    (s.acts = true → s.chkBusy k = true → s.pollKind k = s.noteSeq k) ∧
    (s.acts = false → s.seenAt k 0 < (s.newestRec k).2 → (s.pollKind k).reg R.KPR_CHK_IGNORED = s.reg R.KPR_CHK_IGNORED + 1 ∧
      (s.pollKind k).kpr.chk = s.kpr.chk) ∧
    (s.kpr.chk.get (fun _ => none) (kindNum k) = some c → s.kprCores = true →
      exec (.checkDone k .katFail us) s = .next ((s.endCheck k).keeperFault 3) ∧
      (cut ≠ .katFail → s.acts = false → exec (.checkDone k cut us) s = .next ((s.endCheck k).incReg R.KPR_CHK_IGNORED)) ∧
      (cut ≠ .katFail → s.acts = true → rdN s.yard c.at' 8 ≠ c.seq →
        exec (.checkDone k cut us) s = .next ((((s.endCheck k).giveVerdict k c 8 us).noteSeq k).startCheck k)) ∧
      (s.acts = true → rdN s.yard c.at' 8 = c.seq → exec (.checkDone k .readErr us) s = .next ((s.endCheck k).giveVerdict k c 7 us) ∧
        ((s.endCheck k).verdict k c = v → v ≠ 0 ∨ k = .est ∨ (s.endCheck k).vetoed = false →
          exec (.checkDone k .none us) s = .next ((s.endCheck k).giveVerdict k c v us)) ∧
        ((s.endCheck k).verdict k c = 0 → k = .dsp → (s.endCheck k).vetoed = true →
          exec (.checkDone k .none us) s = .next ((s.endCheck k).giveVerdict k c 9 us)))) ∧
    ((s.kpr.chk.get (fun _ => none) (kindNum k) = none ∨ s.kprCores = false) → exec (.checkDone k cut us) s = .next s) ∧
    (let w := s.setRegs [(R.KPR_CHK_LAST, wd (kindNum k + 256 * v)), (R.KPR_CHK_TAG, wd (fieldN c.body 0xC 4)), (R.KPR_CHK_US, us)]
     (v = 0 → s.giveVerdict k c v us = w.publishRec k c.body) ∧ (v = 9 → s.giveVerdict k c v us = w.incReg R.KPR_CHK_VETOED) ∧
       (v = 8 → s.giveVerdict k c v us = w.incReg R.KPR_CHK_OVERTAKEN) ∧
       (1 ≤ v → v ≤ 7 → s.giveVerdict k c v us =
         (((w.incReg R.KPR_CHK_FAILS).irq 16 10).slog slVerdict (kindNum k + 256 * v + 2 ^ 32 * fieldN c.body 0xC 4)).ageKind k))

/-- From R25, R328 to R331: a change of the setpoint table is written into the other half and taken by counting the generation. At its expiry
every entry of a kind that was CURRENT or AGED is EXPIRED, and when no newer result came in time every CURRENT one is AGED; the
values, and the entries of the other kind, stay. A plan step swaps in the values of the next step. -/
def Obligations.SetpointTable : Prop :=
  ∀ (s : State) (k : Kind) (h : Tab Byte) (n m : Nat) (l : List (Nat × Word × Word)),
    ((s.swapTo h).kpr.gen = (s.kpr.gen + 1) % 2 ^ 32 ∧ (s.swapTo h).spHalf = wrN h 0 4 ((s.kpr.gen + 1) % 2 ^ 32)) ∧
    (s.tableLive = true → exec (.nextDue k) s = .next (if spMove k [1] 2 s.spHalf = s.spHalf then s else s.swapTo (spMove k [1] 2 s.spHalf)) ∧
      exec (.entryExpire k) s = .next (if spMove k [1, 2] 3 s.spHalf = s.spHalf then s else s.swapTo (spMove k [1, 2] 3 s.spHalf))) ∧
    (s.tableLive = false → exec (.nextDue k) s = .next s ∧ exec (.entryExpire k) s = .next s) ∧
    (n ∈ spRange k → spState (spMove k [1, 2] 3 h) n = (if spState h n = 1 ∨ spState h n = 2 then 3 else spState h n) ∧
      spState (spMove k [1] 2 h) n = (if spState h n = 1 then 2 else spState h n)) ∧
    (n < 512 → rdN (spMove k [1, 2] 3 h) (spEnt n) 8 = rdN h (spEnt n) 8 ∧
      (n ∉ spRange k → spState (spMove k [1, 2] 3 h) n = spState h n)) ∧
    (s.tableLive = true → s.acts = true → m = rdN s.spHalf 0xC 1 + 1 → m < rdN s.spHalf 0xD 1 →
      Answers .planStep s (fun t => t.kpr.gen = (s.kpr.gen + 1) % 2 ^ 32 ∧ SameMem s t) ∧
      (s.kpr.steps[m]? = some l → exec .planStep s = .next (s.swapTo (l.foldl (fun g e => if e.1 < 512 then spPut g e.1 e.2.1 e.2.2 else g)
        (wrN s.spHalf 0xC 1 m))))) ∧
    ((s.tableLive = false ∨ s.acts = false ∨ rdN s.spHalf 0xD 1 ≤ rdN s.spHalf 0xC 1 + 1) → exec .planStep s = .next s)

/-- From R596, R597: an output enable is shown high only if it is armed, the keeper is in service and no emergency input, trip, power-fail save
or clock fault stands against it; a ball that an emergency input or a trip drops loses its ARMED bit; arming a ball with no standing
cause drives it high. -/
def Obligations.OutputEnables : Prop :=
  ∀ (s : State) (n mask : Nat), n < 4 →
    (s.safeUpdate.flag R.KPR_SAFE_STAT n = true → s.flag R.KPR_SAFE_STAT (8 + n) = true ∧ s.kprService = true ∧ s.emgOn n = false ∧
      s.tripOn n = false ∧ s.pwr.saving = false ∧ s.pwr.clkFault = false) ∧
    (s.flag R.KPR_SAFE_STAT (8 + n) = true → s.kprService = true → s.emgOn n = false → s.tripOn n = false → s.pwr.saving = false →
      s.pwr.clkFault = false → s.safeUpdate.flag R.KPR_SAFE_STAT n = true) ∧
    ((s.emgOn n = true ∨ s.tripOn n = true) → s.safeUpdate.flag R.KPR_SAFE_STAT (8 + n) = false) ∧
    (s.emgOn n = false → s.tripOn n = false → s.safeUpdate.flag R.KPR_SAFE_STAT (8 + n) = s.flag R.KPR_SAFE_STAT (8 + n)) ∧
    (mask.testBit n = true → s.armCauses n = 0 → (s.armBalls mask).flag R.KPR_SAFE_STAT n = true ∧
      (s.armBalls mask).flag R.KPR_SAFE_STAT (8 + n) = true) ∧
    (mask.testBit n = false → s.flag R.KPR_SAFE_STAT (8 + n) = false → (s.armBalls mask).flag R.KPR_SAFE_STAT (8 + n) = false) ∧
    RegsBut [R.KPR_SAFE_STAT, R.KPR_KSTAT] s (s.armBalls mask)

/-- From R91, R599, R600, R609, R610, R614: an expired watchdog trips; an emergency input is shown and latched, recorded, vetoes the plan where
its VETO is set and trips where HALT is; its release leaves the latch; a comparator fault, or an uncorrectable TCM error, is a keeper
fault, which stops the keeper and halts the LGE with code 0x105; the TCM error takes KPR to FAULT. SLOG_INDEX stores 13 bits. -/
def Obligations.KeeperEvents : Prop :=
  ∀ (s : State) (who : Initiator) (i : Fin 4) (val : Word) (c code detail : Nat),
    (s.kprCores = true →
      (s.kpr.wdFrom.isSome = true → s.pwr.saving = false → exec .wdogTrip s = .next (s.trip 0 0x101 (min s.wdElapsed 65535))) ∧
      ((s.kpr.wdFrom = none ∨ s.pwr.saving = true) → exec .wdogTrip s = .next s) ∧
      (s.flag R.KPR_EMG_STAT i.val = true → exec (.emgAssert i) s = .next s) ∧
      (s.flag R.KPR_EMG_STAT i.val = false → bit (s.reg (R.KPR_EMG_CFG i.val)) 2 = false → (bit (s.reg (R.KPR_EMG_CFG i.val)) 1 = false ∨ s.pwr.saving = true) →
        Answers (.emgAssert i) s fun t => t.flag R.KPR_EMG_STAT i.val = true ∧ t.flag R.KPR_EMG_STAT (8 + i.val) = true ∧
          bit (t.page 16).irqStat 9 = true ∧ RegsBut (evrRegs ++ [R.KPR_EMG_STAT, R.KPR_SAFE_STAT, R.KPR_KSTAT]) s t ∧ SameMem s t) ∧
      (s.flag R.KPR_EMG_STAT i.val = false → exec (.emgAssert i) s = .next
        (let r := s.reg (R.KPR_EMG_CFG i.val)
         let u := ((((s.setFlag R.KPR_EMG_STAT i.val true).setFlag R.KPR_EMG_STAT (8 + i.val) true).irq 16 9).safeUpdate).slog slEmg
           (i.val + 256 * b2n (bit r 0))
         let u := if bit r 2 then u.swapIf (spMove .dsp [1, 2] 3 u.spHalf) else u
         if bit r 1 && !u.pwr.saving then u.trip 2 0x106 i.val else u)) ∧
      exec (.emgRelease i) s = .next (s.setFlag R.KPR_EMG_STAT i.val false) ∧
      exec .lockstep s = .next (s.keeperFault 1) ∧ exec .keeperTcmUe s = .next ((((s.statBit 16 sbUe true).irq 16 5).toFault 16).keeperFault 2) ∧
      Answers .keeperTcmUe s fun t => (t.blk 16).st = .fault) ∧
    (s.kprCores = false → exec .wdogTrip s = .next s ∧ exec (.emgAssert i) s = .next s ∧ exec (.emgRelease i) s = .next s ∧ exec .lockstep s = .next s ∧
      exec .keeperTcmUe s = .next s) ∧
    (∃ u : State, s.keeperFault c = u.haltOrder 0x105 0 ∧ u.kpr.cause = c ∧ u.kpr.stopped = true ∧ u.kpr.chk = [] ∧ ∀ n, n < 4 →
      u.flag R.KPR_SAFE_STAT n = false) ∧
    (∃ u : State, s.trip c code detail = u.haltOrder code detail ∧ u.kpr.trip = true ∧ u.kpr.wdFrom = none ∧ u.reg R.KPR_LAST_HALT = wd c ∧
      u.reg R.KPR_TRIP_T_NS = nsField s.time.kpr ∧ ∀ n, n < 4 → s.flag (R.KPR_SAFE_CFG n) 4 = true → u.flag R.KPR_SAFE_STAT n = false) ∧
    (MayWrite who R.KPR_SLOG_INDEX s = true → exec (.slogIndex who val) s = .next ((s.answer 0).setReg R.KPR_SLOG_INDEX (val &&& 0x1FFF)))

/-- From R592 to R597, R729: a table comes in segments; one that breaks a rule is refused with its reason and discards its staging; the complete
table, once it passes, becomes the newest copy. A segment of KIND 4 arms the balls of its mask, and a mask beyond 15 is refused. -/
def Obligations.KeeperTables : Prop :=
  ∀ (s : State) (g : Segment) (k reason : Nat) (t : List Byte),
    (s.kprCores = false → exec (.safeValue g) s = .next s ∧ exec (.arm g) s = .next s) ∧
    (s.kprCores = true → (g.kind = 0 ∨ 4 < g.kind.toNat ∨ 2 ≤ g.flags.toNat) → exec (.safeValue g) s = .next (s.tabRefuse g 4)) ∧
    (s.kprCores = true → g.kind = 1 → g.flags.toNat < 2 → g.total ≠ 0 → (g.flags.getLsbD 0 = true ∨ allZero g.digest = true) →
      s.shown 64 ≠ 1 → s.shown 64 ≠ 0 → exec (.safeValue g) s = .next (s.tabRefuse g 5)) ∧
    (s.kprCores = true → (g.kind = 2 ∨ g.kind = 3 ∨ g.kind = 1 ∧ (s.shown 64 = 1 ∨ s.shown 64 = 0)) → g.flags = 0 → g.total ≠ 0 → allZero g.digest = true → g.seg = 0 →
      totalBad g.kind.toNat g.total.toNat g.data = false →
      g.data.length ≤ g.total.toNat → Answers (.safeValue g) s fun t => t.kpr.stage.get (fun _ => none) g.kind.toNat = some ⟨1, g.total.toNat, g.data⟩ ∧ t.regs = s.regs ∧ SameMem s t) ∧
    (s.kprCores = true → (g.kind = 2 ∨ g.kind = 3 ∨ g.kind = 1 ∧ (s.shown 64 = 1 ∨ s.shown 64 = 0)) → g.flags = 0 → g.total ≠ 0 → allZero g.digest = true → g.seg = 0 →
      (totalBad g.kind.toNat g.total.toNat g.data = true ∨ g.total.toNat < g.data.length) → exec (.safeValue g) s = .next (s.tabRefuse g 3)) ∧
    (s.kprCores = true → (g.kind = 2 ∨ g.kind = 3 ∨ g.kind = 1 ∧ (s.shown 64 = 1 ∨ s.shown 64 = 0)) → g.flags = 1 → g.total.toNat = g.data.length → g.data ≠ [] → g.seg = 0 →
      digest32 g.data = g.digest →
      exec (.safeValue g) s = .next (match tabBad g.kind.toNat g.data with
        | none => s.tabCommit g.kind.toNat g.data
        | some r => s.tabRefuse g r)) ∧
    (s.kprCores = true → g.flags = 1 → g.total = 1 → g.seg = 0 → g.data.length = 1 → g.digest = digest32 g.data →
      exec (.arm g) s = .next (s.armMask (g.data.headD 0).toNat)) ∧
    ((s.tabRefuse g reason).kpr.stage.get (fun _ => none) g.kind.toNat = none ∧ bit ((s.tabRefuse g reason).page 16).irqStat 11 = true) ∧
    ((k = 1 ∨ k = 2 ∨ k = 3) →
      (∀ e, copyNewest s.kpr.safe = some e → e.1 ≤ s.kpr.tabSeq) → (∀ e, copyNewest s.kpr.limit = some e → e.1 ≤ s.kpr.tabSeq) →
      (∀ e, copyNewest s.kpr.param = some e → e.1 ≤ s.kpr.tabSeq) →
      (s.tabCommit k t).kprTable (k - 1) = some t ∧ (s.tabCommit k t).kpr.tabSeq = s.kpr.tabSeq + 1)

/-! ### The logic engine (chapter 08) -/

/-- From R368, R372, R373: LD_BEGIN in STOP takes the image away; LD_DATA adds a word; LD_END brings an image that passes every check into force,
and refuses any other with the number of the first check that fails; LD_ABORT ends the load. FT_INDEX selects a force entry. -/
def Obligations.LogicImageLoads : Prop :=
  ∀ (s : State) (who : Initiator) (val : Word),
    (MayWrite who R.LGE_LD_CTRL s = true →
      (s.shown 64 = 1 → Answers (.ldBegin who) s fun t => t.lge.image = none ∧ t.lge.ld = [] ∧ t.lge.forces = [] ∧ t.tcm = [] ∧ t.img = [] ∧
        t.reg R.LGE_LD_STAT = 1 ∧ t.reg R.LGE_LD_COUNT = 0 ∧ t.reg R.LGE_IMG_STAT = 0 ∧
        t.reg R.LGE_PROG_ID = 0 ∧ t.reg R.LGE_PROG_REV = 0 ∧
        RegsBut [R.LGE_IMG_STAT, R.LGE_PROG_ID, R.LGE_PROG_REV, R.LGE_FORCES, R.LGE_CHANGES, R.LGE_LD_COUNT, R.LGE_LD_STAT] s t) ∧
      (s.shown 64 ≠ 1 → exec (.ldBegin who) s = .next (s.answer 0)) ∧
      (s.fld R.LGE_LD_STAT 2 0 = 1 → Answers (.ldAbort who) s fun t => t.lge.image = none ∧ t.reg R.LGE_LD_STAT = 0 ∧
        bit (t.page 64).irqStat 11 = true) ∧
      ((s.fld R.LGE_LD_STAT 2 0 = 1 ↔ s.shown 64 ≠ 1) → Answers (.ldEnd who) s fun t => t.lge.image = none ∧
        t.reg R.LGE_LD_STAT = wd (3 + 256) ∧ bit (t.page 64).irqStat 11 = true) ∧
      (s.fld R.LGE_LD_STAT 2 0 ≠ 1 → s.shown 64 ≠ 1 → Answers (.ldEnd who) s fun t => t.lge = s.lge ∧ t.tcm = s.tcm ∧ t.img = s.img ∧
        t.reg R.LGE_LD_STAT = wd (3 + 256) ∧ bit (t.page 64).irqStat 11 = true) ∧
      (s.fld R.LGE_LD_STAT 2 0 = 1 → s.shown 64 = 1 → Answers (.ldEnd who) s fun t => bit (t.page 64).irqStat 11 = true ∧
        match limgFail s.ldBytes with
        | some n => t.lge.image = none ∧ t.reg R.LGE_LD_STAT = wd (3 + 256 * n)
        | none =>
          if (s.ldBytes.drop 0x40).take 32 = s.safeDigest ∧
            digest32 (sectBytes s.ldBytes (parseDir s.ldBytes 128 (fieldN s.ldBytes 0x18 2)) 6) = s.safeDigest
          then t.lge.image = some (limgOf s.ldBytes) ∧ t.tcm = (limgOf s.ldBytes).tcm ∧ t.reg R.LGE_LD_STAT = 2 ∧
            t.reg R.LGE_PROG_REV = (limgOf s.ldBytes).rev
          else t.lge.image = none ∧ t.reg R.LGE_LD_STAT = wd (3 + 256 * 8))) ∧
    (MayWrite who R.LGE_LD_DATA s = true → s.fld R.LGE_LD_STAT 2 0 = 1 → Answers (.ldData who val) s fun t => t.lge.ld = val :: s.lge.ld ∧
      t.reg R.LGE_LD_COUNT = s.reg R.LGE_LD_COUNT + 4 ∧ RegsBut [R.LGE_LD_COUNT] s t ∧ SameMem s t) ∧
    (MayWrite who R.LGE_FT_INDEX s = true → exec (.ftIndex who val) s = .next ((s.answer 0).setReg R.LGE_FT_INDEX (val &&& 0x3FF)))

/-- From R345, R346, R348: a cycle starts while the side acts and an image is in force: the cycle counts, the cores with an instance due run (R347), and its RUN-marked read
starts the watchdog anew; in a drain its read is STOP-marked and the watchdog is suspended (log entry 61). While a trip stands the
read starts no cycle: the engine halts (R601). -/
def Obligations.LogicCycleStarts : Prop :=
  ∀ (s : State) (g : Limg), s.lge.image = some g → s.acts = true → s.pwr.saving = false → (s.regN R.LGE_PHASE = 0 ∨ s.regN R.LGE_PHASE = 6) →
    (s.shown 64 = 3 → s.kpr.trip = false → Answers .cycleSnapshot s fun t => t.cycle = (s.cycle + 1) % 2 ^ 64 ∧ t.reg R.LGE_PHASE = 2 ∧
      t.lge.image = some g ∧ t.lge.tSnap = s.time.log ∧ t.lge.calls = [] ∧ (∀ c, c < 4 → t.reg (R.LGEC_STAT c) = if t.coreDue g c then 1 else 2) ∧
      t.kpr.wdFrom = some s.time.kpr ∧ t.kpr.lastRun = s.time.kpr ∧ t.blks = s.blks) ∧
    (s.shown 64 = 2 → Answers .cycleSnapshot s fun t => t.cycle = (s.cycle + 1) % 2 ^ 64 ∧ t.kpr.wdFrom = none ∧ t.reg R.LGE_PHASE = 2) ∧
    (s.kpr.trip = true → s.kprService = true → s.runMark = (s.slog slTrip (3 + 256)).haltOrder 0x107 0) ∧
    (s.shown 64 = 3 → s.cycleTimes.runMark.shown 64 = 4 → exec .cycleSnapshot s = .next s.cycleTimes.runMark)

/-- From R346, R352, R360, R364, R374 to R376, R552: when every core has returned, outputs are gathered and driven, the queued writes applied
and the capture taken, and the frame is sent; then the set is published, and at BOUNDARY the waiting commands apply. -/
def Obligations.LogicCycleEnds : Prop :=
  ∀ (s : State) (g : Limg) (stores : List TcmStore) (us : List Word), s.active 64 = true → s.acts = true → s.pwr.saving = false →
    (s.lge.image = some g → s.regN R.LGE_PHASE = 2 → exec (.executeDone stores us) s = .next
      (let u := (((((s.coreStores stores).execTimes us).setReg R.LGE_PHASE 3).gatherOutput g).driveAll g).applyCalls
       let u := ((u.outputEnd u.lge.firstOut).setLge fun l => { l with firstOut := false }).takeCapture
       if u.shown 64 ≠ 3 ∧ u.shown 64 ≠ 2 then u
       else match u.plk.standTo with
         | some r => (u.setReg R.LGE_PHASE 4).standDown r
         | none => u.setReg R.LGE_PHASE 4)) ∧
    (s.regN R.LGE_PHASE = 4 → exec .frameTaken s = .next
      (let last := s.plk.finalReq
       let u := ((((s.sendFrame (last && !s.leaseMode)).setReg R.LGE_PHASE 5).publish.setLge fun l => { l with first := false }).setReg
         R.LGE_PHASE 6).deliverAll 0x40040000
       if last && u.acts then u.switchEnd else u)) ∧
    (s.regN R.LGE_PHASE ≠ 2 → exec (.executeDone stores us) s = .next s) ∧ (s.regN R.LGE_PHASE ≠ 4 → exec .frameTaken s = .next s)

/-- From R374, R375, R725: what a running core's service calls answer: TIME and CYCLE; a register of the control plane's pages, and of no other;
window bytes of a stall into its own TCM; a record at INFO with one of the program's codes. A register write waits for OUTPUT. A call
of a core that does not run has no effect. -/
def Obligations.ServiceCalls : Prop :=
  ∀ (s : State) (c : Fin 4) (addr val st ofs len tcm d1 d2 : Word), s.coreRuns c.val = true →
    exec (.time c) s = .next (s.ecallRet c.val [0, nsField s.time.log, lo32 (secOf s.time.log), wd (secOf s.time.log / 2 ^ 32 % 65536)]) ∧
    exec (.cycle c) s = .next (s.ecallRet c.val [0, lo32 s.cycle, hi32 s.cycle, s.reg R.LGE_LAST_US]) ∧
    (addr.toNat % 4 = 0 → 0x40000000 ≤ addr.toNat → addr.toNat < 0x40100000 → isPage (pageOf addr.toNat) = true →
      (planeOf (pageOf addr.toNat) = .control →
        exec (.regRead c addr) s = .next ((s.coreRead addr.toNat).ecallRet c.val [0, (s.coreRead addr.toNat).resp.val])) ∧
      (planeOf (pageOf addr.toNat) ≠ .control → exec (.regRead c addr) s = .next (s.ecallRet c.val [0xFFFFFFFF]) ∧
        exec (.regWrite c addr val) s = .next (s.ecallRet c.val [0xFFFFFFFF])) ∧
      (planeOf (pageOf addr.toNat) = .control → ofsOf addr.toNat ≠ 0xC → (ofsOf addr.toNat < 0x100 ∨ 0x800 ≤ ofsOf addr.toNat) →
        isKp addr.toNat = false → s.lge.calls.length < 256 → Answers (.regWrite c addr val) s fun t =>
          t.lge.calls = s.lge.calls ++ [(c.val, addr, val)] ∧ t.lge.ret.get (fun _ => []) c.val = [0] ∧ t.regs = s.regs ∧ SameMem s t)) ∧
    ((addr.toNat % 4 ≠ 0 ∨ addr.toNat < 0x40000000 ∨ 0x40100000 ≤ addr.toNat ∨ isPage (pageOf addr.toNat) = false) → exec (.regRead c addr) s = .next (s.ecallRet c.val [0xFFFFFFFE]) ∧
      exec (.regWrite c addr val) s = .next (s.ecallRet c.val [0xFFFFFFFE])) ∧
    (st.toNat < 1024 → 1 ≤ len.toNat → len.toNat ≤ 256 → ofs.toNat + len.toNat ≤ 0x4000 → tcm.toNat + len.toNat ≤ 0x80000 →
      Answers (.stallRead c st ofs len tcm) s fun t => t.tcm = wrBytes s.tcm (tcmAddr c.val tcm.toNat) (s.winBytes st.toNat ofs.toNat len.toNat) ∧
        t.lge.ret.get (fun _ => []) c.val = [0] ∧ t.regs = s.regs ∧ t.yard = s.yard ∧ t.stallMem = s.stallMem) ∧
    (0xF000 ≤ val.toNat → val.toNat ≤ 0xF0FF → exec (.event c val d1 d2) s = .next
      ((s.submit { code := .num (val.setWidth 16), sev := 0, plane := .control, src := pidOf 64, body := [d1, d2, 0] }).ecallRet c.val [0])) ∧
    ((val.toNat < 0xF000 ∨ 0xF0FF < val.toNat) → exec (.event c val d1 d2) s = .next (s.ecallRet c.val [0xFFFFFFFE]))

/-- From R355, R356, R385: a core's exception is shown with its core, cause and pc, and halts the engine with code 0x102; an uncorrectable TCM
error halts it with code 0x103. The halt stops the cores, and the engine enters FAULT with the code. -/
def Obligations.LogicHalts : Prop :=
  ∀ (s : State) (c : Fin 4) (mcause : Byte) (pc : Word) (code detail : Nat),
    (s.coreRuns c.val = true → ∃ u : State, exec (.coreException c mcause pc) s = .next (u.haltMark 0x102 c.val) ∧
      u.reg R.LGE_EXC_CORE = wd (c.val + 256 * mcause.toNat) ∧ u.reg R.LGE_EXC_PC = pc ∧ u.flag (R.LGEC_STAT c.val) 2 = true ∧
      bit (u.page 64).irqStat 9 = true) ∧
    (s.coreRuns c.val = false → exec (.coreException c mcause pc) s = .next s) ∧
    (s.shown 64 ≠ 0 → s.shown 64 ≠ 4 → exec (.tcmUe c) s = .next (((s.statBit 64 sbUe true).irq 64 5).haltMark 0x103 c.val)) ∧
    (s.shown 64 ≠ 0 → s.shown 64 ≠ 4 → s.acts = false → code < 0x10000 → detail < 0x10000 →
      ((s.haltOrder code detail).blk 64).st = .fault ∧ ((s.haltOrder code detail).page 64).errcode = wd (code + 0x10000 * detail) ∧
      (s.haltOrder code detail).reg R.LGE_PHASE = 0 ∧ (s.haltOrder code detail).lge.safe = true ∧
      ∀ c, c < 4 → (s.haltOrder code detail).flag (R.LGEC_STAT c) 0 = false)

/-! ### Stalls (chapter 09) -/

/-- A received frame of a type that a stall's binding sent, at its negotiated version, with the STL and the stall's stable at work. -/
def Sys2Proof.Machine.State.lsxGood (s : State) (src : NetAddr) (f : List Byte) (ty : Byte) : Prop :=
  s.running stlPage = true ∧ lsxReadable f = true ∧ f.getD 2 0 = ty ∧ fieldN f 4 2 < 1024 ∧ s.boundTo (fieldN f 4 2) src = true ∧
    (ty = 2 ∨ (f.getD 0 0).toNat = (s.stall (fieldN f 4 2)).major) ∧ s.active (stbPage (fieldN f 4 2)) = true

/-- From R394 to R398: a HELLO of no enabled stall's UID is counted, and one of a stall whose stable is out of RUN is not answered; one that says what the binding holds is answered by a HELLO_ACK; one for a
stall not yet bound, from a port of its stable, writes the binding, raises its cause, is answered and negotiates where the negotiation is
not refused. A refused negotiation leaves the stall REFUSED with nothing in flight; a HELLO_ACK negotiates for a stall that is NEGOTIATING
and for no other. -/
def Obligations.StallNegotiation : Prop :=
  ∀ (s : State) (src : NetAddr) (f : List Byte) (k : Nat),
    (∀ u, u = s.lsxTake src f → u.running stlPage = true → lsxReadable f = true → f.getD 2 0 = 1 → 48 ≤ f.length →
      ((allStalls.any fun k => u.stEn k && u.reg64 (R.STB_UID_LO k) (R.STB_UID_HI k) == (parseHello f).uid) = false →
        exec (.hello src f) s = .next (u.incReg R.STL_RX_UNKNOWN)) ∧
      ((allStalls.any fun k => u.stEn k && u.reg64 (R.STB_UID_LO k) (R.STB_UID_HI k) == (parseHello f).uid) = true →
        (∀ k, k < 1024 → u.stEn k = true → u.stRun k = false) → exec (.hello src f) s = .next u) ∧
      ((allStalls.find? fun k => u.stEn k && u.stRun k && u.reg64 (R.STB_UID_LO k) (R.STB_UID_HI k) == (parseHello f).uid) = some k →
        (u.fld (R.STB_PORTS (k / 64)) 5 0).testBit src.eth.val = true →
        (u.boundTo k src = true → u.helloSame k (parseHello f) = true → (u.stall k).st ≠ 2 → (u.stall k).st ≠ 5 →
          exec (.hello src f) s = .next (u.helloAck k f)) ∧
        ((u.stall k).bound = false → ∀ v, v = (u.bind k src (parseHello f)).irq (stbPage k) 13 →
          ((v.negotiate k (parseHello f)).stall k).st ≠ 5 →
          exec (.hello src f) s = .next ((v.helloAck k f).negotiate k (parseHello f))))) ∧
    (k < 1024 → ((s.stRefuse k).stall k).st = 5 ∧ ((s.stRefuse k).stall k).rd = none ∧ ((s.stRefuse k).stall k).wr = none ∧
      SameMem s (s.stRefuse k)) ∧
    ((s.lsxTake src f).lsxGood src f 2 → ((s.lsxTake src f).stall (fieldN f 4 2)).st = 2 → 48 ≤ f.length →
      exec (.helloAck src f) s = .next ((s.lsxTake src f).negotiate (fieldN f 4 2) (parseHello f))) ∧
    ((s.lsxTake src f).lsxGood src f 2 → ((s.lsxTake src f).stall (fieldN f 4 2)).st ≠ 2 →
      exec (.helloAck src f) s = .next (s.lsxTake src f))

/-- From R400 to R403, R415: a read instant sends a READ with the stall's next sequence unless one is outstanding; its reply of the right
length is accepted, NEWEST flips and the read is over, or it waits while the buffers are held; one of another length changes nothing; a
reply of another sequence, or to no read, is counted late; a timeout is counted, and the one that makes RD_MISS in a row makes an ONLINE stall STALE. -/
def Obligations.StallReads : Prop :=
  ∀ (s : State) (src : NetAddr) (f : List Byte) (k : Fin 1024) (q n : Nat) (t0 : Nat),
    (s.stEn k.val = true → s.stRun k.val = true → s.acts = true → (s.stall k.val).bound = true → (s.stall k.val).major ≠ 0 →
      (s.stall k.val).st = 3 →
      ((s.stall k.val).rd = none → s.stSeq k.val < 2 ^ 64 - 1 → Answers (.read k) s fun t =>
        (t.stall k.val).rd = some (s.stSeq k.val) ∧ t.stSeq k.val = s.stSeq k.val + 1 ∧ (t.stall k.val).wr = (s.stall k.val).wr ∧
        SameMem s t ∧ ∀ j, j ≠ k.val → t.stall j = s.stall j) ∧
      ((s.stall k.val).rd = some q → exec (.read k) s = .next s)) ∧
    (∀ u, u = s.lsxTake src f → u.lsxGood src f 0x11 → fieldN f 4 2 = k.val →
      n = (if (u.stall k.val).major = 2 then fieldN (f.drop 24) 0xC 2 else fieldN (f.drop 16) 2 2) →
      ((u.stall k.val).rd = some q → seqIs (u.stall k.val).major q (lsxSeq f) = true →
        ((n ≠ u.stInLen k.val ∨ fieldN f 6 2 < (if (u.stall k.val).major = 2 then 16 else 4) + n) → exec (.readRsp src f) s = .next u) ∧
        (n = u.stInLen k.val → (if (u.stall k.val).major = 2 then 16 else 4) + n ≤ fieldN f 6 2 →
        ((u.winN k.val 0x20 1).testBit 1 = false → exec (.readRsp src f) s = .next (u.acceptReply k.val f u.time.log)) ∧
        ((u.winN k.val 0x20 1).testBit 1 = true → exec (.readRsp src f) s =
          .next (u.setStall k.val { u.stall k.val with waiting := some (f, u.time.log), rd := none })))) ∧
      (((u.stall k.val).rd = none ∨ ((u.stall k.val).rd = some q ∧ seqIs (u.stall k.val).major q (lsxSeq f) = false)) →
        exec (.readRsp src f) s = .next (u.stErr k.val 7 0))) ∧
    (((s.acceptReply k.val f t0).stall k.val).rd = none ∧ ((s.acceptReply k.val f t0).stall k.val).replied = true ∧
      ((s.acceptReply k.val f t0).stall k.val).misses = 0 ∧ (s.acceptReply k.val f t0).newest k.val = 1 - s.newest k.val) ∧
    ((s.stall k.val).waiting = some (f, t0) → exec (.replyHoldWait k) s =
      .next ((s.winPut k.val 0x20 (leBytes 4 (s.newest k.val))).acceptReply k.val f t0)) ∧
    ((s.stall k.val).rd = some q → (s.stall k.val).st = 3 → s.fld (R.STB_CFG3 k.val) 3 0 = (s.stall k.val).rdMiss + 1 →
      (s.stall k.val).misses + 1 < s.fld (R.STB_CFG1 k.val) 15 12 → Answers (.readTimeout k) s fun t =>
        (t.stall k.val).st = 4 ∧ (t.stall k.val).rd = none ∧ (t.stall k.val).misses = (s.stall k.val).misses + 1 ∧
        t.reg (R.STB_TOUT k.val) = satIncField (s.reg (R.STB_TOUT k.val)) 15 0 ∧ RegsBut [R.STB_TOUT k.val] s t ∧ SameMem s t) ∧
    ((s.stall k.val).rd = none → exec (.readTimeout k) s = .next s)

/-- From R404 to R411: a WRITE_ACK with a good tag and the sequence in flight ends the write: the sequence is shown and the written bytes
become the acknowledged ones; a frame whose tag fails leaves nothing but its report; a NAK of reason 1 fences the stall, keeps the epoch
it names and tells PLK, one of reason 5 sets LOC; a timeout counts and makes an ONLINE stall STALE; a REFRESH period sends the
acknowledged output again, once a WRITE was acknowledged. -/
def Obligations.StallWrites : Prop :=
  ∀ (s : State) (src : NetAddr) (f : List Byte) (k : Fin 1024) (q : Nat),
    (∀ u, u = s.lsxTake src f → fieldN f 4 2 = k.val →
      (u.lsxGood src f 0x13 → (u.tagCheck k.val f).1 = true → (u.stall k.val).wr = some q → seqIs (u.stall k.val).major q (lsxSeq f) = true →
        (u.stall k.val).dirty = false → q < 2 ^ 64 → Answers (.writeAck src f) s fun t =>
          (t.stall k.val).wr = none ∧ (t.stall k.val).dirty = false ∧ t.reg64 (R.STB_ACK_LO k.val) (R.STB_ACK_HI k.val) = q ∧
          t.stallMem = wrBytes u.stallMem (winBase k.val + 0x1800) (u.winBytes k.val 0x1600 (u.stOutLen k.val)) ∧ t.yard = s.yard ∧
          RegsBut [R.STB_ACK_LO k.val, R.STB_ACK_HI k.val, R.STL_REACH] s t) ∧
      (u.lsxGood src f 0x13 → (u.tagCheck k.val f).1 = false → exec (.writeAck src f) s = .next (u.tagCheck k.val f).2) ∧
      (u.lsxGood src f 0x14 → (u.tagCheck k.val f).1 = true → (u.stall k.val).wr = some q → seqIs (u.stall k.val).major q (lsxSeq f) = true →
        (fieldN (f.drop (lsxHdrLen f)) 0 1 = 1 → ∃ v : State, exec (.writeNak src f) s = .next v.fenceContest ∧
          (v.stall k.val).fenced = true ∧ (v.stall k.val).wr = none ∧ v.reg (R.STB_EPOCH k.val) = wd (fieldN (f.drop (lsxHdrLen f)) 4 4) ∧
          v.plk.fence = true ∧ bit (v.page (stbPage k.val)).irqStat 10 = true) ∧
        (fieldN (f.drop (lsxHdrLen f)) 0 1 = 5 → ∃ v : State, exec (.writeNak src f) s = .next v.fenceContest ∧
          (v.stall k.val).loc = true ∧ (v.stall k.val).wr = none))) ∧
    ((s.stall k.val).wr = some q → (s.stall k.val).st = 3 → (s.stall k.val).misses + 1 < s.fld (R.STB_CFG1 k.val) 15 12 →
      Answers (.writeTimeout k) s fun t => (t.stall k.val).st = 4 ∧ (t.stall k.val).misses = (s.stall k.val).misses + 1 ∧
        t.reg (R.STB_TOUT k.val) = satIncField (s.reg (R.STB_TOUT k.val)) 31 16 ∧
        ((t.stall k.val).wr = none ∨ (t.stall k.val).wr = some (s.stSeq k.val))) ∧
    ((s.stall k.val).wr = none → exec (.writeTimeout k) s = .next s) ∧
    (s.fld (R.STB_CFG1 k.val) 23 16 ≠ 0 → s.mayWrite k.val = true → (s.stall k.val).wr = none →
      s.reg64 (R.STB_ACK_LO k.val) (R.STB_ACK_HI k.val) ≠ 0 → Answers (.refresh k) s fun t =>
      (t.stall k.val).wr = some (s.stSeq k.val) ∧
      t.stallMem = wrBytes s.stallMem (winBase k.val + 0x1600) (s.winBytes k.val 0x1800 (s.stOutLen k.val)) ∧ t.yard = s.yard) ∧
    ((s.fld (R.STB_CFG1 k.val) 23 16 = 0 ∨ s.reg64 (R.STB_ACK_LO k.val) (R.STB_ACK_HI k.val) = 0) → exec (.refresh k) s = .next s)

/-! ### The command quay and the security unit (chapter 15) -/

/-- From R619 to R623, R728: in RUN, BEGIN opens a command, DATA adds a word, SUBMIT checks it in the order of the result codes (format,
slot, tag, counter, target) and ABORT ends it ABORTED; a command refused for its target has its counter stored. COMMAND_DELIVER takes the
oldest command of a target at its boundary: none while the logic engine runs cycles, whose BOUNDARY phase is part of its frame, and none
while a CAN channel sends. -/
def Obligations.SecCommandPort : Prop :=
  ∀ (s : State) (who : Initiator) (val target : Word) (b : List Byte) (c : QuayCmd),
    (MayWrite who R.SEC_CMD_CTRL s = true → s.running secPage = true →
      (s.fld R.SEC_CMD_STAT 1 0 ≠ 1 → Answers (.cmdBegin who) s fun t => t.sec = { s.sec with buf := [] } ∧ t.reg R.SEC_CMD_STAT = 1 ∧
        RegsBut [R.SEC_CMD_STAT] s t ∧ SameMem s t) ∧
      (s.fld R.SEC_CMD_STAT 1 0 = 1 →
        exec (.cmdBegin who) s = .next ((s.answer 0).errc secPage 0x100 0) ∧
        exec (.cmdSubmit who) s = .next ((s.answer 0).cmdCheck s.cmdBytes) ∧
        Answers (.cmdAbort who) s fun t => t.reg R.SEC_CMD_STAT = wd (3 + 256 * 6 + 65536 * fieldN s.cmdBytes 2 1) ∧
          t.sec = { s.sec with buf := [] } ∧ bit (t.page 32).irqStat 8 = true ∧ SameMem s t) ∧
      (s.fld R.SEC_CMD_STAT 1 0 ≠ 1 → exec (.cmdSubmit who) s = .next (s.answer 0) ∧ exec (.cmdAbort who) s = .next (s.answer 0))) ∧
    (MayWrite who R.SEC_CMD_DATA s = true → s.running secPage = true → s.fld R.SEC_CMD_STAT 1 0 = 1 →
      Answers (.cmdData who val) s fun t => t.sec = { s.sec with buf := val :: s.sec.buf } ∧ t.regs = s.regs ∧ SameMem s t) ∧
    (s.pwr.saving = false →
      let slot := fieldN b 2 1
      let t := s.storeCtr slot (fieldN b 8 8)
      let r := if formatBad b then 1 else if s.slotBad (fieldN b 1 1) slot then 2 else if s.tagBad b then 3
        else if fieldN b 8 8 ≤ s.lastCtr slot then 4
        else if t.targetBad (fieldN b 1 1) (fieldN b 4 4) ((b.drop 32).take (fieldN b 0x18 4)) then 5 else 0
      (r = 0 ∨ s.cmdCheck b = (if r = 5 then t else s).cmdEnd r b) ∧ t.lastCtr slot = fieldN b 8 8 ∧
        (s.cmdEnd r b).reg R.SEC_CMD_STAT = wd (3 + 256 * r + 65536 * slot)) ∧
    (s.pwr.saving = false → (s.sec.queue.find? fun x => x.target == target.toNat) = some c →
      s.betweenBounds (pageOf target.toNat) = false →
        exec (.commandDeliver target) s = .next ((s.setSec fun q => { q with queue := q.queue.erase c }).applyCmd c)) ∧
    ((s.sec.queue.find? fun x => x.target == target.toNat) = none → exec (.commandDeliver target) s = .next s) ∧
    (s.betweenBounds (pageOf target.toNat) = true → exec (.commandDeliver target) s = .next s) ∧
    (pageOf target.toNat = 64 → (s.betweenBounds 64 = true ↔ s.active 64 = true ∧ s.acts = true))

/-- From R35, R93, R376 to R378, R570, R625, R656: what delivered commands do: a block's control write; the forces of a list, applied whole or
refused at the first that may not be; an online change of items none of which is refused, or one with no image; those that come to a
target between its boundaries wait in its queue, and have the same effect from there; a log clear, refused while
records past ARCHIVED remain; a switchover, which waits for the frame of a running cycle; a key change, which keeps the slot's counter and
every other slot, and with USE 0 erases the key. -/
def Obligations.CommandsDelivered : Prop :=
  ∀ (s : State) (target val : Word) (ocs : List OcItem) (fis : List ForceItem) (fs : Tab (Option ForceEnt)) (cn : Nat × Nat) (slot : Byte)
    (counter archived : DWord) (k : KeyChange), s.pwr.saving = false →
    (cmdSuits 1 target.toNat = true → s.up (domOf (pageOf target.toNat)) = true → ∀ c : QuayCmd, c = ⟨1, target.toNat, 0, 0, leBytes 4 val.toNat⟩ →
      ((s.waitsFor c = false ∨ s.betweenBounds (pageOf target.toNat) = false) →
        exec (.blockCtrl target val) s = .next (s.ctrlReach (pageOf target.toNat) true val)) ∧
      (s.waitsFor c = true → s.betweenBounds (pageOf target.toNat) = true → Answers (.blockCtrl target val) s fun t =>
        t = { s with sec := t.sec } ∧ t.sec = { s.sec with queue := t.sec.queue } ∧ t.sec.queue.length = s.sec.queue.length + 1 ∧
        ∃ n, { c with counter := n } ∈ t.sec.queue)) ∧
    (s.shown 64 ≠ 0 → s.running 64 = true → s.acts = true → Answers (.force fis) s (fun t => t = { s with sec := t.sec } ∧
        t.sec = { s.sec with queue := t.sec.queue } ∧ ∃ c, c ∈ t.sec.queue ∧ c.target = 0x40040000 ∧ (fis.length < 256 →
          ∀ u : State, u.applyCmd c = u.applyForces fis)) ∧
      Answers (.onlineChange ocs) s fun t => t = { s with sec := t.sec } ∧ t.sec = { s.sec with queue := t.sec.queue } ∧
        ∃ c, c ∈ t.sec.queue ∧ c.target = 0x40040000 ∧ (ocs.length < 256 → ∀ u : State, u.applyCmd c = u.applyChange ocs)) ∧
    (s.shown 64 ≠ 0 → (s.running 64 = false ∨ s.acts = false) → exec (.force fis) s = .next (s.applyForces fis) ∧
      exec (.onlineChange ocs) s = .next (s.applyChange ocs)) ∧
    (s.shown 64 ≠ 0 → s.acts = false → exec (.force fis) s = .next (s.emit evForceRefused 64 [0])) ∧
    (s.shown 64 ≠ 0 → s.running 64 = false → s.acts = true →
      (forceItems 0 s.lge.forces fis = .ok fs → Answers (.force fis) s fun t => t.lge.forces = fs ∧ t.reg R.LGE_FC_LAST = 0 ∧
        bit (t.page 64).irqStat 12 = true ∧ RegsBut ([R.LGE_FC_LAST, R.LGE_FORCES] ++ evrRegs) s t ∧ SameMem s t) ∧
      (forceItems 0 s.lge.forces fis = .error cn → Answers (.force fis) s fun t => t.lge = s.lge ∧
        t.reg R.LGE_FC_LAST = wd (cn.1 + 256 * cn.2) ∧ RegsBut ([R.LGE_FC_LAST] ++ evrRegs) s t ∧ SameMem s t)) ∧
    (s.shown 64 ≠ 0 → (s.running 64 = false ∨ s.acts = false) → s.lge.image = none → Answers (.onlineChange ocs) s fun t =>
      t.reg R.LGE_OC_LAST = 1 ∧
      RegsBut ([R.LGE_OC_LAST] ++ evrRegs) s t ∧ SameMem s t) ∧
    (∀ g, s.shown 64 ≠ 0 → (s.running 64 = false ∨ s.acts = false) → s.lge.image = some g → (∀ i, i ∈ ocs → changeRefused g i = none) → Answers (.onlineChange ocs) s fun t =>
      t.reg R.LGE_OC_LAST = 0 ∧ t.reg R.LGE_CHANGES = s.reg R.LGE_CHANGES + wd ocs.length ∧ bit (t.page 64).irqStat 13 = true ∧ t.yard = s.yard) ∧
    (s.running 34 = true → (archived.toNat + 1 < (s.flushLog.evr.ctl.getD {}).next ∧ archived ≠ BitVec.allOnes 64) →
      Answers (.logClear slot counter archived) s fun t => t.reg R.EVR_CLR_LAST = wd (2 + 256 * slot.toNat) ∧
        bit (t.page 34).irqStat 12 = true ∧ SameMem s t) ∧
    (s.running 34 = true → ¬ (archived.toNat + 1 < (s.flushLog.evr.ctl.getD {}).next ∧ archived ≠ BitVec.allOnes 64) →
      Answers (.logClear slot counter archived) s fun t => t.reg R.EVR_CLR_LAST = wd (1 + 256 * slot.toNat) ∧
        bit (t.page 34).irqStat 11 = true ∧ (t.evr.ctl.getD {}).first = (s.flushLog.evr.ctl.getD {}).next ∧ t.evr.updates = []) ∧
    (s.switchOk = true → s.active 64 = true → (s.regN R.LGE_PHASE = 1 ∨ s.regN R.LGE_PHASE = 2 ∨ s.regN R.LGE_PHASE = 3) →
      Answers .switch s fun t => t.plk = { s.plk with finalReq := true } ∧ RegsBut evrRegs s t ∧ SameMem s t) ∧
    (s.switchOk = true → s.active 64 = false → exec .switch s = .next (s.emit evSwitch 128 []).switchNow) ∧
    (s.switchOk = false → exec .switch s = .next s) ∧
    (s.running 32 = true → s.keyRefused k = false → k.use = 0 → Answers (.keyChange slot counter k) s fun t =>
      t.key k.slotNo.toNat = { ctr := (s.key k.slotNo.toNat).ctr } ∧ (∀ j, j ≠ k.slotNo.toNat → t.key j = s.key j) ∧ SameMem s t) ∧
    (s.running 32 = true → s.keyRefused k = false → k.use ≠ 0 → Answers (.keyChange slot counter k) s fun t =>
      (t.key k.slotNo.toNat).use = k.use.toNat ∧ (t.key k.slotNo.toNat).perms = k.perms ∧
      (t.key k.slotNo.toNat).ctr = (s.key k.slotNo.toNat).ctr ∧ (∀ j, j ≠ k.slotNo.toNat → t.key j = s.key j) ∧ SameMem s t) ∧
    (s.running 32 = true → s.keyRefused k = true → Answers (.keyChange slot counter k) s fun t => t.sec = s.sec ∧
      RegsBut evrRegs s t ∧ SameMem s t)

/-- From R632 to R640, R728: SEC enters RUN by itself once; an update starts, refused while another runs or LPDDR5 cannot be used; it ends
by its stages' checks, FAILED with the inactive slot's headers left open from stage 2 on (free values, log entry 56) and the active slot
as it was, or ABORTED with the inactive slot invalid; FW_CONFIRM makes the slot that
runs the active one and raises the floors; EXTEND2 extends register 2 until LOCK2; a quote or the certificate is prepared, and written to
LPDDR5 when done. -/
def Obligations.SecImagesAndQuotes : Prop :=
  ∀ (s : State) (who : Initiator) (b : FwBundle) (bytes : List Byte) (u : FwUpd) (stage check : Fin 6),
    (s.shown 32 = 1 → (s.blk 32).gen = 0 → s.pwr.saving = false → exec .secRun s = .next (s.toRun 32)) ∧
    ((s.shown 32 ≠ 1 ∨ (s.blk 32).gen ≠ 0) → exec .secRun s = .next s) ∧
    (s.running 32 = true → s.pwr.saving = false →
      (s.sec.upd = none → s.dramUp = true → inDram b.addr.toNat bytes.length = true → Answers (.fwUpdate b bytes) s fun t =>
        t.sec = { s.sec with upd := some ⟨b.kmask.toNat, b.addr.toNat, b.digest⟩ } ∧ t.dram = wrBytes s.dram b.addr.toNat bytes ∧
        t.reg R.SEC_FW_STAT = 0x101 ∧ t.reg R.SEC_FW_DONE_KB = 0 ∧ RegsBut [R.SEC_FW_STAT, R.SEC_FW_DONE_KB] s t ∧ t.yard = s.yard) ∧
      (s.fwRefused = true → Answers (.fwUpdate b bytes) s fun t => t.sec = s.sec ∧ RegsBut evrRegs s t ∧ SameMem s t)) ∧
    (s.active 32 = true → s.sec.upd = some u →
      exec (.fwUpdateDone .done) s = .next (s.fwRun u) ∧
      (Answers (.fwUpdateDone .aborted) s fun t => t.sec.upd = none ∧ t.sec.boot = { s.sec.boot with invalid := true } ∧
        t.reg R.SEC_FW_STAT = 4 ∧ bit (t.page 32).irqStat 9 = true ∧ SameMem s t) ∧
      Answers (.fwUpdateDone (.failed stage check)) s fun t => t.sec.upd = none ∧
        t.sec.boot = s.sec.boot ∧ t.sec.keys = s.sec.keys ∧ (stage.val < 2 → t.sec.flash = s.sec.flash) ∧
        (∀ k n, (k = 1 ∨ k = 2 ∨ k = 3) → n < 0x1600 → rdB t.sec.flash (slotOfs s.sec.boot.active + kindOfs k + n) =
          rdB s.sec.flash (slotOfs s.sec.boot.active + kindOfs k + n)) ∧
        t.reg R.SEC_FW_STAT = wd (3 + 256 * stage.val + 65536 * check.val) ∧ bit (t.page 32).irqStat 9 = true ∧ SameMem s t) ∧
    (s.sec.upd = none → exec (.fwUpdateDone .done) s = .next s) ∧
    (MayWrite who R.SEC_FW_CONFIRM s = true → s.running 32 = true → s.sec.boot.trial = true → s.sec.booted = s.sec.boot.next → Answers (.fwConfirm who 1) s fun t =>
      t.sec.boot.active = s.sec.booted ∧ t.sec.boot.next = s.sec.booted ∧ t.sec.boot.trial = false ∧ t.sec.boot.attempts = 0 ∧
      t.sec.boot.floors = (s.sec.boot.floors.zip s.sec.versions).map (fun e => max e.1 e.2) ∧ t.sec.keys = s.sec.keys ∧
      RegsBut [R.SEC_BOOT_STAT] s t ∧ SameMem s t) ∧
    (MayWrite who R.SEC_MEAS_CTRL s = true → s.running 32 = true →
      (s.sec.lock2 = false → Answers (.extend2 who) s fun t => t.reg (R.SEC_MEAS_CNT 2) = s.reg (R.SEC_MEAS_CNT 2) + 1 ∧
        (∀ w, w < 8 → t.reg (R.SEC_MEAS_W 2 w) = wd (fieldN (digest32 (((List.range 8).flatMap fun i => leBytes 4 (s.regN (R.SEC_MEAS_W 2 i))) ++
          ((List.range 8).flatMap fun i => leBytes 4 (s.regN (R.SEC_MEAS_EXT_D i))))) (4 * w) 4)) ∧ SameMem s t) ∧
      (s.sec.lock2 = true → exec (.extend2 who) s = .next (s.answer 0)) ∧
      Answers (.lock2 who) s fun t => t.sec = { s.sec with lock2 := true } ∧ t.regs = s.regs ∧ SameMem s t) ∧
    (MayWrite who R.SEC_QUOTE_CMD s = true → s.running 32 = true → s.fld R.SEC_QUOTE_STAT 1 0 ≠ 1 → s.dramUp = true →
      (Answers (.quoteStart who) s fun t => t.sec = { s.sec with quote := s.quoteBytes } ∧ t.reg R.SEC_QUOTE_STAT = 1 ∧
        RegsBut [R.SEC_QUOTE_STAT] s t ∧ SameMem s t) ∧
      Answers (.quoteCert who) s fun t => t.sec = { s.sec with quote := Config.certificate } ∧ t.reg R.SEC_QUOTE_STAT = 1 ∧
        RegsBut [R.SEC_QUOTE_STAT] s t ∧ SameMem s t) ∧
    (s.active 32 = true → s.fld R.SEC_QUOTE_STAT 1 0 = 1 → s.dramUp = true →
      inDram (s.reg64 R.SEC_QUOTE_ADDR_LO R.SEC_QUOTE_ADDR_HI) s.sec.quote.length = true → Answers .quoteDone s fun t =>
        t.dram = wrBytes s.dram (s.reg64 R.SEC_QUOTE_ADDR_LO R.SEC_QUOTE_ADDR_HI) s.sec.quote ∧ t.reg R.SEC_QUOTE_STAT = 2 ∧
        bit (t.page 32).irqStat 10 = true ∧ RegsBut [R.SEC_QUOTE_STAT] s t ∧ t.yard = s.yard)

/-! ### The event recorder, the real-time clock and the panel (chapters 16 to 18) -/

/-- From R642 to R645, R648, R655, R657: a record enters its partition's queue with its time, or is lost and counted while EVR does not
run or its queue is full; the oldest of a queue is staged with the next SEQ where its code has no limit, and counted as suppressed where
its bucket has no token; FLUSH empties the staging and shows END; SW_SEND sends a firmware record; RD_OFS and RL_INDEX select what the
windows show, the second in STOP alone. -/
def Obligations.EventRecorder : Prop :=
  ∀ (s : State) (who : Initiator) (val : Word) (r : Record) (p : Plane) (q : QRec) (rest : List QRec),
    (s.pwr.saveDone = false →
      (s.running 34 = true → codeOk (recNumber r).toNat = true → bodyOk (r.src :: r.body) = true →
        (s.evr.queues.get (fun _ => []) (planeNum r.plane)).length < 64 → Answers (.recordSubmit r) s fun t =>
          t.evr.queues.get (fun _ => []) (planeNum r.plane) = s.evr.queues.get (fun _ => []) (planeNum r.plane) ++ [⟨r, s.time.nvm⟩] ∧
          t.regs = s.regs ∧ t.pages = s.pages ∧ SameMem s t) ∧
      ((s.running 34 = false ∨ (codeOk (recNumber r).toNat = true ∧ bodyOk (r.src :: r.body) = true ∧
        64 ≤ (s.evr.queues.get (fun _ => []) (planeNum r.plane)).length)) → Answers (.recordSubmit r) s fun t =>
          t.evr.queues = s.evr.queues ∧ t.reg (R.EVR_LOST (planeNum r.plane)) = s.reg (R.EVR_LOST (planeNum r.plane)) + 1 ∧
          bit (t.page 34).irqStat 10 = true ∧ RegsBut [R.EVR_LOST (planeNum r.plane)] s t ∧ SameMem s t)) ∧
    (s.evr.queues.get (fun _ => []) (planeNum p) = q :: rest → s.active 34 = true → (s.up (plicDom p) = true → s.locked (plicDom p) = true) →
      s.evr.bytes + 36 + 4 * q.r.body.length ≤ 65536 →
      s.evr.lostNew.get (fun _ => 0) (planeNum p) = 0 → s.flag R.EVR_LOG_STAT 0 = false → q.r.code ≠ .evt 20 →
      (noLimit (recNumber q.r).toNat = true → Answers (.recordStage p) s fun t =>
        t.evr.staging = s.evr.staging ++ [⟨s.evr.nextSeq, q.t, recNumber q.r,
          BitVec.ofNat 8 (q.r.sev.toNat + 8 * planeNum q.r.plane), q.r.src :: q.r.body, 0⟩] ∧
        t.evr.nextSeq = s.evr.nextSeq + 1 ∧ t.evr.queues.get (fun _ => []) (planeNum p) = rest ∧ RegsBut [R.EVR_STAGE_BYTES] s t ∧ SameMem s t) ∧
      (noLimit (recNumber q.r).toNat = false → (s.evr.newest.get (fun _ => {}) (bucketOf (recNumber q.r).toNat)).seq ≠ 0 →
        s.tokens (bucketOf (recNumber q.r).toNat) < tokenUnit → Answers (.recordStage p) s fun t => t.evr.nextSeq = s.evr.nextSeq ∧
          t.evr.staging.length = s.evr.staging.length ∧ t.reg R.EVR_SUPPRESSED = s.reg R.EVR_SUPPRESSED + 1 ∧
          t.evr.queues.get (fun _ => []) (planeNum p) = rest ∧ SameMem s t)) ∧
    (s.active 34 = true → Answers .flush s fun t => t.evr.staging = [] ∧ t.evr.updates = [] ∧ t.evr.nextSeq = s.evr.nextSeq ∧
      t.evr.queues = s.evr.queues ∧ t.reg R.EVR_STAGE_BYTES = 0 ∧ t.reg R.EVR_END = wd (t.evr.ctl.getD {}).ende ∧
      (s.evr.updates = [] → s.evr.staging = [] → t.evr.data = s.evr.data) ∧ SameMem s t) ∧
    (MayWrite who R.EVR_SW_SEND s = true →
      ((bits val 15 0 < 0x200 ∨ 0x2FF < bits val 15 0) → exec (.swSend who val) s = .next ((s.answer 0).incReg R.EVR_BAD_REC)) ∧
      (0x200 ≤ bits val 15 0 → bits val 15 0 ≤ 0x2FF → exec (.swSend who val) s = .next ((s.answer 0).submit
        ⟨.num (val.setWidth 16), BitVec.ofNat 2 (bits val 17 16), .management, s.reg (R.EVR_SW_D 0),
          (List.range (2 * bits val 29 24 - 1)).map (fun i => s.reg (R.EVR_SW_D (i + 1))), []⟩))) ∧
    (MayWrite who R.EVR_RD_OFS s = true → exec (.rdOfs who val) s = .next ((s.answer 0).setReg R.EVR_RD_OFS (val &&& 0xFFFFFFF8))) ∧
    (MayWrite who R.EVR_RL_INDEX s = true →
      (s.shown 34 = 1 → exec (.rlIndex who val) s = .next ((s.answer 0).setReg R.EVR_RL_INDEX (val &&& 0x3FF))) ∧
      (s.shown 34 ≠ 1 → exec (.rlIndex who val) s = .next ((s.answer 0).cfgRej 34 (ofsOf R.EVR_RL_INDEX))))

/-- From R660 to R672: the calendar counts a second on with its fields carried and SUB as the trim has it, an alarm that is not enabled
setting no event, and stops at the end of its range; how many oscillator cycles pass before a read is free (log entry 80); reads are coherent through the shadows; a staged time is refused with the place of its first bad field, or loaded
with its weekday and no event; the wake timer, the read timeout, the backup cell, the loss of retention and the trim do as their rules
say. -/
def Obligations.RealTimeClock : Prop :=
  ∀ (s : State) (who : Initiator) (val : Word) (b : Bool) (elapsed : Nat) (pos : Nat),
    (calOf (s.reg R.RTC_TIME0) (s.reg R.RTC_TIME1) (s.reg R.RTC_TIME2) ≠ (2399, 12, 31, 23, 59, 59) → Answers .rtcSecond s fun t =>
      (∀ n, n = calNext (s.reg R.RTC_TIME0) (s.reg R.RTC_TIME1) (s.reg R.RTC_TIME2) → bits (t.reg R.RTC_TIME0) 31 15 = bits n.1 31 15 ∧
        t.reg R.RTC_TIME1 = n.2.1 ∧ t.reg R.RTC_TIME2 = n.2.2) ∧
      t.fld R.RTC_TIME0 14 0 = s.subCarry / 2 ^ 20 % 2 ^ 15 ∧ t.rtc.frac = s.subCarry % 2 ^ 20 ∧
      (∀ a, a < 2 → s.flag (R.RTC_ALM_MASK a) 8 = false → t.flag R.RTC_EVT a = s.flag R.RTC_EVT a) ∧
      RegsBut [R.RTC_TIME0, R.RTC_TIME1, R.RTC_TIME2, R.RTC_EVT] s t ∧ SameMem s t) ∧
    (calOf (s.reg R.RTC_TIME0) (s.reg R.RTC_TIME1) (s.reg R.RTC_TIME2) = (2399, 12, 31, 23, 59, 59) → Answers .rtcSecond s fun t =>
      t.flag R.RTC_STAT 0 = false ∧ t.flag R.RTC_STAT 6 = true ∧ t.reg R.RTC_TIME1 = s.reg R.RTC_TIME1 ∧ t.reg R.RTC_TIME2 = s.reg R.RTC_TIME2) ∧
    (s.flag R.RTC_WAKE_PERIOD 31 = true → exec .wake s = .next (s.rtcEvt 2)) ∧ (s.flag R.RTC_WAKE_PERIOD 31 = false → exec .wake s = .next s) ∧
    (MayWrite who R.RTC_WAKE_PERIOD s = true →
      (1 ≤ bits val 24 0 → bits val 24 0 ≤ 22118400 → exec (.wakePeriod who val) s = .next ((s.answer 0).setReg R.RTC_WAKE_PERIOD (val &&& 0x81FFFFFF))) ∧
      ((bits val 24 0 = 0 ∨ 22118400 < bits val 24 0) → exec (.wakePeriod who val) s = .next ((s.answer 0).errc 35 6 0x850))) ∧
    (MayRead who R.RTC_TIME0 s = true → s.flag R.RTC_STAT 1 = false → Answers (.timeRead who false) s fun t =>
      t.resp = ⟨t.reg R.RTC_TIME0, false⟩ ∧ bits (t.reg R.RTC_TIME0) 31 15 = bits (s.reg R.RTC_TIME0) 31 15 ∧
      (∃ n, n ≤ s.oscLeft ∧ t.fld R.RTC_TIME0 14 0 = (s.subPhase + n * s.trimRate) / 2 ^ 20 % 2 ^ 15) ∧
      t.flag R.RTC_STAT 1 = true ∧ t.rtc.sh1 = s.reg R.RTC_TIME1 ∧ t.rtc.sh2 = s.reg R.RTC_TIME2 ∧
      RegsBut [R.RTC_STAT, R.RTC_TIME0] s t) ∧
    (MayRead who R.RTC_TIME1 s = true → s.flag R.RTC_STAT 1 = true → Answers (.timeRead who true) s fun t =>
      t.resp = ⟨s.rtc.sh1, false⟩ ∧ t.regs = s.regs ∧ t.rtc = s.rtc) ∧
    (MayRead who R.RTC_TIME2 s = true → s.flag R.RTC_STAT 1 = true → Answers (.time2Read who) s fun t =>
      t.resp = ⟨s.rtc.sh2, false⟩ ∧ t.flag R.RTC_STAT 1 = false ∧ RegsBut [R.RTC_STAT] s t) ∧
    (s.flag R.RTC_STAT 1 = true → Answers .rdTimeout s fun t => t.flag R.RTC_STAT 1 = false ∧ t.flag R.RTC_EVT 3 = true ∧
      RegsBut [R.RTC_STAT, R.RTC_EVT] s t ∧ SameMem s t) ∧
    (MayWrite who R.RTC_COMMIT s = true → s.flag R.RTC_STAT 4 = false →
      (stageBad s = some pos → exec (.commitGo who) s = .next (((s.answer 0).setFlag R.RTC_STAT 5 true).errc 35 0x100 pos)) ∧
      (stageBad s = none → Answers (.commitGo who) s fun t => t.flag R.RTC_STAT 4 = true ∧ t.rtc.c0 = s.reg R.RTC_STAGE0 ∧
        t.rtc.c1 = s.reg R.RTC_STAGE1 ∧ t.rtc.c2 = s.reg R.RTC_STAGE2 ∧ RegsBut [R.RTC_STAT] s t ∧ SameMem s t)) ∧
    (s.flag R.RTC_STAT 4 = true → Answers .commitLoad s fun t => t.flag R.RTC_STAT 0 = true ∧ t.flag R.RTC_STAT 4 = false ∧
      t.flag R.RTC_STAT 5 = false ∧ t.flag R.RTC_STAT 6 = false ∧ t.reg R.RTC_TIME2 = wd (bits s.rtc.c2 11 0) ∧
      bits (t.reg R.RTC_TIME1) 10 8 = wdayOf (bits s.rtc.c2 11 0) (bits s.rtc.c1 27 24) (bits s.rtc.c1 20 16) ∧
      t.reg R.RTC_EVT = s.reg R.RTC_EVT ∧ SameMem s t) ∧
    (s.flag R.RTC_STAT 2 ≠ b → Answers (.backupSwitch b) s fun t => t.flag R.RTC_STAT 2 = b ∧ (b = true → t.flag R.RTC_EVT 5 = true) ∧
      RegsBut [R.RTC_STAT, R.RTC_EVT] s t ∧ SameMem s t) ∧
    exec (.batLow b) s = .next (s.setFlag R.RTC_STAT 3 b) ∧ exec .retLost s = .next (s.rtcEvt 4) ∧
    (s.flag R.RTC_TRIM 16 = true → s.fld R.PTP_SERVO_STAT 2 0 = 2 → Answers (.trimWindow true elapsed) s fun t =>
      sext 10 (t.fld R.RTC_TRIM 9 0) =
        clampI (-512) 511 (sext 10 (s.fld R.RTC_TRIM 9 0) + rha (((elapsed : Int) - 32000000000) * 2 ^ 20) 32000000000) ∧
      RegsBut [R.RTC_TRIM, R.RTC_TRIM_ERR] s t ∧ SameMem s t) ∧
    ((s.flag R.RTC_TRIM 16 = false ∨ s.fld R.PTP_SERVO_STAT 2 0 ≠ 2) → exec (.trimWindow true elapsed) s = .next s)

/-- From R675 to R691: a waveform table is opened in STOP, takes words row by row, and comes into force whole or is refused with its first
bad row; an update whose source lies in LPDDR5 runs, and a clear is refused with the number of its first reason; a frame counts, sends the
drive codes of its pixels and moves every pixel one frame on, and HOLD_FRAMES neutral frames follow the last; the rails rise, fall and idle; a rail fault stops the driver and every waveform; after the clear of the dirty
tiles updates are accepted again. -/
def Obligations.StatusPanel : Prop :=
  ∀ (s : State) (who : Initiator) (val : Word) (bytes : List Byte) (rail : Fin 4) (full : Bool) (x r v : Nat),
    (MayWrite who R.PNL_WF_CTL s = true →
      (s.shown 192 = 1 → Answers (.wfBegin who) s fun t => t.pnl = { s.pnl with staging := [], row := [] } ∧ t.reg R.PNL_WF_STAT = 1 ∧
        RegsBut [R.PNL_WF_STAT] s t ∧ SameMem s t) ∧
      (s.shown 192 ≠ 1 → exec (.wfBegin who) s = .next (s.answer 0)) ∧
      (s.fld R.PNL_WF_STAT 2 0 = 1 →
        (wfFail s.pnl.staging 257 0 = none → Answers (.wfEnd who) s fun t => t.pnl = { s.pnl with table := some s.pnl.staging } ∧
          t.reg R.PNL_WF_STAT = 2 ∧ bit (t.page 192).irqStat 11 = true ∧ SameMem s t) ∧
        (wfFail s.pnl.staging 257 0 = some (x, r) → Answers (.wfEnd who) s fun t => t.pnl = s.pnl ∧
          t.reg R.PNL_WF_STAT = wd (3 + 16 * x + 65536 * r) ∧ bit (t.page 192).irqStat 11 = true ∧ SameMem s t) ∧
        Answers (.wfAbort who) s fun t => t.pnl = { s.pnl with staging := [], row := [] } ∧ t.reg R.PNL_WF_STAT = 0 ∧
          bit (t.page 192).irqStat 11 = true ∧ SameMem s t)) ∧
    (MayWrite who R.PNL_WF_DATA s = true → s.fld R.PNL_WF_STAT 2 0 = 1 → s.fld R.PNL_WF_ROW 8 0 ≤ 256 →
      (s.pnl.row.length < 4 → Answers (.wfData who val) s fun t => t.pnl = { s.pnl with row := s.pnl.row ++ [val] } ∧ t.regs = s.regs) ∧
      (s.pnl.row.length = 4 → Answers (.wfData who val) s fun t => t.pnl.row = [] ∧
        t.pnl.staging.get (fun _ => []) (s.fld R.PNL_WF_ROW 8 0) = s.pnl.row ++ [val] ∧
        t.reg R.PNL_WF_ROW = wd (s.fld R.PNL_WF_ROW 8 0 + 1) ∧ RegsBut [R.PNL_WF_ROW] s t ∧ SameMem s t)) ∧
    (MayWrite who R.PNL_UPD_CMD s = true → s.dramUp = true →
      inDram (s.reg64 R.PNL_UPD_SRC_LO R.PNL_UPD_SRC_HI) bytes.length = true →
      exec (.updGo who bytes) s = .next (({ s.answer 0 with
        dram := wrBytes s.dram (s.reg64 R.PNL_UPD_SRC_LO R.PNL_UPD_SRC_HI) bytes } : State).update false false) ∧
      exec (.clearWf who) s = .next ((s.answer 0).update true false) ∧ exec (.fullClear who) s = .next ((s.answer 0).update true true)) ∧
    (s.updRefuse true full (if full then 0 else s.fld R.PNL_UPD_X 9 0) (if full then 0 else s.fld R.PNL_UPD_Y 9 0)
        (if full then s.glassW else s.fld R.PNL_UPD_W 9 0) (if full then s.glassH else s.fld R.PNL_UPD_H 9 0)
        (s.reg64 R.PNL_UPD_SRC_LO R.PNL_UPD_SRC_HI) = some v → s.update true full = s.setReg R.PNL_UPD_STAT (wd v)) ∧
    (s.fld R.PNL_SLOT_STAT 3 0 = 15 → s.updRefuse true full x r v v v = some 1) ∧
    (s.running 192 = true → s.flag R.PNL_STAT2 0 = false → s.fld R.PNL_SLOT_STAT 3 0 = 0 → s.freeSlot = some 0 ∧
      s.updRefuse true true 0 0 s.glassW s.glassH v = none) ∧
    (s.active 192 = true → s.pnl.rails = .up → s.pwr.panelNeutral = false → s.pnlWork = true → Answers .pnlFrame s fun t =>
      t.reg R.PNL_FRAMES = s.reg R.PNL_FRAMES + 1 ∧ t.pnl.oe = (t.pnlWork || decide (0 < t.pnl.hold)) ∧ t.pnl.codes = s.frameCodes ∧
      (t.pnlWork = false → t.pnl.hold = s.fld R.PNL_RAIL_CFG 15 8) ∧ t.pnl.pix = tabMap (fun _ => {}) (fun _ p => s.pixFrame p) s.pnl.pix ∧ SameMem s t) ∧
    (s.active 192 = true → s.pnl.rails = .up → s.pwr.panelNeutral = false → s.pnlWork = false → 0 < s.pnl.hold → Answers .pnlFrame s fun t =>
      t.pnl = { s.pnl with hold := s.pnl.hold - 1, codes := [], oe := decide (1 < s.pnl.hold) } ∧
      t.reg R.PNL_FRAMES = s.reg R.PNL_FRAMES + 1 ∧ RegsBut [R.PNL_FRAMES] s t ∧ SameMem s t) ∧
    ((s.active 192 = false ∨ s.pnl.rails ≠ .up ∨ s.pwr.panelNeutral = true ∨ (s.pnlWork = false ∧ s.pnl.hold = 0)) → exec .pnlFrame s = .next s) ∧
    (s.pnl.rails = .rising → Answers .railUpDone s fun t => t.pnl = { s.pnl with rails := .up } ∧ t.reg R.PNL_RAIL_STAT = 0x1F ∧
      RegsBut [R.PNL_RAIL_STAT] s t ∧ SameMem s t) ∧
    (s.pnl.rails = .falling → s.pnlWork = true → s.running 192 = true → Answers .railDownDone s fun t =>
      t.pnl = { s.pnl with rails := .rising } ∧ t.reg R.PNL_RAIL_STAT = 0 ∧ RegsBut [R.PNL_RAIL_STAT] s t ∧ SameMem s t) ∧
    (s.pnl.rails = .falling → s.pnlWork = false → Answers .railDownDone s fun t => t.pnl = { s.pnl with rails := .down } ∧
      t.reg R.PNL_RAIL_STAT = 0 ∧ RegsBut [R.PNL_RAIL_STAT] s t ∧ SameMem s t) ∧
    (s.flag R.PNL_RAIL_CFG 1 = true → s.pnl.rails = .up → s.pnlWork = false → s.pnl.hold = 0 →
      exec .railIdle s = .next { s with pnl := { s.pnl with rails := .falling, oe := false } }) ∧
    (s.pnl.rails ≠ .up → exec .railIdle s = .next s) ∧
    (s.pnl.rails ≠ .down → s.shown 192 ≠ 0 → Answers (.railFault rail) s fun t => (t.blk 192).st = .fault ∧
      (t.page 192).errcode = wd (0x102 + 65536 * rail.val) ∧ t.pnl.rails = .falling ∧ t.pnl.oe = false ∧ t.pnl.codes = [] ∧ (∀ k, (t.pixel k).idle = true) ∧
      bit (t.page 192).irqStat 9 = true ∧ SameMem s t) ∧
    (s.flag R.PNL_STAT2 0 = true → s.active 192 = true → s.pnlWork = false → Answers .recovered s fun t =>
      t.pnl = { s.pnl with imgValid := true } ∧ t.reg R.PNL_STAT2 = 2 ∧ bit (t.page 192).irqStat 10 = true ∧
      RegsBut [R.PNL_STAT2] s t ∧ SameMem s t)

/-! ### Ethernet ports and network time (chapter 10) -/

/-- From R427 to R435: on a link that is up a bad frame counts in RX_ERR, a foreign or refused one in RX_DROP; a PTP frame, or a datagram
to the LSX port, joins its queue while it has room, and one that finds the LSX queue full is dropped and counted. The head of the LSX
queue leaves the port, but for a PAUSE the frame on the wire alone; a HOST descriptor is marked DONE in LPDDR5, and passed over where its
bytes come out marked bad (R85; log entry 84). The link is up once its physical layer and auto-negotiation are; the
ring tails take what is written; a neighbour expires, and a frame held for one that does not answer is dropped. -/
def Obligations.EthernetPort : Prop :=
  ∀ (s : State) (who : Initiator) (i : Fin 6) (f : EthFrame) (x : List Byte) (rest : List (List Byte)) (val : Word) (up lk an rf : Bool) (ring : Ecc) (ip : List Byte),
    (s.linkUp i.val = false → exec (.ethRxFrame i f) s = .next s ∧ exec (.ethTxDone i ⟨.lsx, ring⟩) s = .next s) ∧
    (s.linkUp i.val = true →
      ((f.good = false ∨ 1522 < f.bytes.length) → exec (.ethRxFrame i f) s = .next (s.incReg (R.ETH_RX_ERR i.val))) ∧
      (f.good = true → f.bytes.length ≤ 1522 →
        (f.dst = .foreign ∨ udpRefused f.kind = true) → Answers (.ethRxFrame i f) s fun t => t.eth = s.eth ∧
          t.reg (R.ETH_RX_DROP i.val) = s.reg (R.ETH_RX_DROP i.val) + 1 ∧ t.reg (R.ETH_RX_FRAMES i.val) = s.reg (R.ETH_RX_FRAMES i.val) + 1 ∧
          RegsBut [R.ETH_RX_DROP i.val, R.ETH_RX_FRAMES i.val] s t ∧ SameMem s t) ∧
      (f.good = true → f.bytes.length ≤ 1522 → f.dst ≠ .foreign → f.srcIp = [] →
        (f.kind = .ptp → (s.port i.val).rxPtp.length < 32 → Answers (.ethRxFrame i f) s fun t =>
          t.port i.val = { s.port i.val with rxPtp := (s.port i.val).rxPtp ++ [f.bytes] } ∧
          t.reg (R.ETH_RX_FRAMES i.val) = s.reg (R.ETH_RX_FRAMES i.val) + 1 ∧ RegsBut [R.ETH_RX_FRAMES i.val] s t ∧ SameMem s t ∧
          ∀ j, j ≠ i.val → t.port j = s.port j) ∧
        (∀ v6 port cks, f.kind = .udp v6 port cks false false → udpRefused f.kind = false → port ≠ 319 → port ≠ 320 →
          port.toNat = s.fld (R.ETH_CLS_LSX i.val) 15 0 → port.toNat ≠ s.fld (R.ETH_CLS_WIT i.val) 15 0 →
          ((s.port i.val).rxLsx.length < 64 → Answers (.ethRxFrame i f) s fun t =>
            t.port i.val = { s.port i.val with rxLsx := (s.port i.val).rxLsx ++ [f.bytes] } ∧ RegsBut [R.ETH_RX_FRAMES i.val] s t ∧ SameMem s t) ∧
          (64 ≤ (s.port i.val).rxLsx.length → Answers (.ethRxFrame i f) s fun t => t.port i.val = s.port i.val ∧
            t.reg (R.ETH_DROP_CTL i.val) = satIncField (s.reg (R.ETH_DROP_CTL i.val)) 15 0 ∧ SameMem s t))) ∧
      (s.pausedNow i.val = true → (s.port i.val).onWire = false → ∀ q, exec (.ethTxDone i ⟨q, ring⟩) s = .next s) ∧
      ((s.pausedNow i.val = false ∨ (s.port i.val).onWire = true) → (s.port i.val).txLsx = x :: rest → Answers (.ethTxDone i ⟨.lsx, ring⟩) s fun t =>
        t.port i.val = { s.port i.val with txLsx := rest, onWire := (s.port i.val).onWire && !s.pausedNow i.val } ∧
        t.reg (R.ETH_TX_FRAMES i.val) = s.reg (R.ETH_TX_FRAMES i.val) + 1 ∧ RegsBut [R.ETH_TX_FRAMES i.val] s t ∧ SameMem s t) ∧
      ((s.pausedNow i.val = false ∨ (s.port i.val).onWire = true) → (s.port i.val).txOff = [] →
        s.regN (R.ETH_HQ_TX_HEAD i.val) ≠ s.regN (R.ETH_HQ_TX_TAIL i.val) → s.running 208 = true →
        (ring ≠ .uncorrectable → Answers (.ethTxDone i ⟨.host, ring⟩) s fun t => t.dram = wrN s.dram (s.hqTx i.val (s.regN (R.ETH_HQ_TX_HEAD i.val)) + 10) 2 2 ∧
          t.reg (R.ETH_HQ_TX_HEAD i.val) = wd (s.hqNext i.val (s.regN (R.ETH_HQ_TX_HEAD i.val))) ∧ t.yard = s.yard ∧
          t.port i.val = { s.port i.val with onWire := (s.port i.val).onWire && !s.pausedNow i.val } ∧ bit (t.page (112 + i.val)).irqStat 10 = true ∧
          RegsBut [R.ETH_HQ_TX_HEAD i.val, R.ETH_TX_FRAMES i.val, R.DRM_CE_COUNT] s t) ∧
        (ring = .uncorrectable → Answers (.ethTxDone i ⟨.host, ring⟩) s fun t => SameMem s t ∧
          t.reg (R.ETH_HQ_TX_HEAD i.val) = wd (s.hqNext i.val (s.regN (R.ETH_HQ_TX_HEAD i.val))) ∧
          t.reg (R.ETH_RX_ERR i.val) = s.reg (R.ETH_RX_ERR i.val) + 1 ∧ t.reg R.DRM_UE_COUNT = s.reg R.DRM_UE_COUNT + 1 ∧
          RegsBut [R.ETH_HQ_TX_HEAD i.val, R.ETH_RX_ERR i.val, R.DRM_UE_COUNT, R.DRM_UE_ADDR_LO, R.DRM_UE_ADDR_HI] s t))) ∧
    (s.phyUp i.val = true → Answers (.linkChg i up lk an rf) s fun t =>
      t.flag (R.ETH_LINK i.val) 0 = (up && lk && (!(s.fld (R.ETH_MODE i.val) 1 0 == 2 && s.flag (R.ETH_MODE i.val) 4) || an)) ∧
      t.flag (R.ETH_LINK i.val) 1 = lk ∧ t.flag (R.ETH_LINK i.val) 2 = an ∧ t.flag (R.ETH_LINK i.val) 3 = rf ∧ bit (t.page (112 + i.val)).irqStat 8 = true ∧ RegsBut [R.ETH_LINK i.val] s t ∧ SameMem s t) ∧
    (s.phyUp i.val = false → exec (.linkChg i up lk an rf) s = .next s) ∧
    (MayWrite who (R.ETH_HQ_TX_TAIL i.val) s = true → exec (.hqTxTail who i val) s = .next ((s.answer 0).setReg (R.ETH_HQ_TX_TAIL i.val) val)) ∧
    (MayWrite who (R.ETH_HQ_RX_TAIL i.val) s = true → exec (.hqRxTail who i val) s = .next ((s.answer 0).setReg (R.ETH_HQ_RX_TAIL i.val) val)) ∧
    (Answers (.nbExpire i ip) s fun t => (∀ e, e ∈ (t.port i.val).nb → e.ip ≠ ip) ∧ (t.port i.val).held = (s.port i.val).held ∧ t.regs = s.regs ∧
      SameMem s t ∧ ∀ j, j ≠ i.val → t.port j = s.port j) ∧
    ((s.port i.val).held.any (fun h => h.1 == ip) = true → Answers (.nbMiss i ip) s fun t => (∀ h, h ∈ (t.port i.val).held → h.1 ≠ ip) ∧
      t.reg (R.ETH_NB_MISS i.val) = s.reg (R.ETH_NB_MISS i.val) + 1 ∧ RegsBut [R.ETH_NB_MISS i.val] s t ∧ SameMem s t) ∧
    ((s.port i.val).held.any (fun h => h.1 == ip) = false → exec (.nbMiss i ip) s = .next s)

/-- From R438, R442, R443, R447, R451, R453: a read of TIME_NS latches the time of one clock; SET steps every copy of device time and SECONDS arms
the seconds set, both only with STEP_EN; a PPS_IN edge is captured and, under discipline with no port SLAVE, carries the armed set out
where STEP_EN still allows it and is else taken as a whole second (log entry 59); HOLDOVER expires to FREE; PPS_OUT rises as its mode
allows, not within 100 ms of the rise before, and falls. -/
def Obligations.DeviceTime : Prop :=
  ∀ (s : State) (who : Initiator) (incr : BitVec 40),
    (MayRead who R.PTP_TIME_NS s = true → Answers (.timeNs who) s fun t => t.resp = ⟨nsField s.time.cnt, false⟩ ∧
      t.time = { s.time with latS := BitVec.ofNat 48 (secOf s.time.cnt), latF := wd s.time.cnt } ∧ t.regs = s.regs ∧ SameMem s t) ∧
    (MayWrite who R.PTP_TCMD s = true →
      (s.flag R.PTP_STEP_EN 0 = true →
        (Answers (.set who) s fun t => t.time.cnt = s.setTimeOf (s.regN R.PTP_SET_NS) ∧ t.time.aon = t.time.cnt ∧ t.time.log = t.time.cnt ∧
          t.time.nsu = t.time.cnt ∧ t.time.kpr = t.time.cnt ∧ t.time.nvm = t.time.cnt ∧ t.time.lastIncr = s.time.lastIncr ∧
          t.reg R.PTP_STEPS = s.reg R.PTP_STEPS + 1 ∧ bit (t.page 120).irqStat 10 = true ∧ RegsBut ([R.PTP_STEPS] ++ evrRegs) s t ∧ SameMem s t) ∧
        Answers (.seconds who) s fun t => t.ptp = { s.ptp with secArm := true } ∧ t.time = s.time ∧ t.regs = s.regs ∧ SameMem s t) ∧
      (s.flag R.PTP_STEP_EN 0 = false → exec (.set who) s = .next ((s.answer 0).emit evStepRefused 120 []) ∧
        exec (.seconds who) s = .next ((s.answer 0).emit evStepRefused 120 []))) ∧
    (∀ u, u = (if s.locked 8 = true then s.capAccept 24 (!s.flag R.PTP_PPS_CFG 4) false else s) →
      ((s.running 120 = false ∨ s.locked 8 = false ∨ s.fld R.PTP_PPS_CFG 3 2 ≠ 2 ∨ s.anyPort 9 = true) → exec (.ppsIn incr) s = .next u) ∧
      (s.running 120 = true → s.locked 8 = true → s.fld R.PTP_PPS_CFG 3 2 = 2 → s.anyPort 9 = false →
        (s.ptp.secArm = true → s.flag R.PTP_STEP_EN 0 = true → Answers (.ppsIn incr) s fun t => t.time.cnt = s.setTimeOf 0 ∧ t.ptp.secArm = false ∧
          t.reg R.PTP_STEPS = s.reg R.PTP_STEPS + 1 ∧ SameMem s t) ∧
        ((s.ptp.secArm = false ∨ s.flag R.PTP_STEP_EN 0 = false) → exec (.ppsIn incr) s =
          .next (({ u with ptp := { u.ptp with secArm := false } } : State).ppsSecond incr.toNat)) ∧
        ∀ v : State, v.servo = 1 ∨ v.servo = 2 ∨ v.servo = 4 → v.ppsSecond incr.toNat = ({ v with ptp := { v.ptp with everPps := true } } : State).servoOffset
          (let ns : Int := ((nsField v.time.cnt).toNat : Int)
           if ns < 500000000 then ns else ns - 1000000000) incr.toNat false)) ∧
    (s.running 120 = true → s.servo = 3 → Answers .holdoverExpire s fun t => t.servo = 0 ∧ RegsBut [R.PTP_SERVO_STAT] s t ∧ SameMem s t) ∧
    ((s.servo ≠ 3 ∨ s.running 120 = false) → exec .holdoverExpire s = .next s) ∧
    (s.running 120 = true → s.fld R.PTP_PPS_CFG 3 2 = 2 → s.anyPort 9 = false → (s.servo = 1 ∨ s.servo = 2) →
      Answers .ppsInLoss s fun t => t.servo = 3 ∧ t.time = s.time ∧ SameMem s t) ∧
    (s.running 120 = true → (∀ t, s.ptp.ppsLast = some t → t + (100 * tMs : Nat) ≤ s.time.cnt) → (s.fld R.PTP_PPS_CFG 1 0 = 2 ∨ (s.fld R.PTP_PPS_CFG 1 0 = 1 ∧ (s.servo = 2 ∨ s.servo = 4))) →
      Answers .ppsOut s fun t => t.ptp = { s.ptp with ppsHigh := true, ppsLast := some s.time.cnt } ∧ bit (t.page 120).irqStat 11 = true ∧
        t.regs = s.regs ∧ SameMem s t) ∧
    ((∃ t, s.ptp.ppsLast = some t ∧ s.time.cnt < t + (100 * tMs : Nat)) → exec .ppsOut s = .next s) ∧
    ((s.running 120 = false ∨ s.fld R.PTP_PPS_CFG 1 0 = 0 ∨ s.fld R.PTP_PPS_CFG 1 0 = 3) → exec .ppsOut s = .next s) ∧
    (s.ptp.ppsHigh = true → Answers .ppsPulseEnd s fun t => t.ptp = { s.ptp with ppsHigh := false } ∧ bit (t.page 120).irqStat 11 = true ∧
      t.regs = s.regs ∧ SameMem s t) ∧
    (s.ptp.ppsHigh = false → exec .ppsPulseEnd s = .next s)

/-- From R445 to R450: a Sync on a SLAVE port in RUN measures an offset, a two-step one with its Follow_Up; MASTER ports send Sync, Announce and
Delay_Resp, SLAVE ports Delay_Req, and in a P2P profile every port its Pdelay messages; a delay answer is shown; an Announce decides
the port states and shows the grandmaster; a management message is dropped; a port that is not in PORTS answers nothing. -/
def Obligations.PtpMessages : Prop :=
  ∀ (s : State) (port : Fin 6) (g : Bool) (x y : PtpTimes) (incr : BitVec 40) (a : PtpAnnounce) (d : Word) (sts : List (BitVec 4)),
    (s.ptpOn port.val = true → s.ptpPort port.val = 9 →
      (exec (.sync port true g x incr) s = .next { s with ptp := { s.ptp with twoStep := some x, newGm := g || s.ptp.newGm } }) ∧
      (exec (.sync port false g x incr) s = .next (({ s with ptp := { s.ptp with newGm := false } } : State).servoOffset
        (s.syncOffset port.val x) incr.toNat (g || s.ptp.newGm))) ∧
      (s.ptp.twoStep = some y → exec (.followUp port x incr) s = .next (({ s with ptp := { s.ptp with newGm := false, twoStep := none } } : State).servoOffset
        (s.syncOffset port.val ⟨x.origin, y.rx, y.corr + x.corr⟩) incr.toNat s.ptp.newGm)) ∧
      (s.ptpE2e = true → exec (.delayReq port false) s = .next (s.ptpSend 1 port.val) ∧
        exec (.delayResp port d) s = .next (s.setReg R.PTP_MPD_NS d))) ∧
    (s.ptpOn port.val = true → s.ptpPort port.val = 6 →
      exec (.syncSend port) s = .next (s.ptpSend 0 port.val) ∧
      exec (.announceSend port) s = .next (s.ethSend port.val .ptp
        ([0xB, BitVec.ofNat 8 port.val, BitVec.ofNat 8 s.annClass] ++ leBytes 4 (s.regN R.PTP_UTC_OFFSET))) ∧
      (s.ptpE2e = true → exec (.delayReq port true) s = .next (s.ethSend port.val .ptp (ptpMsg 9 port.val s.time.cnt)))) ∧
    (s.ptpOn port.val = true →
      exec (.announceReceiptTimeout port sts) s = .next (s.setPorts sts) ∧
      (s.ptpE2e = false → exec (.pdelayReq port) s = .next (s.pdelayAnswer port.val) ∧ exec (.pdelayReqSend port) s = .next (s.ptpSend 2 port.val) ∧
        exec (.pdelayResp port d) s = .next (s.setReg R.PTP_MPD_NS d)) ∧
      ((s.setPorts a.states).ptpPort port.val = 9 → Answers (.announce port a) s fun t => t.reg R.PTP_GM_ID_LO = a.gm.setWidth 32 ∧
        t.reg R.PTP_GM_ID_HI = (a.gm >>> 32).setWidth 32 ∧ t.reg R.PTP_UTC_OFS_RX = a.utc ∧ t.fld R.PTP_SERVO_STAT 15 8 = a.cls.toNat ∧
        t.ptp.traceGm = a.trace ∧ t.reg R.PTP_PORT_STATE = (s.setPorts a.states).reg R.PTP_PORT_STATE ∧ SameMem s t) ∧
      ((s.setPorts a.states).ptpPort port.val ≠ 9 → exec (.announce port a) s = .next (s.setPorts a.states))) ∧
    (∀ j, j < 6 → (s.setPorts sts).ptpPort j =
      if (s.fld R.PTP_CFG 13 8).testBit j = false then 3
      else if s.flag R.PTP_CFG 5 = true ∧ sts.getD j 0 = 6 then 4 else (sts.getD j 0).toNat) ∧
    exec (.management port) s = .next s ∧
    (s.ptpOn port.val = false → exec (.sync port false g x incr) s = .next s ∧ exec (.syncSend port) s = .next s ∧
      exec (.announce port a) s = .next s ∧ exec (.delayReq port true) s = .next s ∧ exec (.pdelayReq port) s = .next s)

/-! ### Valve axes (chapter 12), metering, pulses and balls (chapter 13) -/

/-- From R486 to R515: a link that runs on a side that is not primary sends its frame and counts it, its axes where they were, and none
after a FORCE_STOP, in FAULT or while the pads' island is not locked; a reply of the wrong length counts as missed; a command to an axis is refused by the state of its link,
its driver, its motion or its encoder, or carried out and answered, with every other axis as it was; hold, reply loss and link loss act on
an enabled axis alone. -/
def Obligations.DriveAxes : Prop :=
  ∀ (s : State) (who : Initiator) (n : Fin 8) (d : Fin 16) (axis : Fin 128) (b : List Byte) (a : Nat), a = axis.val →
    (s.shown (dlkPage n.val) = 3 → (s.dlk.get (fun _ => {}) n.val).silent = false → s.locked 8 = true → s.pwr.saving = false →
      s.linkPrimary = false → Answers (.dlkFrame n) s fun t => t.reg (R.DLK_FRAMES n.val) = s.reg (R.DLK_FRAMES n.val) + 1 ∧
        (t.dlk.get (fun _ => {}) n.val).frame = s.dlkBytes n.val ∧ (∀ m, (t.axis m).p = (s.axis m).p ∧ (t.axis m).st = (s.axis m).st) ∧
        RegsBut [R.DLK_FRAMES n.val] s t ∧ SameMem s t) ∧
    (((s.dlk.get (fun _ => {}) n.val).silent = true ∨ s.shown (dlkPage n.val) = 4 ∨ s.locked 8 = false) → exec (.dlkFrame n) s = .next s) ∧
    (s.shown (dlkPage n.val) ≠ 0 → s.locked 8 = true → s.axEnabled (16 * n.val + d.val) = true → b.length ≠ 8 → s.role = rStandby → ∃ u : State,
      exec (.dlkReply n d b) s = .next u.fenceContest ∧ u.reg (R.DLK_RX_MISS n.val) = s.reg (R.DLK_RX_MISS n.val) + 1 ∧ u.axes = s.axes ∧
      RegsBut [R.DLK_ERRS (16 * n.val + d.val), R.DLK_RX_MISS n.val] s u ∧ SameMem s u) ∧
    ((s.axEnabled (16 * n.val + d.val) = false ∨ s.locked 8 = false) → exec (.dlkReply n d b) s = .next s.fenceContest) ∧
    (MayWrite who R.AXS_CMD s = true →
      (s.running (dlkPage (a / 16)) = false → exec (.reference who axis) s = .next ((s.answer 0).cmdDone a 4) ∧
        exec (.setPos who axis) s = .next ((s.answer 0).cmdDone a 4) ∧ exec (.clear who axis) s = .next ((s.answer 0).cmdDone a 4) ∧
        exec (.halt who axis) s = .next ((s.answer 0).cmdDone a 4)) ∧
      (s.running (dlkPage (a / 16)) = true → s.axEnabled a = false → exec (.reference who axis) s = .next ((s.answer 0).cmdDone a 2) ∧
        exec (.setPos who axis) s = .next ((s.answer 0).cmdDone a 2)) ∧
      (s.running (dlkPage (a / 16)) = true → s.axEnabled a = true →
        (s.axBusy a = true → exec (.reference who axis) s = .next ((s.answer 0).cmdDone a 1) ∧
          exec (.setPos who axis) s = .next ((s.answer 0).cmdDone a 1)) ∧
        (s.axBusy a = false → s.encFs a = 0 → exec (.reference who axis) s = .next ((s.answer 0).cmdDone a 5)) ∧
        (s.axBusy a = false → s.encFs a ≠ 0 → (s.axis a).st ≠ .stalled → (s.axis a).st ≠ .fault → Answers (.reference who axis) s fun t =>
          (t.axis a).st = .referencing ∧
          (t.axis a).p = (s.axis a).p ∧ (t.axis a).referenced = false ∧ (t.axis a).v = s.vStart a ∧ t.reg R.AXS_CMD_STAT = wd (256 * a) ∧
          (∀ m, m ≠ a → t.axis m = s.axis m) ∧ RegsBut [R.AXS_CMD_STAT] s t ∧ SameMem s t) ∧
        (s.axBusy a = false → Answers (.setPos who axis) s fun t => (t.axis a).p = (s.reg R.AXS_CMD_ARG).toInt ∧
          (t.axis a).target = (t.axis a).p ∧ (t.axis a).referenced = true ∧ t.axAddr a = s.axAddr a ∧
          (∀ m, m ≠ a → t.axis m = s.axis m) ∧ RegsBut [R.AXS_CMD_STAT] s t ∧ SameMem s t) ∧
        ((s.axis a).st = .stalled → Answers (.clear who axis) s fun t => (t.axis a).st = .standstill ∧
          (t.axis a).p = (s.axis a).p + (s.axis a).dev ∧ t.axAddr a = s.axAddr a ∧ t.reg R.AXS_CMD_STAT = wd (256 * a) ∧ SameMem s t) ∧
        ((s.axis a).st = .fault → (s.axis a).status.getLsbD 0 = true → Answers (.clear who axis) s fun t => t.axes = s.axes ∧ SameMem s t) ∧
        ((s.axis a).st = .moving → Answers (.halt who axis) s fun t => t.axis a = { s.axis a with halting := true, newTgt := none } ∧
          (∀ m, m ≠ a → t.axis m = s.axis m) ∧ RegsBut [R.AXS_CMD_STAT] s t ∧ SameMem s t))) ∧
    ((s.axis a).holding = true → exec (.tholdExpire axis) s = .next (s.setAxis a { s.axis a with holding := false })) ∧
    ((s.axis a).holding = false → exec (.tholdExpire axis) s = .next s) ∧
    (s.axEnabled a = true → s.shown (dlkPage (a / 16)) ≠ 0 →
      exec (.replyLost axis) s = .next (s.setAxis a { s.axis a with repLost := true }) ∧
      exec (.linkLoss axis) s = .next (s.irq (dlkPage (a / 16)) 11)) ∧
    (s.axEnabled a = false → exec (.replyLost axis) s = .next s ∧ exec (.linkLoss axis) s = .next s)

/-- From R517 to R547: samples and ticks never take from a total; an averaging period ends with its sums anew; an interval latches its
number and starts from zero, and publishes nothing if no sample was taken; a read of a total's low word latches its high word; a pulse
tick acts on every output, and a pulse starts when the residue holds a weight; a width ends with its gap; a level change counts an edge,
and is a cause for an input alone. -/
def Obligations.MeteringAndPulses : Prop :=
  ∀ (s : State) (who : Initiator) (y : List Int) (stuck : BitVec 48) (sel : Fin 128) (o g : Fin 16) (lv : Bool) (k : Nat),
    (s.active 176 = true → s.pwr.saving = false →
      (Answers (.mtrSample y stuck) s fun t => geti s.mtr.acc k ≤ geti t.mtr.acc k ∧ t.mtr.lastT = s.time.log ∧ t.mtr.means = s.mtr.means ∧
        SameMem s t) ∧
      (Answers .thermalTick s fun t => geti s.mtr.acc k ≤ geti t.mtr.acc k ∧ (t.mtr.ring.map (·.ms)).head? = some (s.time.log / tMs) ∧
        t.mtr.ring.length ≤ 128 ∧ SameMem s t) ∧
      (Answers .avgPeriodEnd s fun t => t.mtr.sums = [] ∧ t.mtr.sumN = [] ∧ t.mtr.worst = [] ∧ t.mtr.acc = s.mtr.acc ∧ t.mtr.part = s.mtr.part ∧
        SameMem s t)) ∧
    (s.active 176 = false → exec (.mtrSample y stuck) s = .next s ∧ exec .thermalTick s = .next s ∧ exec .avgPeriodEnd s = .next s) ∧
    (s.up 3 = true → s.pwr.saving = false →
      (s.mtr.sampled = true → Answers .intervalEnd s fun t => t.reg R.MTR_INT_NO = wd (secOf s.time.log / max 1 (s.regN R.MTR_INT_S)) ∧
        t.mtr.part = [] ∧ t.mtr.acc = s.mtr.acc ∧ bit (t.page 176).irqStat 8 = true ∧ SameMem s t) ∧
      (s.mtr.sampled = false → Answers .intervalEnd s fun t => t.regs = s.regs ∧ t.pages = s.pages ∧ t.mtr.part = [] ∧ t.mtr.acc = s.mtr.acc ∧
        SameMem s t)) ∧
    (MayRead who (totalAddr sel.val) s = true → Answers (.totalLoRead who sel) s fun t => t.resp = ⟨lo32 (s.visible sel.val), false⟩ ∧
      t.totalHi sel.val = hi32 (s.visible sel.val) ∧ t.regs = s.regs ∧ t.mtr.acc = s.mtr.acc ∧ SameMem s t) ∧
    (s.running 225 = true → s.pwr.saving = false →
      exec .pulseTick s = .next ((List.range 16).foldl (fun s o => (s.pulseInput o).pulseStart o) s)) ∧
    ((s.pulse o.val).high = false → (s.pulse o.val).gap = 0 → s.acts = true → s.fld (R.PLS_CFG o.val) 1 0 ≠ 0 →
      ((s.regN (R.PLS_WEIGHT o.val) * 2 ^ 32 : Nat) : Int) ≤ (s.pulse o.val).res →
        (s.pulseStart o.val).pulse o.val = { s.pulse o.val with
          high := true, res := (s.pulse o.val).res - ((s.regN (R.PLS_WEIGHT o.val) * 2 ^ 32 : Nat) : Int) } ∧
        (s.pulseStart o.val).reg (R.PLS_COUNT o.val) = s.reg (R.PLS_COUNT o.val) + 1) ∧
    ((s.active 225 = false ∨ s.pwr.saving = true) → exec .pulseTick s = .next s) ∧
    ((s.pulse o.val).high = true → Answers (.pulseWidthEnd o) s fun t =>
      t.pulse o.val = { s.pulse o.val with high := false, gap := s.fld (R.PLS_GAP_US o.val) 19 0 } ∧
      (∀ m, m ≠ o.val → t.pulse m = s.pulse m) ∧ t.regs = s.regs ∧ SameMem s t) ∧
    ((s.pulse o.val).high = false → exec (.pulseWidthEnd o) s = .next s) ∧
    (MayRead who (R.PLS_RES_LO o.val) s = true → Answers (.resLoRead who o) s fun t => t.resp = ⟨lo32 (s.resNat o.val), false⟩ ∧
      t.resHi o.val = (hi32 (s.resNat o.val), wd (s.resNat o.val / 2 ^ 64)) ∧ (t.pulse o.val).res = (s.pulse o.val).res ∧ t.regs = s.regs ∧
      SameMem s t) ∧
    (s.running 224 = true → s.locked 8 = true → s.flag R.GPIO_IN g.val ≠ lv → Answers (.gpioInChg g lv) s fun t => t.flag R.GPIO_IN g.val = lv ∧
      t.reg (R.GPIO_EDGE g.val) = s.reg (R.GPIO_EDGE g.val) + 1 ∧ (s.flag R.GPIO_DIR g.val = false → bit (t.page 224).irqStat 8 = true) ∧
      (s.flag R.GPIO_DIR g.val = true → t.pages = s.pages) ∧ RegsBut [R.GPIO_IN, R.GPIO_EDGE g.val] s t ∧ SameMem s t) ∧
    ((s.flag R.GPIO_IN g.val = lv ∨ s.locked 8 = false) → exec (.gpioInChg g lv) s = .next s)

/-! ### Capture (chapter 10) and CAN FD (chapter 11) -/

/-- From R454, R455: an edge that CFG selects, its island locked, counts and is stamped at the end of the FIFO, which drops it and sets OVF when it holds 16; a
read of TS_NS latches the oldest stamp and answers its nanoseconds; a read of TS_SH answers the latched word and takes the stamp out. -/
def Obligations.CaptureFifo : Prop :=
  ∀ (s : State) (who : Initiator) (n : Fin 25) (rising : Bool) (x : Stamp) (rest : List Stamp),
    (s.locked 8 = true → s.running 121 = true → (if rising then s.flag (R.CAP_CFG n.val) 0 else s.flag (R.CAP_CFG n.val) 1) = true →
      (s.capCh n.val).fifo.length < 16 → Answers (.capEdge n rising false) s fun t =>
        (t.capCh n.val).fifo = (s.capCh n.val).fifo ++ [⟨nsField s.time.log, BitVec.ofNat 48 (secOf s.time.log), rising⟩] ∧
        (t.capCh n.val).latch = (s.capCh n.val).latch ∧ t.reg (R.CAP_CNT n.val) = s.reg (R.CAP_CNT n.val) + 1 ∧
        RegsBut [R.CAP_CNT n.val] s t ∧ SameMem s t ∧ ∀ m, m ≠ n.val → t.capCh m = s.capCh m) ∧
    (s.locked 8 = false → exec (.capEdge n rising false) s = .next s) ∧
    (s.locked 8 = true → s.running 121 = true → (if rising then s.flag (R.CAP_CFG n.val) 0 else s.flag (R.CAP_CFG n.val) 1) = true →
      16 ≤ (s.capCh n.val).fifo.length → Answers (.capEdge n rising false) s fun t =>
        (t.capCh n.val).fifo = (s.capCh n.val).fifo ∧ t.flag (R.CAP_OVF) n.val = true ∧
        t.reg (R.CAP_CNT n.val) = s.reg (R.CAP_CNT n.val) + 1 ∧ bit (t.page 121).irqStat 9 = true ∧ SameMem s t) ∧
    (MayRead who (R.CAP_TS_NS n.val) s = true → (s.capCh n.val).fifo = x :: rest → Answers (.capTsNs who n) s fun t =>
        t.resp = ⟨x.ns, false⟩ ∧ (t.capCh n.val).latch = some x ∧ (t.capCh n.val).fifo = x :: rest ∧
        t.reg (R.CAP_TS_NS n.val) = x.ns ∧ t.reg (R.CAP_TS_S n.val) = x.s.setWidth 32 ∧
        t.reg (R.CAP_TS_SH n.val) = wd (x.s.toNat / 2 ^ 32 + 2 ^ 16 * b2n x.edge + 2 ^ 17 * rest.length) ∧
        RegsBut [R.CAP_TS_NS n.val, R.CAP_TS_S n.val, R.CAP_TS_SH n.val] s t ∧ SameMem s t) ∧
    (MayRead who (R.CAP_TS_NS n.val) s = true → (s.capCh n.val).fifo = [] → Answers (.capTsNs who n) s fun t =>
        t.resp = ⟨0, false⟩ ∧ bit (t.reg (R.CAP_TS_SH n.val)) 31 = true ∧ (t.capCh n.val).fifo = [] ∧ SameMem s t) ∧
    (MayRead who (R.CAP_TS_SH n.val) s = true → (s.capCh n.val).fifo = x :: rest → (s.capCh n.val).latch = some x →
      Answers (.capTsSh who n) s fun t => t.resp = ⟨s.reg (R.CAP_TS_SH n.val), false⟩ ∧ (t.capCh n.val).fifo = rest ∧
        (t.capCh n.val).latch = none ∧ t.regs = s.regs ∧ SameMem s t)

/-- From R468 to R472: a valid data frame that a filter takes goes to the filter's mailbox with its time, replacing the frame there; a frame that
no filter takes is dropped and counted, as is a remote frame. In restricted operation no error counter moves (R481). -/
def Obligations.CanFrameFiltered : Prop :=
  ∀ (s : State) (n : Fin 12) (f : CanFrame) (k : Nat), s.active (canPage n.val) = true → s.locked 8 = true → s.canSt n.val < 2 → s.canRestricted = true →
    (f.rtr = false → (List.range 16).find? (fun k => s.filterHit n.val k f) = some k → s.flag (R.CAN_FLT_CFG n.val k) 2 = false →
      Answers (.canRxFrame n f) s fun t =>
        (t.canCh n.val).mbox.get (fun _ => none) k =
          some { f := f, t := s.time.log, filt := some k, gen := (s.blk (canPage n.val)).gen } ∧
        (t.canCh n.val).fifo = (s.canCh n.val).fifo ∧ t.reg (R.CAN_RX_FRAMES n.val) = s.reg (R.CAN_RX_FRAMES n.val) + 1 ∧
        RegsBut [R.CAN_RX_FRAMES n.val] s t ∧ SameMem s t) ∧
    ((f.rtr = true ∨ ((List.range 16).find? (fun k => s.filterHit n.val k f) = none ∧ s.flag (R.CAN_RX_CFG n.val) 0 = false)) →
      Answers (.canRxFrame n f) s fun t =>
        t.reg (R.CAN_RX_DROP n.val) = s.reg (R.CAN_RX_DROP n.val) + 1 ∧ t.canCh n.val = s.canCh n.val ∧
        RegsBut [R.CAN_RX_FRAMES n.val, R.CAN_RX_DROP n.val] s t ∧ SameMem s t)

/-- From R471: a read of a window word answers the word of the oldest FIFO entry and latches it; the read of its release word takes it out. -/
def Obligations.CanFifoWindow : Prop :=
  ∀ (s : State) (who : Initiator) (n : Fin 12) (i : Fin 20) (m : CanMsg) (rest : List CanMsg), (s.canCh n.val).fifo = m :: rest →
    (MayRead who (pageBase (canPage n.val) + (0x940 + 4 * i.val)) s = true → 0x940 + 4 * i.val ≠ relOfs m →
      Answers (.rxfLatch who n (BitVec.ofNat 8 i.val)) s fun t => t.resp = ⟨winWord m (0x940 + 4 * i.val), false⟩ ∧
        t.canCh n.val = { s.canCh n.val with latched := true } ∧ t.regs = s.regs ∧ SameMem s t) ∧
    (MayRead who (pageBase (canPage n.val) + relOfs m) s = true →
      Answers (.rxfRelease who n) s fun t => t.resp = ⟨winWord m (relOfs m), false⟩ ∧
        t.canCh n.val = { s.canCh n.val with fifo := rest, latched := false } ∧
        t.reg (R.CAN_RXF_LEVEL n.val) = wd rest.length ∧ RegsBut [R.CAN_RXF_LEVEL n.val] s t ∧ SameMem s t)

/-- From R473 to R475: REQ makes an IDLE buffer PENDING in RUN; at an idle bus the PENDING buffer that MODE.ORDER chooses becomes ACTIVE; a lost
arbitration makes it PENDING again; ABORT of a PENDING buffer ends it CANCELLED and an idle buffer 0 takes the next queued object; no frame starts once
a save runs; an ABORT of an ACTIVE one waits for the attempt's end. -/
def Obligations.CanTransmitBuffers : Prop :=
  ∀ (s : State) (who : Initiator) (n : Fin 12) (b : Nat), b < 3 →
    (MayWrite who (R.CAN_TXB_CMD n.val) s = true → s.running (canPage n.val) = true → s.txbSt n.val 1 = 0 →
      exec (.txbReq who n true false) s =
        .next ((s.answer 0).setTxb n.val 1 1 (s.fld (R.CAN_TXB_STAT n.val) 7 6))) ∧
    (MayWrite who (R.CAN_TXB_CMD n.val) s = true → s.txbSt n.val 0 = 1 →
      exec (.txbAbort who n 1) s = .next (((s.answer 0).txbEnd n.val 0 2).canFeed n.val)) ∧
    (s.running (canPage n.val) = true → s.locked 8 = true → s.pwr.saving = false → s.acts = true → s.plk.applied = false → s.flag (R.CAN_MODE n.val) 4 = false → s.canSt n.val < 2 →
      (∀ c, c < 3 → s.txbSt n.val c ≠ 2) → (s.canCh n.val).queue = [] → s.arbPick n.val = some b →
      exec (.canArbitration n) s =
        .next (s.setTxb n.val b 2 (s.fld (R.CAN_TXB_STAT n.val) (4 * b + 3) (4 * b + 2)))) ∧
    ((s.plk.applied = true ∨ s.pwr.saving = true) → exec (.canArbitration n) s = .next s) ∧
    (s.txbSt n.val 0 = 2 → s.flag (R.CAN_TXB_CTL n.val 0) 4 = false → (s.canCh n.val).aborts.contains 0 = false →
      exec (.canTxEnd n .lostArb) s = .next (s.setTxb n.val 0 1 (s.fld (R.CAN_TXB_STAT n.val) 3 2))) ∧
    ((s.setTxb n.val b 1 0).txbSt n.val b = 1 ∧ ((s.txbEnd n.val b 2).txbSt n.val b = 0)) ∧
    (∀ c, c < 3 → c ≠ b → (s.setTxb n.val b 1 0).txbSt n.val c = s.txbSt n.val c)

/-- From R477, R478, R481: a bus error adds to the counters that it names and the confinement state follows them: bus off above 255 of TEC,
passive above 127 of either, else active; 128 sequences end the recovery with both counters 0; REC_REQ starts the recovery of a bus-off
channel; a protocol exception is counted (R464); a filter's timeout marks its mailbox late (R470). -/
def Obligations.CanErrorConfinement : Prop :=
  ∀ (s : State) (who : Initiator) (n : Fin 12) (f : Fin 16) (code up rup : BitVec 4) (tec rxc : Nat) (m : CanMsg),
    (((s.confine n.val tec rxc).fld (R.CAN_ERR n.val) 8 0 = min tec 511 ∧
      (s.confine n.val tec rxc).fld (R.CAN_ERR n.val) 24 16 = min rxc 511) ∧
      (s.flag (R.CAN_MODE n.val) 3 = false →
        (s.confine n.val tec rxc).canSt n.val = if 255 < tec then 2 else if 127 < tec ∨ 127 < rxc then 1 else 0)) ∧
    (s.active (canPage n.val) = true → s.locked 8 = true → code ≠ 0 → s.countsErr n.val = true →
      exec (.canBusError n code up rup) s = .next ((s.setFld (R.CAN_ERR n.val) 31 28 code.toNat).confine n.val
        (s.fld (R.CAN_ERR n.val) 8 0 + up.toNat) (s.fld (R.CAN_ERR n.val) 24 16 + rup.toNat))) ∧
    (s.active (canPage n.val) = true → s.locked 8 = true → exec (.canBusError n 0 up rup) s = .next ((s.incReg (R.CAN_PEX n.val)).irq (canPage n.val) 14)) ∧
    (s.active (canPage n.val) = true → s.locked 8 = true → s.canSt n.val = 3 →
      exec (.recoveryDone n) s = .next ((s.setReg (R.CAN_REC_CNT n.val) 128).confine n.val 0 0)) ∧
    (MayWrite who (R.CAN_TXB_CMD n.val) s = true → s.active (canPage n.val) = true → s.canSt n.val = 2 →
      Answers (.recReq who n) s fun t => t.canSt n.val = 3 ∧ t.reg (R.CAN_REC_CNT n.val) = 0 ∧
        RegsBut [R.CAN_ERR n.val, R.CAN_REC_CNT n.val] s t ∧ SameMem s t) ∧
    ((s.canCh n.val).mbox.get (fun _ => none) f.val = some m → m.late = false → s.fld (R.CAN_FLT_CFG n.val f.val) 31 16 ≠ 0 →
      Answers (.filterTimeout n f) s fun t => (t.canCh n.val).mbox.get (fun _ => none) f.val = some { m with late := true } ∧
        bit (t.page (canPage n.val)).irqStat 15 = true ∧ t.regs = s.regs ∧ SameMem s t)

/-! ### The pair (chapter 14) -/

/-- A frame of the pair link is taken: PLK is at work, its lane is up, its protocol is supported (R7) and it is the first copy (R553). -/
def Sys2Proof.Machine.State.pairTakes (s : State) (h : PairHdr) (queue : Nat) : Prop :=
  s.active 128 = true ∧ s.locked 7 = true ∧ s.flag R.PLK_LANE_STAT h.lane.val = true ∧ badProto h = false ∧ s.dup queue h.seq = false

/-- From R7, R553 to R558: a heartbeat takes the next sequence of its queue, one for both paths, and waits before every other frame of a lane;
one of a protocol that is not supported is recorded and not used; a valid one of the other side is noted with its epoch, its
protocol and its FIT; one of this side's own strap is a clash; a later copy of a frame changes nothing; a witness frame whose tag fails is
counted alone; a path that falls silent is shown and recorded while the other lives; lanes come and go. -/
def Obligations.PairHeartbeats : Prop :=
  ∀ (s : State) (h : PairHdr) (b : Heartbeat) (raw : List Byte) (l : Fin 2),
    (s.running 128 = true → s.pairLink = true → Answers .heartbeatSend s fun t =>
      t.plk.seqTx.get (fun _ => 0) 0 = (s.plk.seqTx.get (fun _ => 0) 0 + 1) % 2 ^ 32 ∧
      t.plk.lastTx.drop 24 = s.hbPayload ∧ SameMem s t ∧
      (s.laneUp l.val = true → (t.lane l.val).hb = (s.lane l.val).hb ++ [s.plkFrame 1 0 0 false s.hbPayload])) ∧
    (s.running 128 = false → exec .heartbeatSend s = .next s) ∧
    (s.pairTakes h 0 →
      (h.sideB ≠ s.sideB → b.protoMax ≠ 0 → s.role = 2 → h.fit = true → Answers (.heartbeat h b) s fun t =>
        t.plk.partner = some b ∧ t.plk.hbPair = some s.time.log ∧ t.plk.hbWit = s.plk.hbWit ∧ t.plk.pActing = h.acting ∧ t.plk.pFit = true ∧
        t.plk.fitClear = 0 ∧ t.flag R.PLK_PAIR_STAT 4 = true ∧ t.fld R.PLK_PAIR_STAT 7 6 = (min s.ownProto b.protoMax.toNat) % 4 ∧
        t.role = 2 ∧ t.reg R.PLK_PARTNER_EPOCH = h.epoch ∧ RegsBut [R.PLK_PAIR_STAT, R.PLK_PARTNER_EPOCH] s t ∧ SameMem s t) ∧
      (h.sideB ≠ s.sideB → b.protoMax = 0 → Answers (.heartbeat h b) s fun t => (t.page 128).errcode = 0x102 ∧ RegsBut evrRegs s t ∧ SameMem s t) ∧
      (h.sideB = s.sideB → s.role = 0 → Answers (.heartbeat h b) s fun t => (t.page 128).errcode = 0x103 ∧ t.role = 0 ∧ RegsBut evrRegs s t ∧
        SameMem s t)) ∧
    ((s.flag R.PLK_LANE_STAT h.lane.val = false ∨ (badProto h = false ∧ s.dup 0 h.seq = true)) → exec (.heartbeat h b) s = .next s) ∧
    (s.active 128 = true → s.locked 7 = true → s.flag R.PLK_LANE_STAT h.lane.val = true → h.proto = 3 →
      exec (.heartbeat h b) s = .next ((s.setReg R.PLK_LANE_ERR (satIncField (s.reg R.PLK_LANE_ERR) 15 0)).emit evPairVersion 128 [3])) ∧
    (s.active 128 = true →
      ((raw.length ≠ 72 ∨ raw.drop (raw.length - 16) ≠ kmac256 (s.slotKey (s.fld R.PLK_WIT_KEY_SLOT 3 0)) (raw.take (raw.length - 16)) 16 "PLK2 WIT") →
        exec (.witnessHeartbeat raw) s = .next (s.setReg R.PLK_LANE_ERR (satIncField (s.reg R.PLK_LANE_ERR) 31 16))) ∧
      (raw.length = 72 → raw.getD 1 0 = 1 → (raw.getD 0 0 = 1 ∨ raw.getD 0 0 = 2) →
        raw.drop 56 = kmac256 (s.slotKey (s.fld R.PLK_WIT_KEY_SLOT 3 0)) (raw.take 56) 16 "PLK2 WIT" → ∃ g c,
        exec (.witnessHeartbeat raw) s = .next (s.hear true g c) ∧ g.sideB = (fieldN raw 2 1).testBit 0 ∧ g.acting = (fieldN raw 2 1).testBit 1 ∧
        g.fit = (fieldN raw 2 1).testBit 2 ∧ g.epoch = wd (fieldN raw 8 4) ∧ c.role = raw.getD 24 0 ∧ c.protoMax = raw.getD 25 0 ∧
        c.cycle = BitVec.ofNat 64 (fieldN (raw.drop 24) 4 8))) ∧
    (s.running 128 = true → s.flag R.PLK_PAIR_STAT 5 = true → Answers (.pathSilent false) s fun t => t.flag R.PLK_PAIR_STAT 4 = false ∧
      t.flag R.PLK_PAIR_STAT 5 = true ∧ t.role = s.role ∧ bit (t.page 128).irqStat 9 = true ∧ RegsBut ([R.PLK_PAIR_STAT] ++ evrRegs) s t ∧
      SameMem s t) ∧
    (s.running 128 = true → s.flag R.PLK_PAIR_STAT 4 = false → ∀ u, u = s.setFlag R.PLK_PAIR_STAT 5 false →
      (s.mayTake = true → exec (.pathSilent true) s = .next (u.takeOver true)) ∧
      (s.role = 1 → s.proto = 2 → exec (.pathSilent true) s = .next u.openContest) ∧
      (s.mayTake = false → s.role ≠ 1 → exec (.pathSilent true) s = .next u)) ∧
    (Answers (.laneDown l) s fun t => t.flag R.PLK_LANE_STAT l.val = false ∧ t.lane l.val = {} ∧ RegsBut [R.PLK_LANE_STAT] s t ∧ SameMem s t) ∧
    (s.active 128 = true → s.up 7 = true → Answers (.laneUp l) s fun t => t.flag R.PLK_LANE_STAT l.val = true ∧
      RegsBut [R.PLK_LANE_STAT] s t ∧ SameMem s t) ∧
    (s.active 128 = false → exec (.laneUp l) s = .next s)

/-- From R559 to R566: a standby keeps the pages of a state frame, and its STATE_END commits the image whose pages, base and CRC agree or
discards them; a commit never takes a stall's sequence back; a stream's object of a newer generation is held when its last chunk is in;
the first chunk of a keeper's half starts its assembly and the third ends it. A side that acts keeps no page and no half. -/
def Obligations.PairStateAndStreams : Prop :=
  ∀ (s : State) (h : PairHdr) (p : Fin 512) (data : List Byte) (e : StateEnd) (g : StateImg) (obj : Byte) (gen : Word) (k : Nat),
    (s.pairTakes h 0 →
      (s.acts = false → Answers (.statePage h p data) s fun t => t.plk.pend.get (fun _ => []) p.val = pad4k data ∧
        (∀ q, q ≠ p.val → t.plk.pend.get (fun _ => []) q = s.plk.pend.get (fun _ => []) q) ∧ t.plk.image = s.plk.image ∧ t.regs = s.regs ∧ SameMem s t) ∧
      (s.acts = true → Answers (.statePage h p data) s fun t => t.plk.pend = s.plk.pend ∧ t.regs = s.regs ∧ SameMem s t) ∧
      (s.acts = false → s.pendingImage e = none → Answers (.stateEnd h e) s fun t => t.plk.pend = [] ∧ t.plk.resync = true ∧
        t.plk.image = s.plk.image ∧ bit (t.page 128).irqStat 12 = true ∧ t.regs = s.regs ∧ SameMem s t) ∧
      (s.acts = false → s.pendingImage e = some g → e.final = false → Answers (.stateEnd h e) s fun t => t.plk.pend = [] ∧
        t.plk.image = some g ∧ t.plk.resync = (s.plk.resync && !e.full) ∧ (k < 1024 → s.stSeq k ≤ t.stSeq k) ∧ t.role = s.role ∧
        t.flag R.PLK_PAIR_STAT 8 = decide (fieldN (g.pages.get (fun _ => List.replicate 4096 0) 0) 0x14 4 = s.regN R.LGE_PROG_REV) ∧ SameMem s t)) ∧
    (s.pairTakes h 1 → s.proto ≠ 1 → 1 ≤ obj.toNat → obj.toNat ≤ 4 →
      (s.plk.objs.get (fun _ => {}) obj.toNat).gen < gen.toNat → data ≠ [] → Answers (.stream h 0 obj true gen data) s fun t =>
        t.plk.heldObj.get (fun _ => (0, [])) obj.toNat = (gen.toNat, data) ∧ t.flag R.PLK_STREAM_STAT (obj.toNat - 1) = true ∧
        RegsBut [R.PLK_STREAM_STAT] s t ∧ SameMem s t) ∧
    (s.pairTakes h 1 → s.proto ≠ 1 → 1 ≤ obj.toNat → obj.toNat ≤ 4 → gen.toNat < (s.plk.objs.get (fun _ => {}) obj.toNat).gen →
      Answers (.stream h 0 obj true gen data) s fun t => t.plk.objs = s.plk.objs ∧ t.plk.heldObj = s.plk.heldObj ∧ t.regs = s.regs ∧ SameMem s t) ∧
    (s.pairTakes h 2 → s.acts = false → s.proto ≠ 1 → s.kprCores = true → s.kpr.cause = 0 → data ≠ [] →
      (Answers (.keeper h 0 data) s fun t => Tab.get (fun _ => []) t.kpr.mirror 0 = data ∧ (∀ i, i ≠ 0 → Tab.get (fun _ => []) t.kpr.mirror i = []) ∧
        t.regs = s.regs ∧ SameMem s t) ∧
      (Tab.get (fun _ => []) s.kpr.mirror 0 ≠ [] → Tab.get (fun _ => []) s.kpr.mirror 1 ≠ [] → Answers (.keeper h 2 data) s fun t => t.kpr.mirror = [])) ∧
    (s.pairTakes h 2 → s.acts = true → Answers (.keeper h 2 data) s fun t => t.kpr = s.kpr ∧ t.regs = s.regs ∧ SameMem s t)

/-- From R548 to R552, R567 to R583: the next epoch is of this side's parity and above every epoch the side knows; a takeover goes by way of
TAKING, an epoch in MRAM and the image; a contest is won by more than half of MAJ_N, or by half on side A; a lease is granted by a side that
does not act and extended from its request's sending; the start-up role is decided by what was heard. -/
def Obligations.PairRoles : Prop :=
  ∀ (s : State) (src : Peer) (q : LeaseReq) (r : LeaseRsp) (id t0 k : Nat) (rl : Nat),
    (s.epoch < s.nextEpoch ∧ s.regN R.PLK_PARTNER_EPOCH < s.nextEpoch ∧ s.plk.epochNv < s.nextEpoch ∧
      (k < 1024 → s.regN (R.STB_EPOCH k) < s.nextEpoch) ∧ s.nextEpoch % 2 = b2n s.sideB) ∧
    (s.mayTake = true → (s.bothSilent = true ∨ s.takeCause = true) → exec .takeover s = .next (s.takeOver s.bothSilent)) ∧
    (s.mayTake = false → exec .takeover s = .next s) ∧
    (s.acts = false → (s.takeOver false).role = 3 ∧ (s.takeOver false).plk.epochOk = false ∧ SameMem s (s.takeOver false)) ∧
    (s.active 128 = true → s.role = 3 → s.plk.epochOk = false →
      (s.nextEpoch ≤ 0xFFFFFFFE → Answers .epochCommit s fun t => t.epoch = s.nextEpoch ∧ t.plk.epochNv = s.nextEpoch ∧ t.plk.epochOk = true ∧
        RegsBut [R.PLK_EPOCH] s t ∧ SameMem s t) ∧
      (0xFFFFFFFE < s.nextEpoch → exec .epochCommit s = .next ((s.standDown 4).fail 128 0x104 0))) ∧
    (s.active 128 = true → s.role = 3 → s.plk.epochOk = true → Answers .imageApplied s fun t => t.role = 1 ∧ t.plk.applied = true ∧
      t.reg R.PLK_TAKEOVERS = s.reg R.PLK_TAKEOVERS + 1 ∧ t.yard = s.yard ∧ t.stallMem = s.stallMem) ∧
    (s.role ≠ 3 → exec .epochCommit s = .next s ∧ exec .imageApplied s = .next s) ∧
    (s.plk.contest = true → s.active 128 = true → exec .fenceCheck s = .next s.fenceStalls) ∧
    (s.plk.contest = false → exec .fenceCheck s = .next s ∧ exec .contestEnd s = .next s) ∧
    (s.plk.contest = true → s.role = 1 →
      (s.regN R.PLK_MAJ_N < 2 * s.contestCount ∨ (2 * s.contestCount = s.regN R.PLK_MAJ_N ∧ s.sideB = false)) → Answers .contestEnd s fun t =>
        t.role = 1 ∧ t.plk.contest = false ∧ t.flag R.PLK_PAIR_STAT 3 = false ∧ t.reg R.PLK_REACH_LAST = wd (s.contestCount % 2048) ∧
        RegsBut ([R.PLK_PAIR_STAT, R.PLK_REACH_LAST] ++ evrRegs) s t ∧ SameMem s t) ∧
    (s.plk.contest = true → s.acts = false →
      (2 * s.contestCount < s.regN R.PLK_MAJ_N ∨ (2 * s.contestCount = s.regN R.PLK_MAJ_N ∧ s.sideB = true)) → Answers .contestEnd s fun t =>
        t.role = 4 ∧ t.plk.contest = false ∧ t.reg R.PLK_REACH_LAST = wd (s.contestCount % 2048 + 65536) ∧ SameMem s t) ∧
    (s.plk.standTo = some rl → exec .standDownLimit s = .next ((s.setReg R.LGE_PHASE 0).standDown rl)) ∧
    (s.plk.standTo = none → exec .standDownLimit s = .next s) ∧
    (s.active 128 = true → src ≠ .witness →
      (q.release = false → s.acts = false → q.sideB ≠ s.sideB → Answers (.leaseReq src q) s fun t =>
        t.plk.grant = some (s.time.log + (q.ms.toNat + s.regN R.PLK_GUARD_MS) * tMs) ∧ t.flag R.PLK_LEASE_STAT 1 = true ∧
        RegsBut [R.PLK_LEASE_STAT] s t ∧ SameMem s t) ∧
      (q.release = false → s.acts = true → Answers (.leaseReq src q) s fun t => t.plk.grant = s.plk.grant ∧ t.regs = s.regs ∧ SameMem s t) ∧
      (q.release = true → Answers (.leaseReq src q) s fun t => t.plk.grant = none ∧ t.flag R.PLK_LEASE_STAT 1 = false ∧
        RegsBut [R.PLK_LEASE_STAT] s t ∧ SameMem s t)) ∧
    (s.active 128 = true → r.granted = true → s.plk.reqAt = some (id, t0) → id = r.id.toNat → s.plk.lease.isSome = true →
      Answers (.leaseRsp src r) s fun t => t.plk.lease = some (t0 + s.regN R.PLK_LEASE_MS * tMs) ∧ t.flag R.PLK_LEASE_STAT 0 = true ∧
        t.role = s.role ∧ RegsBut [R.PLK_LEASE_STAT] s t ∧ SameMem s t) ∧
    (r.granted = false → exec (.leaseRsp src r) s = .next s) ∧
    (s.mayRequest = true → exec .leaseRenew s = .next (s.leaseRequest false) ∧
      (s.sideB = true → exec .leaseStartWait s = .next (s.leaseRequest false)) ∧ (s.sideB = false → exec .leaseStartWait s = .next s)) ∧
    (s.plk.lease = some t0 → t0 ≤ s.time.log → s.leaseMode = false → Answers .leaseEnd s fun t => t.plk.lease = none ∧ t.flag R.PLK_LEASE_STAT 0 = false ∧
      RegsBut [R.PLK_LEASE_STAT] s t ∧ SameMem s t) ∧
    (s.plk.lease = some t0 → t0 ≤ s.time.log → s.leaseMode = true → s.role = 3 → Answers .leaseEnd s fun t => t.plk.lease = none ∧ t.role = 4 ∧ SameMem s t) ∧
    (s.plk.lease = some t0 → s.time.log < t0 → exec .leaseEnd s = .next s) ∧
    (Answers .grantEnd s fun t => t.plk.grant = none ∧ t.flag R.PLK_LEASE_STAT 1 = false ∧ RegsBut [R.PLK_LEASE_STAT] s t ∧ SameMem s t) ∧
    (s.running 128 = true → s.role = 0 → (s.page 128).errcode ≠ 0x103 →
      (s.bothSilent = true → s.leaseMode = false → exec .resolveEnd s = .next (s.takeOver true)) ∧
      (s.bothSilent = false → s.plk.pActing = true → Answers .resolveEnd s fun t => t.role = 2 ∧ t.plk.resync = true ∧ SameMem s t) ∧
      (s.bothSilent = false → s.plk.pActing = false → s.leaseMode = false → s.sideB = true → Answers .resolveEnd s fun t => t.role = 2 ∧
        t.plk.resync = true ∧ SameMem s t) ∧
      (s.bothSilent = false → s.plk.pActing = false → s.leaseMode = false → s.sideB = false → s.nextEpoch ≤ 0xFFFFFFFE → Answers .resolveEnd s fun t =>
        t.role = 1 ∧ t.epoch = s.nextEpoch ∧ t.yard = s.yard)) ∧
    ((s.role ≠ 0 ∨ (s.page 128).errcode = 0x103) → exec .resolveEnd s = .next s)

/-! ### The machine as a whole -/

/-- A step takes the command at the front of the queue and runs it on the state with the queue's rest; on an empty queue the block counts one
clock of its time (the model's choice, log entry 28), which changes the copies of device time, the lanes of the pair link and the free
values alone. -/
def Obligations.StepRunsFrontCommand : Prop :=
  ∀ (s : State) (c : Instr) (rest : List Instr),
    step { s with pending := c :: rest } = exec c { s with pending := rest } ∧
    (s.pending = [] → ∃ t, step s = .next t ∧ t = { s with time := t.time, free := t.free, plk := { s.plk with lanes := t.plk.lanes } } ∧ s.free ≤ t.free ∧
      (s.up 6 = false → s.time.cnt < timeLimit → t.time.cnt = s.time.cnt))

/-- Reset: nothing waits; every register of a table reads its reset value; every block that can stop is in STOP, the others in RUN, with
no cause, no enable and no error; the tables have their canonical form. That an unlisted byte reads 0 is the model's choice (log entry 1),
as are the reset values of log entry 2. -/
def Obligations.ResetState : Prop :=
  State.reset.pending = [] ∧ State.reset.canon = true ∧
    (∀ a, State.reset.reg a = regReset a) ∧
    (∀ p, (State.reset.blk p).st = (if noStop p then .run else .stop) ∧ (State.reset.page p).irqStat = 0 ∧ (State.reset.page p).irqEn = 0 ∧
      (State.reset.page p).errcode = 0) ∧
    (∀ a, rdB State.reset.yard a = 0 ∧ rdB State.reset.dram a = 0 ∧ rdB State.reset.stallMem a = 0)

/-- A memory reads back what was written: the written bytes at their addresses, every other byte as before; and a write keeps the
canonical form. -/
def Obligations.MemoryReadsBack : Prop :=
  ∀ (m : Tab Byte) (a : Nat) (l : List Byte), rdBytes (wrBytes m a l) a l.length = l ∧
    (∀ b, (b < a ∨ a + l.length ≤ b) → rdB (wrBytes m a l) b = rdB m b) ∧
    (Memory.wf m = true → Memory.wf (wrBytes m a l) = true)

/-- Every step of every state answers a next state: it takes exactly the front command out of the queue, draws free values only forward, and
keeps the canonical form of every register file, memory and numbered table. -/
def Obligations.EveryStepKeepsForm : Prop :=
  ∀ s : State, ∃ t, step s = .next t ∧ t.pending = s.pending.tail ∧ s.free ≤ t.free ∧ (s.canon = true → t.canon = true)
end

