-- ==== Sys2Proof/Laws/Bits.lean ====
section
/-! SUPPORT. Bit fields: what a field reads after a field or a bit is put, there and elsewhere. -/

namespace Sys2Proof.Machine

/-- A field, bit by bit. -/
theorem testBit_bits (w : Word) (hi lo k : Nat) : (bits w hi lo).testBit k = (decide (k < hi + 1 - lo) && w.getLsbD (lo + k)) := by
  simp only [bits, Nat.testBit_mod_two_pow, Nat.testBit_shiftRight, BitVec.getLsbD]

/-- A word with one bit, bit by bit. -/
theorem getLsbD_bitW (i j : Nat) (hj : j < 32) : (bitW i).getLsbD j = decide (i = j) := by
  simp only [bitW, BitVec.getLsbD_ofNat, Nat.testBit_two_pow, hj, decide_true, Bool.true_and]

@[simp] theorem bit_or (v w : Word) (i : Nat) : bit (v ||| w) i = (bit v i || bit w i) := by simp only [bit, BitVec.getLsbD_or]
@[simp] theorem bit_and (v w : Word) (i : Nat) : bit (v &&& w) i = (bit v i && bit w i) := by simp only [bit, BitVec.getLsbD_and]
theorem bit_bitW (i j : Nat) (hj : j < 32) : bit (bitW i) j = decide (i = j) := getLsbD_bitW i j hj

/-- A put bit reads back and every other bit is as before. -/
theorem bit_putBit (w : Word) (i j : Nat) (b : Bool) (hj : j < 32) : bit (putBit w i b) j = if i = j then b else bit w j := by
  cases b
  · simp only [bit, putBit, Bool.false_eq_true, if_false, BitVec.getLsbD_and, BitVec.getLsbD_not, getLsbD_bitW i j hj, hj]
    by_cases h : i = j <;> simp [h]
  · simp only [bit, putBit, if_true, BitVec.getLsbD_or, getLsbD_bitW i j hj]
    by_cases h : i = j <;> simp [h]

/-- A put field, bit by bit. -/
theorem getLsbD_putBits (w : Word) (hi lo x j : Nat) (hj : j < 32) :
    (putBits w hi lo x).getLsbD j = if lo ≤ j ∧ j < hi + 1 then x.testBit (j - lo) else w.getLsbD j := by
  simp only [putBits, BitVec.getLsbD_or, BitVec.getLsbD_and, BitVec.getLsbD_not, BitVec.getLsbD_ofNat, Nat.testBit_shiftLeft,
    Nat.testBit_two_pow_sub_one, Nat.testBit_mod_two_pow, hj, decide_true, Bool.true_and]
  by_cases h1 : lo ≤ j
  · by_cases h2 : j < hi + 1
    · have : j - lo < hi + 1 - lo := by omega
      simp [h1, h2, this]
    · have : ¬ j - lo < hi + 1 - lo := by omega
      simp [h1, h2, this]
  · simp [h1]

/-- A put field reads back. -/
theorem bits_putBits (w : Word) {hi : Nat} (lo x : Nat) (h : hi < 32) : bits (putBits w hi lo x) hi lo = x % 2 ^ (hi + 1 - lo) := by
  apply Nat.eq_of_testBit_eq
  intro k
  rw [testBit_bits, Nat.testBit_mod_two_pow]
  by_cases hk : k < hi + 1 - lo
  · rw [getLsbD_putBits w hi lo x _ (by omega), if_pos ⟨by omega, by omega⟩, Nat.add_sub_cancel_left]
  · simp [hk]

/-- A field apart from the put one reads as before. -/
theorem bits_putBits_ne (w : Word) {hi lo i j : Nat} (x : Nat) (hi2 : i < 32) (h : i < lo ∨ hi < j) :
    bits (putBits w hi lo x) i j = bits w i j := by
  apply Nat.eq_of_testBit_eq
  intro k
  rw [testBit_bits, testBit_bits]
  by_cases hk : k < i + 1 - j
  · rw [getLsbD_putBits w hi lo x _ (by omega), if_neg (by omega)]
  · simp [hk]

/-- A field apart from the put bit reads as before. -/
theorem bits_putBit_ne (w : Word) {i j n : Nat} (b : Bool) (hi : i < 32) (h : n < j ∨ i < n) : bits (putBit w n b) i j = bits w i j := by
  apply Nat.eq_of_testBit_eq
  intro k
  rw [testBit_bits, testBit_bits]
  by_cases hk : k < i + 1 - j
  · have := bit_putBit w n (j + k) b (by omega)
    rw [bit, if_neg (by omega)] at this
    rw [this, bit]
  · simp [hk]

/-- A bit apart from the put field reads as before. -/
theorem bit_putBits_ne (w : Word) {hi lo i : Nat} (x : Nat) (hi2 : i < 32) (h : i < lo ∨ hi < i) : bit (putBits w hi lo x) i = bit w i := by
  rw [bit, getLsbD_putBits w hi lo x i hi2, if_neg (by omega), bit]

/-- A number below 2^32 survives in a register. -/
theorem toNat_wd {n : Nat} (h : n < 2 ^ 32) : (wd n).toNat = n := by
  simp only [wd, BitVec.toNat_ofNat, Nat.mod_eq_of_lt h]

/-- Whether a two-bit field is odd, and at least 2: its bits. -/
theorem bits_odd (w : Word) (hi lo : Nat) (h : lo ≤ hi) : (bits w hi lo % 2 == 1) = bit w lo := by
  have e := testBit_bits w hi lo 0
  rw [Nat.testBit_zero, show lo + 0 = lo from rfl, decide_eq_true (by omega : 0 < hi + 1 - lo), Bool.true_and] at e
  rw [bit, ← e]
  by_cases hh : bits w hi lo % 2 = 1 <;> simp [hh]
theorem bits_two_le (w : Word) (lo : Nat) : decide (2 ≤ bits w (lo + 1) lo) = bit w (lo + 1) := by
  have e := testBit_bits w (lo + 1) lo 1
  rw [decide_eq_true (by omega : 1 < lo + 1 + 1 - lo), Bool.true_and] at e
  have hb : bits w (lo + 1) lo < 4 := by
    have := Nat.mod_lt (w.toNat >>> lo) (show 0 < 2 ^ (lo + 1 + 1 - lo) by positivity)
    rw [show lo + 1 + 1 - lo = 2 by omega] at this
    simpa [bits, show lo + 1 + 1 - lo = 2 by omega] using this
  rw [bit, ← e]
  have : ∀ x, x < 4 → decide (2 ≤ x) = x.testBit 1 := by decide
  exact this _ hb

end Sys2Proof.Machine
end

