-- ==== Sys2Proof/Laws/Tab.lean ====
section
/-! SUPPORT. Sparse tables: what a table reads after an entry is set, and that every operation on a table keeps its canonical form. -/

namespace Sys2Proof

variable {α : Type}

/-- Where keys rise, a smaller bound is a bound as well. -/
theorem Tab.above_mono {i j : Nat} (h : i ≤ j) {t : Tab α} (ht : Tab.above j t = true) : Tab.above i t = true := by
  simp only [Tab.above, List.all_eq_true, decide_eq_true_eq] at *
  exact fun e he => Nat.lt_of_le_of_lt h (ht e he)

/-- An inserted entry is read back, and every other key reads as before. -/
theorem Tab.get_insert (d : Nat → α) (t : Tab α) (k j : Nat) (v : α) :
    Tab.get d (Tab.insert k v t) j = if k = j then v else Tab.get d t j := by
  induction t with
  | nil => simp [Tab.insert, Tab.get]
  | cons e t ih =>
    obtain ⟨i, w⟩ := e
    simp only [Tab.insert]
    split
    · simp only [Tab.get, ih]; split <;> split <;> first | rfl | omega
    · split <;> rename_i h1 h2
      · subst h2; simp only [Tab.get]; split <;> rfl
      · simp only [Tab.get]

/-- In a canonical table every key of the tail lies above the head. -/
theorem Tab.wf_cons [DecidableEq α] {d : Nat → α} {k : Nat} {v : α} {t : Tab α} :
    Tab.wf d ((k, v) :: t) = true ↔ v ≠ d k ∧ Tab.above k t = true ∧ Tab.wf d t = true := by
  simp [Tab.wf, and_assoc]

/-- An erased key reads as the default, and every other key as before. -/
theorem Tab.get_erase (d : Nat → α) (t : Tab α) (k j : Nat) :
    Tab.get d (Tab.erase k t) j = if k = j then d j else Tab.get d t j := by
  induction t with
  | nil => simp [Tab.erase, Tab.get]
  | cons e t ih =>
    obtain ⟨i, w⟩ := e
    simp only [Tab.erase, List.filter] at ih ⊢
    by_cases hk : i = k
    · subst hk
      simp only [bne_self_eq_false, ih, Tab.get]
      split <;> rfl
    · have hb : (i != k) = true := by simpa using hk
      simp only [hb, Tab.get, ih]
      split <;> split <;> first | rfl | omega

/-- The law of a write: the key written reads as the value, every other key as before. -/
theorem Tab.get_set [DecidableEq α] (d : Nat → α) (t : Tab α) (k j : Nat) (v : α) :
    Tab.get d (Tab.set d t k v) j = if k = j then v else Tab.get d t j := by
  unfold Tab.set
  split <;> rename_i hv
  · rw [Tab.get_erase]; split <;> rename_i hk
    · subst hk; exact hv.symm
    · rfl
  · exact Tab.get_insert d t k j v

/-- A key other than the written one reads as before. -/
theorem Tab.get_set_ne [DecidableEq α] (d : Nat → α) (t : Tab α) {k j : Nat} (v : α) (h : k ≠ j) :
    Tab.get d (Tab.set d t k v) j = Tab.get d t j := by
  rw [Tab.get_set, if_neg h]

theorem Tab.above_insert {i k : Nat} {v : α} {t : Tab α} (hk : i < k) (h : Tab.above i t = true) :
    Tab.above i (Tab.insert k v t) = true := by
  induction t with
  | nil => simpa [Tab.insert, Tab.above] using hk
  | cons e t ih =>
    obtain ⟨j, w⟩ := e
    simp only [Tab.above, List.all_cons, Bool.and_eq_true, decide_eq_true_eq] at h ih
    simp only [Tab.insert]
    split
    · simp only [Tab.above, List.all_cons, Bool.and_eq_true, decide_eq_true_eq]; exact ⟨h.1, ih h.2⟩
    · split <;> simp only [Tab.above, List.all_cons, Bool.and_eq_true, decide_eq_true_eq]
      · exact ⟨hk, h.2⟩
      · exact ⟨hk, h⟩

theorem Tab.wf_insert [DecidableEq α] {d : Nat → α} {k : Nat} {v : α} (hv : v ≠ d k) {t : Tab α} (h : Tab.wf d t = true) :
    Tab.wf d (Tab.insert k v t) = true := by
  induction t with
  | nil => simp [Tab.insert, Tab.wf, Tab.above, hv]
  | cons e t ih =>
    obtain ⟨j, w⟩ := e
    obtain ⟨hw, ha, ht⟩ := Tab.wf_cons.1 h
    simp only [Tab.insert]
    split <;> rename_i h1
    · exact Tab.wf_cons.2 ⟨hw, Tab.above_insert h1 ha, ih ht⟩
    · split <;> rename_i h2
      · exact Tab.wf_cons.2 ⟨hv, h2 ▸ ha, ht⟩
      · refine Tab.wf_cons.2 ⟨hv, ?_, h⟩
        simp only [Tab.above, List.all_cons, Bool.and_eq_true, decide_eq_true_eq]
        exact ⟨by omega, Tab.above_mono (by omega) ha⟩

/-- Leaving entries out keeps the canonical form. -/
theorem Tab.wf_filter [DecidableEq α] {d : Nat → α} (p : Nat × α → Bool) {t : Tab α} (h : Tab.wf d t = true) :
    Tab.wf d (t.filter p) = true := by
  induction t with
  | nil => rfl
  | cons e t ih =>
    obtain ⟨j, w⟩ := e
    obtain ⟨hw, ha, ht⟩ := Tab.wf_cons.1 h
    simp only [List.filter]
    split
    · refine Tab.wf_cons.2 ⟨hw, ?_, ih ht⟩
      simp only [Tab.above, List.all_eq_true] at *
      exact fun x hx => ha x (List.mem_filter.1 hx).1
    · exact ih ht

/-- A write keeps the canonical form. -/
theorem Tab.wf_set [DecidableEq α] {d : Nat → α} (k : Nat) (v : α) {t : Tab α} (h : Tab.wf d t = true) :
    Tab.wf d (Tab.set d t k v) = true := by
  unfold Tab.set
  split <;> rename_i hv
  · exact Tab.wf_filter _ h
  · exact Tab.wf_insert hv h

end Sys2Proof

namespace Sys2Proof.Machine

variable {α : Type}

theorem above_tabMap [DecidableEq α] (d : Nat → α) (f : Nat → α → α) {i : Nat} {t : Tab α} (h : Tab.above i t = true) :
    Tab.above i (tabMap d f t) = true := by
  induction t with
  | nil => rfl
  | cons e t ih =>
    simp only [Tab.above, List.all_cons, Bool.and_eq_true, decide_eq_true_eq] at h ih
    simp only [tabMap]
    split
    · exact ih h.2
    · simp only [Tab.above, List.all_cons, Bool.and_eq_true, decide_eq_true_eq]; exact ⟨h.1, ih h.2⟩

/-- Changing every entry keeps the canonical form. -/
theorem wf_tabMap [DecidableEq α] (d : Nat → α) (f : Nat → α → α) {t : Tab α} (h : Tab.wf d t = true) :
    Tab.wf d (tabMap d f t) = true := by
  induction t with
  | nil => rfl
  | cons e t ih =>
    obtain ⟨j, w⟩ := e
    obtain ⟨-, ha, ht⟩ := Tab.wf_cons.1 h
    simp only [tabMap]
    split <;> rename_i hw
    · exact ih ht
    · exact Tab.wf_cons.2 ⟨hw, above_tabMap d f ha, ih ht⟩

/-! ### Memory bytes -/

/-- A byte written reads back, and every other byte as before. -/
theorem rdB_wrB (m : Tab Byte) (a b : Nat) (v : Byte) :
    rdB (wrB m a v) b = if a = b then v else rdB m b := Tab.get_set byte0 m a b v

/-- A byte at another address reads as before. -/
theorem rdB_wrB_ne (m : Tab Byte) {a b : Nat} (v : Byte) (h : a ≠ b) : rdB (wrB m a v) b = rdB m b :=
  Tab.get_set_ne byte0 m v h

/-- Writing bytes keeps the canonical form. -/
theorem wf_wrBytes (l : List Byte) (a : Nat) {m : Tab Byte} (h : Tab.wf byte0 m = true) :
    Tab.wf byte0 (wrBytes m a l) = true := by
  induction l generalizing a m with
  | nil => exact h
  | cons b r ih => exact ih (a + 1) (Tab.wf_set a b h)

/-- Storing a number keeps the canonical form. -/
theorem wf_wrN (a n v : Nat) {m : Tab Byte} (h : Tab.wf byte0 m = true) : Tab.wf byte0 (wrN m a n v) = true :=
  wf_wrBytes _ a h

/-- Bytes outside the written ones read as before. -/
theorem rdB_wrBytes_out (l : List Byte) (a b : Nat) (m : Tab Byte) (h : b < a ∨ a + l.length ≤ b) :
    rdB (wrBytes m a l) b = rdB m b := by
  induction l generalizing a m with
  | nil => rfl
  | cons x r ih =>
    simp only [List.length_cons] at h
    rw [wrBytes, ih (a + 1) _ (by omega), rdB_wrB_ne m x (by omega)]

/-- Each written byte reads back. -/
theorem rdB_wrBytes_in (l : List Byte) (a i : Nat) (m : Tab Byte) (hi : i < l.length) : rdB (wrBytes m a l) (a + i) = l[i] := by
  induction l generalizing a m i with
  | nil => exact absurd hi (Nat.not_lt_zero i)
  | cons x r ih =>
    cases i with
    | zero => rw [wrBytes, rdB_wrBytes_out r (a + 1) (a + 0) _ (by omega), rdB_wrB]; simp
    | succ i =>
      have := ih (a + 1) i (wrB m a x) (by simpa using hi)
      rw [wrBytes, show a + (i + 1) = a + 1 + i by omega, this]
      simp

/-- Either of two canonical memories is canonical. -/
theorem wf_ite {c : Prop} [Decidable c] {m n : Tab Byte} (hm : Tab.wf byte0 m = true) (hn : Tab.wf byte0 n = true) :
    Tab.wf byte0 (if c then m else n) = true := by
  split
  · exact hm
  · exact hn

/-- An empty table is canonical. -/
theorem wf_nil [DecidableEq α] (d : Nat → α) : Tab.wf d [] = true := rfl

/-- Any run of writes keeps the canonical form. -/
theorem wf_foldl {β : Type} (f : Tab Byte → β → Tab Byte)
    (hf : ∀ m x, Tab.wf byte0 m = true → Tab.wf byte0 (f m x) = true) (l : List β) {m : Tab Byte}
    (h : Tab.wf byte0 m = true) : Tab.wf byte0 (l.foldl f m) = true := by
  induction l generalizing m with
  | nil => exact h
  | cons x l ih => exact ih (hf m x h)

end Sys2Proof.Machine
end

