-- ==== Sys2Proof/Laws/State.lean ====
section
/-! SUPPORT. Every update of one field leaves every other field as it was: one lemma for each update and field. -/

namespace Sys2Proof.Machine

variable (s : State)

section regs
variable (r : Tab Word)
theorem State.regs_pending : (State.pending { s with regs := r }) = s.pending := rfl
theorem State.regs_resp : (State.resp { s with regs := r }) = s.resp := rfl
theorem State.regs_free : (State.free { s with regs := r }) = s.free := rfl
theorem State.regs_pages : (State.pages { s with regs := r }) = s.pages := rfl
theorem State.regs_plic : (State.plic { s with regs := r }) = s.plic := rfl
theorem State.regs_blks : (State.blks { s with regs := r }) = s.blks := rfl
theorem State.regs_yard : (State.yard { s with regs := r }) = s.yard := rfl
theorem State.regs_dram : (State.dram { s with regs := r }) = s.dram := rfl
theorem State.regs_stallMem : (State.stallMem { s with regs := r }) = s.stallMem := rfl
theorem State.regs_tcm : (State.tcm { s with regs := r }) = s.tcm := rfl
theorem State.regs_img : (State.img { s with regs := r }) = s.img := rfl
theorem State.regs_pwr : (State.pwr { s with regs := r }) = s.pwr := rfl
theorem State.regs_time : (State.time { s with regs := r }) = s.time := rfl
theorem State.regs_evr : (State.evr { s with regs := r }) = s.evr := rfl
theorem State.regs_eth : (State.eth { s with regs := r }) = s.eth := rfl
theorem State.regs_ptp : (State.ptp { s with regs := r }) = s.ptp := rfl
theorem State.regs_cap : (State.cap { s with regs := r }) = s.cap := rfl
theorem State.regs_rtc : (State.rtc { s with regs := r }) = s.rtc := rfl
theorem State.regs_pnl : (State.pnl { s with regs := r }) = s.pnl := rfl
theorem State.regs_can : (State.can { s with regs := r }) = s.can := rfl
theorem State.regs_plk : (State.plk { s with regs := r }) = s.plk := rfl
theorem State.regs_axes : (State.axes { s with regs := r }) = s.axes := rfl
theorem State.regs_dlk : (State.dlk { s with regs := r }) = s.dlk := rfl
theorem State.regs_mtr : (State.mtr { s with regs := r }) = s.mtr := rfl
theorem State.regs_pls : (State.pls { s with regs := r }) = s.pls := rfl
theorem State.regs_sec : (State.sec { s with regs := r }) = s.sec := rfl
theorem State.regs_stalls : (State.stalls { s with regs := r }) = s.stalls := rfl
theorem State.regs_lge : (State.lge { s with regs := r }) = s.lge := rfl
theorem State.regs_kpr : (State.kpr { s with regs := r }) = s.kpr := rfl
theorem State.regs_dsq : (State.dsq { s with regs := r }) = s.dsq := rfl
theorem State.regs_nsu : (State.nsu { s with regs := r }) = s.nsu := rfl
theorem State.regs_mdl : (State.mdl { s with regs := r }) = s.mdl := rfl
theorem State.regs_btk : (State.btk { s with regs := r }) = s.btk := rfl
theorem State.regs_regs : (State.regs { s with regs := r }) = r := rfl
end regs

section setReg
variable (a : Nat) (v : Word)
@[simp] theorem State.setReg_pending : (s.setReg a v).pending = s.pending := State.regs_pending s _
@[simp] theorem State.setReg_resp : (s.setReg a v).resp = s.resp := State.regs_resp s _
@[simp] theorem State.setReg_free : (s.setReg a v).free = s.free := State.regs_free s _
@[simp] theorem State.setReg_pages : (s.setReg a v).pages = s.pages := State.regs_pages s _
@[simp] theorem State.setReg_plic : (s.setReg a v).plic = s.plic := State.regs_plic s _
@[simp] theorem State.setReg_blks : (s.setReg a v).blks = s.blks := State.regs_blks s _
@[simp] theorem State.setReg_yard : (s.setReg a v).yard = s.yard := State.regs_yard s _
@[simp] theorem State.setReg_dram : (s.setReg a v).dram = s.dram := State.regs_dram s _
@[simp] theorem State.setReg_stallMem : (s.setReg a v).stallMem = s.stallMem := State.regs_stallMem s _
@[simp] theorem State.setReg_tcm : (s.setReg a v).tcm = s.tcm := State.regs_tcm s _
@[simp] theorem State.setReg_img : (s.setReg a v).img = s.img := State.regs_img s _
@[simp] theorem State.setReg_pwr : (s.setReg a v).pwr = s.pwr := State.regs_pwr s _
@[simp] theorem State.setReg_time : (s.setReg a v).time = s.time := State.regs_time s _
@[simp] theorem State.setReg_evr : (s.setReg a v).evr = s.evr := State.regs_evr s _
@[simp] theorem State.setReg_eth : (s.setReg a v).eth = s.eth := State.regs_eth s _
@[simp] theorem State.setReg_ptp : (s.setReg a v).ptp = s.ptp := State.regs_ptp s _
@[simp] theorem State.setReg_cap : (s.setReg a v).cap = s.cap := State.regs_cap s _
@[simp] theorem State.setReg_rtc : (s.setReg a v).rtc = s.rtc := State.regs_rtc s _
@[simp] theorem State.setReg_pnl : (s.setReg a v).pnl = s.pnl := State.regs_pnl s _
@[simp] theorem State.setReg_can : (s.setReg a v).can = s.can := State.regs_can s _
@[simp] theorem State.setReg_plk : (s.setReg a v).plk = s.plk := State.regs_plk s _
@[simp] theorem State.setReg_axes : (s.setReg a v).axes = s.axes := State.regs_axes s _
@[simp] theorem State.setReg_dlk : (s.setReg a v).dlk = s.dlk := State.regs_dlk s _
@[simp] theorem State.setReg_mtr : (s.setReg a v).mtr = s.mtr := State.regs_mtr s _
@[simp] theorem State.setReg_pls : (s.setReg a v).pls = s.pls := State.regs_pls s _
@[simp] theorem State.setReg_sec : (s.setReg a v).sec = s.sec := State.regs_sec s _
@[simp] theorem State.setReg_stalls : (s.setReg a v).stalls = s.stalls := State.regs_stalls s _
@[simp] theorem State.setReg_lge : (s.setReg a v).lge = s.lge := State.regs_lge s _
@[simp] theorem State.setReg_kpr : (s.setReg a v).kpr = s.kpr := State.regs_kpr s _
@[simp] theorem State.setReg_dsq : (s.setReg a v).dsq = s.dsq := State.regs_dsq s _
@[simp] theorem State.setReg_nsu : (s.setReg a v).nsu = s.nsu := State.regs_nsu s _
@[simp] theorem State.setReg_mdl : (s.setReg a v).mdl = s.mdl := State.regs_mdl s _
@[simp] theorem State.setReg_btk : (s.setReg a v).btk = s.btk := State.regs_btk s _
@[simp] theorem State.setReg_regs : (s.setReg a v).regs = s.regs.set regReset a v := State.regs_regs s _
end setReg

section setPage
variable (p : Nat) (h : PageHdr)
@[simp] theorem State.setPage_pending : (s.setPage p h).pending = s.pending := (rfl)
@[simp] theorem State.setPage_resp : (s.setPage p h).resp = s.resp := (rfl)
@[simp] theorem State.setPage_free : (s.setPage p h).free = s.free := (rfl)
@[simp] theorem State.setPage_regs : (s.setPage p h).regs = s.regs := (rfl)
@[simp] theorem State.setPage_blks : (s.setPage p h).blks = s.blks := (rfl)
@[simp] theorem State.setPage_yard : (s.setPage p h).yard = s.yard := (rfl)
@[simp] theorem State.setPage_dram : (s.setPage p h).dram = s.dram := (rfl)
@[simp] theorem State.setPage_stallMem : (s.setPage p h).stallMem = s.stallMem := (rfl)
@[simp] theorem State.setPage_tcm : (s.setPage p h).tcm = s.tcm := (rfl)
@[simp] theorem State.setPage_img : (s.setPage p h).img = s.img := (rfl)
@[simp] theorem State.setPage_pwr : (s.setPage p h).pwr = s.pwr := (rfl)
@[simp] theorem State.setPage_time : (s.setPage p h).time = s.time := (rfl)
@[simp] theorem State.setPage_evr : (s.setPage p h).evr = s.evr := (rfl)
@[simp] theorem State.setPage_eth : (s.setPage p h).eth = s.eth := (rfl)
@[simp] theorem State.setPage_ptp : (s.setPage p h).ptp = s.ptp := (rfl)
@[simp] theorem State.setPage_cap : (s.setPage p h).cap = s.cap := (rfl)
@[simp] theorem State.setPage_rtc : (s.setPage p h).rtc = s.rtc := (rfl)
@[simp] theorem State.setPage_pnl : (s.setPage p h).pnl = s.pnl := (rfl)
@[simp] theorem State.setPage_can : (s.setPage p h).can = s.can := (rfl)
@[simp] theorem State.setPage_plk : (s.setPage p h).plk = s.plk := (rfl)
@[simp] theorem State.setPage_axes : (s.setPage p h).axes = s.axes := (rfl)
@[simp] theorem State.setPage_dlk : (s.setPage p h).dlk = s.dlk := (rfl)
@[simp] theorem State.setPage_mtr : (s.setPage p h).mtr = s.mtr := (rfl)
@[simp] theorem State.setPage_pls : (s.setPage p h).pls = s.pls := (rfl)
@[simp] theorem State.setPage_sec : (s.setPage p h).sec = s.sec := (rfl)
@[simp] theorem State.setPage_stalls : (s.setPage p h).stalls = s.stalls := (rfl)
@[simp] theorem State.setPage_lge : (s.setPage p h).lge = s.lge := (rfl)
@[simp] theorem State.setPage_kpr : (s.setPage p h).kpr = s.kpr := (rfl)
@[simp] theorem State.setPage_dsq : (s.setPage p h).dsq = s.dsq := (rfl)
@[simp] theorem State.setPage_nsu : (s.setPage p h).nsu = s.nsu := (rfl)
@[simp] theorem State.setPage_mdl : (s.setPage p h).mdl = s.mdl := (rfl)
@[simp] theorem State.setPage_btk : (s.setPage p h).btk = s.btk := (rfl)
@[simp] theorem State.setPage_pages : (s.setPage p h).pages = s.pages.set (fun _ => {}) p h := (rfl)
end setPage

section setBlk
variable (p : Nat) (b : Blk)
@[simp] theorem State.setBlk_pending : (s.setBlk p b).pending = s.pending := (rfl)
@[simp] theorem State.setBlk_resp : (s.setBlk p b).resp = s.resp := (rfl)
@[simp] theorem State.setBlk_free : (s.setBlk p b).free = s.free := (rfl)
@[simp] theorem State.setBlk_regs : (s.setBlk p b).regs = s.regs := (rfl)
@[simp] theorem State.setBlk_pages : (s.setBlk p b).pages = s.pages := (rfl)
@[simp] theorem State.setBlk_plic : (s.setBlk p b).plic = s.plic := (rfl)
@[simp] theorem State.setBlk_yard : (s.setBlk p b).yard = s.yard := (rfl)
@[simp] theorem State.setBlk_dram : (s.setBlk p b).dram = s.dram := (rfl)
@[simp] theorem State.setBlk_stallMem : (s.setBlk p b).stallMem = s.stallMem := (rfl)
@[simp] theorem State.setBlk_tcm : (s.setBlk p b).tcm = s.tcm := (rfl)
@[simp] theorem State.setBlk_img : (s.setBlk p b).img = s.img := (rfl)
@[simp] theorem State.setBlk_pwr : (s.setBlk p b).pwr = s.pwr := (rfl)
@[simp] theorem State.setBlk_time : (s.setBlk p b).time = s.time := (rfl)
@[simp] theorem State.setBlk_evr : (s.setBlk p b).evr = s.evr := (rfl)
@[simp] theorem State.setBlk_eth : (s.setBlk p b).eth = s.eth := (rfl)
@[simp] theorem State.setBlk_ptp : (s.setBlk p b).ptp = s.ptp := (rfl)
@[simp] theorem State.setBlk_cap : (s.setBlk p b).cap = s.cap := (rfl)
@[simp] theorem State.setBlk_rtc : (s.setBlk p b).rtc = s.rtc := (rfl)
@[simp] theorem State.setBlk_pnl : (s.setBlk p b).pnl = s.pnl := (rfl)
@[simp] theorem State.setBlk_can : (s.setBlk p b).can = s.can := (rfl)
@[simp] theorem State.setBlk_plk : (s.setBlk p b).plk = s.plk := (rfl)
@[simp] theorem State.setBlk_axes : (s.setBlk p b).axes = s.axes := (rfl)
@[simp] theorem State.setBlk_dlk : (s.setBlk p b).dlk = s.dlk := (rfl)
@[simp] theorem State.setBlk_mtr : (s.setBlk p b).mtr = s.mtr := (rfl)
@[simp] theorem State.setBlk_pls : (s.setBlk p b).pls = s.pls := (rfl)
@[simp] theorem State.setBlk_sec : (s.setBlk p b).sec = s.sec := (rfl)
@[simp] theorem State.setBlk_stalls : (s.setBlk p b).stalls = s.stalls := (rfl)
@[simp] theorem State.setBlk_lge : (s.setBlk p b).lge = s.lge := (rfl)
@[simp] theorem State.setBlk_kpr : (s.setBlk p b).kpr = s.kpr := (rfl)
@[simp] theorem State.setBlk_dsq : (s.setBlk p b).dsq = s.dsq := (rfl)
@[simp] theorem State.setBlk_nsu : (s.setBlk p b).nsu = s.nsu := (rfl)
@[simp] theorem State.setBlk_mdl : (s.setBlk p b).mdl = s.mdl := (rfl)
@[simp] theorem State.setBlk_btk : (s.setBlk p b).btk = s.btk := (rfl)
@[simp] theorem State.setBlk_blks : (s.setBlk p b).blks = s.blks.set blkReset p b := (rfl)
end setBlk

section answer
variable (v : Word)
@[simp] theorem State.answer_pending : (s.answer v).pending = s.pending := (rfl)
@[simp] theorem State.answer_free : (s.answer v).free = s.free := (rfl)
@[simp] theorem State.answer_regs : (s.answer v).regs = s.regs := (rfl)
@[simp] theorem State.answer_pages : (s.answer v).pages = s.pages := (rfl)
@[simp] theorem State.answer_plic : (s.answer v).plic = s.plic := (rfl)
@[simp] theorem State.answer_blks : (s.answer v).blks = s.blks := (rfl)
@[simp] theorem State.answer_yard : (s.answer v).yard = s.yard := (rfl)
@[simp] theorem State.answer_dram : (s.answer v).dram = s.dram := (rfl)
@[simp] theorem State.answer_stallMem : (s.answer v).stallMem = s.stallMem := (rfl)
@[simp] theorem State.answer_tcm : (s.answer v).tcm = s.tcm := (rfl)
@[simp] theorem State.answer_img : (s.answer v).img = s.img := (rfl)
@[simp] theorem State.answer_pwr : (s.answer v).pwr = s.pwr := (rfl)
@[simp] theorem State.answer_time : (s.answer v).time = s.time := (rfl)
@[simp] theorem State.answer_evr : (s.answer v).evr = s.evr := (rfl)
@[simp] theorem State.answer_eth : (s.answer v).eth = s.eth := (rfl)
@[simp] theorem State.answer_ptp : (s.answer v).ptp = s.ptp := (rfl)
@[simp] theorem State.answer_cap : (s.answer v).cap = s.cap := (rfl)
@[simp] theorem State.answer_rtc : (s.answer v).rtc = s.rtc := (rfl)
@[simp] theorem State.answer_pnl : (s.answer v).pnl = s.pnl := (rfl)
@[simp] theorem State.answer_can : (s.answer v).can = s.can := (rfl)
@[simp] theorem State.answer_plk : (s.answer v).plk = s.plk := (rfl)
@[simp] theorem State.answer_axes : (s.answer v).axes = s.axes := (rfl)
@[simp] theorem State.answer_dlk : (s.answer v).dlk = s.dlk := (rfl)
@[simp] theorem State.answer_mtr : (s.answer v).mtr = s.mtr := (rfl)
@[simp] theorem State.answer_pls : (s.answer v).pls = s.pls := (rfl)
@[simp] theorem State.answer_sec : (s.answer v).sec = s.sec := (rfl)
@[simp] theorem State.answer_stalls : (s.answer v).stalls = s.stalls := (rfl)
@[simp] theorem State.answer_lge : (s.answer v).lge = s.lge := (rfl)
@[simp] theorem State.answer_kpr : (s.answer v).kpr = s.kpr := (rfl)
@[simp] theorem State.answer_dsq : (s.answer v).dsq = s.dsq := (rfl)
@[simp] theorem State.answer_nsu : (s.answer v).nsu = s.nsu := (rfl)
@[simp] theorem State.answer_mdl : (s.answer v).mdl = s.mdl := (rfl)
@[simp] theorem State.answer_btk : (s.answer v).btk = s.btk := (rfl)
@[simp] theorem State.answer_resp : (s.answer v).resp = ⟨v, false⟩ := (rfl)
end answer

section accFault
@[simp] theorem State.accFault_pending : (s.accFault).pending = s.pending := (rfl)
@[simp] theorem State.accFault_free : (s.accFault).free = s.free := (rfl)
@[simp] theorem State.accFault_regs : (s.accFault).regs = s.regs := (rfl)
@[simp] theorem State.accFault_pages : (s.accFault).pages = s.pages := (rfl)
@[simp] theorem State.accFault_plic : (s.accFault).plic = s.plic := (rfl)
@[simp] theorem State.accFault_blks : (s.accFault).blks = s.blks := (rfl)
@[simp] theorem State.accFault_yard : (s.accFault).yard = s.yard := (rfl)
@[simp] theorem State.accFault_dram : (s.accFault).dram = s.dram := (rfl)
@[simp] theorem State.accFault_stallMem : (s.accFault).stallMem = s.stallMem := (rfl)
@[simp] theorem State.accFault_tcm : (s.accFault).tcm = s.tcm := (rfl)
@[simp] theorem State.accFault_img : (s.accFault).img = s.img := (rfl)
@[simp] theorem State.accFault_pwr : (s.accFault).pwr = s.pwr := (rfl)
@[simp] theorem State.accFault_time : (s.accFault).time = s.time := (rfl)
@[simp] theorem State.accFault_evr : (s.accFault).evr = s.evr := (rfl)
@[simp] theorem State.accFault_eth : (s.accFault).eth = s.eth := (rfl)
@[simp] theorem State.accFault_ptp : (s.accFault).ptp = s.ptp := (rfl)
@[simp] theorem State.accFault_cap : (s.accFault).cap = s.cap := (rfl)
@[simp] theorem State.accFault_rtc : (s.accFault).rtc = s.rtc := (rfl)
@[simp] theorem State.accFault_pnl : (s.accFault).pnl = s.pnl := (rfl)
@[simp] theorem State.accFault_can : (s.accFault).can = s.can := (rfl)
@[simp] theorem State.accFault_plk : (s.accFault).plk = s.plk := (rfl)
@[simp] theorem State.accFault_axes : (s.accFault).axes = s.axes := (rfl)
@[simp] theorem State.accFault_dlk : (s.accFault).dlk = s.dlk := (rfl)
@[simp] theorem State.accFault_mtr : (s.accFault).mtr = s.mtr := (rfl)
@[simp] theorem State.accFault_pls : (s.accFault).pls = s.pls := (rfl)
@[simp] theorem State.accFault_sec : (s.accFault).sec = s.sec := (rfl)
@[simp] theorem State.accFault_stalls : (s.accFault).stalls = s.stalls := (rfl)
@[simp] theorem State.accFault_lge : (s.accFault).lge = s.lge := (rfl)
@[simp] theorem State.accFault_kpr : (s.accFault).kpr = s.kpr := (rfl)
@[simp] theorem State.accFault_dsq : (s.accFault).dsq = s.dsq := (rfl)
@[simp] theorem State.accFault_nsu : (s.accFault).nsu = s.nsu := (rfl)
@[simp] theorem State.accFault_mdl : (s.accFault).mdl = s.mdl := (rfl)
@[simp] theorem State.accFault_btk : (s.accFault).btk = s.btk := (rfl)
@[simp] theorem State.accFault_resp : (s.accFault).resp = ⟨0, true⟩ := (rfl)
end accFault

section setCan
variable (n : Nat) (c : CanCh)
@[simp] theorem State.setCan_pending : (s.setCan n c).pending = s.pending := (rfl)
@[simp] theorem State.setCan_resp : (s.setCan n c).resp = s.resp := (rfl)
@[simp] theorem State.setCan_free : (s.setCan n c).free = s.free := (rfl)
@[simp] theorem State.setCan_regs : (s.setCan n c).regs = s.regs := (rfl)
@[simp] theorem State.setCan_pages : (s.setCan n c).pages = s.pages := (rfl)
@[simp] theorem State.setCan_plic : (s.setCan n c).plic = s.plic := (rfl)
@[simp] theorem State.setCan_blks : (s.setCan n c).blks = s.blks := (rfl)
@[simp] theorem State.setCan_yard : (s.setCan n c).yard = s.yard := (rfl)
@[simp] theorem State.setCan_dram : (s.setCan n c).dram = s.dram := (rfl)
@[simp] theorem State.setCan_stallMem : (s.setCan n c).stallMem = s.stallMem := (rfl)
@[simp] theorem State.setCan_tcm : (s.setCan n c).tcm = s.tcm := (rfl)
@[simp] theorem State.setCan_img : (s.setCan n c).img = s.img := (rfl)
@[simp] theorem State.setCan_pwr : (s.setCan n c).pwr = s.pwr := (rfl)
@[simp] theorem State.setCan_time : (s.setCan n c).time = s.time := (rfl)
@[simp] theorem State.setCan_evr : (s.setCan n c).evr = s.evr := (rfl)
@[simp] theorem State.setCan_eth : (s.setCan n c).eth = s.eth := (rfl)
@[simp] theorem State.setCan_ptp : (s.setCan n c).ptp = s.ptp := (rfl)
@[simp] theorem State.setCan_cap : (s.setCan n c).cap = s.cap := (rfl)
@[simp] theorem State.setCan_rtc : (s.setCan n c).rtc = s.rtc := (rfl)
@[simp] theorem State.setCan_pnl : (s.setCan n c).pnl = s.pnl := (rfl)
@[simp] theorem State.setCan_plk : (s.setCan n c).plk = s.plk := (rfl)
@[simp] theorem State.setCan_axes : (s.setCan n c).axes = s.axes := (rfl)
@[simp] theorem State.setCan_dlk : (s.setCan n c).dlk = s.dlk := (rfl)
@[simp] theorem State.setCan_mtr : (s.setCan n c).mtr = s.mtr := (rfl)
@[simp] theorem State.setCan_pls : (s.setCan n c).pls = s.pls := (rfl)
@[simp] theorem State.setCan_sec : (s.setCan n c).sec = s.sec := (rfl)
@[simp] theorem State.setCan_stalls : (s.setCan n c).stalls = s.stalls := (rfl)
@[simp] theorem State.setCan_lge : (s.setCan n c).lge = s.lge := (rfl)
@[simp] theorem State.setCan_kpr : (s.setCan n c).kpr = s.kpr := (rfl)
@[simp] theorem State.setCan_dsq : (s.setCan n c).dsq = s.dsq := (rfl)
@[simp] theorem State.setCan_nsu : (s.setCan n c).nsu = s.nsu := (rfl)
@[simp] theorem State.setCan_mdl : (s.setCan n c).mdl = s.mdl := (rfl)
@[simp] theorem State.setCan_btk : (s.setCan n c).btk = s.btk := (rfl)
@[simp] theorem State.setCan_can : (s.setCan n c).can = s.can.set (fun _ => {}) n c := (rfl)
end setCan

section setPulse
variable (o : Nat) (p : PulseOut)
@[simp] theorem State.setPulse_pending : (s.setPulse o p).pending = s.pending := (rfl)
@[simp] theorem State.setPulse_resp : (s.setPulse o p).resp = s.resp := (rfl)
@[simp] theorem State.setPulse_free : (s.setPulse o p).free = s.free := (rfl)
@[simp] theorem State.setPulse_regs : (s.setPulse o p).regs = s.regs := (rfl)
@[simp] theorem State.setPulse_pages : (s.setPulse o p).pages = s.pages := (rfl)
@[simp] theorem State.setPulse_plic : (s.setPulse o p).plic = s.plic := (rfl)
@[simp] theorem State.setPulse_blks : (s.setPulse o p).blks = s.blks := (rfl)
@[simp] theorem State.setPulse_yard : (s.setPulse o p).yard = s.yard := (rfl)
@[simp] theorem State.setPulse_dram : (s.setPulse o p).dram = s.dram := (rfl)
@[simp] theorem State.setPulse_stallMem : (s.setPulse o p).stallMem = s.stallMem := (rfl)
@[simp] theorem State.setPulse_tcm : (s.setPulse o p).tcm = s.tcm := (rfl)
@[simp] theorem State.setPulse_img : (s.setPulse o p).img = s.img := (rfl)
@[simp] theorem State.setPulse_pwr : (s.setPulse o p).pwr = s.pwr := (rfl)
@[simp] theorem State.setPulse_time : (s.setPulse o p).time = s.time := (rfl)
@[simp] theorem State.setPulse_evr : (s.setPulse o p).evr = s.evr := (rfl)
@[simp] theorem State.setPulse_eth : (s.setPulse o p).eth = s.eth := (rfl)
@[simp] theorem State.setPulse_ptp : (s.setPulse o p).ptp = s.ptp := (rfl)
@[simp] theorem State.setPulse_cap : (s.setPulse o p).cap = s.cap := (rfl)
@[simp] theorem State.setPulse_rtc : (s.setPulse o p).rtc = s.rtc := (rfl)
@[simp] theorem State.setPulse_pnl : (s.setPulse o p).pnl = s.pnl := (rfl)
@[simp] theorem State.setPulse_can : (s.setPulse o p).can = s.can := (rfl)
@[simp] theorem State.setPulse_plk : (s.setPulse o p).plk = s.plk := (rfl)
@[simp] theorem State.setPulse_axes : (s.setPulse o p).axes = s.axes := (rfl)
@[simp] theorem State.setPulse_dlk : (s.setPulse o p).dlk = s.dlk := (rfl)
@[simp] theorem State.setPulse_mtr : (s.setPulse o p).mtr = s.mtr := (rfl)
@[simp] theorem State.setPulse_sec : (s.setPulse o p).sec = s.sec := (rfl)
@[simp] theorem State.setPulse_stalls : (s.setPulse o p).stalls = s.stalls := (rfl)
@[simp] theorem State.setPulse_lge : (s.setPulse o p).lge = s.lge := (rfl)
@[simp] theorem State.setPulse_kpr : (s.setPulse o p).kpr = s.kpr := (rfl)
@[simp] theorem State.setPulse_dsq : (s.setPulse o p).dsq = s.dsq := (rfl)
@[simp] theorem State.setPulse_nsu : (s.setPulse o p).nsu = s.nsu := (rfl)
@[simp] theorem State.setPulse_mdl : (s.setPulse o p).mdl = s.mdl := (rfl)
@[simp] theorem State.setPulse_btk : (s.setPulse o p).btk = s.btk := (rfl)
@[simp] theorem State.setPulse_pls : (s.setPulse o p).pls = s.pls.set (fun _ => {}) o p := (rfl)
end setPulse

section setMtr
variable (f : MtrSt → MtrSt)
@[simp] theorem State.setMtr_pending : (s.setMtr f).pending = s.pending := (rfl)
@[simp] theorem State.setMtr_resp : (s.setMtr f).resp = s.resp := (rfl)
@[simp] theorem State.setMtr_free : (s.setMtr f).free = s.free := (rfl)
@[simp] theorem State.setMtr_regs : (s.setMtr f).regs = s.regs := (rfl)
@[simp] theorem State.setMtr_pages : (s.setMtr f).pages = s.pages := (rfl)
@[simp] theorem State.setMtr_plic : (s.setMtr f).plic = s.plic := (rfl)
@[simp] theorem State.setMtr_blks : (s.setMtr f).blks = s.blks := (rfl)
@[simp] theorem State.setMtr_yard : (s.setMtr f).yard = s.yard := (rfl)
@[simp] theorem State.setMtr_dram : (s.setMtr f).dram = s.dram := (rfl)
@[simp] theorem State.setMtr_stallMem : (s.setMtr f).stallMem = s.stallMem := (rfl)
@[simp] theorem State.setMtr_tcm : (s.setMtr f).tcm = s.tcm := (rfl)
@[simp] theorem State.setMtr_img : (s.setMtr f).img = s.img := (rfl)
@[simp] theorem State.setMtr_pwr : (s.setMtr f).pwr = s.pwr := (rfl)
@[simp] theorem State.setMtr_time : (s.setMtr f).time = s.time := (rfl)
@[simp] theorem State.setMtr_evr : (s.setMtr f).evr = s.evr := (rfl)
@[simp] theorem State.setMtr_eth : (s.setMtr f).eth = s.eth := (rfl)
@[simp] theorem State.setMtr_ptp : (s.setMtr f).ptp = s.ptp := (rfl)
@[simp] theorem State.setMtr_cap : (s.setMtr f).cap = s.cap := (rfl)
@[simp] theorem State.setMtr_rtc : (s.setMtr f).rtc = s.rtc := (rfl)
@[simp] theorem State.setMtr_pnl : (s.setMtr f).pnl = s.pnl := (rfl)
@[simp] theorem State.setMtr_can : (s.setMtr f).can = s.can := (rfl)
@[simp] theorem State.setMtr_plk : (s.setMtr f).plk = s.plk := (rfl)
@[simp] theorem State.setMtr_axes : (s.setMtr f).axes = s.axes := (rfl)
@[simp] theorem State.setMtr_dlk : (s.setMtr f).dlk = s.dlk := (rfl)
@[simp] theorem State.setMtr_pls : (s.setMtr f).pls = s.pls := (rfl)
@[simp] theorem State.setMtr_sec : (s.setMtr f).sec = s.sec := (rfl)
@[simp] theorem State.setMtr_stalls : (s.setMtr f).stalls = s.stalls := (rfl)
@[simp] theorem State.setMtr_lge : (s.setMtr f).lge = s.lge := (rfl)
@[simp] theorem State.setMtr_kpr : (s.setMtr f).kpr = s.kpr := (rfl)
@[simp] theorem State.setMtr_dsq : (s.setMtr f).dsq = s.dsq := (rfl)
@[simp] theorem State.setMtr_nsu : (s.setMtr f).nsu = s.nsu := (rfl)
@[simp] theorem State.setMtr_mdl : (s.setMtr f).mdl = s.mdl := (rfl)
@[simp] theorem State.setMtr_btk : (s.setMtr f).btk = s.btk := (rfl)
@[simp] theorem State.setMtr_mtr : (s.setMtr f).mtr = f s.mtr := (rfl)
end setMtr

section setCap
variable (n : Nat) (c : CapCh)
@[simp] theorem State.setCap_pending : (s.setCap n c).pending = s.pending := (rfl)
@[simp] theorem State.setCap_resp : (s.setCap n c).resp = s.resp := (rfl)
@[simp] theorem State.setCap_free : (s.setCap n c).free = s.free := (rfl)
@[simp] theorem State.setCap_regs : (s.setCap n c).regs = s.regs := (rfl)
@[simp] theorem State.setCap_pages : (s.setCap n c).pages = s.pages := (rfl)
@[simp] theorem State.setCap_plic : (s.setCap n c).plic = s.plic := (rfl)
@[simp] theorem State.setCap_blks : (s.setCap n c).blks = s.blks := (rfl)
@[simp] theorem State.setCap_yard : (s.setCap n c).yard = s.yard := (rfl)
@[simp] theorem State.setCap_dram : (s.setCap n c).dram = s.dram := (rfl)
@[simp] theorem State.setCap_stallMem : (s.setCap n c).stallMem = s.stallMem := (rfl)
@[simp] theorem State.setCap_tcm : (s.setCap n c).tcm = s.tcm := (rfl)
@[simp] theorem State.setCap_img : (s.setCap n c).img = s.img := (rfl)
@[simp] theorem State.setCap_pwr : (s.setCap n c).pwr = s.pwr := (rfl)
@[simp] theorem State.setCap_time : (s.setCap n c).time = s.time := (rfl)
@[simp] theorem State.setCap_evr : (s.setCap n c).evr = s.evr := (rfl)
@[simp] theorem State.setCap_eth : (s.setCap n c).eth = s.eth := (rfl)
@[simp] theorem State.setCap_ptp : (s.setCap n c).ptp = s.ptp := (rfl)
@[simp] theorem State.setCap_rtc : (s.setCap n c).rtc = s.rtc := (rfl)
@[simp] theorem State.setCap_pnl : (s.setCap n c).pnl = s.pnl := (rfl)
@[simp] theorem State.setCap_can : (s.setCap n c).can = s.can := (rfl)
@[simp] theorem State.setCap_plk : (s.setCap n c).plk = s.plk := (rfl)
@[simp] theorem State.setCap_axes : (s.setCap n c).axes = s.axes := (rfl)
@[simp] theorem State.setCap_dlk : (s.setCap n c).dlk = s.dlk := (rfl)
@[simp] theorem State.setCap_mtr : (s.setCap n c).mtr = s.mtr := (rfl)
@[simp] theorem State.setCap_pls : (s.setCap n c).pls = s.pls := (rfl)
@[simp] theorem State.setCap_sec : (s.setCap n c).sec = s.sec := (rfl)
@[simp] theorem State.setCap_stalls : (s.setCap n c).stalls = s.stalls := (rfl)
@[simp] theorem State.setCap_lge : (s.setCap n c).lge = s.lge := (rfl)
@[simp] theorem State.setCap_kpr : (s.setCap n c).kpr = s.kpr := (rfl)
@[simp] theorem State.setCap_dsq : (s.setCap n c).dsq = s.dsq := (rfl)
@[simp] theorem State.setCap_nsu : (s.setCap n c).nsu = s.nsu := (rfl)
@[simp] theorem State.setCap_mdl : (s.setCap n c).mdl = s.mdl := (rfl)
@[simp] theorem State.setCap_btk : (s.setCap n c).btk = s.btk := (rfl)
@[simp] theorem State.setCap_cap : (s.setCap n c).cap = s.cap.set (fun _ => {}) n c := (rfl)
end setCap

section setPort
variable (i : Nat) (p : EthPort)
@[simp] theorem State.setPort_pending : (s.setPort i p).pending = s.pending := (rfl)
@[simp] theorem State.setPort_resp : (s.setPort i p).resp = s.resp := (rfl)
@[simp] theorem State.setPort_free : (s.setPort i p).free = s.free := (rfl)
@[simp] theorem State.setPort_regs : (s.setPort i p).regs = s.regs := (rfl)
@[simp] theorem State.setPort_pages : (s.setPort i p).pages = s.pages := (rfl)
@[simp] theorem State.setPort_plic : (s.setPort i p).plic = s.plic := (rfl)
@[simp] theorem State.setPort_blks : (s.setPort i p).blks = s.blks := (rfl)
@[simp] theorem State.setPort_yard : (s.setPort i p).yard = s.yard := (rfl)
@[simp] theorem State.setPort_dram : (s.setPort i p).dram = s.dram := (rfl)
@[simp] theorem State.setPort_stallMem : (s.setPort i p).stallMem = s.stallMem := (rfl)
@[simp] theorem State.setPort_tcm : (s.setPort i p).tcm = s.tcm := (rfl)
@[simp] theorem State.setPort_img : (s.setPort i p).img = s.img := (rfl)
@[simp] theorem State.setPort_pwr : (s.setPort i p).pwr = s.pwr := (rfl)
@[simp] theorem State.setPort_time : (s.setPort i p).time = s.time := (rfl)
@[simp] theorem State.setPort_evr : (s.setPort i p).evr = s.evr := (rfl)
@[simp] theorem State.setPort_ptp : (s.setPort i p).ptp = s.ptp := (rfl)
@[simp] theorem State.setPort_cap : (s.setPort i p).cap = s.cap := (rfl)
@[simp] theorem State.setPort_rtc : (s.setPort i p).rtc = s.rtc := (rfl)
@[simp] theorem State.setPort_pnl : (s.setPort i p).pnl = s.pnl := (rfl)
@[simp] theorem State.setPort_can : (s.setPort i p).can = s.can := (rfl)
@[simp] theorem State.setPort_plk : (s.setPort i p).plk = s.plk := (rfl)
@[simp] theorem State.setPort_axes : (s.setPort i p).axes = s.axes := (rfl)
@[simp] theorem State.setPort_dlk : (s.setPort i p).dlk = s.dlk := (rfl)
@[simp] theorem State.setPort_mtr : (s.setPort i p).mtr = s.mtr := (rfl)
@[simp] theorem State.setPort_pls : (s.setPort i p).pls = s.pls := (rfl)
@[simp] theorem State.setPort_sec : (s.setPort i p).sec = s.sec := (rfl)
@[simp] theorem State.setPort_stalls : (s.setPort i p).stalls = s.stalls := (rfl)
@[simp] theorem State.setPort_lge : (s.setPort i p).lge = s.lge := (rfl)
@[simp] theorem State.setPort_kpr : (s.setPort i p).kpr = s.kpr := (rfl)
@[simp] theorem State.setPort_dsq : (s.setPort i p).dsq = s.dsq := (rfl)
@[simp] theorem State.setPort_nsu : (s.setPort i p).nsu = s.nsu := (rfl)
@[simp] theorem State.setPort_mdl : (s.setPort i p).mdl = s.mdl := (rfl)
@[simp] theorem State.setPort_btk : (s.setPort i p).btk = s.btk := (rfl)
@[simp] theorem State.setPort_eth : (s.setPort i p).eth = s.eth.set (fun _ => {}) i p := (rfl)
end setPort

section setAxis
variable (a : Nat) (x : Axis)
@[simp] theorem State.setAxis_pending : (s.setAxis a x).pending = s.pending := (rfl)
@[simp] theorem State.setAxis_resp : (s.setAxis a x).resp = s.resp := (rfl)
@[simp] theorem State.setAxis_free : (s.setAxis a x).free = s.free := (rfl)
@[simp] theorem State.setAxis_regs : (s.setAxis a x).regs = s.regs := (rfl)
@[simp] theorem State.setAxis_pages : (s.setAxis a x).pages = s.pages := (rfl)
@[simp] theorem State.setAxis_plic : (s.setAxis a x).plic = s.plic := (rfl)
@[simp] theorem State.setAxis_blks : (s.setAxis a x).blks = s.blks := (rfl)
@[simp] theorem State.setAxis_yard : (s.setAxis a x).yard = s.yard := (rfl)
@[simp] theorem State.setAxis_dram : (s.setAxis a x).dram = s.dram := (rfl)
@[simp] theorem State.setAxis_stallMem : (s.setAxis a x).stallMem = s.stallMem := (rfl)
@[simp] theorem State.setAxis_tcm : (s.setAxis a x).tcm = s.tcm := (rfl)
@[simp] theorem State.setAxis_img : (s.setAxis a x).img = s.img := (rfl)
@[simp] theorem State.setAxis_pwr : (s.setAxis a x).pwr = s.pwr := (rfl)
@[simp] theorem State.setAxis_time : (s.setAxis a x).time = s.time := (rfl)
@[simp] theorem State.setAxis_evr : (s.setAxis a x).evr = s.evr := (rfl)
@[simp] theorem State.setAxis_eth : (s.setAxis a x).eth = s.eth := (rfl)
@[simp] theorem State.setAxis_ptp : (s.setAxis a x).ptp = s.ptp := (rfl)
@[simp] theorem State.setAxis_cap : (s.setAxis a x).cap = s.cap := (rfl)
@[simp] theorem State.setAxis_rtc : (s.setAxis a x).rtc = s.rtc := (rfl)
@[simp] theorem State.setAxis_pnl : (s.setAxis a x).pnl = s.pnl := (rfl)
@[simp] theorem State.setAxis_can : (s.setAxis a x).can = s.can := (rfl)
@[simp] theorem State.setAxis_plk : (s.setAxis a x).plk = s.plk := (rfl)
@[simp] theorem State.setAxis_dlk : (s.setAxis a x).dlk = s.dlk := (rfl)
@[simp] theorem State.setAxis_mtr : (s.setAxis a x).mtr = s.mtr := (rfl)
@[simp] theorem State.setAxis_pls : (s.setAxis a x).pls = s.pls := (rfl)
@[simp] theorem State.setAxis_sec : (s.setAxis a x).sec = s.sec := (rfl)
@[simp] theorem State.setAxis_stalls : (s.setAxis a x).stalls = s.stalls := (rfl)
@[simp] theorem State.setAxis_lge : (s.setAxis a x).lge = s.lge := (rfl)
@[simp] theorem State.setAxis_kpr : (s.setAxis a x).kpr = s.kpr := (rfl)
@[simp] theorem State.setAxis_dsq : (s.setAxis a x).dsq = s.dsq := (rfl)
@[simp] theorem State.setAxis_nsu : (s.setAxis a x).nsu = s.nsu := (rfl)
@[simp] theorem State.setAxis_mdl : (s.setAxis a x).mdl = s.mdl := (rfl)
@[simp] theorem State.setAxis_btk : (s.setAxis a x).btk = s.btk := (rfl)
@[simp] theorem State.setAxis_axes : (s.setAxis a x).axes = s.axes.set (fun _ => {}) a x := (rfl)
end setAxis

section setStall
variable (k : Nat) (x : Stall)
@[simp] theorem State.setStall_pending : (s.setStall k x).pending = s.pending := (rfl)
@[simp] theorem State.setStall_resp : (s.setStall k x).resp = s.resp := (rfl)
@[simp] theorem State.setStall_free : (s.setStall k x).free = s.free := (rfl)
@[simp] theorem State.setStall_regs : (s.setStall k x).regs = s.regs := (rfl)
@[simp] theorem State.setStall_pages : (s.setStall k x).pages = s.pages := (rfl)
@[simp] theorem State.setStall_plic : (s.setStall k x).plic = s.plic := (rfl)
@[simp] theorem State.setStall_blks : (s.setStall k x).blks = s.blks := (rfl)
@[simp] theorem State.setStall_yard : (s.setStall k x).yard = s.yard := (rfl)
@[simp] theorem State.setStall_dram : (s.setStall k x).dram = s.dram := (rfl)
@[simp] theorem State.setStall_stallMem : (s.setStall k x).stallMem = s.stallMem := (rfl)
@[simp] theorem State.setStall_tcm : (s.setStall k x).tcm = s.tcm := (rfl)
@[simp] theorem State.setStall_img : (s.setStall k x).img = s.img := (rfl)
@[simp] theorem State.setStall_pwr : (s.setStall k x).pwr = s.pwr := (rfl)
@[simp] theorem State.setStall_time : (s.setStall k x).time = s.time := (rfl)
@[simp] theorem State.setStall_evr : (s.setStall k x).evr = s.evr := (rfl)
@[simp] theorem State.setStall_eth : (s.setStall k x).eth = s.eth := (rfl)
@[simp] theorem State.setStall_ptp : (s.setStall k x).ptp = s.ptp := (rfl)
@[simp] theorem State.setStall_cap : (s.setStall k x).cap = s.cap := (rfl)
@[simp] theorem State.setStall_rtc : (s.setStall k x).rtc = s.rtc := (rfl)
@[simp] theorem State.setStall_pnl : (s.setStall k x).pnl = s.pnl := (rfl)
@[simp] theorem State.setStall_can : (s.setStall k x).can = s.can := (rfl)
@[simp] theorem State.setStall_plk : (s.setStall k x).plk = s.plk := (rfl)
@[simp] theorem State.setStall_axes : (s.setStall k x).axes = s.axes := (rfl)
@[simp] theorem State.setStall_dlk : (s.setStall k x).dlk = s.dlk := (rfl)
@[simp] theorem State.setStall_mtr : (s.setStall k x).mtr = s.mtr := (rfl)
@[simp] theorem State.setStall_pls : (s.setStall k x).pls = s.pls := (rfl)
@[simp] theorem State.setStall_sec : (s.setStall k x).sec = s.sec := (rfl)
@[simp] theorem State.setStall_lge : (s.setStall k x).lge = s.lge := (rfl)
@[simp] theorem State.setStall_kpr : (s.setStall k x).kpr = s.kpr := (rfl)
@[simp] theorem State.setStall_dsq : (s.setStall k x).dsq = s.dsq := (rfl)
@[simp] theorem State.setStall_nsu : (s.setStall k x).nsu = s.nsu := (rfl)
@[simp] theorem State.setStall_mdl : (s.setStall k x).mdl = s.mdl := (rfl)
@[simp] theorem State.setStall_btk : (s.setStall k x).btk = s.btk := (rfl)
@[simp] theorem State.setStall_stalls : (s.setStall k x).stalls = s.stalls.set (fun _ => {}) k x := (rfl)
end setStall

section winPut
variable (k o : Nat) (l : List Byte)
@[simp] theorem State.winPut_pending : (s.winPut k o l).pending = s.pending := (rfl)
@[simp] theorem State.winPut_resp : (s.winPut k o l).resp = s.resp := (rfl)
@[simp] theorem State.winPut_free : (s.winPut k o l).free = s.free := (rfl)
@[simp] theorem State.winPut_regs : (s.winPut k o l).regs = s.regs := (rfl)
@[simp] theorem State.winPut_pages : (s.winPut k o l).pages = s.pages := (rfl)
@[simp] theorem State.winPut_plic : (s.winPut k o l).plic = s.plic := (rfl)
@[simp] theorem State.winPut_blks : (s.winPut k o l).blks = s.blks := (rfl)
@[simp] theorem State.winPut_yard : (s.winPut k o l).yard = s.yard := (rfl)
@[simp] theorem State.winPut_dram : (s.winPut k o l).dram = s.dram := (rfl)
@[simp] theorem State.winPut_tcm : (s.winPut k o l).tcm = s.tcm := (rfl)
@[simp] theorem State.winPut_img : (s.winPut k o l).img = s.img := (rfl)
@[simp] theorem State.winPut_pwr : (s.winPut k o l).pwr = s.pwr := (rfl)
@[simp] theorem State.winPut_time : (s.winPut k o l).time = s.time := (rfl)
@[simp] theorem State.winPut_evr : (s.winPut k o l).evr = s.evr := (rfl)
@[simp] theorem State.winPut_eth : (s.winPut k o l).eth = s.eth := (rfl)
@[simp] theorem State.winPut_ptp : (s.winPut k o l).ptp = s.ptp := (rfl)
@[simp] theorem State.winPut_cap : (s.winPut k o l).cap = s.cap := (rfl)
@[simp] theorem State.winPut_rtc : (s.winPut k o l).rtc = s.rtc := (rfl)
@[simp] theorem State.winPut_pnl : (s.winPut k o l).pnl = s.pnl := (rfl)
@[simp] theorem State.winPut_can : (s.winPut k o l).can = s.can := (rfl)
@[simp] theorem State.winPut_plk : (s.winPut k o l).plk = s.plk := (rfl)
@[simp] theorem State.winPut_axes : (s.winPut k o l).axes = s.axes := (rfl)
@[simp] theorem State.winPut_dlk : (s.winPut k o l).dlk = s.dlk := (rfl)
@[simp] theorem State.winPut_mtr : (s.winPut k o l).mtr = s.mtr := (rfl)
@[simp] theorem State.winPut_pls : (s.winPut k o l).pls = s.pls := (rfl)
@[simp] theorem State.winPut_sec : (s.winPut k o l).sec = s.sec := (rfl)
@[simp] theorem State.winPut_stalls : (s.winPut k o l).stalls = s.stalls := (rfl)
@[simp] theorem State.winPut_lge : (s.winPut k o l).lge = s.lge := (rfl)
@[simp] theorem State.winPut_kpr : (s.winPut k o l).kpr = s.kpr := (rfl)
@[simp] theorem State.winPut_dsq : (s.winPut k o l).dsq = s.dsq := (rfl)
@[simp] theorem State.winPut_nsu : (s.winPut k o l).nsu = s.nsu := (rfl)
@[simp] theorem State.winPut_mdl : (s.winPut k o l).mdl = s.mdl := (rfl)
@[simp] theorem State.winPut_btk : (s.winPut k o l).btk = s.btk := (rfl)
@[simp] theorem State.winPut_stallMem : (s.winPut k o l).stallMem = wrBytes s.stallMem (winBase k + o) l := (rfl)
end winPut

section setLge
variable (f : LgeSt → LgeSt)
@[simp] theorem State.setLge_pending : (s.setLge f).pending = s.pending := (rfl)
@[simp] theorem State.setLge_resp : (s.setLge f).resp = s.resp := (rfl)
@[simp] theorem State.setLge_free : (s.setLge f).free = s.free := (rfl)
@[simp] theorem State.setLge_regs : (s.setLge f).regs = s.regs := (rfl)
@[simp] theorem State.setLge_pages : (s.setLge f).pages = s.pages := (rfl)
@[simp] theorem State.setLge_plic : (s.setLge f).plic = s.plic := (rfl)
@[simp] theorem State.setLge_blks : (s.setLge f).blks = s.blks := (rfl)
@[simp] theorem State.setLge_yard : (s.setLge f).yard = s.yard := (rfl)
@[simp] theorem State.setLge_dram : (s.setLge f).dram = s.dram := (rfl)
@[simp] theorem State.setLge_stallMem : (s.setLge f).stallMem = s.stallMem := (rfl)
@[simp] theorem State.setLge_tcm : (s.setLge f).tcm = s.tcm := (rfl)
@[simp] theorem State.setLge_img : (s.setLge f).img = s.img := (rfl)
@[simp] theorem State.setLge_pwr : (s.setLge f).pwr = s.pwr := (rfl)
@[simp] theorem State.setLge_time : (s.setLge f).time = s.time := (rfl)
@[simp] theorem State.setLge_evr : (s.setLge f).evr = s.evr := (rfl)
@[simp] theorem State.setLge_eth : (s.setLge f).eth = s.eth := (rfl)
@[simp] theorem State.setLge_ptp : (s.setLge f).ptp = s.ptp := (rfl)
@[simp] theorem State.setLge_cap : (s.setLge f).cap = s.cap := (rfl)
@[simp] theorem State.setLge_rtc : (s.setLge f).rtc = s.rtc := (rfl)
@[simp] theorem State.setLge_pnl : (s.setLge f).pnl = s.pnl := (rfl)
@[simp] theorem State.setLge_can : (s.setLge f).can = s.can := (rfl)
@[simp] theorem State.setLge_plk : (s.setLge f).plk = s.plk := (rfl)
@[simp] theorem State.setLge_axes : (s.setLge f).axes = s.axes := (rfl)
@[simp] theorem State.setLge_dlk : (s.setLge f).dlk = s.dlk := (rfl)
@[simp] theorem State.setLge_mtr : (s.setLge f).mtr = s.mtr := (rfl)
@[simp] theorem State.setLge_pls : (s.setLge f).pls = s.pls := (rfl)
@[simp] theorem State.setLge_sec : (s.setLge f).sec = s.sec := (rfl)
@[simp] theorem State.setLge_stalls : (s.setLge f).stalls = s.stalls := (rfl)
@[simp] theorem State.setLge_kpr : (s.setLge f).kpr = s.kpr := (rfl)
@[simp] theorem State.setLge_dsq : (s.setLge f).dsq = s.dsq := (rfl)
@[simp] theorem State.setLge_nsu : (s.setLge f).nsu = s.nsu := (rfl)
@[simp] theorem State.setLge_mdl : (s.setLge f).mdl = s.mdl := (rfl)
@[simp] theorem State.setLge_btk : (s.setLge f).btk = s.btk := (rfl)
@[simp] theorem State.setLge_lge : (s.setLge f).lge = f s.lge := (rfl)
end setLge

section imgPut
variable (a : Nat) (l : List Byte)
@[simp] theorem State.imgPut_pending : (s.imgPut a l).pending = s.pending := (rfl)
@[simp] theorem State.imgPut_resp : (s.imgPut a l).resp = s.resp := (rfl)
@[simp] theorem State.imgPut_free : (s.imgPut a l).free = s.free := (rfl)
@[simp] theorem State.imgPut_regs : (s.imgPut a l).regs = s.regs := (rfl)
@[simp] theorem State.imgPut_pages : (s.imgPut a l).pages = s.pages := (rfl)
@[simp] theorem State.imgPut_plic : (s.imgPut a l).plic = s.plic := (rfl)
@[simp] theorem State.imgPut_blks : (s.imgPut a l).blks = s.blks := (rfl)
@[simp] theorem State.imgPut_yard : (s.imgPut a l).yard = s.yard := (rfl)
@[simp] theorem State.imgPut_dram : (s.imgPut a l).dram = s.dram := (rfl)
@[simp] theorem State.imgPut_stallMem : (s.imgPut a l).stallMem = s.stallMem := (rfl)
@[simp] theorem State.imgPut_tcm : (s.imgPut a l).tcm = s.tcm := (rfl)
@[simp] theorem State.imgPut_pwr : (s.imgPut a l).pwr = s.pwr := (rfl)
@[simp] theorem State.imgPut_time : (s.imgPut a l).time = s.time := (rfl)
@[simp] theorem State.imgPut_evr : (s.imgPut a l).evr = s.evr := (rfl)
@[simp] theorem State.imgPut_eth : (s.imgPut a l).eth = s.eth := (rfl)
@[simp] theorem State.imgPut_ptp : (s.imgPut a l).ptp = s.ptp := (rfl)
@[simp] theorem State.imgPut_cap : (s.imgPut a l).cap = s.cap := (rfl)
@[simp] theorem State.imgPut_rtc : (s.imgPut a l).rtc = s.rtc := (rfl)
@[simp] theorem State.imgPut_pnl : (s.imgPut a l).pnl = s.pnl := (rfl)
@[simp] theorem State.imgPut_can : (s.imgPut a l).can = s.can := (rfl)
@[simp] theorem State.imgPut_plk : (s.imgPut a l).plk = s.plk := (rfl)
@[simp] theorem State.imgPut_axes : (s.imgPut a l).axes = s.axes := (rfl)
@[simp] theorem State.imgPut_dlk : (s.imgPut a l).dlk = s.dlk := (rfl)
@[simp] theorem State.imgPut_mtr : (s.imgPut a l).mtr = s.mtr := (rfl)
@[simp] theorem State.imgPut_pls : (s.imgPut a l).pls = s.pls := (rfl)
@[simp] theorem State.imgPut_sec : (s.imgPut a l).sec = s.sec := (rfl)
@[simp] theorem State.imgPut_stalls : (s.imgPut a l).stalls = s.stalls := (rfl)
@[simp] theorem State.imgPut_lge : (s.imgPut a l).lge = s.lge := (rfl)
@[simp] theorem State.imgPut_kpr : (s.imgPut a l).kpr = s.kpr := (rfl)
@[simp] theorem State.imgPut_dsq : (s.imgPut a l).dsq = s.dsq := (rfl)
@[simp] theorem State.imgPut_nsu : (s.imgPut a l).nsu = s.nsu := (rfl)
@[simp] theorem State.imgPut_mdl : (s.imgPut a l).mdl = s.mdl := (rfl)
@[simp] theorem State.imgPut_btk : (s.imgPut a l).btk = s.btk := (rfl)
@[simp] theorem State.imgPut_img : (s.imgPut a l).img = wrBytes s.img a l := (rfl)
end imgPut

section setDsq
variable (f : DsqSt → DsqSt)
@[simp] theorem State.setDsq_pending : (s.setDsq f).pending = s.pending := (rfl)
@[simp] theorem State.setDsq_resp : (s.setDsq f).resp = s.resp := (rfl)
@[simp] theorem State.setDsq_free : (s.setDsq f).free = s.free := (rfl)
@[simp] theorem State.setDsq_regs : (s.setDsq f).regs = s.regs := (rfl)
@[simp] theorem State.setDsq_pages : (s.setDsq f).pages = s.pages := (rfl)
@[simp] theorem State.setDsq_plic : (s.setDsq f).plic = s.plic := (rfl)
@[simp] theorem State.setDsq_blks : (s.setDsq f).blks = s.blks := (rfl)
@[simp] theorem State.setDsq_yard : (s.setDsq f).yard = s.yard := (rfl)
@[simp] theorem State.setDsq_dram : (s.setDsq f).dram = s.dram := (rfl)
@[simp] theorem State.setDsq_stallMem : (s.setDsq f).stallMem = s.stallMem := (rfl)
@[simp] theorem State.setDsq_tcm : (s.setDsq f).tcm = s.tcm := (rfl)
@[simp] theorem State.setDsq_img : (s.setDsq f).img = s.img := (rfl)
@[simp] theorem State.setDsq_pwr : (s.setDsq f).pwr = s.pwr := (rfl)
@[simp] theorem State.setDsq_time : (s.setDsq f).time = s.time := (rfl)
@[simp] theorem State.setDsq_evr : (s.setDsq f).evr = s.evr := (rfl)
@[simp] theorem State.setDsq_eth : (s.setDsq f).eth = s.eth := (rfl)
@[simp] theorem State.setDsq_ptp : (s.setDsq f).ptp = s.ptp := (rfl)
@[simp] theorem State.setDsq_cap : (s.setDsq f).cap = s.cap := (rfl)
@[simp] theorem State.setDsq_rtc : (s.setDsq f).rtc = s.rtc := (rfl)
@[simp] theorem State.setDsq_pnl : (s.setDsq f).pnl = s.pnl := (rfl)
@[simp] theorem State.setDsq_can : (s.setDsq f).can = s.can := (rfl)
@[simp] theorem State.setDsq_plk : (s.setDsq f).plk = s.plk := (rfl)
@[simp] theorem State.setDsq_axes : (s.setDsq f).axes = s.axes := (rfl)
@[simp] theorem State.setDsq_dlk : (s.setDsq f).dlk = s.dlk := (rfl)
@[simp] theorem State.setDsq_mtr : (s.setDsq f).mtr = s.mtr := (rfl)
@[simp] theorem State.setDsq_pls : (s.setDsq f).pls = s.pls := (rfl)
@[simp] theorem State.setDsq_sec : (s.setDsq f).sec = s.sec := (rfl)
@[simp] theorem State.setDsq_stalls : (s.setDsq f).stalls = s.stalls := (rfl)
@[simp] theorem State.setDsq_lge : (s.setDsq f).lge = s.lge := (rfl)
@[simp] theorem State.setDsq_kpr : (s.setDsq f).kpr = s.kpr := (rfl)
@[simp] theorem State.setDsq_nsu : (s.setDsq f).nsu = s.nsu := (rfl)
@[simp] theorem State.setDsq_mdl : (s.setDsq f).mdl = s.mdl := (rfl)
@[simp] theorem State.setDsq_btk : (s.setDsq f).btk = s.btk := (rfl)
@[simp] theorem State.setDsq_dsq : (s.setDsq f).dsq = f s.dsq := (rfl)
end setDsq

section setMdl
variable (f : ModelSt → ModelSt)
@[simp] theorem State.setMdl_pending : (s.setMdl f).pending = s.pending := (rfl)
@[simp] theorem State.setMdl_resp : (s.setMdl f).resp = s.resp := (rfl)
@[simp] theorem State.setMdl_free : (s.setMdl f).free = s.free := (rfl)
@[simp] theorem State.setMdl_regs : (s.setMdl f).regs = s.regs := (rfl)
@[simp] theorem State.setMdl_pages : (s.setMdl f).pages = s.pages := (rfl)
@[simp] theorem State.setMdl_plic : (s.setMdl f).plic = s.plic := (rfl)
@[simp] theorem State.setMdl_blks : (s.setMdl f).blks = s.blks := (rfl)
@[simp] theorem State.setMdl_yard : (s.setMdl f).yard = s.yard := (rfl)
@[simp] theorem State.setMdl_dram : (s.setMdl f).dram = s.dram := (rfl)
@[simp] theorem State.setMdl_stallMem : (s.setMdl f).stallMem = s.stallMem := (rfl)
@[simp] theorem State.setMdl_tcm : (s.setMdl f).tcm = s.tcm := (rfl)
@[simp] theorem State.setMdl_img : (s.setMdl f).img = s.img := (rfl)
@[simp] theorem State.setMdl_pwr : (s.setMdl f).pwr = s.pwr := (rfl)
@[simp] theorem State.setMdl_time : (s.setMdl f).time = s.time := (rfl)
@[simp] theorem State.setMdl_evr : (s.setMdl f).evr = s.evr := (rfl)
@[simp] theorem State.setMdl_eth : (s.setMdl f).eth = s.eth := (rfl)
@[simp] theorem State.setMdl_ptp : (s.setMdl f).ptp = s.ptp := (rfl)
@[simp] theorem State.setMdl_cap : (s.setMdl f).cap = s.cap := (rfl)
@[simp] theorem State.setMdl_rtc : (s.setMdl f).rtc = s.rtc := (rfl)
@[simp] theorem State.setMdl_pnl : (s.setMdl f).pnl = s.pnl := (rfl)
@[simp] theorem State.setMdl_can : (s.setMdl f).can = s.can := (rfl)
@[simp] theorem State.setMdl_plk : (s.setMdl f).plk = s.plk := (rfl)
@[simp] theorem State.setMdl_axes : (s.setMdl f).axes = s.axes := (rfl)
@[simp] theorem State.setMdl_dlk : (s.setMdl f).dlk = s.dlk := (rfl)
@[simp] theorem State.setMdl_mtr : (s.setMdl f).mtr = s.mtr := (rfl)
@[simp] theorem State.setMdl_pls : (s.setMdl f).pls = s.pls := (rfl)
@[simp] theorem State.setMdl_sec : (s.setMdl f).sec = s.sec := (rfl)
@[simp] theorem State.setMdl_stalls : (s.setMdl f).stalls = s.stalls := (rfl)
@[simp] theorem State.setMdl_lge : (s.setMdl f).lge = s.lge := (rfl)
@[simp] theorem State.setMdl_kpr : (s.setMdl f).kpr = s.kpr := (rfl)
@[simp] theorem State.setMdl_dsq : (s.setMdl f).dsq = s.dsq := (rfl)
@[simp] theorem State.setMdl_nsu : (s.setMdl f).nsu = s.nsu := (rfl)
@[simp] theorem State.setMdl_btk : (s.setMdl f).btk = s.btk := (rfl)
@[simp] theorem State.setMdl_mdl : (s.setMdl f).mdl = f s.mdl := (rfl)
end setMdl

section setPlk
variable (f : PlkSt → PlkSt)
@[simp] theorem State.setPlk_pending : (s.setPlk f).pending = s.pending := (rfl)
@[simp] theorem State.setPlk_resp : (s.setPlk f).resp = s.resp := (rfl)
@[simp] theorem State.setPlk_free : (s.setPlk f).free = s.free := (rfl)
@[simp] theorem State.setPlk_regs : (s.setPlk f).regs = s.regs := (rfl)
@[simp] theorem State.setPlk_pages : (s.setPlk f).pages = s.pages := (rfl)
@[simp] theorem State.setPlk_plic : (s.setPlk f).plic = s.plic := (rfl)
@[simp] theorem State.setPlk_blks : (s.setPlk f).blks = s.blks := (rfl)
@[simp] theorem State.setPlk_yard : (s.setPlk f).yard = s.yard := (rfl)
@[simp] theorem State.setPlk_dram : (s.setPlk f).dram = s.dram := (rfl)
@[simp] theorem State.setPlk_stallMem : (s.setPlk f).stallMem = s.stallMem := (rfl)
@[simp] theorem State.setPlk_tcm : (s.setPlk f).tcm = s.tcm := (rfl)
@[simp] theorem State.setPlk_img : (s.setPlk f).img = s.img := (rfl)
@[simp] theorem State.setPlk_pwr : (s.setPlk f).pwr = s.pwr := (rfl)
@[simp] theorem State.setPlk_time : (s.setPlk f).time = s.time := (rfl)
@[simp] theorem State.setPlk_evr : (s.setPlk f).evr = s.evr := (rfl)
@[simp] theorem State.setPlk_eth : (s.setPlk f).eth = s.eth := (rfl)
@[simp] theorem State.setPlk_ptp : (s.setPlk f).ptp = s.ptp := (rfl)
@[simp] theorem State.setPlk_cap : (s.setPlk f).cap = s.cap := (rfl)
@[simp] theorem State.setPlk_rtc : (s.setPlk f).rtc = s.rtc := (rfl)
@[simp] theorem State.setPlk_pnl : (s.setPlk f).pnl = s.pnl := (rfl)
@[simp] theorem State.setPlk_can : (s.setPlk f).can = s.can := (rfl)
@[simp] theorem State.setPlk_axes : (s.setPlk f).axes = s.axes := (rfl)
@[simp] theorem State.setPlk_dlk : (s.setPlk f).dlk = s.dlk := (rfl)
@[simp] theorem State.setPlk_mtr : (s.setPlk f).mtr = s.mtr := (rfl)
@[simp] theorem State.setPlk_pls : (s.setPlk f).pls = s.pls := (rfl)
@[simp] theorem State.setPlk_sec : (s.setPlk f).sec = s.sec := (rfl)
@[simp] theorem State.setPlk_stalls : (s.setPlk f).stalls = s.stalls := (rfl)
@[simp] theorem State.setPlk_lge : (s.setPlk f).lge = s.lge := (rfl)
@[simp] theorem State.setPlk_kpr : (s.setPlk f).kpr = s.kpr := (rfl)
@[simp] theorem State.setPlk_dsq : (s.setPlk f).dsq = s.dsq := (rfl)
@[simp] theorem State.setPlk_nsu : (s.setPlk f).nsu = s.nsu := (rfl)
@[simp] theorem State.setPlk_mdl : (s.setPlk f).mdl = s.mdl := (rfl)
@[simp] theorem State.setPlk_btk : (s.setPlk f).btk = s.btk := (rfl)
@[simp] theorem State.setPlk_plk : (s.setPlk f).plk = f s.plk := (rfl)
end setPlk

section setNsu
variable (f : NsuSt → NsuSt)
@[simp] theorem State.setNsu_pending : (s.setNsu f).pending = s.pending := (rfl)
@[simp] theorem State.setNsu_resp : (s.setNsu f).resp = s.resp := (rfl)
@[simp] theorem State.setNsu_free : (s.setNsu f).free = s.free := (rfl)
@[simp] theorem State.setNsu_regs : (s.setNsu f).regs = s.regs := (rfl)
@[simp] theorem State.setNsu_pages : (s.setNsu f).pages = s.pages := (rfl)
@[simp] theorem State.setNsu_plic : (s.setNsu f).plic = s.plic := (rfl)
@[simp] theorem State.setNsu_blks : (s.setNsu f).blks = s.blks := (rfl)
@[simp] theorem State.setNsu_yard : (s.setNsu f).yard = s.yard := (rfl)
@[simp] theorem State.setNsu_dram : (s.setNsu f).dram = s.dram := (rfl)
@[simp] theorem State.setNsu_stallMem : (s.setNsu f).stallMem = s.stallMem := (rfl)
@[simp] theorem State.setNsu_tcm : (s.setNsu f).tcm = s.tcm := (rfl)
@[simp] theorem State.setNsu_img : (s.setNsu f).img = s.img := (rfl)
@[simp] theorem State.setNsu_pwr : (s.setNsu f).pwr = s.pwr := (rfl)
@[simp] theorem State.setNsu_time : (s.setNsu f).time = s.time := (rfl)
@[simp] theorem State.setNsu_evr : (s.setNsu f).evr = s.evr := (rfl)
@[simp] theorem State.setNsu_eth : (s.setNsu f).eth = s.eth := (rfl)
@[simp] theorem State.setNsu_ptp : (s.setNsu f).ptp = s.ptp := (rfl)
@[simp] theorem State.setNsu_cap : (s.setNsu f).cap = s.cap := (rfl)
@[simp] theorem State.setNsu_rtc : (s.setNsu f).rtc = s.rtc := (rfl)
@[simp] theorem State.setNsu_pnl : (s.setNsu f).pnl = s.pnl := (rfl)
@[simp] theorem State.setNsu_can : (s.setNsu f).can = s.can := (rfl)
@[simp] theorem State.setNsu_plk : (s.setNsu f).plk = s.plk := (rfl)
@[simp] theorem State.setNsu_axes : (s.setNsu f).axes = s.axes := (rfl)
@[simp] theorem State.setNsu_dlk : (s.setNsu f).dlk = s.dlk := (rfl)
@[simp] theorem State.setNsu_mtr : (s.setNsu f).mtr = s.mtr := (rfl)
@[simp] theorem State.setNsu_pls : (s.setNsu f).pls = s.pls := (rfl)
@[simp] theorem State.setNsu_sec : (s.setNsu f).sec = s.sec := (rfl)
@[simp] theorem State.setNsu_stalls : (s.setNsu f).stalls = s.stalls := (rfl)
@[simp] theorem State.setNsu_lge : (s.setNsu f).lge = s.lge := (rfl)
@[simp] theorem State.setNsu_kpr : (s.setNsu f).kpr = s.kpr := (rfl)
@[simp] theorem State.setNsu_dsq : (s.setNsu f).dsq = s.dsq := (rfl)
@[simp] theorem State.setNsu_mdl : (s.setNsu f).mdl = s.mdl := (rfl)
@[simp] theorem State.setNsu_btk : (s.setNsu f).btk = s.btk := (rfl)
@[simp] theorem State.setNsu_nsu : (s.setNsu f).nsu = f s.nsu := (rfl)
end setNsu

section setBtk
variable (f : BtkSt → BtkSt)
@[simp] theorem State.setBtk_pending : (s.setBtk f).pending = s.pending := (rfl)
@[simp] theorem State.setBtk_resp : (s.setBtk f).resp = s.resp := (rfl)
@[simp] theorem State.setBtk_free : (s.setBtk f).free = s.free := (rfl)
@[simp] theorem State.setBtk_regs : (s.setBtk f).regs = s.regs := (rfl)
@[simp] theorem State.setBtk_pages : (s.setBtk f).pages = s.pages := (rfl)
@[simp] theorem State.setBtk_plic : (s.setBtk f).plic = s.plic := (rfl)
@[simp] theorem State.setBtk_blks : (s.setBtk f).blks = s.blks := (rfl)
@[simp] theorem State.setBtk_yard : (s.setBtk f).yard = s.yard := (rfl)
@[simp] theorem State.setBtk_dram : (s.setBtk f).dram = s.dram := (rfl)
@[simp] theorem State.setBtk_stallMem : (s.setBtk f).stallMem = s.stallMem := (rfl)
@[simp] theorem State.setBtk_tcm : (s.setBtk f).tcm = s.tcm := (rfl)
@[simp] theorem State.setBtk_img : (s.setBtk f).img = s.img := (rfl)
@[simp] theorem State.setBtk_pwr : (s.setBtk f).pwr = s.pwr := (rfl)
@[simp] theorem State.setBtk_time : (s.setBtk f).time = s.time := (rfl)
@[simp] theorem State.setBtk_evr : (s.setBtk f).evr = s.evr := (rfl)
@[simp] theorem State.setBtk_eth : (s.setBtk f).eth = s.eth := (rfl)
@[simp] theorem State.setBtk_ptp : (s.setBtk f).ptp = s.ptp := (rfl)
@[simp] theorem State.setBtk_cap : (s.setBtk f).cap = s.cap := (rfl)
@[simp] theorem State.setBtk_rtc : (s.setBtk f).rtc = s.rtc := (rfl)
@[simp] theorem State.setBtk_pnl : (s.setBtk f).pnl = s.pnl := (rfl)
@[simp] theorem State.setBtk_can : (s.setBtk f).can = s.can := (rfl)
@[simp] theorem State.setBtk_plk : (s.setBtk f).plk = s.plk := (rfl)
@[simp] theorem State.setBtk_axes : (s.setBtk f).axes = s.axes := (rfl)
@[simp] theorem State.setBtk_dlk : (s.setBtk f).dlk = s.dlk := (rfl)
@[simp] theorem State.setBtk_mtr : (s.setBtk f).mtr = s.mtr := (rfl)
@[simp] theorem State.setBtk_pls : (s.setBtk f).pls = s.pls := (rfl)
@[simp] theorem State.setBtk_sec : (s.setBtk f).sec = s.sec := (rfl)
@[simp] theorem State.setBtk_stalls : (s.setBtk f).stalls = s.stalls := (rfl)
@[simp] theorem State.setBtk_lge : (s.setBtk f).lge = s.lge := (rfl)
@[simp] theorem State.setBtk_kpr : (s.setBtk f).kpr = s.kpr := (rfl)
@[simp] theorem State.setBtk_dsq : (s.setBtk f).dsq = s.dsq := (rfl)
@[simp] theorem State.setBtk_nsu : (s.setBtk f).nsu = s.nsu := (rfl)
@[simp] theorem State.setBtk_mdl : (s.setBtk f).mdl = s.mdl := (rfl)
@[simp] theorem State.setBtk_btk : (s.setBtk f).btk = f s.btk := (rfl)
end setBtk

section setKpr
variable (f : KprSt → KprSt)
@[simp] theorem State.setKpr_pending : (s.setKpr f).pending = s.pending := (rfl)
@[simp] theorem State.setKpr_resp : (s.setKpr f).resp = s.resp := (rfl)
@[simp] theorem State.setKpr_free : (s.setKpr f).free = s.free := (rfl)
@[simp] theorem State.setKpr_regs : (s.setKpr f).regs = s.regs := (rfl)
@[simp] theorem State.setKpr_pages : (s.setKpr f).pages = s.pages := (rfl)
@[simp] theorem State.setKpr_plic : (s.setKpr f).plic = s.plic := (rfl)
@[simp] theorem State.setKpr_blks : (s.setKpr f).blks = s.blks := (rfl)
@[simp] theorem State.setKpr_yard : (s.setKpr f).yard = s.yard := (rfl)
@[simp] theorem State.setKpr_dram : (s.setKpr f).dram = s.dram := (rfl)
@[simp] theorem State.setKpr_stallMem : (s.setKpr f).stallMem = s.stallMem := (rfl)
@[simp] theorem State.setKpr_tcm : (s.setKpr f).tcm = s.tcm := (rfl)
@[simp] theorem State.setKpr_img : (s.setKpr f).img = s.img := (rfl)
@[simp] theorem State.setKpr_pwr : (s.setKpr f).pwr = s.pwr := (rfl)
@[simp] theorem State.setKpr_time : (s.setKpr f).time = s.time := (rfl)
@[simp] theorem State.setKpr_evr : (s.setKpr f).evr = s.evr := (rfl)
@[simp] theorem State.setKpr_eth : (s.setKpr f).eth = s.eth := (rfl)
@[simp] theorem State.setKpr_ptp : (s.setKpr f).ptp = s.ptp := (rfl)
@[simp] theorem State.setKpr_cap : (s.setKpr f).cap = s.cap := (rfl)
@[simp] theorem State.setKpr_rtc : (s.setKpr f).rtc = s.rtc := (rfl)
@[simp] theorem State.setKpr_pnl : (s.setKpr f).pnl = s.pnl := (rfl)
@[simp] theorem State.setKpr_can : (s.setKpr f).can = s.can := (rfl)
@[simp] theorem State.setKpr_plk : (s.setKpr f).plk = s.plk := (rfl)
@[simp] theorem State.setKpr_axes : (s.setKpr f).axes = s.axes := (rfl)
@[simp] theorem State.setKpr_dlk : (s.setKpr f).dlk = s.dlk := (rfl)
@[simp] theorem State.setKpr_mtr : (s.setKpr f).mtr = s.mtr := (rfl)
@[simp] theorem State.setKpr_pls : (s.setKpr f).pls = s.pls := (rfl)
@[simp] theorem State.setKpr_sec : (s.setKpr f).sec = s.sec := (rfl)
@[simp] theorem State.setKpr_stalls : (s.setKpr f).stalls = s.stalls := (rfl)
@[simp] theorem State.setKpr_lge : (s.setKpr f).lge = s.lge := (rfl)
@[simp] theorem State.setKpr_dsq : (s.setKpr f).dsq = s.dsq := (rfl)
@[simp] theorem State.setKpr_nsu : (s.setKpr f).nsu = s.nsu := (rfl)
@[simp] theorem State.setKpr_mdl : (s.setKpr f).mdl = s.mdl := (rfl)
@[simp] theorem State.setKpr_btk : (s.setKpr f).btk = s.btk := (rfl)
@[simp] theorem State.setKpr_kpr : (s.setKpr f).kpr = f s.kpr := (rfl)
end setKpr

section setSec
variable (f : SecSt → SecSt)
@[simp] theorem State.setSec_pending : (s.setSec f).pending = s.pending := (rfl)
@[simp] theorem State.setSec_resp : (s.setSec f).resp = s.resp := (rfl)
@[simp] theorem State.setSec_free : (s.setSec f).free = s.free := (rfl)
@[simp] theorem State.setSec_regs : (s.setSec f).regs = s.regs := (rfl)
@[simp] theorem State.setSec_pages : (s.setSec f).pages = s.pages := (rfl)
@[simp] theorem State.setSec_plic : (s.setSec f).plic = s.plic := (rfl)
@[simp] theorem State.setSec_blks : (s.setSec f).blks = s.blks := (rfl)
@[simp] theorem State.setSec_yard : (s.setSec f).yard = s.yard := (rfl)
@[simp] theorem State.setSec_dram : (s.setSec f).dram = s.dram := (rfl)
@[simp] theorem State.setSec_stallMem : (s.setSec f).stallMem = s.stallMem := (rfl)
@[simp] theorem State.setSec_tcm : (s.setSec f).tcm = s.tcm := (rfl)
@[simp] theorem State.setSec_img : (s.setSec f).img = s.img := (rfl)
@[simp] theorem State.setSec_pwr : (s.setSec f).pwr = s.pwr := (rfl)
@[simp] theorem State.setSec_time : (s.setSec f).time = s.time := (rfl)
@[simp] theorem State.setSec_evr : (s.setSec f).evr = s.evr := (rfl)
@[simp] theorem State.setSec_eth : (s.setSec f).eth = s.eth := (rfl)
@[simp] theorem State.setSec_ptp : (s.setSec f).ptp = s.ptp := (rfl)
@[simp] theorem State.setSec_cap : (s.setSec f).cap = s.cap := (rfl)
@[simp] theorem State.setSec_rtc : (s.setSec f).rtc = s.rtc := (rfl)
@[simp] theorem State.setSec_pnl : (s.setSec f).pnl = s.pnl := (rfl)
@[simp] theorem State.setSec_can : (s.setSec f).can = s.can := (rfl)
@[simp] theorem State.setSec_plk : (s.setSec f).plk = s.plk := (rfl)
@[simp] theorem State.setSec_axes : (s.setSec f).axes = s.axes := (rfl)
@[simp] theorem State.setSec_dlk : (s.setSec f).dlk = s.dlk := (rfl)
@[simp] theorem State.setSec_mtr : (s.setSec f).mtr = s.mtr := (rfl)
@[simp] theorem State.setSec_pls : (s.setSec f).pls = s.pls := (rfl)
@[simp] theorem State.setSec_stalls : (s.setSec f).stalls = s.stalls := (rfl)
@[simp] theorem State.setSec_lge : (s.setSec f).lge = s.lge := (rfl)
@[simp] theorem State.setSec_kpr : (s.setSec f).kpr = s.kpr := (rfl)
@[simp] theorem State.setSec_dsq : (s.setSec f).dsq = s.dsq := (rfl)
@[simp] theorem State.setSec_nsu : (s.setSec f).nsu = s.nsu := (rfl)
@[simp] theorem State.setSec_mdl : (s.setSec f).mdl = s.mdl := (rfl)
@[simp] theorem State.setSec_btk : (s.setSec f).btk = s.btk := (rfl)
@[simp] theorem State.setSec_sec : (s.setSec f).sec = f s.sec := (rfl)
end setSec

section setPwr
variable (f : PwrSt → PwrSt)
@[simp] theorem State.setPwr_pending : (s.setPwr f).pending = s.pending := (rfl)
@[simp] theorem State.setPwr_resp : (s.setPwr f).resp = s.resp := (rfl)
@[simp] theorem State.setPwr_free : (s.setPwr f).free = s.free := (rfl)
@[simp] theorem State.setPwr_regs : (s.setPwr f).regs = s.regs := (rfl)
@[simp] theorem State.setPwr_pages : (s.setPwr f).pages = s.pages := (rfl)
@[simp] theorem State.setPwr_plic : (s.setPwr f).plic = s.plic := (rfl)
@[simp] theorem State.setPwr_blks : (s.setPwr f).blks = s.blks := (rfl)
@[simp] theorem State.setPwr_yard : (s.setPwr f).yard = s.yard := (rfl)
@[simp] theorem State.setPwr_dram : (s.setPwr f).dram = s.dram := (rfl)
@[simp] theorem State.setPwr_stallMem : (s.setPwr f).stallMem = s.stallMem := (rfl)
@[simp] theorem State.setPwr_tcm : (s.setPwr f).tcm = s.tcm := (rfl)
@[simp] theorem State.setPwr_img : (s.setPwr f).img = s.img := (rfl)
@[simp] theorem State.setPwr_time : (s.setPwr f).time = s.time := (rfl)
@[simp] theorem State.setPwr_evr : (s.setPwr f).evr = s.evr := (rfl)
@[simp] theorem State.setPwr_eth : (s.setPwr f).eth = s.eth := (rfl)
@[simp] theorem State.setPwr_ptp : (s.setPwr f).ptp = s.ptp := (rfl)
@[simp] theorem State.setPwr_cap : (s.setPwr f).cap = s.cap := (rfl)
@[simp] theorem State.setPwr_rtc : (s.setPwr f).rtc = s.rtc := (rfl)
@[simp] theorem State.setPwr_pnl : (s.setPwr f).pnl = s.pnl := (rfl)
@[simp] theorem State.setPwr_can : (s.setPwr f).can = s.can := (rfl)
@[simp] theorem State.setPwr_plk : (s.setPwr f).plk = s.plk := (rfl)
@[simp] theorem State.setPwr_axes : (s.setPwr f).axes = s.axes := (rfl)
@[simp] theorem State.setPwr_dlk : (s.setPwr f).dlk = s.dlk := (rfl)
@[simp] theorem State.setPwr_mtr : (s.setPwr f).mtr = s.mtr := (rfl)
@[simp] theorem State.setPwr_pls : (s.setPwr f).pls = s.pls := (rfl)
@[simp] theorem State.setPwr_sec : (s.setPwr f).sec = s.sec := (rfl)
@[simp] theorem State.setPwr_stalls : (s.setPwr f).stalls = s.stalls := (rfl)
@[simp] theorem State.setPwr_lge : (s.setPwr f).lge = s.lge := (rfl)
@[simp] theorem State.setPwr_kpr : (s.setPwr f).kpr = s.kpr := (rfl)
@[simp] theorem State.setPwr_dsq : (s.setPwr f).dsq = s.dsq := (rfl)
@[simp] theorem State.setPwr_nsu : (s.setPwr f).nsu = s.nsu := (rfl)
@[simp] theorem State.setPwr_mdl : (s.setPwr f).mdl = s.mdl := (rfl)
@[simp] theorem State.setPwr_btk : (s.setPwr f).btk = s.btk := (rfl)
@[simp] theorem State.setPwr_pwr : (s.setPwr f).pwr = f s.pwr := (rfl)
end setPwr

section setPlic
variable (pl : Plane) (f : Plic → Plic)
@[simp] theorem State.setPlic_pending : (s.setPlic pl f).pending = s.pending := (rfl)
@[simp] theorem State.setPlic_resp : (s.setPlic pl f).resp = s.resp := (rfl)
@[simp] theorem State.setPlic_free : (s.setPlic pl f).free = s.free := (rfl)
@[simp] theorem State.setPlic_regs : (s.setPlic pl f).regs = s.regs := (rfl)
@[simp] theorem State.setPlic_pages : (s.setPlic pl f).pages = s.pages := (rfl)
@[simp] theorem State.setPlic_blks : (s.setPlic pl f).blks = s.blks := (rfl)
@[simp] theorem State.setPlic_yard : (s.setPlic pl f).yard = s.yard := (rfl)
@[simp] theorem State.setPlic_dram : (s.setPlic pl f).dram = s.dram := (rfl)
@[simp] theorem State.setPlic_stallMem : (s.setPlic pl f).stallMem = s.stallMem := (rfl)
@[simp] theorem State.setPlic_tcm : (s.setPlic pl f).tcm = s.tcm := (rfl)
@[simp] theorem State.setPlic_img : (s.setPlic pl f).img = s.img := (rfl)
@[simp] theorem State.setPlic_pwr : (s.setPlic pl f).pwr = s.pwr := (rfl)
@[simp] theorem State.setPlic_time : (s.setPlic pl f).time = s.time := (rfl)
@[simp] theorem State.setPlic_evr : (s.setPlic pl f).evr = s.evr := (rfl)
@[simp] theorem State.setPlic_eth : (s.setPlic pl f).eth = s.eth := (rfl)
@[simp] theorem State.setPlic_ptp : (s.setPlic pl f).ptp = s.ptp := (rfl)
@[simp] theorem State.setPlic_cap : (s.setPlic pl f).cap = s.cap := (rfl)
@[simp] theorem State.setPlic_rtc : (s.setPlic pl f).rtc = s.rtc := (rfl)
@[simp] theorem State.setPlic_pnl : (s.setPlic pl f).pnl = s.pnl := (rfl)
@[simp] theorem State.setPlic_can : (s.setPlic pl f).can = s.can := (rfl)
@[simp] theorem State.setPlic_plk : (s.setPlic pl f).plk = s.plk := (rfl)
@[simp] theorem State.setPlic_axes : (s.setPlic pl f).axes = s.axes := (rfl)
@[simp] theorem State.setPlic_dlk : (s.setPlic pl f).dlk = s.dlk := (rfl)
@[simp] theorem State.setPlic_mtr : (s.setPlic pl f).mtr = s.mtr := (rfl)
@[simp] theorem State.setPlic_pls : (s.setPlic pl f).pls = s.pls := (rfl)
@[simp] theorem State.setPlic_sec : (s.setPlic pl f).sec = s.sec := (rfl)
@[simp] theorem State.setPlic_stalls : (s.setPlic pl f).stalls = s.stalls := (rfl)
@[simp] theorem State.setPlic_lge : (s.setPlic pl f).lge = s.lge := (rfl)
@[simp] theorem State.setPlic_kpr : (s.setPlic pl f).kpr = s.kpr := (rfl)
@[simp] theorem State.setPlic_dsq : (s.setPlic pl f).dsq = s.dsq := (rfl)
@[simp] theorem State.setPlic_nsu : (s.setPlic pl f).nsu = s.nsu := (rfl)
@[simp] theorem State.setPlic_mdl : (s.setPlic pl f).mdl = s.mdl := (rfl)
@[simp] theorem State.setPlic_btk : (s.setPlic pl f).btk = s.btk := (rfl)
@[simp] theorem State.setPlic_plic : (s.setPlic pl f).plic = s.plic.set pl (f (s.plic.get pl)) := (rfl)
end setPlic

section setLane
variable (i : Nat) (l : PlkLane)
@[simp] theorem State.setLane_pending : (s.setLane i l).pending = s.pending := (rfl)
@[simp] theorem State.setLane_resp : (s.setLane i l).resp = s.resp := (rfl)
@[simp] theorem State.setLane_free : (s.setLane i l).free = s.free := (rfl)
@[simp] theorem State.setLane_regs : (s.setLane i l).regs = s.regs := (rfl)
@[simp] theorem State.setLane_pages : (s.setLane i l).pages = s.pages := (rfl)
@[simp] theorem State.setLane_plic : (s.setLane i l).plic = s.plic := (rfl)
@[simp] theorem State.setLane_blks : (s.setLane i l).blks = s.blks := (rfl)
@[simp] theorem State.setLane_yard : (s.setLane i l).yard = s.yard := (rfl)
@[simp] theorem State.setLane_dram : (s.setLane i l).dram = s.dram := (rfl)
@[simp] theorem State.setLane_stallMem : (s.setLane i l).stallMem = s.stallMem := (rfl)
@[simp] theorem State.setLane_tcm : (s.setLane i l).tcm = s.tcm := (rfl)
@[simp] theorem State.setLane_img : (s.setLane i l).img = s.img := (rfl)
@[simp] theorem State.setLane_pwr : (s.setLane i l).pwr = s.pwr := (rfl)
@[simp] theorem State.setLane_time : (s.setLane i l).time = s.time := (rfl)
@[simp] theorem State.setLane_evr : (s.setLane i l).evr = s.evr := (rfl)
@[simp] theorem State.setLane_eth : (s.setLane i l).eth = s.eth := (rfl)
@[simp] theorem State.setLane_ptp : (s.setLane i l).ptp = s.ptp := (rfl)
@[simp] theorem State.setLane_cap : (s.setLane i l).cap = s.cap := (rfl)
@[simp] theorem State.setLane_rtc : (s.setLane i l).rtc = s.rtc := (rfl)
@[simp] theorem State.setLane_pnl : (s.setLane i l).pnl = s.pnl := (rfl)
@[simp] theorem State.setLane_can : (s.setLane i l).can = s.can := (rfl)
@[simp] theorem State.setLane_axes : (s.setLane i l).axes = s.axes := (rfl)
@[simp] theorem State.setLane_dlk : (s.setLane i l).dlk = s.dlk := (rfl)
@[simp] theorem State.setLane_mtr : (s.setLane i l).mtr = s.mtr := (rfl)
@[simp] theorem State.setLane_pls : (s.setLane i l).pls = s.pls := (rfl)
@[simp] theorem State.setLane_sec : (s.setLane i l).sec = s.sec := (rfl)
@[simp] theorem State.setLane_stalls : (s.setLane i l).stalls = s.stalls := (rfl)
@[simp] theorem State.setLane_lge : (s.setLane i l).lge = s.lge := (rfl)
@[simp] theorem State.setLane_kpr : (s.setLane i l).kpr = s.kpr := (rfl)
@[simp] theorem State.setLane_dsq : (s.setLane i l).dsq = s.dsq := (rfl)
@[simp] theorem State.setLane_nsu : (s.setLane i l).nsu = s.nsu := (rfl)
@[simp] theorem State.setLane_mdl : (s.setLane i l).mdl = s.mdl := (rfl)
@[simp] theorem State.setLane_btk : (s.setLane i l).btk = s.btk := (rfl)
@[simp] theorem State.setLane_plk : (s.setLane i l).plk = { s.plk with lanes := s.plk.lanes.set (fun _ => {}) i l } := (rfl)
end setLane

end Sys2Proof.Machine
end

