-- ==== Sys2Proof/Laws/Ops.lean ====
section
/-! SUPPORT. What each shared operation does: the register, page header or block state it changes, and that it changes nothing else. -/

namespace Sys2Proof.Machine

variable (s : State)

/-! ### Registers, page headers and block states read after a write -/

theorem State.reg_setReg (a b : Nat) (v : Word) : (s.setReg a v).reg b = if b = a then v else s.reg b := by
  simp only [eq_comm (a := b)]; exact Tab.get_set regReset s.regs a b v
@[simp] theorem State.reg_setReg_self (a : Nat) (v : Word) : (s.setReg a v).reg a = v := by rw [State.reg_setReg, if_pos rfl]
theorem State.reg_setReg_ne {a b : Nat} (v : Word) (h : b ≠ a) : (s.setReg a v).reg b = s.reg b := by rw [State.reg_setReg, if_neg h]
theorem State.page_setPage (p q : Nat) (h : PageHdr) : (s.setPage p h).page q = if q = p then h else s.page q := by
  simp only [eq_comm (a := q)]; exact Tab.get_set (fun _ => ({} : PageHdr)) s.pages p q h
theorem State.blk_setBlk (p q : Nat) (b : Blk) : (s.setBlk p b).blk q = if q = p then b else s.blk q := by
  simp only [eq_comm (a := q)]; exact Tab.get_set blkReset s.blks p q b
theorem State.reg_setFld (a b hi lo x : Nat) : (s.setFld a hi lo x).reg b = if b = a then putBits (s.reg a) hi lo x else s.reg b :=
  s.reg_setReg a b _
theorem State.reg_setFlag (a b i : Nat) (v : Bool) : (s.setFlag a i v).reg b = if b = a then putBit (s.reg a) i v else s.reg b :=
  s.reg_setReg a b _
theorem State.reg_incReg (a b : Nat) : (s.incReg a).reg b = if b = a then s.reg a + 1 else s.reg b := s.reg_setReg a b _
/-- IRQ_STAT gains the cause. -/
theorem State.page_irq (p i q : Nat) :
    (s.irq p i).page q = if q = p then { s.page p with irqStat := (s.page p).irqStat ||| bitW i } else s.page q :=
  s.page_setPage p q _
/-- ERRCODE takes code and detail, and BLOCKERR follows the code. -/
theorem State.page_errc (p c d q : Nat) :
    (s.errc p c d).page q = if q = p then { s.page p with
      errcode := wd (c % 0x10000 + 0x10000 * (d % 0x10000)),
      err := if 0x100 ≤ c % 0x10000 then (s.page p).err ||| 0x20 else (s.page p).err &&& 0x1F } else s.page q :=
  s.page_setPage p q _

/-! ### What each operation leaves as it was -/

section setFld
variable (a hi lo x : Nat)
@[simp] theorem State.setFld_pending : (s.setFld a hi lo x).pending = s.pending := State.regs_pending s _
@[simp] theorem State.setFld_resp : (s.setFld a hi lo x).resp = s.resp := State.regs_resp s _
@[simp] theorem State.setFld_free : (s.setFld a hi lo x).free = s.free := State.regs_free s _
@[simp] theorem State.setFld_pages : (s.setFld a hi lo x).pages = s.pages := State.regs_pages s _
@[simp] theorem State.setFld_plic : (s.setFld a hi lo x).plic = s.plic := State.regs_plic s _
@[simp] theorem State.setFld_blks : (s.setFld a hi lo x).blks = s.blks := State.regs_blks s _
@[simp] theorem State.setFld_yard : (s.setFld a hi lo x).yard = s.yard := State.regs_yard s _
@[simp] theorem State.setFld_dram : (s.setFld a hi lo x).dram = s.dram := State.regs_dram s _
@[simp] theorem State.setFld_stallMem : (s.setFld a hi lo x).stallMem = s.stallMem := State.regs_stallMem s _
@[simp] theorem State.setFld_tcm : (s.setFld a hi lo x).tcm = s.tcm := State.regs_tcm s _
@[simp] theorem State.setFld_img : (s.setFld a hi lo x).img = s.img := State.regs_img s _
@[simp] theorem State.setFld_pwr : (s.setFld a hi lo x).pwr = s.pwr := State.regs_pwr s _
@[simp] theorem State.setFld_time : (s.setFld a hi lo x).time = s.time := State.regs_time s _
@[simp] theorem State.setFld_evr : (s.setFld a hi lo x).evr = s.evr := State.regs_evr s _
@[simp] theorem State.setFld_eth : (s.setFld a hi lo x).eth = s.eth := State.regs_eth s _
@[simp] theorem State.setFld_ptp : (s.setFld a hi lo x).ptp = s.ptp := State.regs_ptp s _
@[simp] theorem State.setFld_cap : (s.setFld a hi lo x).cap = s.cap := State.regs_cap s _
@[simp] theorem State.setFld_rtc : (s.setFld a hi lo x).rtc = s.rtc := State.regs_rtc s _
@[simp] theorem State.setFld_pnl : (s.setFld a hi lo x).pnl = s.pnl := State.regs_pnl s _
@[simp] theorem State.setFld_can : (s.setFld a hi lo x).can = s.can := State.regs_can s _
@[simp] theorem State.setFld_plk : (s.setFld a hi lo x).plk = s.plk := State.regs_plk s _
@[simp] theorem State.setFld_axes : (s.setFld a hi lo x).axes = s.axes := State.regs_axes s _
@[simp] theorem State.setFld_dlk : (s.setFld a hi lo x).dlk = s.dlk := State.regs_dlk s _
@[simp] theorem State.setFld_mtr : (s.setFld a hi lo x).mtr = s.mtr := State.regs_mtr s _
@[simp] theorem State.setFld_pls : (s.setFld a hi lo x).pls = s.pls := State.regs_pls s _
@[simp] theorem State.setFld_sec : (s.setFld a hi lo x).sec = s.sec := State.regs_sec s _
@[simp] theorem State.setFld_stalls : (s.setFld a hi lo x).stalls = s.stalls := State.regs_stalls s _
@[simp] theorem State.setFld_lge : (s.setFld a hi lo x).lge = s.lge := State.regs_lge s _
@[simp] theorem State.setFld_kpr : (s.setFld a hi lo x).kpr = s.kpr := State.regs_kpr s _
@[simp] theorem State.setFld_dsq : (s.setFld a hi lo x).dsq = s.dsq := State.regs_dsq s _
@[simp] theorem State.setFld_nsu : (s.setFld a hi lo x).nsu = s.nsu := State.regs_nsu s _
@[simp] theorem State.setFld_mdl : (s.setFld a hi lo x).mdl = s.mdl := State.regs_mdl s _
@[simp] theorem State.setFld_btk : (s.setFld a hi lo x).btk = s.btk := State.regs_btk s _
end setFld

section setFlag
variable (a i : Nat) (b : Bool)
@[simp] theorem State.setFlag_pending : (s.setFlag a i b).pending = s.pending := State.regs_pending s _
@[simp] theorem State.setFlag_resp : (s.setFlag a i b).resp = s.resp := State.regs_resp s _
@[simp] theorem State.setFlag_free : (s.setFlag a i b).free = s.free := State.regs_free s _
@[simp] theorem State.setFlag_pages : (s.setFlag a i b).pages = s.pages := State.regs_pages s _
@[simp] theorem State.setFlag_plic : (s.setFlag a i b).plic = s.plic := State.regs_plic s _
@[simp] theorem State.setFlag_blks : (s.setFlag a i b).blks = s.blks := State.regs_blks s _
@[simp] theorem State.setFlag_yard : (s.setFlag a i b).yard = s.yard := State.regs_yard s _
@[simp] theorem State.setFlag_dram : (s.setFlag a i b).dram = s.dram := State.regs_dram s _
@[simp] theorem State.setFlag_stallMem : (s.setFlag a i b).stallMem = s.stallMem := State.regs_stallMem s _
@[simp] theorem State.setFlag_tcm : (s.setFlag a i b).tcm = s.tcm := State.regs_tcm s _
@[simp] theorem State.setFlag_img : (s.setFlag a i b).img = s.img := State.regs_img s _
@[simp] theorem State.setFlag_pwr : (s.setFlag a i b).pwr = s.pwr := State.regs_pwr s _
@[simp] theorem State.setFlag_time : (s.setFlag a i b).time = s.time := State.regs_time s _
@[simp] theorem State.setFlag_evr : (s.setFlag a i b).evr = s.evr := State.regs_evr s _
@[simp] theorem State.setFlag_eth : (s.setFlag a i b).eth = s.eth := State.regs_eth s _
@[simp] theorem State.setFlag_ptp : (s.setFlag a i b).ptp = s.ptp := State.regs_ptp s _
@[simp] theorem State.setFlag_cap : (s.setFlag a i b).cap = s.cap := State.regs_cap s _
@[simp] theorem State.setFlag_rtc : (s.setFlag a i b).rtc = s.rtc := State.regs_rtc s _
@[simp] theorem State.setFlag_pnl : (s.setFlag a i b).pnl = s.pnl := State.regs_pnl s _
@[simp] theorem State.setFlag_can : (s.setFlag a i b).can = s.can := State.regs_can s _
@[simp] theorem State.setFlag_plk : (s.setFlag a i b).plk = s.plk := State.regs_plk s _
@[simp] theorem State.setFlag_axes : (s.setFlag a i b).axes = s.axes := State.regs_axes s _
@[simp] theorem State.setFlag_dlk : (s.setFlag a i b).dlk = s.dlk := State.regs_dlk s _
@[simp] theorem State.setFlag_mtr : (s.setFlag a i b).mtr = s.mtr := State.regs_mtr s _
@[simp] theorem State.setFlag_pls : (s.setFlag a i b).pls = s.pls := State.regs_pls s _
@[simp] theorem State.setFlag_sec : (s.setFlag a i b).sec = s.sec := State.regs_sec s _
@[simp] theorem State.setFlag_stalls : (s.setFlag a i b).stalls = s.stalls := State.regs_stalls s _
@[simp] theorem State.setFlag_lge : (s.setFlag a i b).lge = s.lge := State.regs_lge s _
@[simp] theorem State.setFlag_kpr : (s.setFlag a i b).kpr = s.kpr := State.regs_kpr s _
@[simp] theorem State.setFlag_dsq : (s.setFlag a i b).dsq = s.dsq := State.regs_dsq s _
@[simp] theorem State.setFlag_nsu : (s.setFlag a i b).nsu = s.nsu := State.regs_nsu s _
@[simp] theorem State.setFlag_mdl : (s.setFlag a i b).mdl = s.mdl := State.regs_mdl s _
@[simp] theorem State.setFlag_btk : (s.setFlag a i b).btk = s.btk := State.regs_btk s _
end setFlag

section incReg
variable (a : Nat)
@[simp] theorem State.incReg_pending : (s.incReg a).pending = s.pending := State.regs_pending s _
@[simp] theorem State.incReg_resp : (s.incReg a).resp = s.resp := State.regs_resp s _
@[simp] theorem State.incReg_free : (s.incReg a).free = s.free := State.regs_free s _
@[simp] theorem State.incReg_pages : (s.incReg a).pages = s.pages := State.regs_pages s _
@[simp] theorem State.incReg_plic : (s.incReg a).plic = s.plic := State.regs_plic s _
@[simp] theorem State.incReg_blks : (s.incReg a).blks = s.blks := State.regs_blks s _
@[simp] theorem State.incReg_yard : (s.incReg a).yard = s.yard := State.regs_yard s _
@[simp] theorem State.incReg_dram : (s.incReg a).dram = s.dram := State.regs_dram s _
@[simp] theorem State.incReg_stallMem : (s.incReg a).stallMem = s.stallMem := State.regs_stallMem s _
@[simp] theorem State.incReg_tcm : (s.incReg a).tcm = s.tcm := State.regs_tcm s _
@[simp] theorem State.incReg_img : (s.incReg a).img = s.img := State.regs_img s _
@[simp] theorem State.incReg_pwr : (s.incReg a).pwr = s.pwr := State.regs_pwr s _
@[simp] theorem State.incReg_time : (s.incReg a).time = s.time := State.regs_time s _
@[simp] theorem State.incReg_evr : (s.incReg a).evr = s.evr := State.regs_evr s _
@[simp] theorem State.incReg_eth : (s.incReg a).eth = s.eth := State.regs_eth s _
@[simp] theorem State.incReg_ptp : (s.incReg a).ptp = s.ptp := State.regs_ptp s _
@[simp] theorem State.incReg_cap : (s.incReg a).cap = s.cap := State.regs_cap s _
@[simp] theorem State.incReg_rtc : (s.incReg a).rtc = s.rtc := State.regs_rtc s _
@[simp] theorem State.incReg_pnl : (s.incReg a).pnl = s.pnl := State.regs_pnl s _
@[simp] theorem State.incReg_can : (s.incReg a).can = s.can := State.regs_can s _
@[simp] theorem State.incReg_plk : (s.incReg a).plk = s.plk := State.regs_plk s _
@[simp] theorem State.incReg_axes : (s.incReg a).axes = s.axes := State.regs_axes s _
@[simp] theorem State.incReg_dlk : (s.incReg a).dlk = s.dlk := State.regs_dlk s _
@[simp] theorem State.incReg_mtr : (s.incReg a).mtr = s.mtr := State.regs_mtr s _
@[simp] theorem State.incReg_pls : (s.incReg a).pls = s.pls := State.regs_pls s _
@[simp] theorem State.incReg_sec : (s.incReg a).sec = s.sec := State.regs_sec s _
@[simp] theorem State.incReg_stalls : (s.incReg a).stalls = s.stalls := State.regs_stalls s _
@[simp] theorem State.incReg_lge : (s.incReg a).lge = s.lge := State.regs_lge s _
@[simp] theorem State.incReg_kpr : (s.incReg a).kpr = s.kpr := State.regs_kpr s _
@[simp] theorem State.incReg_dsq : (s.incReg a).dsq = s.dsq := State.regs_dsq s _
@[simp] theorem State.incReg_nsu : (s.incReg a).nsu = s.nsu := State.regs_nsu s _
@[simp] theorem State.incReg_mdl : (s.incReg a).mdl = s.mdl := State.regs_mdl s _
@[simp] theorem State.incReg_btk : (s.incReg a).btk = s.btk := State.regs_btk s _
end incReg

section irq
variable (p i : Nat)
@[simp] theorem State.irq_pending : (s.irq p i).pending = s.pending := (rfl)
@[simp] theorem State.irq_resp : (s.irq p i).resp = s.resp := (rfl)
@[simp] theorem State.irq_free : (s.irq p i).free = s.free := (rfl)
@[simp] theorem State.irq_regs : (s.irq p i).regs = s.regs := (rfl)
@[simp] theorem State.irq_blks : (s.irq p i).blks = s.blks := (rfl)
@[simp] theorem State.irq_yard : (s.irq p i).yard = s.yard := (rfl)
@[simp] theorem State.irq_dram : (s.irq p i).dram = s.dram := (rfl)
@[simp] theorem State.irq_stallMem : (s.irq p i).stallMem = s.stallMem := (rfl)
@[simp] theorem State.irq_tcm : (s.irq p i).tcm = s.tcm := (rfl)
@[simp] theorem State.irq_img : (s.irq p i).img = s.img := (rfl)
@[simp] theorem State.irq_pwr : (s.irq p i).pwr = s.pwr := (rfl)
@[simp] theorem State.irq_time : (s.irq p i).time = s.time := (rfl)
@[simp] theorem State.irq_evr : (s.irq p i).evr = s.evr := (rfl)
@[simp] theorem State.irq_eth : (s.irq p i).eth = s.eth := (rfl)
@[simp] theorem State.irq_ptp : (s.irq p i).ptp = s.ptp := (rfl)
@[simp] theorem State.irq_cap : (s.irq p i).cap = s.cap := (rfl)
@[simp] theorem State.irq_rtc : (s.irq p i).rtc = s.rtc := (rfl)
@[simp] theorem State.irq_pnl : (s.irq p i).pnl = s.pnl := (rfl)
@[simp] theorem State.irq_can : (s.irq p i).can = s.can := (rfl)
@[simp] theorem State.irq_plk : (s.irq p i).plk = s.plk := (rfl)
@[simp] theorem State.irq_axes : (s.irq p i).axes = s.axes := (rfl)
@[simp] theorem State.irq_dlk : (s.irq p i).dlk = s.dlk := (rfl)
@[simp] theorem State.irq_mtr : (s.irq p i).mtr = s.mtr := (rfl)
@[simp] theorem State.irq_pls : (s.irq p i).pls = s.pls := (rfl)
@[simp] theorem State.irq_sec : (s.irq p i).sec = s.sec := (rfl)
@[simp] theorem State.irq_stalls : (s.irq p i).stalls = s.stalls := (rfl)
@[simp] theorem State.irq_lge : (s.irq p i).lge = s.lge := (rfl)
@[simp] theorem State.irq_kpr : (s.irq p i).kpr = s.kpr := (rfl)
@[simp] theorem State.irq_dsq : (s.irq p i).dsq = s.dsq := (rfl)
@[simp] theorem State.irq_nsu : (s.irq p i).nsu = s.nsu := (rfl)
@[simp] theorem State.irq_mdl : (s.irq p i).mdl = s.mdl := (rfl)
@[simp] theorem State.irq_btk : (s.irq p i).btk = s.btk := (rfl)
end irq

section errc
variable (p c d : Nat)
@[simp] theorem State.errc_pending : (s.errc p c d).pending = s.pending := (rfl)
@[simp] theorem State.errc_resp : (s.errc p c d).resp = s.resp := (rfl)
@[simp] theorem State.errc_free : (s.errc p c d).free = s.free := (rfl)
@[simp] theorem State.errc_regs : (s.errc p c d).regs = s.regs := (rfl)
@[simp] theorem State.errc_blks : (s.errc p c d).blks = s.blks := (rfl)
@[simp] theorem State.errc_yard : (s.errc p c d).yard = s.yard := (rfl)
@[simp] theorem State.errc_dram : (s.errc p c d).dram = s.dram := (rfl)
@[simp] theorem State.errc_stallMem : (s.errc p c d).stallMem = s.stallMem := (rfl)
@[simp] theorem State.errc_tcm : (s.errc p c d).tcm = s.tcm := (rfl)
@[simp] theorem State.errc_img : (s.errc p c d).img = s.img := (rfl)
@[simp] theorem State.errc_pwr : (s.errc p c d).pwr = s.pwr := (rfl)
@[simp] theorem State.errc_time : (s.errc p c d).time = s.time := (rfl)
@[simp] theorem State.errc_evr : (s.errc p c d).evr = s.evr := (rfl)
@[simp] theorem State.errc_eth : (s.errc p c d).eth = s.eth := (rfl)
@[simp] theorem State.errc_ptp : (s.errc p c d).ptp = s.ptp := (rfl)
@[simp] theorem State.errc_cap : (s.errc p c d).cap = s.cap := (rfl)
@[simp] theorem State.errc_rtc : (s.errc p c d).rtc = s.rtc := (rfl)
@[simp] theorem State.errc_pnl : (s.errc p c d).pnl = s.pnl := (rfl)
@[simp] theorem State.errc_can : (s.errc p c d).can = s.can := (rfl)
@[simp] theorem State.errc_plk : (s.errc p c d).plk = s.plk := (rfl)
@[simp] theorem State.errc_axes : (s.errc p c d).axes = s.axes := (rfl)
@[simp] theorem State.errc_dlk : (s.errc p c d).dlk = s.dlk := (rfl)
@[simp] theorem State.errc_mtr : (s.errc p c d).mtr = s.mtr := (rfl)
@[simp] theorem State.errc_pls : (s.errc p c d).pls = s.pls := (rfl)
@[simp] theorem State.errc_sec : (s.errc p c d).sec = s.sec := (rfl)
@[simp] theorem State.errc_stalls : (s.errc p c d).stalls = s.stalls := (rfl)
@[simp] theorem State.errc_lge : (s.errc p c d).lge = s.lge := (rfl)
@[simp] theorem State.errc_kpr : (s.errc p c d).kpr = s.kpr := (rfl)
@[simp] theorem State.errc_dsq : (s.errc p c d).dsq = s.dsq := (rfl)
@[simp] theorem State.errc_nsu : (s.errc p c d).nsu = s.nsu := (rfl)
@[simp] theorem State.errc_mdl : (s.errc p c d).mdl = s.mdl := (rfl)
@[simp] theorem State.errc_btk : (s.errc p c d).btk = s.btk := (rfl)
end errc

section statBit
variable (p i : Nat) (b : Bool)
@[simp] theorem State.statBit_pending : (s.statBit p i b).pending = s.pending := (rfl)
@[simp] theorem State.statBit_resp : (s.statBit p i b).resp = s.resp := (rfl)
@[simp] theorem State.statBit_free : (s.statBit p i b).free = s.free := (rfl)
@[simp] theorem State.statBit_regs : (s.statBit p i b).regs = s.regs := (rfl)
@[simp] theorem State.statBit_blks : (s.statBit p i b).blks = s.blks := (rfl)
@[simp] theorem State.statBit_yard : (s.statBit p i b).yard = s.yard := (rfl)
@[simp] theorem State.statBit_dram : (s.statBit p i b).dram = s.dram := (rfl)
@[simp] theorem State.statBit_stallMem : (s.statBit p i b).stallMem = s.stallMem := (rfl)
@[simp] theorem State.statBit_tcm : (s.statBit p i b).tcm = s.tcm := (rfl)
@[simp] theorem State.statBit_img : (s.statBit p i b).img = s.img := (rfl)
@[simp] theorem State.statBit_pwr : (s.statBit p i b).pwr = s.pwr := (rfl)
@[simp] theorem State.statBit_time : (s.statBit p i b).time = s.time := (rfl)
@[simp] theorem State.statBit_evr : (s.statBit p i b).evr = s.evr := (rfl)
@[simp] theorem State.statBit_eth : (s.statBit p i b).eth = s.eth := (rfl)
@[simp] theorem State.statBit_ptp : (s.statBit p i b).ptp = s.ptp := (rfl)
@[simp] theorem State.statBit_cap : (s.statBit p i b).cap = s.cap := (rfl)
@[simp] theorem State.statBit_rtc : (s.statBit p i b).rtc = s.rtc := (rfl)
@[simp] theorem State.statBit_pnl : (s.statBit p i b).pnl = s.pnl := (rfl)
@[simp] theorem State.statBit_can : (s.statBit p i b).can = s.can := (rfl)
@[simp] theorem State.statBit_plk : (s.statBit p i b).plk = s.plk := (rfl)
@[simp] theorem State.statBit_axes : (s.statBit p i b).axes = s.axes := (rfl)
@[simp] theorem State.statBit_dlk : (s.statBit p i b).dlk = s.dlk := (rfl)
@[simp] theorem State.statBit_mtr : (s.statBit p i b).mtr = s.mtr := (rfl)
@[simp] theorem State.statBit_pls : (s.statBit p i b).pls = s.pls := (rfl)
@[simp] theorem State.statBit_sec : (s.statBit p i b).sec = s.sec := (rfl)
@[simp] theorem State.statBit_stalls : (s.statBit p i b).stalls = s.stalls := (rfl)
@[simp] theorem State.statBit_lge : (s.statBit p i b).lge = s.lge := (rfl)
@[simp] theorem State.statBit_kpr : (s.statBit p i b).kpr = s.kpr := (rfl)
@[simp] theorem State.statBit_dsq : (s.statBit p i b).dsq = s.dsq := (rfl)
@[simp] theorem State.statBit_nsu : (s.statBit p i b).nsu = s.nsu := (rfl)
@[simp] theorem State.statBit_mdl : (s.statBit p i b).mdl = s.mdl := (rfl)
@[simp] theorem State.statBit_btk : (s.statBit p i b).btk = s.btk := (rfl)
end statBit

section setReg64
variable (lo hi n : Nat)
@[simp] theorem State.setReg64_pending : (s.setReg64 lo hi n).pending = s.pending := (rfl)
@[simp] theorem State.setReg64_resp : (s.setReg64 lo hi n).resp = s.resp := (rfl)
@[simp] theorem State.setReg64_free : (s.setReg64 lo hi n).free = s.free := (rfl)
@[simp] theorem State.setReg64_pages : (s.setReg64 lo hi n).pages = s.pages := (rfl)
@[simp] theorem State.setReg64_plic : (s.setReg64 lo hi n).plic = s.plic := (rfl)
@[simp] theorem State.setReg64_blks : (s.setReg64 lo hi n).blks = s.blks := (rfl)
@[simp] theorem State.setReg64_yard : (s.setReg64 lo hi n).yard = s.yard := (rfl)
@[simp] theorem State.setReg64_dram : (s.setReg64 lo hi n).dram = s.dram := (rfl)
@[simp] theorem State.setReg64_stallMem : (s.setReg64 lo hi n).stallMem = s.stallMem := (rfl)
@[simp] theorem State.setReg64_tcm : (s.setReg64 lo hi n).tcm = s.tcm := (rfl)
@[simp] theorem State.setReg64_img : (s.setReg64 lo hi n).img = s.img := (rfl)
@[simp] theorem State.setReg64_pwr : (s.setReg64 lo hi n).pwr = s.pwr := (rfl)
@[simp] theorem State.setReg64_time : (s.setReg64 lo hi n).time = s.time := (rfl)
@[simp] theorem State.setReg64_evr : (s.setReg64 lo hi n).evr = s.evr := (rfl)
@[simp] theorem State.setReg64_eth : (s.setReg64 lo hi n).eth = s.eth := (rfl)
@[simp] theorem State.setReg64_ptp : (s.setReg64 lo hi n).ptp = s.ptp := (rfl)
@[simp] theorem State.setReg64_cap : (s.setReg64 lo hi n).cap = s.cap := (rfl)
@[simp] theorem State.setReg64_rtc : (s.setReg64 lo hi n).rtc = s.rtc := (rfl)
@[simp] theorem State.setReg64_pnl : (s.setReg64 lo hi n).pnl = s.pnl := (rfl)
@[simp] theorem State.setReg64_can : (s.setReg64 lo hi n).can = s.can := (rfl)
@[simp] theorem State.setReg64_plk : (s.setReg64 lo hi n).plk = s.plk := (rfl)
@[simp] theorem State.setReg64_axes : (s.setReg64 lo hi n).axes = s.axes := (rfl)
@[simp] theorem State.setReg64_dlk : (s.setReg64 lo hi n).dlk = s.dlk := (rfl)
@[simp] theorem State.setReg64_mtr : (s.setReg64 lo hi n).mtr = s.mtr := (rfl)
@[simp] theorem State.setReg64_pls : (s.setReg64 lo hi n).pls = s.pls := (rfl)
@[simp] theorem State.setReg64_sec : (s.setReg64 lo hi n).sec = s.sec := (rfl)
@[simp] theorem State.setReg64_stalls : (s.setReg64 lo hi n).stalls = s.stalls := (rfl)
@[simp] theorem State.setReg64_lge : (s.setReg64 lo hi n).lge = s.lge := (rfl)
@[simp] theorem State.setReg64_kpr : (s.setReg64 lo hi n).kpr = s.kpr := (rfl)
@[simp] theorem State.setReg64_dsq : (s.setReg64 lo hi n).dsq = s.dsq := (rfl)
@[simp] theorem State.setReg64_nsu : (s.setReg64 lo hi n).nsu = s.nsu := (rfl)
@[simp] theorem State.setReg64_mdl : (s.setReg64 lo hi n).mdl = s.mdl := (rfl)
@[simp] theorem State.setReg64_btk : (s.setReg64 lo hi n).btk = s.btk := (rfl)
end setReg64

section setRegs
variable (l : List (Nat × Word))
@[simp] theorem State.setRegs_pending : (s.setRegs l).pending = s.pending := by
  induction l generalizing s with
  | nil => rfl
  | cons e l ih => exact ih (s.setReg e.1 e.2)
@[simp] theorem State.setRegs_resp : (s.setRegs l).resp = s.resp := by
  induction l generalizing s with
  | nil => rfl
  | cons e l ih => exact ih (s.setReg e.1 e.2)
@[simp] theorem State.setRegs_free : (s.setRegs l).free = s.free := by
  induction l generalizing s with
  | nil => rfl
  | cons e l ih => exact ih (s.setReg e.1 e.2)
@[simp] theorem State.setRegs_pages : (s.setRegs l).pages = s.pages := by
  induction l generalizing s with
  | nil => rfl
  | cons e l ih => exact ih (s.setReg e.1 e.2)
@[simp] theorem State.setRegs_plic : (s.setRegs l).plic = s.plic := by
  induction l generalizing s with
  | nil => rfl
  | cons e l ih => exact ih (s.setReg e.1 e.2)
@[simp] theorem State.setRegs_blks : (s.setRegs l).blks = s.blks := by
  induction l generalizing s with
  | nil => rfl
  | cons e l ih => exact ih (s.setReg e.1 e.2)
@[simp] theorem State.setRegs_yard : (s.setRegs l).yard = s.yard := by
  induction l generalizing s with
  | nil => rfl
  | cons e l ih => exact ih (s.setReg e.1 e.2)
@[simp] theorem State.setRegs_dram : (s.setRegs l).dram = s.dram := by
  induction l generalizing s with
  | nil => rfl
  | cons e l ih => exact ih (s.setReg e.1 e.2)
@[simp] theorem State.setRegs_stallMem : (s.setRegs l).stallMem = s.stallMem := by
  induction l generalizing s with
  | nil => rfl
  | cons e l ih => exact ih (s.setReg e.1 e.2)
@[simp] theorem State.setRegs_tcm : (s.setRegs l).tcm = s.tcm := by
  induction l generalizing s with
  | nil => rfl
  | cons e l ih => exact ih (s.setReg e.1 e.2)
@[simp] theorem State.setRegs_img : (s.setRegs l).img = s.img := by
  induction l generalizing s with
  | nil => rfl
  | cons e l ih => exact ih (s.setReg e.1 e.2)
@[simp] theorem State.setRegs_pwr : (s.setRegs l).pwr = s.pwr := by
  induction l generalizing s with
  | nil => rfl
  | cons e l ih => exact ih (s.setReg e.1 e.2)
@[simp] theorem State.setRegs_time : (s.setRegs l).time = s.time := by
  induction l generalizing s with
  | nil => rfl
  | cons e l ih => exact ih (s.setReg e.1 e.2)
@[simp] theorem State.setRegs_evr : (s.setRegs l).evr = s.evr := by
  induction l generalizing s with
  | nil => rfl
  | cons e l ih => exact ih (s.setReg e.1 e.2)
@[simp] theorem State.setRegs_eth : (s.setRegs l).eth = s.eth := by
  induction l generalizing s with
  | nil => rfl
  | cons e l ih => exact ih (s.setReg e.1 e.2)
@[simp] theorem State.setRegs_ptp : (s.setRegs l).ptp = s.ptp := by
  induction l generalizing s with
  | nil => rfl
  | cons e l ih => exact ih (s.setReg e.1 e.2)
@[simp] theorem State.setRegs_cap : (s.setRegs l).cap = s.cap := by
  induction l generalizing s with
  | nil => rfl
  | cons e l ih => exact ih (s.setReg e.1 e.2)
@[simp] theorem State.setRegs_rtc : (s.setRegs l).rtc = s.rtc := by
  induction l generalizing s with
  | nil => rfl
  | cons e l ih => exact ih (s.setReg e.1 e.2)
@[simp] theorem State.setRegs_pnl : (s.setRegs l).pnl = s.pnl := by
  induction l generalizing s with
  | nil => rfl
  | cons e l ih => exact ih (s.setReg e.1 e.2)
@[simp] theorem State.setRegs_can : (s.setRegs l).can = s.can := by
  induction l generalizing s with
  | nil => rfl
  | cons e l ih => exact ih (s.setReg e.1 e.2)
@[simp] theorem State.setRegs_plk : (s.setRegs l).plk = s.plk := by
  induction l generalizing s with
  | nil => rfl
  | cons e l ih => exact ih (s.setReg e.1 e.2)
@[simp] theorem State.setRegs_axes : (s.setRegs l).axes = s.axes := by
  induction l generalizing s with
  | nil => rfl
  | cons e l ih => exact ih (s.setReg e.1 e.2)
@[simp] theorem State.setRegs_dlk : (s.setRegs l).dlk = s.dlk := by
  induction l generalizing s with
  | nil => rfl
  | cons e l ih => exact ih (s.setReg e.1 e.2)
@[simp] theorem State.setRegs_mtr : (s.setRegs l).mtr = s.mtr := by
  induction l generalizing s with
  | nil => rfl
  | cons e l ih => exact ih (s.setReg e.1 e.2)
@[simp] theorem State.setRegs_pls : (s.setRegs l).pls = s.pls := by
  induction l generalizing s with
  | nil => rfl
  | cons e l ih => exact ih (s.setReg e.1 e.2)
@[simp] theorem State.setRegs_sec : (s.setRegs l).sec = s.sec := by
  induction l generalizing s with
  | nil => rfl
  | cons e l ih => exact ih (s.setReg e.1 e.2)
@[simp] theorem State.setRegs_stalls : (s.setRegs l).stalls = s.stalls := by
  induction l generalizing s with
  | nil => rfl
  | cons e l ih => exact ih (s.setReg e.1 e.2)
@[simp] theorem State.setRegs_lge : (s.setRegs l).lge = s.lge := by
  induction l generalizing s with
  | nil => rfl
  | cons e l ih => exact ih (s.setReg e.1 e.2)
@[simp] theorem State.setRegs_kpr : (s.setRegs l).kpr = s.kpr := by
  induction l generalizing s with
  | nil => rfl
  | cons e l ih => exact ih (s.setReg e.1 e.2)
@[simp] theorem State.setRegs_dsq : (s.setRegs l).dsq = s.dsq := by
  induction l generalizing s with
  | nil => rfl
  | cons e l ih => exact ih (s.setReg e.1 e.2)
@[simp] theorem State.setRegs_nsu : (s.setRegs l).nsu = s.nsu := by
  induction l generalizing s with
  | nil => rfl
  | cons e l ih => exact ih (s.setReg e.1 e.2)
@[simp] theorem State.setRegs_mdl : (s.setRegs l).mdl = s.mdl := by
  induction l generalizing s with
  | nil => rfl
  | cons e l ih => exact ih (s.setReg e.1 e.2)
@[simp] theorem State.setRegs_btk : (s.setRegs l).btk = s.btk := by
  induction l generalizing s with
  | nil => rfl
  | cons e l ih => exact ih (s.setReg e.1 e.2)
end setRegs

/-! ### What reads the same after each operation -/

@[simp] theorem State.reg_irq (p x : Nat) (b : Nat) : (s.irq p x).reg b = s.reg b := (rfl)
@[simp] theorem State.fld_irq (p x : Nat) (b i j : Nat) : (s.irq p x).fld b i j = s.fld b i j := (rfl)
@[simp] theorem State.flag_irq (p x : Nat) (b i : Nat) : (s.irq p x).flag b i = s.flag b i := (rfl)
@[simp] theorem State.reg64_irq (p x : Nat) (b c : Nat) : (s.irq p x).reg64 b c = s.reg64 b c := (rfl)
@[simp] theorem State.dom_irq (p x : Nat) (k : Nat) : (s.irq p x).dom k = s.dom k := (rfl)
@[simp] theorem State.up_irq (p x : Nat) (k : Nat) : (s.irq p x).up k = s.up k := (rfl)
@[simp] theorem State.locked_irq (p x : Nat) (k : Nat) : (s.irq p x).locked k = s.locked k := (rfl)
@[simp] theorem State.blk_irq (p x : Nat) (q : Nat) : (s.irq p x).blk q = s.blk q := (rfl)
@[simp] theorem State.shown_irq (p x : Nat) (q : Nat) : (s.irq p x).shown q = s.shown q := (rfl)
@[simp] theorem State.running_irq (p x : Nat) (q : Nat) : (s.irq p x).running q = s.running q := (rfl)
@[simp] theorem State.active_irq (p x : Nat) (q : Nat) : (s.irq p x).active q = s.active q := (rfl)
@[simp] theorem State.dramUp_irq (p x : Nat) : (s.irq p x).dramUp = s.dramUp := (rfl)
@[simp] theorem State.role_irq (p x : Nat) : (s.irq p x).role = s.role := (rfl)
@[simp] theorem State.acts_irq (p x : Nat) : (s.irq p x).acts = s.acts := (rfl)
@[simp] theorem State.epoch_irq (p x : Nat) : (s.irq p x).epoch = s.epoch := (rfl)
@[simp] theorem State.reg_errc (p x d : Nat) (b : Nat) : (s.errc p x d).reg b = s.reg b := (rfl)
@[simp] theorem State.fld_errc (p x d : Nat) (b i j : Nat) : (s.errc p x d).fld b i j = s.fld b i j := (rfl)
@[simp] theorem State.flag_errc (p x d : Nat) (b i : Nat) : (s.errc p x d).flag b i = s.flag b i := (rfl)
@[simp] theorem State.reg64_errc (p x d : Nat) (b c : Nat) : (s.errc p x d).reg64 b c = s.reg64 b c := (rfl)
@[simp] theorem State.dom_errc (p x d : Nat) (k : Nat) : (s.errc p x d).dom k = s.dom k := (rfl)
@[simp] theorem State.up_errc (p x d : Nat) (k : Nat) : (s.errc p x d).up k = s.up k := (rfl)
@[simp] theorem State.locked_errc (p x d : Nat) (k : Nat) : (s.errc p x d).locked k = s.locked k := (rfl)
@[simp] theorem State.blk_errc (p x d : Nat) (q : Nat) : (s.errc p x d).blk q = s.blk q := (rfl)
@[simp] theorem State.shown_errc (p x d : Nat) (q : Nat) : (s.errc p x d).shown q = s.shown q := (rfl)
@[simp] theorem State.running_errc (p x d : Nat) (q : Nat) : (s.errc p x d).running q = s.running q := (rfl)
@[simp] theorem State.active_errc (p x d : Nat) (q : Nat) : (s.errc p x d).active q = s.active q := (rfl)
@[simp] theorem State.dramUp_errc (p x d : Nat) : (s.errc p x d).dramUp = s.dramUp := (rfl)
@[simp] theorem State.role_errc (p x d : Nat) : (s.errc p x d).role = s.role := (rfl)
@[simp] theorem State.acts_errc (p x d : Nat) : (s.errc p x d).acts = s.acts := (rfl)
@[simp] theorem State.epoch_errc (p x d : Nat) : (s.errc p x d).epoch = s.epoch := (rfl)
@[simp] theorem State.reg_statBit (p x : Nat) (v : Bool) (b : Nat) : (s.statBit p x v).reg b = s.reg b := (rfl)
@[simp] theorem State.fld_statBit (p x : Nat) (v : Bool) (b i j : Nat) : (s.statBit p x v).fld b i j = s.fld b i j := (rfl)
@[simp] theorem State.flag_statBit (p x : Nat) (v : Bool) (b i : Nat) : (s.statBit p x v).flag b i = s.flag b i := (rfl)
@[simp] theorem State.reg64_statBit (p x : Nat) (v : Bool) (b c : Nat) : (s.statBit p x v).reg64 b c = s.reg64 b c := (rfl)
@[simp] theorem State.dom_statBit (p x : Nat) (v : Bool) (k : Nat) : (s.statBit p x v).dom k = s.dom k := (rfl)
@[simp] theorem State.up_statBit (p x : Nat) (v : Bool) (k : Nat) : (s.statBit p x v).up k = s.up k := (rfl)
@[simp] theorem State.locked_statBit (p x : Nat) (v : Bool) (k : Nat) : (s.statBit p x v).locked k = s.locked k := (rfl)
@[simp] theorem State.blk_statBit (p x : Nat) (v : Bool) (q : Nat) : (s.statBit p x v).blk q = s.blk q := (rfl)
@[simp] theorem State.shown_statBit (p x : Nat) (v : Bool) (q : Nat) : (s.statBit p x v).shown q = s.shown q := (rfl)
@[simp] theorem State.running_statBit (p x : Nat) (v : Bool) (q : Nat) : (s.statBit p x v).running q = s.running q := (rfl)
@[simp] theorem State.active_statBit (p x : Nat) (v : Bool) (q : Nat) : (s.statBit p x v).active q = s.active q := (rfl)
@[simp] theorem State.dramUp_statBit (p x : Nat) (v : Bool) : (s.statBit p x v).dramUp = s.dramUp := (rfl)
@[simp] theorem State.role_statBit (p x : Nat) (v : Bool) : (s.statBit p x v).role = s.role := (rfl)
@[simp] theorem State.acts_statBit (p x : Nat) (v : Bool) : (s.statBit p x v).acts = s.acts := (rfl)
@[simp] theorem State.epoch_statBit (p x : Nat) (v : Bool) : (s.statBit p x v).epoch = s.epoch := (rfl)
@[simp] theorem State.reg_answer (v : Word) (b : Nat) : (s.answer v).reg b = s.reg b := (rfl)
@[simp] theorem State.fld_answer (v : Word) (b i j : Nat) : (s.answer v).fld b i j = s.fld b i j := (rfl)
@[simp] theorem State.flag_answer (v : Word) (b i : Nat) : (s.answer v).flag b i = s.flag b i := (rfl)
@[simp] theorem State.reg64_answer (v : Word) (b c : Nat) : (s.answer v).reg64 b c = s.reg64 b c := (rfl)
@[simp] theorem State.dom_answer (v : Word) (k : Nat) : (s.answer v).dom k = s.dom k := (rfl)
@[simp] theorem State.up_answer (v : Word) (k : Nat) : (s.answer v).up k = s.up k := (rfl)
@[simp] theorem State.locked_answer (v : Word) (k : Nat) : (s.answer v).locked k = s.locked k := (rfl)
@[simp] theorem State.blk_answer (v : Word) (q : Nat) : (s.answer v).blk q = s.blk q := (rfl)
@[simp] theorem State.page_answer (v : Word) (q : Nat) : (s.answer v).page q = s.page q := (rfl)
@[simp] theorem State.shown_answer (v : Word) (q : Nat) : (s.answer v).shown q = s.shown q := (rfl)
@[simp] theorem State.running_answer (v : Word) (q : Nat) : (s.answer v).running q = s.running q := (rfl)
@[simp] theorem State.active_answer (v : Word) (q : Nat) : (s.answer v).active q = s.active q := (rfl)
@[simp] theorem State.dramUp_answer (v : Word) : (s.answer v).dramUp = s.dramUp := (rfl)
@[simp] theorem State.role_answer (v : Word) : (s.answer v).role = s.role := (rfl)
@[simp] theorem State.acts_answer (v : Word) : (s.answer v).acts = s.acts := (rfl)
@[simp] theorem State.epoch_answer (v : Word) : (s.answer v).epoch = s.epoch := (rfl)
@[simp] theorem State.reg_accFault (b : Nat) : (s.accFault).reg b = s.reg b := (rfl)
@[simp] theorem State.fld_accFault (b i j : Nat) : (s.accFault).fld b i j = s.fld b i j := (rfl)
@[simp] theorem State.flag_accFault (b i : Nat) : (s.accFault).flag b i = s.flag b i := (rfl)
@[simp] theorem State.reg64_accFault (b c : Nat) : (s.accFault).reg64 b c = s.reg64 b c := (rfl)
@[simp] theorem State.dom_accFault (k : Nat) : (s.accFault).dom k = s.dom k := (rfl)
@[simp] theorem State.up_accFault (k : Nat) : (s.accFault).up k = s.up k := (rfl)
@[simp] theorem State.locked_accFault (k : Nat) : (s.accFault).locked k = s.locked k := (rfl)
@[simp] theorem State.blk_accFault (q : Nat) : (s.accFault).blk q = s.blk q := (rfl)
@[simp] theorem State.page_accFault (q : Nat) : (s.accFault).page q = s.page q := (rfl)
@[simp] theorem State.shown_accFault (q : Nat) : (s.accFault).shown q = s.shown q := (rfl)
@[simp] theorem State.running_accFault (q : Nat) : (s.accFault).running q = s.running q := (rfl)
@[simp] theorem State.active_accFault (q : Nat) : (s.accFault).active q = s.active q := (rfl)
@[simp] theorem State.dramUp_accFault  : (s.accFault).dramUp = s.dramUp := (rfl)
@[simp] theorem State.role_accFault  : (s.accFault).role = s.role := (rfl)
@[simp] theorem State.acts_accFault  : (s.accFault).acts = s.acts := (rfl)
@[simp] theorem State.epoch_accFault  : (s.accFault).epoch = s.epoch := (rfl)
@[simp] theorem State.reg_setPage (p : Nat) (h : PageHdr) (b : Nat) : (s.setPage p h).reg b = s.reg b := (rfl)
@[simp] theorem State.fld_setPage (p : Nat) (h : PageHdr) (b i j : Nat) : (s.setPage p h).fld b i j = s.fld b i j := (rfl)
@[simp] theorem State.flag_setPage (p : Nat) (h : PageHdr) (b i : Nat) : (s.setPage p h).flag b i = s.flag b i := (rfl)
@[simp] theorem State.reg64_setPage (p : Nat) (h : PageHdr) (b c : Nat) : (s.setPage p h).reg64 b c = s.reg64 b c := (rfl)
@[simp] theorem State.dom_setPage (p : Nat) (h : PageHdr) (k : Nat) : (s.setPage p h).dom k = s.dom k := (rfl)
@[simp] theorem State.up_setPage (p : Nat) (h : PageHdr) (k : Nat) : (s.setPage p h).up k = s.up k := (rfl)
@[simp] theorem State.locked_setPage (p : Nat) (h : PageHdr) (k : Nat) : (s.setPage p h).locked k = s.locked k := (rfl)
@[simp] theorem State.blk_setPage (p : Nat) (h : PageHdr) (q : Nat) : (s.setPage p h).blk q = s.blk q := (rfl)
@[simp] theorem State.shown_setPage (p : Nat) (h : PageHdr) (q : Nat) : (s.setPage p h).shown q = s.shown q := (rfl)
@[simp] theorem State.running_setPage (p : Nat) (h : PageHdr) (q : Nat) : (s.setPage p h).running q = s.running q := (rfl)
@[simp] theorem State.active_setPage (p : Nat) (h : PageHdr) (q : Nat) : (s.setPage p h).active q = s.active q := (rfl)
@[simp] theorem State.dramUp_setPage (p : Nat) (h : PageHdr) : (s.setPage p h).dramUp = s.dramUp := (rfl)
@[simp] theorem State.role_setPage (p : Nat) (h : PageHdr) : (s.setPage p h).role = s.role := (rfl)
@[simp] theorem State.acts_setPage (p : Nat) (h : PageHdr) : (s.setPage p h).acts = s.acts := (rfl)
@[simp] theorem State.epoch_setPage (p : Nat) (h : PageHdr) : (s.setPage p h).epoch = s.epoch := (rfl)
@[simp] theorem State.blk_setReg (a : Nat) (v : Word) (q : Nat) : (s.setReg a v).blk q = s.blk q := (rfl)
@[simp] theorem State.page_setReg (a : Nat) (v : Word) (q : Nat) : (s.setReg a v).page q = s.page q := (rfl)
@[simp] theorem State.blk_setFld (a hi lo x : Nat) (q : Nat) : (s.setFld a hi lo x).blk q = s.blk q := (rfl)
@[simp] theorem State.page_setFld (a hi lo x : Nat) (q : Nat) : (s.setFld a hi lo x).page q = s.page q := (rfl)
@[simp] theorem State.blk_setFlag (a x : Nat) (v : Bool) (q : Nat) : (s.setFlag a x v).blk q = s.blk q := (rfl)
@[simp] theorem State.page_setFlag (a x : Nat) (v : Bool) (q : Nat) : (s.setFlag a x v).page q = s.page q := (rfl)
@[simp] theorem State.blk_incReg (a : Nat) (q : Nat) : (s.incReg a).blk q = s.blk q := (rfl)
@[simp] theorem State.page_incReg (a : Nat) (q : Nat) : (s.incReg a).page q = s.page q := (rfl)
@[simp] theorem State.blk_setReg64 (lo hi n : Nat) (q : Nat) : (s.setReg64 lo hi n).blk q = s.blk q := (rfl)
@[simp] theorem State.page_setReg64 (lo hi n : Nat) (q : Nat) : (s.setReg64 lo hi n).page q = s.page q := (rfl)
@[simp] theorem State.blk_setRegs (l : List (Nat × Word)) (q : Nat) : (s.setRegs l).blk q = s.blk q := by simp only [State.blk, State.setRegs_blks]
@[simp] theorem State.page_setRegs (l : List (Nat × Word)) (q : Nat) : (s.setRegs l).page q = s.page q := by simp only [State.page, State.setRegs_pages]
@[simp] theorem State.reg_setCan (n : Nat) (x : CanCh) (b : Nat) : (s.setCan n x).reg b = s.reg b := (rfl)
@[simp] theorem State.fld_setCan (n : Nat) (x : CanCh) (b i j : Nat) : (s.setCan n x).fld b i j = s.fld b i j := (rfl)
@[simp] theorem State.flag_setCan (n : Nat) (x : CanCh) (b i : Nat) : (s.setCan n x).flag b i = s.flag b i := (rfl)
@[simp] theorem State.reg64_setCan (n : Nat) (x : CanCh) (b c : Nat) : (s.setCan n x).reg64 b c = s.reg64 b c := (rfl)
@[simp] theorem State.dom_setCan (n : Nat) (x : CanCh) (k : Nat) : (s.setCan n x).dom k = s.dom k := (rfl)
@[simp] theorem State.up_setCan (n : Nat) (x : CanCh) (k : Nat) : (s.setCan n x).up k = s.up k := (rfl)
@[simp] theorem State.locked_setCan (n : Nat) (x : CanCh) (k : Nat) : (s.setCan n x).locked k = s.locked k := (rfl)
@[simp] theorem State.blk_setCan (n : Nat) (x : CanCh) (q : Nat) : (s.setCan n x).blk q = s.blk q := (rfl)
@[simp] theorem State.page_setCan (n : Nat) (x : CanCh) (q : Nat) : (s.setCan n x).page q = s.page q := (rfl)
@[simp] theorem State.shown_setCan (n : Nat) (x : CanCh) (q : Nat) : (s.setCan n x).shown q = s.shown q := (rfl)
@[simp] theorem State.running_setCan (n : Nat) (x : CanCh) (q : Nat) : (s.setCan n x).running q = s.running q := (rfl)
@[simp] theorem State.active_setCan (n : Nat) (x : CanCh) (q : Nat) : (s.setCan n x).active q = s.active q := (rfl)
@[simp] theorem State.dramUp_setCan (n : Nat) (x : CanCh) : (s.setCan n x).dramUp = s.dramUp := (rfl)
@[simp] theorem State.role_setCan (n : Nat) (x : CanCh) : (s.setCan n x).role = s.role := (rfl)
@[simp] theorem State.acts_setCan (n : Nat) (x : CanCh) : (s.setCan n x).acts = s.acts := (rfl)
@[simp] theorem State.epoch_setCan (n : Nat) (x : CanCh) : (s.setCan n x).epoch = s.epoch := (rfl)
@[simp] theorem State.reg_setPulse (n : Nat) (x : PulseOut) (b : Nat) : (s.setPulse n x).reg b = s.reg b := (rfl)
@[simp] theorem State.fld_setPulse (n : Nat) (x : PulseOut) (b i j : Nat) : (s.setPulse n x).fld b i j = s.fld b i j := (rfl)
@[simp] theorem State.flag_setPulse (n : Nat) (x : PulseOut) (b i : Nat) : (s.setPulse n x).flag b i = s.flag b i := (rfl)
@[simp] theorem State.reg64_setPulse (n : Nat) (x : PulseOut) (b c : Nat) : (s.setPulse n x).reg64 b c = s.reg64 b c := (rfl)
@[simp] theorem State.dom_setPulse (n : Nat) (x : PulseOut) (k : Nat) : (s.setPulse n x).dom k = s.dom k := (rfl)
@[simp] theorem State.up_setPulse (n : Nat) (x : PulseOut) (k : Nat) : (s.setPulse n x).up k = s.up k := (rfl)
@[simp] theorem State.locked_setPulse (n : Nat) (x : PulseOut) (k : Nat) : (s.setPulse n x).locked k = s.locked k := (rfl)
@[simp] theorem State.blk_setPulse (n : Nat) (x : PulseOut) (q : Nat) : (s.setPulse n x).blk q = s.blk q := (rfl)
@[simp] theorem State.page_setPulse (n : Nat) (x : PulseOut) (q : Nat) : (s.setPulse n x).page q = s.page q := (rfl)
@[simp] theorem State.shown_setPulse (n : Nat) (x : PulseOut) (q : Nat) : (s.setPulse n x).shown q = s.shown q := (rfl)
@[simp] theorem State.running_setPulse (n : Nat) (x : PulseOut) (q : Nat) : (s.setPulse n x).running q = s.running q := (rfl)
@[simp] theorem State.active_setPulse (n : Nat) (x : PulseOut) (q : Nat) : (s.setPulse n x).active q = s.active q := (rfl)
@[simp] theorem State.dramUp_setPulse (n : Nat) (x : PulseOut) : (s.setPulse n x).dramUp = s.dramUp := (rfl)
@[simp] theorem State.role_setPulse (n : Nat) (x : PulseOut) : (s.setPulse n x).role = s.role := (rfl)
@[simp] theorem State.acts_setPulse (n : Nat) (x : PulseOut) : (s.setPulse n x).acts = s.acts := (rfl)
@[simp] theorem State.epoch_setPulse (n : Nat) (x : PulseOut) : (s.setPulse n x).epoch = s.epoch := (rfl)
@[simp] theorem State.reg_setMtr (f : MtrSt → MtrSt) (b : Nat) : (s.setMtr f).reg b = s.reg b := (rfl)
@[simp] theorem State.fld_setMtr (f : MtrSt → MtrSt) (b i j : Nat) : (s.setMtr f).fld b i j = s.fld b i j := (rfl)
@[simp] theorem State.flag_setMtr (f : MtrSt → MtrSt) (b i : Nat) : (s.setMtr f).flag b i = s.flag b i := (rfl)
@[simp] theorem State.reg64_setMtr (f : MtrSt → MtrSt) (b c : Nat) : (s.setMtr f).reg64 b c = s.reg64 b c := (rfl)
@[simp] theorem State.dom_setMtr (f : MtrSt → MtrSt) (k : Nat) : (s.setMtr f).dom k = s.dom k := (rfl)
@[simp] theorem State.up_setMtr (f : MtrSt → MtrSt) (k : Nat) : (s.setMtr f).up k = s.up k := (rfl)
@[simp] theorem State.locked_setMtr (f : MtrSt → MtrSt) (k : Nat) : (s.setMtr f).locked k = s.locked k := (rfl)
@[simp] theorem State.blk_setMtr (f : MtrSt → MtrSt) (q : Nat) : (s.setMtr f).blk q = s.blk q := (rfl)
@[simp] theorem State.page_setMtr (f : MtrSt → MtrSt) (q : Nat) : (s.setMtr f).page q = s.page q := (rfl)
@[simp] theorem State.shown_setMtr (f : MtrSt → MtrSt) (q : Nat) : (s.setMtr f).shown q = s.shown q := (rfl)
@[simp] theorem State.running_setMtr (f : MtrSt → MtrSt) (q : Nat) : (s.setMtr f).running q = s.running q := (rfl)
@[simp] theorem State.active_setMtr (f : MtrSt → MtrSt) (q : Nat) : (s.setMtr f).active q = s.active q := (rfl)
@[simp] theorem State.dramUp_setMtr (f : MtrSt → MtrSt) : (s.setMtr f).dramUp = s.dramUp := (rfl)
@[simp] theorem State.role_setMtr (f : MtrSt → MtrSt) : (s.setMtr f).role = s.role := (rfl)
@[simp] theorem State.acts_setMtr (f : MtrSt → MtrSt) : (s.setMtr f).acts = s.acts := (rfl)
@[simp] theorem State.epoch_setMtr (f : MtrSt → MtrSt) : (s.setMtr f).epoch = s.epoch := (rfl)
@[simp] theorem State.reg_setCap (n : Nat) (x : CapCh) (b : Nat) : (s.setCap n x).reg b = s.reg b := (rfl)
@[simp] theorem State.fld_setCap (n : Nat) (x : CapCh) (b i j : Nat) : (s.setCap n x).fld b i j = s.fld b i j := (rfl)
@[simp] theorem State.flag_setCap (n : Nat) (x : CapCh) (b i : Nat) : (s.setCap n x).flag b i = s.flag b i := (rfl)
@[simp] theorem State.reg64_setCap (n : Nat) (x : CapCh) (b c : Nat) : (s.setCap n x).reg64 b c = s.reg64 b c := (rfl)
@[simp] theorem State.dom_setCap (n : Nat) (x : CapCh) (k : Nat) : (s.setCap n x).dom k = s.dom k := (rfl)
@[simp] theorem State.up_setCap (n : Nat) (x : CapCh) (k : Nat) : (s.setCap n x).up k = s.up k := (rfl)
@[simp] theorem State.locked_setCap (n : Nat) (x : CapCh) (k : Nat) : (s.setCap n x).locked k = s.locked k := (rfl)
@[simp] theorem State.blk_setCap (n : Nat) (x : CapCh) (q : Nat) : (s.setCap n x).blk q = s.blk q := (rfl)
@[simp] theorem State.page_setCap (n : Nat) (x : CapCh) (q : Nat) : (s.setCap n x).page q = s.page q := (rfl)
@[simp] theorem State.shown_setCap (n : Nat) (x : CapCh) (q : Nat) : (s.setCap n x).shown q = s.shown q := (rfl)
@[simp] theorem State.running_setCap (n : Nat) (x : CapCh) (q : Nat) : (s.setCap n x).running q = s.running q := (rfl)
@[simp] theorem State.active_setCap (n : Nat) (x : CapCh) (q : Nat) : (s.setCap n x).active q = s.active q := (rfl)
@[simp] theorem State.dramUp_setCap (n : Nat) (x : CapCh) : (s.setCap n x).dramUp = s.dramUp := (rfl)
@[simp] theorem State.role_setCap (n : Nat) (x : CapCh) : (s.setCap n x).role = s.role := (rfl)
@[simp] theorem State.acts_setCap (n : Nat) (x : CapCh) : (s.setCap n x).acts = s.acts := (rfl)
@[simp] theorem State.epoch_setCap (n : Nat) (x : CapCh) : (s.setCap n x).epoch = s.epoch := (rfl)
@[simp] theorem State.reg_setPort (n : Nat) (x : EthPort) (b : Nat) : (s.setPort n x).reg b = s.reg b := (rfl)
@[simp] theorem State.fld_setPort (n : Nat) (x : EthPort) (b i j : Nat) : (s.setPort n x).fld b i j = s.fld b i j := (rfl)
@[simp] theorem State.flag_setPort (n : Nat) (x : EthPort) (b i : Nat) : (s.setPort n x).flag b i = s.flag b i := (rfl)
@[simp] theorem State.reg64_setPort (n : Nat) (x : EthPort) (b c : Nat) : (s.setPort n x).reg64 b c = s.reg64 b c := (rfl)
@[simp] theorem State.dom_setPort (n : Nat) (x : EthPort) (k : Nat) : (s.setPort n x).dom k = s.dom k := (rfl)
@[simp] theorem State.up_setPort (n : Nat) (x : EthPort) (k : Nat) : (s.setPort n x).up k = s.up k := (rfl)
@[simp] theorem State.locked_setPort (n : Nat) (x : EthPort) (k : Nat) : (s.setPort n x).locked k = s.locked k := (rfl)
@[simp] theorem State.blk_setPort (n : Nat) (x : EthPort) (q : Nat) : (s.setPort n x).blk q = s.blk q := (rfl)
@[simp] theorem State.page_setPort (n : Nat) (x : EthPort) (q : Nat) : (s.setPort n x).page q = s.page q := (rfl)
@[simp] theorem State.shown_setPort (n : Nat) (x : EthPort) (q : Nat) : (s.setPort n x).shown q = s.shown q := (rfl)
@[simp] theorem State.running_setPort (n : Nat) (x : EthPort) (q : Nat) : (s.setPort n x).running q = s.running q := (rfl)
@[simp] theorem State.active_setPort (n : Nat) (x : EthPort) (q : Nat) : (s.setPort n x).active q = s.active q := (rfl)
@[simp] theorem State.dramUp_setPort (n : Nat) (x : EthPort) : (s.setPort n x).dramUp = s.dramUp := (rfl)
@[simp] theorem State.role_setPort (n : Nat) (x : EthPort) : (s.setPort n x).role = s.role := (rfl)
@[simp] theorem State.acts_setPort (n : Nat) (x : EthPort) : (s.setPort n x).acts = s.acts := (rfl)
@[simp] theorem State.epoch_setPort (n : Nat) (x : EthPort) : (s.setPort n x).epoch = s.epoch := (rfl)
@[simp] theorem State.reg_setAxis (n : Nat) (x : Axis) (b : Nat) : (s.setAxis n x).reg b = s.reg b := (rfl)
@[simp] theorem State.fld_setAxis (n : Nat) (x : Axis) (b i j : Nat) : (s.setAxis n x).fld b i j = s.fld b i j := (rfl)
@[simp] theorem State.flag_setAxis (n : Nat) (x : Axis) (b i : Nat) : (s.setAxis n x).flag b i = s.flag b i := (rfl)
@[simp] theorem State.reg64_setAxis (n : Nat) (x : Axis) (b c : Nat) : (s.setAxis n x).reg64 b c = s.reg64 b c := (rfl)
@[simp] theorem State.dom_setAxis (n : Nat) (x : Axis) (k : Nat) : (s.setAxis n x).dom k = s.dom k := (rfl)
@[simp] theorem State.up_setAxis (n : Nat) (x : Axis) (k : Nat) : (s.setAxis n x).up k = s.up k := (rfl)
@[simp] theorem State.locked_setAxis (n : Nat) (x : Axis) (k : Nat) : (s.setAxis n x).locked k = s.locked k := (rfl)
@[simp] theorem State.blk_setAxis (n : Nat) (x : Axis) (q : Nat) : (s.setAxis n x).blk q = s.blk q := (rfl)
@[simp] theorem State.page_setAxis (n : Nat) (x : Axis) (q : Nat) : (s.setAxis n x).page q = s.page q := (rfl)
@[simp] theorem State.shown_setAxis (n : Nat) (x : Axis) (q : Nat) : (s.setAxis n x).shown q = s.shown q := (rfl)
@[simp] theorem State.running_setAxis (n : Nat) (x : Axis) (q : Nat) : (s.setAxis n x).running q = s.running q := (rfl)
@[simp] theorem State.active_setAxis (n : Nat) (x : Axis) (q : Nat) : (s.setAxis n x).active q = s.active q := (rfl)
@[simp] theorem State.dramUp_setAxis (n : Nat) (x : Axis) : (s.setAxis n x).dramUp = s.dramUp := (rfl)
@[simp] theorem State.role_setAxis (n : Nat) (x : Axis) : (s.setAxis n x).role = s.role := (rfl)
@[simp] theorem State.acts_setAxis (n : Nat) (x : Axis) : (s.setAxis n x).acts = s.acts := (rfl)
@[simp] theorem State.epoch_setAxis (n : Nat) (x : Axis) : (s.setAxis n x).epoch = s.epoch := (rfl)
@[simp] theorem State.reg_setStall (n : Nat) (x : Stall) (b : Nat) : (s.setStall n x).reg b = s.reg b := (rfl)
@[simp] theorem State.fld_setStall (n : Nat) (x : Stall) (b i j : Nat) : (s.setStall n x).fld b i j = s.fld b i j := (rfl)
@[simp] theorem State.flag_setStall (n : Nat) (x : Stall) (b i : Nat) : (s.setStall n x).flag b i = s.flag b i := (rfl)
@[simp] theorem State.reg64_setStall (n : Nat) (x : Stall) (b c : Nat) : (s.setStall n x).reg64 b c = s.reg64 b c := (rfl)
@[simp] theorem State.dom_setStall (n : Nat) (x : Stall) (k : Nat) : (s.setStall n x).dom k = s.dom k := (rfl)
@[simp] theorem State.up_setStall (n : Nat) (x : Stall) (k : Nat) : (s.setStall n x).up k = s.up k := (rfl)
@[simp] theorem State.locked_setStall (n : Nat) (x : Stall) (k : Nat) : (s.setStall n x).locked k = s.locked k := (rfl)
@[simp] theorem State.blk_setStall (n : Nat) (x : Stall) (q : Nat) : (s.setStall n x).blk q = s.blk q := (rfl)
@[simp] theorem State.page_setStall (n : Nat) (x : Stall) (q : Nat) : (s.setStall n x).page q = s.page q := (rfl)
@[simp] theorem State.shown_setStall (n : Nat) (x : Stall) (q : Nat) : (s.setStall n x).shown q = s.shown q := (rfl)
@[simp] theorem State.running_setStall (n : Nat) (x : Stall) (q : Nat) : (s.setStall n x).running q = s.running q := (rfl)
@[simp] theorem State.active_setStall (n : Nat) (x : Stall) (q : Nat) : (s.setStall n x).active q = s.active q := (rfl)
@[simp] theorem State.dramUp_setStall (n : Nat) (x : Stall) : (s.setStall n x).dramUp = s.dramUp := (rfl)
@[simp] theorem State.role_setStall (n : Nat) (x : Stall) : (s.setStall n x).role = s.role := (rfl)
@[simp] theorem State.acts_setStall (n : Nat) (x : Stall) : (s.setStall n x).acts = s.acts := (rfl)
@[simp] theorem State.epoch_setStall (n : Nat) (x : Stall) : (s.setStall n x).epoch = s.epoch := (rfl)
@[simp] theorem State.reg_setLge (f : LgeSt → LgeSt) (b : Nat) : (s.setLge f).reg b = s.reg b := (rfl)
@[simp] theorem State.fld_setLge (f : LgeSt → LgeSt) (b i j : Nat) : (s.setLge f).fld b i j = s.fld b i j := (rfl)
@[simp] theorem State.flag_setLge (f : LgeSt → LgeSt) (b i : Nat) : (s.setLge f).flag b i = s.flag b i := (rfl)
@[simp] theorem State.reg64_setLge (f : LgeSt → LgeSt) (b c : Nat) : (s.setLge f).reg64 b c = s.reg64 b c := (rfl)
@[simp] theorem State.dom_setLge (f : LgeSt → LgeSt) (k : Nat) : (s.setLge f).dom k = s.dom k := (rfl)
@[simp] theorem State.up_setLge (f : LgeSt → LgeSt) (k : Nat) : (s.setLge f).up k = s.up k := (rfl)
@[simp] theorem State.locked_setLge (f : LgeSt → LgeSt) (k : Nat) : (s.setLge f).locked k = s.locked k := (rfl)
@[simp] theorem State.blk_setLge (f : LgeSt → LgeSt) (q : Nat) : (s.setLge f).blk q = s.blk q := (rfl)
@[simp] theorem State.page_setLge (f : LgeSt → LgeSt) (q : Nat) : (s.setLge f).page q = s.page q := (rfl)
@[simp] theorem State.shown_setLge (f : LgeSt → LgeSt) (q : Nat) : (s.setLge f).shown q = s.shown q := (rfl)
@[simp] theorem State.running_setLge (f : LgeSt → LgeSt) (q : Nat) : (s.setLge f).running q = s.running q := (rfl)
@[simp] theorem State.active_setLge (f : LgeSt → LgeSt) (q : Nat) : (s.setLge f).active q = s.active q := (rfl)
@[simp] theorem State.dramUp_setLge (f : LgeSt → LgeSt) : (s.setLge f).dramUp = s.dramUp := (rfl)
@[simp] theorem State.role_setLge (f : LgeSt → LgeSt) : (s.setLge f).role = s.role := (rfl)
@[simp] theorem State.acts_setLge (f : LgeSt → LgeSt) : (s.setLge f).acts = s.acts := (rfl)
@[simp] theorem State.epoch_setLge (f : LgeSt → LgeSt) : (s.setLge f).epoch = s.epoch := (rfl)
@[simp] theorem State.reg_setDsq (f : DsqSt → DsqSt) (b : Nat) : (s.setDsq f).reg b = s.reg b := (rfl)
@[simp] theorem State.fld_setDsq (f : DsqSt → DsqSt) (b i j : Nat) : (s.setDsq f).fld b i j = s.fld b i j := (rfl)
@[simp] theorem State.flag_setDsq (f : DsqSt → DsqSt) (b i : Nat) : (s.setDsq f).flag b i = s.flag b i := (rfl)
@[simp] theorem State.reg64_setDsq (f : DsqSt → DsqSt) (b c : Nat) : (s.setDsq f).reg64 b c = s.reg64 b c := (rfl)
@[simp] theorem State.dom_setDsq (f : DsqSt → DsqSt) (k : Nat) : (s.setDsq f).dom k = s.dom k := (rfl)
@[simp] theorem State.up_setDsq (f : DsqSt → DsqSt) (k : Nat) : (s.setDsq f).up k = s.up k := (rfl)
@[simp] theorem State.locked_setDsq (f : DsqSt → DsqSt) (k : Nat) : (s.setDsq f).locked k = s.locked k := (rfl)
@[simp] theorem State.blk_setDsq (f : DsqSt → DsqSt) (q : Nat) : (s.setDsq f).blk q = s.blk q := (rfl)
@[simp] theorem State.page_setDsq (f : DsqSt → DsqSt) (q : Nat) : (s.setDsq f).page q = s.page q := (rfl)
@[simp] theorem State.shown_setDsq (f : DsqSt → DsqSt) (q : Nat) : (s.setDsq f).shown q = s.shown q := (rfl)
@[simp] theorem State.running_setDsq (f : DsqSt → DsqSt) (q : Nat) : (s.setDsq f).running q = s.running q := (rfl)
@[simp] theorem State.active_setDsq (f : DsqSt → DsqSt) (q : Nat) : (s.setDsq f).active q = s.active q := (rfl)
@[simp] theorem State.dramUp_setDsq (f : DsqSt → DsqSt) : (s.setDsq f).dramUp = s.dramUp := (rfl)
@[simp] theorem State.role_setDsq (f : DsqSt → DsqSt) : (s.setDsq f).role = s.role := (rfl)
@[simp] theorem State.acts_setDsq (f : DsqSt → DsqSt) : (s.setDsq f).acts = s.acts := (rfl)
@[simp] theorem State.epoch_setDsq (f : DsqSt → DsqSt) : (s.setDsq f).epoch = s.epoch := (rfl)
@[simp] theorem State.reg_setMdl (f : ModelSt → ModelSt) (b : Nat) : (s.setMdl f).reg b = s.reg b := (rfl)
@[simp] theorem State.fld_setMdl (f : ModelSt → ModelSt) (b i j : Nat) : (s.setMdl f).fld b i j = s.fld b i j := (rfl)
@[simp] theorem State.flag_setMdl (f : ModelSt → ModelSt) (b i : Nat) : (s.setMdl f).flag b i = s.flag b i := (rfl)
@[simp] theorem State.reg64_setMdl (f : ModelSt → ModelSt) (b c : Nat) : (s.setMdl f).reg64 b c = s.reg64 b c := (rfl)
@[simp] theorem State.dom_setMdl (f : ModelSt → ModelSt) (k : Nat) : (s.setMdl f).dom k = s.dom k := (rfl)
@[simp] theorem State.up_setMdl (f : ModelSt → ModelSt) (k : Nat) : (s.setMdl f).up k = s.up k := (rfl)
@[simp] theorem State.locked_setMdl (f : ModelSt → ModelSt) (k : Nat) : (s.setMdl f).locked k = s.locked k := (rfl)
@[simp] theorem State.blk_setMdl (f : ModelSt → ModelSt) (q : Nat) : (s.setMdl f).blk q = s.blk q := (rfl)
@[simp] theorem State.page_setMdl (f : ModelSt → ModelSt) (q : Nat) : (s.setMdl f).page q = s.page q := (rfl)
@[simp] theorem State.shown_setMdl (f : ModelSt → ModelSt) (q : Nat) : (s.setMdl f).shown q = s.shown q := (rfl)
@[simp] theorem State.running_setMdl (f : ModelSt → ModelSt) (q : Nat) : (s.setMdl f).running q = s.running q := (rfl)
@[simp] theorem State.active_setMdl (f : ModelSt → ModelSt) (q : Nat) : (s.setMdl f).active q = s.active q := (rfl)
@[simp] theorem State.dramUp_setMdl (f : ModelSt → ModelSt) : (s.setMdl f).dramUp = s.dramUp := (rfl)
@[simp] theorem State.role_setMdl (f : ModelSt → ModelSt) : (s.setMdl f).role = s.role := (rfl)
@[simp] theorem State.acts_setMdl (f : ModelSt → ModelSt) : (s.setMdl f).acts = s.acts := (rfl)
@[simp] theorem State.epoch_setMdl (f : ModelSt → ModelSt) : (s.setMdl f).epoch = s.epoch := (rfl)
@[simp] theorem State.reg_setPlk (f : PlkSt → PlkSt) (b : Nat) : (s.setPlk f).reg b = s.reg b := (rfl)
@[simp] theorem State.fld_setPlk (f : PlkSt → PlkSt) (b i j : Nat) : (s.setPlk f).fld b i j = s.fld b i j := (rfl)
@[simp] theorem State.flag_setPlk (f : PlkSt → PlkSt) (b i : Nat) : (s.setPlk f).flag b i = s.flag b i := (rfl)
@[simp] theorem State.reg64_setPlk (f : PlkSt → PlkSt) (b c : Nat) : (s.setPlk f).reg64 b c = s.reg64 b c := (rfl)
@[simp] theorem State.dom_setPlk (f : PlkSt → PlkSt) (k : Nat) : (s.setPlk f).dom k = s.dom k := (rfl)
@[simp] theorem State.up_setPlk (f : PlkSt → PlkSt) (k : Nat) : (s.setPlk f).up k = s.up k := (rfl)
@[simp] theorem State.locked_setPlk (f : PlkSt → PlkSt) (k : Nat) : (s.setPlk f).locked k = s.locked k := (rfl)
@[simp] theorem State.blk_setPlk (f : PlkSt → PlkSt) (q : Nat) : (s.setPlk f).blk q = s.blk q := (rfl)
@[simp] theorem State.page_setPlk (f : PlkSt → PlkSt) (q : Nat) : (s.setPlk f).page q = s.page q := (rfl)
@[simp] theorem State.shown_setPlk (f : PlkSt → PlkSt) (q : Nat) : (s.setPlk f).shown q = s.shown q := (rfl)
@[simp] theorem State.running_setPlk (f : PlkSt → PlkSt) (q : Nat) : (s.setPlk f).running q = s.running q := (rfl)
@[simp] theorem State.active_setPlk (f : PlkSt → PlkSt) (q : Nat) : (s.setPlk f).active q = s.active q := (rfl)
@[simp] theorem State.dramUp_setPlk (f : PlkSt → PlkSt) : (s.setPlk f).dramUp = s.dramUp := (rfl)
@[simp] theorem State.role_setPlk (f : PlkSt → PlkSt) : (s.setPlk f).role = s.role := (rfl)
@[simp] theorem State.epoch_setPlk (f : PlkSt → PlkSt) : (s.setPlk f).epoch = s.epoch := (rfl)
@[simp] theorem State.reg_setNsu (f : NsuSt → NsuSt) (b : Nat) : (s.setNsu f).reg b = s.reg b := (rfl)
@[simp] theorem State.fld_setNsu (f : NsuSt → NsuSt) (b i j : Nat) : (s.setNsu f).fld b i j = s.fld b i j := (rfl)
@[simp] theorem State.flag_setNsu (f : NsuSt → NsuSt) (b i : Nat) : (s.setNsu f).flag b i = s.flag b i := (rfl)
@[simp] theorem State.reg64_setNsu (f : NsuSt → NsuSt) (b c : Nat) : (s.setNsu f).reg64 b c = s.reg64 b c := (rfl)
@[simp] theorem State.dom_setNsu (f : NsuSt → NsuSt) (k : Nat) : (s.setNsu f).dom k = s.dom k := (rfl)
@[simp] theorem State.up_setNsu (f : NsuSt → NsuSt) (k : Nat) : (s.setNsu f).up k = s.up k := (rfl)
@[simp] theorem State.locked_setNsu (f : NsuSt → NsuSt) (k : Nat) : (s.setNsu f).locked k = s.locked k := (rfl)
@[simp] theorem State.blk_setNsu (f : NsuSt → NsuSt) (q : Nat) : (s.setNsu f).blk q = s.blk q := (rfl)
@[simp] theorem State.page_setNsu (f : NsuSt → NsuSt) (q : Nat) : (s.setNsu f).page q = s.page q := (rfl)
@[simp] theorem State.shown_setNsu (f : NsuSt → NsuSt) (q : Nat) : (s.setNsu f).shown q = s.shown q := (rfl)
@[simp] theorem State.running_setNsu (f : NsuSt → NsuSt) (q : Nat) : (s.setNsu f).running q = s.running q := (rfl)
@[simp] theorem State.active_setNsu (f : NsuSt → NsuSt) (q : Nat) : (s.setNsu f).active q = s.active q := (rfl)
@[simp] theorem State.dramUp_setNsu (f : NsuSt → NsuSt) : (s.setNsu f).dramUp = s.dramUp := (rfl)
@[simp] theorem State.role_setNsu (f : NsuSt → NsuSt) : (s.setNsu f).role = s.role := (rfl)
@[simp] theorem State.acts_setNsu (f : NsuSt → NsuSt) : (s.setNsu f).acts = s.acts := (rfl)
@[simp] theorem State.epoch_setNsu (f : NsuSt → NsuSt) : (s.setNsu f).epoch = s.epoch := (rfl)
@[simp] theorem State.reg_setBtk (f : BtkSt → BtkSt) (b : Nat) : (s.setBtk f).reg b = s.reg b := (rfl)
@[simp] theorem State.fld_setBtk (f : BtkSt → BtkSt) (b i j : Nat) : (s.setBtk f).fld b i j = s.fld b i j := (rfl)
@[simp] theorem State.flag_setBtk (f : BtkSt → BtkSt) (b i : Nat) : (s.setBtk f).flag b i = s.flag b i := (rfl)
@[simp] theorem State.reg64_setBtk (f : BtkSt → BtkSt) (b c : Nat) : (s.setBtk f).reg64 b c = s.reg64 b c := (rfl)
@[simp] theorem State.dom_setBtk (f : BtkSt → BtkSt) (k : Nat) : (s.setBtk f).dom k = s.dom k := (rfl)
@[simp] theorem State.up_setBtk (f : BtkSt → BtkSt) (k : Nat) : (s.setBtk f).up k = s.up k := (rfl)
@[simp] theorem State.locked_setBtk (f : BtkSt → BtkSt) (k : Nat) : (s.setBtk f).locked k = s.locked k := (rfl)
@[simp] theorem State.blk_setBtk (f : BtkSt → BtkSt) (q : Nat) : (s.setBtk f).blk q = s.blk q := (rfl)
@[simp] theorem State.page_setBtk (f : BtkSt → BtkSt) (q : Nat) : (s.setBtk f).page q = s.page q := (rfl)
@[simp] theorem State.shown_setBtk (f : BtkSt → BtkSt) (q : Nat) : (s.setBtk f).shown q = s.shown q := (rfl)
@[simp] theorem State.running_setBtk (f : BtkSt → BtkSt) (q : Nat) : (s.setBtk f).running q = s.running q := (rfl)
@[simp] theorem State.active_setBtk (f : BtkSt → BtkSt) (q : Nat) : (s.setBtk f).active q = s.active q := (rfl)
@[simp] theorem State.dramUp_setBtk (f : BtkSt → BtkSt) : (s.setBtk f).dramUp = s.dramUp := (rfl)
@[simp] theorem State.role_setBtk (f : BtkSt → BtkSt) : (s.setBtk f).role = s.role := (rfl)
@[simp] theorem State.acts_setBtk (f : BtkSt → BtkSt) : (s.setBtk f).acts = s.acts := (rfl)
@[simp] theorem State.epoch_setBtk (f : BtkSt → BtkSt) : (s.setBtk f).epoch = s.epoch := (rfl)
@[simp] theorem State.reg_setKpr (f : KprSt → KprSt) (b : Nat) : (s.setKpr f).reg b = s.reg b := (rfl)
@[simp] theorem State.fld_setKpr (f : KprSt → KprSt) (b i j : Nat) : (s.setKpr f).fld b i j = s.fld b i j := (rfl)
@[simp] theorem State.flag_setKpr (f : KprSt → KprSt) (b i : Nat) : (s.setKpr f).flag b i = s.flag b i := (rfl)
@[simp] theorem State.reg64_setKpr (f : KprSt → KprSt) (b c : Nat) : (s.setKpr f).reg64 b c = s.reg64 b c := (rfl)
@[simp] theorem State.dom_setKpr (f : KprSt → KprSt) (k : Nat) : (s.setKpr f).dom k = s.dom k := (rfl)
@[simp] theorem State.up_setKpr (f : KprSt → KprSt) (k : Nat) : (s.setKpr f).up k = s.up k := (rfl)
@[simp] theorem State.locked_setKpr (f : KprSt → KprSt) (k : Nat) : (s.setKpr f).locked k = s.locked k := (rfl)
@[simp] theorem State.blk_setKpr (f : KprSt → KprSt) (q : Nat) : (s.setKpr f).blk q = s.blk q := (rfl)
@[simp] theorem State.page_setKpr (f : KprSt → KprSt) (q : Nat) : (s.setKpr f).page q = s.page q := (rfl)
@[simp] theorem State.shown_setKpr (f : KprSt → KprSt) (q : Nat) : (s.setKpr f).shown q = s.shown q := (rfl)
@[simp] theorem State.running_setKpr (f : KprSt → KprSt) (q : Nat) : (s.setKpr f).running q = s.running q := (rfl)
@[simp] theorem State.active_setKpr (f : KprSt → KprSt) (q : Nat) : (s.setKpr f).active q = s.active q := (rfl)
@[simp] theorem State.dramUp_setKpr (f : KprSt → KprSt) : (s.setKpr f).dramUp = s.dramUp := (rfl)
@[simp] theorem State.role_setKpr (f : KprSt → KprSt) : (s.setKpr f).role = s.role := (rfl)
@[simp] theorem State.acts_setKpr (f : KprSt → KprSt) : (s.setKpr f).acts = s.acts := (rfl)
@[simp] theorem State.epoch_setKpr (f : KprSt → KprSt) : (s.setKpr f).epoch = s.epoch := (rfl)
@[simp] theorem State.reg_setSec (f : SecSt → SecSt) (b : Nat) : (s.setSec f).reg b = s.reg b := (rfl)
@[simp] theorem State.fld_setSec (f : SecSt → SecSt) (b i j : Nat) : (s.setSec f).fld b i j = s.fld b i j := (rfl)
@[simp] theorem State.flag_setSec (f : SecSt → SecSt) (b i : Nat) : (s.setSec f).flag b i = s.flag b i := (rfl)
@[simp] theorem State.reg64_setSec (f : SecSt → SecSt) (b c : Nat) : (s.setSec f).reg64 b c = s.reg64 b c := (rfl)
@[simp] theorem State.dom_setSec (f : SecSt → SecSt) (k : Nat) : (s.setSec f).dom k = s.dom k := (rfl)
@[simp] theorem State.up_setSec (f : SecSt → SecSt) (k : Nat) : (s.setSec f).up k = s.up k := (rfl)
@[simp] theorem State.locked_setSec (f : SecSt → SecSt) (k : Nat) : (s.setSec f).locked k = s.locked k := (rfl)
@[simp] theorem State.blk_setSec (f : SecSt → SecSt) (q : Nat) : (s.setSec f).blk q = s.blk q := (rfl)
@[simp] theorem State.page_setSec (f : SecSt → SecSt) (q : Nat) : (s.setSec f).page q = s.page q := (rfl)
@[simp] theorem State.shown_setSec (f : SecSt → SecSt) (q : Nat) : (s.setSec f).shown q = s.shown q := (rfl)
@[simp] theorem State.running_setSec (f : SecSt → SecSt) (q : Nat) : (s.setSec f).running q = s.running q := (rfl)
@[simp] theorem State.active_setSec (f : SecSt → SecSt) (q : Nat) : (s.setSec f).active q = s.active q := (rfl)
@[simp] theorem State.dramUp_setSec (f : SecSt → SecSt) : (s.setSec f).dramUp = s.dramUp := (rfl)
@[simp] theorem State.role_setSec (f : SecSt → SecSt) : (s.setSec f).role = s.role := (rfl)
@[simp] theorem State.acts_setSec (f : SecSt → SecSt) : (s.setSec f).acts = s.acts := (rfl)
@[simp] theorem State.epoch_setSec (f : SecSt → SecSt) : (s.setSec f).epoch = s.epoch := (rfl)
@[simp] theorem State.acts_setPlk (f : PlkSt → PlkSt) (h : (f s.plk).standTo = s.plk.standTo) : (s.setPlk f).acts = s.acts := by
  show ((s.active 128 || (f s.plk).standTo.isSome) && (s.role == 1 || s.role == 5)) = s.acts
  rw [h]; rfl

/-! ### Domain, block and role after a write elsewhere -/

section elsewhere
variable {s} {t : State}
theorem State.dom_congr (hr : t.reg R.PWR_DOM_STAT = s.reg R.PWR_DOM_STAT) (k : Nat) : t.dom k = s.dom k := by
  simp only [State.dom, State.fld, hr]
theorem State.up_congr (hr : t.reg R.PWR_DOM_STAT = s.reg R.PWR_DOM_STAT) (hp : t.pwr = s.pwr) (k : Nat) : t.up k = s.up k := by
  simp only [State.up, State.dom_congr hr, State.heldDom, hp]
theorem State.locked_congr (hr : t.reg R.PWR_DOM_STAT = s.reg R.PWR_DOM_STAT) (hi : t.reg R.CLK_ISL_STAT = s.reg R.CLK_ISL_STAT) (hp : t.pwr = s.pwr)
    (k : Nat) : t.locked k = s.locked k := by
  simp only [State.locked, State.up_congr hr hp, State.flag, hi]
theorem State.shown_congr (hr : t.reg R.PWR_DOM_STAT = s.reg R.PWR_DOM_STAT) (hp : t.pwr = s.pwr) (hb : t.blks = s.blks) (q : Nat) :
    t.shown q = s.shown q := by
  simp only [State.shown, State.up_congr hr hp, State.blk, hb]
theorem State.role_congr (hr : t.reg R.PLK_PAIR_STAT = s.reg R.PLK_PAIR_STAT) : t.role = s.role := by
  simp only [State.role, State.fld, hr]
theorem State.acts_congr (h0 : t.reg R.PLK_PAIR_STAT = s.reg R.PLK_PAIR_STAT) (hr : t.reg R.PWR_DOM_STAT = s.reg R.PWR_DOM_STAT)
    (hp : t.pwr = s.pwr) (hb : t.blks = s.blks) (hk : t.plk = s.plk) : t.acts = s.acts := by
  simp only [State.acts, State.active, State.shown_congr hr hp hb, State.role_congr h0, hk]
end elsewhere

section setReg
variable {a : Nat} (v : Word) (h : a ≠ R.PWR_DOM_STAT)
include h
@[simp] theorem State.dom_setReg (k : Nat) : (s.setReg a v).dom k = s.dom k := State.dom_congr ((s.reg_setReg a R.PWR_DOM_STAT v).trans (if_neg (Ne.symm h))) k
@[simp] theorem State.up_setReg (k : Nat) : (s.setReg a v).up k = s.up k := State.up_congr ((s.reg_setReg a R.PWR_DOM_STAT v).trans (if_neg (Ne.symm h))) (by simp) k
@[simp] theorem State.shown_setReg (q : Nat) : (s.setReg a v).shown q = s.shown q := State.shown_congr ((s.reg_setReg a R.PWR_DOM_STAT v).trans (if_neg (Ne.symm h))) (by simp) (by simp) q
@[simp] theorem State.running_setReg (q : Nat) : (s.setReg a v).running q = s.running q := by rw [State.running, State.shown_setReg s v h]; rfl
@[simp] theorem State.active_setReg (q : Nat) : (s.setReg a v).active q = s.active q := by rw [State.active, State.shown_setReg s v h]; rfl
end setReg

section setFld
variable {a : Nat} (hi lo x : Nat) (h : a ≠ R.PWR_DOM_STAT)
include h
@[simp] theorem State.dom_setFld (k : Nat) : (s.setFld a hi lo x).dom k = s.dom k := State.dom_congr ((s.reg_setFld a R.PWR_DOM_STAT hi lo x).trans (if_neg (Ne.symm h))) k
@[simp] theorem State.up_setFld (k : Nat) : (s.setFld a hi lo x).up k = s.up k := State.up_congr ((s.reg_setFld a R.PWR_DOM_STAT hi lo x).trans (if_neg (Ne.symm h))) (by simp) k
@[simp] theorem State.shown_setFld (q : Nat) : (s.setFld a hi lo x).shown q = s.shown q := State.shown_congr ((s.reg_setFld a R.PWR_DOM_STAT hi lo x).trans (if_neg (Ne.symm h))) (by simp) (by simp) q
@[simp] theorem State.running_setFld (q : Nat) : (s.setFld a hi lo x).running q = s.running q := by rw [State.running, State.shown_setFld s hi lo x h]; rfl
@[simp] theorem State.active_setFld (q : Nat) : (s.setFld a hi lo x).active q = s.active q := by rw [State.active, State.shown_setFld s hi lo x h]; rfl
end setFld

section setFlag
variable {a : Nat} (i : Nat) (v : Bool) (h : a ≠ R.PWR_DOM_STAT)
include h
@[simp] theorem State.dom_setFlag (k : Nat) : (s.setFlag a i v).dom k = s.dom k := State.dom_congr ((s.reg_setFlag a R.PWR_DOM_STAT i v).trans (if_neg (Ne.symm h))) k
@[simp] theorem State.up_setFlag (k : Nat) : (s.setFlag a i v).up k = s.up k := State.up_congr ((s.reg_setFlag a R.PWR_DOM_STAT i v).trans (if_neg (Ne.symm h))) (by simp) k
@[simp] theorem State.shown_setFlag (q : Nat) : (s.setFlag a i v).shown q = s.shown q := State.shown_congr ((s.reg_setFlag a R.PWR_DOM_STAT i v).trans (if_neg (Ne.symm h))) (by simp) (by simp) q
@[simp] theorem State.running_setFlag (q : Nat) : (s.setFlag a i v).running q = s.running q := by rw [State.running, State.shown_setFlag s i v h]; rfl
@[simp] theorem State.active_setFlag (q : Nat) : (s.setFlag a i v).active q = s.active q := by rw [State.active, State.shown_setFlag s i v h]; rfl
end setFlag

section incReg
variable {a : Nat}  (h : a ≠ R.PWR_DOM_STAT)
include h
@[simp] theorem State.dom_incReg (k : Nat) : (s.incReg a).dom k = s.dom k := State.dom_congr ((s.reg_incReg a R.PWR_DOM_STAT ).trans (if_neg (Ne.symm h))) k
@[simp] theorem State.up_incReg (k : Nat) : (s.incReg a).up k = s.up k := State.up_congr ((s.reg_incReg a R.PWR_DOM_STAT ).trans (if_neg (Ne.symm h))) (by simp) k
@[simp] theorem State.shown_incReg (q : Nat) : (s.incReg a).shown q = s.shown q := State.shown_congr ((s.reg_incReg a R.PWR_DOM_STAT ).trans (if_neg (Ne.symm h))) (by simp) (by simp) q
@[simp] theorem State.running_incReg (q : Nat) : (s.incReg a).running q = s.running q := by rw [State.running, State.shown_incReg s h]; rfl
@[simp] theorem State.active_incReg (q : Nat) : (s.incReg a).active q = s.active q := by rw [State.active, State.shown_incReg s h]; rfl
end incReg


/-! ### Event records -/

/-- A record only counts a loss, a malformed record, or enters its queue. -/
theorem State.submit_cases (r : Record) :
    s.submit r = s ∨ s.submit r = s.loseRec r.plane ∨ s.submit r = s.incReg R.EVR_BAD_REC ∨ ∃ q, s.submit r = { s with evr := q } := by
  unfold State.submit
  split
  · exact .inl rfl
  · split
    · exact .inr (.inl rfl)
    · split
      · exact .inr (.inr (.inl rfl))
      · dsimp only
        split
        · exact .inr (.inl rfl)
        · exact .inr (.inr (.inr ⟨_, rfl⟩))

@[simp] theorem State.loseRec_pending (pl : Plane) : (s.loseRec pl).pending = s.pending := by simp [State.loseRec]
@[simp] theorem State.loseRec_resp (pl : Plane) : (s.loseRec pl).resp = s.resp := by simp [State.loseRec]
@[simp] theorem State.loseRec_free (pl : Plane) : (s.loseRec pl).free = s.free := by simp [State.loseRec]
@[simp] theorem State.loseRec_blks (pl : Plane) : (s.loseRec pl).blks = s.blks := by simp [State.loseRec]
@[simp] theorem State.loseRec_yard (pl : Plane) : (s.loseRec pl).yard = s.yard := by simp [State.loseRec]
@[simp] theorem State.loseRec_dram (pl : Plane) : (s.loseRec pl).dram = s.dram := by simp [State.loseRec]
@[simp] theorem State.loseRec_stallMem (pl : Plane) : (s.loseRec pl).stallMem = s.stallMem := by simp [State.loseRec]
@[simp] theorem State.loseRec_tcm (pl : Plane) : (s.loseRec pl).tcm = s.tcm := by simp [State.loseRec]
@[simp] theorem State.loseRec_img (pl : Plane) : (s.loseRec pl).img = s.img := by simp [State.loseRec]
@[simp] theorem State.loseRec_pwr (pl : Plane) : (s.loseRec pl).pwr = s.pwr := by simp [State.loseRec]
@[simp] theorem State.loseRec_time (pl : Plane) : (s.loseRec pl).time = s.time := by simp [State.loseRec]
@[simp] theorem State.loseRec_eth (pl : Plane) : (s.loseRec pl).eth = s.eth := by simp [State.loseRec]
@[simp] theorem State.loseRec_ptp (pl : Plane) : (s.loseRec pl).ptp = s.ptp := by simp [State.loseRec]
@[simp] theorem State.loseRec_cap (pl : Plane) : (s.loseRec pl).cap = s.cap := by simp [State.loseRec]
@[simp] theorem State.loseRec_rtc (pl : Plane) : (s.loseRec pl).rtc = s.rtc := by simp [State.loseRec]
@[simp] theorem State.loseRec_pnl (pl : Plane) : (s.loseRec pl).pnl = s.pnl := by simp [State.loseRec]
@[simp] theorem State.loseRec_can (pl : Plane) : (s.loseRec pl).can = s.can := by simp [State.loseRec]
@[simp] theorem State.loseRec_plk (pl : Plane) : (s.loseRec pl).plk = s.plk := by simp [State.loseRec]
@[simp] theorem State.loseRec_axes (pl : Plane) : (s.loseRec pl).axes = s.axes := by simp [State.loseRec]
@[simp] theorem State.loseRec_dlk (pl : Plane) : (s.loseRec pl).dlk = s.dlk := by simp [State.loseRec]
@[simp] theorem State.loseRec_mtr (pl : Plane) : (s.loseRec pl).mtr = s.mtr := by simp [State.loseRec]
@[simp] theorem State.loseRec_pls (pl : Plane) : (s.loseRec pl).pls = s.pls := by simp [State.loseRec]
@[simp] theorem State.loseRec_sec (pl : Plane) : (s.loseRec pl).sec = s.sec := by simp [State.loseRec]
@[simp] theorem State.loseRec_stalls (pl : Plane) : (s.loseRec pl).stalls = s.stalls := by simp [State.loseRec]
@[simp] theorem State.loseRec_lge (pl : Plane) : (s.loseRec pl).lge = s.lge := by simp [State.loseRec]
@[simp] theorem State.loseRec_kpr (pl : Plane) : (s.loseRec pl).kpr = s.kpr := by simp [State.loseRec]
@[simp] theorem State.loseRec_dsq (pl : Plane) : (s.loseRec pl).dsq = s.dsq := by simp [State.loseRec]
@[simp] theorem State.loseRec_nsu (pl : Plane) : (s.loseRec pl).nsu = s.nsu := by simp [State.loseRec]
@[simp] theorem State.loseRec_mdl (pl : Plane) : (s.loseRec pl).mdl = s.mdl := by simp [State.loseRec]
@[simp] theorem State.loseRec_btk (pl : Plane) : (s.loseRec pl).btk = s.btk := by simp [State.loseRec]
@[simp] theorem State.submit_pending (r : Record) : (s.submit r).pending = s.pending := by
  obtain h | h | h | ⟨q, h⟩ := s.submit_cases r <;> rw [h] <;> simp
@[simp] theorem State.submit_resp (r : Record) : (s.submit r).resp = s.resp := by
  obtain h | h | h | ⟨q, h⟩ := s.submit_cases r <;> rw [h] <;> simp
@[simp] theorem State.submit_free (r : Record) : (s.submit r).free = s.free := by
  obtain h | h | h | ⟨q, h⟩ := s.submit_cases r <;> rw [h] <;> simp
@[simp] theorem State.submit_blks (r : Record) : (s.submit r).blks = s.blks := by
  obtain h | h | h | ⟨q, h⟩ := s.submit_cases r <;> rw [h] <;> simp
@[simp] theorem State.submit_yard (r : Record) : (s.submit r).yard = s.yard := by
  obtain h | h | h | ⟨q, h⟩ := s.submit_cases r <;> rw [h] <;> simp
@[simp] theorem State.submit_dram (r : Record) : (s.submit r).dram = s.dram := by
  obtain h | h | h | ⟨q, h⟩ := s.submit_cases r <;> rw [h] <;> simp
@[simp] theorem State.submit_stallMem (r : Record) : (s.submit r).stallMem = s.stallMem := by
  obtain h | h | h | ⟨q, h⟩ := s.submit_cases r <;> rw [h] <;> simp
@[simp] theorem State.submit_tcm (r : Record) : (s.submit r).tcm = s.tcm := by
  obtain h | h | h | ⟨q, h⟩ := s.submit_cases r <;> rw [h] <;> simp
@[simp] theorem State.submit_img (r : Record) : (s.submit r).img = s.img := by
  obtain h | h | h | ⟨q, h⟩ := s.submit_cases r <;> rw [h] <;> simp
@[simp] theorem State.submit_pwr (r : Record) : (s.submit r).pwr = s.pwr := by
  obtain h | h | h | ⟨q, h⟩ := s.submit_cases r <;> rw [h] <;> simp
@[simp] theorem State.submit_time (r : Record) : (s.submit r).time = s.time := by
  obtain h | h | h | ⟨q, h⟩ := s.submit_cases r <;> rw [h] <;> simp
@[simp] theorem State.submit_eth (r : Record) : (s.submit r).eth = s.eth := by
  obtain h | h | h | ⟨q, h⟩ := s.submit_cases r <;> rw [h] <;> simp
@[simp] theorem State.submit_ptp (r : Record) : (s.submit r).ptp = s.ptp := by
  obtain h | h | h | ⟨q, h⟩ := s.submit_cases r <;> rw [h] <;> simp
@[simp] theorem State.submit_cap (r : Record) : (s.submit r).cap = s.cap := by
  obtain h | h | h | ⟨q, h⟩ := s.submit_cases r <;> rw [h] <;> simp
@[simp] theorem State.submit_rtc (r : Record) : (s.submit r).rtc = s.rtc := by
  obtain h | h | h | ⟨q, h⟩ := s.submit_cases r <;> rw [h] <;> simp
@[simp] theorem State.submit_pnl (r : Record) : (s.submit r).pnl = s.pnl := by
  obtain h | h | h | ⟨q, h⟩ := s.submit_cases r <;> rw [h] <;> simp
@[simp] theorem State.submit_can (r : Record) : (s.submit r).can = s.can := by
  obtain h | h | h | ⟨q, h⟩ := s.submit_cases r <;> rw [h] <;> simp
@[simp] theorem State.submit_plk (r : Record) : (s.submit r).plk = s.plk := by
  obtain h | h | h | ⟨q, h⟩ := s.submit_cases r <;> rw [h] <;> simp
@[simp] theorem State.submit_axes (r : Record) : (s.submit r).axes = s.axes := by
  obtain h | h | h | ⟨q, h⟩ := s.submit_cases r <;> rw [h] <;> simp
@[simp] theorem State.submit_dlk (r : Record) : (s.submit r).dlk = s.dlk := by
  obtain h | h | h | ⟨q, h⟩ := s.submit_cases r <;> rw [h] <;> simp
@[simp] theorem State.submit_mtr (r : Record) : (s.submit r).mtr = s.mtr := by
  obtain h | h | h | ⟨q, h⟩ := s.submit_cases r <;> rw [h] <;> simp
@[simp] theorem State.submit_pls (r : Record) : (s.submit r).pls = s.pls := by
  obtain h | h | h | ⟨q, h⟩ := s.submit_cases r <;> rw [h] <;> simp
@[simp] theorem State.submit_sec (r : Record) : (s.submit r).sec = s.sec := by
  obtain h | h | h | ⟨q, h⟩ := s.submit_cases r <;> rw [h] <;> simp
@[simp] theorem State.submit_stalls (r : Record) : (s.submit r).stalls = s.stalls := by
  obtain h | h | h | ⟨q, h⟩ := s.submit_cases r <;> rw [h] <;> simp
@[simp] theorem State.submit_lge (r : Record) : (s.submit r).lge = s.lge := by
  obtain h | h | h | ⟨q, h⟩ := s.submit_cases r <;> rw [h] <;> simp
@[simp] theorem State.submit_kpr (r : Record) : (s.submit r).kpr = s.kpr := by
  obtain h | h | h | ⟨q, h⟩ := s.submit_cases r <;> rw [h] <;> simp
@[simp] theorem State.submit_dsq (r : Record) : (s.submit r).dsq = s.dsq := by
  obtain h | h | h | ⟨q, h⟩ := s.submit_cases r <;> rw [h] <;> simp
@[simp] theorem State.submit_nsu (r : Record) : (s.submit r).nsu = s.nsu := by
  obtain h | h | h | ⟨q, h⟩ := s.submit_cases r <;> rw [h] <;> simp
@[simp] theorem State.submit_mdl (r : Record) : (s.submit r).mdl = s.mdl := by
  obtain h | h | h | ⟨q, h⟩ := s.submit_cases r <;> rw [h] <;> simp
@[simp] theorem State.submit_btk (r : Record) : (s.submit r).btk = s.btk := by
  obtain h | h | h | ⟨q, h⟩ := s.submit_cases r <;> rw [h] <;> simp
@[simp] theorem State.emit_pending (k p : Nat) (l : List Word) : (s.emit k p l).pending = s.pending := s.submit_pending _
@[simp] theorem State.emit_resp (k p : Nat) (l : List Word) : (s.emit k p l).resp = s.resp := s.submit_resp _
@[simp] theorem State.emit_free (k p : Nat) (l : List Word) : (s.emit k p l).free = s.free := s.submit_free _
@[simp] theorem State.emit_blks (k p : Nat) (l : List Word) : (s.emit k p l).blks = s.blks := s.submit_blks _
@[simp] theorem State.emit_yard (k p : Nat) (l : List Word) : (s.emit k p l).yard = s.yard := s.submit_yard _
@[simp] theorem State.emit_dram (k p : Nat) (l : List Word) : (s.emit k p l).dram = s.dram := s.submit_dram _
@[simp] theorem State.emit_stallMem (k p : Nat) (l : List Word) : (s.emit k p l).stallMem = s.stallMem := s.submit_stallMem _
@[simp] theorem State.emit_tcm (k p : Nat) (l : List Word) : (s.emit k p l).tcm = s.tcm := s.submit_tcm _
@[simp] theorem State.emit_img (k p : Nat) (l : List Word) : (s.emit k p l).img = s.img := s.submit_img _
@[simp] theorem State.emit_pwr (k p : Nat) (l : List Word) : (s.emit k p l).pwr = s.pwr := s.submit_pwr _
@[simp] theorem State.emit_time (k p : Nat) (l : List Word) : (s.emit k p l).time = s.time := s.submit_time _
@[simp] theorem State.emit_eth (k p : Nat) (l : List Word) : (s.emit k p l).eth = s.eth := s.submit_eth _
@[simp] theorem State.emit_ptp (k p : Nat) (l : List Word) : (s.emit k p l).ptp = s.ptp := s.submit_ptp _
@[simp] theorem State.emit_cap (k p : Nat) (l : List Word) : (s.emit k p l).cap = s.cap := s.submit_cap _
@[simp] theorem State.emit_rtc (k p : Nat) (l : List Word) : (s.emit k p l).rtc = s.rtc := s.submit_rtc _
@[simp] theorem State.emit_pnl (k p : Nat) (l : List Word) : (s.emit k p l).pnl = s.pnl := s.submit_pnl _
@[simp] theorem State.emit_can (k p : Nat) (l : List Word) : (s.emit k p l).can = s.can := s.submit_can _
@[simp] theorem State.emit_plk (k p : Nat) (l : List Word) : (s.emit k p l).plk = s.plk := s.submit_plk _
@[simp] theorem State.emit_axes (k p : Nat) (l : List Word) : (s.emit k p l).axes = s.axes := s.submit_axes _
@[simp] theorem State.emit_dlk (k p : Nat) (l : List Word) : (s.emit k p l).dlk = s.dlk := s.submit_dlk _
@[simp] theorem State.emit_mtr (k p : Nat) (l : List Word) : (s.emit k p l).mtr = s.mtr := s.submit_mtr _
@[simp] theorem State.emit_pls (k p : Nat) (l : List Word) : (s.emit k p l).pls = s.pls := s.submit_pls _
@[simp] theorem State.emit_sec (k p : Nat) (l : List Word) : (s.emit k p l).sec = s.sec := s.submit_sec _
@[simp] theorem State.emit_stalls (k p : Nat) (l : List Word) : (s.emit k p l).stalls = s.stalls := s.submit_stalls _
@[simp] theorem State.emit_lge (k p : Nat) (l : List Word) : (s.emit k p l).lge = s.lge := s.submit_lge _
@[simp] theorem State.emit_kpr (k p : Nat) (l : List Word) : (s.emit k p l).kpr = s.kpr := s.submit_kpr _
@[simp] theorem State.emit_dsq (k p : Nat) (l : List Word) : (s.emit k p l).dsq = s.dsq := s.submit_dsq _
@[simp] theorem State.emit_nsu (k p : Nat) (l : List Word) : (s.emit k p l).nsu = s.nsu := s.submit_nsu _
@[simp] theorem State.emit_mdl (k p : Nat) (l : List Word) : (s.emit k p l).mdl = s.mdl := s.submit_mdl _
@[simp] theorem State.emit_btk (k p : Nat) (l : List Word) : (s.emit k p l).btk = s.btk := s.submit_btk _
@[simp] theorem State.emitSev_pending (k : Nat) (v : BitVec 2) (p : Nat) (l : List Word) : (s.emitSev k v p l).pending = s.pending := s.submit_pending _
@[simp] theorem State.emitSev_resp (k : Nat) (v : BitVec 2) (p : Nat) (l : List Word) : (s.emitSev k v p l).resp = s.resp := s.submit_resp _
@[simp] theorem State.emitSev_free (k : Nat) (v : BitVec 2) (p : Nat) (l : List Word) : (s.emitSev k v p l).free = s.free := s.submit_free _
@[simp] theorem State.emitSev_blks (k : Nat) (v : BitVec 2) (p : Nat) (l : List Word) : (s.emitSev k v p l).blks = s.blks := s.submit_blks _
@[simp] theorem State.emitSev_yard (k : Nat) (v : BitVec 2) (p : Nat) (l : List Word) : (s.emitSev k v p l).yard = s.yard := s.submit_yard _
@[simp] theorem State.emitSev_dram (k : Nat) (v : BitVec 2) (p : Nat) (l : List Word) : (s.emitSev k v p l).dram = s.dram := s.submit_dram _
@[simp] theorem State.emitSev_stallMem (k : Nat) (v : BitVec 2) (p : Nat) (l : List Word) : (s.emitSev k v p l).stallMem = s.stallMem := s.submit_stallMem _
@[simp] theorem State.emitSev_tcm (k : Nat) (v : BitVec 2) (p : Nat) (l : List Word) : (s.emitSev k v p l).tcm = s.tcm := s.submit_tcm _
@[simp] theorem State.emitSev_img (k : Nat) (v : BitVec 2) (p : Nat) (l : List Word) : (s.emitSev k v p l).img = s.img := s.submit_img _
@[simp] theorem State.emitSev_pwr (k : Nat) (v : BitVec 2) (p : Nat) (l : List Word) : (s.emitSev k v p l).pwr = s.pwr := s.submit_pwr _
@[simp] theorem State.emitSev_time (k : Nat) (v : BitVec 2) (p : Nat) (l : List Word) : (s.emitSev k v p l).time = s.time := s.submit_time _
@[simp] theorem State.emitSev_eth (k : Nat) (v : BitVec 2) (p : Nat) (l : List Word) : (s.emitSev k v p l).eth = s.eth := s.submit_eth _
@[simp] theorem State.emitSev_ptp (k : Nat) (v : BitVec 2) (p : Nat) (l : List Word) : (s.emitSev k v p l).ptp = s.ptp := s.submit_ptp _
@[simp] theorem State.emitSev_cap (k : Nat) (v : BitVec 2) (p : Nat) (l : List Word) : (s.emitSev k v p l).cap = s.cap := s.submit_cap _
@[simp] theorem State.emitSev_rtc (k : Nat) (v : BitVec 2) (p : Nat) (l : List Word) : (s.emitSev k v p l).rtc = s.rtc := s.submit_rtc _
@[simp] theorem State.emitSev_pnl (k : Nat) (v : BitVec 2) (p : Nat) (l : List Word) : (s.emitSev k v p l).pnl = s.pnl := s.submit_pnl _
@[simp] theorem State.emitSev_can (k : Nat) (v : BitVec 2) (p : Nat) (l : List Word) : (s.emitSev k v p l).can = s.can := s.submit_can _
@[simp] theorem State.emitSev_plk (k : Nat) (v : BitVec 2) (p : Nat) (l : List Word) : (s.emitSev k v p l).plk = s.plk := s.submit_plk _
@[simp] theorem State.emitSev_axes (k : Nat) (v : BitVec 2) (p : Nat) (l : List Word) : (s.emitSev k v p l).axes = s.axes := s.submit_axes _
@[simp] theorem State.emitSev_dlk (k : Nat) (v : BitVec 2) (p : Nat) (l : List Word) : (s.emitSev k v p l).dlk = s.dlk := s.submit_dlk _
@[simp] theorem State.emitSev_mtr (k : Nat) (v : BitVec 2) (p : Nat) (l : List Word) : (s.emitSev k v p l).mtr = s.mtr := s.submit_mtr _
@[simp] theorem State.emitSev_pls (k : Nat) (v : BitVec 2) (p : Nat) (l : List Word) : (s.emitSev k v p l).pls = s.pls := s.submit_pls _
@[simp] theorem State.emitSev_sec (k : Nat) (v : BitVec 2) (p : Nat) (l : List Word) : (s.emitSev k v p l).sec = s.sec := s.submit_sec _
@[simp] theorem State.emitSev_stalls (k : Nat) (v : BitVec 2) (p : Nat) (l : List Word) : (s.emitSev k v p l).stalls = s.stalls := s.submit_stalls _
@[simp] theorem State.emitSev_lge (k : Nat) (v : BitVec 2) (p : Nat) (l : List Word) : (s.emitSev k v p l).lge = s.lge := s.submit_lge _
@[simp] theorem State.emitSev_kpr (k : Nat) (v : BitVec 2) (p : Nat) (l : List Word) : (s.emitSev k v p l).kpr = s.kpr := s.submit_kpr _
@[simp] theorem State.emitSev_dsq (k : Nat) (v : BitVec 2) (p : Nat) (l : List Word) : (s.emitSev k v p l).dsq = s.dsq := s.submit_dsq _
@[simp] theorem State.emitSev_nsu (k : Nat) (v : BitVec 2) (p : Nat) (l : List Word) : (s.emitSev k v p l).nsu = s.nsu := s.submit_nsu _
@[simp] theorem State.emitSev_mdl (k : Nat) (v : BitVec 2) (p : Nat) (l : List Word) : (s.emitSev k v p l).mdl = s.mdl := s.submit_mdl _
@[simp] theorem State.emitSev_btk (k : Nat) (v : BitVec 2) (p : Nat) (l : List Word) : (s.emitSev k v p l).btk = s.btk := s.submit_btk _

/-- A record changes no register but the recorder's counters of lost and malformed records. -/
theorem State.reg_submit (r : Record) {a : Nat} (h : a ∉ evrRegs) : (s.submit r).reg a = s.reg a := by
  have h0 : ∀ pl, a ≠ R.EVR_LOST (planeNum pl) := fun pl e => h (e ▸ by cases pl <;> decide)
  have h1 : a ≠ R.EVR_BAD_REC := fun e => h (e ▸ by decide)
  obtain e | e | e | ⟨q, e⟩ := s.submit_cases r <;> rw [e]
  · simp only [State.loseRec, State.reg_irq]
    exact (s.reg_incReg _ a).trans (if_neg (h0 _))
  · exact (s.reg_incReg _ a).trans (if_neg h1)
  · rfl
theorem State.reg_emit (k p : Nat) (l : List Word) {a : Nat} (h : a ∉ evrRegs) : (s.emit k p l).reg a = s.reg a := s.reg_submit _ h
theorem State.reg_emitSev (k : Nat) (v : BitVec 2) (p : Nat) (l : List Word) {a : Nat} (h : a ∉ evrRegs) :
    (s.emitSev k v p l).reg a = s.reg a := s.reg_submit _ h
/-- A record changes no page header but the recorder's. -/
theorem State.page_submit (r : Record) {p : Nat} (h : p ≠ 34) : (s.submit r).page p = s.page p := by
  obtain e | e | e | ⟨q, e⟩ := s.submit_cases r <;> rw [e]
  · simp only [State.loseRec, State.page_irq, if_neg h]; rfl
  · simp
  · rfl
theorem State.page_emit (k p : Nat) (l : List Word) {q : Nat} (h : q ≠ 34) : (s.emit k p l).page q = s.page q := s.page_submit _ h

@[simp] theorem State.dom_emit (k p : Nat) (l : List Word) (i : Nat) : (s.emit k p l).dom i = s.dom i :=
  State.dom_congr (s.reg_emit k p l (by decide)) i
@[simp] theorem State.up_emit (k p : Nat) (l : List Word) (i : Nat) : (s.emit k p l).up i = s.up i :=
  State.up_congr (s.reg_emit k p l (by decide)) (by simp) i
@[simp] theorem State.locked_emit (k p : Nat) (l : List Word) (i : Nat) : (s.emit k p l).locked i = s.locked i :=
  State.locked_congr (s.reg_emit k p l (by decide)) (s.reg_emit k p l (by decide)) (by simp) i
@[simp] theorem State.shown_emit (k p : Nat) (l : List Word) (q : Nat) : (s.emit k p l).shown q = s.shown q :=
  State.shown_congr (s.reg_emit k p l (by decide)) (by simp) (by simp) q
@[simp] theorem State.running_emit (k p : Nat) (l : List Word) (q : Nat) : (s.emit k p l).running q = s.running q := by
  rw [State.running, State.shown_emit]; rfl
@[simp] theorem State.active_emit (k p : Nat) (l : List Word) (q : Nat) : (s.emit k p l).active q = s.active q := by
  rw [State.active, State.shown_emit]; rfl
@[simp] theorem State.blk_emit (k p : Nat) (l : List Word) (q : Nat) : (s.emit k p l).blk q = s.blk q := by
  simp only [State.blk, State.emit_blks]

/-! ### The access gates -/

/-- A write that reaches its register has the register's own effect. -/
theorem State.gate_open {who : Initiator} {a : Nat} (k : State → State) (ha : a % 4 = 0) (h1 : 0x40000000 ≤ a) (h2 : a < 0x40100000)
    (hp : isPage (pageOf a) = true) (hu : s.up (domOf (pageOf a)) = true) (hk : (isKp a && who != .keeper) = false)
    (hr : reaches who a = true) : s.gate who a k = k (s.answer 0) := by
  unfold State.gate
  rw [if_neg (by omega), if_neg (by simp [hp]), if_neg (by simp [hu]), if_neg (by simp [hk]), if_neg (by simp [hr])]
/-- A read that reaches its register. -/
theorem State.rgate_open {who : Initiator} {a : Nat} (k : State → State) (ha : a % 4 = 0) (h1 : 0x40000000 ≤ a) (h2 : a < 0x40100000)
    (hp : isPage (pageOf a) = true) (hu : s.up (domOf (pageOf a)) = true) (hr : (who == .mgmt || reaches who a) = true) :
    s.rgate who a k = k s := by
  unfold State.rgate
  rw [if_neg (by omega), if_neg (by simp [hp]), if_neg (by simp [hu]), if_neg (by simp [hr])]

/-- The same, from the one hypothesis that statements make. -/
theorem State.gate_may {who : Initiator} {a : Nat} (k : State → State) (h : MayWrite who a s = true) : s.gate who a k = k (s.answer 0) := by
  simp only [MayWrite, Bool.and_eq_true, decide_eq_true_eq, Bool.not_eq_true'] at h
  exact s.gate_open k h.1.1.1.1.1 h.1.1.1.1.2.1 h.1.1.1.1.2.2 h.1.1.1.2 h.1.1.2 h.1.2 h.2
theorem State.rgate_may {who : Initiator} {a : Nat} (k : State → State) (h : MayRead who a s = true) : s.rgate who a k = k s := by
  simp only [MayRead, Bool.and_eq_true, decide_eq_true_eq] at h
  exact s.rgate_open k h.1.1.1.1 h.1.1.1.2.1 h.1.1.1.2.2 h.1.1.2 h.1.2 h.2

end Sys2Proof.Machine
end

