-- ==== Sys2Proof/Laws/Frame.lean ====
section
/-! SUPPORT. Building the frame of a command: `RegsBut` and `SameMem` along the operations it makes. -/

namespace Sys2Proof.Machine

variable {l : List Nat} {s t : State}

theorem RegsBut.refl (l : List Nat) (s : State) : RegsBut l s s := fun _ _ => rfl
theorem RegsBut.trans {u : State} (h : RegsBut l s t) (g : RegsBut l t u) : RegsBut l s u := fun a ha => (g a ha).trans (h a ha)
theorem RegsBut.mono {k : List Nat} (h : RegsBut k s t) (hk : ∀ a, a ∈ k → a ∈ l) : RegsBut l s t := fun a ha => h a fun e => ha (hk a e)
/-- An operation that leaves the register file alone. -/
theorem RegsBut.same {u : State} (h : RegsBut l s t) (e : u.regs = t.regs) : RegsBut l s u := fun a ha => by
  rw [← h a ha, State.reg, State.reg, e]
theorem RegsBut.setReg {a : Nat} (v : Word) (h : RegsBut l s t) (ha : a ∈ l) : RegsBut l s (t.setReg a v) := fun b hb => by
  rw [State.reg_setReg, if_neg (fun e : b = a => hb (e ▸ ha)), h b hb]
theorem RegsBut.setFld {a : Nat} (hi lo x : Nat) (h : RegsBut l s t) (ha : a ∈ l) : RegsBut l s (t.setFld a hi lo x) := h.setReg _ ha
theorem RegsBut.setFlag {a : Nat} (i : Nat) (b : Bool) (h : RegsBut l s t) (ha : a ∈ l) : RegsBut l s (t.setFlag a i b) := h.setReg _ ha
theorem RegsBut.incReg {a : Nat} (h : RegsBut l s t) (ha : a ∈ l) : RegsBut l s (t.incReg a) := h.setReg _ ha
theorem RegsBut.setReg64 {a b : Nat} (n : Nat) (h : RegsBut l s t) (ha : a ∈ l) (hb : b ∈ l) : RegsBut l s (t.setReg64 a b n) :=
  (h.setReg _ ha).setReg _ hb
theorem RegsBut.setRegs (k : List (Nat × Word)) (h : RegsBut l s t) (hk : ∀ e, e ∈ k → e.1 ∈ l) : RegsBut l s (t.setRegs k) := by
  induction k generalizing t with
  | nil => exact h
  | cons e k ih => exact ih (h.setReg e.2 (hk e (by simp))) fun x hx => hk x (by simp [hx])
theorem RegsBut.irq (p i : Nat) (h : RegsBut l s t) : RegsBut l s (t.irq p i) := h.same (by simp)
theorem RegsBut.errc (p c d : Nat) (h : RegsBut l s t) : RegsBut l s (t.errc p c d) := h.same (by simp)
theorem RegsBut.answer (v : Word) (h : RegsBut l s t) : RegsBut l s (t.answer v) := h.same (by simp)
theorem RegsBut.emit (k p : Nat) (w : List Word) (h : RegsBut l s t) (hl : ∀ a, a ∈ evrRegs → a ∈ l) : RegsBut l s (t.emit k p w) :=
  fun a ha => by rw [State.reg_emit _ _ _ _ fun e => ha (hl a e), h a ha]
theorem RegsBut.emitSev (k : Nat) (v : BitVec 2) (p : Nat) (w : List Word) (h : RegsBut l s t) (hl : ∀ a, a ∈ evrRegs → a ∈ l) :
    RegsBut l s (t.emitSev k v p w) :=
  fun a ha => by rw [State.reg_emitSev _ _ _ _ _ fun e => ha (hl a e), h a ha]
/-- A register outside the list reads as before. -/
theorem RegsBut.reg (h : RegsBut l s t) {a : Nat} (ha : a ∉ l) : t.reg a = s.reg a := h a ha

theorem SameMem.refl (s : State) : SameMem s s := ⟨rfl, rfl, rfl, rfl, rfl⟩
theorem SameMem.trans {u : State} (h : SameMem s t) (g : SameMem t u) : SameMem s u :=
  ⟨g.1.trans h.1, g.2.1.trans h.2.1, g.2.2.1.trans h.2.2.1, g.2.2.2.1.trans h.2.2.2.1, g.2.2.2.2.trans h.2.2.2.2⟩

end Sys2Proof.Machine
end

