-- ==== Sys2Proof/Laws/Keeps.lean ====
section
/-! SUPPORT. `Keeps` for the primitive updates: queue, free values and canonical form. -/

namespace Sys2Proof.Machine

variable {s0 s : State}

theorem Keeps.refl (s : State) : Keeps s s := ⟨rfl, Nat.le_refl _, fun h => h⟩

theorem Keeps.ite {c : Prop} [Decidable c] {a b : State} (ha : Keeps s0 a) (hb : Keeps s0 b) : Keeps s0 (if c then a else b) := by
  split
  · exact ha
  · exact hb

theorem Keeps.foldl {β : Type} {g : State → β → State} {l : List β}
    (hg : ∀ s x, Keeps s0 s → Keeps s0 (g s x)) (h : Keeps s0 s) : Keeps s0 (l.foldl g s) := by
  induction l generalizing s with
  | nil => exact h
  | cons x l ih => exact ih (hg s x h)

theorem Keeps.snd {α : Type} {p : α × State} {v : α} (e : p = (v, s)) (h : Keeps s0 p.2) : Keeps s0 s := by
  subst e; exact h

theorem Keeps.fst {α : Type} {p : State × α} {v : α} (e : p = (s, v)) (h : Keeps s0 p.1) : Keeps s0 s := by
  subst e; exact h

theorem Keeps.foldl_fst {α β : Type} {g : State × α → β → State × α} {l : List β} {a : State × α}
    (hg : ∀ a x, Keeps s0 a.1 → Keeps s0 (g a x).1) (h : Keeps s0 a.1) : Keeps s0 (l.foldl g a).1 := by
  induction l generalizing a with
  | nil => exact h
  | cons x l ih => exact ih (hg a x h)

/-- A state that shares queue, drawn values and tables with a kept one is kept. -/
theorem Keeps.of {t : State} (h : Keeps s0 s) (hq : t.pending = s.pending) (hf : s.free ≤ t.free)
    (hc : s.canon = true → t.canon = true) : Keeps s0 t := ⟨hq.trans h.queue, Nat.le_trans h.drawn hf, fun c => hc (h.form c)⟩

/-- The answer of a command keeps what every command keeps. -/
def KeepsO (s0 : State) (o : Host.Outcome State Fault Refusal) : Prop := ∀ t, o = .next t → Keeps s0 t

theorem KeepsO.next {t : State} (h : Keeps s0 t) : KeepsO s0 (.next t) := fun _ e => by cases e; exact h

theorem KeepsO.ite {c : Prop} [Decidable c] {a b : Host.Outcome State Fault Refusal} (ha : KeepsO s0 a) (hb : KeepsO s0 b) :
    KeepsO s0 (if c then a else b) := by
  split
  · exact ha
  · exact hb

theorem State.canon_iff (s : State) : s.canon = true ↔
    Tab.wf regReset s.regs = true ∧ Tab.wf (fun _ => {}) s.pages = true ∧ Tab.wf blkReset s.blks = true ∧
    Memory.wf s.yard = true ∧ Memory.wf s.dram = true ∧ Memory.wf s.stallMem = true ∧ Memory.wf s.tcm = true ∧
    Memory.wf s.img = true ∧ Tab.wf (fun _ => {}) s.eth = true ∧ Tab.wf (fun _ => {}) s.cap = true ∧
    Tab.wf (fun _ => {}) s.can = true ∧ Tab.wf (fun _ => {}) s.axes = true ∧ Tab.wf (fun _ => {}) s.dlk = true ∧
    Tab.wf (fun _ => {}) s.pls = true ∧ Tab.wf (fun _ => {}) s.stalls = true := by
  simp only [State.canon, Bool.and_eq_true, and_assoc]

theorem Keeps.resp (x : Resp) (h : Keeps s0 s) : Keeps s0 { s with resp := x } := ⟨h.queue, h.drawn, h.form⟩
theorem Keeps.pwr (x : PwrSt) (h : Keeps s0 s) : Keeps s0 { s with pwr := x } := ⟨h.queue, h.drawn, h.form⟩
theorem Keeps.time (x : TimeSt) (h : Keeps s0 s) : Keeps s0 { s with time := x } := ⟨h.queue, h.drawn, h.form⟩
theorem Keeps.evr (x : EvrSt) (h : Keeps s0 s) : Keeps s0 { s with evr := x } := ⟨h.queue, h.drawn, h.form⟩
theorem Keeps.ptp (x : PtpSt) (h : Keeps s0 s) : Keeps s0 { s with ptp := x } := ⟨h.queue, h.drawn, h.form⟩
theorem Keeps.rtc (x : RtcSt) (h : Keeps s0 s) : Keeps s0 { s with rtc := x } := ⟨h.queue, h.drawn, h.form⟩
theorem Keeps.pnl (x : PnlSt) (h : Keeps s0 s) : Keeps s0 { s with pnl := x } := ⟨h.queue, h.drawn, h.form⟩
theorem Keeps.plk (x : PlkSt) (h : Keeps s0 s) : Keeps s0 { s with plk := x } := ⟨h.queue, h.drawn, h.form⟩
theorem Keeps.mtr (x : MtrSt) (h : Keeps s0 s) : Keeps s0 { s with mtr := x } := ⟨h.queue, h.drawn, h.form⟩
theorem Keeps.sec (x : SecSt) (h : Keeps s0 s) : Keeps s0 { s with sec := x } := ⟨h.queue, h.drawn, h.form⟩
theorem Keeps.lge (x : LgeSt) (h : Keeps s0 s) : Keeps s0 { s with lge := x } := ⟨h.queue, h.drawn, h.form⟩
theorem Keeps.kpr (x : KprSt) (h : Keeps s0 s) : Keeps s0 { s with kpr := x } := ⟨h.queue, h.drawn, h.form⟩
theorem Keeps.dsq (x : DsqSt) (h : Keeps s0 s) : Keeps s0 { s with dsq := x } := ⟨h.queue, h.drawn, h.form⟩
theorem Keeps.nsu (x : NsuSt) (h : Keeps s0 s) : Keeps s0 { s with nsu := x } := ⟨h.queue, h.drawn, h.form⟩
theorem Keeps.mdl (x : ModelSt) (h : Keeps s0 s) : Keeps s0 { s with mdl := x } := ⟨h.queue, h.drawn, h.form⟩
theorem Keeps.btk (x : BtkSt) (h : Keeps s0 s) : Keeps s0 { s with btk := x } := ⟨h.queue, h.drawn, h.form⟩
theorem Keeps.plic (x : Plics) (h : Keeps s0 s) : Keeps s0 { s with plic := x } := ⟨h.queue, h.drawn, h.form⟩
theorem Keeps.free (h : Keeps s0 s) : Keeps s0 { s with free := s.free + 1 } := ⟨h.queue, Nat.le_succ_of_le h.drawn, h.form⟩

theorem Keeps.regs (x : Tab Word) (w : Tab.wf regReset s.regs = true → Tab.wf regReset x = true) (h : Keeps s0 s) :
    Keeps s0 { s with regs := x } :=
  ⟨h.queue, h.drawn, fun c => by
    obtain ⟨c0, c1, c2, c3, c4, c5, c6, c7, c8, c9, c10, c11, c12, c13, c14⟩ := s.canon_iff.1 (h.form c)
    exact (State.canon_iff _).2 ⟨w c0, c1, c2, c3, c4, c5, c6, c7, c8, c9, c10, c11, c12, c13, c14⟩⟩

theorem Keeps.pages (x : Tab PageHdr) (w : Tab.wf (fun _ => {}) s.pages = true → Tab.wf (fun _ => {}) x = true) (h : Keeps s0 s) :
    Keeps s0 { s with pages := x } :=
  ⟨h.queue, h.drawn, fun c => by
    obtain ⟨c0, c1, c2, c3, c4, c5, c6, c7, c8, c9, c10, c11, c12, c13, c14⟩ := s.canon_iff.1 (h.form c)
    exact (State.canon_iff _).2 ⟨c0, w c1, c2, c3, c4, c5, c6, c7, c8, c9, c10, c11, c12, c13, c14⟩⟩

theorem Keeps.blks (x : Tab Blk) (w : Tab.wf blkReset s.blks = true → Tab.wf blkReset x = true) (h : Keeps s0 s) :
    Keeps s0 { s with blks := x } :=
  ⟨h.queue, h.drawn, fun c => by
    obtain ⟨c0, c1, c2, c3, c4, c5, c6, c7, c8, c9, c10, c11, c12, c13, c14⟩ := s.canon_iff.1 (h.form c)
    exact (State.canon_iff _).2 ⟨c0, c1, w c2, c3, c4, c5, c6, c7, c8, c9, c10, c11, c12, c13, c14⟩⟩

theorem Keeps.yard (x : Tab Byte) (w : Tab.wf byte0 s.yard = true → Tab.wf byte0 x = true) (h : Keeps s0 s) :
    Keeps s0 { s with yard := x } :=
  ⟨h.queue, h.drawn, fun c => by
    obtain ⟨c0, c1, c2, c3, c4, c5, c6, c7, c8, c9, c10, c11, c12, c13, c14⟩ := s.canon_iff.1 (h.form c)
    exact (State.canon_iff _).2 ⟨c0, c1, c2, w c3, c4, c5, c6, c7, c8, c9, c10, c11, c12, c13, c14⟩⟩

/-- A yard built from an earlier state's one. -/
theorem Keeps.yardOf {t : State} (x : Tab Byte) (h0 : Keeps s0 s) (w : Tab.wf byte0 s.yard = true → Tab.wf byte0 x = true) (h : Keeps s0 t) :
    Keeps s0 { t with yard := x } :=
  ⟨h.queue, h.drawn, fun c => by
    have hx := w (s.canon_iff.1 (h0.form c)).2.2.2.1
    obtain ⟨c0, c1, c2, c3, c4, c5, c6, c7, c8, c9, c10, c11, c12, c13, c14⟩ := t.canon_iff.1 (h.form c)
    exact (State.canon_iff _).2 ⟨c0, c1, c2, hx, c4, c5, c6, c7, c8, c9, c10, c11, c12, c13, c14⟩⟩

theorem Keeps.dram (x : Tab Byte) (w : Tab.wf byte0 s.dram = true → Tab.wf byte0 x = true) (h : Keeps s0 s) :
    Keeps s0 { s with dram := x } :=
  ⟨h.queue, h.drawn, fun c => by
    obtain ⟨c0, c1, c2, c3, c4, c5, c6, c7, c8, c9, c10, c11, c12, c13, c14⟩ := s.canon_iff.1 (h.form c)
    exact (State.canon_iff _).2 ⟨c0, c1, c2, c3, w c4, c5, c6, c7, c8, c9, c10, c11, c12, c13, c14⟩⟩

theorem Keeps.stallMem (x : Tab Byte) (w : Tab.wf byte0 s.stallMem = true → Tab.wf byte0 x = true) (h : Keeps s0 s) :
    Keeps s0 { s with stallMem := x } :=
  ⟨h.queue, h.drawn, fun c => by
    obtain ⟨c0, c1, c2, c3, c4, c5, c6, c7, c8, c9, c10, c11, c12, c13, c14⟩ := s.canon_iff.1 (h.form c)
    exact (State.canon_iff _).2 ⟨c0, c1, c2, c3, c4, w c5, c6, c7, c8, c9, c10, c11, c12, c13, c14⟩⟩

theorem Keeps.tcm (x : Tab Byte) (w : Tab.wf byte0 s.tcm = true → Tab.wf byte0 x = true) (h : Keeps s0 s) :
    Keeps s0 { s with tcm := x } :=
  ⟨h.queue, h.drawn, fun c => by
    obtain ⟨c0, c1, c2, c3, c4, c5, c6, c7, c8, c9, c10, c11, c12, c13, c14⟩ := s.canon_iff.1 (h.form c)
    exact (State.canon_iff _).2 ⟨c0, c1, c2, c3, c4, c5, w c6, c7, c8, c9, c10, c11, c12, c13, c14⟩⟩

theorem Keeps.img (x : Tab Byte) (w : Tab.wf byte0 s.img = true → Tab.wf byte0 x = true) (h : Keeps s0 s) :
    Keeps s0 { s with img := x } :=
  ⟨h.queue, h.drawn, fun c => by
    obtain ⟨c0, c1, c2, c3, c4, c5, c6, c7, c8, c9, c10, c11, c12, c13, c14⟩ := s.canon_iff.1 (h.form c)
    exact (State.canon_iff _).2 ⟨c0, c1, c2, c3, c4, c5, c6, w c7, c8, c9, c10, c11, c12, c13, c14⟩⟩

theorem Keeps.eth (x : Tab EthPort) (w : Tab.wf (fun _ => {}) s.eth = true → Tab.wf (fun _ => {}) x = true) (h : Keeps s0 s) :
    Keeps s0 { s with eth := x } :=
  ⟨h.queue, h.drawn, fun c => by
    obtain ⟨c0, c1, c2, c3, c4, c5, c6, c7, c8, c9, c10, c11, c12, c13, c14⟩ := s.canon_iff.1 (h.form c)
    exact (State.canon_iff _).2 ⟨c0, c1, c2, c3, c4, c5, c6, c7, w c8, c9, c10, c11, c12, c13, c14⟩⟩

theorem Keeps.cap (x : Tab CapCh) (w : Tab.wf (fun _ => {}) s.cap = true → Tab.wf (fun _ => {}) x = true) (h : Keeps s0 s) :
    Keeps s0 { s with cap := x } :=
  ⟨h.queue, h.drawn, fun c => by
    obtain ⟨c0, c1, c2, c3, c4, c5, c6, c7, c8, c9, c10, c11, c12, c13, c14⟩ := s.canon_iff.1 (h.form c)
    exact (State.canon_iff _).2 ⟨c0, c1, c2, c3, c4, c5, c6, c7, c8, w c9, c10, c11, c12, c13, c14⟩⟩

theorem Keeps.can (x : Tab CanCh) (w : Tab.wf (fun _ => {}) s.can = true → Tab.wf (fun _ => {}) x = true) (h : Keeps s0 s) :
    Keeps s0 { s with can := x } :=
  ⟨h.queue, h.drawn, fun c => by
    obtain ⟨c0, c1, c2, c3, c4, c5, c6, c7, c8, c9, c10, c11, c12, c13, c14⟩ := s.canon_iff.1 (h.form c)
    exact (State.canon_iff _).2 ⟨c0, c1, c2, c3, c4, c5, c6, c7, c8, c9, w c10, c11, c12, c13, c14⟩⟩

theorem Keeps.axes (x : Tab Axis) (w : Tab.wf (fun _ => {}) s.axes = true → Tab.wf (fun _ => {}) x = true) (h : Keeps s0 s) :
    Keeps s0 { s with axes := x } :=
  ⟨h.queue, h.drawn, fun c => by
    obtain ⟨c0, c1, c2, c3, c4, c5, c6, c7, c8, c9, c10, c11, c12, c13, c14⟩ := s.canon_iff.1 (h.form c)
    exact (State.canon_iff _).2 ⟨c0, c1, c2, c3, c4, c5, c6, c7, c8, c9, c10, w c11, c12, c13, c14⟩⟩

theorem Keeps.dlk (x : Tab Dlk) (w : Tab.wf (fun _ => {}) s.dlk = true → Tab.wf (fun _ => {}) x = true) (h : Keeps s0 s) :
    Keeps s0 { s with dlk := x } :=
  ⟨h.queue, h.drawn, fun c => by
    obtain ⟨c0, c1, c2, c3, c4, c5, c6, c7, c8, c9, c10, c11, c12, c13, c14⟩ := s.canon_iff.1 (h.form c)
    exact (State.canon_iff _).2 ⟨c0, c1, c2, c3, c4, c5, c6, c7, c8, c9, c10, c11, w c12, c13, c14⟩⟩

theorem Keeps.pls (x : Tab PulseOut) (w : Tab.wf (fun _ => {}) s.pls = true → Tab.wf (fun _ => {}) x = true) (h : Keeps s0 s) :
    Keeps s0 { s with pls := x } :=
  ⟨h.queue, h.drawn, fun c => by
    obtain ⟨c0, c1, c2, c3, c4, c5, c6, c7, c8, c9, c10, c11, c12, c13, c14⟩ := s.canon_iff.1 (h.form c)
    exact (State.canon_iff _).2 ⟨c0, c1, c2, c3, c4, c5, c6, c7, c8, c9, c10, c11, c12, w c13, c14⟩⟩

theorem Keeps.stalls (x : Tab Stall) (w : Tab.wf (fun _ => {}) s.stalls = true → Tab.wf (fun _ => {}) x = true) (h : Keeps s0 s) :
    Keeps s0 { s with stalls := x } :=
  ⟨h.queue, h.drawn, fun c => by
    obtain ⟨c0, c1, c2, c3, c4, c5, c6, c7, c8, c9, c10, c11, c12, c13, c14⟩ := s.canon_iff.1 (h.form c)
    exact (State.canon_iff _).2 ⟨c0, c1, c2, c3, c4, c5, c6, c7, c8, c9, c10, c11, c12, c13, w c14⟩⟩

/-- The logic engine's memories replaced. -/
theorem Keeps.lgeMem (m i : Tab Byte) (l : LgeSt) (wm : Tab.wf byte0 m = true) (wi : Tab.wf byte0 s.img = true → Tab.wf byte0 i = true)
    (h : Keeps s0 s) : Keeps s0 { s with tcm := m, img := i, lge := l } :=
  h.of rfl (Nat.le_refl _) fun c => by
    obtain ⟨c0, c1, c2, c3, c4, c5, c6, c7, c8, c9, c10, c11, c12, c13, c14⟩ := s.canon_iff.1 c
    exact (State.canon_iff _).2 ⟨c0, c1, c2, c3, c4, c5, wm, wi c7, c8, c9, c10, c11, c12, c13, c14⟩

end Sys2Proof.Machine
end

