-- ==== Sys2Proof/Laws/KeepsOps.lean ====
section
/-! SUPPORT. `Keeps` for every operation and command of Machine/Ops.lean: the queue stays, free values are drawn once, tables stay
canonical. -/

namespace Sys2Proof.Machine
variable {s0 s : State}

theorem State.setReg_keeps {a : Nat} {v : Word} (h : Keeps s0 s) : Keeps s0 (s.setReg a v) :=
  Keeps.regs _ (Tab.wf_set _ _) h

theorem State.setRegs_keeps {l : List (Nat × Word)}  (hs : Keeps s0 s) : Keeps s0 (State.setRegs s l) := by
  unfold State.setRegs
  repeat' with_reducible first | assumption | refine Keeps.foldl (fun s x hc => ?_) ?_ | apply State.setReg_keeps

theorem State.incReg_keeps {a : Nat}  (hs : Keeps s0 s) : Keeps s0 (State.incReg s a) := by
  unfold State.incReg
  repeat' with_reducible first | assumption | apply State.setReg_keeps

theorem State.setFld_keeps {a hi lo x : Nat}  (hs : Keeps s0 s) : Keeps s0 (State.setFld s a hi lo x) := by
  unfold State.setFld
  repeat' with_reducible first | assumption | apply State.setReg_keeps

theorem State.setFlag_keeps {a i : Nat} {b : Bool}  (hs : Keeps s0 s) : Keeps s0 (State.setFlag s a i b) := by
  unfold State.setFlag
  repeat' with_reducible first | assumption | apply State.setReg_keeps

theorem State.setReg64_keeps {lo hi n : Nat}  (hs : Keeps s0 s) : Keeps s0 (State.setReg64 s lo hi n) := by
  unfold State.setReg64
  repeat' with_reducible first | assumption | apply State.setReg_keeps

theorem State.setBlk_keeps {p : Nat} {x : Blk} (h : Keeps s0 s) : Keeps s0 (s.setBlk p x) :=
  Keeps.blks _ (Tab.wf_set _ _) h

theorem State.setPage_keeps {p : Nat} {x : PageHdr} (h : Keeps s0 s) : Keeps s0 (s.setPage p x) :=
  Keeps.plic _ (Keeps.pages _ (Tab.wf_set _ _) h)

theorem State.irq_keeps {p i : Nat}  (hs : Keeps s0 s) : Keeps s0 (State.irq s p i) := by
  unfold State.irq
  repeat' with_reducible first | assumption | (intro x; clear_value x) | (lift_lets -underBinder) | apply State.setPage_keeps

theorem State.errc_keeps {p code detail : Nat}  (hs : Keeps s0 s) : Keeps s0 (State.errc s p code detail) := by
  unfold State.errc
  repeat' with_reducible first | assumption | (intro x; clear_value x) | (lift_lets -underBinder) | apply Keeps.ite | apply State.setPage_keeps

theorem State.statBit_keeps {p i : Nat} {b : Bool}  (hs : Keeps s0 s) : Keeps s0 (State.statBit s p i b) := by
  unfold State.statBit
  repeat' with_reducible first | assumption | (intro x; clear_value x) | (lift_lets -underBinder) | apply Keeps.ite | apply State.setPage_keeps

theorem State.loseRec_keeps {pl : Plane}  (hs : Keeps s0 s) : Keeps s0 (State.loseRec s pl) := by
  unfold State.loseRec
  repeat' with_reducible first | assumption | (intro x; first | (refine have hx : Keeps s0 x := ?_; ?_; unfold x; rotate_left; clear_value x) | clear_value x) | (lift_lets -underBinder) | apply State.incReg_keeps | apply State.irq_keeps | (intro a b hc) | (intro a hc) | apply Keeps.evr

theorem State.submit_keeps {r : Record}  (hs : Keeps s0 s) : Keeps s0 (State.submit s r) := by
  unfold State.submit
  repeat' with_reducible first | assumption | (intro x; clear_value x) | (lift_lets -underBinder) | apply Keeps.ite | apply State.incReg_keeps | apply State.loseRec_keeps | (intro a b hc) | (intro a hc) | apply Keeps.evr

theorem State.emit_keeps {k p : Nat} {args : List Word}  (hs : Keeps s0 s) : Keeps s0 (State.emit s k p args) := by
  unfold State.emit
  repeat' with_reducible first | assumption | (intro x; clear_value x) | (lift_lets -underBinder) | apply State.submit_keeps

theorem State.emitSev_keeps {k : Nat} {sev : BitVec 2} {p : Nat} {args : List Word}  (hs : Keeps s0 s) : Keeps s0 (State.emitSev s k sev p args) := by
  unfold State.emitSev
  repeat' with_reducible first | assumption | (intro x; clear_value x) | (lift_lets -underBinder) | apply State.submit_keeps

theorem State.answer_keeps {v : Word}  (hs : Keeps s0 s) : Keeps s0 (State.answer s v) := by
  unfold State.answer
  repeat' with_reducible first | assumption | apply Keeps.resp

theorem State.accFault_keeps   (hs : Keeps s0 s) : Keeps s0 (State.accFault s) := by
  unfold State.accFault
  repeat' with_reducible first | assumption | apply Keeps.resp

theorem State.protDrop_keeps {p ofs : Nat} {code : Bool}  (hs : Keeps s0 s) : Keeps s0 (State.protDrop s p ofs code) := by
  unfold State.protDrop
  repeat' with_reducible first | assumption | (intro x; refine have hx : Keeps s0 x := ?_; ?_; unfold x; rotate_left; clear_value x) | (lift_lets -underBinder) | apply Keeps.ite | apply State.irq_keeps | apply State.errc_keeps | apply State.emit_keeps

theorem State.cfgRej_keeps {p ofs : Nat}  (hs : Keeps s0 s) : Keeps s0 (State.cfgRej s p ofs) := by
  unfold State.cfgRej
  repeat' with_reducible first | assumption | apply State.irq_keeps | apply State.errc_keeps | apply State.emit_keeps

theorem State.reqRej_keeps {p : Nat} {v : Word}  (hs : Keeps s0 s) : Keeps s0 (State.reqRej s p v) := by
  unfold State.reqRej
  repeat' with_reducible first | assumption | apply State.irq_keeps | apply State.errc_keeps | apply State.emit_keeps

theorem State.stateChg_keeps {p : Nat}  (hs : Keeps s0 s) : Keeps s0 (State.stateChg s p) := by
  unfold State.stateChg
  repeat' with_reducible first | assumption | refine Keeps.foldl (fun s x hc => ?_) ?_ | apply State.irq_keeps

theorem State.setSt_keeps {p : Nat} {st : BState}  (hs : Keeps s0 s) : Keeps s0 (State.setSt s p st) := by
  unfold State.setSt
  repeat' with_reducible first | assumption | (intro x; clear_value x) | (lift_lets -underBinder) | apply Keeps.ite | apply State.setBlk_keeps | apply State.stateChg_keeps

theorem State.toRun_keeps {p : Nat}  (hs : Keeps s0 s) : Keeps s0 (State.toRun s p) := by
  unfold State.toRun
  repeat' with_reducible first | assumption | (intro x; first | (refine have hx : Keeps s0 x := ?_; ?_; unfold x; rotate_left; clear_value x) | clear_value x) | (lift_lets -underBinder) | refine Keeps.foldl (fun s x hc => ?_) ?_ | apply State.setBlk_keeps | apply State.setPage_keeps | apply State.stateChg_keeps

theorem State.toFault_keeps {p : Nat}  (hs : Keeps s0 s) : Keeps s0 (State.toFault s p) := by
  unfold State.toFault
  repeat' with_reducible first | assumption | (intro x; first | (refine have hx : Keeps s0 x := ?_; ?_; unfold x; rotate_left; clear_value x) | clear_value x) | (lift_lets -underBinder) | refine Keeps.foldl (fun s x hc => ?_) ?_ | apply State.setBlk_keeps | apply State.irq_keeps

theorem State.fail_keeps {p code detail : Nat}  (hs : Keeps s0 s) : Keeps s0 (State.fail s p code detail) := by
  unfold State.fail
  repeat' with_reducible first | assumption | apply State.errc_keeps | apply State.emit_keeps | apply State.toFault_keeps

theorem State.toStopAbandoned_keeps {p : Nat}  (hs : Keeps s0 s) : Keeps s0 (State.toStopAbandoned s p) := by
  unfold State.toStopAbandoned
  repeat' with_reducible first | assumption | (intro x; clear_value x) | (lift_lets -underBinder) | apply State.setBlk_keeps | apply State.stateChg_keeps

theorem State.slog_keeps {code data : Nat}  (hs : Keeps s0 s) : Keeps s0 (State.slog s code data) := by
  unfold State.slog
  repeat' with_reducible first | assumption | (intro x; first | (refine have hx : Keeps s0 x := ?_; ?_; unfold x; rotate_left; clear_value x) | clear_value x) | (lift_lets -underBinder) | apply State.emit_keeps | (intro a b hc) | (intro a hc) | apply Keeps.kpr

theorem State.slogProt_keeps {who : Initiator} {a : Nat}  (hs : Keeps s0 s) : Keeps s0 (State.slogProt s who a) := by
  unfold State.slogProt
  repeat' with_reducible first | assumption | apply Keeps.ite | apply State.irq_keeps | apply State.slog_keeps

theorem State.gate_keeps {who : Initiator} {a : Nat} {k : State → State} (hk : ∀ s, Keeps s0 s → Keeps s0 (k s)) (hs : Keeps s0 s) : Keeps s0 (State.gate s who a k) := by
  unfold State.gate
  repeat' with_reducible first | assumption | apply hk | apply Keeps.ite | apply State.answer_keeps | apply State.accFault_keeps | apply State.protDrop_keeps | apply State.slogProt_keeps

theorem State.rgate_keeps {who : Initiator} {a : Nat} {k : State → State} (hk : ∀ s, Keeps s0 s → Keeps s0 (k s)) (hs : Keeps s0 s) : Keeps s0 (State.rgate s who a k) := by
  unfold State.rgate
  repeat' with_reducible first | assumption | apply hk | apply Keeps.ite | apply State.answer_keeps | apply State.accFault_keeps

theorem State.rws_keeps {a : Nat} {k : State → State} (hk : ∀ s, Keeps s0 s → Keeps s0 (k s)) (hs : Keeps s0 s) : Keeps s0 (State.rws s a k) := by
  unfold State.rws
  repeat' with_reducible first | assumption | apply hk | apply Keeps.ite | apply State.cfgRej_keeps

theorem State.fresh_keeps (h : Keeps s0 s) : Keeps s0 s.fresh.2 := Keeps.free h

theorem State.drmUe_keeps {a : Nat}  (hs : Keeps s0 s) : Keeps s0 (State.drmUe s a) := by
  unfold State.drmUe
  repeat' with_reducible first | assumption | apply State.incReg_keeps | apply State.setReg64_keeps | apply State.irq_keeps | apply State.statBit_keeps

theorem State.drmCe_keeps   (hs : Keeps s0 s) : Keeps s0 (State.drmCe s) := by
  unfold State.drmCe
  repeat' with_reducible first | assumption | apply State.incReg_keeps | apply State.irq_keeps | apply State.statBit_keeps

theorem State.drmRead_keeps {e : Ecc} {a n : Nat}  (hs : Keeps s0 s) : Keeps s0 (State.drmRead s e a n) := by
  unfold State.drmRead
  repeat' with_reducible first | assumption | apply State.fresh_keeps | apply State.drmUe_keeps | apply State.drmCe_keeps | apply State.fresh_keeps | split

end Sys2Proof.Machine
end

