-- ==== Sys2Proof/Laws/KeepsLane.lean ====
section
/-! SUPPORT. `Keeps` for every operation and command of Machine/Lane.lean: the queue stays, free values are drawn once, tables stay
canonical. -/

namespace Sys2Proof.Machine
variable {s0 s : State}

theorem State.setLane_keeps {i : Nat} {l : PlkLane}  (hs : Keeps s0 s) : Keeps s0 (State.setLane s i l) := by
  unfold State.setLane
  repeat' with_reducible first | assumption | apply State.lanes_keeps | (intro a b hc) | (intro a hc) | apply Keeps.plk

theorem State.lanesTick_keeps   (hs : Keeps s0 s) : Keeps s0 (State.lanesTick s) := by
  unfold State.lanesTick
  repeat' with_reducible first | assumption | apply Keeps.ite | refine Keeps.foldl (fun s x hc => ?_) ?_ | apply State.setLane_keeps

theorem State.lanesPut_keeps {ty queue : Nat} {f : List Byte}  (hs : Keeps s0 s) : Keeps s0 (State.lanesPut s ty queue f) := by
  unfold State.lanesPut
  repeat' with_reducible first | assumption | apply Keeps.ite | refine Keeps.foldl (fun s x hc => ?_) ?_ | apply State.setLane_keeps

theorem State.frameAbandon_keeps   (hs : Keeps s0 s) : Keeps s0 (State.frameAbandon s) := by
  unfold State.frameAbandon
  repeat' with_reducible first | assumption | refine Keeps.foldl (fun s x hc => ?_) ?_ | apply State.setLane_keeps

end Sys2Proof.Machine
end

