-- ==== Sys2Proof/Laws/KeepsCan.lean ====
section
/-! SUPPORT. `Keeps` for every operation and command of Machine/Can.lean: the queue stays, free values are drawn once, tables stay
canonical. -/

namespace Sys2Proof.Machine
variable {s0 s : State}

theorem State.setCan_keeps {p : Nat} {x : CanCh} (h : Keeps s0 s) : Keeps s0 (s.setCan p x) :=
  Keeps.can _ (Tab.wf_set _ _) h

theorem State.setTxb_keeps {n b st out : Nat}  (hs : Keeps s0 s) : Keeps s0 (State.setTxb s n b st out) := by
  unfold State.setTxb
  repeat' with_reducible first | assumption | apply State.setFld_keeps

theorem State.canWrite_keeps {n o ofs : Nat} {l : List Byte}  (hs : Keeps s0 s) : Keeps s0 (State.canWrite s n o ofs l) := by
  unfold State.canWrite
  repeat' with_reducible first | assumption | (intro x; clear_value x) | (lift_lets -underBinder) | apply Keeps.ite | apply State.incReg_keeps | apply State.setCan_keeps

theorem State.loadBuf0_keeps {n : Nat}  (hs : Keeps s0 s) : Keeps s0 (State.loadBuf0 s n) := by
  unfold State.loadBuf0
  repeat' with_reducible first | assumption | (intro x; first | (refine have hx : Keeps s0 x := ?_; ?_; unfold x; rotate_left; clear_value x) | clear_value x) | (lift_lets -underBinder) | apply Keeps.ite | refine Keeps.foldl (fun s x hc => ?_) ?_ | apply State.setReg_keeps | apply State.setCan_keeps | apply State.setTxb_keeps | split

theorem State.canFeed_keeps {n : Nat}  (hs : Keeps s0 s) : Keeps s0 (State.canFeed s n) := by
  unfold State.canFeed
  repeat' with_reducible first | assumption | apply Keeps.ite | apply State.loadBuf0_keeps

theorem State.txbEnd_keeps {n b out : Nat}  (hs : Keeps s0 s) : Keeps s0 (State.txbEnd s n b out) := by
  unfold State.txbEnd
  repeat' with_reducible first | assumption | (intro x; clear_value x) | (lift_lets -underBinder) | apply State.irq_keeps | apply State.setCan_keeps | apply State.setTxb_keeps

theorem State.fifoPut_keeps {n : Nat} {m : CanMsg}  (hs : Keeps s0 s) : Keeps s0 (State.fifoPut s n m) := by
  unfold State.fifoPut
  repeat' with_reducible first | assumption | (intro x; first | (refine have hx : Keeps s0 x := ?_; ?_; unfold x; rotate_left; clear_value x) | clear_value x) | (lift_lets -underBinder) | apply Keeps.ite | apply State.setReg_keeps | apply State.incReg_keeps | apply State.irq_keeps | apply State.setCan_keeps

theorem State.confine_keeps {n tec rxc : Nat}  (hs : Keeps s0 s) : Keeps s0 (State.confine s n tec rxc) := by
  unfold State.confine
  repeat' with_reducible first | assumption | (intro x; first | (refine have hx : Keeps s0 x := ?_; ?_; unfold x; rotate_left; clear_value x) | clear_value x) | (lift_lets -underBinder) | apply Keeps.ite | apply State.setReg_keeps | apply State.incReg_keeps | apply State.setFld_keeps | apply State.irq_keeps | apply State.errc_keeps | apply State.emitSev_keeps

theorem State.canTake_keeps {n : Nat} {f : CanFrame}  (hs : Keeps s0 s) : Keeps s0 (State.canTake s n f) := by
  unfold State.canTake
  repeat' with_reducible first | assumption | (intro x; first | (refine have hx : Keeps s0 x := ?_; ?_; unfold x; rotate_left; clear_value x) | clear_value x) | (lift_lets -underBinder) | apply Keeps.ite | apply State.incReg_keeps | apply State.setCan_keeps | apply State.fifoPut_keeps | split

theorem execCanRxFrame_keeps {n : Fin 12} {f : CanFrame}  (hs : Keeps s0 s) : KeepsO s0 (execCanRxFrame n f s) := by
  unfold execCanRxFrame
  repeat' with_reducible first | assumption | (intro x; first | (refine have hx : Keeps s0 x := ?_; ?_; unfold x; rotate_left; clear_value x) | clear_value x) | (lift_lets -underBinder) | apply KeepsO.next | apply KeepsO.ite | apply Keeps.ite | apply State.incReg_keeps | apply State.fresh_keeps | apply State.confine_keeps | apply State.canTake_keeps

theorem State.winRead_keeps {n o : Nat}  (hs : Keeps s0 s) : Keeps s0 (State.winRead s n o) := by
  unfold State.winRead
  repeat' with_reducible first | assumption | (intro x; clear_value x) | (lift_lets -underBinder) | apply Keeps.ite | apply State.setReg_keeps | apply State.answer_keeps | apply State.setCan_keeps | split

theorem execRxfLatch_keeps {who : Initiator} {n : Fin 12} {ofs : Byte}  (hs : Keeps s0 s) : KeepsO s0 (execRxfLatch who n ofs s) := by
  unfold execRxfLatch
  repeat' with_reducible first | assumption | (intro x; clear_value x) | (lift_lets -underBinder) | apply KeepsO.next | apply KeepsO.ite | apply State.rgate_keeps | apply State.winRead_keeps | (intro a b hc) | (intro a hc)

theorem execRxfRelease_keeps {who : Initiator} {n : Fin 12}  (hs : Keeps s0 s) : KeepsO s0 (execRxfRelease who n s) := by
  unfold execRxfRelease
  repeat' with_reducible first | assumption | (intro x; clear_value x) | (lift_lets -underBinder) | apply KeepsO.next | apply KeepsO.ite | apply State.rgate_keeps | apply State.winRead_keeps | split | (intro a b hc) | (intro a hc)

theorem State.txbReq_keeps {n b : Nat}  (hs : Keeps s0 s) : Keeps s0 (State.txbReq s n b) := by
  unfold State.txbReq
  repeat' with_reducible first | assumption | apply Keeps.ite | apply State.setTxb_keeps

theorem execTxbReq_keeps {who : Initiator} {n : Fin 12} {b1 b2 : Bool}  (hs : Keeps s0 s) : KeepsO s0 (execTxbReq who n b1 b2 s) := by
  unfold execTxbReq
  repeat' with_reducible first | assumption | (intro x; first | (refine have hx : Keeps s0 x := ?_; ?_; unfold x; rotate_left; clear_value x) | clear_value x) | (lift_lets -underBinder) | apply KeepsO.next | apply KeepsO.ite | apply Keeps.ite | apply State.gate_keeps | apply State.txbReq_keeps | (intro a b hc) | (intro a hc)

theorem State.txbAbort_keeps {n b : Nat}  (hs : Keeps s0 s) : Keeps s0 (State.txbAbort s n b) := by
  unfold State.txbAbort
  repeat' with_reducible first | assumption | (intro x; clear_value x) | (lift_lets -underBinder) | apply Keeps.ite | apply State.setCan_keeps | apply State.canFeed_keeps | apply State.txbEnd_keeps

theorem execTxbAbort_keeps {who : Initiator} {n : Fin 12} {mask : BitVec 3}  (hs : Keeps s0 s) : KeepsO s0 (execTxbAbort who n mask s) := by
  unfold execTxbAbort
  repeat' with_reducible first | assumption | apply KeepsO.next | apply KeepsO.ite | apply Keeps.ite | refine Keeps.foldl (fun s x hc => ?_) ?_ | apply State.gate_keeps | apply State.txbAbort_keeps | (intro a b hc) | (intro a hc)

theorem State.canRecover_keeps {n : Nat}  (hs : Keeps s0 s) : Keeps s0 (State.canRecover s n) := by
  unfold State.canRecover
  repeat' with_reducible first | assumption | apply Keeps.ite | apply State.setReg_keeps | apply State.setFld_keeps

theorem execRecReq_keeps {who : Initiator} {n : Fin 12}  (hs : Keeps s0 s) : KeepsO s0 (execRecReq who n s) := by
  unfold execRecReq
  repeat' with_reducible first | assumption | apply KeepsO.next | apply KeepsO.ite | apply Keeps.ite | apply State.gate_keeps | apply State.canRecover_keeps | (intro a b hc) | (intro a hc)

theorem State.canQueue_keeps {n : Nat} {off : List Nat}  (hs : Keeps s0 s) : Keeps s0 (State.canQueue s n off) := by
  unfold State.canQueue
  repeat' with_reducible first | assumption | (intro x; first | (refine have hx : Keeps s0 x := ?_; ?_; unfold x; rotate_left; clear_value x) | clear_value x) | (lift_lets -underBinder) | apply Keeps.ite | refine Keeps.foldl (fun s x hc => ?_) ?_ | apply State.setCan_keeps | apply State.canFeed_keeps

theorem execCanArbitration_keeps {n : Fin 12}  (hs : Keeps s0 s) : KeepsO s0 (execCanArbitration n s) := by
  unfold execCanArbitration
  repeat' with_reducible first | assumption | (intro x; first | (refine have hx : Keeps s0 x := ?_; ?_; unfold x; rotate_left; clear_value x) | clear_value x) | (lift_lets -underBinder) | apply KeepsO.next | apply KeepsO.ite | apply Keeps.ite | apply State.setTxb_keeps | apply State.loadBuf0_keeps | split

theorem State.canLoop_keeps {n b : Nat}  (hs : Keeps s0 s) : Keeps s0 (State.canLoop s n b) := by
  unfold State.canLoop
  repeat' with_reducible first | assumption | apply Keeps.ite | apply State.incReg_keeps | apply State.canTake_keeps

theorem execCanTxEnd_keeps {n : Fin 12} {res : TxEnd}  (hs : Keeps s0 s) : KeepsO s0 (execCanTxEnd n res s) := by
  unfold execCanTxEnd
  repeat' with_reducible first | assumption | (intro x; first | (refine have hx : Keeps s0 x := ?_; ?_; unfold x; rotate_left; clear_value x) | (refine have hx : ∀ s, Keeps s0 s → Keeps s0 (x s) := fun s h => ?_; ?_; unfold x; rotate_left; clear_value x) | clear_value x) | (lift_lets -underBinder) | apply KeepsO.next | apply KeepsO.ite | apply Keeps.ite | apply State.setReg_keeps | apply State.incReg_keeps | apply State.setFld_keeps | apply State.errc_keeps | apply State.fresh_keeps | apply State.setTxb_keeps | apply State.canFeed_keeps | apply State.txbEnd_keeps | apply State.confine_keeps | apply State.canLoop_keeps | apply State.fresh_keeps | split | (intro a b hc) | (intro a hc) | apply_assumption

theorem execCanBusError_keeps {n : Fin 12} {code tecUp recUp : BitVec 4}  (hs : Keeps s0 s) : KeepsO s0 (execCanBusError n code tecUp recUp s) := by
  unfold execCanBusError
  repeat' with_reducible first | assumption | (intro x; first | (refine have hx : Keeps s0 x := ?_; ?_; unfold x; rotate_left; clear_value x) | clear_value x) | (lift_lets -underBinder) | apply KeepsO.next | apply KeepsO.ite | apply Keeps.ite | apply State.incReg_keeps | apply State.setFld_keeps | apply State.irq_keeps | apply State.confine_keeps

theorem execRecoveryDone_keeps {n : Fin 12}  (hs : Keeps s0 s) : KeepsO s0 (execRecoveryDone n s) := by
  unfold execRecoveryDone
  repeat' with_reducible first | assumption | (intro x; clear_value x) | (lift_lets -underBinder) | apply KeepsO.next | apply KeepsO.ite | apply Keeps.ite | apply State.setReg_keeps | apply State.confine_keeps

theorem execFilterTimeout_keeps {n : Fin 12} {f : Fin 16}  (hs : Keeps s0 s) : KeepsO s0 (execFilterTimeout n f s) := by
  unfold execFilterTimeout
  repeat' with_reducible first | assumption | (intro x; clear_value x) | (lift_lets -underBinder) | apply KeepsO.next | apply KeepsO.ite | apply Keeps.ite | apply State.irq_keeps | apply State.setCan_keeps | split

theorem State.canStop_keeps {n : Nat} {force : Bool}  (hs : Keeps s0 s) : Keeps s0 (State.canStop s n force) := by
  unfold State.canStop
  repeat' with_reducible first | assumption | (intro x; first | (refine have hx : Keeps s0 x := ?_; ?_; unfold x; rotate_left; clear_value x) | clear_value x) | (lift_lets -underBinder) | apply Keeps.ite | refine Keeps.foldl (fun s x hc => ?_) ?_ | apply State.setCan_keeps | apply State.txbEnd_keeps | apply State.confine_keeps

theorem State.canStart_keeps {n : Nat}  (hs : Keeps s0 s) : Keeps s0 (State.canStart s n) := by
  unfold State.canStart
  repeat' with_reducible first | assumption | (intro x; refine have hx : Keeps s0 x := ?_; ?_; unfold x; rotate_left; clear_value x) | (lift_lets -underBinder) | apply Keeps.ite | apply State.setFld_keeps | apply State.canRecover_keeps

end Sys2Proof.Machine
end

