-- ==== Sys2Proof/Laws/KeepsMtr.lean ====
section
/-! SUPPORT. `Keeps` for every operation and command of Machine/Mtr.lean: the queue stays, free values are drawn once, tables stay
canonical. -/

namespace Sys2Proof.Machine
variable {s0 s : State}

theorem State.setPulse_keeps {p : Nat} {x : PulseOut} (h : Keeps s0 s) : Keeps s0 (s.setPulse p x) :=
  Keeps.pls _ (Tab.wf_set _ _) h

theorem State.setMtr_keeps {f : MtrSt → MtrSt}  (hs : Keeps s0 s) : Keeps s0 (State.setMtr s f) := by
  unfold State.setMtr
  repeat' with_reducible first | assumption | apply Keeps.mtr

theorem State.intFlag_keeps {ch f : Nat}  (hs : Keeps s0 s) : Keeps s0 (State.intFlag s ch f) := by
  unfold State.intFlag
  repeat' with_reducible first | assumption | apply State.setMtr_keeps

theorem State.addResidue_keeps {o : Nat} {x : Int}  (hs : Keeps s0 s) : Keeps s0 (State.addResidue s o x) := by
  unfold State.addResidue
  repeat' with_reducible first | assumption | (intro x; first | (refine have hx : Keeps s0 x := ?_; ?_; unfold x; rotate_left; clear_value x) | clear_value x) | (lift_lets -underBinder) | apply Keeps.ite | apply State.setReg_keeps | apply State.irq_keeps | apply State.setPulse_keeps | apply State.setMtr_keeps

theorem State.loadPulse_keeps {o : Nat} {e : Int} {ticks : Nat}  (hs : Keeps s0 s) : Keeps s0 (State.loadPulse s o e ticks) := by
  unfold State.loadPulse
  repeat' with_reducible first | assumption | (intro x; first | (refine have hx : Keeps s0 x := ?_; ?_; unfold x; rotate_left; clear_value x) | clear_value x) | (lift_lets -underBinder) | apply Keeps.ite | apply State.setPulse_keeps | apply State.addResidue_keeps

theorem State.accumulate_keeps {sel : Nat} {e : Int}  (hs : Keeps s0 s) : Keeps s0 (State.accumulate s sel e) := by
  unfold State.accumulate
  repeat' with_reducible first | assumption | apply State.setMtr_keeps

theorem State.accSigned_keeps {sel : Nat} {e : Int}  (hs : Keeps s0 s) : Keeps s0 (State.accSigned s sel e) := by
  unfold State.accSigned
  repeat' with_reducible first | assumption | apply Keeps.ite | apply State.accumulate_keeps

theorem State.feedPulses_keeps {lo hi ticks : Nat} {f : Nat → Int}  (hs : Keeps s0 s) : Keeps s0 (State.feedPulses s lo hi ticks f) := by
  unfold State.feedPulses
  repeat' with_reducible first | assumption | (intro x; clear_value x) | (lift_lets -underBinder) | apply Keeps.ite | refine Keeps.foldl (fun s x hc => ?_) ?_ | apply State.loadPulse_keeps

theorem State.sampleInput_keeps {y : Int} {stuck : Bool} {n : Nat}  (hs : Keeps s0 s) : Keeps s0 (State.sampleInput s y stuck n) := by
  unfold State.sampleInput
  repeat' with_reducible first | assumption | (intro x; first | (refine have hx : Keeps s0 x := ?_; ?_; unfold x; rotate_left; clear_value x) | clear_value x) | (lift_lets -underBinder) | apply Keeps.ite | apply State.setFlag_keeps | apply State.irq_keeps | apply State.errc_keeps | apply State.emit_keeps | apply State.setMtr_keeps

theorem State.meanAdd_keeps {key : Nat} {x : Rat}  (hs : Keeps s0 s) : Keeps s0 (State.meanAdd s key x) := by
  unfold State.meanAdd
  repeat' with_reducible first | assumption | apply State.setMtr_keeps

theorem State.sampleCircuit_keeps {y : List Int} {c : Nat}  (hs : Keeps s0 s) : Keeps s0 (State.sampleCircuit s y c) := by
  unfold State.sampleCircuit
  repeat' with_reducible first | assumption | (intro x; first | (refine have hx : Keeps s0 x := ?_; ?_; unfold x; rotate_left; clear_value x) | clear_value x) | (lift_lets -underBinder) | apply Keeps.ite | refine Keeps.foldl (fun s x hc => ?_) ?_ | apply State.setMtr_keeps | apply State.intFlag_keeps | apply State.accSigned_keeps | apply State.meanAdd_keeps

theorem execMtrSample_keeps {y : List Int} {stuck : BitVec 48}  (hs : Keeps s0 s) : KeepsO s0 (execMtrSample y stuck s) := by
  unfold execMtrSample
  repeat' with_reducible first | assumption | (intro x; first | (refine have hx : Keeps s0 x := ?_; ?_; unfold x; rotate_left; clear_value x) | clear_value x) | (lift_lets -underBinder) | apply KeepsO.next | apply KeepsO.ite | apply Keeps.ite | refine Keeps.foldl (fun s x hc => ?_) ?_ | apply State.setMtr_keeps | apply State.feedPulses_keeps | apply State.sampleInput_keeps | apply State.sampleCircuit_keeps

theorem State.thermalChan_keeps {t : Nat}  (hs : Keeps s0 s) : Keeps s0 (State.thermalChan s t) := by
  unfold State.thermalChan
  repeat' with_reducible first | assumption | (intro x; first | (refine have hx : Keeps s0 x := ?_; ?_; unfold x; rotate_left; clear_value x) | clear_value x) | (lift_lets -underBinder) | apply Keeps.ite | apply State.setFlag_keeps | apply State.irq_keeps | apply State.setMtr_keeps | apply State.intFlag_keeps | apply State.accSigned_keeps | apply State.meanAdd_keeps

theorem State.thermalOne_keeps {t : Nat}  (hs : Keeps s0 s) : Keeps s0 (State.thermalOne s t) := by
  unfold State.thermalOne
  repeat' with_reducible first | assumption | (intro x; first | (refine have hx : Keeps s0 x := ?_; ?_; unfold x; rotate_left; clear_value x) | clear_value x) | (lift_lets -underBinder) | apply Keeps.ite | apply State.irq_keeps | apply State.thermalChan_keeps

theorem State.ringPush_keeps   (hs : Keeps s0 s) : Keeps s0 (State.ringPush s) := by
  unfold State.ringPush
  repeat' with_reducible first | assumption | (intro x; first | (refine have hx : Keeps s0 x := ?_; ?_; unfold x; rotate_left; clear_value x) | (refine have hx : Keeps s0 x.2 := ?_; ?_; unfold x; rotate_left; clear_value x) | (refine have hx : ∀ s, Keeps s0 s → Keeps s0 (x s) := fun s h => ?_; ?_; unfold x; rotate_left; clear_value x) | (refine have hx : Keeps s0 x.1 := ?_; ?_; unfold x; rotate_left; clear_value x) | (have y : Tab Byte := x; clear y) | clear_value x) | (lift_lets -underBinder) | refine Keeps.foldl (fun s x hc => ?_) ?_ | apply State.setMtr_keeps

theorem execThermalTick_keeps   (hs : Keeps s0 s) : KeepsO s0 (execThermalTick s) := by
  unfold execThermalTick
  repeat' with_reducible first | assumption | (intro x; first | (refine have hx : Keeps s0 x := ?_; ?_; unfold x; rotate_left; clear_value x) | clear_value x) | (lift_lets -underBinder) | apply KeepsO.next | apply KeepsO.ite | apply Keeps.ite | refine Keeps.foldl (fun s x hc => ?_) ?_ | apply State.feedPulses_keeps | apply State.thermalOne_keeps | apply State.ringPush_keeps

theorem State.putMean_keeps {key : Nat} {v : Word} {q : Nat}  (hs : Keeps s0 s) : Keeps s0 (State.putMean s key v q) := by
  unfold State.putMean
  repeat' with_reducible first | assumption | apply State.setMtr_keeps

theorem execAvgPeriodEnd_keeps   (hs : Keeps s0 s) : KeepsO s0 (execAvgPeriodEnd s) := by
  unfold execAvgPeriodEnd
  repeat' with_reducible first | assumption | (intro x; first | (refine have hx : Keeps s0 x := ?_; ?_; unfold x; rotate_left; clear_value x) | clear_value x) | (lift_lets -underBinder) | apply KeepsO.next | apply KeepsO.ite | apply Keeps.ite | refine Keeps.foldl (fun s x hc => ?_) ?_ | apply State.setMtr_keeps | apply State.putMean_keeps

theorem State.latchChan_keeps {extra : Nat} {ch : Nat}  (hs : Keeps s0 s) : Keeps s0 (State.latchChan s extra ch) := by
  unfold State.latchChan
  repeat' with_reducible first | assumption | (intro x; first | (refine have hx : Keeps s0 x := ?_; ?_; unfold x; rotate_left; clear_value x) | clear_value x) | (lift_lets -underBinder) | apply Keeps.ite | apply State.setReg_keeps | apply State.setReg64_keeps

theorem State.publishInterval_keeps {no extra : Nat}  (hs : Keeps s0 s) : Keeps s0 (State.publishInterval s no extra) := by
  unfold State.publishInterval
  repeat' with_reducible first | assumption | (intro x; refine have hx : Keeps s0 x := ?_; ?_; unfold x; rotate_left; clear_value x) | (lift_lets -underBinder) | refine Keeps.foldl (fun s x hc => ?_) ?_ | apply State.setReg_keeps | apply State.irq_keeps | apply State.latchChan_keeps

theorem State.newInterval_keeps   (hs : Keeps s0 s) : Keeps s0 (State.newInterval s) := by
  unfold State.newInterval
  repeat' with_reducible first | assumption | apply State.setMtr_keeps

theorem State.markPartial_keeps   (hs : Keeps s0 s) : Keeps s0 (State.markPartial s) := by
  unfold State.markPartial
  repeat' with_reducible first | assumption | refine Keeps.foldl (fun s x hc => ?_) ?_ | apply State.intFlag_keeps

theorem execIntervalEnd_keeps   (hs : Keeps s0 s) : KeepsO s0 (execIntervalEnd s) := by
  unfold execIntervalEnd
  repeat' with_reducible first | assumption | (intro x; first | (refine have hx : Keeps s0 x := ?_; ?_; unfold x; rotate_left; clear_value x) | clear_value x) | (lift_lets -underBinder) | apply KeepsO.next | apply KeepsO.ite | apply Keeps.ite | apply State.publishInterval_keeps | apply State.newInterval_keeps | apply State.markPartial_keeps

theorem State.readTotalLo_keeps {sel : Nat}  (hs : Keeps s0 s) : Keeps s0 (State.readTotalLo s sel) := by
  unfold State.readTotalLo
  repeat' with_reducible first | assumption | apply State.answer_keeps | apply State.setMtr_keeps

theorem execTotalLoRead_keeps {who : Initiator} {sel : Fin 128}  (hs : Keeps s0 s) : KeepsO s0 (execTotalLoRead who sel s) := by
  unfold execTotalLoRead
  repeat' with_reducible first | assumption | apply KeepsO.next | apply KeepsO.ite | apply State.rgate_keeps | apply State.readTotalLo_keeps | (intro a b hc) | (intro a hc)

theorem State.dropBaseline_keeps {k : Nat}  (hs : Keeps s0 s) : Keeps s0 (State.dropBaseline s k) := by
  unfold State.dropBaseline
  repeat' with_reducible first | assumption | apply State.setMtr_keeps

theorem State.remoteReading_keeps {k n u pm r t : Nat}  (hs : Keeps s0 s) : Keeps s0 (State.remoteReading s k n u pm r t) := by
  unfold State.remoteReading
  repeat' with_reducible first | assumption | (intro x; first | (refine have hx : ∀ s a1 a2 a3, Keeps s0 s → Keeps s0 (x s a1 a2 a3) := fun s a1 a2 a3 hc => ?_; ?_; unfold x; rotate_left; clear_value x) | (refine have hx : Keeps s0 x := ?_; ?_; unfold x; rotate_left; clear_value x) | (refine have hx : ∀ s, Keeps s0 s → Keeps s0 (x s) := fun s h => ?_; ?_; unfold x; rotate_left; clear_value x) | clear_value x) | (lift_lets -underBinder) | apply Keeps.ite | apply State.setReg_keeps | apply State.irq_keeps | apply State.emit_keeps | apply State.setMtr_keeps | split | (intro a b hc) | (intro a hc) | apply_assumption

theorem State.pulseCut_keeps {o : Nat}  (hs : Keeps s0 s) : Keeps s0 (State.pulseCut s o) := by
  unfold State.pulseCut
  repeat' with_reducible first | assumption | (intro x; first | (refine have hx : Keeps s0 x := ?_; ?_; unfold x; rotate_left; clear_value x) | clear_value x) | (lift_lets -underBinder) | apply Keeps.ite | apply State.irq_keeps | apply State.emit_keeps | apply State.setPulse_keeps

theorem State.pulseInput_keeps {o : Nat}  (hs : Keeps s0 s) : Keeps s0 (State.pulseInput s o) := by
  unfold State.pulseInput
  repeat' with_reducible first | assumption | (intro x; clear_value x) | (lift_lets -underBinder) | apply Keeps.ite | apply State.setPulse_keeps | apply State.addResidue_keeps

theorem State.pulseStart_keeps {o : Nat}  (hs : Keeps s0 s) : Keeps s0 (State.pulseStart s o) := by
  unfold State.pulseStart
  repeat' with_reducible first | assumption | (intro x; clear_value x) | (lift_lets -underBinder) | apply Keeps.ite | apply State.incReg_keeps | apply State.setPulse_keeps

theorem execPulseTick_keeps   (hs : Keeps s0 s) : KeepsO s0 (execPulseTick s) := by
  unfold execPulseTick
  repeat' with_reducible first | assumption | apply KeepsO.next | apply KeepsO.ite | apply Keeps.ite | refine Keeps.foldl (fun s x hc => ?_) ?_ | apply State.pulseInput_keeps | apply State.pulseStart_keeps

theorem execPulseWidthEnd_keeps {o : Fin 16}  (hs : Keeps s0 s) : KeepsO s0 (execPulseWidthEnd o s) := by
  unfold execPulseWidthEnd
  repeat' with_reducible first | assumption | (intro x; clear_value x) | (lift_lets -underBinder) | apply KeepsO.next | apply KeepsO.ite | apply Keeps.ite | apply State.setPulse_keeps

theorem execResLoRead_keeps {who : Initiator} {o : Fin 16}  (hs : Keeps s0 s) : KeepsO s0 (execResLoRead who o s) := by
  unfold execResLoRead
  repeat' with_reducible first | assumption | (intro x; clear_value x) | (lift_lets -underBinder) | apply KeepsO.next | apply KeepsO.ite | apply State.answer_keeps | apply State.rgate_keeps | apply State.setPulse_keeps | (intro a b hc) | (intro a hc)

theorem State.pulseRate_keeps {o rate : Nat}  (hs : Keeps s0 s) : Keeps s0 (State.pulseRate s o rate) := by
  unfold State.pulseRate
  repeat' with_reducible first | assumption | apply State.setReg_keeps

theorem execGpioInChg_keeps {g : Fin 16} {level : Bool}  (hs : Keeps s0 s) : KeepsO s0 (execGpioInChg g level s) := by
  unfold execGpioInChg
  repeat' with_reducible first | assumption | (intro x; first | (refine have hx : Keeps s0 x := ?_; ?_; unfold x; rotate_left; clear_value x) | clear_value x) | (lift_lets -underBinder) | apply KeepsO.next | apply KeepsO.ite | apply Keeps.ite | apply State.incReg_keeps | apply State.setFlag_keeps | apply State.irq_keeps

theorem State.gpioOut_keeps {g : Nat} {level : Bool}  (hs : Keeps s0 s) : Keeps s0 (State.gpioOut s g level) := by
  unfold State.gpioOut
  repeat' with_reducible first | assumption | apply Keeps.ite | apply State.incReg_keeps | apply State.setFlag_keeps

theorem State.gpioStart_keeps   (hs : Keeps s0 s) : Keeps s0 (State.gpioStart s) := by
  unfold State.gpioStart
  repeat' with_reducible first | assumption | refine Keeps.foldl (fun s x hc => ?_) ?_ | apply State.setReg_keeps

theorem State.mtrFreeze_keeps   (hs : Keeps s0 s) : Keeps s0 (State.mtrFreeze s) := by
  unfold State.mtrFreeze
  repeat' with_reducible first | assumption | refine Keeps.foldl (fun s x hc => ?_) ?_ | apply State.pulseCut_keeps

theorem State.mtrRestore_keeps   (hs : Keeps s0 s) : Keeps s0 (State.mtrRestore s) := by
  unfold State.mtrRestore
  repeat' with_reducible first | assumption | (intro x; first | (refine have hx : Keeps s0 x := ?_; ?_; unfold x; rotate_left; clear_value x) | clear_value x) | (lift_lets -underBinder) | apply Keeps.ite | refine Keeps.foldl (fun s x hc => ?_) ?_ | apply State.setFlag_keeps | apply State.errc_keeps | apply State.emitSev_keeps | apply State.setPulse_keeps | apply State.setMtr_keeps | apply State.publishInterval_keeps | apply State.newInterval_keeps | apply State.markPartial_keeps | split

theorem State.mtrStart_keeps   (hs : Keeps s0 s) : Keeps s0 (State.mtrStart s) := by
  unfold State.mtrStart
  repeat' with_reducible first | assumption | (intro x; refine have hx : Keeps s0 x := ?_; ?_; unfold x; rotate_left; clear_value x) | (lift_lets -underBinder) | apply Keeps.ite | apply State.setReg_keeps | apply State.setMtr_keeps | apply State.markPartial_keeps | apply State.mtrRestore_keeps

theorem State.mtrStop_keeps   (hs : Keeps s0 s) : Keeps s0 (State.mtrStop s) := by
  unfold State.mtrStop
  repeat' with_reducible first | assumption | apply State.markPartial_keeps

theorem State.plsForce_keeps   (hs : Keeps s0 s) : Keeps s0 (State.plsForce s) := by
  unfold State.plsForce
  repeat' with_reducible first | assumption | refine Keeps.foldl (fun s x hc => ?_) ?_ | apply State.pulseCut_keeps

theorem State.mtrTake_keeps {ms : Nat} {tot res : Nat → Int} {base : Tab (Option (Nat × Nat))}  (hs : Keeps s0 s) : Keeps s0 (State.mtrTake s ms tot res base) := by
  unfold State.mtrTake
  repeat' with_reducible first | assumption | (intro x; first | (refine have hx : Keeps s0 x := ?_; ?_; unfold x; rotate_left; clear_value x) | clear_value x) | (lift_lets -underBinder) | refine Keeps.foldl (fun s x hc => ?_) ?_ | apply State.setFlag_keeps | apply State.emit_keeps | apply State.setPulse_keeps | apply State.setMtr_keeps | split

end Sys2Proof.Machine
end

