-- ==== Sys2Proof/Laws/KeepsCap.lean ====
section
/-! SUPPORT. `Keeps` for every operation and command of Machine/Cap.lean: the queue stays, free values are drawn once, tables stay
canonical. -/

namespace Sys2Proof.Machine
variable {s0 s : State}

theorem State.setCap_keeps {p : Nat} {x : CapCh} (h : Keeps s0 s) : Keeps s0 (s.setCap p x) :=
  Keeps.cap _ (Tab.wf_set _ _) h

theorem State.capAccept_keeps {n : Nat} {rising close : Bool}  (hs : Keeps s0 s) : Keeps s0 (State.capAccept s n rising close) := by
  unfold State.capAccept
  repeat' with_reducible first | assumption | (intro x; first | (refine have hx : Keeps s0 x := ?_; ?_; unfold x; rotate_left; clear_value x) | clear_value x) | (lift_lets -underBinder) | apply Keeps.ite | apply State.incReg_keeps | apply State.setFlag_keeps | apply State.irq_keeps | apply State.setCap_keeps

theorem execCapEdge_keeps {ch : Fin 25} {rising close : Bool}  (hs : Keeps s0 s) : KeepsO s0 (execCapEdge ch rising close s) := by
  unfold execCapEdge
  repeat' with_reducible first | assumption | apply KeepsO.next | apply KeepsO.ite | apply Keeps.ite | apply State.capAccept_keeps

theorem execCapTsNs_keeps {who : Initiator} {ch : Fin 25}  (hs : Keeps s0 s) : KeepsO s0 (execCapTsNs who ch s) := by
  unfold execCapTsNs
  repeat' with_reducible first | assumption | (intro x; clear_value x) | (lift_lets -underBinder) | apply KeepsO.next | apply KeepsO.ite | apply State.setRegs_keeps | apply State.answer_keeps | apply State.rgate_keeps | apply State.setCap_keeps | split | (intro a b hc) | (intro a hc)

theorem execCapTsSh_keeps {who : Initiator} {ch : Fin 25}  (hs : Keeps s0 s) : KeepsO s0 (execCapTsSh who ch s) := by
  unfold execCapTsSh
  repeat' with_reducible first | assumption | (intro x; clear_value x) | (lift_lets -underBinder) | apply KeepsO.next | apply KeepsO.ite | apply Keeps.ite | apply State.answer_keeps | apply State.rgate_keeps | apply State.setCap_keeps | (intro a b hc) | (intro a hc)

end Sys2Proof.Machine
end

