-- ==== Sys2Proof/Laws/KeepsEth.lean ====
section
/-! SUPPORT. `Keeps` for every operation and command of Machine/Eth.lean: the queue stays, free values are drawn once, tables stay
canonical. -/

namespace Sys2Proof.Machine
variable {s0 s : State}

theorem State.setPort_keeps {p : Nat} {x : EthPort} (h : Keeps s0 s) : Keeps s0 (s.setPort p x) :=
  Keeps.eth _ (Tab.wf_set _ _) h

theorem State.dropCtl_keeps {i : Nat} {wit : Bool}  (hs : Keeps s0 s) : Keeps s0 (State.dropCtl s i wit) := by
  unfold State.dropCtl
  repeat' with_reducible first | assumption | (intro x; clear_value x) | (lift_lets -underBinder) | apply Keeps.ite | apply State.setReg_keeps | apply State.irq_keeps

theorem State.ethSend_keeps {i : Nat} {q : EthQueue} {f : List Byte}  (hs : Keeps s0 s) : Keeps s0 (State.ethSend s i q f) := by
  unfold State.ethSend
  repeat' with_reducible first | assumption | (intro x; clear_value x) | (lift_lets -underBinder) | apply Keeps.ite | apply State.setPort_keeps | apply State.dropCtl_keeps | split

theorem State.ethTake_keeps {i : Nat} {q : EthQueue} {f : List Byte}  (hs : Keeps s0 s) : Keeps s0 (State.ethTake s i q f) := by
  unfold State.ethTake
  repeat' with_reducible first | assumption | (intro x; clear_value x) | (lift_lets -underBinder) | apply State.setPort_keeps | split

theorem State.hostRx_keeps {i : Nat} {f : List Byte} {ring : Ecc}  (hs : Keeps s0 s) : Keeps s0 (State.hostRx s i f ring) := by
  unfold State.hostRx
  repeat' with_reducible first | assumption | (intro x; first | (refine have hx : Keeps s0 x := ?_; ?_; unfold x; rotate_left; clear_value x) | (have y : Tab Byte := x; clear y) | clear_value x) | (lift_lets -underBinder) | apply Keeps.ite | apply State.setReg_keeps | apply State.incReg_keeps | apply State.irq_keeps | apply State.drmRead_keeps | apply wf_wrBytes | apply wf_wrN | (refine wf_foldl _ (fun m x w => ?_) _ ?_) | (refine Keeps.dram _ (fun w => ?_) ?_)

theorem State.learn_keeps {i : Nat} {ip : List Byte} {mac : BitVec 48}  (hs : Keeps s0 s) : Keeps s0 (State.learn s i ip mac) := by
  unfold State.learn
  repeat' with_reducible first | assumption | (intro x; clear_value x) | (lift_lets -underBinder) | apply Keeps.ite | refine Keeps.foldl (fun s x hc => ?_) ?_ | apply State.setPort_keeps | apply State.ethSend_keeps

theorem State.pausePort_keeps {i quanta : Nat}  (hs : Keeps s0 s) : Keeps s0 (State.pausePort s i quanta) := by
  unfold State.pausePort
  repeat' with_reducible first | assumption | (intro x; clear_value x) | (lift_lets -underBinder) | apply Keeps.ite | apply State.setPort_keeps

theorem State.classify_keeps {i : Nat} {f : EthFrame}  (hs : Keeps s0 s) : Keeps s0 (State.classify s i f) := by
  unfold State.classify
  repeat' with_reducible first | assumption | (intro x; first | (refine have hx : Keeps s0 x := ?_; ?_; unfold x; rotate_left; clear_value x) | clear_value x) | (lift_lets -underBinder) | apply Keeps.ite | apply State.incReg_keeps | apply State.setPort_keeps | apply State.dropCtl_keeps | apply State.hostRx_keeps | apply State.pausePort_keeps | split

theorem execEthRxFrame_keeps {i : Fin 6} {f : EthFrame}  (hs : Keeps s0 s) : KeepsO s0 (execEthRxFrame i f s) := by
  unfold execEthRxFrame
  repeat' with_reducible first | assumption | (intro x; first | (refine have hx : Keeps s0 x := ?_; ?_; unfold x; rotate_left; clear_value x) | clear_value x) | (lift_lets -underBinder) | apply KeepsO.next | apply KeepsO.ite | apply Keeps.ite | apply State.incReg_keeps | apply State.learn_keeps | apply State.classify_keeps

theorem execEthTxDone_keeps {i : Fin 6} {e : PortSent}  (hs : Keeps s0 s) : KeepsO s0 (execEthTxDone i e s) := by
  unfold execEthTxDone
  repeat' with_reducible first | assumption | (intro x; first | (refine have hx : Keeps s0 x := ?_; ?_; unfold x; rotate_left; clear_value x) | (refine have hx : ∀ s, Keeps s0 s → Keeps s0 (x s) := fun s h => ?_; ?_; unfold x; rotate_left; clear_value x) | clear_value x) | (lift_lets -underBinder) | apply KeepsO.next | apply KeepsO.ite | apply Keeps.ite | apply State.setReg_keeps | apply State.incReg_keeps | apply State.irq_keeps | apply State.drmRead_keeps | apply State.setPort_keeps | split | apply_assumption | apply wf_wrBytes | apply wf_wrN | (refine wf_foldl _ (fun m x w => ?_) _ ?_) | (refine Keeps.dram _ (fun w => ?_) ?_)

theorem execLinkChg_keeps {i : Fin 6} {up lock anDone remoteFault : Bool}  (hs : Keeps s0 s) : KeepsO s0 (execLinkChg i up lock anDone remoteFault s) := by
  unfold execLinkChg
  repeat' with_reducible first | assumption | (intro x; clear_value x) | (lift_lets -underBinder) | apply KeepsO.next | apply KeepsO.ite | apply Keeps.ite | apply State.setReg_keeps | apply State.irq_keeps

theorem execHqTxTail_keeps {who : Initiator} {i : Fin 6} {val : Word}  (hs : Keeps s0 s) : KeepsO s0 (execHqTxTail who i val s) := by
  unfold execHqTxTail
  repeat' with_reducible first | assumption | apply KeepsO.next | apply KeepsO.ite | apply State.setReg_keeps | apply State.gate_keeps | (intro a b hc) | (intro a hc)

theorem execHqRxTail_keeps {who : Initiator} {i : Fin 6} {val : Word}  (hs : Keeps s0 s) : KeepsO s0 (execHqRxTail who i val s) := by
  unfold execHqRxTail
  repeat' with_reducible first | assumption | apply KeepsO.next | apply KeepsO.ite | apply State.setReg_keeps | apply State.gate_keeps | (intro a b hc) | (intro a hc)

theorem execNbExpire_keeps {i : Fin 6} {ip : List Byte}  (hs : Keeps s0 s) : KeepsO s0 (execNbExpire i ip s) := by
  unfold execNbExpire
  repeat' with_reducible first | assumption | (intro x; clear_value x) | (lift_lets -underBinder) | apply KeepsO.next | apply KeepsO.ite | apply State.setPort_keeps

theorem execNbMiss_keeps {i : Fin 6} {ip : List Byte}  (hs : Keeps s0 s) : KeepsO s0 (execNbMiss i ip s) := by
  unfold execNbMiss
  repeat' with_reducible first | assumption | (intro x; clear_value x) | (lift_lets -underBinder) | apply KeepsO.next | apply KeepsO.ite | apply Keeps.ite | apply State.incReg_keeps | apply State.setPort_keeps

theorem State.ethSendTo_keeps {i : Nat} {q : EthQueue} {ip f : List Byte}  (hs : Keeps s0 s) : Keeps s0 (State.ethSendTo s i q ip f) := by
  unfold State.ethSendTo
  repeat' with_reducible first | assumption | (intro x; clear_value x) | (lift_lets -underBinder) | apply Keeps.ite | apply State.setPort_keeps | apply State.ethSend_keeps

theorem State.ethStop_keeps {i : Nat}  (hs : Keeps s0 s) : Keeps s0 (State.ethStop s i) := by
  unfold State.ethStop
  repeat' with_reducible first | assumption | (intro x; first | (refine have hx : Keeps s0 x := ?_; ?_; unfold x; rotate_left; clear_value x) | clear_value x) | (lift_lets -underBinder) | apply Keeps.ite | apply State.setReg_keeps | apply State.irq_keeps | apply State.setPort_keeps

end Sys2Proof.Machine
end

