-- ==== Sys2Proof/Laws/KeepsAxs.lean ====
section
/-! SUPPORT. `Keeps` for every operation and command of Machine/Axs.lean: the queue stays, free values are drawn once, tables stay
canonical. -/

namespace Sys2Proof.Machine
variable {s0 s : State}

theorem State.setAxis_keeps {p : Nat} {x : Axis} (h : Keeps s0 s) : Keeps s0 (s.setAxis p x) :=
  Keeps.axes _ (Tab.wf_set _ _) h

theorem State.assignP_keeps {a : Nat} {p : Int}  (hs : Keeps s0 s) : Keeps s0 (State.assignP s a p) := by
  unfold State.assignP
  repeat' with_reducible first | assumption | (intro x; clear_value x) | (lift_lets -underBinder) | apply State.setAxis_keeps

theorem State.axTick_keeps {a : Nat}  (hs : Keeps s0 s) : Keeps s0 (State.axTick s a) := by
  unfold State.axTick
  repeat' with_reducible first | assumption | (intro x; clear_value x) | (lift_lets -underBinder) | apply Keeps.ite | apply State.irq_keeps | apply State.emit_keeps | apply State.setAxis_keeps | split

theorem execDlkFrame_keeps {n : Fin 8}  (hs : Keeps s0 s) : KeepsO s0 (execDlkFrame n s) := by
  unfold execDlkFrame
  repeat' with_reducible first | assumption | (intro x; first | (refine have hx : Keeps s0 x := ?_; ?_; unfold x; rotate_left; clear_value x) | clear_value x) | (lift_lets -underBinder) | apply KeepsO.next | apply KeepsO.ite | apply Keeps.ite | refine Keeps.foldl (fun s x hc => ?_) ?_ | apply State.incReg_keeps | apply State.setAxis_keeps | apply State.axTick_keeps | (intro a b hc) | (intro a hc) | apply Tab.wf_set | apply wf_tabMap | (refine Keeps.dlk _ (fun w => ?_) ?_)

theorem State.reportFence_keeps   (hs : Keeps s0 s) : Keeps s0 (State.reportFence s) := by
  unfold State.reportFence
  repeat' with_reducible first | assumption | apply State.irq_keeps | apply Keeps.plk

theorem State.axStop_keeps {a : Nat} {st : AxState}  (hs : Keeps s0 s) : Keeps s0 (State.axStop s a st) := by
  unfold State.axStop
  repeat' with_reducible first | assumption | (intro x; clear_value x) | (lift_lets -underBinder) | apply State.setAxis_keeps

theorem State.judgeDev_keeps {a : Nat}  (hs : Keeps s0 s) : Keeps s0 (State.judgeDev s a) := by
  unfold State.judgeDev
  repeat' with_reducible first | assumption | (intro x; first | (refine have hx : Keeps s0 x := ?_; ?_; unfold x; rotate_left; clear_value x) | clear_value x) | (lift_lets -underBinder) | apply Keeps.ite | apply State.irq_keeps | apply State.emitSev_keeps | apply State.setAxis_keeps | apply State.assignP_keeps | apply State.axStop_keeps | split

theorem State.dlkReply_keeps {n : Fin 8} {d : Fin 16} {reply : List Byte}  (hs : Keeps s0 s) : Keeps s0 (State.dlkReply s n d reply) := by
  unfold State.dlkReply
  repeat' with_reducible first | assumption | (intro x; first | (refine have hx : Keeps s0 x := ?_; ?_; unfold x; rotate_left; clear_value x) | (refine have hx : ∀ s, Keeps s0 s → Keeps s0 (x s) := fun s h => ?_; ?_; unfold x; rotate_left; clear_value x) | clear_value x) | (lift_lets -underBinder) | apply Keeps.ite | apply State.setReg_keeps | apply State.incReg_keeps | apply State.irq_keeps | apply State.errc_keeps | apply State.emit_keeps | apply State.setAxis_keeps | apply State.reportFence_keeps | apply State.axStop_keeps | apply State.judgeDev_keeps | split | apply_assumption

theorem State.cmdDone_keeps {a res : Nat}  (hs : Keeps s0 s) : Keeps s0 (State.cmdDone s a res) := by
  unfold State.cmdDone
  repeat' with_reducible first | assumption | apply State.setReg_keeps | apply State.irq_keeps

theorem State.axCmd_keeps {who : Initiator} {a : Nat} {refuse : State → Option Nat} {k : State → State} (hk : ∀ s, Keeps s0 s → Keeps s0 (k s)) (hs : Keeps s0 s) : Keeps s0 (State.axCmd s who a refuse k) := by
  unfold State.axCmd
  repeat' with_reducible first | assumption | apply hk | apply Keeps.ite | apply State.gate_keeps | apply State.cmdDone_keeps | split | (intro a b hc) | (intro a hc)

theorem execReference_keeps {who : Initiator} {axis : Fin 128}  (hs : Keeps s0 s) : KeepsO s0 (execReference who axis s) := by
  unfold execReference
  repeat' with_reducible first | assumption | (intro x; clear_value x) | (lift_lets -underBinder) | apply KeepsO.next | apply KeepsO.ite | apply Keeps.ite | apply State.setAxis_keeps | apply State.axCmd_keeps | (intro a b hc) | (intro a hc)

theorem execSetPos_keeps {who : Initiator} {axis : Fin 128}  (hs : Keeps s0 s) : KeepsO s0 (execSetPos who axis s) := by
  unfold execSetPos
  repeat' with_reducible first | assumption | (intro x; first | (refine have hx : Keeps s0 x := ?_; ?_; unfold x; rotate_left; clear_value x) | clear_value x) | (lift_lets -underBinder) | apply KeepsO.next | apply KeepsO.ite | apply Keeps.ite | apply State.setAxis_keeps | apply State.assignP_keeps | apply State.axCmd_keeps | (intro a b hc) | (intro a hc)

theorem execClear_keeps {who : Initiator} {axis : Fin 128}  (hs : Keeps s0 s) : KeepsO s0 (execClear who axis s) := by
  unfold execClear
  repeat' with_reducible first | assumption | (intro x; first | (refine have hx : Keeps s0 x := ?_; ?_; unfold x; rotate_left; clear_value x) | clear_value x) | (lift_lets -underBinder) | apply KeepsO.next | apply KeepsO.ite | apply Keeps.ite | apply State.setAxis_keeps | apply State.assignP_keeps | apply State.axCmd_keeps | split | (intro a b hc) | (intro a hc)

theorem State.axHalt_keeps {a : Nat}  (hs : Keeps s0 s) : Keeps s0 (State.axHalt s a) := by
  unfold State.axHalt
  repeat' with_reducible first | assumption | (intro x; clear_value x) | (lift_lets -underBinder) | apply Keeps.ite | apply State.setAxis_keeps

theorem execHalt_keeps {who : Initiator} {axis : Fin 128}  (hs : Keeps s0 s) : KeepsO s0 (execHalt who axis s) := by
  unfold execHalt
  repeat' with_reducible first | assumption | apply KeepsO.next | apply KeepsO.ite | apply State.axCmd_keeps | apply State.axHalt_keeps | (intro a b hc) | (intro a hc)

theorem execTholdExpire_keeps {axis : Fin 128}  (hs : Keeps s0 s) : KeepsO s0 (execTholdExpire axis s) := by
  unfold execTholdExpire
  repeat' with_reducible first | assumption | (intro x; clear_value x) | (lift_lets -underBinder) | apply KeepsO.next | apply KeepsO.ite | apply Keeps.ite | apply State.setAxis_keeps

theorem execReplyLost_keeps {axis : Fin 128}  (hs : Keeps s0 s) : KeepsO s0 (execReplyLost axis s) := by
  unfold execReplyLost
  repeat' with_reducible first | assumption | apply KeepsO.next | apply KeepsO.ite | apply Keeps.ite | apply State.setAxis_keeps

theorem execLinkLoss_keeps {axis : Fin 128}  (hs : Keeps s0 s) : KeepsO s0 (execLinkLoss axis s) := by
  unfold execLinkLoss
  repeat' with_reducible first | assumption | apply KeepsO.next | apply KeepsO.ite | apply Keeps.ite | apply State.irq_keeps

theorem State.axTarget_keeps {a : Nat} {t : Int}  (hs : Keeps s0 s) : Keeps s0 (State.axTarget s a t) := by
  unfold State.axTarget
  repeat' with_reducible first | assumption | apply Keeps.ite | apply State.setAxis_keeps

theorem State.dlkDrain_keeps {n : Nat}  (hs : Keeps s0 s) : Keeps s0 (State.dlkDrain s n) := by
  unfold State.dlkDrain
  repeat' with_reducible first | assumption | refine Keeps.foldl (fun s x hc => ?_) ?_ | apply State.axHalt_keeps

theorem State.dlkForce_keeps {n : Nat}  (hs : Keeps s0 s) : Keeps s0 (State.dlkForce s n) := by
  unfold State.dlkForce
  repeat' with_reducible first | assumption | (intro x; first | (refine have hx : Keeps s0 x := ?_; ?_; unfold x; rotate_left; clear_value x) | clear_value x) | (lift_lets -underBinder) | apply Keeps.ite | refine Keeps.foldl (fun s x hc => ?_) ?_ | apply State.setAxis_keeps | (intro a b hc) | (intro a hc) | apply Tab.wf_set | apply wf_tabMap | (refine Keeps.dlk _ (fun w => ?_) ?_)

theorem State.dlkStart_keeps {n : Nat}  (hs : Keeps s0 s) : Keeps s0 (State.dlkStart s n) := by
  unfold State.dlkStart
  repeat' with_reducible first | assumption | (intro x; first | (refine have hx : Keeps s0 x := ?_; ?_; unfold x; rotate_left; clear_value x) | clear_value x) | (lift_lets -underBinder) | refine Keeps.foldl (fun s x hc => ?_) ?_ | apply State.setReg_keeps | apply State.setAxis_keeps | (intro a b hc) | (intro a hc) | apply Tab.wf_set | apply wf_tabMap | (refine Keeps.dlk _ (fun w => ?_) ?_)

theorem State.axRebase_keeps {a : Nat} {ps es : Int}  (hs : Keeps s0 s) : Keeps s0 (State.axRebase s a ps es) := by
  unfold State.axRebase
  repeat' with_reducible first | assumption | (intro x; clear_value x) | (lift_lets -underBinder) | apply Keeps.ite | apply State.setAxis_keeps

end Sys2Proof.Machine
end

