-- ==== Sys2Proof/Laws/KeepsStl.lean ====
section
/-! SUPPORT. `Keeps` for every operation and command of Machine/Stl.lean: the queue stays, free values are drawn once, tables stay
canonical. -/

namespace Sys2Proof.Machine
variable {s0 s : State}

theorem State.setStall_keeps {p : Nat} {x : Stall} (h : Keeps s0 s) : Keeps s0 (s.setStall p x) :=
  Keeps.stalls _ (Tab.wf_set _ _) h

theorem State.winPut_keeps {k o : Nat} {l : List Byte}  (hs : Keeps s0 s) : Keeps s0 (State.winPut s k o l) := by
  unfold State.winPut
  repeat' with_reducible first | assumption | apply wf_wrBytes | apply wf_wrN | (refine wf_foldl _ (fun m x w => ?_) _ ?_) | (refine Keeps.stallMem _ (fun w => ?_) ?_)

theorem State.stErr_keeps {k hi lo : Nat}  (hs : Keeps s0 s) : Keeps s0 (State.stErr s k hi lo) := by
  unfold State.stErr
  repeat' with_reducible first | assumption | apply State.setReg_keeps

theorem State.stTo_keeps {k st : Nat}  (hs : Keeps s0 s) : Keeps s0 (State.stTo s k st) := by
  unfold State.stTo
  repeat' with_reducible first | assumption | (intro x; first | (refine have hx : Keeps s0 x := ?_; ?_; unfold x; rotate_left; clear_value x) | clear_value x) | (lift_lets -underBinder) | apply Keeps.ite | apply State.irq_keeps | apply State.setStall_keeps

theorem State.stSend_keeps {k : Nat} {f : List Byte}  (hs : Keeps s0 s) : Keeps s0 (State.stSend s k f) := by
  unfold State.stSend
  repeat' with_reducible first | assumption | apply State.ethSendTo_keeps

theorem State.stFrame_keeps {k m ty flags : Nat} {payload : List Byte} {tagged : Bool}  (hs : Keeps s0 s) : Keeps s0 ((State.stFrame s k m ty flags payload tagged).2) := by
  unfold State.stFrame
  repeat' with_reducible first | assumption | (intro x; first | (refine have hx : Keeps s0 x := ?_; ?_; unfold x; rotate_left; clear_value x) | clear_value x) | (lift_lets -underBinder) | apply Keeps.ite | apply State.setReg64_keeps | apply State.setStall_keeps | apply State.stSend_keeps

theorem State.sendRead_keeps {k : Nat} {probe : Bool}  (hs : Keeps s0 s) : Keeps s0 (State.sendRead s k probe) := by
  unfold State.sendRead
  repeat' with_reducible first | assumption | (intro x; first | (refine have hx : Keeps s0 x.2 := ?_; ?_; unfold x; rotate_left; clear_value x) | clear_value x) | (lift_lets -underBinder) | apply Keeps.ite | apply State.setStall_keeps | apply State.stFrame_keeps

theorem State.sendWrite_keeps {k : Nat}  (hs : Keeps s0 s) : Keeps s0 (State.sendWrite s k) := by
  unfold State.sendWrite
  repeat' with_reducible first | assumption | (intro x; first | (refine have hx : Keeps s0 x := ?_; ?_; unfold x; rotate_left; clear_value x) | (refine have hx : Keeps s0 x.2 := ?_; ?_; unfold x; rotate_left; clear_value x) | clear_value x) | (lift_lets -underBinder) | apply Keeps.ite | apply State.setStall_keeps | apply State.winPut_keeps | apply State.stFrame_keeps

theorem State.sendRefresh_keeps {k : Nat}  (hs : Keeps s0 s) : Keeps s0 (State.sendRefresh s k) := by
  unfold State.sendRefresh
  repeat' with_reducible first | assumption | (intro x; first | (refine have hx : Keeps s0 x.2 := ?_; ?_; unfold x; rotate_left; clear_value x) | clear_value x) | (lift_lets -underBinder) | apply Keeps.ite | apply State.setStall_keeps | apply State.winPut_keeps | apply State.stFrame_keeps

theorem State.stallsOutput_keeps {anew : Bool}  (hs : Keeps s0 s) : Keeps s0 (State.stallsOutput s anew) := by
  unfold State.stallsOutput
  repeat' with_reducible first | assumption | (intro x; clear_value x) | (lift_lets -underBinder) | apply Keeps.ite | refine Keeps.foldl (fun s x hc => ?_) ?_ | apply State.setStall_keeps | apply State.sendWrite_keeps

theorem State.probeStalls_keeps   (hs : Keeps s0 s) : Keeps s0 (State.probeStalls s) := by
  unfold State.probeStalls
  repeat' with_reducible first | assumption | apply Keeps.ite | refine Keeps.foldl (fun s x hc => ?_) ?_ | apply State.sendRead_keeps

theorem State.fenceStalls_keeps   (hs : Keeps s0 s) : Keeps s0 (State.fenceStalls s) := by
  unfold State.fenceStalls
  repeat' with_reducible first | assumption | apply Keeps.ite | refine Keeps.foldl (fun s x hc => ?_) ?_ | apply State.sendRefresh_keeps

theorem State.clearReach_keeps (hs : Keeps s0 s) : Keeps s0 s.clearReach := by
  unfold State.clearReach
  exact Keeps.stalls _ (wf_tabMap _ _) (State.setReg_keeps hs)

theorem State.countReach_keeps {k epoch : Nat}  (hs : Keeps s0 s) : Keeps s0 (State.countReach s k epoch) := by
  unfold State.countReach
  repeat' with_reducible first | assumption | (intro x; clear_value x) | (lift_lets -underBinder) | apply Keeps.ite | apply State.incReg_keeps | apply State.setStall_keeps

theorem State.lsxDrop_keeps {src : NetAddr} {f : List Byte}  (hs : Keeps s0 s) : Keeps s0 (State.lsxDrop s src f) := by
  unfold State.lsxDrop
  repeat' with_reducible first | assumption | (intro x; clear_value x) | (lift_lets -underBinder) | apply Keeps.ite | apply State.incReg_keeps | apply State.stErr_keeps

theorem State.lsxFrom_keeps {src : NetAddr} {f : List Byte} {ty : Byte} {go : Nat → State → State} (hgo : ∀ x s, Keeps s0 s → Keeps s0 (go x s)) (hs : Keeps s0 s) : Keeps s0 (State.lsxFrom s src f ty go) := by
  unfold State.lsxFrom
  repeat' with_reducible first | assumption | apply hgo | (intro x; clear_value x) | (lift_lets -underBinder) | apply Keeps.ite | apply State.lsxDrop_keeps

theorem State.lsxTake_keeps {src : NetAddr} {f : List Byte}  (hs : Keeps s0 s) : Keeps s0 (State.lsxTake s src f) := by
  unfold State.lsxTake
  repeat' with_reducible first | assumption | (intro x; clear_value x) | (lift_lets -underBinder) | apply State.ethTake_keeps | split

theorem State.stRefuse_keeps {k : Nat}  (hs : Keeps s0 s) : Keeps s0 (State.stRefuse s k) := by
  unfold State.stRefuse
  repeat' with_reducible first | assumption | apply State.irq_keeps | apply State.emit_keeps | apply State.setStall_keeps | apply State.stTo_keeps

theorem State.negotiate_keeps {k : Nat} {h : Hello}  (hs : Keeps s0 s) : Keeps s0 (State.negotiate s k h) := by
  unfold State.negotiate
  repeat' with_reducible first | assumption | (intro x; first | (refine have hx : Keeps s0 x := ?_; ?_; unfold x; rotate_left; clear_value x) | clear_value x) | (lift_lets -underBinder) | apply Keeps.ite | refine Keeps.foldl (fun s x hc => ?_) ?_ | apply State.setReg_keeps | apply State.setReg64_keeps | apply State.irq_keeps | apply State.emit_keeps | apply State.dropBaseline_keeps | apply State.setStall_keeps | apply State.winPut_keeps | apply State.stTo_keeps | apply State.sendRead_keeps | apply State.sendWrite_keeps | apply State.stRefuse_keeps

theorem State.bind_keeps {k : Nat} {src : NetAddr} {h : Hello}  (hs : Keeps s0 s) : Keeps s0 (State.bind s k src h) := by
  unfold State.bind
  repeat' with_reducible first | assumption | (intro x; first | (refine have hx : Keeps s0 x := ?_; ?_; unfold x; rotate_left; clear_value x) | clear_value x) | (lift_lets -underBinder) | apply State.setStall_keeps | apply State.winPut_keeps

theorem State.helloAck_keeps {k : Nat} {f : List Byte}  (hs : Keeps s0 s) : Keeps s0 (State.helloAck s k f) := by
  unfold State.helloAck
  repeat' with_reducible first | assumption | apply State.stSend_keeps

theorem execHello_keeps {src : NetAddr} {frame : List Byte}  (hs : Keeps s0 s) : KeepsO s0 (execHello src frame s) := by
  unfold execHello
  repeat' with_reducible first | assumption | (intro x; first | (refine have hx : Keeps s0 x := ?_; ?_; unfold x; rotate_left; clear_value x) | clear_value x) | (lift_lets -underBinder) | apply KeepsO.next | apply KeepsO.ite | apply Keeps.ite | apply State.incReg_keeps | apply State.irq_keeps | apply State.emit_keeps | apply State.lsxDrop_keeps | apply State.lsxTake_keeps | apply State.negotiate_keeps | apply State.bind_keeps | apply State.helloAck_keeps | split

theorem execHelloAck_keeps {src : NetAddr} {frame : List Byte}  (hs : Keeps s0 s) : KeepsO s0 (execHelloAck src frame s) := by
  unfold execHelloAck
  repeat' with_reducible first | assumption | apply KeepsO.next | apply KeepsO.ite | apply Keeps.ite | apply State.lsxFrom_keeps | apply State.lsxTake_keeps | apply State.negotiate_keeps | (intro a b hc)

theorem execRead_keeps {k : Fin 1024}  (hs : Keeps s0 s) : KeepsO s0 (execRead k s) := by
  unfold execRead
  repeat' with_reducible first | assumption | (intro x; clear_value x) | (lift_lets -underBinder) | apply KeepsO.next | apply KeepsO.ite | apply Keeps.ite | apply State.stFrame_keeps | apply State.sendRead_keeps

theorem State.acceptReply_keeps {k : Nat} {f : List Byte} {rx : Nat}  (hs : Keeps s0 s) : Keeps s0 (State.acceptReply s k f rx) := by
  unfold State.acceptReply
  repeat' with_reducible first | assumption | (intro x; first | (refine have hx : Keeps s0 x := ?_; ?_; unfold x; rotate_left; clear_value x) | clear_value x) | (lift_lets -underBinder) | apply Keeps.ite | refine Keeps.foldl (fun s x hc => ?_) ?_ | apply State.incReg_keeps | apply State.remoteReading_keeps | apply State.setStall_keeps | apply State.winPut_keeps | apply State.stTo_keeps | apply State.sendWrite_keeps | apply State.countReach_keeps

theorem execReadRsp_keeps {src : NetAddr} {frame : List Byte}  (hs : Keeps s0 s) : KeepsO s0 (execReadRsp src frame s) := by
  unfold execReadRsp
  repeat' with_reducible first | assumption | (intro x; clear_value x) | (lift_lets -underBinder) | apply KeepsO.next | apply KeepsO.ite | apply Keeps.ite | apply State.setStall_keeps | apply State.stErr_keeps | apply State.lsxFrom_keeps | apply State.lsxTake_keeps | apply State.acceptReply_keeps | split | (intro a b hc)

theorem execReplyHoldWait_keeps {k : Fin 1024}  (hs : Keeps s0 s) : KeepsO s0 (execReplyHoldWait k s) := by
  unfold execReplyHoldWait
  repeat' with_reducible first | assumption | apply KeepsO.next | apply KeepsO.ite | apply State.winPut_keeps | apply State.acceptReply_keeps | split

theorem State.stMiss_keeps {k : Nat}  (hs : Keeps s0 s) : Keeps s0 (State.stMiss s k) := by
  unfold State.stMiss
  repeat' with_reducible first | assumption | (intro x; first | (refine have hx : Keeps s0 x := ?_; ?_; unfold x; rotate_left; clear_value x) | clear_value x) | (lift_lets -underBinder) | apply Keeps.ite | apply State.setStall_keeps | apply State.stTo_keeps

theorem execReadTimeout_keeps {k : Fin 1024}  (hs : Keeps s0 s) : KeepsO s0 (execReadTimeout k s) := by
  unfold execReadTimeout
  repeat' with_reducible first | assumption | (intro x; first | (refine have hx : Keeps s0 x := ?_; ?_; unfold x; rotate_left; clear_value x) | clear_value x) | (lift_lets -underBinder) | apply KeepsO.next | apply KeepsO.ite | apply Keeps.ite | apply State.setReg_keeps | apply State.setStall_keeps | apply State.stTo_keeps | apply State.stMiss_keeps

theorem State.tagCheck_keeps {k : Nat} {f : List Byte}  (hs : Keeps s0 s) : Keeps s0 ((State.tagCheck s k f).2) := by
  unfold State.tagCheck
  repeat' with_reducible first | assumption | (intro x; first | (refine have hx : Keeps s0 x := ?_; ?_; unfold x; rotate_left; clear_value x) | clear_value x) | (lift_lets -underBinder) | apply Keeps.ite | apply State.irq_keeps | apply State.emit_keeps | apply State.setStall_keeps | apply State.stErr_keeps | split

theorem execWriteAck_keeps {src : NetAddr} {frame : List Byte}  (hs : Keeps s0 s) : KeepsO s0 (execWriteAck src frame s) := by
  unfold execWriteAck
  repeat' with_reducible first | assumption | (intro x; first | (refine have hx : Keeps s0 x := ?_; ?_; unfold x; rotate_left; clear_value x) | (refine have hx : Keeps s0 x.2 := ?_; ?_; unfold x; rotate_left; clear_value x) | clear_value x) | (lift_lets -underBinder) | apply KeepsO.next | apply KeepsO.ite | apply Keeps.ite | apply State.setReg64_keeps | apply State.setStall_keeps | apply State.winPut_keeps | apply State.stErr_keeps | apply State.sendWrite_keeps | apply State.countReach_keeps | apply State.lsxFrom_keeps | apply State.lsxTake_keeps | apply State.tagCheck_keeps | split | (intro a b hc)

theorem State.nakCore_keeps {src : NetAddr} {frame : List Byte}  (hs : Keeps s0 s) : Keeps s0 (State.nakCore s src frame) := by
  unfold State.nakCore
  repeat' with_reducible first | assumption | (intro x; first | (refine have hx : Keeps s0 x := ?_; ?_; unfold x; rotate_left; clear_value x) | (refine have hx : Keeps s0 x.2 := ?_; ?_; unfold x; rotate_left; clear_value x) | clear_value x) | (lift_lets -underBinder) | apply Keeps.ite | apply State.setReg_keeps | apply State.setReg64_keeps | apply State.irq_keeps | apply State.errc_keeps | apply State.emit_keeps | apply State.setStall_keeps | apply State.stErr_keeps | apply State.stTo_keeps | apply State.sendWrite_keeps | apply State.lsxFrom_keeps | apply State.lsxTake_keeps | apply State.tagCheck_keeps | split | (intro a b hc) | (intro a hc) | dsimp only | apply Keeps.plk

theorem execWriteTimeout_keeps {k : Fin 1024}  (hs : Keeps s0 s) : KeepsO s0 (execWriteTimeout k s) := by
  unfold execWriteTimeout
  repeat' with_reducible first | assumption | (intro x; first | (refine have hx : Keeps s0 x := ?_; ?_; unfold x; rotate_left; clear_value x) | clear_value x) | (lift_lets -underBinder) | apply KeepsO.next | apply KeepsO.ite | apply Keeps.ite | apply State.setReg_keeps | apply State.setStall_keeps | apply State.stTo_keeps | apply State.sendWrite_keeps | apply State.stMiss_keeps

theorem execRefresh_keeps {k : Fin 1024}  (hs : Keeps s0 s) : KeepsO s0 (execRefresh k s) := by
  unfold execRefresh
  repeat' with_reducible first | assumption | apply KeepsO.next | apply KeepsO.ite | apply Keeps.ite | apply State.sendRefresh_keeps

theorem State.stallOut_keeps {k o : Nat} {l : List Byte}  (hs : Keeps s0 s) : Keeps s0 (State.stallOut s k o l) := by
  unfold State.stallOut
  repeat' with_reducible first | assumption | apply Keeps.ite | apply State.incReg_keeps | apply State.setStall_keeps | apply State.winPut_keeps

theorem State.stbStart_keeps {n : Nat}  (hs : Keeps s0 s) : Keeps s0 (State.stbStart s n) := by
  unfold State.stbStart
  repeat' with_reducible first | assumption | (intro x; clear_value x) | (lift_lets -underBinder) | refine Keeps.foldl (fun s x hc => ?_) ?_ | apply State.setReg_keeps | apply State.setStall_keeps

theorem State.stbForce_keeps {n : Nat}  (hs : Keeps s0 s) : Keeps s0 (State.stbForce s n) := by
  unfold State.stbForce
  repeat' with_reducible first | assumption | (intro x; clear_value x) | (lift_lets -underBinder) | apply Keeps.ite | refine Keeps.foldl (fun s x hc => ?_) ?_ | apply State.setStall_keeps | apply State.stTo_keeps

theorem State.stallRestore_keeps   (hs : Keeps s0 s) : Keeps s0 (State.stallRestore s) := by
  unfold State.stallRestore
  repeat' with_reducible first | assumption | apply Keeps.ite | refine Keeps.foldl (fun s x hc => ?_) ?_ | apply State.setReg64_keeps | split

end Sys2Proof.Machine
end

