-- ==== Sys2Proof/Laws/KeepsHalt.lean ====
section
/-! SUPPORT. `Keeps` for every operation and command of Machine/Halt.lean: the queue stays, free values are drawn once, tables stay
canonical. -/

namespace Sys2Proof.Machine
variable {s0 s : State}

theorem State.safeUpdate_keeps   (hs : Keeps s0 s) : Keeps s0 (State.safeUpdate s) := by
  unfold State.safeUpdate
  repeat' with_reducible first | assumption | (intro x; refine have hx : Keeps s0 x := ?_; ?_; unfold x; rotate_left; clear_value x) | (lift_lets -underBinder) | apply Keeps.ite | refine Keeps.foldl (fun s x hc => ?_) ?_ | apply State.setFld_keeps | apply State.setFlag_keeps

theorem State.drive_keeps {e : MapEnt} {l : List Byte}  (hs : Keeps s0 s) : Keeps s0 (State.drive s e l) := by
  unfold State.drive
  repeat' with_reducible first | assumption | apply Keeps.ite | apply State.canWrite_keeps | apply State.pulseRate_keeps | apply State.gpioOut_keeps | apply State.setAxis_keeps | apply State.axTarget_keeps | apply State.stallOut_keeps | split

theorem State.driveOff_keeps {e : MapEnt}  (hs : Keeps s0 s) : Keeps s0 (State.driveOff s e) := by
  unfold State.driveOff
  repeat' with_reducible first | assumption | apply State.setFlag_keeps | apply State.pulseCut_keeps | apply State.pulseRate_keeps | apply State.axHalt_keeps | split

theorem State.outputEnd_keeps {anew : Bool}  (hs : Keeps s0 s) : Keeps s0 (State.outputEnd s anew) := by
  unfold State.outputEnd
  repeat' with_reducible first | assumption | (intro x; first | (refine have hx : Keeps s0 x := ?_; ?_; unfold x; rotate_left; clear_value x) | clear_value x) | (lift_lets -underBinder) | refine Keeps.foldl (fun s x hc => ?_) ?_ | apply State.canQueue_keeps | apply State.stallsOutput_keeps | (intro a b hc) | (intro a hc) | apply Keeps.plk

theorem State.driveSafe_keeps   (hs : Keeps s0 s) : Keeps s0 (State.driveSafe s) := by
  unfold State.driveSafe
  repeat' with_reducible first | assumption | (intro x; first | (refine have hx : Keeps s0 x := ?_; ?_; unfold x; rotate_left; clear_value x) | clear_value x) | (lift_lets -underBinder) | apply Keeps.ite | refine Keeps.foldl (fun s x hc => ?_) ?_ | apply State.pulseCut_keeps | apply State.drive_keeps | apply State.driveOff_keeps | apply State.outputEnd_keeps | (intro a b hc) | (intro a hc) | split | dsimp only | apply Keeps.lge | apply wf_wrBytes | apply wf_wrN | (refine wf_foldl _ (fun m x w => ?_) _ ?_) | (refine Keeps.img _ (fun w => ?_) ?_)

theorem State.setSaves_keeps {f : Saves → Saves}  (hs : Keeps s0 s) : Keeps s0 (State.setSaves s f) := by
  unfold State.setSaves
  repeat' with_reducible first | assumption | apply Keeps.pwr

theorem State.captureItem_keeps {seq : Nat}  (hs : Keeps s0 s) : Keeps s0 (State.captureItem s seq) := by
  unfold State.captureItem
  repeat' with_reducible first | assumption | apply State.setSaves_keeps | split

theorem State.captureSave_keeps   (hs : Keeps s0 s) : Keeps s0 (State.captureSave s) := by
  unfold State.captureSave
  repeat' with_reducible first | assumption | (intro x; clear_value x) | (lift_lets -underBinder) | apply State.setSaves_keeps | apply State.captureItem_keeps

theorem State.coresStop_keeps   (hs : Keeps s0 s) : Keeps s0 (State.coresStop s) := by
  unfold State.coresStop
  repeat' with_reducible first | assumption | (intro x; first | (refine have hx : Keeps s0 x := ?_; ?_; unfold x; rotate_left; clear_value x) | clear_value x) | (lift_lets -underBinder) | refine Keeps.foldl (fun s x hc => ?_) ?_ | apply State.setReg_keeps | apply State.setFlag_keeps | (intro a b hc) | (intro a hc) | apply Keeps.lge

theorem State.haltOrder_keeps {code detail : Nat}  (hs : Keeps s0 s) : Keeps s0 (State.haltOrder s code detail) := by
  unfold State.haltOrder
  repeat' with_reducible first | assumption | (intro x; first | (refine have hx : Keeps s0 x := ?_; ?_; unfold x; rotate_left; clear_value x) | clear_value x) | (lift_lets -underBinder) | apply Keeps.ite | apply State.irq_keeps | apply State.fail_keeps | apply State.driveSafe_keeps | apply State.captureSave_keeps | apply State.coresStop_keeps | apply Keeps.lge

theorem State.trip_keeps {cause code detail : Nat}  (hs : Keeps s0 s) : Keeps s0 (State.trip s cause code detail) := by
  unfold State.trip
  repeat' with_reducible first | assumption | (intro x; first | (refine have hx : Keeps s0 x := ?_; ?_; unfold x; rotate_left; clear_value x) | clear_value x) | (lift_lets -underBinder) | apply State.setReg_keeps | apply State.irq_keeps | apply State.slog_keeps | apply State.safeUpdate_keeps | apply State.haltOrder_keeps | (intro a b hc) | (intro a hc) | apply Keeps.kpr

theorem State.haltMark_keeps {code detail : Nat}  (hs : Keeps s0 s) : Keeps s0 (State.haltMark s code detail) := by
  unfold State.haltMark
  repeat' with_reducible first | assumption | apply Keeps.ite | apply State.slog_keeps | apply State.haltOrder_keeps | apply State.trip_keeps

theorem State.stopMark_keeps   (hs : Keeps s0 s) : Keeps s0 (State.stopMark s) := by
  unfold State.stopMark
  repeat' with_reducible first | assumption | (intro a b hc) | (intro a hc) | apply Keeps.kpr

theorem State.keeperFault_keeps {cause : Nat} (hs : Keeps s0 s) : Keeps s0 (State.keeperFault s cause) :=
  State.haltOrder_keeps (State.slog_keeps (State.errc_keeps (State.safeUpdate_keeps (State.setFld_keeps (Keeps.kpr _ hs)))))

end Sys2Proof.Machine
end

