-- ==== Sys2Proof/Laws/KeepsLge.lean ====
section
/-! SUPPORT. `Keeps` for every operation and command of Machine/Lge.lean: the queue stays, free values are drawn once, tables stay
canonical. -/

namespace Sys2Proof.Machine
variable {s0 s : State}

theorem State.setLge_keeps {f : LgeSt → LgeSt}  (hs : Keeps s0 s) : Keeps s0 (State.setLge s f) := by
  unfold State.setLge
  repeat' with_reducible first | assumption | apply Keeps.lge

theorem State.imgPut_keeps {a : Nat} {l : List Byte}  (hs : Keeps s0 s) : Keeps s0 (State.imgPut s a l) := by
  unfold State.imgPut
  repeat' with_reducible first | assumption | apply wf_wrBytes | apply wf_wrN | (refine wf_foldl _ (fun m x w => ?_) _ ?_) | (refine Keeps.img _ (fun w => ?_) ?_)

/-- The TCMs of an image are canonical. -/
theorem wf_limgOf (b : List Byte) : Tab.wf byte0 (limgOf b).tcm = true := by
  unfold limgOf
  exact wf_foldl _ (fun _ _ w => wf_wrBytes _ _ w) _ rfl

/-- A forced byte keeps the canonical form. -/
theorem wf_applyForce (m : Tab Byte) (f : ForceEnt) (h : Tab.wf byte0 m = true) : Tab.wf byte0 (applyForce m f) = true := by
  unfold applyForce
  exact wf_ite (Tab.wf_set _ _ h) (wf_wrN _ _ _ h)

theorem State.lgeClear_keeps (hs : Keeps s0 s) : Keeps s0 s.lgeClear := by
  unfold State.lgeClear
  exact State.setRegs_keeps (Keeps.lgeMem _ _ _ rfl (fun _ => rfl) hs)

theorem execLdBegin_keeps {who : Initiator}  (hs : Keeps s0 s) : KeepsO s0 (execLdBegin who s) := by
  unfold execLdBegin
  repeat' with_reducible first | assumption | apply KeepsO.next | apply KeepsO.ite | apply Keeps.ite | apply State.setReg_keeps | apply State.setRegs_keeps | apply State.gate_keeps | apply State.lgeClear_keeps | (intro a b hc) | (intro a hc)

theorem execLdData_keeps {who : Initiator} {val : Word}  (hs : Keeps s0 s) : KeepsO s0 (execLdData who val s) := by
  unfold execLdData
  repeat' with_reducible first | assumption | apply KeepsO.next | apply KeepsO.ite | apply Keeps.ite | apply State.setReg_keeps | apply State.gate_keeps | apply State.setLge_keeps | (intro a b hc) | (intro a hc)

theorem State.measExtend_keeps {m : Nat} {d : List Byte}  (hs : Keeps s0 s) : Keeps s0 (State.measExtend s m d) := by
  unfold State.measExtend
  repeat' with_reducible first | assumption | (intro x; first | (refine have hx : Keeps s0 x := ?_; ?_; unfold x; rotate_left; clear_value x) | clear_value x) | (lift_lets -underBinder) | refine Keeps.foldl (fun s x hc => ?_) ?_ | apply State.setReg_keeps | apply State.incReg_keeps | apply State.emit_keeps

theorem State.ldRefuse_keeps {check : Nat}  (hs : Keeps s0 s) : Keeps s0 (State.ldRefuse s check) := by
  unfold State.ldRefuse
  repeat' with_reducible first | assumption | apply State.setReg_keeps | apply State.irq_keeps | apply State.emit_keeps | apply State.lgeClear_keeps

theorem execLdEnd_keeps {who : Initiator} (hs : Keeps s0 s) : KeepsO s0 (execLdEnd who s) := by
  unfold execLdEnd
  refine KeepsO.next (State.gate_keeps (fun s hs => Keeps.ite (State.emit_keeps (State.irq_keeps (State.setReg_keeps hs))) (Keeps.ite (State.ldRefuse_keeps hs) ?_)) hs)
  dsimp only
  split
  · exact State.ldRefuse_keeps hs
  · exact Keeps.ite (State.ldRefuse_keeps hs) (State.measExtend_keeps (State.irq_keeps (State.setRegs_keeps
      (Keeps.lgeMem _ _ _ (wf_limgOf _) (fun w => w) hs))))

theorem execLdAbort_keeps {who : Initiator}  (hs : Keeps s0 s) : KeepsO s0 (execLdAbort who s) := by
  unfold execLdAbort
  repeat' with_reducible first | assumption | apply KeepsO.next | apply KeepsO.ite | apply Keeps.ite | apply State.setReg_keeps | apply State.setRegs_keeps | apply State.irq_keeps | apply State.gate_keeps | apply State.lgeClear_keeps | (intro a b hc) | (intro a hc)

theorem State.takeCapture_keeps   (hs : Keeps s0 s) : Keeps s0 (State.takeCapture s) := by
  unfold State.takeCapture
  repeat' with_reducible first | assumption | (intro x; have y : Tab Byte := x; clear y) | (lift_lets -underBinder) | refine Keeps.foldl (fun s x hc => ?_) ?_ | apply State.setLge_keeps | split

theorem State.retainFill_keeps {cold : Bool}  (hs : Keeps s0 s) : Keeps s0 (State.retainFill s cold) := by
  unfold State.retainFill
  repeat' with_reducible first | assumption | (intro x; first | (refine have hx : Keeps s0 x := ?_; ?_; unfold x; rotate_left; clear_value x) | clear_value x) | (lift_lets -underBinder) | apply Keeps.ite | refine Keeps.foldl (fun s x hc => ?_) ?_ | apply State.setFlag_keeps | split | (intro a b hc) | (intro a hc) | dsimp only | apply wf_wrBytes | apply wf_wrN | (refine wf_foldl _ (fun m x w => ?_) _ ?_) | (refine Keeps.tcm _ (fun w => ?_) ?_)

theorem State.lgeStart_keeps   (hs : Keeps s0 s) : Keeps s0 (State.lgeStart s) := by
  unfold State.lgeStart
  repeat' with_reducible first | assumption | (intro x; refine have hx : Keeps s0 x := ?_; ?_; unfold x; rotate_left; clear_value x) | (lift_lets -underBinder) | refine Keeps.foldl (fun s x hc => ?_) ?_ | apply State.setReg_keeps | apply State.setRegs_keeps | apply State.setLge_keeps | apply State.retainFill_keeps

theorem State.applyForces_keeps {items : List ForceItem}  (hs : Keeps s0 s) : Keeps s0 (State.applyForces s items) := by
  unfold State.applyForces
  repeat' with_reducible first | assumption | (intro x; refine have hx : Keeps s0 x := ?_; ?_; unfold x; rotate_left; clear_value x) | (lift_lets -underBinder) | apply Keeps.ite | refine Keeps.foldl (fun s x hc => ?_) ?_ | apply State.setReg_keeps | apply State.irq_keeps | apply State.emit_keeps | apply State.setLge_keeps | split

theorem State.changeOne_keeps {g : Limg} {i : OcItem}  (hs : Keeps s0 s) : Keeps s0 (State.changeOne s g i) := by
  unfold State.changeOne
  repeat' with_reducible first | assumption | (intro x; first | (refine have hx : Keeps s0 x := ?_; ?_; unfold x; rotate_left; clear_value x) | clear_value x) | (lift_lets -underBinder) | apply State.emit_keeps | apply State.setLge_keeps | apply State.imgPut_keeps | split | (intro a b hc) | (intro a hc) | dsimp only | apply wf_wrBytes | apply wf_wrN | (refine wf_foldl _ (fun m x w => ?_) _ ?_) | (refine Keeps.tcm _ (fun w => ?_) ?_)

theorem State.applyChange_keeps {items : List OcItem}  (hs : Keeps s0 s) : Keeps s0 (State.applyChange s items) := by
  unfold State.applyChange
  repeat' with_reducible first | assumption | (intro x; refine have hx : Keeps s0 x := ?_; ?_; unfold x; rotate_left; clear_value x) | (lift_lets -underBinder) | refine Keeps.foldl (fun s x hc => ?_) ?_ | apply State.setReg_keeps | apply State.setRegs_keeps | apply State.setReg64_keeps | apply State.irq_keeps | apply State.emit_keeps | apply State.changeOne_keeps | split

theorem State.putInput_keeps {e : MapEnt}  (hs : Keeps s0 s) : Keeps s0 (State.putInput s e) := by
  unfold State.putInput
  repeat' with_reducible first | assumption | (intro x; clear_value x) | (lift_lets -underBinder) | apply Keeps.ite | apply State.imgPut_keeps

theorem State.forceInputs_keeps {g : Limg}  (hs : Keeps s0 s) : Keeps s0 (State.forceInputs s g) := by
  unfold State.forceInputs
  repeat' with_reducible first | apply wf_applyForce | assumption | (intro x; refine have hx : Keeps s0 x := ?_; ?_; unfold x; rotate_left; clear_value x) | (lift_lets -underBinder) | apply Keeps.ite | refine Keeps.foldl (fun s x hc => ?_) ?_ | apply State.imgPut_keeps | (intro a b hc) | (intro a hc) | apply wf_wrBytes | apply wf_wrN | (refine wf_foldl _ (fun m x w => ?_) _ ?_) | (refine Keeps.img _ (fun w => ?_) ?_)

theorem State.snapSetpoints_keeps {g : Limg}  (hs : Keeps s0 s) : Keeps s0 (State.snapSetpoints s g) := by
  unfold State.snapSetpoints
  repeat' with_reducible first | assumption | (intro x; first | (refine have hx : Keeps s0 x := ?_; ?_; unfold x; rotate_left; clear_value x) | (have y : Tab Byte := x; clear y) | clear_value x) | (lift_lets -underBinder) | apply Keeps.ite | refine Keeps.foldl (fun s x hc => ?_) ?_ | apply State.setFlag_keeps | apply State.irq_keeps | apply State.emit_keeps | apply State.imgPut_keeps

theorem State.systemBlock_keeps {g : Limg}  (hs : Keeps s0 s) : Keeps s0 (State.systemBlock s g) := by
  unfold State.systemBlock
  repeat' with_reducible first | assumption | (intro x; clear_value x) | (lift_lets -underBinder) | apply State.imgPut_keeps

theorem State.runMark_keeps   (hs : Keeps s0 s) : Keeps s0 (State.runMark s) := by
  unfold State.runMark
  repeat' with_reducible first | assumption | apply Keeps.ite | apply State.slog_keeps | apply State.haltOrder_keeps | apply State.trip_keeps | (intro a b hc) | (intro a hc) | apply Keeps.kpr

theorem State.cycleTimes_keeps   (hs : Keeps s0 s) : Keeps s0 (State.cycleTimes s) := by
  unfold State.cycleTimes
  repeat' with_reducible first | assumption | (intro x; first | (refine have hx : Keeps s0 x := ?_; ?_; unfold x; rotate_left; clear_value x) | clear_value x) | (lift_lets -underBinder) | apply Keeps.ite | apply State.setReg_keeps

theorem execCycleSnapshot_keeps   (hs : Keeps s0 s) : KeepsO s0 (execCycleSnapshot s) := by
  unfold execCycleSnapshot
  repeat' with_reducible first | assumption | (intro x; refine have hx : Keeps s0 x := ?_; ?_; unfold x; rotate_left; clear_value x) | (lift_lets -underBinder) | apply KeepsO.next | apply KeepsO.ite | apply Keeps.ite | refine Keeps.foldl (fun s x hc => ?_) ?_ | apply State.setReg_keeps | apply State.setReg64_keeps | apply State.stopMark_keeps | apply State.setLge_keeps | apply State.putInput_keeps | apply State.forceInputs_keeps | apply State.snapSetpoints_keeps | apply State.systemBlock_keeps | apply State.runMark_keeps | apply State.cycleTimes_keeps | split | (intro a b hc) | (intro a hc) | apply wf_wrBytes | apply wf_wrN | (refine wf_foldl _ (fun m x w => ?_) _ ?_) | (refine Keeps.tcm _ (fun w => ?_) ?_)

theorem State.gatherOutput_keeps {g : Limg}  (hs : Keeps s0 s) : Keeps s0 (State.gatherOutput s g) := by
  unfold State.gatherOutput
  repeat' with_reducible first | apply wf_applyForce | assumption | (intro x; refine have hx : Keeps s0 x := ?_; ?_; unfold x; rotate_left; clear_value x) | (lift_lets -underBinder) | refine Keeps.foldl (fun s x hc => ?_) ?_ | apply State.imgPut_keeps | (intro a b hc) | (intro a hc) | apply wf_wrBytes | apply wf_wrN | (refine wf_foldl _ (fun m x w => ?_) _ ?_) | (refine Keeps.img _ (fun w => ?_) ?_)

theorem State.driveAll_keeps {g : Limg}  (hs : Keeps s0 s) : Keeps s0 (State.driveAll s g) := by
  unfold State.driveAll
  repeat' with_reducible first | assumption | refine Keeps.foldl (fun s x hc => ?_) ?_ | apply State.drive_keeps

theorem State.execTimes_keeps {us : List Word}  (hs : Keeps s0 s) : Keeps s0 (State.execTimes s us) := by
  unfold State.execTimes
  repeat' with_reducible first | assumption | (intro x; first | (refine have hx : Keeps s0 x := ?_; ?_; unfold x; rotate_left; clear_value x) | clear_value x) | (lift_lets -underBinder) | apply Keeps.ite | refine Keeps.foldl (fun s x hc => ?_) ?_ | apply State.setReg_keeps

theorem State.publish_keeps   (hs : Keeps s0 s) : Keeps s0 (State.publish s) := by
  unfold State.publish
  repeat' with_reducible first | assumption | (intro x; first | (refine have hx : Keeps s0 x := ?_; ?_; unfold x; rotate_left; clear_value x) | (have y : Tab Byte := x; clear y) | clear_value x) | (lift_lets -underBinder) | apply Keeps.ite | refine Keeps.foldl (fun s x hc => ?_) ?_ | apply State.incReg_keeps | apply State.irq_keeps | apply State.emit_keeps | apply State.setLge_keeps | split | (intro a b hc) | (intro a hc) | apply wf_wrBytes | apply wf_wrN | (refine wf_foldl _ (fun m x w => ?_) _ ?_) | (refine Keeps.yard _ (fun w => ?_) ?_)

theorem State.ecallRet_keeps {c : Nat} {l : List Word}  (hs : Keeps s0 s) : Keeps s0 (State.ecallRet s c l) := by
  unfold State.ecallRet
  repeat' with_reducible first | assumption | apply State.setLge_keeps

theorem execTime_keeps {c : Fin 4}  (hs : Keeps s0 s) : KeepsO s0 (execTime c s) := by
  unfold execTime
  repeat' with_reducible first | assumption | apply KeepsO.next | apply KeepsO.ite | apply Keeps.ite | apply State.ecallRet_keeps

theorem execCycle_keeps {c : Fin 4}  (hs : Keeps s0 s) : KeepsO s0 (execCycle c s) := by
  unfold execCycle
  repeat' with_reducible first | assumption | apply KeepsO.next | apply KeepsO.ite | apply Keeps.ite | apply State.ecallRet_keeps

theorem execRegWrite_keeps {c : Fin 4} {addr val : Word}  (hs : Keeps s0 s) : KeepsO s0 (execRegWrite c addr val s) := by
  unfold execRegWrite
  repeat' with_reducible first | assumption | (intro x; clear_value x) | (lift_lets -underBinder) | apply KeepsO.next | apply KeepsO.ite | apply Keeps.ite | apply State.setLge_keeps | apply State.ecallRet_keeps

theorem execStallRead_keeps {c : Fin 4} {stall ofs len tcmOfs : Word}  (hs : Keeps s0 s) : KeepsO s0 (execStallRead c stall ofs len tcmOfs s) := by
  unfold execStallRead
  repeat' with_reducible first | assumption | apply KeepsO.next | apply KeepsO.ite | apply Keeps.ite | apply State.ecallRet_keeps | apply wf_wrBytes | apply wf_wrN | (refine wf_foldl _ (fun m x w => ?_) _ ?_) | (refine Keeps.tcm _ (fun w => ?_) ?_)

theorem execEvent_keeps {c : Fin 4} {code d1 d2 : Word}  (hs : Keeps s0 s) : KeepsO s0 (execEvent c code d1 d2 s) := by
  unfold execEvent
  repeat' with_reducible first | assumption | apply KeepsO.next | apply KeepsO.ite | apply Keeps.ite | apply State.submit_keeps | apply State.ecallRet_keeps

theorem execCoreException_keeps {c : Fin 4} {mcause : Byte} {pc : Word}  (hs : Keeps s0 s) : KeepsO s0 (execCoreException c mcause pc s) := by
  unfold execCoreException
  repeat' with_reducible first | assumption | (intro x; refine have hx : Keeps s0 x := ?_; ?_; unfold x; rotate_left; clear_value x) | (lift_lets -underBinder) | apply KeepsO.next | apply KeepsO.ite | apply Keeps.ite | apply State.setRegs_keeps | apply State.setFlag_keeps | apply State.irq_keeps | apply State.emit_keeps | apply State.haltMark_keeps

theorem execTcmUe_keeps {c : Fin 4}  (hs : Keeps s0 s) : KeepsO s0 (execTcmUe c s) := by
  unfold execTcmUe
  repeat' with_reducible first | assumption | apply KeepsO.next | apply KeepsO.ite | apply Keeps.ite | apply State.irq_keeps | apply State.statBit_keeps | apply State.haltMark_keeps

theorem execFtIndex_keeps {who : Initiator} {val : Word}  (hs : Keeps s0 s) : KeepsO s0 (execFtIndex who val s) := by
  unfold execFtIndex
  repeat' with_reducible first | assumption | apply KeepsO.next | apply KeepsO.ite | apply State.setReg_keeps | apply State.gate_keeps | (intro a b hc) | (intro a hc)

end Sys2Proof.Machine
end

