-- ==== Sys2Proof/Laws/KeepsPass.lean ====
section
/-! SUPPORT. `Keeps` for every operation and command of Machine/Pass.lean: the queue stays, free values are drawn once, tables stay
canonical. -/

namespace Sys2Proof.Machine
variable {s0 s : State}

theorem State.setDsq_keeps {f : DsqSt → DsqSt}  (hs : Keeps s0 s) : Keeps s0 (State.setDsq s f) := by
  unfold State.setDsq
  repeat' with_reducible first | assumption | apply Keeps.dsq

theorem State.setRelease_keeps {b : Option Nat}  (hs : Keeps s0 s) : Keeps s0 (State.setRelease s b) := by
  unfold State.setRelease
  repeat' with_reducible first | assumption | (intro x; clear_value x) | (lift_lets -underBinder) | apply Keeps.ite | split | apply wf_wrBytes | apply wf_wrN | (refine wf_foldl _ (fun m x w => ?_) _ ?_) | (refine Keeps.yard _ (fun w => ?_) ?_)

theorem State.reportIso_keeps {l : List Nat}  (hs : Keeps s0 s) : Keeps s0 (State.reportIso s l) := by
  unfold State.reportIso
  repeat' with_reducible first | assumption | (intro x; refine have hx : Keeps s0 x := ?_; ?_; unfold x; rotate_left; clear_value x) | (lift_lets -underBinder) | apply Keeps.ite | apply State.setReg_keeps | apply State.irq_keeps | apply State.emit_keeps | apply State.setDsq_keeps

theorem State.estEnd_keeps {status : Nat}  (hs : Keeps s0 s) : Keeps s0 (State.estEnd s status) := by
  unfold State.estEnd
  repeat' with_reducible first | assumption | (intro x; first | (refine have hx : Keeps s0 x := ?_; ?_; unfold x; rotate_left; clear_value x) | clear_value x) | (lift_lets -underBinder) | apply Keeps.ite | apply State.setRegs_keeps | apply State.setFlag_keeps | apply State.irq_keeps | apply State.emitSev_keeps | apply State.setDsq_keeps | apply State.setRelease_keeps | apply State.reportIso_keeps | split

theorem State.dspEnd_keeps {status : Nat} {rexp : Word}  (hs : Keeps s0 s) : Keeps s0 (State.dspEnd s status rexp) := by
  unfold State.dspEnd
  repeat' with_reducible first | assumption | (intro x; first | (refine have hx : Keeps s0 x := ?_; ?_; unfold x; rotate_left; clear_value x) | clear_value x) | (lift_lets -underBinder) | apply Keeps.ite | apply State.setRegs_keeps | apply State.setFlag_keeps | apply State.irq_keeps | apply State.emitSev_keeps | apply State.setDsq_keeps | apply State.setRelease_keeps | split

theorem State.hydEnd_keeps   (hs : Keeps s0 s) : Keeps s0 (State.hydEnd s) := by
  unfold State.hydEnd
  repeat' with_reducible first | assumption | apply State.setFlag_keeps | apply State.setDsq_keeps

theorem State.passesDown_keeps   (hs : Keeps s0 s) : Keeps s0 (State.passesDown s) := by
  unfold State.passesDown
  repeat' with_reducible first | assumption | (intro x; first | (refine have hx : ∀ a0 a1 s, Keeps s0 s → Keeps s0 (x a0 a1 s) := fun a0 a1 s hc => ?_; ?_; unfold x; rotate_left; clear_value x) | (refine have hx : Keeps s0 x := ?_; ?_; unfold x; rotate_left; clear_value x) | clear_value x) | (lift_lets -underBinder) | apply Keeps.ite | apply State.errc_keeps | apply State.setDsq_keeps | apply State.estEnd_keeps | apply State.dspEnd_keeps | apply State.hydEnd_keeps | (intro a b hc) | (intro a hc) | apply_assumption

theorem State.passesStopped_keeps   (hs : Keeps s0 s) : Keeps s0 (State.passesStopped s) := by
  unfold State.passesStopped
  repeat' with_reducible first | assumption | apply State.estEnd_keeps | apply State.dspEnd_keeps | apply State.hydEnd_keeps

end Sys2Proof.Machine
end

