-- ==== Sys2Proof/Laws/KeepsPlk.lean ====
section
/-! SUPPORT. `Keeps` for every operation and command of Machine/Plk.lean: the queue stays, free values are drawn once, tables stay
canonical. -/

namespace Sys2Proof.Machine
variable {s0 s : State}

theorem State.setPlk_keeps {f : PlkSt → PlkSt}  (hs : Keeps s0 s) : Keeps s0 (State.setPlk s f) := by
  unfold State.setPlk
  repeat' with_reducible first | assumption | apply Keeps.plk

theorem State.seqNext_keeps {queue : Nat}  (hs : Keeps s0 s) : Keeps s0 (State.seqNext s queue) := by
  unfold State.seqNext
  repeat' with_reducible first | assumption | apply State.setPlk_keeps

theorem State.plkSend_keeps {ty queue index : Nat} {final : Bool} {payload : List Byte}  (hs : Keeps s0 s) : Keeps s0 (State.plkSend s ty queue index final payload) := by
  unfold State.plkSend
  repeat' with_reducible first | assumption | (intro x; clear_value x) | (lift_lets -underBinder) | apply Keeps.ite | apply State.lanesPut_keeps | apply State.setPlk_keeps | apply State.seqNext_keeps

theorem execHeartbeatSend_keeps   (hs : Keeps s0 s) : KeepsO s0 (execHeartbeatSend s) := by
  unfold execHeartbeatSend
  repeat' with_reducible first | assumption | (intro x; first | (refine have hx : Keeps s0 x := ?_; ?_; unfold x; rotate_left; clear_value x) | clear_value x) | (lift_lets -underBinder) | apply KeepsO.next | apply KeepsO.ite | apply Keeps.ite | refine Keeps.foldl (fun s x hc => ?_) ?_ | apply State.ethSendTo_keeps | apply State.seqNext_keeps | apply State.plkSend_keeps

theorem State.setRole_keeps {r : Nat}  (hs : Keeps s0 s) : Keeps s0 (State.setRole s r) := by
  unfold State.setRole
  repeat' with_reducible first | assumption | (intro x; first | (refine have hx : Keeps s0 x := ?_; ?_; unfold x; rotate_left; clear_value x) | clear_value x) | (lift_lets -underBinder) | apply Keeps.ite | refine Keeps.foldl (fun s x hc => ?_) ?_ | apply State.setFld_keeps | apply State.irq_keeps | apply State.emit_keeps | apply State.pulseCut_keeps | apply State.coresStop_keeps | apply State.stopMark_keeps | apply State.setLge_keeps | apply State.retainFill_keeps | apply State.passesStopped_keeps

theorem State.standDown_keeps {r : Nat}  (hs : Keeps s0 s) : Keeps s0 (State.standDown s r) := by
  unfold State.standDown
  repeat' with_reducible first | assumption | (intro x; first | (refine have hx : Keeps s0 x := ?_; ?_; unfold x; rotate_left; clear_value x) | clear_value x) | (lift_lets -underBinder) | apply Keeps.ite | apply State.setFlag_keeps | apply State.setPlk_keeps | apply State.setRole_keeps

theorem State.takeEpoch_keeps   (hs : Keeps s0 s) : Keeps s0 (State.takeEpoch s) := by
  unfold State.takeEpoch
  repeat' with_reducible first | assumption | (intro x; clear_value x) | (lift_lets -underBinder) | apply Keeps.ite | apply State.setReg_keeps | apply State.fail_keeps | apply State.setPlk_keeps | apply State.standDown_keeps

theorem State.openContest_keeps   (hs : Keeps s0 s) : Keeps s0 (State.openContest s) := by
  unfold State.openContest
  repeat' with_reducible first | assumption | (intro x; refine have hx : Keeps s0 x := ?_; ?_; unfold x; rotate_left; clear_value x) | (lift_lets -underBinder) | apply Keeps.ite | apply State.setFlag_keeps | apply State.irq_keeps | apply State.emit_keeps | apply State.probeStalls_keeps | apply State.clearReach_keeps | apply State.setPlk_keeps

theorem State.fenceContest_keeps   (hs : Keeps s0 s) : Keeps s0 (State.fenceContest s) := by
  unfold State.fenceContest
  repeat' with_reducible first | assumption | (intro x; refine have hx : Keeps s0 x := ?_; ?_; unfold x; rotate_left; clear_value x) | (lift_lets -underBinder) | apply Keeps.ite | apply State.setPlk_keeps | apply State.openContest_keeps

theorem execWriteNak_keeps {src : NetAddr} {frame : List Byte}  (hs : Keeps s0 s) : KeepsO s0 (execWriteNak src frame s) := by
  unfold execWriteNak
  repeat' with_reducible first | assumption | apply KeepsO.next | apply KeepsO.ite | apply State.nakCore_keeps | apply State.fenceContest_keeps

theorem execDlkReply_keeps {n : Fin 8} {d : Fin 16} {reply : List Byte}  (hs : Keeps s0 s) : KeepsO s0 (execDlkReply n d reply s) := by
  unfold execDlkReply
  repeat' with_reducible first | assumption | apply KeepsO.next | apply KeepsO.ite | apply State.dlkReply_keeps | apply State.fenceContest_keeps

theorem State.takeOver_keeps {contest : Bool}  (hs : Keeps s0 s) : Keeps s0 (State.takeOver s contest) := by
  unfold State.takeOver
  repeat' with_reducible first | assumption | (intro x; refine have hx : Keeps s0 x := ?_; ?_; unfold x; rotate_left; clear_value x) | (lift_lets -underBinder) | apply Keeps.ite | apply State.setPlk_keeps | apply State.setRole_keeps | apply State.openContest_keeps

theorem execTakeover_keeps   (hs : Keeps s0 s) : KeepsO s0 (execTakeover s) := by
  unfold execTakeover
  repeat' with_reducible first | assumption | apply KeepsO.next | apply KeepsO.ite | apply Keeps.ite | apply State.takeOver_keeps

theorem execEpochCommit_keeps   (hs : Keeps s0 s) : KeepsO s0 (execEpochCommit s) := by
  unfold execEpochCommit
  repeat' with_reducible first | assumption | (intro x; first | (refine have hx : Keeps s0 x := ?_; ?_; unfold x; rotate_left; clear_value x) | clear_value x) | (lift_lets -underBinder) | apply KeepsO.next | apply KeepsO.ite | apply Keeps.ite | refine Keeps.foldl (fun s x hc => ?_) ?_ | apply State.setAxis_keeps | apply State.axRebase_keeps | apply State.takeEpoch_keeps

/-- Pages written into a memory keep the canonical form. -/
theorem wf_pagesInto (t : State) {m : Tab Byte} (p n base : Nat) (h : Tab.wf byte0 m = true) : Tab.wf byte0 (t.pagesInto m p n base) = true := by
  unfold State.pagesInto
  exact wf_foldl _ (fun _ _ w => wf_wrBytes _ _ w) _ h

theorem execImageApplied_keeps   (hs : Keeps s0 s) : KeepsO s0 (execImageApplied s) := by
  unfold execImageApplied
  repeat' with_reducible first | apply wf_ite | apply Tab.wf_filter | apply wf_pagesInto | assumption | (intro x; first | (refine have hx : Keeps s0 x := ?_; ?_; unfold x; rotate_left; clear_value x) | (have y : Tab Byte := x; clear y) | clear_value x) | (lift_lets -underBinder) | apply KeepsO.next | apply KeepsO.ite | apply Keeps.ite | apply State.setReg_keeps | apply State.incReg_keeps | apply State.setFlag_keeps | apply State.setReg64_keeps | apply State.emit_keeps | apply State.setLge_keeps | apply State.setPlk_keeps | apply State.setRole_keeps | split | (intro a b hc) | (intro a hc) | apply wf_wrBytes | apply wf_wrN | (refine wf_foldl _ (fun m x w => ?_) _ ?_) | (refine Keeps.img _ (fun w => ?_) ?_)

theorem execFenceCheck_keeps   (hs : Keeps s0 s) : KeepsO s0 (execFenceCheck s) := by
  unfold execFenceCheck
  repeat' with_reducible first | assumption | apply KeepsO.next | apply KeepsO.ite | apply Keeps.ite | apply State.fenceStalls_keeps

theorem execContestEnd_keeps   (hs : Keeps s0 s) : KeepsO s0 (execContestEnd s) := by
  unfold execContestEnd
  repeat' with_reducible first | assumption | (intro x; first | (refine have hx : Keeps s0 x := ?_; ?_; unfold x; rotate_left; clear_value x) | clear_value x) | (lift_lets -underBinder) | apply KeepsO.next | apply KeepsO.ite | apply Keeps.ite | apply State.setReg_keeps | apply State.setFlag_keeps | apply State.emit_keeps | apply State.setPlk_keeps | apply State.setRole_keeps | apply State.standDown_keeps

theorem execStandDownLimit_keeps   (hs : Keeps s0 s) : KeepsO s0 (execStandDownLimit s) := by
  unfold execStandDownLimit
  repeat' with_reducible first | assumption | apply KeepsO.next | apply KeepsO.ite | apply State.setReg_keeps | apply State.standDown_keeps | split

theorem State.protoDrop_keeps {witness : Bool} {h : PairHdr} (hs : Keeps s0 s) : Keeps s0 (State.protoDrop s witness h) :=
  State.emit_keeps (State.setReg_keeps hs)

theorem State.keep_keeps {h : PairHdr} {queue : Nat} {k : State → State} (hk : ∀ s, Keeps s0 s → Keeps s0 (k s)) (hs : Keeps s0 s) : Keeps s0 (State.keep s h queue k) := by
  unfold State.keep
  repeat' with_reducible first | assumption | apply hk | apply Keeps.ite | apply State.protoDrop_keeps | apply State.setPlk_keeps

theorem State.hear_keeps {witness : Bool} {h : PairHdr} {b : Heartbeat}  (hs : Keeps s0 s) : Keeps s0 (State.hear s witness h b) := by
  unfold State.hear
  repeat' with_reducible first | assumption | (intro x; first | (refine have hx : Keeps s0 x := ?_; ?_; unfold x; rotate_left; clear_value x) | clear_value x) | (lift_lets -underBinder) | apply Keeps.ite | apply State.setReg_keeps | apply State.setFld_keeps | apply State.setFlag_keeps | apply State.setReg64_keeps | apply State.errc_keeps | apply State.emit_keeps | apply State.setPlk_keeps | apply State.setRole_keeps | apply State.standDown_keeps | apply State.takeOver_keeps

theorem execHeartbeat_keeps {h : PairHdr} {b : Heartbeat}  (hs : Keeps s0 s) : KeepsO s0 (execHeartbeat h b s) := by
  unfold execHeartbeat
  repeat' with_reducible first | assumption | apply KeepsO.next | apply KeepsO.ite | apply State.keep_keeps | apply State.hear_keeps | (intro a b hc) | (intro a hc)

theorem execWitnessHeartbeat_keeps {raw : List Byte}  (hs : Keeps s0 s) : KeepsO s0 (execWitnessHeartbeat raw s) := by
  unfold execWitnessHeartbeat
  repeat' with_reducible first | assumption | (intro x; clear_value x) | (lift_lets -underBinder) | apply KeepsO.next | apply KeepsO.ite | apply Keeps.ite | apply State.setReg_keeps | apply State.protoDrop_keeps | apply State.hear_keeps

theorem execPathSilent_keeps {witness : Bool}  (hs : Keeps s0 s) : KeepsO s0 (execPathSilent witness s) := by
  unfold execPathSilent
  repeat' with_reducible first | assumption | (intro x; refine have hx : Keeps s0 x := ?_; ?_; unfold x; rotate_left; clear_value x) | (lift_lets -underBinder) | apply KeepsO.next | apply KeepsO.ite | apply Keeps.ite | apply State.setFlag_keeps | apply State.irq_keeps | apply State.emit_keeps | apply State.openContest_keeps | apply State.takeOver_keeps

theorem State.lanes_keeps   (hs : Keeps s0 s) : Keeps s0 (State.lanes s) := by
  unfold State.lanes
  repeat' with_reducible first | assumption | (intro x; clear_value x) | (lift_lets -underBinder) | apply State.statBit_keeps

theorem execLaneDown_keeps {l : Fin 2}  (hs : Keeps s0 s) : KeepsO s0 (execLaneDown l s) := by
  unfold execLaneDown
  repeat' with_reducible first | assumption | apply KeepsO.next | apply KeepsO.ite | apply State.setFlag_keeps | apply State.setLane_keeps | apply State.lanes_keeps

theorem execLaneUp_keeps {l : Fin 2}  (hs : Keeps s0 s) : KeepsO s0 (execLaneUp l s) := by
  unfold execLaneUp
  repeat' with_reducible first | assumption | apply KeepsO.next | apply KeepsO.ite | apply Keeps.ite | apply State.setFlag_keeps | apply State.lanes_keeps

theorem State.sendFrame_keeps {final : Bool}  (hs : Keeps s0 s) : Keeps s0 (State.sendFrame s final) := by
  unfold State.sendFrame
  repeat' with_reducible first | assumption | (intro x; first | (refine have hx : Keeps s0 x := ?_; ?_; unfold x; rotate_left; clear_value x) | (have y : Tab Byte := x; clear y) | clear_value x) | (lift_lets -underBinder) | apply Keeps.ite | refine Keeps.foldl (fun s x hc => ?_) ?_ | apply State.setReg64_keeps | apply State.frameAbandon_keeps | apply State.setPlk_keeps | apply State.plkSend_keeps

theorem execStatePage_keeps {h : PairHdr} {page : Fin 512} {data : List Byte}  (hs : Keeps s0 s) : KeepsO s0 (execStatePage h page data s) := by
  unfold execStatePage
  repeat' with_reducible first | assumption | apply KeepsO.next | apply KeepsO.ite | apply Keeps.ite | apply State.setPlk_keeps | apply State.keep_keeps | (intro a b hc) | (intro a hc)

theorem State.frameCommit_keeps {g : StateImg} {full : Bool}  (hs : Keeps s0 s) : Keeps s0 (State.frameCommit s g full) := by
  unfold State.frameCommit
  repeat' with_reducible first | assumption | (intro x; first | (refine have hx : Keeps s0 x := ?_; ?_; unfold x; rotate_left; clear_value x) | clear_value x) | (lift_lets -underBinder) | apply Keeps.ite | refine Keeps.foldl (fun s x hc => ?_) ?_ | apply State.setFlag_keeps | apply State.setReg64_keeps | apply State.emit_keeps | apply State.mtrTake_keeps | apply State.setPlk_keeps

theorem execStateEnd_keeps {h : PairHdr} {e : StateEnd}  (hs : Keeps s0 s) : KeepsO s0 (execStateEnd h e s) := by
  unfold execStateEnd
  repeat' with_reducible first | assumption | (intro x; first | (refine have hx : Keeps s0 x := ?_; ?_; unfold x; rotate_left; clear_value x) | clear_value x) | (lift_lets -underBinder) | apply KeepsO.next | apply KeepsO.ite | apply Keeps.ite | apply State.irq_keeps | apply State.setPlk_keeps | apply State.takeOver_keeps | apply State.keep_keeps | apply State.frameCommit_keeps | split | (intro a b hc) | (intro a hc)

theorem execStream_keeps {h : PairHdr} {chunk : Nat} {obj : Byte} {last : Bool} {gen : Word} {data : List Byte}  (hs : Keeps s0 s) : KeepsO s0 (execStream h chunk obj last gen data s) := by
  unfold execStream
  repeat' with_reducible first | assumption | (intro x; first | (refine have hx : Keeps s0 x := ?_; ?_; unfold x; rotate_left; clear_value x) | clear_value x) | (lift_lets -underBinder) | apply KeepsO.next | apply KeepsO.ite | apply Keeps.ite | apply State.setFlag_keeps | apply State.setPlk_keeps | apply State.keep_keeps | split | (intro a b hc) | (intro a hc)

theorem State.leaseSend_keeps {ty : Nat} {pl : List Byte}  (hs : Keeps s0 s) : Keeps s0 (State.leaseSend s ty pl) := by
  unfold State.leaseSend
  repeat' with_reducible first | assumption | (intro x; first | (refine have hx : Keeps s0 x := ?_; ?_; unfold x; rotate_left; clear_value x) | clear_value x) | (lift_lets -underBinder) | apply Keeps.ite | apply State.stFrame_keeps | apply State.plkSend_keeps

theorem State.leaseRequest_keeps {release : Bool}  (hs : Keeps s0 s) : Keeps s0 (State.leaseRequest s release) := by
  unfold State.leaseRequest
  repeat' with_reducible first | assumption | (intro x; first | (refine have hx : Keeps s0 x := ?_; ?_; unfold x; rotate_left; clear_value x) | clear_value x) | (lift_lets -underBinder) | apply Keeps.ite | apply State.setPlk_keeps | apply State.leaseSend_keeps

theorem execLeaseReq_keeps {src : Peer} {r : LeaseReq}  (hs : Keeps s0 s) : KeepsO s0 (execLeaseReq src r s) := by
  unfold execLeaseReq
  repeat' with_reducible first | assumption | (intro x; first | (refine have hx : Keeps s0 x := ?_; ?_; unfold x; rotate_left; clear_value x) | clear_value x) | (lift_lets -underBinder) | apply KeepsO.next | apply KeepsO.ite | apply Keeps.ite | apply State.setFlag_keeps | apply State.setPlk_keeps | apply State.plkSend_keeps

theorem execLeaseRsp_keeps {_src : Peer} {r : LeaseRsp}  (hs : Keeps s0 s) : KeepsO s0 (execLeaseRsp _src r s) := by
  unfold execLeaseRsp
  repeat' with_reducible first | assumption | (intro x; first | (refine have hx : Keeps s0 x := ?_; ?_; unfold x; rotate_left; clear_value x) | clear_value x) | (lift_lets -underBinder) | apply KeepsO.next | apply KeepsO.ite | apply Keeps.ite | apply State.setFlag_keeps | apply State.setPlk_keeps | apply State.takeOver_keeps | split

theorem execLeaseRenew_keeps   (hs : Keeps s0 s) : KeepsO s0 (execLeaseRenew s) := by
  unfold execLeaseRenew
  repeat' with_reducible first | assumption | apply KeepsO.next | apply KeepsO.ite | apply Keeps.ite | apply State.leaseRequest_keeps

theorem execLeaseStartWait_keeps   (hs : Keeps s0 s) : KeepsO s0 (execLeaseStartWait s) := by
  unfold execLeaseStartWait
  repeat' with_reducible first | assumption | apply KeepsO.next | apply KeepsO.ite | apply Keeps.ite | apply State.leaseRequest_keeps

theorem execLeaseEnd_keeps   (hs : Keeps s0 s) : KeepsO s0 (execLeaseEnd s) := by
  unfold execLeaseEnd
  repeat' with_reducible first | assumption | (intro x; refine have hx : Keeps s0 x := ?_; ?_; unfold x; rotate_left; clear_value x) | (lift_lets -underBinder) | apply KeepsO.next | apply KeepsO.ite | apply Keeps.ite | apply State.setFlag_keeps | apply State.setPlk_keeps | apply State.standDown_keeps | split

theorem execGrantEnd_keeps   (hs : Keeps s0 s) : KeepsO s0 (execGrantEnd s) := by
  unfold execGrantEnd
  repeat' with_reducible first | assumption | apply KeepsO.next | apply KeepsO.ite | apply State.setFlag_keeps | apply State.setPlk_keeps

theorem State.switchNow_keeps   (hs : Keeps s0 s) : Keeps s0 (State.switchNow s) := by
  unfold State.switchNow
  repeat' with_reducible first | assumption | (intro x; refine have hx : Keeps s0 x := ?_; ?_; unfold x; rotate_left; clear_value x) | (lift_lets -underBinder) | apply Keeps.ite | apply State.setFlag_keeps | apply State.setPlk_keeps | apply State.standDown_keeps | apply State.sendFrame_keeps | apply State.leaseRequest_keeps

theorem State.switchTake_keeps   (hs : Keeps s0 s) : Keeps s0 (State.switchTake s) := by
  unfold State.switchTake
  repeat' with_reducible first | assumption | (intro x; first | (refine have hx : Keeps s0 x := ?_; ?_; unfold x; rotate_left; clear_value x) | clear_value x) | (lift_lets -underBinder) | apply Keeps.ite | apply State.emit_keeps | apply State.setPlk_keeps | apply State.switchNow_keeps

theorem execResolveEnd_keeps   (hs : Keeps s0 s) : KeepsO s0 (execResolveEnd s) := by
  unfold execResolveEnd
  repeat' with_reducible first | assumption | (intro x; refine have hx : Keeps s0 x := ?_; ?_; unfold x; rotate_left; clear_value x) | (lift_lets -underBinder) | apply KeepsO.next | apply KeepsO.ite | apply Keeps.ite | apply State.setPlk_keeps | apply State.setRole_keeps | apply State.takeEpoch_keeps | apply State.takeOver_keeps | apply State.leaseRequest_keeps

theorem State.plkStart_keeps   (hs : Keeps s0 s) : Keeps s0 (State.plkStart s) := by
  unfold State.plkStart
  repeat' with_reducible first | assumption | (intro x; refine have hx : Keeps s0 x := ?_; ?_; unfold x; rotate_left; clear_value x) | (lift_lets -underBinder) | apply Keeps.ite | apply State.setReg_keeps | apply State.setPlk_keeps | apply State.setRole_keeps | apply State.takeEpoch_keeps

theorem State.plkStop_keeps   (hs : Keeps s0 s) : Keeps s0 (State.plkStop s) := by
  unfold State.plkStop
  repeat' with_reducible first | assumption | apply Keeps.ite | apply State.standDown_keeps

end Sys2Proof.Machine
end

