-- ==== Sys2Proof/Laws/KeepsModel.lean ====
section
/-! SUPPORT. `Keeps` for every operation and command of Machine/Model.lean: the queue stays, free values are drawn once, tables stay
canonical. -/

namespace Sys2Proof.Machine
variable {s0 s : State}

theorem State.setMdl_keeps {f : ModelSt → ModelSt}  (hs : Keeps s0 s) : Keeps s0 (State.setMdl s f) := by
  unfold State.setMdl
  repeat' with_reducible first | assumption | apply Keeps.mdl

theorem State.setLoad_keeps {v check : Nat}  (hs : Keeps s0 s) : Keeps s0 (State.setLoad s v check) := by
  unfold State.setLoad
  repeat' with_reducible first | assumption | apply Keeps.ite | apply State.setFld_keeps | apply State.irq_keeps

theorem State.mdlRefuse_keeps {check : Nat}  (hs : Keeps s0 s) : Keeps s0 (State.mdlRefuse s check) := by
  unfold State.mdlRefuse
  repeat' with_reducible first | assumption | apply State.setReg_keeps | apply State.emitSev_keeps | apply State.setLoad_keeps

theorem State.mdlActivate_keeps   (hs : Keeps s0 s) : Keeps s0 (State.mdlActivate s) := by
  unfold State.mdlActivate
  repeat' with_reducible first | assumption | (intro x; first | (refine have hx : Keeps s0 x := ?_; ?_; unfold x; rotate_left; clear_value x) | clear_value x) | (lift_lets -underBinder) | apply State.setRegs_keeps | apply State.setFlag_keeps | apply State.emitSev_keeps | apply State.measExtend_keeps | apply State.setMdl_keeps | apply State.setLoad_keeps

theorem State.mdlTake_keeps   (hs : Keeps s0 s) : Keeps s0 (State.mdlTake s) := by
  unfold State.mdlTake
  repeat' with_reducible first | assumption | apply Keeps.ite | apply State.mdlRefuse_keeps | apply State.mdlActivate_keeps | split

theorem State.mdlDrop_keeps   (hs : Keeps s0 s) : Keeps s0 (State.mdlDrop s) := by
  unfold State.mdlDrop
  repeat' with_reducible first | assumption | (intro x; clear_value x) | (lift_lets -underBinder) | apply Keeps.ite | apply State.setReg_keeps | apply State.setLoad_keeps

theorem State.mdlLost_keeps   (hs : Keeps s0 s) : Keeps s0 (State.mdlLost s) := by
  unfold State.mdlLost
  repeat' with_reducible first | assumption | (intro x; refine have hx : Keeps s0 x := ?_; ?_; unfold x; rotate_left; clear_value x) | (lift_lets -underBinder) | apply State.setReg_keeps | apply State.setFld_keeps | apply State.setMdl_keeps

theorem State.mdlShow_keeps   (hs : Keeps s0 s) : Keeps s0 (State.mdlShow s) := by
  unfold State.mdlShow
  repeat' with_reducible first | assumption | (intro x; first | (refine have hx : Keeps s0 x := ?_; ?_; unfold x; rotate_left; clear_value x) | clear_value x) | (lift_lets -underBinder) | apply Keeps.ite | apply State.setRegs_keeps | apply State.setFlag_keeps

theorem execModelLoad_keeps {who : Initiator} {image : List Byte}  (hs : Keeps s0 s) : KeepsO s0 (execModelLoad who image s) := by
  unfold execModelLoad
  repeat' with_reducible first | assumption | (intro x; first | (refine have hx : Keeps s0 x := ?_; ?_; unfold x; rotate_left; clear_value x) | clear_value x) | (lift_lets -underBinder) | apply KeepsO.next | apply KeepsO.ite | apply Keeps.ite | apply State.setReg_keeps | apply State.errc_keeps | apply State.emit_keeps | apply State.gate_keeps | apply State.setLoad_keeps | (intro a b hc) | (intro a hc) | apply wf_wrBytes | apply wf_wrN | (refine wf_foldl _ (fun m x w => ?_) _ ?_) | (refine Keeps.dram _ (fun w => ?_) ?_)

theorem execModelCancel_keeps {who : Initiator}  (hs : Keeps s0 s) : KeepsO s0 (execModelCancel who s) := by
  unfold execModelCancel
  repeat' with_reducible first | assumption | apply KeepsO.next | apply KeepsO.ite | apply State.gate_keeps | apply State.mdlDrop_keeps

/-- A relocated object keeps the canonical form. -/
theorem wf_relocate (base : Nat) (l : List Byte) (m : Tab Byte) (o : Nat) (h : Tab.wf byte0 m = true) :
    Tab.wf byte0 (relocate base l m o) = true := by
  unfold relocate
  exact wf_foldl _ (fun _ _ w => wf_ite w (wf_wrN _ _ _ w)) _ h

/-- The copy of a model into its slot keeps the canonical form. -/
theorem wf_mdlCopy (base : Nat) (b : List Byte) {m : Tab Byte} (h : Tab.wf byte0 m = true) : Tab.wf byte0 (mdlCopy m base b) = true := by
  unfold mdlCopy
  exact wf_foldl _ (wf_relocate _ _) _ (wf_foldl _ (wf_relocate _ _) _ (wf_foldl _ (fun _ _ w => wf_wrBytes _ _ w) _ (wf_wrBytes _ _ h)))

theorem State.mdlJudge_keeps {b : List Byte} {readBad : Bool} (hs : Keeps s0 s) : Keeps s0 (s.mdlJudge b readBad) := by
  have h : Keeps s0 { s with yard := mdlCopy s.yard (slotBase (1 - s.mdl.slot)) b } := Keeps.yard _ (wf_mdlCopy _ _) hs
  unfold State.mdlJudge
  split
  · exact State.mdlRefuse_keeps hs
  · exact Keeps.ite (State.mdlRefuse_keeps hs) (Keeps.ite (State.mdlActivate_keeps (State.setReg_keeps h))
      (State.setLoad_keeps (State.setReg_keeps h)))

theorem execModelValidated_keeps {read : Ecc}  (hs : Keeps s0 s) : KeepsO s0 (execModelValidated read s) := by
  unfold execModelValidated
  repeat' with_reducible first | assumption | (intro x; first | (refine have hx : Keeps s0 x := ?_; ?_; unfold x; rotate_left; clear_value x) | clear_value x) | (lift_lets -underBinder) | apply KeepsO.next | apply KeepsO.ite | apply Keeps.ite | apply State.drmRead_keeps | apply State.mdlJudge_keeps

end Sys2Proof.Machine
end

