-- ==== Sys2Proof/Laws/KeepsNsu.lean ====
section
/-! SUPPORT. `Keeps` for every operation and command of Machine/Nsu.lean: the queue stays, free values are drawn once, tables stay
canonical. -/

namespace Sys2Proof.Machine
variable {s0 s : State}

theorem State.setNsu_keeps {f : NsuSt → NsuSt}  (hs : Keeps s0 s) : Keeps s0 (State.setNsu s f) := by
  unfold State.setNsu
  repeat' with_reducible first | assumption | apply Keeps.nsu

theorem State.store_keeps {who : Initiator} {l : List Store}  (hs : Keeps s0 s) : Keeps s0 (State.store s who l) := by
  unfold State.store
  repeat' with_reducible first | assumption | apply Keeps.ite | refine Keeps.foldl (fun s x hc => ?_) ?_ | (intro a b hc) | (intro a hc) | apply wf_wrBytes | apply wf_wrN | (refine wf_foldl _ (fun m x w => ?_) _ ?_) | (refine Keeps.yard _ (fun w => ?_) ?_) | (refine Keeps.dram _ (fun w => ?_) ?_)

theorem State.afterStores_keeps {who : Initiator} {l : List Store} {k : State → State} (hk : ∀ s, Keeps s0 s → Keeps s0 (k s)) (hs : Keeps s0 s) : Keeps s0 (State.afterStores s who l k) := by
  unfold State.afterStores
  repeat' with_reducible first | assumption | apply hk | (intro x; refine have hx : Keeps s0 x := ?_; ?_; unfold x; rotate_left; clear_value x) | (lift_lets -underBinder) | apply Keeps.ite | apply State.store_keeps | apply Keeps.resp

end Sys2Proof.Machine
end

