-- ==== Sys2Proof/Laws/KeepsEvr.lean ====
section
/-! SUPPORT. `Keeps` for every operation and command of Machine/Evr.lean: the queue stays, free values are drawn once, tables stay
canonical. -/

namespace Sys2Proof.Machine
variable {s0 s : State}

theorem State.showStage_keeps   (hs : Keeps s0 s) : Keeps s0 (State.showStage s) := by
  unfold State.showStage
  repeat' with_reducible first | assumption | apply State.setReg_keeps

theorem State.stageRec_keeps {code : BitVec 16} {sev : BitVec 2} {pl : Plane} {lost : Bool} {t : Nat} {body : List Word}  (hs : Keeps s0 s) : Keeps s0 (State.stageRec s code sev pl lost t body) := by
  unfold State.stageRec
  repeat' with_reducible first | assumption | (intro x; clear_value x) | (lift_lets -underBinder) | apply State.showStage_keeps | (intro a b hc) | (intro a hc) | apply Keeps.evr

theorem State.stageOwn_keeps {code : BitVec 16} {sev : BitVec 2} {body : List Word}  (hs : Keeps s0 s) : Keeps s0 (State.stageOwn s code sev body) := by
  unfold State.stageOwn
  repeat' with_reducible first | assumption | apply State.stageRec_keeps

theorem State.bumpCount_keeps {b : Nat}  (hs : Keeps s0 s) : Keeps s0 (State.bumpCount s b) := by
  unfold State.bumpCount
  repeat' with_reducible first | assumption | (intro x; clear_value x) | (lift_lets -underBinder) | apply Keeps.ite | apply State.showStage_keeps | split | (intro a b hc) | (intro a hc) | apply Keeps.evr

theorem State.fullDrop_keeps   (hs : Keeps s0 s) : Keeps s0 (State.fullDrop s) := by
  unfold State.fullDrop
  repeat' with_reducible first | assumption | apply State.incReg_keeps | apply State.bumpCount_keeps

theorem State.addRec_keeps {code : BitVec 16} {sev : BitVec 2} {pl : Plane} {lost : Bool} {t : Nat} {body : List Word}  (hs : Keeps s0 s) : Keeps s0 (State.addRec s code sev pl lost t body) := by
  unfold State.addRec
  repeat' with_reducible first | assumption | apply Keeps.ite | apply State.stageRec_keeps | apply State.fullDrop_keeps

theorem State.passRec_keeps {code : BitVec 16} {sev : BitVec 2} {pl : Plane} {lost : Bool} {t : Nat} {body : List Word}  (hs : Keeps s0 s) : Keeps s0 (State.passRec s code sev pl lost t body) := by
  unfold State.passRec
  repeat' with_reducible first | assumption | (intro x; clear_value x) | (lift_lets -underBinder) | apply Keeps.ite | apply State.incReg_keeps | apply State.bumpCount_keeps | apply State.addRec_keeps | (intro a b hc) | (intro a hc) | apply Keeps.evr

theorem State.stageNext_keeps {p : Plane}  (hs : Keeps s0 s) : Keeps s0 (State.stageNext s p) := by
  unfold State.stageNext
  repeat' with_reducible first | assumption | (intro x; first | (refine have hx : Keeps s0 x := ?_; ?_; unfold x; rotate_left; clear_value x) | clear_value x) | (lift_lets -underBinder) | apply Keeps.ite | apply State.setFlag_keeps | apply State.stageOwn_keeps | apply State.passRec_keeps | split | (intro a b hc) | (intro a hc) | apply Keeps.evr

theorem execRecordStage_keeps {p : Plane}  (hs : Keeps s0 s) : KeepsO s0 (execRecordStage p s) := by
  unfold execRecordStage
  repeat' with_reducible first | assumption | apply KeepsO.next | apply KeepsO.ite | apply State.stageNext_keeps

theorem State.stageQueue_keeps {p : Plane}  (hs : Keeps s0 s) : Keeps s0 (State.stageQueue s p) := by
  unfold State.stageQueue
  repeat' with_reducible first | assumption | refine Keeps.foldl (fun s x hc => ?_) ?_ | apply State.stageNext_keeps

theorem execRecordSubmit_keeps {r : Record}  (hs : Keeps s0 s) : KeepsO s0 (execRecordSubmit r s) := by
  unfold execRecordSubmit
  repeat' with_reducible first | assumption | apply KeepsO.next | apply KeepsO.ite | apply State.submit_keeps

theorem State.showLog_keeps {c : LogCtl}  (hs : Keeps s0 s) : Keeps s0 (State.showLog s c) := by
  unfold State.showLog
  repeat' with_reducible first | assumption | (intro x; first | (refine have hx : Keeps s0 x := ?_; ?_; unfold x; rotate_left; clear_value x) | clear_value x) | (lift_lets -underBinder) | apply Keeps.ite | apply State.setReg_keeps | apply State.setReg64_keeps | apply State.irq_keeps | apply Keeps.evr

theorem flushOne_keeps {c : LogCtl} {x : Staged} (hs : Keeps s0 s) : Keeps s0 (flushOne s c x).1 := by
  unfold flushOne
  split
  · exact State.fullDrop_keeps hs
  · split
    · exact Keeps.evr _ hs
    · exact State.irq_keeps (State.incReg_keeps (Keeps.evr _ hs))

theorem State.flushLog_keeps (hs : Keeps s0 s) : Keeps s0 s.flushLog := by
  unfold State.flushLog
  exact State.showLog_keeps (State.showStage_keeps (Keeps.evr _ (Keeps.foldl_fst (fun _ _ h => flushOne_keeps h) (Keeps.evr _ hs))))

theorem execFlush_keeps   (hs : Keeps s0 s) : KeepsO s0 (execFlush s) := by
  unfold execFlush
  repeat' with_reducible first | assumption | apply KeepsO.next | apply KeepsO.ite | apply Keeps.ite | apply State.flushLog_keeps

theorem State.evrStart_keeps   (hs : Keeps s0 s) : Keeps s0 (State.evrStart s) := by
  unfold State.evrStart
  repeat' with_reducible first | assumption | (intro x; clear_value x) | (lift_lets -underBinder) | apply Keeps.ite | apply State.errc_keeps | apply State.stageOwn_keeps | apply State.showLog_keeps | split | (apply Keeps.snd; assumption) | (apply Keeps.fst; assumption) | apply Keeps.evr

theorem State.logClear_keeps {slot : Byte} {counter archived : DWord}  (hs : Keeps s0 s) : Keeps s0 (State.logClear s slot counter archived) := by
  unfold State.logClear
  repeat' with_reducible first | assumption | (intro x; first | (refine have hx : Keeps s0 x := ?_; ?_; unfold x; rotate_left; clear_value x) | clear_value x) | (lift_lets -underBinder) | apply Keeps.ite | apply State.setReg_keeps | apply State.irq_keeps | apply State.errc_keeps | apply State.stageOwn_keeps | apply State.showLog_keeps | apply State.flushLog_keeps | apply Keeps.evr

theorem execSwSend_keeps {who : Initiator} {val : Word}  (hs : Keeps s0 s) : KeepsO s0 (execSwSend who val s) := by
  unfold execSwSend
  repeat' with_reducible first | assumption | (intro x; clear_value x) | (lift_lets -underBinder) | apply KeepsO.next | apply KeepsO.ite | apply Keeps.ite | apply State.incReg_keeps | apply State.submit_keeps | apply State.gate_keeps | (intro a b hc) | (intro a hc)

theorem execRdOfs_keeps {who : Initiator} {val : Word}  (hs : Keeps s0 s) : KeepsO s0 (execRdOfs who val s) := by
  unfold execRdOfs
  repeat' with_reducible first | assumption | apply KeepsO.next | apply KeepsO.ite | apply State.setReg_keeps | apply State.gate_keeps | (intro a b hc) | (intro a hc)

theorem execRlIndex_keeps {who : Initiator} {val : Word}  (hs : Keeps s0 s) : KeepsO s0 (execRlIndex who val s) := by
  unfold execRlIndex
  repeat' with_reducible first | assumption | apply KeepsO.next | apply KeepsO.ite | apply State.setReg_keeps | apply State.gate_keeps | apply State.rws_keeps | (intro a b hc) | (intro a hc)

theorem State.wrRlCfg_keeps {val : Word}  (hs : Keeps s0 s) : Keeps s0 (State.wrRlCfg s val) := by
  unfold State.wrRlCfg
  repeat' with_reducible first | assumption | (intro x; clear_value x) | (lift_lets -underBinder) | apply Keeps.ite | apply State.cfgRej_keeps | (intro a b hc) | (intro a hc) | apply Keeps.evr

end Sys2Proof.Machine
end

