-- ==== Sys2Proof/Laws/KeepsJobs.lean ====
section
/-! SUPPORT. `Keeps` for every operation and command of Machine/Jobs.lean: the queue stays, free values are drawn once, tables stay
canonical. -/

namespace Sys2Proof.Machine
variable {s0 s : State}

theorem execJqCfgWrite_keeps {who : Initiator} {size : Bool} {val : Word}  (hs : Keeps s0 s) : KeepsO s0 (execJqCfgWrite who size val s) := by
  unfold execJqCfgWrite
  repeat' with_reducible first | assumption | (intro x; clear_value x) | (lift_lets -underBinder) | apply KeepsO.next | apply KeepsO.ite | apply Keeps.ite | apply State.setRegs_keeps | apply State.gate_keeps | apply State.rws_keeps | (intro a b hc) | (intro a hc)

theorem execJqTail_keeps {who : Initiator} {val : Word} {stores : List Store}  (hs : Keeps s0 s) : KeepsO s0 (execJqTail who val stores s) := by
  unfold execJqTail
  repeat' with_reducible first | assumption | (intro x; clear_value x) | (lift_lets -underBinder) | apply KeepsO.next | apply KeepsO.ite | apply Keeps.ite | apply State.setReg_keeps | apply State.incReg_keeps | apply State.irq_keeps | apply State.gate_keeps | apply State.afterStores_keeps | (intro a b hc) | (intro a hc)

theorem State.showBusy_keeps   (hs : Keeps s0 s) : Keeps s0 (State.showBusy s) := by
  unfold State.showBusy
  repeat' with_reducible first | assumption | (intro x; first | (refine have hx : Keeps s0 x := ?_; ?_; unfold x; rotate_left; clear_value x) | clear_value x) | (lift_lets -underBinder) | refine Keeps.foldl (fun s x hc => ?_) ?_ | apply State.setReg_keeps | apply State.setFld_keeps | apply State.setFlag_keeps

theorem wf_yardPut (l : List (Nat × List Byte)) {m : Tab Byte} (h : Tab.wf byte0 m = true) : Tab.wf byte0 (yardPut m l) = true :=
  wf_foldl _ (fun _ _ w => wf_wrBytes _ _ w) l h

/-- A job's outputs keep the canonical form. -/
theorem wf_jobOutputs (j : Job) {m : Tab Byte} (h : Tab.wf byte0 m = true) : Tab.wf byte0 (jobOutputs j m) = true := by
  unfold jobOutputs
  split
  · exact wf_yardPut _ (wf_yardPut _ (wf_yardPut _ h))
  · exact wf_yardPut _ (wf_yardPut _ h)

/-- A job's record keeps the canonical form. -/
theorem wf_jobRecord (j : Job) (r : List Byte) {m : Tab Byte} (h : Tab.wf byte0 m = true) : Tab.wf byte0 (jobRecord j r m) = true := by
  unfold jobRecord
  split
  · exact wf_wrBytes _ _ (wf_wrBytes _ _ h)
  · exact wf_wrBytes _ _ h

/-- The yard when a job has ended keeps the canonical form. -/
theorem wf_jobYard (t : State) (j : Job) (iterNs : Word) (h : Tab.wf byte0 t.yard = true) : Tab.wf byte0 (t.jobYard j iterNs) = true := by
  unfold State.jobYard
  exact wf_ite (wf_jobRecord j _ (wf_jobOutputs j h)) (wf_jobOutputs j h)

theorem State.jobFinish_keeps {j : Job} {iterNs : Word}  (hs : Keeps s0 s) : Keeps s0 (State.jobFinish s j iterNs) := by
  unfold State.jobFinish
  repeat' with_reducible first | apply wf_jobYard | assumption | (intro x; first | (refine have hx : Keeps s0 x := ?_; ?_; unfold x; rotate_left; clear_value x) | clear_value x) | (lift_lets -underBinder) | apply Keeps.ite | refine Keeps.foldl (fun s x hc => ?_) ?_ | apply State.setRegs_keeps | apply State.incReg_keeps | apply State.setReg64_keeps | apply State.irq_keeps | apply State.setNsu_keeps | apply State.showBusy_keeps | (intro a b hc) | (intro a hc) | apply wf_wrBytes | apply wf_wrN | (refine wf_foldl _ (fun m x w => ?_) _ ?_) | (refine Keeps.yard _ (fun w => ?_) ?_)

theorem State.someOf_keeps {l : List (Nat × List Byte)} (hs : Keeps s0 s) : Keeps s0 (s.someOf l).2 :=
  ⟨hs.queue, Nat.le_trans hs.drawn (Nat.le_add_right _ _), hs.form⟩

theorem State.jobsAbort_keeps   (hs : Keeps s0 s) : Keeps s0 (State.jobsAbort s) := by
  unfold State.jobsAbort
  repeat' with_reducible first | assumption | (intro x; refine have hx : Keeps s0 x.2 := ?_; ?_; unfold x; rotate_left; clear_value x) | (lift_lets -underBinder) | apply Keeps.ite | refine Keeps.foldl (fun s x hc => ?_) ?_ | apply State.fresh_keeps | apply State.jobFinish_keeps | apply State.someOf_keeps | apply State.fresh_keeps | (intro a b hc) | (intro a hc) | split

theorem State.nsuFail_keeps {code detail : Nat}  (hs : Keeps s0 s) : Keeps s0 (State.nsuFail s code detail) := by
  unfold State.nsuFail
  repeat' with_reducible first | assumption | apply State.fail_keeps | apply State.passesDown_keeps | apply State.jobsAbort_keeps

theorem State.clusterShow_keeps {c : Nat}  (hs : Keeps s0 s) : Keeps s0 (State.clusterShow s c) := by
  unfold State.clusterShow
  repeat' with_reducible first | assumption | (intro x; first | (refine have hx : Keeps s0 x := ?_; ?_; unfold x; rotate_left; clear_value x) | clear_value x) | (lift_lets -underBinder) | apply Keeps.ite | apply State.setFld_keeps | apply State.setFlag_keeps | apply State.irq_keeps | apply State.statBit_keeps | apply State.nsuFail_keeps

theorem State.clusterOff_keeps {c : Nat}  (hs : Keeps s0 s) : Keeps s0 (State.clusterOff s c) := by
  unfold State.clusterOff
  repeat' with_reducible first | assumption | apply State.setFlag_keeps | apply State.irq_keeps | apply State.clusterShow_keeps

theorem execLmapWrite_keeps {who : Initiator} {c : Fin 4} {hi : Bool} {val : Word}  (hs : Keeps s0 s) : KeepsO s0 (execLmapWrite who c hi val s) := by
  unfold execLmapWrite
  repeat' with_reducible first | assumption | (intro x; clear_value x) | (lift_lets -underBinder) | apply KeepsO.next | apply KeepsO.ite | apply Keeps.ite | apply State.setReg_keeps | apply State.gate_keeps | apply State.rws_keeps | apply State.clusterShow_keeps | (intro a b hc) | (intro a hc)

theorem execLaneTest_keeps {c : Fin 4}  (hs : Keeps s0 s) : KeepsO s0 (execLaneTest c s) := by
  unfold execLaneTest
  repeat' with_reducible first | assumption | (intro x; clear_value x) | (lift_lets -underBinder) | apply KeepsO.next | apply KeepsO.ite | apply Keeps.ite | apply State.setFld_keeps | split

theorem execLaneTestDone_keeps {c : Fin 4} {res : LaneEnd}  (hs : Keeps s0 s) : KeepsO s0 (execLaneTestDone c res s) := by
  unfold execLaneTestDone
  repeat' with_reducible first | assumption | (intro x; first | (refine have hx : Keeps s0 x := ?_; ?_; unfold x; rotate_left; clear_value x) | (refine have hx : ∀ s, Keeps s0 s → Keeps s0 (x s) := fun s h => ?_; ?_; unfold x; rotate_left; clear_value x) | clear_value x) | (lift_lets -underBinder) | apply KeepsO.next | apply KeepsO.ite | apply Keeps.ite | apply State.setRegs_keeps | apply State.incReg_keeps | apply State.setFld_keeps | apply State.setFlag_keeps | apply State.irq_keeps | apply State.emit_keeps | apply State.setNsu_keeps | apply State.clusterShow_keeps | split | (intro a b hc) | (intro a hc) | apply_assumption

theorem State.yardUe_keeps {a : Nat}  (hs : Keeps s0 s) : Keeps s0 (State.yardUe s a) := by
  unfold State.yardUe
  repeat' with_reducible first | assumption | apply State.setReg_keeps | apply State.incReg_keeps

theorem State.nsuUe_keeps {a : Nat}  (hs : Keeps s0 s) : Keeps s0 (State.nsuUe s a) := by
  unfold State.nsuUe
  repeat' with_reducible first | assumption | apply State.irq_keeps | apply State.statBit_keeps | apply State.yardUe_keeps

theorem State.jobMet_keeps {j : Job}  (hs : Keeps s0 s) : Keeps s0 (State.jobMet s j) := by
  unfold State.jobMet
  repeat' with_reducible first | assumption | apply State.errc_keeps | apply State.clusterOff_keeps | apply State.nsuUe_keeps | split

theorem State.yardCe_keeps {a : Nat}  (hs : Keeps s0 s) : Keeps s0 (State.yardCe s a) := by
  unfold State.yardCe
  repeat' with_reducible first | assumption | (intro x; first | (refine have hx : Keeps s0 x := ?_; ?_; unfold x; rotate_left; clear_value x) | clear_value x) | (lift_lets -underBinder) | apply Keeps.ite | apply State.incReg_keeps | apply State.setFlag_keeps | apply State.irq_keeps | apply State.statBit_keeps

theorem State.yardFixed_keeps {l : List Word}  (hs : Keeps s0 s) : Keeps s0 (State.yardFixed s l) := by
  unfold State.yardFixed
  repeat' with_reducible first | assumption | apply Keeps.ite | refine Keeps.foldl (fun s x hc => ?_) ?_ | apply State.yardCe_keeps

theorem execYardScrub_keeps {res : Ecc}  (hs : Keeps s0 s) : KeepsO s0 (execYardScrub res s) := by
  unfold execYardScrub
  repeat' with_reducible first | assumption | (intro x; first | (refine have hx : Keeps s0 x := ?_; ?_; unfold x; rotate_left; clear_value x) | clear_value x) | (lift_lets -underBinder) | apply KeepsO.next | apply KeepsO.ite | apply Keeps.ite | apply State.setReg_keeps | apply State.irq_keeps | apply State.yardUe_keeps | apply State.yardCe_keeps | split

theorem State.jobPlan_keeps {j : Job} {cut : JobCut}  (hs : Keeps s0 s) : Keeps s0 ((State.jobPlan s j cut).2) := by
  unfold State.jobPlan
  repeat' with_reducible first | assumption | (intro x; first | (refine have hx : Keeps s0 x.2 := ?_; ?_; unfold x; rotate_left; clear_value x) | clear_value x) | (lift_lets -underBinder) | apply Keeps.ite | apply State.someOf_keeps | split

theorem State.takeJob_keeps {op : Nat} {cut : JobCut}  (hs : Keeps s0 s) : Keeps s0 (State.takeJob s op cut) := by
  unfold State.takeJob
  repeat' with_reducible first | assumption | (intro x; first | (refine have hx : Keeps s0 x := ?_; ?_; unfold x; rotate_left; clear_value x) | (refine have hx : Keeps s0 x.2 := ?_; ?_; unfold x; rotate_left; clear_value x) | clear_value x) | (lift_lets -underBinder) | apply Keeps.ite | refine Keeps.foldl (fun s x hc => ?_) ?_ | apply State.incReg_keeps | apply State.fresh_keeps | apply State.setNsu_keeps | apply State.showBusy_keeps | apply State.nsuFail_keeps | apply State.nsuUe_keeps | apply State.yardCe_keeps | apply State.jobPlan_keeps

theorem State.jobsDrain_keeps   (hs : Keeps s0 s) : Keeps s0 (State.jobsDrain s) := by
  unfold State.jobsDrain
  repeat' with_reducible first | assumption | (intro x; refine have hx : Keeps s0 x.2 := ?_; ?_; unfold x; rotate_left; clear_value x) | (lift_lets -underBinder) | apply Keeps.ite | refine Keeps.foldl (fun s x hc => ?_) ?_ | apply State.setNsu_keeps | apply State.jobPlan_keeps

theorem State.nsuStart_keeps   (hs : Keeps s0 s) : Keeps s0 (State.nsuStart s) := by
  unfold State.nsuStart
  repeat' with_reducible first | assumption | (intro x; refine have hx : Keeps s0 x := ?_; ?_; unfold x; rotate_left; clear_value x) | (lift_lets -underBinder) | apply Keeps.ite | apply State.setRegs_keeps | apply State.setNsu_keeps

theorem execSpmv_keeps {cut : JobCut}  (hs : Keeps s0 s) : KeepsO s0 (execSpmv cut s) := by
  unfold execSpmv
  repeat' with_reducible first | assumption | apply KeepsO.next | apply KeepsO.ite | apply State.takeJob_keeps

theorem execSpmvt_keeps {cut : JobCut}  (hs : Keeps s0 s) : KeepsO s0 (execSpmvt cut s) := by
  unfold execSpmvt
  repeat' with_reducible first | assumption | apply KeepsO.next | apply KeepsO.ite | apply State.takeJob_keeps

theorem execDot_keeps {cut : JobCut}  (hs : Keeps s0 s) : KeepsO s0 (execDot cut s) := by
  unfold execDot
  repeat' with_reducible first | assumption | apply KeepsO.next | apply KeepsO.ite | apply State.takeJob_keeps

theorem execAxpy_keeps {cut : JobCut}  (hs : Keeps s0 s) : KeepsO s0 (execAxpy cut s) := by
  unfold execAxpy
  repeat' with_reducible first | assumption | apply KeepsO.next | apply KeepsO.ite | apply State.takeJob_keeps

theorem execScale_keeps {cut : JobCut}  (hs : Keeps s0 s) : KeepsO s0 (execScale cut s) := by
  unfold execScale
  repeat' with_reducible first | assumption | apply KeepsO.next | apply KeepsO.ite | apply State.takeJob_keeps

theorem execCopy_keeps {cut : JobCut}  (hs : Keeps s0 s) : KeepsO s0 (execCopy cut s) := by
  unfold execCopy
  repeat' with_reducible first | assumption | apply KeepsO.next | apply KeepsO.ite | apply State.takeJob_keeps

theorem execProject_keeps {cut : JobCut}  (hs : Keeps s0 s) : KeepsO s0 (execProject cut s) := by
  unfold execProject
  repeat' with_reducible first | assumption | apply KeepsO.next | apply KeepsO.ite | apply State.takeJob_keeps

theorem execRemap_keeps {cut : JobCut}  (hs : Keeps s0 s) : KeepsO s0 (execRemap cut s) := by
  unfold execRemap
  repeat' with_reducible first | assumption | apply KeepsO.next | apply KeepsO.ite | apply State.takeJob_keeps

theorem execFprint_keeps {cut : JobCut}  (hs : Keeps s0 s) : KeepsO s0 (execFprint cut s) := by
  unfold execFprint
  repeat' with_reducible first | assumption | apply KeepsO.next | apply KeepsO.ite | apply State.takeJob_keeps

theorem execIc0_keeps {cut : JobCut}  (hs : Keeps s0 s) : KeepsO s0 (execIc0 cut s) := by
  unfold execIc0
  repeat' with_reducible first | assumption | apply KeepsO.next | apply KeepsO.ite | apply State.takeJob_keeps

theorem execIldl0_keeps {cut : JobCut}  (hs : Keeps s0 s) : KeepsO s0 (execIldl0 cut s) := by
  unfold execIldl0
  repeat' with_reducible first | assumption | apply KeepsO.next | apply KeepsO.ite | apply State.takeJob_keeps

theorem execPcg_keeps {cut : JobCut}  (hs : Keeps s0 s) : KeepsO s0 (execPcg cut s) := by
  unfold execPcg
  repeat' with_reducible first | assumption | apply KeepsO.next | apply KeepsO.ite | apply State.takeJob_keeps

theorem execMinres_keeps {cut : JobCut}  (hs : Keeps s0 s) : KeepsO s0 (execMinres cut s) := by
  unfold execMinres
  repeat' with_reducible first | assumption | apply KeepsO.next | apply KeepsO.ite | apply State.takeJob_keeps

theorem execBicgstab_keeps {cut : JobCut}  (hs : Keeps s0 s) : KeepsO s0 (execBicgstab cut s) := by
  unfold execBicgstab
  repeat' with_reducible first | assumption | apply KeepsO.next | apply KeepsO.ite | apply State.takeJob_keeps

theorem execPcgne_keeps {cut : JobCut}  (hs : Keeps s0 s) : KeepsO s0 (execPcgne cut s) := by
  unfold execPcgne
  repeat' with_reducible first | assumption | apply KeepsO.next | apply KeepsO.ite | apply State.takeJob_keeps

theorem execNewton_keeps {cut : JobCut}  (hs : Keeps s0 s) : KeepsO s0 (execNewton cut s) := by
  unfold execNewton
  repeat' with_reducible first | assumption | apply KeepsO.next | apply KeepsO.ite | apply State.takeJob_keeps

end Sys2Proof.Machine
end

