-- ==== Sys2Proof/Laws/KeepsBtk.lean ====
section
/-! SUPPORT. `Keeps` for every operation and command of Machine/Btk.lean: the queue stays, free values are drawn once, tables stay
canonical. -/

namespace Sys2Proof.Machine
variable {s0 s : State}

theorem State.setBtk_keeps {f : BtkSt → BtkSt}  (hs : Keeps s0 s) : Keeps s0 (State.setBtk s f) := by
  unfold State.setBtk
  repeat' with_reducible first | assumption | apply Keeps.btk

theorem State.sendObj_keeps {obj gen : Nat} {b : List Byte}  (hs : Keeps s0 s) : Keeps s0 (State.sendObj s obj gen b) := by
  unfold State.sendObj
  repeat' with_reducible first | assumption | (intro x; clear_value x) | (lift_lets -underBinder) | apply Keeps.ite | refine Keeps.foldl (fun s x hc => ?_) ?_ | apply State.plkSend_keeps

theorem State.writeBank_keeps {k : Nat} {c : BtkCopy}  (hs : Keeps s0 s) : Keeps s0 (State.writeBank s k c) := by
  unfold State.writeBank
  repeat' with_reducible first | assumption | (intro x; clear_value x) | (lift_lets -underBinder) | apply Keeps.ite | refine Keeps.foldl (fun s x hc => ?_) ?_ | (intro a b hc) | (intro a hc) | split | dsimp only | apply wf_wrBytes | apply wf_wrN | (refine wf_foldl _ (fun m x w => ?_) _ ?_) | (refine Keeps.dram _ (fun w => ?_) ?_)

theorem State.putState_keeps {a : Nat} {l : List (List Int)}  (hs : Keeps s0 s) : Keeps s0 (State.putState s a l) := by
  unfold State.putState
  repeat' with_reducible first | assumption | apply Keeps.ite | apply wf_wrBytes | (refine Keeps.yard _ (fun w => ?_) ?_)

theorem State.putHdr_keeps {step : Nat} {b : Bool}  (hs : Keeps s0 s) : Keeps s0 (State.putHdr s step b) := by
  unfold State.putHdr
  repeat' with_reducible first | assumption | (intro x; clear_value x) | (lift_lets -underBinder) | apply Keeps.ite | apply wf_wrN | (refine Keeps.yard _ (fun w => ?_) ?_)

theorem State.btkPut_keeps {c : BtkCopy}  (hs : Keeps s0 s) : Keeps s0 (State.btkPut s c) := by
  unfold State.btkPut
  repeat' with_reducible first | assumption | apply State.setBtk_keeps | apply State.writeBank_keeps | apply State.putState_keeps

theorem State.btkSeed_keeps   (hs : Keeps s0 s) : Keeps s0 (State.btkSeed s) := by
  unfold State.btkSeed
  repeat' with_reducible first | assumption | (intro x; clear_value x) | (lift_lets -underBinder) | apply Keeps.ite | apply State.btkPut_keeps | split

theorem State.takeSet_keeps   (hs : Keeps s0 s) : Keeps s0 ((State.takeSet s).2) := by
  unfold State.takeSet
  repeat' with_reducible first | assumption | (intro x; first | (refine have hx : ∀ s a1, Keeps s0 s → Keeps s0 (x s a1) := fun s a1 hc => ?_; ?_; unfold x; rotate_left; clear_value x) | (refine have hx : Keeps s0 x := ?_; ?_; unfold x; rotate_left; clear_value x) | clear_value x) | (lift_lets -underBinder) | apply Keeps.ite | apply State.incReg_keeps | apply State.errc_keeps | split | apply_assumption

theorem execTransportStep_keeps {r : QueueReads}  (hs : Keeps s0 s) : KeepsO s0 (execTransportStep r s) := by
  unfold execTransportStep
  repeat' with_reducible first | assumption | (intro x; first | (refine have hx : Keeps s0 x := ?_; ?_; unfold x; rotate_left; clear_value x) | (refine have hx : Keeps s0 x.2 := ?_; ?_; unfold x; rotate_left; clear_value x) | (have y : Tab Byte := x; clear y) | clear_value x) | (lift_lets -underBinder) | apply KeepsO.next | apply KeepsO.ite | apply Keeps.ite | apply State.setReg_keeps | apply State.incReg_keeps | apply State.irq_keeps | apply State.errc_keeps | apply State.drmCe_keeps | apply State.drmRead_keeps | apply State.setBtk_keeps | apply State.writeBank_keeps | apply State.btkSeed_keeps | apply State.takeSet_keeps | apply State.idle_keeps | apply State.fresh_keeps | split | apply State.putState_keeps

theorem State.btkShow_keeps {c : BtkCopy} {fl : Nat} {us : Word}  (hs : Keeps s0 s) : Keeps s0 (State.btkShow s c fl us) := by
  unfold State.btkShow
  repeat' with_reducible first | assumption | (intro x; clear_value x) | (lift_lets -underBinder) | apply State.setRegs_keeps | apply State.incReg_keeps

theorem wf_putVals (a : Nat) (sp : ArrSpec) (l : List Rat) {m : Tab Byte} (h : Tab.wf byte0 m = true) : Tab.wf byte0 (putVals m a sp l) = true :=
  wf_wrBytes _ _ (wf_wrBytes _ _ h)

theorem wf_putInts (a : Nat) (sp : ArrSpec) (l : List Int) {m : Tab Byte} (h : Tab.wf byte0 m = true) : Tab.wf byte0 (putInts m a sp l) = true :=
  wf_wrBytes _ _ (wf_wrBytes _ _ h)

theorem wf_outYard (sp : List ScaleRec) (a b : Nat) (o : BtkOut) {m : Tab Byte} (h : Tab.wf byte0 m = true) :
    Tab.wf byte0 (outYard sp m a b o) = true :=
  wf_wrBytes _ _ (wf_putVals _ _ _ (wf_putVals _ _ _ (wf_wrBytes _ _ h)))

theorem State.writeOut_keeps {second : Bool} {o : BtkOut}  (hs : Keeps s0 s) : Keeps s0 (State.writeOut s second o) := by
  unfold State.writeOut
  repeat' with_reducible first | apply wf_outYard | assumption | (intro x; clear_value x) | (lift_lets -underBinder) | apply Keeps.ite | apply wf_wrBytes | apply wf_wrN | (refine wf_foldl _ (fun m x w => ?_) _ ?_) | (refine Keeps.yard _ (fun w => ?_) ?_)

theorem execStepCommit_keeps {us : Word}  (hs : Keeps s0 s) : KeepsO s0 (execStepCommit us s) := by
  unfold execStepCommit
  repeat' with_reducible first | assumption | (intro x; first | (refine have hx : Keeps s0 x := ?_; ?_; unfold x; rotate_left; clear_value x) | clear_value x) | (lift_lets -underBinder) | apply KeepsO.next | apply KeepsO.ite | apply Keeps.ite | apply State.irq_keeps | apply State.setBtk_keeps | apply State.sendObj_keeps | apply State.btkShow_keeps | apply State.writeOut_keeps | split | apply State.putHdr_keeps

theorem State.fcFree_keeps {f : FcJob} (hs : Keeps s0 s) : Keeps s0 (State.fcFree s f) := by
  unfold State.fcFree
  exact Keeps.dram _ (fun w => wf_wrBytes _ _ w) (State.putState_keeps (State.fresh_keeps hs))

theorem State.fcKeep_keeps {f : FcJob} {c : BtkCopy} (hs : Keeps s0 s) : Keeps s0 (State.fcKeep s f c) :=
  State.putState_keeps (State.writeBank_keeps hs)

theorem State.fcBegin_keeps (hs : Keeps s0 s) : Keeps s0 (State.fcBegin s) := by
  unfold State.fcBegin
  refine Keeps.ite hs ?_
  split
  · exact State.irq_keeps (State.setReg_keeps hs)
  · extract_lets _ _ _ _ _ u
    exact State.setBtk_keeps (State.setReg_keeps (State.fcFree_keeps (Keeps.yard _ (fun w => wf_wrBytes _ _ w) hs)))

theorem execFcStart_keeps {who : Initiator} {stores : List Store}  (hs : Keeps s0 s) : KeepsO s0 (execFcStart who stores s) := by
  unfold execFcStart
  repeat' with_reducible first | assumption | apply KeepsO.next | apply KeepsO.ite | apply State.gate_keeps | apply State.afterStores_keeps | apply State.fcBegin_keeps | (intro a b hc) | (intro a hc)

theorem State.fcFinish_keeps {why : FcEnd} (hs : Keeps s0 s) : Keeps s0 (State.fcFinish s why) := by
  unfold State.fcFinish
  split
  · exact hs
  · extract_lets a code done u _ _ _ _ _ _ _ v
    have hu : Keeps s0 u := State.irq_keeps (State.setReg_keeps (State.setBtk_keeps hs))
    refine Keeps.ite hu ?_
    have hv : Keeps s0 v := Keeps.yard _ (fun w => wf_foldl _ (fun _ _ w => wf_wrBytes _ _ w) _ w) hu
    exact Keeps.ite (State.fcKeep_keeps hv) hv

theorem State.btkStart_keeps   (hs : Keeps s0 s) : Keeps s0 (State.btkStart s) := by
  unfold State.btkStart
  repeat' with_reducible first | assumption | (intro x; refine have hx : Keeps s0 x := ?_; ?_; unfold x; rotate_left; clear_value x) | (lift_lets -underBinder) | apply State.setReg_keeps | apply State.setBtk_keeps | apply State.btkSeed_keeps | split

theorem State.fcAbort_keeps   (hs : Keeps s0 s) : Keeps s0 (State.fcAbort s) := by
  unfold State.fcAbort
  repeat' with_reducible first | assumption | apply Keeps.ite | apply State.setReg_keeps | apply State.irq_keeps | apply State.setBtk_keeps

theorem State.btkAbandon_keeps   (hs : Keeps s0 s) : Keeps s0 (State.btkAbandon s) := by
  unfold State.btkAbandon
  repeat' with_reducible first | assumption | apply State.setBtk_keeps | apply State.fcAbort_keeps

theorem State.btkLost_keeps   (hs : Keeps s0 s) : Keeps s0 (State.btkLost s) := by
  unfold State.btkLost
  repeat' with_reducible first | assumption | apply State.setBtk_keeps | apply State.fcAbort_keeps

end Sys2Proof.Machine
end

