-- ==== Sys2Proof/Laws/KeepsRun.lean ====
section
/-! SUPPORT. `Keeps` for every operation and command of Machine/Run.lean: the queue stays, free values are drawn once, tables stay
canonical. -/

namespace Sys2Proof.Machine
variable {s0 s : State}

theorem State.setPass_keeps {k : Nat} {p : Pass}  (hs : Keeps s0 s) : Keeps s0 (State.setPass s k p) := by
  unfold State.setPass
  repeat' with_reducible first | assumption | apply Keeps.ite | apply State.setDsq_keeps

theorem State.passEnd_keeps {k : Nat} {p : Pass} {status : Nat}  (hs : Keeps s0 s) : Keeps s0 (State.passEnd s k p status) := by
  unfold State.passEnd
  repeat' with_reducible first | assumption | (intro x; refine have hx : Keeps s0 x := ?_; ?_; unfold x; rotate_left; clear_value x) | (lift_lets -underBinder) | apply Keeps.ite | apply State.setDsq_keeps | apply State.estEnd_keeps | apply State.dspEnd_keeps | apply State.hydEnd_keeps | apply State.setPass_keeps

theorem State.line_keeps {k : Nat} {p : Pass} {ph : SeqPhase} {dl res : Nat} {jobs : List JobArg}  (hs : Keeps s0 s) : Keeps s0 (State.line s k p ph dl res jobs) := by
  unfold State.line
  repeat' with_reducible first | assumption | (intro x; clear_value x) | (lift_lets -underBinder) | apply Keeps.ite | apply State.setPass_keeps

theorem State.submitJob_keeps {k : Nat}  (hs : Keeps s0 s) : Keeps s0 (State.submitJob s k) := by
  unfold State.submitJob
  repeat' with_reducible first | assumption | (intro x; first | (refine have hx : Keeps s0 x := ?_; ?_; unfold x; rotate_left; clear_value x) | clear_value x) | (lift_lets -underBinder) | apply Keeps.ite | apply State.incReg_keeps | apply State.setDsq_keeps | apply State.setPass_keeps | split | (intro a b hc) | (intro a hc) | apply wf_wrBytes | apply wf_wrN | (refine wf_foldl _ (fun m x w => ?_) _ ?_) | (refine Keeps.yard _ (fun w => ?_) ?_)

theorem State.seqPump_keeps   (hs : Keeps s0 s) : Keeps s0 (State.seqPump s) := by
  unfold State.seqPump
  repeat' with_reducible first | assumption | apply State.submitJob_keeps

theorem State.holdSet_keeps {i : Nat}  (hs : Keeps s0 s) : Keeps s0 (State.holdSet s i) := by
  unfold State.holdSet
  repeat' with_reducible first | assumption | apply wf_wrBytes | apply wf_wrN | (refine wf_foldl _ (fun m x w => ?_) _ ?_) | (refine Keeps.yard _ (fun w => ?_) ?_)

theorem State.hydLine_keeps {k : Nat} {p : Pass} {dl : Nat}  (hs : Keeps s0 s) : Keeps s0 (State.hydLine s k p dl) := by
  unfold State.hydLine
  repeat' with_reducible first | assumption | (intro x; clear_value x) | (lift_lets -underBinder) | apply State.line_keeps

end Sys2Proof.Machine
end

