-- ==== Sys2Proof/Laws/KeepsEst.lean ====
section
/-! SUPPORT. `Keeps` for every operation and command of Machine/Est.lean: the queue stays, free values are drawn once, tables stay
canonical. -/

namespace Sys2Proof.Machine
variable {s0 s : State}

theorem State.seqAdopt_keeps   (hs : Keeps s0 s) : Keeps s0 (State.seqAdopt s) := by
  unfold State.seqAdopt
  repeat' with_reducible first | assumption | (intro x; clear_value x) | (lift_lets -underBinder) | apply Keeps.ite | apply State.setDsq_keeps

theorem State.keepEcho_keeps {i : Nat}  (hs : Keeps s0 s) : Keeps s0 (State.keepEcho s i) := by
  unfold State.keepEcho
  repeat' with_reducible first | assumption | (intro x; first | (refine have hx : Keeps s0 x := ?_; ?_; unfold x; rotate_left; clear_value x) | clear_value x) | (lift_lets -underBinder) | apply Keeps.ite | apply State.setReg_keeps | apply State.setDsq_keeps | apply State.sendObj_keeps | split

theorem State.commitRecord_keeps {kind tag next values entries : Nat} {p : Pass} {check : List Nat} {t : State}
    (e : s.commitRecord kind tag p next values entries check = some t) (hs : Keeps s0 s) : Keeps s0 t := by
  unfold State.commitRecord at e
  split at e
  · cases e
  · cases e
    exact State.setDsq_keeps (Keeps.yard _ (wf_wrBytes _ _) hs)

theorem State.estJobs_keeps {p : Pass} {ph : SeqPhase} {jobs : List JobArg}  (hs : Keeps s0 s) : Keeps s0 (State.estJobs s p ph jobs) := by
  unfold State.estJobs
  repeat' with_reducible first | assumption | apply State.line_keeps

theorem State.estEval_keeps {p : Pass}  (hs : Keeps s0 s) : Keeps s0 (State.estEval s p) := by
  unfold State.estEval
  repeat' with_reducible first | assumption | (intro x; first | (refine have hx : Tab.wf byte0 s.yard = true → Tab.wf byte0 x = true := fun w => ?_; ?_; unfold x; rotate_left; clear_value x) | clear_value x) | (lift_lets -underBinder) | apply State.estJobs_keeps | apply_assumption | apply wf_putVals | apply wf_putInts | apply wf_ite | (refine Keeps.yardOf _ hs (fun w => ?_) ?_)

theorem State.estRows_keeps {p : Pass} (hs : Keeps s0 s) : Keeps s0 (s.estRows p) := by
  unfold State.estRows
  exact State.estJobs_keeps (Keeps.yard _ (fun w => wf_wrBytes _ _ (wf_wrBytes _ _ w)) hs)

theorem State.estStep_keeps {p : Pass}  (hs : Keeps s0 s) : Keeps s0 (State.estStep s p) := by
  unfold State.estStep
  repeat' with_reducible first | assumption | (intro x; first | (refine have hx : Tab.wf byte0 s.yard = true → Tab.wf byte0 x = true := fun w => ?_; ?_; unfold x; rotate_left; clear_value x) | (refine have hx : Keeps s0 x := ?_; ?_; unfold x; rotate_left; clear_value x) | clear_value x) | (lift_lets -underBinder) | apply State.estJobs_keeps | (intro a b hc) | (intro a hc) | split | dsimp only | apply_assumption | apply wf_putVals | apply wf_putInts | apply wf_ite | (refine Keeps.yardOf _ hs (fun w => ?_) ?_) | apply wf_wrBytes

theorem State.estAdd_keeps {p : Pass}  (hs : Keeps s0 s) : Keeps s0 (State.estAdd s p) := by
  unfold State.estAdd
  repeat' with_reducible first | assumption | (intro x; clear_value x) | (lift_lets -underBinder) | apply State.estJobs_keeps

theorem State.estNorm_keeps {p : Pass}  (hs : Keeps s0 s) : Keeps s0 (State.estNorm s p) := by
  unfold State.estNorm
  repeat' with_reducible first | assumption | (intro x; clear_value x) | (lift_lets -underBinder) | apply State.estJobs_keeps

theorem State.writeFlow_keeps {p : Pass}  (hs : Keeps s0 s) : Keeps s0 (State.writeFlow s p) := by
  unfold State.writeFlow
  repeat' with_reducible first | assumption | (intro x; first | (refine have hx : Tab.wf byte0 s.yard = true → Tab.wf byte0 x = true := fun w => ?_; ?_; unfold x; rotate_left; clear_value x) | (refine have hx : Keeps s0 x := ?_; ?_; unfold x; rotate_left; clear_value x) | clear_value x) | (lift_lets -underBinder) | apply Keeps.ite | apply State.setDsq_keeps | split | (intro a b hc) | (intro a hc) | dsimp only | apply_assumption | apply wf_putVals | apply wf_putInts | apply wf_ite | (refine Keeps.yardOf _ hs (fun w => ?_) ?_) | apply wf_wrBytes

theorem State.estDone_keeps {p : Pass} (hs : Keeps s0 s) : Keeps s0 (s.estDone p) := by
  unfold State.estDone
  refine Keeps.ite (State.passEnd_keeps hs) ?_
  extract_lets
  split
  · exact State.passEnd_keeps hs
  · rename_i e
    exact State.passEnd_keeps (State.writeFlow_keeps (State.setDsq_keeps
      (State.commitRecord_keeps e (Keeps.yard _ (fun w => wf_wrBytes _ _ (wf_putVals _ _ _ w)) hs))))

theorem State.bdSolve_keeps {p : Pass} {i : Nat}  (hs : Keeps s0 s) : Keeps s0 (State.bdSolve s p i) := by
  unfold State.bdSolve
  repeat' with_reducible first | assumption | (intro x; first | (refine have hx : Tab.wf byte0 s.yard = true → Tab.wf byte0 x = true := fun w => ?_; ?_; unfold x; rotate_left; clear_value x) | (refine have hx : Keeps s0 x := ?_; ?_; unfold x; rotate_left; clear_value x) | clear_value x) | (lift_lets -underBinder) | apply Keeps.ite | apply State.estJobs_keeps | (intro a b hc) | (intro a hc) | apply_assumption | apply wf_putVals | apply wf_putInts | apply wf_ite | (refine Keeps.yardOf _ hs (fun w => ?_) ?_)

theorem State.bdMul_keeps {p : Pass}  (hs : Keeps s0 s) : Keeps s0 (State.bdMul s p) := by
  unfold State.bdMul
  repeat' with_reducible first | assumption | (intro x; clear_value x) | (lift_lets -underBinder) | apply State.estJobs_keeps

theorem State.bdEnd_keeps {p : Pass}  (hs : Keeps s0 s) : Keeps s0 (State.bdEnd s p) := by
  unfold State.bdEnd
  repeat' with_reducible first | assumption | (intro x; first | (refine have hx : Keeps s0 x := ?_; ?_; unfold x; rotate_left; clear_value x) | clear_value x) | (lift_lets -underBinder) | apply Keeps.ite | refine Keeps.foldl (fun s x hc => ?_) ?_ | apply State.setReg_keeps | apply State.irq_keeps | apply State.emit_keeps | apply State.setDsq_keeps | apply State.estEval_keeps | apply State.estDone_keeps | split

theorem State.estLoopEnd_keeps {p : Pass} {status noEst : Nat}  (hs : Keeps s0 s) : Keeps s0 (State.estLoopEnd s p status noEst) := by
  unfold State.estLoopEnd
  repeat' with_reducible first | assumption | (intro x; clear_value x) | (lift_lets -underBinder) | apply Keeps.ite | apply State.passEnd_keeps | apply State.estDone_keeps | apply State.bdSolve_keeps | split

theorem State.estJob_keeps {p : Pass} {j : Job} {cut : Bool} (hs : Keeps s0 s) : Keeps s0 (s.estJob p j cut) := by
  unfold State.estJob
  extract_lets
  split
  · exact Keeps.ite (State.passEnd_keeps hs) (Keeps.ite (State.estEval_keeps (Keeps.yard _ (wf_putInts _ _ _) hs)) (State.hydLine_keeps hs))
  · exact Keeps.ite (State.estLoopEnd_keeps hs) (State.estRows_keeps hs)
  · exact Keeps.ite (State.estLoopEnd_keeps hs) (State.estStep_keeps hs)
  · exact Keeps.ite (State.estAdd_keeps hs) (State.estLoopEnd_keeps hs)
  · exact Keeps.ite (State.estLoopEnd_keeps hs) (State.estNorm_keeps hs)
  · exact Keeps.ite (State.estLoopEnd_keeps hs) (Keeps.ite (State.estLoopEnd_keeps hs)
      (Keeps.ite (State.estLoopEnd_keeps hs) (State.estEval_keeps hs)))
  · exact Keeps.ite (State.estDone_keeps hs) (State.bdMul_keeps hs)
  · refine Keeps.ite (State.estDone_keeps hs) ?_
    extract_lets
    split
    · exact State.bdEnd_keeps hs
    · exact State.bdSolve_keeps hs
  · exact hs

theorem wf_putMat (a : Nat) (sp : ArrSpec) (y : Bool) (c b i : Nat) (l : List (List (Nat × Int))) {m : Tab Byte} (h : Tab.wf byte0 m = true) :
    Tab.wf byte0 (putMat m a sp y c b i l) = true := by
  unfold putMat
  exact wf_wrBytes _ _ (wf_wrBytes _ _ (wf_wrBytes _ _ (wf_wrBytes _ _ h)))

theorem wf_putFac (a k : Nat) (l d i : ArrSpec) (n z : Nat) {m : Tab Byte} (h : Tab.wf byte0 m = true) :
    Tab.wf byte0 (putFac m a k l d i n z) = true := by
  unfold putFac
  exact wf_wrBytes _ _ h

/-- The objects of a hydraulic solve keep the canonical form. -/
theorem wf_hydPut (mb : List Byte) (o : HydObj) (h : List Int) (ins : List (Rat × Rat × Rat × Rat)) {m : Tab Byte} (hm : Tab.wf byte0 m = true) :
    Tab.wf byte0 (hydPut m mb o h ins) = true := by
  unfold hydPut
  exact wf_putFac _ _ _ _ _ _ _ (wf_putMat _ _ _ _ _ _ _ (wf_wrBytes _ _ (wf_wrBytes _ _ (wf_wrBytes _ _ (wf_wrBytes _ _
    (wf_wrBytes _ _ (wf_wrBytes _ _ (wf_wrBytes _ _ (wf_wrBytes _ _ (wf_putInts _ _ _ hm))))))))))

/-- The objects of an estimation pass keep the canonical form. -/
theorem wf_estPut (t : State) (mb : List Byte) (d : SeqDim) (x : List Int) (l : Option (List Int)) (h : Tab.wf byte0 t.yard = true) :
    Tab.wf byte0 (t.estPut mb d x l) = true := by
  have hp := fun (o : List SeqObj) (sp : ArrSpec) (v : List Int) (m : Tab Byte) (hm : Tab.wf byte0 m = true) =>
    wf_foldl (fun m x => putInts m (t.seqAt d x) sp v) (fun m x hm => wf_putInts (t.seqAt d x) sp v hm) o hm
  unfold State.estPut
  cases l with
  | none => exact wf_putInts _ _ _ (wf_putInts _ _ _ (wf_putInts _ _ _ (wf_putInts _ _ _ (hp _ _ _ _ (hp _ _ _ _ (hp _ _ _ _
      (wf_putMat _ _ _ _ _ _ _ (wf_putMat _ _ _ _ _ _ _ h))))))))
  | some l => exact wf_putInts _ _ _ (wf_putInts _ _ _ (wf_putInts _ _ _ (wf_putInts _ _ _ (wf_putInts _ _ _ (hp _ _ _ _ (hp _ _ _ _ (hp _ _ _ _
      (wf_putMat _ _ _ _ _ _ _ (wf_putMat _ _ _ _ _ _ _ h)))))))))

theorem State.estBegin_keeps {p : Pass} (hs : Keeps s0 s) : Keeps s0 (s.estBegin p) := by
  unfold State.estBegin
  have h := fun (m : Tab Byte) (hm : Tab.wf byte0 s.yard = true → Tab.wf byte0 m = true) => Keeps.yard m hm hs
  exact Keeps.ite (State.hydLine_keeps (h _ fun w => wf_hydPut _ _ _ _ (wf_estPut _ _ _ _ _ w)))
    (State.estEval_keeps (h _ fun w => wf_hydPut _ _ _ _ (wf_estPut _ _ _ _ _ w)))

end Sys2Proof.Machine
end

