-- ==== Sys2Proof/Laws/KeepsPlan.lean ====
section
/-! SUPPORT. `Keeps` for every operation and command of Machine/Plan.lean: the queue stays, free values are drawn once, tables stay
canonical. -/

namespace Sys2Proof.Machine
variable {s0 s : State}

theorem State.takeFc_keeps {p : Pass}  (hs : Keeps s0 s) : Keeps s0 ((State.takeFc s p).1) := by
  unfold State.takeFc
  repeat' with_reducible first | assumption | (intro x; first | (refine have hx : Keeps s0 x.2 := ?_; ?_; unfold x; rotate_left; clear_value x) | clear_value x) | (lift_lets -underBinder) | apply State.setReg_keeps | apply State.errc_keeps | apply State.setDsq_keeps | split

/-- The forecast's request keeps the canonical form. -/
theorem wf_fcYard (t : State) (p : Pass) (mb : List Byte) (h : Tab.wf byte0 t.yard = true) : Tab.wf byte0 (t.fcYard p mb) = true := by
  unfold State.fcYard
  exact wf_wrBytes _ _ (wf_wrBytes _ _ (wf_putInts _ _ _ (wf_wrBytes _ _ (wf_foldl _ (fun _ _ w => wf_putInts _ _ _ w) _ h))))

theorem State.dspForecast_keeps {p : Pass} (hs : Keeps s0 s) : Keeps s0 (s.dspForecast p) := by
  have h := State.fcBegin_keeps (State.setPass_keeps (k := 1) (p := { p with phase := .dspForecast }) (State.setReg_keeps (a := R.BTK_FC_ADDR)
    (v := wd (s.seqAt p.dim .fcReq)) (Keeps.yard _ (wf_fcYard s p (s.passMb p)) hs)))
  unfold State.dspForecast
  exact Keeps.ite h (State.passEnd_keeps h)

theorem wf_planVectors (t : State) (mb : List Byte) (d : SeqDim) {m : Tab Byte} (h : Tab.wf byte0 m = true) :
    Tab.wf byte0 (t.planVectors m mb d) = true := by
  unfold State.planVectors
  exact wf_foldl _ (fun _ _ w => wf_putInts _ _ _ w) _ (wf_foldl _ (fun _ _ w => wf_putInts _ _ _ w) _
    (wf_foldl _ (fun _ _ w => wf_putInts _ _ _ w) _ (wf_foldl _ (fun _ _ w => wf_putInts _ _ _ w) _ h)))

/-- The program's matrices keep the canonical form. -/
theorem wf_planMats (t : State) (mb : List Byte) (d : SeqDim) (same : Bool) (k : List (List (Nat × Int)) × List (List (Nat × Int)))
    (sum rows bnds : List (List (Nat × Int))) {m : Tab Byte} (h : Tab.wf byte0 m = true) :
    Tab.wf byte0 (t.planMats m mb d same k sum rows bnds) = true := by
  unfold State.planMats
  exact wf_putMat _ _ _ _ _ _ _ (wf_wrBytes _ _ (wf_wrBytes _ _ (wf_wrBytes _ _ (wf_putMat _ _ _ _ _ _ _
    (have hm := wf_ite (wf_wrBytes _ _ (wf_ite (wf_wrBytes _ _ (wf_ite (wf_wrBytes _ _ (wf_wrBytes _ _ h))
      (wf_putMat _ _ _ _ _ _ _ (wf_wrBytes _ _ h)))) (wf_putMat _ _ _ _ _ _ _ (wf_ite (wf_wrBytes _ _ (wf_wrBytes _ _ h))
      (wf_putMat _ _ _ _ _ _ _ (wf_wrBytes _ _ h)))))) (wf_putMat _ _ _ _ _ _ _ (wf_ite (wf_wrBytes _ _ (wf_ite (wf_wrBytes _ _ (wf_wrBytes _ _ h))
      (wf_putMat _ _ _ _ _ _ _ (wf_wrBytes _ _ h)))) (wf_putMat _ _ _ _ _ _ _ (wf_ite (wf_wrBytes _ _ (wf_wrBytes _ _ h))
      (wf_putMat _ _ _ _ _ _ _ (wf_wrBytes _ _ h))))))
    wf_ite hm (wf_putFac _ _ _ _ _ _ _ hm))))))

/-- The program's vectors keep the canonical form. -/
theorem wf_planVals (t : State) (mb : List Byte) (d : SeqDim) (p : Pass) (x : List Rat) (prog : List (List (Nat × Rat) × Rat × Rat)) {m : Tab Byte}
    (h : Tab.wf byte0 m = true) : Tab.wf byte0 (t.planVals m mb d p x prog) = true := by
  unfold State.planVals
  exact wf_putInts _ _ _ (wf_putInts _ _ _ (wf_putVals _ _ _ (wf_putVals _ _ _ (wf_wrBytes _ _ (wf_putVals _ _ _ (wf_putVals _ _ _
    (wf_putVals _ _ _ (wf_putVals _ _ _ (wf_planVectors _ _ _ h)))))))))

theorem State.dspBuild_keeps {p : Pass} {heads : List Rat} (hs : Keeps s0 s) : Keeps s0 (s.dspBuild p heads) := by
  unfold State.dspBuild
  exact Keeps.ite (State.passEnd_keeps (State.errc_keeps hs)) (Keeps.ite (State.passEnd_keeps (State.errc_keeps hs))
    (State.line_keeps (State.setDsq_keeps (Keeps.yard _ (fun w => wf_planVals _ _ _ _ _ _ (wf_planMats _ _ _ _ _ _ _ _ w)) hs))))

theorem State.dspJobs_keeps {p : Pass} {ph : SeqPhase} {jobs : List JobArg}  (hs : Keeps s0 s) : Keeps s0 (State.dspJobs s p ph jobs) := by
  unfold State.dspJobs
  repeat' with_reducible first | assumption | apply State.line_keeps

theorem State.dspRhs_keeps {p : Pass}  (hs : Keeps s0 s) : Keeps s0 (State.dspRhs s p) := by
  unfold State.dspRhs
  repeat' with_reducible first | assumption | (intro x; clear_value x) | (lift_lets -underBinder) | apply State.dspJobs_keeps

theorem State.dspFactor_keeps {p : Pass}  (hs : Keeps s0 s) : Keeps s0 (State.dspFactor s p) := by
  unfold State.dspFactor
  repeat' with_reducible first | assumption | (intro x; clear_value x) | (lift_lets -underBinder) | apply Keeps.ite | apply State.dspJobs_keeps | apply State.dspRhs_keeps

/-- The iterate kept keeps the canonical form as the first one. -/
theorem wf_warmYard (t : State) (mb : List Byte) (d : SeqDim) (k : KeptIter) (n : Nat) (h : Tab.wf byte0 t.yard = true) :
    Tab.wf byte0 (t.warmYard mb d k n) = true := by
  unfold State.warmYard
  exact wf_wrBytes _ _ (wf_putInts _ _ _ (wf_putInts _ _ _ (wf_putInts _ _ _ (wf_putInts _ _ _ h))))

/-- The sources of the REMAP jobs keep the canonical form. -/
theorem wf_remapYard (t : State) (mb : List Byte) (d : SeqDim) (k : KeptIter) (h : Tab.wf byte0 t.yard = true) :
    Tab.wf byte0 (t.remapYard mb d k) = true := by
  unfold State.remapYard
  exact wf_wrBytes _ _ (wf_wrBytes _ _ (wf_wrBytes _ _ (wf_wrBytes _ _ (wf_wrBytes _ _ h))))

theorem State.dspWarm_keeps {p : Pass} (hs : Keeps s0 s) : Keeps s0 (s.dspWarm p) := by
  unfold State.dspWarm
  extract_lets
  split
  · exact State.dspJobs_keeps hs
  · exact Keeps.ite (State.dspFactor_keeps (Keeps.yard _ (wf_warmYard s _ _ _ _) hs)) (State.dspJobs_keeps (Keeps.yard _ (wf_remapYard s _ _ _) hs))

theorem State.dspPcg_keeps {p : Pass}  (hs : Keeps s0 s) : Keeps s0 (State.dspPcg s p) := by
  unfold State.dspPcg
  repeat' with_reducible first | assumption | (intro x; clear_value x) | (lift_lets -underBinder) | apply Keeps.ite | apply State.dspJobs_keeps

theorem State.dspUpdate_keeps {p : Pass}  (hs : Keeps s0 s) : Keeps s0 (State.dspUpdate s p) := by
  unfold State.dspUpdate
  repeat' with_reducible first | assumption | (intro x; clear_value x) | (lift_lets -underBinder) | apply State.dspJobs_keeps

theorem State.dspNorm_keeps {p : Pass}  (hs : Keeps s0 s) : Keeps s0 (State.dspNorm s p) := by
  unfold State.dspNorm
  repeat' with_reducible first | assumption | (intro x; clear_value x) | (lift_lets -underBinder) | apply State.dspJobs_keeps

theorem State.keepIter_keeps {p : Pass}  (hs : Keeps s0 s) : Keeps s0 (State.keepIter s p) := by
  unfold State.keepIter
  repeat' with_reducible first | assumption | (intro x; clear_value x) | (lift_lets -underBinder) | apply Keeps.ite | apply State.setDsq_keeps | apply State.sendObj_keeps

theorem State.dspFail_keeps {p : Pass} {status : Nat}  (hs : Keeps s0 s) : Keeps s0 (State.dspFail s p status) := by
  unfold State.dspFail
  repeat' with_reducible first | assumption | apply State.passEnd_keeps | apply State.keepIter_keeps

theorem State.dspSolveEnd_keeps {p : Pass} {status : Nat}  (hs : Keeps s0 s) : Keeps s0 (State.dspSolveEnd s p status) := by
  unfold State.dspSolveEnd
  repeat' with_reducible first | assumption | (intro x; clear_value x) | (lift_lets -underBinder) | apply Keeps.ite | apply State.line_keeps | apply State.dspFail_keeps

theorem State.dspIterated_keeps {p : Pass}  (hs : Keeps s0 s) : Keeps s0 (State.dspIterated s p) := by
  unfold State.dspIterated
  repeat' with_reducible first | assumption | (intro x; clear_value x) | (lift_lets -underBinder) | apply Keeps.ite | apply State.dspRhs_keeps | apply State.dspFactor_keeps | apply State.dspSolveEnd_keeps

/-- The plan's objects keep the canonical form. -/
theorem wf_planYard (t : State) (p : Pass) (mb : List Byte) (l : List Int) (h : Tab.wf byte0 t.yard = true) : Tab.wf byte0 (t.planYard p mb l) = true := by
  unfold State.planYard
  exact wf_wrBytes _ _ (wf_putInts _ _ _ (wf_putInts _ _ _ (wf_putInts _ _ _ (wf_putInts _ _ _ h))))

theorem State.dspDone_keeps {p : Pass} (hs : Keeps s0 s) : Keeps s0 (s.dspDone p) := by
  unfold State.dspDone
  extract_lets
  refine Keeps.ite (Keeps.ite (State.dspWarm_keeps hs) (State.dspFail_keeps hs)) ?_
  extract_lets
  split
  · exact State.passEnd_keeps (State.keepIter_keeps hs)
  · rename_i e
    exact State.setDsq_keeps (State.passEnd_keeps (State.commitRecord_keeps e (Keeps.yard _ (wf_planYard _ _ _ _) (State.keepIter_keeps hs))))

theorem State.dspJob_keeps {p : Pass} {j : Job} {cut : Bool}  (hs : Keeps s0 s) : Keeps s0 (State.dspJob s p j cut) := by
  unfold State.dspJob
  repeat' with_reducible first | (intro x; refine have hx : ∀ p, Keeps s0 (x p) := fun p => ?_; ?_; unfold x; rotate_left; clear_value x) | apply_assumption | assumption | (intro x; clear_value x) | (lift_lets -underBinder) | apply Keeps.ite | apply State.setDsq_keeps | apply State.dspRhs_keeps | apply State.dspFactor_keeps | apply State.dspWarm_keeps | apply State.dspPcg_keeps | apply State.dspUpdate_keeps | apply State.dspNorm_keeps | apply State.dspFail_keeps | apply State.dspSolveEnd_keeps | apply State.dspIterated_keeps | apply State.dspDone_keeps | split

theorem State.hydBegin_keeps {p : Pass} (hs : Keeps s0 s) : Keeps s0 (s.hydBegin p) := by
  unfold State.hydBegin
  exact State.hydLine_keeps (Keeps.yard _ (fun w => wf_hydPut _ _ _ _ w) hs)

theorem State.hydDone_keeps {p : Pass}  (hs : Keeps s0 s) : Keeps s0 (State.hydDone s p) := by
  unfold State.hydDone
  repeat' with_reducible first | assumption | (intro x; first | (refine have hx : Keeps s0 x := ?_; ?_; unfold x; rotate_left; clear_value x) | clear_value x) | (lift_lets -underBinder) | apply Keeps.ite | apply State.setFlag_keeps | apply State.emit_keeps | apply State.setDsq_keeps | apply State.hydEnd_keeps | apply State.setPass_keeps

theorem State.hydJob_keeps {p : Pass} {j : Job} {cut : Bool}  (hs : Keeps s0 s) : Keeps s0 (State.hydJob s p j cut) := by
  unfold State.hydJob
  repeat' with_reducible first | assumption | (intro x; clear_value x) | (lift_lets -underBinder) | apply Keeps.ite | apply State.passEnd_keeps | apply State.hydLine_keeps | apply State.hydDone_keeps

end Sys2Proof.Machine
end

