-- ==== Sys2Proof/Laws/KeepsDsq.lean ====
section
/-! SUPPORT. `Keeps` for every operation and command of Machine/Dsq.lean: the queue stays, free values are drawn once, tables stay
canonical. -/

namespace Sys2Proof.Machine
variable {s0 s : State}

theorem State.countSkip_keeps {h : Nat}  (hs : Keeps s0 s) : Keeps s0 (State.countSkip s h) := by
  unfold State.countSkip
  repeat' with_reducible first | assumption | apply State.setReg_keeps

theorem State.showHeld_keeps   (hs : Keeps s0 s) : Keeps s0 (State.showHeld s) := by
  unfold State.showHeld
  repeat' with_reducible first | assumption | apply State.setReg_keeps

theorem State.notActing_keeps   (hs : Keeps s0 s) : Keeps s0 (State.notActing s) := by
  unfold State.notActing
  repeat' with_reducible first | assumption | apply State.setDsq_keeps

theorem State.estStale_keeps   (hs : Keeps s0 s) : Keeps s0 (State.estStale s) := by
  unfold State.estStale
  repeat' with_reducible first | assumption | apply Keeps.ite | apply State.irq_keeps | apply State.emit_keeps | apply State.setDsq_keeps | apply State.estEnd_keeps

theorem execEstPass_keeps   (hs : Keeps s0 s) : KeepsO s0 (execEstPass s) := by
  unfold execEstPass
  repeat' with_reducible first | assumption | (intro x; first | (refine have hx : Keeps s0 x := ?_; ?_; unfold x; rotate_left; clear_value x) | clear_value x) | (lift_lets -underBinder) | apply KeepsO.next | apply KeepsO.ite | apply Keeps.ite | apply State.incReg_keeps | apply State.setFlag_keeps | apply State.errc_keeps | apply State.setDsq_keeps | apply State.estEnd_keeps | apply State.mdlTake_keeps | apply State.seqPump_keeps | apply State.holdSet_keeps | apply State.seqAdopt_keeps | apply State.keepEcho_keeps | apply State.estBegin_keeps | apply State.countSkip_keeps | apply State.showHeld_keeps | apply State.notActing_keeps | apply State.estStale_keeps | split

theorem State.dspStart_keeps   (hs : Keeps s0 s) : Keeps s0 (State.dspStart s) := by
  unfold State.dspStart
  repeat' with_reducible first | assumption | (intro x; first | (refine have hx : Keeps s0 x := ?_; ?_; unfold x; rotate_left; clear_value x) | (refine have hx : Keeps s0 x.1 := ?_; ?_; unfold x; rotate_left; clear_value x) | clear_value x) | (lift_lets -underBinder) | apply Keeps.ite | apply State.incReg_keeps | apply State.setFlag_keeps | apply State.errc_keeps | apply State.setDsq_keeps | apply State.dspEnd_keeps | apply State.seqPump_keeps | apply State.holdSet_keeps | apply State.seqAdopt_keeps | apply State.keepEcho_keeps | apply State.takeFc_keeps | apply State.dspForecast_keeps | split

theorem execDspPass_keeps   (hs : Keeps s0 s) : KeepsO s0 (execDspPass s) := by
  unfold execDspPass
  repeat' with_reducible first | assumption | apply KeepsO.next | apply KeepsO.ite | apply Keeps.ite | apply State.countSkip_keeps | apply State.notActing_keeps | apply State.dspStart_keeps

theorem execDspNow_keeps {who : Initiator}  (hs : Keeps s0 s) : KeepsO s0 (execDspNow who s) := by
  unfold execDspNow
  repeat' with_reducible first | assumption | apply KeepsO.next | apply KeepsO.ite | apply Keeps.ite | apply State.emit_keeps | apply State.gate_keeps | apply State.dspStart_keeps | (intro a b hc) | (intro a hc)

theorem execHydPass_keeps   (hs : Keeps s0 s) : KeepsO s0 (execHydPass s) := by
  unfold execHydPass
  repeat' with_reducible first | assumption | (intro x; first | (refine have hx : Keeps s0 x := ?_; ?_; unfold x; rotate_left; clear_value x) | clear_value x) | (lift_lets -underBinder) | apply KeepsO.next | apply KeepsO.ite | apply Keeps.ite | apply State.setFlag_keeps | apply State.errc_keeps | apply State.setDsq_keeps | apply State.seqPump_keeps | apply State.hydBegin_keeps | split

theorem State.seqJob_keeps {j : Job}  (hs : Keeps s0 s) : Keeps s0 (State.seqJob s j) := by
  unfold State.seqJob
  repeat' with_reducible first | assumption | (intro x; clear_value x) | (lift_lets -underBinder) | apply Keeps.ite | apply State.setPass_keeps | apply State.passEnd_keeps | apply State.estJob_keeps | apply State.dspFail_keeps | apply State.dspJob_keeps | apply State.hydJob_keeps | split

theorem execJobEnd_keeps {i : Nat} {iterNs : Word} {fixed core : List Word}  (hs : Keeps s0 s) : KeepsO s0 (execJobEnd i iterNs fixed core s) := by
  unfold execJobEnd
  repeat' with_reducible first | assumption | apply KeepsO.next | apply KeepsO.ite | apply Keeps.ite | apply State.jobFinish_keeps | apply State.jobMet_keeps | apply State.yardFixed_keeps | apply State.seqPump_keeps | apply State.seqJob_keeps | split

theorem State.forecastOver_keeps {code : Nat}  (hs : Keeps s0 s) : Keeps s0 (State.forecastOver s code) := by
  unfold State.forecastOver
  repeat' with_reducible first | assumption | (intro x; clear_value x) | (lift_lets -underBinder) | apply Keeps.ite | apply State.passEnd_keeps | apply State.seqPump_keeps | apply State.dspForecast_keeps | apply State.dspBuild_keeps | split

theorem execForecastEnd_keeps {why : FcEnd}  (hs : Keeps s0 s) : KeepsO s0 (execForecastEnd why s) := by
  unfold execForecastEnd
  repeat' with_reducible first | assumption | apply KeepsO.next | apply KeepsO.ite | apply Keeps.ite | apply State.fcFinish_keeps | apply State.forecastOver_keeps

theorem execFcCancel_keeps {who : Initiator}  (hs : Keeps s0 s) : KeepsO s0 (execFcCancel who s) := by
  unfold execFcCancel
  repeat' with_reducible first | assumption | apply KeepsO.next | apply KeepsO.ite | apply Keeps.ite | apply State.setReg_keeps | apply State.irq_keeps | apply State.gate_keeps | apply State.setBtk_keeps | apply State.forecastOver_keeps | (intro a b hc) | (intro a hc)

theorem State.dsqStop_keeps   (hs : Keeps s0 s) : Keeps s0 (State.dsqStop s) := by
  unfold State.dsqStop
  repeat' with_reducible first | assumption | apply State.passesStopped_keeps | apply State.mdlTake_keeps

end Sys2Proof.Machine
end

