-- ==== Sys2Proof/Laws/KeepsRtc.lean ====
section
/-! SUPPORT. `Keeps` for every operation and command of Machine/Rtc.lean: the queue stays, free values are drawn once, tables stay
canonical. -/

namespace Sys2Proof.Machine
variable {s0 s : State}

theorem State.rtcEvt_keeps {i : Nat}  (hs : Keeps s0 s) : Keeps s0 (State.rtcEvt s i) := by
  unfold State.rtcEvt
  repeat' with_reducible first | assumption | (intro x; first | (refine have hx : Keeps s0 x := ?_; ?_; unfold x; rotate_left; clear_value x) | clear_value x) | (lift_lets -underBinder) | apply Keeps.ite | apply State.setFlag_keeps | apply State.irq_keeps

theorem State.setSub_keeps {p : Nat}  (hs : Keeps s0 s) : Keeps s0 (State.setSub s p) := by
  unfold State.setSub
  repeat' with_reducible first | assumption | apply State.setFld_keeps | apply Keeps.rtc

theorem State.oscRun_keeps {n : Nat}  (hs : Keeps s0 s) : Keeps s0 (State.oscRun s n) := by
  unfold State.oscRun
  repeat' with_reducible first | assumption | apply State.setSub_keeps

theorem State.rtcRun_keeps   (hs : Keeps s0 s) : Keeps s0 (State.rtcRun s) := by
  unfold State.rtcRun
  repeat' with_reducible first | assumption | (intro x; refine have hx : Keeps s0 x.2 := ?_; ?_; unfold x; rotate_left; clear_value x) | (lift_lets -underBinder) | apply State.fresh_keeps | apply State.oscRun_keeps

theorem execRtcSecond_keeps   (hs : Keeps s0 s) : KeepsO s0 (execRtcSecond s) := by
  unfold execRtcSecond
  repeat' with_reducible first | assumption | (intro x; clear_value x) | (lift_lets -underBinder) | apply KeepsO.next | apply KeepsO.ite | apply Keeps.ite | apply State.setReg_keeps | apply State.setFlag_keeps | apply State.rtcEvt_keeps | apply State.setSub_keeps

theorem execWake_keeps   (hs : Keeps s0 s) : KeepsO s0 (execWake s) := by
  unfold execWake
  repeat' with_reducible first | assumption | apply KeepsO.next | apply KeepsO.ite | apply Keeps.ite | apply State.rtcEvt_keeps

theorem execWakePeriod_keeps {who : Initiator} {val : Word}  (hs : Keeps s0 s) : KeepsO s0 (execWakePeriod who val s) := by
  unfold execWakePeriod
  repeat' with_reducible first | assumption | (intro x; clear_value x) | (lift_lets -underBinder) | apply KeepsO.next | apply KeepsO.ite | apply Keeps.ite | apply State.setReg_keeps | apply State.errc_keeps | apply State.gate_keeps | (intro a b hc) | (intro a hc)

theorem State.freeze_keeps   (hs : Keeps s0 s) : Keeps s0 (State.freeze s) := by
  unfold State.freeze
  repeat' with_reducible first | assumption | (intro x; first | (refine have hx : Keeps s0 x := ?_; ?_; unfold x; rotate_left; clear_value x) | clear_value x) | (lift_lets -underBinder) | apply Keeps.ite | apply State.setFlag_keeps | apply State.rtcRun_keeps | apply Keeps.rtc

theorem execTimeRead_keeps {who : Initiator} {one : Bool}  (hs : Keeps s0 s) : KeepsO s0 (execTimeRead who one s) := by
  unfold execTimeRead
  repeat' with_reducible first | assumption | (intro x; first | (refine have hx : Keeps s0 x := ?_; ?_; unfold x; rotate_left; clear_value x) | clear_value x) | (lift_lets -underBinder) | apply KeepsO.next | apply KeepsO.ite | apply Keeps.ite | apply State.answer_keeps | apply State.rgate_keeps | apply State.freeze_keeps | (intro a b hc) | (intro a hc)

theorem execTime2Read_keeps {who : Initiator}  (hs : Keeps s0 s) : KeepsO s0 (execTime2Read who s) := by
  unfold execTime2Read
  repeat' with_reducible first | assumption | (intro x; first | (refine have hx : Keeps s0 x := ?_; ?_; unfold x; rotate_left; clear_value x) | clear_value x) | (lift_lets -underBinder) | apply KeepsO.next | apply KeepsO.ite | apply State.setFlag_keeps | apply State.answer_keeps | apply State.rgate_keeps | apply State.freeze_keeps | (intro a b hc) | (intro a hc)

theorem execRdTimeout_keeps   (hs : Keeps s0 s) : KeepsO s0 (execRdTimeout s) := by
  unfold execRdTimeout
  repeat' with_reducible first | assumption | apply KeepsO.next | apply KeepsO.ite | apply Keeps.ite | apply State.setFlag_keeps | apply State.rtcEvt_keeps

theorem execCommitGo_keeps {who : Initiator}  (hs : Keeps s0 s) : KeepsO s0 (execCommitGo who s) := by
  unfold execCommitGo
  repeat' with_reducible first | assumption | apply KeepsO.next | apply KeepsO.ite | apply Keeps.ite | apply State.setFlag_keeps | apply State.errc_keeps | apply State.gate_keeps | split | (intro a b hc) | (intro a hc) | apply Keeps.rtc

theorem execCommitLoad_keeps   (hs : Keeps s0 s) : KeepsO s0 (execCommitLoad s) := by
  unfold execCommitLoad
  repeat' with_reducible first | assumption | (intro x; first | (refine have hx : Keeps s0 x := ?_; ?_; unfold x; rotate_left; clear_value x) | clear_value x) | (lift_lets -underBinder) | apply KeepsO.next | apply KeepsO.ite | apply Keeps.ite | apply State.setReg_keeps | apply State.emit_keeps | apply State.rtcRun_keeps

theorem execBackupSwitch_keeps {toBat : Bool}  (hs : Keeps s0 s) : KeepsO s0 (execBackupSwitch toBat s) := by
  unfold execBackupSwitch
  repeat' with_reducible first | assumption | (intro x; refine have hx : Keeps s0 x := ?_; ?_; unfold x; rotate_left; clear_value x) | (lift_lets -underBinder) | apply KeepsO.next | apply KeepsO.ite | apply Keeps.ite | apply State.setFlag_keeps | apply State.irq_keeps | apply State.rtcEvt_keeps

theorem execBatLow_keeps {below : Bool}  (hs : Keeps s0 s) : KeepsO s0 (execBatLow below s) := by
  unfold execBatLow
  repeat' with_reducible first | assumption | apply KeepsO.next | apply KeepsO.ite | apply State.setFlag_keeps

theorem execRetLost_keeps   (hs : Keeps s0 s) : KeepsO s0 (execRetLost s) := by
  unfold execRetLost
  repeat' with_reducible first | assumption | apply KeepsO.next | apply KeepsO.ite | apply State.rtcEvt_keeps

theorem State.rtcCleared_keeps (hs : Keeps s0 s) : Keeps s0 s.rtcCleared := by
  unfold State.rtcCleared
  exact hs.of rfl (Nat.le_refl _) fun c => c

theorem State.rtcWake_keeps   (hs : Keeps s0 s) : Keeps s0 (State.rtcWake s) := by
  unfold State.rtcWake
  repeat' with_reducible first | assumption | (intro x; first | (refine have hx : Keeps s0 x := ?_; ?_; unfold x; rotate_left; clear_value x) | clear_value x) | (lift_lets -underBinder) | apply Keeps.ite | refine Keeps.foldl (fun s x hc => ?_) ?_ | apply State.setReg_keeps | apply State.setPage_keeps | apply State.irq_keeps | apply State.errc_keeps | apply State.emitSev_keeps | apply State.rtcCleared_keeps

theorem execTrimWindow_keeps {lockedThroughout : Bool} {elapsedNs : Nat}  (hs : Keeps s0 s) : KeepsO s0 (execTrimWindow lockedThroughout elapsedNs s) := by
  unfold execTrimWindow
  repeat' with_reducible first | assumption | (intro x; clear_value x) | (lift_lets -underBinder) | apply KeepsO.next | apply KeepsO.ite | apply Keeps.ite | apply State.setReg_keeps | apply State.setFld_keeps

end Sys2Proof.Machine
end

