-- ==== Sys2Proof/Laws/KeepsPnl.lean ====
section
/-! SUPPORT. `Keeps` for every operation and command of Machine/Pnl.lean: the queue stays, free values are drawn once, tables stay
canonical. -/

namespace Sys2Proof.Machine
variable {s0 s : State}

theorem State.freeSlots_keeps   (hs : Keeps s0 s) : Keeps s0 (State.freeSlots s) := by
  unfold State.freeSlots
  repeat' with_reducible first | assumption | (intro x; first | (refine have hx : Keeps s0 x := ?_; ?_; unfold x; rotate_left; clear_value x) | clear_value x) | (lift_lets -underBinder) | apply Keeps.ite | refine Keeps.foldl (fun s x hc => ?_) ?_ | apply State.setReg_keeps | apply State.setFlag_keeps | apply State.irq_keeps

theorem State.setDirty_keeps {d : List Nat}  (hs : Keeps s0 s) : Keeps s0 (State.setDirty s d) := by
  unfold State.setDirty
  repeat' with_reducible first | assumption | apply State.setReg_keeps | apply Keeps.pnl

theorem State.cleanTiles_keeps   (hs : Keeps s0 s) : Keeps s0 (State.cleanTiles s) := by
  unfold State.cleanTiles
  repeat' with_reducible first | assumption | (intro x; first | (have y : Tab Byte := x; clear y) | clear_value x) | (lift_lets -underBinder) | refine Keeps.foldl (fun s x hc => ?_) ?_ | apply State.setDirty_keeps | apply State.idle_keeps | (intro a b hc) | (intro a hc) | split | dsimp only | apply Keeps.pnl

theorem State.railsNeed_keeps   (hs : Keeps s0 s) : Keeps s0 (State.railsNeed s) := by
  unfold State.railsNeed
  repeat' with_reducible first | assumption | apply Keeps.ite | apply Keeps.pnl

theorem State.railsDrop_keeps   (hs : Keeps s0 s) : Keeps s0 (State.railsDrop s) := by
  unfold State.railsDrop
  repeat' with_reducible first | assumption | apply Keeps.ite | apply Keeps.pnl

theorem execPnlFrame_keeps   (hs : Keeps s0 s) : KeepsO s0 (execPnlFrame s) := by
  unfold execPnlFrame
  repeat' with_reducible first | assumption | (intro x; first | (refine have hx : Keeps s0 x := ?_; ?_; unfold x; rotate_left; clear_value x) | clear_value x) | (lift_lets -underBinder) | apply KeepsO.next | apply KeepsO.ite | apply Keeps.ite | apply State.incReg_keeps | apply State.freeSlots_keeps | apply State.cleanTiles_keeps | (intro a b hc) | (intro a hc) | apply Keeps.pnl

theorem execRailUpDone_keeps   (hs : Keeps s0 s) : KeepsO s0 (execRailUpDone s) := by
  unfold execRailUpDone
  repeat' with_reducible first | assumption | apply KeepsO.next | apply KeepsO.ite | apply Keeps.ite | apply State.setReg_keeps | apply Keeps.pnl

theorem execRailDownDone_keeps   (hs : Keeps s0 s) : KeepsO s0 (execRailDownDone s) := by
  unfold execRailDownDone
  repeat' with_reducible first | assumption | (intro x; first | (refine have hx : Keeps s0 x := ?_; ?_; unfold x; rotate_left; clear_value x) | clear_value x) | (lift_lets -underBinder) | apply KeepsO.next | apply KeepsO.ite | apply Keeps.ite | apply State.setReg_keeps | apply State.railsNeed_keeps | apply Keeps.pnl

theorem execRailIdle_keeps   (hs : Keeps s0 s) : KeepsO s0 (execRailIdle s) := by
  unfold execRailIdle
  repeat' with_reducible first | assumption | apply KeepsO.next | apply KeepsO.ite | apply Keeps.ite | apply State.railsDrop_keeps

theorem State.dropWaves_keeps   (hs : Keeps s0 s) : Keeps s0 (State.dropWaves s) := by
  unfold State.dropWaves
  repeat' with_reducible first | assumption | apply State.setRegs_keeps | (intro a b hc) | (intro a hc) | apply Keeps.pnl

theorem State.dirtyPut_keeps {seq : Nat} {d : List Nat}  (hs : Keeps s0 s) : Keeps s0 (State.dirtyPut s seq d) := by
  unfold State.dirtyPut
  repeat' with_reducible first | assumption | apply Keeps.pwr

theorem State.dirtyItem_keeps {seq : Nat}  (hs : Keeps s0 s) : Keeps s0 (State.dirtyItem s seq) := by
  unfold State.dirtyItem
  repeat' with_reducible first | assumption | apply Keeps.ite | apply State.dirtyPut_keeps | split

theorem State.commitDirty_keeps   (hs : Keeps s0 s) : Keeps s0 (State.commitDirty s) := by
  unfold State.commitDirty
  repeat' with_reducible first | assumption | (intro x; first | (refine have hx : Keeps s0 x := ?_; ?_; unfold x; rotate_left; clear_value x) | clear_value x) | (lift_lets -underBinder) | apply State.dirtyItem_keeps | apply Keeps.pwr

theorem State.pnlStop_keeps   (hs : Keeps s0 s) : Keeps s0 (State.pnlStop s) := by
  unfold State.pnlStop
  repeat' with_reducible first | assumption | apply State.railsDrop_keeps | apply State.dropWaves_keeps | apply State.commitDirty_keeps

theorem execRailFault_keeps {rail : Fin 4}  (hs : Keeps s0 s) : KeepsO s0 (execRailFault rail s) := by
  unfold execRailFault
  repeat' with_reducible first | assumption | apply KeepsO.next | apply KeepsO.ite | apply Keeps.ite | apply State.irq_keeps | apply State.fail_keeps | apply State.railsDrop_keeps | apply State.dropWaves_keeps

theorem execWfBegin_keeps {who : Initiator}  (hs : Keeps s0 s) : KeepsO s0 (execWfBegin who s) := by
  unfold execWfBegin
  repeat' with_reducible first | assumption | apply KeepsO.next | apply KeepsO.ite | apply Keeps.ite | apply State.setReg_keeps | apply State.gate_keeps | (intro a b hc) | (intro a hc) | apply Keeps.pnl

theorem execWfData_keeps {who : Initiator} {val : Word}  (hs : Keeps s0 s) : KeepsO s0 (execWfData who val s) := by
  unfold execWfData
  repeat' with_reducible first | assumption | (intro x; clear_value x) | (lift_lets -underBinder) | apply KeepsO.next | apply KeepsO.ite | apply Keeps.ite | apply State.setReg_keeps | apply State.gate_keeps | (intro a b hc) | (intro a hc) | apply Keeps.pnl

theorem execWfEnd_keeps {who : Initiator}  (hs : Keeps s0 s) : KeepsO s0 (execWfEnd who s) := by
  unfold execWfEnd
  repeat' with_reducible first | assumption | apply KeepsO.next | apply KeepsO.ite | apply Keeps.ite | apply State.setReg_keeps | apply State.irq_keeps | apply State.errc_keeps | apply State.gate_keeps | split | (intro a b hc) | (intro a hc) | apply Keeps.pnl

theorem execWfAbort_keeps {who : Initiator}  (hs : Keeps s0 s) : KeepsO s0 (execWfAbort who s) := by
  unfold execWfAbort
  repeat' with_reducible first | assumption | apply KeepsO.next | apply KeepsO.ite | apply Keeps.ite | apply State.setReg_keeps | apply State.irq_keeps | apply State.gate_keeps | (intro a b hc) | (intro a hc) | apply Keeps.pnl

theorem State.updApply_keeps {k : Fin 4} {clear : Bool} {x y w h src : Nat}  (hs : Keeps s0 s) : Keeps s0 (State.updApply s k clear x y w h src) := by
  unfold State.updApply
  repeat' with_reducible first | assumption | (intro x; first | (refine have hx : Keeps s0 x := ?_; ?_; unfold x; rotate_left; clear_value x) | (have y : Tab Byte := x; clear y) | clear_value x) | (lift_lets -underBinder) | apply Keeps.ite | refine Keeps.foldl (fun s x hc => ?_) ?_ | apply State.setReg_keeps | apply State.setFlag_keeps | apply State.freeSlots_keeps | apply State.setDirty_keeps | apply State.railsNeed_keeps | (intro a b hc) | (intro a hc) | split | dsimp only | apply Keeps.pnl

theorem State.update_keeps {clear full : Bool}  (hs : Keeps s0 s) : Keeps s0 (State.update s clear full) := by
  unfold State.update
  repeat' with_reducible first | assumption | (intro x; clear_value x) | (lift_lets -underBinder) | apply Keeps.ite | apply State.setReg_keeps | apply State.updApply_keeps | split

theorem execUpdGo_keeps {who : Initiator} {source : List Byte}  (hs : Keeps s0 s) : KeepsO s0 (execUpdGo who source s) := by
  unfold execUpdGo
  repeat' with_reducible first | assumption | (intro x; first | (refine have hx : Keeps s0 x := ?_; ?_; unfold x; rotate_left; clear_value x) | clear_value x) | (lift_lets -underBinder) | apply KeepsO.next | apply KeepsO.ite | apply Keeps.ite | apply State.gate_keeps | apply State.update_keeps | (intro a b hc) | (intro a hc) | apply wf_wrBytes | apply wf_wrN | (refine wf_foldl _ (fun m x w => ?_) _ ?_) | (refine Keeps.dram _ (fun w => ?_) ?_)

theorem execClearWf_keeps {who : Initiator}  (hs : Keeps s0 s) : KeepsO s0 (execClearWf who s) := by
  unfold execClearWf
  repeat' with_reducible first | assumption | apply KeepsO.next | apply KeepsO.ite | apply State.gate_keeps | apply State.update_keeps | (intro a b hc) | (intro a hc)

theorem execFullClear_keeps {who : Initiator}  (hs : Keeps s0 s) : KeepsO s0 (execFullClear who s) := by
  unfold execFullClear
  repeat' with_reducible first | assumption | apply KeepsO.next | apply KeepsO.ite | apply State.gate_keeps | apply State.update_keeps | (intro a b hc) | (intro a hc)

theorem State.pnlStart_keeps   (hs : Keeps s0 s) : Keeps s0 (State.pnlStart s) := by
  unfold State.pnlStart
  repeat' with_reducible first | assumption | (intro x; first | (refine have hx : Keeps s0 x := ?_; ?_; unfold x; rotate_left; clear_value x) | (have y : Tab Byte := x; clear y) | clear_value x) | (lift_lets -underBinder) | apply Keeps.ite | refine Keeps.foldl (fun s x hc => ?_) ?_ | apply State.setReg_keeps | apply State.errc_keeps | apply State.setDirty_keeps | apply State.railsNeed_keeps | split | (intro a b hc) | (intro a hc) | dsimp only | apply Keeps.pnl

theorem execRecovered_keeps   (hs : Keeps s0 s) : KeepsO s0 (execRecovered s) := by
  unfold execRecovered
  repeat' with_reducible first | assumption | apply KeepsO.next | apply KeepsO.ite | apply Keeps.ite | apply State.setReg_keeps | apply State.irq_keeps | apply Keeps.pnl

theorem State.pnlPowerFail_keeps (hs : Keeps s0 s) : Keeps s0 s.pnlPowerFail := by
  unfold State.pnlPowerFail
  exact State.setReg_keeps (hs.of rfl (Nat.le_refl _) fun c => c)

end Sys2Proof.Machine
end

