-- ==== Sys2Proof/Laws/KeepsPtp.lean ====
section
/-! SUPPORT. `Keeps` for every operation and command of Machine/Ptp.lean: the queue stays, free values are drawn once, tables stay
canonical. -/

namespace Sys2Proof.Machine
variable {s0 s : State}

theorem State.stepTime_keeps {t : Nat}  (hs : Keeps s0 s) : Keeps s0 (State.stepTime s t) := by
  unfold State.stepTime
  repeat' with_reducible first | assumption | (intro x; first | (refine have hx : Keeps s0 x := ?_; ?_; unfold x; rotate_left; clear_value x) | clear_value x) | (lift_lets -underBinder) | apply State.incReg_keeps | apply State.irq_keeps | apply State.emit_keeps | (intro a b hc) | (intro a hc) | apply Keeps.kpr | apply Keeps.nsu | apply Keeps.ptp | apply Keeps.time

theorem State.tick_keeps   (hs : Keeps s0 s) : Keeps s0 (State.tick s) := by
  unfold State.tick
  repeat' with_reducible first | assumption | (intro x; clear_value x) | (lift_lets -underBinder) | apply Keeps.ite | apply Keeps.kpr | apply Keeps.nsu | apply Keeps.time

theorem State.idle_keeps (hs : Keeps s0 s) : Keeps s0 s.idle := by
  have ht := State.tick_keeps (State.lanesTick_keeps hs)
  unfold State.idle
  exact Keeps.ite ht ⟨ht.queue, Nat.le_trans ht.drawn (Nat.le_add_right _ _), ht.form⟩

theorem State.loadTime_keeps   (hs : Keeps s0 s) : Keeps s0 (State.loadTime s) := by
  unfold State.loadTime
  repeat' with_reducible first | assumption | apply Keeps.time

theorem State.setServo_keeps {v : Nat}  (hs : Keeps s0 s) : Keeps s0 (State.setServo s v) := by
  unfold State.setServo
  repeat' with_reducible first | assumption | (intro x; first | (refine have hx : Keeps s0 x := ?_; ?_; unfold x; rotate_left; clear_value x) | clear_value x) | (lift_lets -underBinder) | apply Keeps.ite | apply State.setFld_keeps | apply State.setFlag_keeps | apply State.irq_keeps | apply Keeps.ptp

theorem State.setIncr_keeps {v : Nat}  (hs : Keeps s0 s) : Keeps s0 (State.setIncr s v) := by
  unfold State.setIncr
  repeat' with_reducible first | assumption | (intro x; first | (refine have hx : Keeps s0 x := ?_; ?_; unfold x; rotate_left; clear_value x) | clear_value x) | (lift_lets -underBinder) | apply State.setReg_keeps

theorem State.toHoldover_keeps   (hs : Keeps s0 s) : Keeps s0 (State.toHoldover s) := by
  unfold State.toHoldover
  repeat' with_reducible first | assumption | (intro x; first | (refine have hx : Keeps s0 x := ?_; ?_; unfold x; rotate_left; clear_value x) | (have y : Tab Byte := x; clear y)) | (lift_lets -underBinder) | apply Keeps.ite | apply State.setServo_keeps | apply State.setIncr_keeps

theorem State.servoOffset_keeps {ofs : Int} {incr : Nat} {mayStep : Bool}  (hs : Keeps s0 s) : Keeps s0 (State.servoOffset s ofs incr mayStep) := by
  unfold State.servoOffset
  repeat' with_reducible first | assumption | (intro x; first | (refine have hx : Keeps s0 x := ?_; ?_; unfold x; rotate_left; clear_value x) | clear_value x) | (lift_lets -underBinder) | apply Keeps.ite | apply State.setReg_keeps | apply State.irq_keeps | apply State.emit_keeps | apply State.stepTime_keeps | apply State.setServo_keeps | apply State.setIncr_keeps | apply State.toHoldover_keeps | apply Keeps.ptp

theorem State.setPorts_keeps {states : List (BitVec 4)}  (hs : Keeps s0 s) : Keeps s0 (State.setPorts s states) := by
  unfold State.setPorts
  repeat' with_reducible first | assumption | (intro x; first | (refine have hx : Keeps s0 x := ?_; ?_; unfold x; rotate_left; clear_value x) | clear_value x) | (lift_lets -underBinder) | apply Keeps.ite | refine Keeps.foldl (fun s x hc => ?_) ?_ | apply State.setReg_keeps | apply State.setServo_keeps | apply State.toHoldover_keeps

theorem State.ptpSend_keeps {ty i : Nat}  (hs : Keeps s0 s) : Keeps s0 (State.ptpSend s ty i) := by
  unfold State.ptpSend
  repeat' with_reducible first | assumption | (intro x; clear_value x) | (lift_lets -underBinder) | apply State.ethSend_keeps

theorem State.pdelayAnswer_keeps {i : Nat}  (hs : Keeps s0 s) : Keeps s0 (State.pdelayAnswer s i) := by
  unfold State.pdelayAnswer
  repeat' with_reducible first | assumption | (intro x; first | (refine have hx : Keeps s0 x.2 := ?_; ?_; unfold x; rotate_left; clear_value x) | clear_value x) | (lift_lets -underBinder) | apply State.fresh_keeps | apply State.ethSend_keeps

theorem execTimeNs_keeps {who : Initiator}  (hs : Keeps s0 s) : KeepsO s0 (execTimeNs who s) := by
  unfold execTimeNs
  repeat' with_reducible first | assumption | (intro x; clear_value x) | (lift_lets -underBinder) | apply KeepsO.next | apply KeepsO.ite | apply State.answer_keeps | apply State.rgate_keeps | (intro a b hc) | (intro a hc) | apply Keeps.time

theorem execSet_keeps {who : Initiator}  (hs : Keeps s0 s) : KeepsO s0 (execSet who s) := by
  unfold execSet
  repeat' with_reducible first | assumption | apply KeepsO.next | apply KeepsO.ite | apply Keeps.ite | apply State.emit_keeps | apply State.gate_keeps | apply State.stepTime_keeps | (intro a b hc) | (intro a hc)

theorem execSeconds_keeps {who : Initiator}  (hs : Keeps s0 s) : KeepsO s0 (execSeconds who s) := by
  unfold execSeconds
  repeat' with_reducible first | assumption | apply KeepsO.next | apply KeepsO.ite | apply Keeps.ite | apply State.emit_keeps | apply State.gate_keeps | (intro a b hc) | (intro a hc) | apply Keeps.ptp

theorem execSync_keeps {port : Fin 6} {twoStep newGm : Bool} {t : PtpTimes} {incr : BitVec 40}  (hs : Keeps s0 s) : KeepsO s0 (execSync port twoStep newGm t incr s) := by
  unfold execSync
  repeat' with_reducible first | assumption | (intro x; clear_value x) | (lift_lets -underBinder) | apply KeepsO.next | apply KeepsO.ite | apply Keeps.ite | apply State.servoOffset_keeps | apply Keeps.ptp

theorem execFollowUp_keeps {port : Fin 6} {t : PtpTimes} {incr : BitVec 40}  (hs : Keeps s0 s) : KeepsO s0 (execFollowUp port t incr s) := by
  unfold execFollowUp
  repeat' with_reducible first | assumption | (intro x; clear_value x) | (lift_lets -underBinder) | apply KeepsO.next | apply KeepsO.ite | apply Keeps.ite | apply State.servoOffset_keeps | split | apply Keeps.ptp

theorem execSyncSend_keeps {port : Fin 6}  (hs : Keeps s0 s) : KeepsO s0 (execSyncSend port s) := by
  unfold execSyncSend
  repeat' with_reducible first | assumption | apply KeepsO.next | apply KeepsO.ite | apply Keeps.ite | apply State.ptpSend_keeps

theorem execAnnounce_keeps {port : Fin 6} {a : PtpAnnounce}  (hs : Keeps s0 s) : KeepsO s0 (execAnnounce port a s) := by
  unfold execAnnounce
  repeat' with_reducible first | assumption | (intro x; first | (refine have hx : Keeps s0 x := ?_; ?_; unfold x; rotate_left; clear_value x) | clear_value x) | (lift_lets -underBinder) | apply KeepsO.next | apply KeepsO.ite | apply Keeps.ite | apply State.setRegs_keeps | apply State.setFld_keeps | apply State.setFlag_keeps | apply State.irq_keeps | apply State.setPorts_keeps | apply Keeps.ptp

theorem execAnnounceSend_keeps {port : Fin 6}  (hs : Keeps s0 s) : KeepsO s0 (execAnnounceSend port s) := by
  unfold execAnnounceSend
  repeat' with_reducible first | assumption | apply KeepsO.next | apply KeepsO.ite | apply Keeps.ite | apply State.ethSend_keeps

theorem execAnnounceReceiptTimeout_keeps {port : Fin 6} {states : List (BitVec 4)}  (hs : Keeps s0 s) : KeepsO s0 (execAnnounceReceiptTimeout port states s) := by
  unfold execAnnounceReceiptTimeout
  repeat' with_reducible first | assumption | apply KeepsO.next | apply KeepsO.ite | apply Keeps.ite | apply State.setPorts_keeps

theorem execDelayReq_keeps {port : Fin 6} {received : Bool}  (hs : Keeps s0 s) : KeepsO s0 (execDelayReq port received s) := by
  unfold execDelayReq
  repeat' with_reducible first | assumption | apply KeepsO.next | apply KeepsO.ite | apply Keeps.ite | apply State.ethSend_keeps | apply State.ptpSend_keeps

theorem execDelayResp_keeps {port : Fin 6} {delayNs : Word}  (hs : Keeps s0 s) : KeepsO s0 (execDelayResp port delayNs s) := by
  unfold execDelayResp
  repeat' with_reducible first | assumption | apply KeepsO.next | apply KeepsO.ite | apply Keeps.ite | apply State.setReg_keeps

theorem execPdelayReq_keeps {port : Fin 6}  (hs : Keeps s0 s) : KeepsO s0 (execPdelayReq port s) := by
  unfold execPdelayReq
  repeat' with_reducible first | assumption | apply KeepsO.next | apply KeepsO.ite | apply Keeps.ite | apply State.pdelayAnswer_keeps

theorem execPdelayResp_keeps {port : Fin 6} {delayNs : Word}  (hs : Keeps s0 s) : KeepsO s0 (execPdelayResp port delayNs s) := by
  unfold execPdelayResp
  repeat' with_reducible first | assumption | apply KeepsO.next | apply KeepsO.ite | apply Keeps.ite | apply State.setReg_keeps

theorem execPdelayReqSend_keeps {port : Fin 6}  (hs : Keeps s0 s) : KeepsO s0 (execPdelayReqSend port s) := by
  unfold execPdelayReqSend
  repeat' with_reducible first | assumption | apply KeepsO.next | apply KeepsO.ite | apply Keeps.ite | apply State.ptpSend_keeps

theorem execManagement_keeps {_port : Fin 6}  (hs : Keeps s0 s) : KeepsO s0 (execManagement _port s) := by
  unfold execManagement
  repeat' with_reducible first | assumption | apply KeepsO.next

theorem execHoldoverExpire_keeps   (hs : Keeps s0 s) : KeepsO s0 (execHoldoverExpire s) := by
  unfold execHoldoverExpire
  repeat' with_reducible first | assumption | apply KeepsO.next | apply KeepsO.ite | apply Keeps.ite | apply State.setServo_keeps

theorem State.ppsSecond_keeps {incr : Nat}  (hs : Keeps s0 s) : Keeps s0 (State.ppsSecond s incr) := by
  unfold State.ppsSecond
  repeat' with_reducible first | assumption | (intro x; first | (refine have hx : Keeps s0 x := ?_; ?_; unfold x; rotate_left; clear_value x) | clear_value x) | (lift_lets -underBinder) | apply Keeps.ite | apply State.setServo_keeps | apply State.servoOffset_keeps | apply Keeps.ptp

theorem State.ppsEdge_keeps {incr : Nat}  (hs : Keeps s0 s) : Keeps s0 (State.ppsEdge s incr) := by
  unfold State.ppsEdge
  repeat' with_reducible first | assumption | (intro x; first | (refine have hx : Keeps s0 x := ?_; ?_; unfold x; rotate_left; clear_value x) | clear_value x) | (lift_lets -underBinder) | apply Keeps.ite | apply State.stepTime_keeps | apply State.ppsSecond_keeps | apply Keeps.ptp

theorem execPpsIn_keeps {incr : BitVec 40}  (hs : Keeps s0 s) : KeepsO s0 (execPpsIn incr s) := by
  unfold execPpsIn
  repeat' with_reducible first | assumption | apply KeepsO.next | apply KeepsO.ite | apply Keeps.ite | apply State.capAccept_keeps | apply State.ppsEdge_keeps

theorem execPpsInLoss_keeps   (hs : Keeps s0 s) : KeepsO s0 (execPpsInLoss s) := by
  unfold execPpsInLoss
  repeat' with_reducible first | assumption | apply KeepsO.next | apply KeepsO.ite | apply Keeps.ite | apply State.toHoldover_keeps

theorem execPpsOut_keeps   (hs : Keeps s0 s) : KeepsO s0 (execPpsOut s) := by
  unfold execPpsOut
  repeat' with_reducible first | assumption | (intro x; clear_value x) | (lift_lets -underBinder) | apply KeepsO.next | apply KeepsO.ite | apply Keeps.ite | apply State.irq_keeps | split | (apply Keeps.snd; assumption) | (apply Keeps.fst; assumption) | apply Keeps.ptp

theorem execPpsPulseEnd_keeps   (hs : Keeps s0 s) : KeepsO s0 (execPpsPulseEnd s) := by
  unfold execPpsPulseEnd
  repeat' with_reducible first | assumption | apply KeepsO.next | apply KeepsO.ite | apply Keeps.ite | apply State.irq_keeps | apply Keeps.ptp

theorem State.ptpStart_keeps   (hs : Keeps s0 s) : Keeps s0 (State.ptpStart s) := by
  unfold State.ptpStart
  repeat' with_reducible first | assumption | (intro x; clear_value x) | (lift_lets -underBinder) | apply Keeps.ite | refine Keeps.foldl (fun s x hc => ?_) ?_ | apply State.setRegs_keeps | (intro a b hc) | (intro a hc) | apply Keeps.ptp

theorem State.ptpStop_keeps   (hs : Keeps s0 s) : Keeps s0 (State.ptpStop s) := by
  unfold State.ptpStop
  repeat' with_reducible first | assumption | apply State.setRegs_keeps | apply Keeps.ptp

end Sys2Proof.Machine
end

