-- ==== Sys2Proof/Laws/KeepsKpr.lean ====
section
/-! SUPPORT. `Keeps` for every operation and command of Machine/Kpr.lean: the queue stays, free values are drawn once, tables stay
canonical. -/

namespace Sys2Proof.Machine
variable {s0 s : State}

theorem State.setKpr_keeps {f : KprSt → KprSt}  (hs : Keeps s0 s) : Keeps s0 (State.setKpr s f) := by
  unfold State.setKpr
  repeat' with_reducible first | assumption | apply Keeps.kpr

theorem State.armBalls_keeps {mask : Nat}  (hs : Keeps s0 s) : Keeps s0 (State.armBalls s mask) := by
  unfold State.armBalls
  repeat' with_reducible first | assumption | (intro x; have y : Tab Byte := x; clear y) | (lift_lets -underBinder) | refine Keeps.foldl (fun s x hc => ?_) ?_ | apply State.setFlag_keeps | apply State.safeUpdate_keeps

theorem State.gateCheck_keeps   (hs : Keeps s0 s) : Keeps s0 (State.gateCheck s) := by
  unfold State.gateCheck
  repeat' with_reducible first | assumption | (intro x; refine have hx : Keeps s0 x := ?_; ?_; unfold x; rotate_left; clear_value x) | (lift_lets -underBinder) | apply Keeps.ite | apply State.gate_keeps | apply State.setKpr_keeps | apply State.armBalls_keeps | split

theorem State.swapTo_keeps {h : Tab Byte}  (hs : Keeps s0 s) : Keeps s0 (State.swapTo s h) := by
  unfold State.swapTo
  repeat' with_reducible first | assumption | (intro x; first | (refine have hx : Keeps s0 x := ?_; ?_; unfold x; rotate_left; clear_value x) | (have y : Tab Byte := x; clear y) | clear_value x) | (lift_lets -underBinder) | apply Keeps.ite | refine Keeps.foldl (fun s x hc => ?_) ?_ | apply State.plkSend_keeps | apply State.setKpr_keeps | apply State.gateCheck_keeps

theorem State.swapIf_keeps {h : Tab Byte}  (hs : Keeps s0 s) : Keeps s0 (State.swapIf s h) := by
  unfold State.swapIf
  repeat' with_reducible first | assumption | apply Keeps.ite | apply State.swapTo_keeps

theorem State.publishRec_keeps {k : Kind} {b : List Byte}  (hs : Keeps s0 s) : Keeps s0 (State.publishRec s k b) := by
  unfold State.publishRec
  repeat' with_reducible first | assumption | (intro x; first | (refine have hx : Keeps s0 x := ?_; ?_; unfold x; rotate_left; clear_value x) | (refine have hx : Keeps s0 x.2 := ?_; ?_; unfold x; rotate_left; clear_value x) | (have y : Tab Byte := x; clear y) | clear_value x) | (lift_lets -underBinder) | apply Keeps.ite | refine Keeps.foldl (fun s x hc => ?_) ?_ | apply State.fresh_keeps | apply State.setKpr_keeps | apply State.swapTo_keeps

theorem State.ageKind_keeps {k : Kind}  (hs : Keeps s0 s) : Keeps s0 (State.ageKind s k) := by
  unfold State.ageKind
  repeat' with_reducible first | assumption | apply State.swapIf_keeps

theorem State.giveVerdict_keeps {k : Kind} {c : Check} {v : Nat} {us : Word}  (hs : Keeps s0 s) : Keeps s0 (State.giveVerdict s k c v us) := by
  unfold State.giveVerdict
  repeat' with_reducible first | assumption | (intro x; first | (refine have hx : Keeps s0 x := ?_; ?_; unfold x; rotate_left; clear_value x) | clear_value x) | (lift_lets -underBinder) | apply Keeps.ite | apply State.setRegs_keeps | apply State.incReg_keeps | apply State.irq_keeps | apply State.slog_keeps | apply State.publishRec_keeps | apply State.ageKind_keeps

theorem State.setSeen_keeps {k : Kind} {o v : Nat}  (hs : Keeps s0 s) : Keeps s0 (State.setSeen s k o v) := by
  unfold State.setSeen
  repeat' with_reducible first | assumption | apply State.setKpr_keeps

theorem State.noteSeq_keeps {k : Kind}  (hs : Keeps s0 s) : Keeps s0 (State.noteSeq s k) := by
  unfold State.noteSeq
  repeat' with_reducible first | assumption | (intro x; clear_value x) | (lift_lets -underBinder) | apply Keeps.ite | apply State.setSeen_keeps

theorem State.startCheck_keeps {k : Kind}  (hs : Keeps s0 s) : Keeps s0 (State.startCheck s k) := by
  unfold State.startCheck
  repeat' with_reducible first | assumption | (intro x; clear_value x) | (lift_lets -underBinder) | apply Keeps.ite | apply State.setFlag_keeps | apply State.setKpr_keeps | apply State.setSeen_keeps

theorem State.endCheck_keeps {k : Kind}  (hs : Keeps s0 s) : Keeps s0 (State.endCheck s k) := by
  unfold State.endCheck
  repeat' with_reducible first | assumption | apply State.setFlag_keeps | apply State.setKpr_keeps

theorem State.pollKind_keeps {k : Kind}  (hs : Keeps s0 s) : Keeps s0 (State.pollKind s k) := by
  unfold State.pollKind
  repeat' with_reducible first | assumption | (intro x; first | (refine have hx : Keeps s0 x := ?_; ?_; unfold x; rotate_left; clear_value x) | clear_value x) | (lift_lets -underBinder) | apply Keeps.ite | apply State.incReg_keeps | apply State.setSeen_keeps | apply State.noteSeq_keeps | apply State.startCheck_keeps

theorem execKeeperPoll_keeps   (hs : Keeps s0 s) : KeepsO s0 (execKeeperPoll s) := by
  unfold execKeeperPoll
  repeat' with_reducible first | assumption | apply KeepsO.next | apply KeepsO.ite | apply Keeps.ite | apply State.pollKind_keeps

theorem execCheckDone_keeps {kind : Kind} {cut : CheckCut} {us : Word}  (hs : Keeps s0 s) : KeepsO s0 (execCheckDone kind cut us s) := by
  unfold execCheckDone
  repeat' with_reducible first | assumption | (intro x; first | (refine have hx : Keeps s0 x := ?_; ?_; unfold x; rotate_left; clear_value x) | clear_value x) | (lift_lets -underBinder) | apply KeepsO.next | apply KeepsO.ite | apply Keeps.ite | apply State.incReg_keeps | apply State.keeperFault_keeps | apply State.giveVerdict_keeps | apply State.noteSeq_keeps | apply State.startCheck_keeps | apply State.endCheck_keeps | split

theorem execPlanStep_keeps (hs : Keeps s0 s) : KeepsO s0 (execPlanStep s) := by
  unfold execPlanStep
  refine KeepsO.ite (KeepsO.next hs) ?_
  extract_lets
  split
  · exact KeepsO.next (State.swapTo_keeps hs)
  · exact KeepsO.next (State.swapTo_keeps (hs.of rfl (Nat.le_add_right _ _) fun c => c))

theorem execNextDue_keeps {kind : Kind}  (hs : Keeps s0 s) : KeepsO s0 (execNextDue kind s) := by
  unfold execNextDue
  repeat' with_reducible first | assumption | apply KeepsO.next | apply KeepsO.ite | apply Keeps.ite | apply State.ageKind_keeps

theorem execEntryExpire_keeps {kind : Kind}  (hs : Keeps s0 s) : KeepsO s0 (execEntryExpire kind s) := by
  unfold execEntryExpire
  repeat' with_reducible first | assumption | apply KeepsO.next | apply KeepsO.ite | apply Keeps.ite | apply State.swapIf_keeps

theorem execKeeper_keeps {h : PairHdr} {chunk : Fin 3} {data : List Byte}  (hs : Keeps s0 s) : KeepsO s0 (execKeeper h chunk data s) := by
  unfold execKeeper
  repeat' with_reducible first | assumption | (intro x; first | (refine have hx : Keeps s0 x := ?_; ?_; unfold x; rotate_left; clear_value x) | (have y : Tab Byte := x; clear y) | clear_value x) | (lift_lets -underBinder) | apply KeepsO.next | apply KeepsO.ite | apply Keeps.ite | apply State.incReg_keeps | apply State.slog_keeps | apply State.keep_keeps | apply State.setKpr_keeps | apply State.swapTo_keeps | (intro a b hc) | (intro a hc)

theorem execWdogTrip_keeps   (hs : Keeps s0 s) : KeepsO s0 (execWdogTrip s) := by
  unfold execWdogTrip
  repeat' with_reducible first | assumption | apply KeepsO.next | apply KeepsO.ite | apply Keeps.ite | apply State.trip_keeps

theorem execEmgAssert_keeps {i : Fin 4}  (hs : Keeps s0 s) : KeepsO s0 (execEmgAssert i s) := by
  unfold execEmgAssert
  repeat' with_reducible first | assumption | (intro x; first | (refine have hx : Keeps s0 x := ?_; ?_; unfold x; rotate_left; clear_value x) | clear_value x) | (lift_lets -underBinder) | apply KeepsO.next | apply KeepsO.ite | apply Keeps.ite | apply State.setFlag_keeps | apply State.irq_keeps | apply State.slog_keeps | apply State.safeUpdate_keeps | apply State.trip_keeps | apply State.swapIf_keeps

theorem execEmgRelease_keeps {i : Fin 4}  (hs : Keeps s0 s) : KeepsO s0 (execEmgRelease i s) := by
  unfold execEmgRelease
  repeat' with_reducible first | assumption | apply KeepsO.next | apply KeepsO.ite | apply Keeps.ite | apply State.setFlag_keeps

theorem execLockstep_keeps   (hs : Keeps s0 s) : KeepsO s0 (execLockstep s) := by
  unfold execLockstep
  repeat' with_reducible first | assumption | apply KeepsO.next | apply KeepsO.ite | apply Keeps.ite | apply State.keeperFault_keeps

theorem execKeeperTcmUe_keeps   (hs : Keeps s0 s) : KeepsO s0 (execKeeperTcmUe s) := by
  unfold execKeeperTcmUe
  repeat' with_reducible first | assumption | apply KeepsO.next | apply KeepsO.ite | apply Keeps.ite | apply State.irq_keeps | apply State.statBit_keeps | apply State.toFault_keeps | apply State.keeperFault_keeps

theorem execSlogIndex_keeps {who : Initiator} {val : Word}  (hs : Keeps s0 s) : KeepsO s0 (execSlogIndex who val s) := by
  unfold execSlogIndex
  repeat' with_reducible first | assumption | apply KeepsO.next | apply KeepsO.ite | apply State.setReg_keeps | apply State.gate_keeps | (intro a b hc) | (intro a hc)

theorem State.paramLoad_keeps {t : List Byte}  (hs : Keeps s0 s) : Keeps s0 (State.paramLoad s t) := by
  unfold State.paramLoad
  repeat' with_reducible first | assumption | (intro x; first | (refine have hx : Keeps s0 x := ?_; ?_; unfold x; rotate_left; clear_value x) | clear_value x) | (lift_lets -underBinder) | refine Keeps.foldl (fun s x hc => ?_) ?_ | apply State.setReg_keeps | apply State.setRegs_keeps

theorem State.showDigs_keeps   (hs : Keeps s0 s) : Keeps s0 (State.showDigs s) := by
  unfold State.showDigs
  repeat' with_reducible first | assumption | (intro x; clear_value x) | (lift_lets -underBinder) | refine Keeps.foldl (fun s x hc => ?_) ?_ | apply State.setReg_keeps

theorem State.safeCopy_keeps   (hs : Keeps s0 s) : Keeps s0 (State.safeCopy s) := by
  unfold State.safeCopy
  repeat' with_reducible first | assumption | apply Keeps.ite | apply State.setKpr_keeps

theorem State.tablesRead_keeps   (hs : Keeps s0 s) : Keeps s0 (State.tablesRead s) := by
  unfold State.tablesRead
  repeat' with_reducible first | assumption | (intro x; first | (refine have hx : Keeps s0 x := ?_; ?_; unfold x; rotate_left; clear_value x) | (have y : Tab Byte := x; clear y)) | (lift_lets -underBinder) | apply Keeps.ite | apply State.errc_keeps | apply State.slog_keeps | apply State.safeUpdate_keeps | apply State.setKpr_keeps | apply State.paramLoad_keeps | apply State.showDigs_keeps | split

theorem State.tabRefuse_keeps {g : Segment} {reason : Nat}  (hs : Keeps s0 s) : Keeps s0 (State.tabRefuse s g reason) := by
  unfold State.tabRefuse
  repeat' with_reducible first | assumption | (intro x; first | (refine have hx : Keeps s0 x := ?_; ?_; unfold x; rotate_left; clear_value x) | clear_value x) | (lift_lets -underBinder) | apply State.irq_keeps | apply State.errc_keeps | apply State.slog_keeps | apply State.setKpr_keeps

theorem State.tabCommit_keeps {k : Nat} {t : List Byte}  (hs : Keeps s0 s) : Keeps s0 (State.tabCommit s k t) := by
  unfold State.tabCommit
  repeat' with_reducible first | assumption | (intro x; first | (refine have hx : Keeps s0 x := ?_; ?_; unfold x; rotate_left; clear_value x) | clear_value x) | (lift_lets -underBinder) | apply Keeps.ite | apply State.irq_keeps | apply State.slog_keeps | apply State.safeUpdate_keeps | apply State.measExtend_keeps | apply State.setKpr_keeps | apply State.paramLoad_keeps | apply State.showDigs_keeps | apply State.safeCopy_keeps

theorem State.armMask_keeps {mask : Nat}  (hs : Keeps s0 s) : Keeps s0 (State.armMask s mask) := by
  unfold State.armMask
  repeat' with_reducible first | assumption | (intro x; first | (refine have hx : Keeps s0 x := ?_; ?_; unfold x; rotate_left; clear_value x) | (have y : Tab Byte := x; clear y) | clear_value x) | (lift_lets -underBinder) | apply Keeps.ite | refine Keeps.foldl (fun s x hc => ?_) ?_ | apply State.setFlag_keeps | apply State.slog_keeps | apply State.gate_keeps | apply State.setKpr_keeps | apply State.armBalls_keeps

theorem State.segment_keeps {g : Segment}  (hs : Keeps s0 s) : Keeps s0 (State.segment s g) := by
  unfold State.segment
  repeat' with_reducible first | assumption | (intro x; clear_value x) | (lift_lets -underBinder) | apply Keeps.ite | apply State.setKpr_keeps | apply State.tabRefuse_keeps | apply State.tabCommit_keeps | apply State.armMask_keeps | split

theorem execSafeValue_keeps {seg : Segment}  (hs : Keeps s0 s) : KeepsO s0 (execSafeValue seg s) := by
  unfold execSafeValue
  repeat' with_reducible first | assumption | apply KeepsO.next | apply KeepsO.ite | apply State.segment_keeps

theorem execArm_keeps {seg : Segment}  (hs : Keeps s0 s) : KeepsO s0 (execArm seg s) := by
  unfold execArm
  repeat' with_reducible first | assumption | apply KeepsO.next | apply KeepsO.ite | apply State.segment_keeps

end Sys2Proof.Machine
end

