-- ==== Sys2Proof/Laws/KeepsSec.lean ====
section
/-! SUPPORT. `Keeps` for every operation and command of Machine/Sec.lean: the queue stays, free values are drawn once, tables stay
canonical. -/

namespace Sys2Proof.Machine
variable {s0 s : State}

theorem State.setSec_keeps {f : SecSt → SecSt}  (hs : Keeps s0 s) : Keeps s0 (State.setSec s f) := by
  unfold State.setSec
  repeat' with_reducible first | assumption | apply Keeps.sec

theorem State.setKey_keeps {i : Nat} {k : KeySlot}  (hs : Keeps s0 s) : Keeps s0 (State.setKey s i k) := by
  unfold State.setKey
  repeat' with_reducible first | assumption | apply State.setSec_keeps

theorem State.bootSlot_keeps {slotB : Bool}  (hs : Keeps s0 s) : Keeps s0 (State.bootSlot s slotB) := by
  unfold State.bootSlot
  repeat' with_reducible first | assumption | (intro x; first | (refine have hx : Keeps s0 x := ?_; ?_; unfold x; rotate_left; clear_value x) | clear_value x) | (lift_lets -underBinder) | apply State.setReg_keeps | apply State.measExtend_keeps | apply State.setSec_keeps

theorem State.bootNone_keeps {check : Nat}  (hs : Keeps s0 s) : Keeps s0 (State.bootNone s check) := by
  unfold State.bootNone
  repeat' with_reducible first | assumption | apply State.setReg_keeps

theorem State.bootRom_keeps   (hs : Keeps s0 s) : Keeps s0 (State.bootRom s) := by
  unfold State.bootRom
  repeat' with_reducible first | assumption | (intro x; first | (refine have hx : Keeps s0 x := ?_; ?_; unfold x; rotate_left; clear_value x) | clear_value x) | (lift_lets -underBinder) | apply Keeps.ite | apply State.emit_keeps | apply State.measExtend_keeps | apply State.setSec_keeps | apply State.bootSlot_keeps | apply State.bootNone_keeps

theorem State.kind3Load_keeps   (hs : Keeps s0 s) : Keeps s0 (State.kind3Load s) := by
  unfold State.kind3Load
  repeat' with_reducible first | assumption | (intro x; clear_value x) | (lift_lets -underBinder) | apply Keeps.ite | apply State.emit_keeps | apply State.measExtend_keeps | apply State.setSec_keeps

theorem execSecRun_keeps   (hs : Keeps s0 s) : KeepsO s0 (execSecRun s) := by
  unfold execSecRun
  repeat' with_reducible first | assumption | apply KeepsO.next | apply KeepsO.ite | apply Keeps.ite | apply State.toRun_keeps

theorem State.keyApply_keeps {slot : Nat} {counter : DWord} {k : KeyChange}  (hs : Keeps s0 s) : Keeps s0 (State.keyApply s slot counter k) := by
  unfold State.keyApply
  repeat' with_reducible first | assumption | (intro x; first | (refine have hx : Keeps s0 x := ?_; ?_; unfold x; rotate_left; clear_value x) | clear_value x) | (lift_lets -underBinder) | apply Keeps.ite | apply State.emit_keeps | apply State.measExtend_keeps | apply State.setKey_keeps

theorem execKeyChange_keeps {slot : Byte} {counter : DWord} {k : KeyChange}  (hs : Keeps s0 s) : KeepsO s0 (execKeyChange slot counter k s) := by
  unfold execKeyChange
  repeat' with_reducible first | assumption | apply KeepsO.next | apply KeepsO.ite | apply Keeps.ite | apply State.emit_keeps | apply State.keyApply_keeps

theorem State.fwStart_keeps {b : FwBundle}  (hs : Keeps s0 s) : Keeps s0 (State.fwStart s b) := by
  unfold State.fwStart
  repeat' with_reducible first | assumption | apply State.setRegs_keeps | apply State.setSec_keeps

theorem execFwUpdate_keeps {b : FwBundle} {bundle : List Byte}  (hs : Keeps s0 s) : KeepsO s0 (execFwUpdate b bundle s) := by
  unfold execFwUpdate
  repeat' with_reducible first | assumption | (intro x; refine have hx : Keeps s0 x := ?_; ?_; unfold x; rotate_left; clear_value x) | (lift_lets -underBinder) | apply KeepsO.next | apply KeepsO.ite | apply Keeps.ite | apply State.emit_keeps | apply State.fwStart_keeps | apply wf_wrBytes | apply wf_wrN | (refine wf_foldl _ (fun m x w => ?_) _ ?_) | (refine Keeps.dram _ (fun w => ?_) ?_)

theorem State.fwShow_keeps {st stage check : Nat}  (hs : Keeps s0 s) : Keeps s0 (State.fwShow s st stage check) := by
  unfold State.fwShow
  repeat' with_reducible first | assumption | (intro x; refine have hx : Keeps s0 x := ?_; ?_; unfold x; rotate_left; clear_value x) | (lift_lets -underBinder) | apply Keeps.ite | apply State.setReg_keeps | apply State.irq_keeps | apply State.errc_keeps | apply State.emit_keeps | apply State.setSec_keeps

theorem State.fwAbort_keeps   (hs : Keeps s0 s) : Keeps s0 (State.fwAbort s) := by
  unfold State.fwAbort
  repeat' with_reducible first | assumption | apply Keeps.ite | apply State.setSec_keeps | apply State.fwShow_keeps

theorem State.fwWritten_keeps {all : List (Nat × List Byte)} (hs : Keeps s0 s) : Keeps s0 (State.fwWritten s all) := by
  unfold State.fwWritten
  exact State.setReg_keeps (State.setSec_keeps hs)

theorem State.fwRun_keeps {u : FwUpd}  (hs : Keeps s0 s) : Keeps s0 (State.fwRun s u) := by
  unfold State.fwRun
  repeat' with_reducible first | assumption | (intro x; first | (refine have hx : Keeps s0 x := ?_; ?_; unfold x; rotate_left; clear_value x) | clear_value x) | (lift_lets -underBinder) | apply Keeps.ite | refine Keeps.foldl (fun s x hc => ?_) ?_ | apply State.setReg_keeps | apply State.setSec_keeps | apply State.fwWritten_keeps | apply State.fwShow_keeps | split

theorem State.slotSpoilt_keeps (hs : Keeps s0 s) : Keeps s0 s.slotSpoilt := by
  unfold State.slotSpoilt
  exact hs.of rfl (Nat.le_add_right _ _) fun c => c

theorem execFwUpdateDone_keeps {e : FwEnd}  (hs : Keeps s0 s) : KeepsO s0 (execFwUpdateDone e s) := by
  unfold execFwUpdateDone
  repeat' with_reducible first | assumption | (intro x; refine have hx : Keeps s0 x := ?_; ?_; unfold x; rotate_left; clear_value x) | (lift_lets -underBinder) | apply KeepsO.next | apply KeepsO.ite | apply Keeps.ite | apply State.fwShow_keeps | apply State.fwAbort_keeps | apply State.fwRun_keeps | apply State.slotSpoilt_keeps | split

theorem execFwConfirm_keeps {who : Initiator} {val : Word}  (hs : Keeps s0 s) : KeepsO s0 (execFwConfirm who val s) := by
  unfold execFwConfirm
  repeat' with_reducible first | assumption | (intro x; first | (refine have hx : Keeps s0 x := ?_; ?_; unfold x; rotate_left; clear_value x) | clear_value x) | (lift_lets -underBinder) | apply KeepsO.next | apply KeepsO.ite | apply Keeps.ite | apply State.setFlag_keeps | apply State.gate_keeps | apply State.setSec_keeps | (intro a b hc) | (intro a hc)

theorem execExtend2_keeps {who : Initiator}  (hs : Keeps s0 s) : KeepsO s0 (execExtend2 who s) := by
  unfold execExtend2
  repeat' with_reducible first | assumption | apply KeepsO.next | apply KeepsO.ite | apply Keeps.ite | apply State.gate_keeps | apply State.measExtend_keeps | (intro a b hc) | (intro a hc)

theorem execLock2_keeps {who : Initiator}  (hs : Keeps s0 s) : KeepsO s0 (execLock2 who s) := by
  unfold execLock2
  repeat' with_reducible first | assumption | apply KeepsO.next | apply KeepsO.ite | apply Keeps.ite | apply State.gate_keeps | apply State.setSec_keeps | (intro a b hc) | (intro a hc)

theorem State.quoteBegin_keeps {b : List Byte}  (hs : Keeps s0 s) : Keeps s0 (State.quoteBegin s b) := by
  unfold State.quoteBegin
  repeat' with_reducible first | assumption | apply Keeps.ite | apply State.setReg_keeps | apply State.irq_keeps | apply State.setSec_keeps

theorem execQuoteStart_keeps {who : Initiator}  (hs : Keeps s0 s) : KeepsO s0 (execQuoteStart who s) := by
  unfold execQuoteStart
  repeat' with_reducible first | assumption | apply KeepsO.next | apply KeepsO.ite | apply State.gate_keeps | apply State.quoteBegin_keeps | (intro a b hc) | (intro a hc)

theorem execQuoteCert_keeps {who : Initiator}  (hs : Keeps s0 s) : KeepsO s0 (execQuoteCert who s) := by
  unfold execQuoteCert
  repeat' with_reducible first | assumption | apply KeepsO.next | apply KeepsO.ite | apply State.gate_keeps | apply State.quoteBegin_keeps | (intro a b hc) | (intro a hc)

theorem execQuoteDone_keeps   (hs : Keeps s0 s) : KeepsO s0 (execQuoteDone s) := by
  unfold execQuoteDone
  repeat' with_reducible first | assumption | (intro x; first | (refine have hx : Keeps s0 x := ?_; ?_; unfold x; rotate_left; clear_value x) | clear_value x) | (lift_lets -underBinder) | apply KeepsO.next | apply KeepsO.ite | apply Keeps.ite | apply State.setReg_keeps | apply State.irq_keeps | apply State.setSec_keeps | (intro a b hc) | (intro a hc) | apply wf_wrBytes | apply wf_wrN | (refine wf_foldl _ (fun m x w => ?_) _ ?_) | (refine Keeps.dram _ (fun w => ?_) ?_)

theorem State.cmdEnd_keeps {res : Nat} {h : List Byte}  (hs : Keeps s0 s) : Keeps s0 (State.cmdEnd s res h) := by
  unfold State.cmdEnd
  repeat' with_reducible first | assumption | (intro x; first | (refine have hx : Keeps s0 x := ?_; ?_; unfold x; rotate_left; clear_value x) | clear_value x) | (lift_lets -underBinder) | apply Keeps.ite | apply State.setRegs_keeps | apply State.irq_keeps | apply State.emit_keeps | apply State.setSec_keeps

theorem State.cmdDrop_keeps   (hs : Keeps s0 s) : Keeps s0 (State.cmdDrop s) := by
  unfold State.cmdDrop
  repeat' with_reducible first | assumption | apply Keeps.ite | apply State.cmdEnd_keeps

theorem State.secStop_keeps   (hs : Keeps s0 s) : Keeps s0 (State.secStop s) := by
  unfold State.secStop
  repeat' with_reducible first | assumption | (intro x; refine have hx : Keeps s0 x := ?_; ?_; unfold x; rotate_left; clear_value x) | (lift_lets -underBinder) | apply Keeps.ite | apply State.setReg_keeps | apply State.irq_keeps | apply State.setSec_keeps | apply State.fwAbort_keeps | apply State.cmdDrop_keeps

end Sys2Proof.Machine
end

