-- ==== Sys2Proof/Laws/KeepsBlocks.lean ====
section
/-! SUPPORT. `Keeps` for every operation and command of Machine/Blocks.lean: the queue stays, free values are drawn once, tables stay
canonical. -/

namespace Sys2Proof.Machine
variable {s0 s : State}

theorem State.onRun_keeps {p : Nat} {crit : Bool}  (hs : Keeps s0 s) : Keeps s0 (State.onRun s p crit) := by
  unfold State.onRun
  repeat' with_reducible first | assumption | (intro x; refine have hx : Keeps s0 x := ?_; ?_; unfold x; rotate_left; clear_value x) | (lift_lets -underBinder) | apply Keeps.ite | apply State.canStart_keeps | apply State.gpioStart_keeps | apply State.mtrStart_keeps | apply State.dlkStart_keeps | apply State.stbStart_keeps | apply State.safeUpdate_keeps | apply State.trip_keeps | apply State.lgeStart_keeps | apply State.plkStart_keeps | apply State.flushLog_keeps | apply State.nsuStart_keeps | apply State.btkStart_keeps | apply State.pnlStart_keeps | apply State.ptpStart_keeps | apply State.setKpr_keeps | (intro a b hc) | (intro a hc) | apply Tab.wf_set | apply wf_tabMap | (refine Keeps.cap _ (fun w => ?_) ?_)

theorem State.onDrain_keeps {p : Nat}  (hs : Keeps s0 s) : Keeps s0 (State.onDrain s p) := by
  unfold State.onDrain
  repeat' with_reducible first | assumption | apply Keeps.ite | apply State.dlkDrain_keeps | apply State.passesStopped_keeps | apply State.plkStop_keeps | apply State.jobsDrain_keeps | apply State.fcAbort_keeps | apply State.cmdDrop_keeps

theorem State.drmGone_keeps   (hs : Keeps s0 s) : Keeps s0 (State.drmGone s) := by
  unfold State.drmGone
  repeat' with_reducible first | assumption | apply Keeps.ite | apply State.fail_keeps | apply State.passesDown_keeps | apply State.btkLost_keeps

theorem State.onStop_keeps {p : Nat}  (hs : Keeps s0 s) : Keeps s0 (State.onStop s p) := by
  unfold State.onStop
  repeat' with_reducible first | assumption | apply Keeps.ite | apply State.setReg_keeps | apply State.canStop_keeps | apply State.mtrStop_keeps | apply State.ethStop_keeps | apply State.captureSave_keeps | apply State.stopMark_keeps | apply State.plkStop_keeps | apply State.flushLog_keeps | apply State.dsqStop_keeps | apply State.pnlStop_keeps | apply State.ptpStop_keeps | apply State.secStop_keeps | apply State.drmGone_keeps

theorem State.onForce_keeps {p : Nat}  (hs : Keeps s0 s) : Keeps s0 (State.onForce s p) := by
  unfold State.onForce
  repeat' with_reducible first | assumption | apply Keeps.ite | apply State.canStop_keeps | apply State.mtrStop_keeps | apply State.plsForce_keeps | apply State.ethStop_keeps | apply State.dlkForce_keeps | apply State.stbForce_keeps | apply State.plkStop_keeps | apply State.jobsAbort_keeps | apply State.btkAbandon_keeps | apply State.dsqStop_keeps | apply State.pnlStop_keeps | apply State.ptpStop_keeps | apply State.secStop_keeps | apply State.drmGone_keeps

theorem State.blockFault_keeps {p code detail : Nat}  (hs : Keeps s0 s) : Keeps s0 (State.blockFault s p code detail) := by
  unfold State.blockFault
  repeat' with_reducible first | assumption | (intro x; refine have hx : Keeps s0 x := ?_; ?_; unfold x; rotate_left; clear_value x) | (lift_lets -underBinder) | apply Keeps.ite | apply State.fail_keeps | apply State.haltMark_keeps | apply State.passesDown_keeps | apply State.passesStopped_keeps | apply State.mdlDrop_keeps | apply State.onForce_keeps

theorem State.setReq_keeps {p n : Nat}  (hs : Keeps s0 s) : Keeps s0 (State.setReq s p n) := by
  unfold State.setReq
  repeat' with_reducible first | assumption | apply State.setBlk_keeps

theorem State.refuse_keeps {p : Nat} {val : Word} {e : Nat × Nat}  (hs : Keeps s0 s) : Keeps s0 (State.refuse s p val e) := by
  unfold State.refuse
  repeat' with_reducible first | assumption | apply State.irq_keeps | apply State.errc_keeps | apply State.emit_keeps

theorem State.reqRun_keeps {p : Nat} {crit : Bool} {val : Word}  (hs : Keeps s0 s) : Keeps s0 (State.reqRun s p crit val) := by
  unfold State.reqRun
  repeat' with_reducible first | assumption | apply Keeps.ite | apply State.setFld_keeps | apply State.toRun_keeps | apply State.onRun_keeps | apply State.setReq_keeps | apply State.refuse_keeps | split

theorem State.drained_keeps {p : Nat}  (hs : Keeps s0 s) : Keeps s0 (State.drained s p) := by
  unfold State.drained
  repeat' with_reducible first | assumption | apply State.setSt_keeps | apply State.onStop_keeps

theorem State.reqStop_keeps {p : Nat} {val : Word}  (hs : Keeps s0 s) : Keeps s0 (State.reqStop s p val) := by
  unfold State.reqStop
  repeat' with_reducible first | assumption | (intro x; refine have hx : Keeps s0 x := ?_; ?_; unfold x; rotate_left; clear_value x) | (lift_lets -underBinder) | apply Keeps.ite | apply State.setSt_keeps | apply State.passesDown_keeps | apply State.onDrain_keeps | apply State.setReq_keeps | apply State.refuse_keeps | apply State.drained_keeps

theorem State.reqForce_keeps {p : Nat} {val : Word}  (hs : Keeps s0 s) : Keeps s0 (State.reqForce s p val) := by
  unfold State.reqForce
  repeat' with_reducible first | assumption | apply Keeps.ite | apply State.toStopAbandoned_keeps | apply State.haltMark_keeps | apply State.passesDown_keeps | apply State.onForce_keeps | apply State.setReq_keeps | apply State.refuse_keeps

theorem State.faultLeft_keeps {p : Nat}  (hs : Keeps s0 s) : Keeps s0 (State.faultLeft s p) := by
  unfold State.faultLeft
  repeat' with_reducible first | assumption | (intro x; refine have hx : Keeps s0 x := ?_; ?_; unfold x; rotate_left; clear_value x) | (lift_lets -underBinder) | apply Keeps.ite | refine Keeps.foldl (fun s x hc => ?_) ?_ | apply State.statBit_keeps | apply State.setSt_keeps | apply State.toRun_keeps

theorem State.reqClear_keeps {p : Nat} {val : Word} {gone : Bool}  (hs : Keeps s0 s) : Keeps s0 (State.reqClear s p val gone) := by
  unfold State.reqClear
  repeat' with_reducible first | assumption | apply Keeps.ite | apply State.refuse_keeps | apply State.faultLeft_keeps

theorem State.noteRun_keeps {p : Nat} {run : Bool}  (hs : Keeps s0 s) : Keeps s0 (State.noteRun s p run) := by
  unfold State.noteRun
  repeat' with_reducible first | assumption | apply Keeps.ite | apply State.setFlag_keeps | split

theorem State.reqTake_keeps {p : Nat} {crit : Bool} {val : Word}  (hs : Keeps s0 s) : Keeps s0 (State.reqTake s p crit val) := by
  unfold State.reqTake
  repeat' with_reducible first | assumption | (intro x; clear_value x) | (lift_lets -underBinder) | apply Keeps.ite | apply State.refuse_keeps | apply State.reqRun_keeps | apply State.reqStop_keeps

theorem State.ctrlReach_keeps {p : Nat} {crit : Bool} {val : Word}  (hs : Keeps s0 s) : Keeps s0 (State.ctrlReach s p crit val) := by
  unfold State.ctrlReach
  repeat' with_reducible first | assumption | (intro x; first | (refine have hx : Keeps s0 x := ?_; ?_; unfold x; rotate_left; clear_value x) | clear_value x) | (lift_lets -underBinder) | apply Keeps.ite | apply State.reqForce_keeps | apply State.reqClear_keeps | apply State.noteRun_keeps | apply State.reqTake_keeps

theorem State.ctrlWrite_keeps {who : Initiator} {p : Nat} {val : Word}  (hs : Keeps s0 s) : Keeps s0 (State.ctrlWrite s who p val) := by
  unfold State.ctrlWrite
  repeat' with_reducible first | assumption | apply Keeps.ite | apply State.protDrop_keeps | apply State.gate_keeps | apply State.ctrlReach_keeps | (intro a b hc) | (intro a hc)

theorem execBlockRunReq_keeps {who : Initiator} {b : Block}  (hs : Keeps s0 s) : KeepsO s0 (execBlockRunReq who b s) := by
  unfold execBlockRunReq
  repeat' with_reducible first | assumption | apply KeepsO.next | apply KeepsO.ite | apply State.ctrlWrite_keeps

theorem execBlockStopReq_keeps {who : Initiator} {b : Block}  (hs : Keeps s0 s) : KeepsO s0 (execBlockStopReq who b s) := by
  unfold execBlockStopReq
  repeat' with_reducible first | assumption | apply KeepsO.next | apply KeepsO.ite | apply State.ctrlWrite_keeps

theorem execForceStop_keeps {who : Initiator} {b : Block}  (hs : Keeps s0 s) : KeepsO s0 (execForceStop who b s) := by
  unfold execForceStop
  repeat' with_reducible first | assumption | apply KeepsO.next | apply KeepsO.ite | apply State.ctrlWrite_keeps

theorem execFaultClr_keeps {who : Initiator} {b : Block} {gone : Bool}  (hs : Keeps s0 s) : KeepsO s0 (execFaultClr who b gone s) := by
  unfold execFaultClr
  repeat' with_reducible first | assumption | (intro x; first | (refine have hx : Keeps s0 x := ?_; ?_; unfold x; rotate_left; clear_value x) | clear_value x) | (lift_lets -underBinder) | apply KeepsO.next | apply KeepsO.ite | apply Keeps.ite | apply State.setReg_keeps | apply State.setFlag_keeps | apply State.protDrop_keeps | apply State.gate_keeps | apply State.reqClear_keeps | (intro a b hc) | (intro a hc)

theorem execDrainComplete_keeps {b : Block}  (hs : Keeps s0 s) : KeepsO s0 (execDrainComplete b s) := by
  unfold execDrainComplete
  repeat' with_reducible first | assumption | (intro x; clear_value x) | (lift_lets -underBinder) | apply KeepsO.next | apply KeepsO.ite | apply Keeps.ite | apply State.drained_keeps

theorem execDrainTimeout_keeps {b : Block}  (hs : Keeps s0 s) : KeepsO s0 (execDrainTimeout b s) := by
  unfold execDrainTimeout
  repeat' with_reducible first | assumption | (intro x; clear_value x) | (lift_lets -underBinder) | apply KeepsO.next | apply KeepsO.ite | apply Keeps.ite | apply State.errc_keeps | apply State.toStopAbandoned_keeps | apply State.haltMark_keeps | apply State.onForce_keeps

theorem execTrainDone_keeps {failed : Option (Fin 2 × Fin 5)}  (hs : Keeps s0 s) : KeepsO s0 (execTrainDone failed s) := by
  unfold execTrainDone
  repeat' with_reducible first | assumption | (intro x; first | (refine have hx : Keeps s0 x := ?_; ?_; unfold x; rotate_left; clear_value x) | (refine have hx : Keeps s0 x.2 := ?_; ?_; unfold x; rotate_left; clear_value x) | clear_value x) | (lift_lets -underBinder) | apply KeepsO.next | apply KeepsO.ite | apply Keeps.ite | apply State.setReg_keeps | apply State.setFld_keeps | apply State.irq_keeps | apply State.toRun_keeps | apply State.fail_keeps | apply State.fresh_keeps | apply State.fresh_keeps | split

theorem execDrmRefresh_keeps {code : BitVec 4} {hot : Bool}  (hs : Keeps s0 s) : KeepsO s0 (execDrmRefresh code hot s) := by
  unfold execDrmRefresh
  repeat' with_reducible first | assumption | (intro x; first | (refine have hx : Keeps s0 x := ?_; ?_; unfold x; rotate_left; clear_value x) | clear_value x) | (lift_lets -underBinder) | apply KeepsO.next | apply KeepsO.ite | apply Keeps.ite | apply State.setReg_keeps | apply State.irq_keeps

theorem execDrmScrub_keeps {res : Ecc}  (hs : Keeps s0 s) : KeepsO s0 (execDrmScrub res s) := by
  unfold execDrmScrub
  repeat' with_reducible first | assumption | (intro x; first | (refine have hx : Keeps s0 x := ?_; ?_; unfold x; rotate_left; clear_value x) | clear_value x) | (lift_lets -underBinder) | apply KeepsO.next | apply KeepsO.ite | apply Keeps.ite | apply State.setReg64_keeps | apply State.drmUe_keeps | apply State.drmCe_keeps | split

end Sys2Proof.Machine
end

