-- ==== Sys2Proof/Laws/KeepsQuay.lean ====
section
/-! SUPPORT. `Keeps` for every operation and command of Machine/Quay.lean: the queue stays, free values are drawn once, tables stay
canonical. -/

namespace Sys2Proof.Machine
variable {s0 s : State}

theorem State.storeCtr_keeps {slot n : Nat}  (hs : Keeps s0 s) : Keeps s0 (State.storeCtr s slot n) := by
  unfold State.storeCtr
  repeat' with_reducible first | assumption | (intro x; first | (refine have hx : Keeps s0 x := ?_; ?_; unfold x; rotate_left; clear_value x) | clear_value x) | (lift_lets -underBinder) | apply Keeps.ite | apply State.errc_keeps | apply State.setSec_keeps | apply State.setKey_keeps

theorem State.applyCmd_keeps {c : QuayCmd}  (hs : Keeps s0 s) : Keeps s0 (State.applyCmd s c) := by
  unfold State.applyCmd
  repeat' with_reducible first | assumption | (intro x; clear_value x) | (lift_lets -underBinder) | apply Keeps.ite | apply State.applyForces_keeps | apply State.applyChange_keeps | apply State.switchTake_keeps | apply State.logClear_keeps | apply State.segment_keeps | apply State.keyApply_keeps | apply State.fwStart_keeps | apply State.ctrlReach_keeps

theorem State.deliverAll_keeps {target : Nat}  (hs : Keeps s0 s) : Keeps s0 (State.deliverAll s target) := by
  unfold State.deliverAll
  repeat' with_reducible first | assumption | (intro x; first | (refine have hx : Keeps s0 x := ?_; ?_; unfold x; rotate_left; clear_value x) | clear_value x) | (lift_lets -underBinder) | apply Keeps.ite | refine Keeps.foldl (fun s x hc => ?_) ?_ | apply State.setSec_keeps | apply State.applyCmd_keeps

theorem State.deliver_keeps {c : QuayCmd}  (hs : Keeps s0 s) : Keeps s0 (State.deliver s c) := by
  unfold State.deliver
  repeat' with_reducible first | assumption | apply Keeps.ite | apply State.setSec_keeps | apply State.applyCmd_keeps | apply State.deliverAll_keeps

theorem State.warmConsume_keeps   (hs : Keeps s0 s) : Keeps s0 (State.warmConsume s) := by
  unfold State.warmConsume
  repeat' with_reducible first | assumption | apply Keeps.ite | apply State.setFlag_keeps | apply Keeps.pwr

theorem State.cmdCheck_keeps {b : List Byte}  (hs : Keeps s0 s) : Keeps s0 (State.cmdCheck s b) := by
  unfold State.cmdCheck
  repeat' with_reducible first | assumption | (intro x; first | (refine have hx : Keeps s0 x := ?_; ?_; unfold x; rotate_left; clear_value x) | clear_value x) | (lift_lets -underBinder) | apply Keeps.ite | apply State.cmdEnd_keeps | apply State.storeCtr_keeps | apply State.deliver_keeps | apply State.warmConsume_keeps

theorem execCmdBegin_keeps {who : Initiator}  (hs : Keeps s0 s) : KeepsO s0 (execCmdBegin who s) := by
  unfold execCmdBegin
  repeat' with_reducible first | assumption | apply KeepsO.next | apply KeepsO.ite | apply Keeps.ite | apply State.setReg_keeps | apply State.errc_keeps | apply State.gate_keeps | apply State.setSec_keeps | (intro a b hc) | (intro a hc)

theorem execCmdData_keeps {who : Initiator} {val : Word}  (hs : Keeps s0 s) : KeepsO s0 (execCmdData who val s) := by
  unfold execCmdData
  repeat' with_reducible first | assumption | apply KeepsO.next | apply KeepsO.ite | apply Keeps.ite | apply State.gate_keeps | apply State.setSec_keeps | (intro a b hc) | (intro a hc)

theorem execCmdSubmit_keeps {who : Initiator}  (hs : Keeps s0 s) : KeepsO s0 (execCmdSubmit who s) := by
  unfold execCmdSubmit
  repeat' with_reducible first | assumption | apply KeepsO.next | apply KeepsO.ite | apply Keeps.ite | apply State.gate_keeps | apply State.cmdCheck_keeps | (intro a b hc) | (intro a hc)

theorem execCmdAbort_keeps {who : Initiator}  (hs : Keeps s0 s) : KeepsO s0 (execCmdAbort who s) := by
  unfold execCmdAbort
  repeat' with_reducible first | assumption | apply KeepsO.next | apply KeepsO.ite | apply Keeps.ite | apply State.gate_keeps | apply State.cmdDrop_keeps | (intro a b hc) | (intro a hc)

theorem execCommandDeliver_keeps {target : Word}  (hs : Keeps s0 s) : KeepsO s0 (execCommandDeliver target s) := by
  unfold execCommandDeliver
  repeat' with_reducible first | assumption | (intro x; first | (refine have hx : Keeps s0 x := ?_; ?_; unfold x; rotate_left; clear_value x) | clear_value x) | (lift_lets -underBinder) | apply KeepsO.next | apply KeepsO.ite | apply Keeps.ite | apply State.setSec_keeps | apply State.applyCmd_keeps | split

theorem State.arrive_keeps {c : QuayCmd} {k : State → State} (hk : ∀ s, Keeps s0 s → Keeps s0 (k s)) (hs : Keeps s0 s) : Keeps s0 (State.arrive s c k) := by
  unfold State.arrive
  repeat' with_reducible first | assumption | apply hk | (intro x; clear_value x) | (lift_lets -underBinder) | apply Keeps.ite | refine Keeps.foldl (fun s x hc => ?_) ?_ | apply State.setSec_keeps

theorem execBlockCtrl_keeps {target val : Word}  (hs : Keeps s0 s) : KeepsO s0 (execBlockCtrl target val s) := by
  unfold execBlockCtrl
  repeat' with_reducible first | assumption | apply KeepsO.next | apply KeepsO.ite | apply Keeps.ite | apply State.ctrlReach_keeps | apply State.arrive_keeps | (intro a b hc) | (intro a hc)

theorem execOnlineChange_keeps {items : List OcItem}  (hs : Keeps s0 s) : KeepsO s0 (execOnlineChange items s) := by
  unfold execOnlineChange
  repeat' with_reducible first | assumption | apply KeepsO.next | apply KeepsO.ite | apply Keeps.ite | apply State.applyChange_keeps | apply State.arrive_keeps | (intro a b hc) | (intro a hc)

theorem execForce_keeps {items : List ForceItem}  (hs : Keeps s0 s) : KeepsO s0 (execForce items s) := by
  unfold execForce
  repeat' with_reducible first | assumption | apply KeepsO.next | apply KeepsO.ite | apply Keeps.ite | apply State.applyForces_keeps | apply State.arrive_keeps | (intro a b hc) | (intro a hc)

theorem execLogClear_keeps {slot : Byte} {counter archived : DWord}  (hs : Keeps s0 s) : KeepsO s0 (execLogClear slot counter archived s) := by
  unfold execLogClear
  repeat' with_reducible first | assumption | apply KeepsO.next | apply KeepsO.ite | apply Keeps.ite | apply State.logClear_keeps

theorem execSwitch_keeps   (hs : Keeps s0 s) : KeepsO s0 (execSwitch s) := by
  unfold execSwitch
  repeat' with_reducible first | assumption | apply KeepsO.next | apply KeepsO.ite | apply Keeps.ite | apply State.switchTake_keeps

end Sys2Proof.Machine
end

