-- ==== Sys2Proof/Laws/KeepsPower.lean ====
section
/-! SUPPORT. `Keeps` for every operation and command of Machine/Power.lean: the queue stays, free values are drawn once, tables stay
canonical. -/

namespace Sys2Proof.Machine
variable {s0 s : State}

theorem State.setPwr_keeps {f : PwrSt → PwrSt}  (hs : Keeps s0 s) : Keeps s0 (State.setPwr s f) := by
  unfold State.setPwr
  repeat' with_reducible first | assumption | apply Keeps.pwr

theorem State.rtcHeader_keeps   (hs : Keeps s0 s) : Keeps s0 (State.rtcHeader s) := by
  unfold State.rtcHeader
  repeat' with_reducible first | assumption | apply State.setPage_keeps

theorem State.pagesWiped_keeps {k : Nat} (hs : Keeps s0 s) : Keeps s0 (s.pagesWiped k) := by
  have h : Keeps s0 (if k = 10 then s.rtcHeader else s) := Keeps.ite (State.rtcHeader_keeps hs) hs
  unfold State.pagesWiped
  exact Keeps.plic _ (Keeps.blks _ (Tab.wf_filter _) (Keeps.pages _ (Tab.wf_filter _) (Keeps.regs _ (Tab.wf_filter _) h)))

theorem State.domWiped_keeps {k : Nat} (hs : Keeps s0 s) : Keeps s0 (s.domWiped k) := by
  have h := State.pagesWiped_keeps (k := k) hs
  unfold State.domWiped
  refine Keeps.ite ?_ (Keeps.ite ?_ (Keeps.ite ?_ (Keeps.ite ?_ (Keeps.ite ?_ (Keeps.ite ?_ (Keeps.ite ?_ h))))))
  · refine h.of rfl (Nat.le_refl _) fun c => (State.canon_iff _).2 ?_
    obtain ⟨c0, c1, c2, c3, c4, c5, c6, c7, c8, c9, c10, c11, c12, c13, c14⟩ := (State.canon_iff _).1 c
    exact ⟨c0, c1, c2, c3, c4, rfl, rfl, rfl, c8, rfl, rfl, rfl, rfl, rfl, rfl⟩
  · exact h.of rfl (Nat.le_refl _) fun c => c
  · refine h.of rfl (Nat.le_refl _) fun c => (State.canon_iff _).2 ?_
    obtain ⟨c0, c1, c2, c3, c4⟩ := (State.canon_iff _).1 c
    exact ⟨c0, c1, c2, rfl, c4⟩
  · refine h.of rfl (Nat.le_refl _) fun c => (State.canon_iff _).2 ?_
    obtain ⟨c0, c1, c2, c3, c4, c5, c6, c7, c8, c9⟩ := (State.canon_iff _).1 c
    exact ⟨c0, c1, c2, c3, c4, c5, c6, c7, rfl, c9⟩
  · exact Keeps.dram _ (fun _ => rfl) h
  · exact h.of rfl (Nat.le_refl _) fun c => c
  · exact Keeps.pnl _ h

theorem State.planesWiped_keeps   (hs : Keeps s0 s) : Keeps s0 (State.planesWiped s) := by
  unfold State.planesWiped
  repeat' with_reducible first | assumption | refine Keeps.foldl (fun s x hc => ?_) ?_ | apply State.domWiped_keeps

theorem State.setGoal_keeps {k v : Nat}  (hs : Keeps s0 s) : Keeps s0 (State.setGoal s k v) := by
  unfold State.setGoal
  repeat' with_reducible first | assumption | apply State.setPwr_keeps

theorem State.domRefuse_keeps {k : Nat}  (hs : Keeps s0 s) : Keeps s0 (State.domRefuse s k) := by
  unfold State.domRefuse
  repeat' with_reducible first | assumption | apply State.setFlag_keeps

theorem State.waitersRefused_keeps {k : Nat}  (hs : Keeps s0 s) : Keeps s0 (State.waitersRefused s k) := by
  unfold State.waitersRefused
  repeat' with_reducible first | assumption | refine Keeps.foldl (fun s x hc => ?_) ?_ | apply State.setPwr_keeps | apply State.setGoal_keeps | apply State.domRefuse_keeps

theorem State.lanesGone_keeps   (hs : Keeps s0 s) : Keeps s0 (State.lanesGone s) := by
  unfold State.lanesGone
  repeat' with_reducible first | assumption | apply State.setFld_keeps | apply State.lanes_keeps

theorem State.plicWake_keeps {k : Nat}  (hs : Keeps s0 s) : Keeps s0 (State.plicWake s k) := by
  unfold State.plicWake
  repeat' with_reducible first | assumption | apply Keeps.ite | refine Keeps.foldl (fun s x hc => ?_) ?_ | apply State.setPage_keeps

theorem State.domLeave_keeps {k v : Nat}  (hs : Keeps s0 s) : Keeps s0 (State.domLeave s k v) := by
  unfold State.domLeave
  repeat' with_reducible first | assumption | (intro x; refine have hx : Keeps s0 x := ?_; ?_; unfold x; rotate_left; clear_value x) | (lift_lets -underBinder) | apply Keeps.ite | apply State.setFld_keeps | apply State.setFlag_keeps | apply State.passesDown_keeps | apply State.mdlDrop_keeps | apply State.mdlLost_keeps | apply State.drmGone_keeps | apply State.domWiped_keeps | apply State.setGoal_keeps | apply State.waitersRefused_keeps | apply State.lanesGone_keeps

theorem State.domEnter_keeps {k : Nat}  (hs : Keeps s0 s) : Keeps s0 (State.domEnter s k) := by
  unfold State.domEnter
  repeat' with_reducible first | assumption | (intro x; first | (refine have hx : Keeps s0 x := ?_; ?_; unfold x; rotate_left; clear_value x) | clear_value x) | (lift_lets -underBinder) | apply Keeps.ite | apply State.setReg_keeps | apply State.setFld_keeps | apply State.setFlag_keeps | apply State.stallRestore_keeps | apply State.mdlShow_keeps | apply State.loadTime_keeps | apply State.safeCopy_keeps | apply State.kind3Load_keeps | apply State.setGoal_keeps | apply State.plicWake_keeps | apply Keeps.nsu | apply Keeps.time

theorem State.domAway_keeps {k v : Nat}  (hs : Keeps s0 s) : Keeps s0 (State.domAway s k v) := by
  unfold State.domAway
  repeat' with_reducible first | assumption | (intro x; refine have hx : Keeps s0 x := ?_; ?_; unfold x; rotate_left; clear_value x) | (lift_lets -underBinder) | apply Keeps.ite | apply State.setPwr_keeps | apply State.setGoal_keeps | apply State.domRefuse_keeps | apply State.waitersRefused_keeps | apply State.domLeave_keeps

theorem State.domToOn_keeps {k : Nat}  (hs : Keeps s0 s) : Keeps s0 (State.domToOn s k) := by
  unfold State.domToOn
  repeat' with_reducible first | assumption | apply Keeps.ite | apply State.setPwr_keeps | apply State.setGoal_keeps | apply State.domRefuse_keeps | split

theorem State.domRequests_keeps {ks : List Nat} {val : Word}  (hs : Keeps s0 s) : Keeps s0 (State.domRequests s ks val) := by
  unfold State.domRequests
  repeat' with_reducible first | assumption | (intro x; first | (refine have hx : Keeps s0 x := ?_; ?_; unfold x; rotate_left; clear_value x) | (have y : Tab Byte := x; clear y) | clear_value x) | (lift_lets -underBinder) | refine Keeps.foldl (fun s x hc => ?_) ?_ | apply State.domAway_keeps | apply State.domToOn_keeps

theorem execDomReq_keeps {who : Initiator} {val : Word}  (hs : Keeps s0 s) : KeepsO s0 (execDomReq who val s) := by
  unfold execDomReq
  repeat' with_reducible first | assumption | (intro x; first | (refine have hx : Keeps s0 x := ?_; ?_; unfold x; rotate_left; clear_value x) | clear_value x) | (lift_lets -underBinder) | apply KeepsO.next | apply KeepsO.ite | apply Keeps.ite | apply State.setReg_keeps | apply State.gate_keeps | apply State.domRequests_keeps | (intro a b hc) | (intro a hc)

theorem execDomReqKp_keeps {who : Initiator} {val : Word}  (hs : Keeps s0 s) : KeepsO s0 (execDomReqKp who val s) := by
  unfold execDomReqKp
  repeat' with_reducible first | assumption | (intro x; first | (refine have hx : Keeps s0 x := ?_; ?_; unfold x; rotate_left; clear_value x) | clear_value x) | (lift_lets -underBinder) | apply KeepsO.next | apply KeepsO.ite | apply Keeps.ite | apply State.setReg_keeps | apply State.gate_keeps | apply State.domRequests_keeps | (intro a b hc) | (intro a hc)

theorem execDomTransitionDone_keeps {k : Fin 12}  (hs : Keeps s0 s) : KeepsO s0 (execDomTransitionDone k s) := by
  unfold execDomTransitionDone
  repeat' with_reducible first | assumption | (intro x; clear_value x) | (lift_lets -underBinder) | apply KeepsO.next | apply KeepsO.ite | apply Keeps.ite | apply State.setFld_keeps | apply State.setPwr_keeps | apply State.setGoal_keeps | apply State.domRefuse_keeps | apply State.domEnter_keeps | split

theorem execPenCheck_keeps {k : Fin 12} {rails : BitVec 19}  (hs : Keeps s0 s) : KeepsO s0 (execPenCheck k rails s) := by
  unfold execPenCheck
  repeat' with_reducible first | assumption | (intro x; first | (refine have hx : Keeps s0 x := ?_; ?_; unfold x; rotate_left; clear_value x) | clear_value x) | (lift_lets -underBinder) | apply KeepsO.next | apply KeepsO.ite | apply Keeps.ite | apply State.setReg_keeps | apply State.setFlag_keeps | apply State.setGoal_keeps | apply State.waitersRefused_keeps

theorem State.islandFault_keeps {p b code detail : Nat}  (hs : Keeps s0 s) : Keeps s0 (State.islandFault s p b code detail) := by
  unfold State.islandFault
  repeat' with_reducible first | assumption | apply Keeps.ite | apply State.statBit_keeps | apply State.blockFault_keeps

theorem execDomainBrownout_keeps {rail : Fin 20}  (hs : Keeps s0 s) : KeepsO s0 (execDomainBrownout rail s) := by
  unfold execDomainBrownout
  repeat' with_reducible first | assumption | (intro x; first | (refine have hx : Keeps s0 x := ?_; ?_; unfold x; rotate_left; clear_value x) | clear_value x) | (lift_lets -underBinder) | apply KeepsO.next | apply KeepsO.ite | apply Keeps.ite | refine Keeps.foldl (fun s x hc => ?_) ?_ | apply State.setFlag_keeps | apply State.islandFault_keeps

theorem execPwrCfgWrite_keeps {who : Initiator} {restart : Bool} {val : Word}  (hs : Keeps s0 s) : KeepsO s0 (execPwrCfgWrite who restart val s) := by
  unfold execPwrCfgWrite
  repeat' with_reducible first | assumption | (intro x; clear_value x) | (lift_lets -underBinder) | apply KeepsO.next | apply KeepsO.ite | apply Keeps.ite | apply State.setReg_keeps | apply State.cfgRej_keeps | apply State.gate_keeps | (intro a b hc) | (intro a hc)

theorem State.keeperStart_keeps   (hs : Keeps s0 s) : Keeps s0 (State.keeperStart s) := by
  unfold State.keeperStart
  repeat' with_reducible first | assumption | (intro x; first | (refine have hx : Keeps s0 x := ?_; ?_; unfold x; rotate_left; clear_value x) | clear_value x) | (lift_lets -underBinder) | apply State.setFld_keeps | apply State.slog_keeps | apply State.safeUpdate_keeps | apply State.setKpr_keeps | apply State.tablesRead_keeps | apply State.domEnter_keeps

theorem State.timeRec_keeps {v : Nat}  (hs : Keeps s0 s) : Keeps s0 (State.timeRec s v) := by
  unfold State.timeRec
  repeat' with_reducible first | assumption | apply State.setReg_keeps | apply State.irq_keeps

theorem State.serviceStart_keeps   (hs : Keeps s0 s) : Keeps s0 (State.serviceStart s) := by
  unfold State.serviceStart
  repeat' with_reducible first | assumption | (intro x; first | (refine have hx : Keeps s0 x := ?_; ?_; unfold x; rotate_left; clear_value x) | clear_value x) | (lift_lets -underBinder) | apply Keeps.ite | apply State.toRun_keeps | apply State.evrStart_keeps | apply State.bootRom_keeps | apply Keeps.time

theorem State.startUp_keeps   (hs : Keeps s0 s) : Keeps s0 (State.startUp s) := by
  unfold State.startUp
  repeat' with_reducible first | assumption | (intro x; refine have hx : Keeps s0 x := ?_; ?_; unfold x; rotate_left; clear_value x) | (lift_lets -underBinder) | apply Keeps.ite | apply State.setRegs_keeps | apply State.setFlag_keeps | apply State.rtcWake_keeps | apply State.setPwr_keeps | apply State.keeperStart_keeps | apply State.timeRec_keeps | apply State.serviceStart_keeps

theorem execRelease_keeps {sideB : Bool} {bootmode : BitVec 2} {rails : BitVec 19} {pfwHigh : Bool}  (hs : Keeps s0 s) : KeepsO s0 (execRelease sideB bootmode rails pfwHigh s) := by
  unfold execRelease
  repeat' with_reducible first | assumption | (intro x; refine have hx : Keeps s0 x := ?_; ?_; unfold x; rotate_left; clear_value x) | (lift_lets -underBinder) | apply KeepsO.next | apply KeepsO.ite | apply Keeps.ite | apply State.setReg_keeps | apply State.setPwr_keeps | apply State.startUp_keeps

theorem execPfwStartWait_keeps   (hs : Keeps s0 s) : KeepsO s0 (execPfwStartWait s) := by
  unfold execPfwStartWait
  repeat' with_reducible first | assumption | (intro x; refine have hx : Keeps s0 x := ?_; ?_; unfold x; rotate_left; clear_value x) | (lift_lets -underBinder) | apply KeepsO.next | apply KeepsO.ite | apply Keeps.ite | apply State.setPwr_keeps | apply State.startUp_keeps

theorem execTimeRecovered_keeps   (hs : Keeps s0 s) : KeepsO s0 (execTimeRecovered s) := by
  unfold execTimeRecovered
  repeat' with_reducible first | assumption | (intro x; first | (refine have hx : Keeps s0 x := ?_; ?_; unfold x; rotate_left; clear_value x) | clear_value x) | (lift_lets -underBinder) | apply KeepsO.next | apply KeepsO.ite | apply Keeps.ite | apply State.setReg_keeps | apply State.emit_keeps | apply State.stepTime_keeps | apply State.timeRec_keeps | apply Keeps.kpr | apply Keeps.nsu | apply Keeps.time

theorem State.saveStaged_keeps (hs : Keeps s0 s) : Keeps s0 s.saveStaged := by
  unfold State.saveStaged
  exact Keeps.foldl_fst (fun _ _ h => flushOne_keeps h) (Keeps.evr _ hs)

theorem State.saveItems_keeps {n : Nat} {complete : Bool}  (hs : Keeps s0 s) : Keeps s0 (State.saveItems s n complete) := by
  unfold State.saveItems
  repeat' with_reducible first | assumption | (intro x; first | (refine have hx : Keeps s0 x := ?_; ?_; unfold x; rotate_left; clear_value x) | clear_value x) | (lift_lets -underBinder) | apply Keeps.ite | apply State.setReg_keeps | apply State.setReg64_keeps | apply State.setSaves_keeps | apply State.captureItem_keeps | apply State.dirtyItem_keeps | apply State.saveStaged_keeps

theorem State.saveCut_keeps   (hs : Keeps s0 s) : Keeps s0 (State.saveCut s) := by
  unfold State.saveCut
  repeat' with_reducible first | assumption | apply Keeps.ite | apply State.fresh_keeps | apply State.saveItems_keeps

theorem State.resetAll_keeps {cause : Nat} (hs : Keeps s0 s) : Keeps s0 (s.resetAll cause) := by
  unfold State.resetAll
  refine State.setReg_keeps (State.setPage_keeps ⟨hs.queue, hs.drawn, fun c => (State.canon_iff _).2 ⟨?_, ?_⟩⟩)
  · exact Tab.wf_filter _ ((State.canon_iff _).1 (hs.form c)).1
  · exact ⟨rfl, rfl, rfl, rfl, rfl, rfl, rfl, rfl, rfl, rfl, rfl, rfl, rfl, rfl⟩

theorem execPowerOn_keeps   (hs : Keeps s0 s) : KeepsO s0 (execPowerOn s) := by
  unfold execPowerOn
  repeat' with_reducible first | assumption | apply KeepsO.next | apply KeepsO.ite | apply State.setPwr_keeps | apply State.saveCut_keeps | apply State.resetAll_keeps

theorem execPinReset_keeps   (hs : Keeps s0 s) : KeepsO s0 (execPinReset s) := by
  unfold execPinReset
  repeat' with_reducible first | assumption | apply KeepsO.next | apply KeepsO.ite | apply State.setPwr_keeps | apply State.saveCut_keeps | apply State.resetAll_keeps

theorem execCoreBrownout_keeps   (hs : Keeps s0 s) : KeepsO s0 (execCoreBrownout s) := by
  unfold execCoreBrownout
  repeat' with_reducible first | assumption | apply KeepsO.next | apply KeepsO.ite | apply State.setPwr_keeps | apply State.saveCut_keeps | apply State.resetAll_keeps

theorem execKeeperReset_keeps   (hs : Keeps s0 s) : KeepsO s0 (execKeeperReset s) := by
  unfold execKeeperReset
  repeat' with_reducible first | assumption | (intro x; refine have hx : Keeps s0 x := ?_; ?_; unfold x; rotate_left; clear_value x) | (lift_lets -underBinder) | apply KeepsO.next | apply KeepsO.ite | apply Keeps.ite | apply State.setPwr_keeps | apply State.startUp_keeps | apply State.saveCut_keeps | apply State.resetAll_keeps

theorem execSupplyReturn_keeps   (hs : Keeps s0 s) : KeepsO s0 (execSupplyReturn s) := by
  unfold execSupplyReturn
  repeat' with_reducible first | assumption | (intro x; refine have hx : Keeps s0 x := ?_; ?_; unfold x; rotate_left; clear_value x) | (lift_lets -underBinder) | apply KeepsO.next | apply KeepsO.ite | apply Keeps.ite | apply State.setPwr_keeps | apply State.startUp_keeps

theorem execTapReset_keeps   (hs : Keeps s0 s) : KeepsO s0 (execTapReset s) := by
  unfold execTapReset
  repeat' with_reducible first | assumption | apply KeepsO.next | apply KeepsO.ite | apply State.setPwr_keeps

theorem execRstoutRelease_keeps   (hs : Keeps s0 s) : KeepsO s0 (execRstoutRelease s) := by
  unfold execRstoutRelease
  repeat' with_reducible first | assumption | apply KeepsO.next | apply KeepsO.ite | apply Keeps.ite | apply State.setPwr_keeps

theorem execMgmtRst_keeps {who : Initiator} {val : Word}  (hs : Keeps s0 s) : KeepsO s0 (execMgmtRst who val s) := by
  unfold execMgmtRst
  repeat' with_reducible first | assumption | apply KeepsO.next | apply KeepsO.ite | apply Keeps.ite | apply State.gate_keeps | apply State.setPwr_keeps | (intro a b hc) | (intro a hc)

theorem execMgmtReset_keeps   (hs : Keeps s0 s) : KeepsO s0 (execMgmtReset s) := by
  unfold execMgmtReset
  repeat' with_reducible first | assumption | (intro x; refine have hx : Keeps s0 x := ?_; ?_; unfold x; rotate_left; clear_value x) | (lift_lets -underBinder) | apply KeepsO.next | apply KeepsO.ite | apply Keeps.ite | apply State.setFlag_keeps | apply State.flushLog_keeps | apply State.setPwr_keeps | apply State.domWiped_keeps | apply State.serviceStart_keeps

theorem execClkUnlock_keeps {l : LockChange}  (hs : Keeps s0 s) : KeepsO s0 (execClkUnlock l s) := by
  unfold execClkUnlock
  repeat' with_reducible first | assumption | (intro x; first | (refine have hx : Keeps s0 x := ?_; ?_; unfold x; rotate_left; clear_value x) | clear_value x) | (lift_lets -underBinder) | apply KeepsO.next | apply KeepsO.ite | apply Keeps.ite | refine Keeps.foldl (fun s x hc => ?_) ?_ | apply State.setFlag_keeps | apply State.lanesGone_keeps | apply State.islandFault_keeps

theorem State.clkFail_keeps {noEdge : Bool}  (hs : Keeps s0 s) : Keeps s0 (State.clkFail s noEdge) := by
  unfold State.clkFail
  repeat' with_reducible first | assumption | (intro x; refine have hx : Keeps s0 x := ?_; ?_; unfold x; rotate_left; clear_value x) | (lift_lets -underBinder) | apply Keeps.ite | apply State.setFlag_keeps | apply State.slog_keeps | apply State.safeUpdate_keeps | apply State.setKpr_keeps | apply State.setPwr_keeps | apply State.planesWiped_keeps | apply State.saveCut_keeps

theorem execClkCheckWindow_keeps {count : Word}  (hs : Keeps s0 s) : KeepsO s0 (execClkCheckWindow count s) := by
  unfold execClkCheckWindow
  repeat' with_reducible first | assumption | (intro x; first | (refine have hx : Keeps s0 x := ?_; ?_; unfold x; rotate_left; clear_value x) | clear_value x) | (lift_lets -underBinder) | apply KeepsO.next | apply KeepsO.ite | apply Keeps.ite | apply State.setFlag_keeps | apply State.setPwr_keeps | apply State.startUp_keeps | apply State.clkFail_keeps

theorem execClkEdgeTimeout_keeps   (hs : Keeps s0 s) : KeepsO s0 (execClkEdgeTimeout s) := by
  unfold execClkEdgeTimeout
  repeat' with_reducible first | assumption | apply KeepsO.next | apply KeepsO.ite | apply Keeps.ite | apply State.setPwr_keeps | apply State.clkFail_keeps

theorem execPfwWarn_keeps   (hs : Keeps s0 s) : KeepsO s0 (execPfwWarn s) := by
  unfold execPfwWarn
  repeat' with_reducible first | assumption | (intro x; refine have hx : Keeps s0 x := ?_; ?_; unfold x; rotate_left; clear_value x) | (lift_lets -underBinder) | apply KeepsO.next | apply KeepsO.ite | apply Keeps.ite | apply State.setFlag_keeps | apply State.setPwr_keeps

theorem execPfwClear_keeps   (hs : Keeps s0 s) : KeepsO s0 (execPfwClear s) := by
  unfold execPfwClear
  repeat' with_reducible first | assumption | (intro x; refine have hx : Keeps s0 x := ?_; ?_; unfold x; rotate_left; clear_value x) | (lift_lets -underBinder) | apply KeepsO.next | apply KeepsO.ite | apply Keeps.ite | apply State.setFlag_keeps | apply State.setPwr_keeps

theorem State.padsSafe_keeps   (hs : Keeps s0 s) : Keeps s0 (State.padsSafe s) := by
  unfold State.padsSafe
  repeat' with_reducible first | assumption | (intro x; first | (refine have hx : Keeps s0 x := ?_; ?_; unfold x; rotate_left; clear_value x) | clear_value x) | (lift_lets -underBinder) | apply Keeps.ite | refine Keeps.foldl (fun s x hc => ?_) ?_ | apply State.pulseCut_keeps | apply State.drive_keeps | apply State.driveOff_keeps | (intro a b hc) | (intro a hc) | apply_assumption | split | dsimp only | apply wf_wrBytes | apply wf_wrN | (refine wf_foldl _ (fun m x w => ?_) _ ?_) | (refine Keeps.img _ (fun w => ?_) ?_)

theorem execPfwLatch_keeps   (hs : Keeps s0 s) : KeepsO s0 (execPfwLatch s) := by
  unfold execPfwLatch
  repeat' with_reducible first | assumption | (intro x; refine have hx : Keeps s0 x := ?_; ?_; unfold x; rotate_left; clear_value x) | (lift_lets -underBinder) | apply KeepsO.next | apply KeepsO.ite | apply Keeps.ite | refine Keeps.foldl (fun s x hc => ?_) ?_ | apply State.setFlag_keeps | apply State.emit_keeps | apply State.slog_keeps | apply State.mtrFreeze_keeps | apply State.safeUpdate_keeps | apply State.coresStop_keeps | apply State.stageQueue_keeps | apply State.pnlPowerFail_keeps | apply State.setKpr_keeps | apply State.cmdDrop_keeps | apply State.setPwr_keeps | apply State.setGoal_keeps | apply State.domLeave_keeps | apply State.padsSafe_keeps

theorem execOutTorn_keeps   (hs : Keeps s0 s) : KeepsO s0 (execOutTorn s) := by
  unfold execOutTorn
  repeat' with_reducible first | assumption | apply KeepsO.next | apply KeepsO.ite | apply Keeps.ite | apply State.setFlag_keeps | apply State.slog_keeps | apply State.setLge_keeps

theorem execSaveComplete_keeps   (hs : Keeps s0 s) : KeepsO s0 (execSaveComplete s) := by
  unfold execSaveComplete
  repeat' with_reducible first | assumption | (intro x; refine have hx : Keeps s0 x := ?_; ?_; unfold x; rotate_left; clear_value x) | (lift_lets -underBinder) | apply KeepsO.next | apply KeepsO.ite | apply Keeps.ite | apply State.safeUpdate_keeps | apply State.setPwr_keeps | apply State.planesWiped_keeps | apply State.setGoal_keeps | apply State.domLeave_keeps | apply State.saveItems_keeps

theorem execPfwRestart_keeps   (hs : Keeps s0 s) : KeepsO s0 (execPfwRestart s) := by
  unfold execPfwRestart
  repeat' with_reducible first | assumption | apply KeepsO.next | apply KeepsO.ite | apply Keeps.ite | apply State.startUp_keeps | apply State.resetAll_keeps

theorem execLatePowerFail_keeps {itemsSaved : Fin 6}  (hs : Keeps s0 s) : KeepsO s0 (execLatePowerFail itemsSaved s) := by
  unfold execLatePowerFail
  repeat' with_reducible first | assumption | (intro x; refine have hx : Keeps s0 x := ?_; ?_; unfold x; rotate_left; clear_value x) | (lift_lets -underBinder) | apply KeepsO.next | apply KeepsO.ite | apply Keeps.ite | apply State.saveItems_keeps | apply State.resetAll_keeps

theorem execRestartGo_keeps {who : Initiator}  (hs : Keeps s0 s) : KeepsO s0 (execRestartGo who s) := by
  unfold execRestartGo
  repeat' with_reducible first | assumption | (intro x; first | (refine have hx : Keeps s0 x := ?_; ?_; unfold x; rotate_left; clear_value x) | clear_value x) | (lift_lets -underBinder) | apply KeepsO.next | apply KeepsO.ite | apply Keeps.ite | refine Keeps.foldl (fun s x hc => ?_) ?_ | apply State.setFlag_keeps | apply State.errc_keeps | apply State.emit_keeps | apply State.gate_keeps | apply State.ctrlReach_keeps | apply State.warmConsume_keeps | (intro a b hc) | (intro a hc)

end Sys2Proof.Machine
end

