-- ==== Sys2Proof/Laws/KeepsBus.lean ====
section
/-! SUPPORT. `Keeps` for every operation and command of Machine/Bus.lean: the queue stays, free values are drawn once, tables stay
canonical. -/

namespace Sys2Proof.Machine
variable {s0 s : State}

theorem State.setPlic_keeps {pl : Plane} {f : Plic → Plic}  (hs : Keeps s0 s) : Keeps s0 (State.setPlic s pl f) := by
  unfold State.setPlic
  repeat' with_reducible first | assumption | apply Keeps.plic

theorem State.plicComplete_keeps {pl : Plane} {c n : Nat}  (hs : Keeps s0 s) : Keeps s0 (State.plicComplete s pl c n) := by
  unfold State.plicComplete
  repeat' with_reducible first | assumption | (intro x; refine have hx : Keeps s0 x := ?_; ?_; unfold x; rotate_left; clear_value x) | (lift_lets -underBinder) | apply Keeps.ite | apply State.setPlic_keeps

theorem State.plicWrite_keeps {pl : Plane} {o : Nat} {v : Word}  (hs : Keeps s0 s) : Keeps s0 (State.plicWrite s pl o v) := by
  unfold State.plicWrite
  repeat' with_reducible first | assumption | (intro x; clear_value x) | (lift_lets -underBinder) | apply Keeps.ite | refine Keeps.foldl (fun s x hc => ?_) ?_ | apply State.setPlic_keeps | apply State.plicComplete_keeps

theorem State.plicRead_keeps {pl : Plane} {o : Nat}  (hs : Keeps s0 s) : Keeps s0 (State.plicRead s pl o) := by
  unfold State.plicRead
  repeat' with_reducible first | assumption | (intro x; clear_value x) | (lift_lets -underBinder) | apply Keeps.ite | apply State.answer_keeps | apply State.setPlic_keeps

theorem State.windowWrite_keeps {who : Initiator} {a : Nat} {v : Word}  (hs : Keeps s0 s) : Keeps s0 (State.windowWrite s who a v) := by
  unfold State.windowWrite
  repeat' with_reducible first | (rw [State.answer_tcm] at *; assumption) | (rw [State.answer_yard] at *; assumption) | (rw [State.answer_dram] at *; assumption) | assumption | apply Keeps.ite | apply State.answer_keeps | apply State.accFault_keeps | apply State.plicWrite_keeps | split | apply wf_wrBytes | apply wf_wrN | (refine wf_foldl _ (fun m x w => ?_) _ ?_) | (refine Keeps.yard _ (fun w => ?_) ?_) | (refine Keeps.dram _ (fun w => ?_) ?_) | (refine Keeps.tcm _ (fun w => ?_) ?_)

theorem State.windowRead_keeps {who : Initiator} {a : Nat}  (hs : Keeps s0 s) : Keeps s0 (State.windowRead s who a) := by
  unfold State.windowRead
  repeat' with_reducible first | assumption | apply Keeps.ite | apply State.answer_keeps | apply State.accFault_keeps | apply State.bootRom_keeps | apply State.plicRead_keeps | split

end Sys2Proof.Machine
end

