-- ==== Sys2Proof/Laws/KeepsRegWrite.lean ====
section
/-! SUPPORT. `Keeps` for every operation and command of Machine/RegWrite.lean: the queue stays, free values are drawn once, tables stay
canonical. -/

namespace Sys2Proof.Machine
variable {s0 s : State}

theorem State.hdrWrite_keeps {p o : Nat} {val : Word}  (hs : Keeps s0 s) : Keeps s0 (State.hdrWrite s p o val) := by
  unfold State.hdrWrite
  repeat' with_reducible first | assumption | (intro x; clear_value x) | (lift_lets -underBinder) | apply Keeps.ite | apply State.setPage_keeps

theorem State.rwWrite_keeps {a : Nat} {v : Word}  (hs : Keeps s0 s) : Keeps s0 (State.rwWrite s a v) := by
  unfold State.rwWrite
  repeat' with_reducible first | assumption | apply Keeps.ite | apply State.setReg_keeps | apply State.incReg_keeps | split

theorem State.rowWrite_keeps {a : Nat} {val : Word} {r : RegRow}  (hs : Keeps s0 s) : Keeps s0 (State.rowWrite s a val r) := by
  unfold State.rowWrite
  repeat' with_reducible first | assumption | (intro x; clear_value x) | (lift_lets -underBinder) | apply Keeps.ite | apply State.setReg_keeps | apply State.rws_keeps | apply State.safeUpdate_keeps | apply State.rwWrite_keeps | split | (intro a b hc) | (intro a hc)

theorem State.tableWrite_keeps {a : Nat} {val : Word} (hs : Keeps s0 s) : Keeps s0 (s.tableWrite a val) := by
  unfold State.tableWrite
  split
  · exact hs
  · exact State.rowWrite_keeps hs

theorem State.genericWrite_keeps {who : Initiator} {a : Nat} {val : Word}  (hs : Keeps s0 s) : Keeps s0 (State.genericWrite s who a val) := by
  unfold State.genericWrite
  repeat' with_reducible first | assumption | apply Keeps.ite | apply State.gate_keeps | apply State.hdrWrite_keeps | apply State.tableWrite_keeps | (intro a b hc) | (intro a hc)

theorem State.after_keeps {f : State → Host.Outcome State Fault Refusal} (hf : KeepsO s0 (f s)) (hs : Keeps s0 s) :
    Keeps s0 (s.after f) := by
  unfold State.after
  split
  · exact hf _ (by assumption)
  · exact hs

theorem State.afterBit_keeps {val : Word} {i : Nat} {f : State → Host.Outcome State Fault Refusal} (hf : ∀ s, Keeps s0 s → KeepsO s0 (f s)) (hs : Keeps s0 s) : Keeps s0 (State.afterBit s val i f) := by
  unfold State.afterBit
  repeat' with_reducible first | assumption | apply hf | apply Keeps.ite | apply State.after_keeps

theorem State.bitsWrite_keeps {who : Initiator} {a : Nat} {val : Word} {l : List (Nat × (State → Host.Outcome State Fault Refusal))}
    (hl : l.Forall fun e => ∀ s, Keeps s0 s → KeepsO s0 (e.2 s)) (hs : Keeps s0 s) : Keeps s0 (s.bitsWrite who a val l) := by
  unfold State.bitsWrite
  refine Keeps.ite (State.gate_keeps (fun _ h => h) hs) ?_
  induction l generalizing s with
  | nil => exact hs
  | cons e l ih =>
    rw [List.forall_cons] at hl
    exact ih hl.2 (State.afterBit_keeps hl.1 hs)

theorem State.axsWrite_keeps {who : Initiator} {val : Word}  (hs : Keeps s0 s) : Keeps s0 (State.axsWrite s who val) := by
  unfold State.axsWrite
  repeat' with_reducible first | assumption | (intro x; clear_value x) | (lift_lets -underBinder) | apply State.gate_keeps | apply State.cmdDone_keeps | apply execReference_keeps | apply execSetPos_keeps | apply execClear_keeps | apply execHalt_keeps | apply State.after_keeps | split | (intro a b hc) | (intro a hc)

theorem State.txbWrite_keeps {who : Initiator} {n : Fin 12} {val : Word} (hs : Keeps s0 s) : Keeps s0 (s.txbWrite who n val) := by
  unfold State.txbWrite
  have h0 : Keeps s0 (if val &&& 0x176 = 0 then s.gate who (R.CAN_TXB_CMD n.val) fun s => s else s) :=
    Keeps.ite (State.gate_keeps (fun _ h => h) hs) hs
  have h1 := Keeps.ite (c := bits val 2 1 = 0) h0 (State.after_keeps (execTxbReq_keeps (who := who) (n := n) (b1 := bit val 1) (b2 := bit val 2) h0) h0)
  exact State.afterBit_keeps (fun _ h => execRecReq_keeps h) (Keeps.ite h1 (State.after_keeps (execTxbAbort_keeps h1) h1))

theorem State.ownWrite_keeps {who : Initiator} {a : Nat} {val : Word}  (hs : Keeps s0 s) : Keeps s0 (State.ownWrite s who a val) := by
  unfold State.ownWrite
  repeat' with_reducible first | (simp only [List.Forall]) | apply And.intro | assumption | (intro x; clear_value x) | (lift_lets -underBinder) | apply Keeps.ite | apply State.protDrop_keeps | apply State.gate_keeps | apply State.rws_keeps | apply execHqTxTail_keeps | apply execHqRxTail_keeps | apply execLdBegin_keeps | apply execLdData_keeps | apply execLdEnd_keeps | apply execLdAbort_keeps | apply execFtIndex_keeps | apply execModelLoad_keeps | apply execModelCancel_keeps | apply execSwSend_keeps | apply execRdOfs_keeps | apply execRlIndex_keeps | apply State.wrRlCfg_keeps | apply execJqCfgWrite_keeps | apply execJqTail_keeps | apply execLmapWrite_keeps | apply execFcStart_keeps | apply execDspNow_keeps | apply execFcCancel_keeps | apply execWakePeriod_keeps | apply execCommitGo_keeps | apply execWfBegin_keeps | apply execWfData_keeps | apply execWfEnd_keeps | apply execWfAbort_keeps | apply execUpdGo_keeps | apply execClearWf_keeps | apply execFullClear_keeps | apply execSet_keeps | apply execSeconds_keeps | apply execSlogIndex_keeps | apply execFwConfirm_keeps | apply execExtend2_keeps | apply execLock2_keeps | apply execQuoteStart_keeps | apply execQuoteCert_keeps | apply State.ctrlWrite_keeps | apply execCmdBegin_keeps | apply execCmdData_keeps | apply execCmdSubmit_keeps | apply execCmdAbort_keeps | apply execDomReq_keeps | apply execDomReqKp_keeps | apply execPwrCfgWrite_keeps | apply execMgmtRst_keeps | apply execRestartGo_keeps | apply State.after_keeps | apply State.bitsWrite_keeps | apply State.axsWrite_keeps | apply State.txbWrite_keeps | (intro a b hc) | (intro a hc)

theorem State.regWrite_keeps {who : Initiator} {a : Nat} {val : Word}  (hs : Keeps s0 s) : Keeps s0 (State.regWrite s who a val) := by
  unfold State.regWrite
  repeat' with_reducible first | assumption | apply Keeps.ite | apply State.accFault_keeps | apply State.windowWrite_keeps | apply State.genericWrite_keeps | apply State.ownWrite_keeps

theorem State.pageRead_keeps {who : Initiator} {a : Nat}  (hs : Keeps s0 s) : Keeps s0 (State.pageRead s who a) := by
  unfold State.pageRead
  repeat' with_reducible first | assumption | (intro x; clear_value x) | (lift_lets -underBinder) | apply Keeps.ite | apply State.answer_keeps | apply State.winRead_keeps | apply State.readTotalLo_keeps | apply execResLoRead_keeps | apply execCapTsNs_keeps | apply execCapTsSh_keeps | apply execTimeRead_keeps | apply execTime2Read_keeps | apply execTimeNs_keeps | apply State.after_keeps

theorem State.busRead_keeps {who : Initiator} {a : Nat} {wordAccess : Bool}  (hs : Keeps s0 s) : Keeps s0 (State.busRead s who a wordAccess) := by
  unfold State.busRead
  repeat' with_reducible first | assumption | apply Keeps.ite | apply State.answer_keeps | apply State.accFault_keeps | apply State.rgate_keeps | apply State.windowRead_keeps | apply State.pageRead_keeps | (intro a b hc) | (intro a hc)

theorem execPlainRegWrite_keeps {who : Initiator} {addr val : Word} {wordAccess : Bool}  (hs : Keeps s0 s) : KeepsO s0 (execPlainRegWrite who addr val wordAccess s) := by
  unfold execPlainRegWrite
  repeat' with_reducible first | assumption | apply KeepsO.next | apply KeepsO.ite | apply Keeps.ite | apply State.accFault_keeps | apply State.regWrite_keeps

theorem execIrqSet_keeps {who : Initiator} {page : Byte} {val : Word}  (hs : Keeps s0 s) : KeepsO s0 (execIrqSet who page val s) := by
  unfold execIrqSet
  repeat' with_reducible first | assumption | apply KeepsO.next | apply KeepsO.ite | apply State.genericWrite_keeps

theorem execRegRead_keeps {c : Fin 4} {addr : Word}  (hs : Keeps s0 s) : KeepsO s0 (execRegRead c addr s) := by
  unfold execRegRead
  repeat' with_reducible first | apply State.pageRead_keeps | assumption | (intro x; first | (refine have hx : Keeps s0 x := ?_; ?_; unfold x; rotate_left; clear_value x) | clear_value x) | (lift_lets -underBinder) | apply KeepsO.next | apply KeepsO.ite | apply Keeps.ite | apply State.ecallRet_keeps

end Sys2Proof.Machine
end

