-- ==== Sys2Proof/Laws/KeepsCycle.lean ====
section
/-! SUPPORT. `Keeps` for every operation and command of Machine/Cycle.lean: the queue stays, free values are drawn once, tables stay
canonical. -/

namespace Sys2Proof.Machine
variable {s0 s : State}

theorem State.coreStores_keeps {l : List TcmStore}  (hs : Keeps s0 s) : Keeps s0 (State.coreStores s l) := by
  unfold State.coreStores
  repeat' with_reducible first | assumption | refine Keeps.foldl (fun s x hc => ?_) ?_ | (intro a b hc) | (intro a hc) | apply wf_wrBytes | apply wf_wrN | (refine wf_foldl _ (fun m x w => ?_) _ ?_) | (refine Keeps.tcm _ (fun w => ?_) ?_)

theorem State.applyCall_keeps {e : Nat × Word × Word}  (hs : Keeps s0 s) : Keeps s0 (State.applyCall s e) := by
  unfold State.applyCall
  repeat' with_reducible first | assumption | (intro x; first | (refine have hx : Keeps s0 x := ?_; ?_; unfold x; rotate_left; clear_value x) | clear_value x) | (lift_lets -underBinder) | apply Keeps.ite | apply State.incReg_keeps | apply State.emit_keeps | apply State.regWrite_keeps

theorem State.applyCalls_keeps   (hs : Keeps s0 s) : Keeps s0 (State.applyCalls s) := by
  unfold State.applyCalls
  repeat' with_reducible first | assumption | (intro x; clear_value x) | (lift_lets -underBinder) | refine Keeps.foldl (fun s x hc => ?_) ?_ | apply State.setLge_keeps | apply State.applyCall_keeps

theorem execExecuteDone_keeps {stores : List TcmStore} {us : List Word}  (hs : Keeps s0 s) : KeepsO s0 (execExecuteDone stores us s) := by
  unfold execExecuteDone
  repeat' with_reducible first | assumption | (intro x; refine have hx : Keeps s0 x := ?_; ?_; unfold x; rotate_left; clear_value x) | (lift_lets -underBinder) | apply KeepsO.next | apply KeepsO.ite | apply Keeps.ite | apply State.setReg_keeps | apply State.outputEnd_keeps | apply State.setLge_keeps | apply State.takeCapture_keeps | apply State.gatherOutput_keeps | apply State.driveAll_keeps | apply State.execTimes_keeps | apply State.standDown_keeps | apply State.coreStores_keeps | apply State.applyCalls_keeps | split

theorem State.switchEnd_keeps   (hs : Keeps s0 s) : Keeps s0 (State.switchEnd s) := by
  unfold State.switchEnd
  repeat' with_reducible first | assumption | apply Keeps.ite | apply State.setPlk_keeps | apply State.standDown_keeps | apply State.switchNow_keeps

theorem execFrameTaken_keeps   (hs : Keeps s0 s) : KeepsO s0 (execFrameTaken s) := by
  unfold execFrameTaken
  repeat' with_reducible first | assumption | (intro x; first | (refine have hx : Keeps s0 x := ?_; ?_; unfold x; rotate_left; clear_value x) | clear_value x) | (lift_lets -underBinder) | apply KeepsO.next | apply KeepsO.ite | apply Keeps.ite | apply State.setReg_keeps | apply State.setLge_keeps | apply State.publish_keeps | apply State.sendFrame_keeps | apply State.deliverAll_keeps | apply State.switchEnd_keeps

end Sys2Proof.Machine
end

