-- ==== Sys2Proof/Laws/Units.lean ====
section
/-! SUPPORT. Fields of registers read after a write, and the numbered units (channels, ports, axes, outputs, stalls) after each
operation. -/

namespace Sys2Proof.Machine

variable (s : State)

/-! ### Fields and bits of registers -/

/-- A field reads the low bits of what was put, in any part that starts where it does. -/
theorem State.fld_setFld (a : Nat) {hi i : Nat} (lo x : Nat) (h : hi < 32) (hi' : i ≤ hi) :
    (s.setFld a hi lo x).fld a i lo = x % 2 ^ (i + 1 - lo) := by
  rw [State.fld, State.reg_setFld, if_pos rfl]
  apply Nat.eq_of_testBit_eq
  intro k
  rw [testBit_bits, Nat.testBit_mod_two_pow]
  by_cases hk : k < i + 1 - lo
  · rw [getLsbD_putBits _ hi lo x _ (by omega), if_pos ⟨by omega, by omega⟩, Nat.add_sub_cancel_left]
  · simp [hk]
/-- A field beside the one put is as before. -/
theorem State.fld_setFld_ne (a : Nat) {hi lo i j : Nat} (x : Nat) (h : i < 32) (hd : i < lo ∨ hi < j) :
    (s.setFld a hi lo x).fld a i j = s.fld a i j := by
  rw [State.fld, State.reg_setFld, if_pos rfl, bits_putBits_ne _ _ h hd]; rfl
theorem State.fld_setFld_reg {a b : Nat} (hi lo x i j : Nat) (h : b ≠ a) : (s.setFld a hi lo x).fld b i j = s.fld b i j := by
  rw [State.fld, State.reg_setFld, if_neg h]; rfl
theorem State.fld_setReg (a b : Nat) (v : Word) (i j : Nat) : (s.setReg a v).fld b i j = if b = a then bits v i j else s.fld b i j := by
  rw [State.fld, State.reg_setReg]; split <;> rfl
theorem State.flag_setReg (a b : Nat) (v : Word) (i : Nat) : (s.setReg a v).flag b i = if b = a then bit v i else s.flag b i := by
  rw [State.flag, State.reg_setReg]; split <;> rfl
theorem State.flag_setFlag (a b i j : Nat) (v : Bool) (hj : j < 32) :
    (s.setFlag a i v).flag b j = if b = a ∧ i = j then v else s.flag b j := by
  rw [State.flag, State.reg_setFlag]
  by_cases h : b = a
  · subst h; rw [if_pos rfl, bit_putBit _ _ _ _ hj]; by_cases h : i = j <;> simp [h, State.flag]
  · rw [if_neg h, if_neg (fun e => h e.1), State.flag]
theorem State.flag_setFld_ne (a : Nat) {hi lo i : Nat} (x : Nat) (h : i < 32) (hd : i < lo ∨ hi < i) :
    (s.setFld a hi lo x).flag a i = s.flag a i := by
  rw [State.flag, State.reg_setFld, if_pos rfl, bit_putBits_ne _ _ h hd]; rfl
theorem State.flag_setFld_reg {a b : Nat} (hi lo x i : Nat) (h : b ≠ a) : (s.setFld a hi lo x).flag b i = s.flag b i := by
  rw [State.flag, State.reg_setFld, if_neg h]; rfl
theorem State.fld_setFlag_ne (a : Nat) {i j n : Nat} (b : Bool) (hi : i < 32) (h : n < j ∨ i < n) :
    (s.setFlag a n b).fld a i j = s.fld a i j := by
  rw [State.fld, State.reg_setFlag, if_pos rfl, bits_putBit_ne _ _ hi h]; rfl
theorem State.fld_setFlag_reg {a b : Nat} (n i j : Nat) (v : Bool) (h : b ≠ a) : (s.setFlag a n v).fld b i j = s.fld b i j := by
  rw [State.fld, State.reg_setFlag, if_neg h]; rfl

/-! ### Numbered units -/

theorem State.canCh_congr {s t : State} (h : t.can = s.can) (n : Nat) : t.canCh n = s.canCh n := by rw [State.canCh, h]; rfl
theorem State.canCh_setCan (n m : Nat) (x : CanCh) : (s.setCan n x).canCh m = if m = n then x else s.canCh m := by
  simp only [eq_comm (a := m)]; exact Tab.get_set (fun _ => ({} : CanCh)) s.can n m x
@[simp] theorem State.canCh_setReg (a : Nat) (v : Word) (n : Nat) : (s.setReg a v).canCh n = s.canCh n := (rfl)
@[simp] theorem State.canCh_setFld (a hi lo x : Nat) (n : Nat) : (s.setFld a hi lo x).canCh n = s.canCh n := (rfl)
@[simp] theorem State.canCh_setFlag (a i : Nat) (b : Bool) (n : Nat) : (s.setFlag a i b).canCh n = s.canCh n := (rfl)
@[simp] theorem State.canCh_incReg (a : Nat) (n : Nat) : (s.incReg a).canCh n = s.canCh n := (rfl)
@[simp] theorem State.canCh_setReg64 (a b x : Nat) (n : Nat) : (s.setReg64 a b x).canCh n = s.canCh n := (rfl)
@[simp] theorem State.canCh_irq (p i : Nat) (n : Nat) : (s.irq p i).canCh n = s.canCh n := (rfl)
@[simp] theorem State.canCh_errc (p c d : Nat) (n : Nat) : (s.errc p c d).canCh n = s.canCh n := (rfl)
@[simp] theorem State.canCh_statBit (p i : Nat) (b : Bool) (n : Nat) : (s.statBit p i b).canCh n = s.canCh n := (rfl)
@[simp] theorem State.canCh_setPage (p : Nat) (h : PageHdr) (n : Nat) : (s.setPage p h).canCh n = s.canCh n := (rfl)
@[simp] theorem State.canCh_setBlk (p : Nat) (b : Blk) (n : Nat) : (s.setBlk p b).canCh n = s.canCh n := (rfl)
@[simp] theorem State.canCh_answer (v : Word) (n : Nat) : (s.answer v).canCh n = s.canCh n := (rfl)
@[simp] theorem State.canCh_setRegs (l : List (Nat × Word)) (n : Nat) : (s.setRegs l).canCh n = s.canCh n := State.canCh_congr (by simp) n
@[simp] theorem State.canCh_emit (k p : Nat) (l : List Word) (n : Nat) : (s.emit k p l).canCh n = s.canCh n := State.canCh_congr (by simp) n
@[simp] theorem State.canCh_emitSev (k : Nat) (v : BitVec 2) (p : Nat) (l : List Word) (n : Nat) : (s.emitSev k v p l).canCh n = s.canCh n := State.canCh_congr (by simp) n
theorem State.capCh_congr {s t : State} (h : t.cap = s.cap) (n : Nat) : t.capCh n = s.capCh n := by rw [State.capCh, h]; rfl
theorem State.capCh_setCap (n m : Nat) (x : CapCh) : (s.setCap n x).capCh m = if m = n then x else s.capCh m := by
  simp only [eq_comm (a := m)]; exact Tab.get_set (fun _ => ({} : CapCh)) s.cap n m x
@[simp] theorem State.capCh_setReg (a : Nat) (v : Word) (n : Nat) : (s.setReg a v).capCh n = s.capCh n := (rfl)
@[simp] theorem State.capCh_setFld (a hi lo x : Nat) (n : Nat) : (s.setFld a hi lo x).capCh n = s.capCh n := (rfl)
@[simp] theorem State.capCh_setFlag (a i : Nat) (b : Bool) (n : Nat) : (s.setFlag a i b).capCh n = s.capCh n := (rfl)
@[simp] theorem State.capCh_incReg (a : Nat) (n : Nat) : (s.incReg a).capCh n = s.capCh n := (rfl)
@[simp] theorem State.capCh_setReg64 (a b x : Nat) (n : Nat) : (s.setReg64 a b x).capCh n = s.capCh n := (rfl)
@[simp] theorem State.capCh_irq (p i : Nat) (n : Nat) : (s.irq p i).capCh n = s.capCh n := (rfl)
@[simp] theorem State.capCh_errc (p c d : Nat) (n : Nat) : (s.errc p c d).capCh n = s.capCh n := (rfl)
@[simp] theorem State.capCh_statBit (p i : Nat) (b : Bool) (n : Nat) : (s.statBit p i b).capCh n = s.capCh n := (rfl)
@[simp] theorem State.capCh_setPage (p : Nat) (h : PageHdr) (n : Nat) : (s.setPage p h).capCh n = s.capCh n := (rfl)
@[simp] theorem State.capCh_setBlk (p : Nat) (b : Blk) (n : Nat) : (s.setBlk p b).capCh n = s.capCh n := (rfl)
@[simp] theorem State.capCh_answer (v : Word) (n : Nat) : (s.answer v).capCh n = s.capCh n := (rfl)
@[simp] theorem State.capCh_setRegs (l : List (Nat × Word)) (n : Nat) : (s.setRegs l).capCh n = s.capCh n := State.capCh_congr (by simp) n
@[simp] theorem State.capCh_emit (k p : Nat) (l : List Word) (n : Nat) : (s.emit k p l).capCh n = s.capCh n := State.capCh_congr (by simp) n
@[simp] theorem State.capCh_emitSev (k : Nat) (v : BitVec 2) (p : Nat) (l : List Word) (n : Nat) : (s.emitSev k v p l).capCh n = s.capCh n := State.capCh_congr (by simp) n
theorem State.port_congr {s t : State} (h : t.eth = s.eth) (n : Nat) : t.port n = s.port n := by rw [State.port, h]; rfl
theorem State.port_setPort (n m : Nat) (x : EthPort) : (s.setPort n x).port m = if m = n then x else s.port m := by
  simp only [eq_comm (a := m)]; exact Tab.get_set (fun _ => ({} : EthPort)) s.eth n m x
@[simp] theorem State.port_setReg (a : Nat) (v : Word) (n : Nat) : (s.setReg a v).port n = s.port n := (rfl)
@[simp] theorem State.port_setFld (a hi lo x : Nat) (n : Nat) : (s.setFld a hi lo x).port n = s.port n := (rfl)
@[simp] theorem State.port_setFlag (a i : Nat) (b : Bool) (n : Nat) : (s.setFlag a i b).port n = s.port n := (rfl)
@[simp] theorem State.port_incReg (a : Nat) (n : Nat) : (s.incReg a).port n = s.port n := (rfl)
@[simp] theorem State.port_setReg64 (a b x : Nat) (n : Nat) : (s.setReg64 a b x).port n = s.port n := (rfl)
@[simp] theorem State.port_irq (p i : Nat) (n : Nat) : (s.irq p i).port n = s.port n := (rfl)
@[simp] theorem State.port_errc (p c d : Nat) (n : Nat) : (s.errc p c d).port n = s.port n := (rfl)
@[simp] theorem State.port_statBit (p i : Nat) (b : Bool) (n : Nat) : (s.statBit p i b).port n = s.port n := (rfl)
@[simp] theorem State.port_setPage (p : Nat) (h : PageHdr) (n : Nat) : (s.setPage p h).port n = s.port n := (rfl)
@[simp] theorem State.port_setBlk (p : Nat) (b : Blk) (n : Nat) : (s.setBlk p b).port n = s.port n := (rfl)
@[simp] theorem State.port_answer (v : Word) (n : Nat) : (s.answer v).port n = s.port n := (rfl)
@[simp] theorem State.port_setRegs (l : List (Nat × Word)) (n : Nat) : (s.setRegs l).port n = s.port n := State.port_congr (by simp) n
@[simp] theorem State.port_emit (k p : Nat) (l : List Word) (n : Nat) : (s.emit k p l).port n = s.port n := State.port_congr (by simp) n
@[simp] theorem State.port_emitSev (k : Nat) (v : BitVec 2) (p : Nat) (l : List Word) (n : Nat) : (s.emitSev k v p l).port n = s.port n := State.port_congr (by simp) n
theorem State.axis_congr {s t : State} (h : t.axes = s.axes) (n : Nat) : t.axis n = s.axis n := by rw [State.axis, h]; rfl
theorem State.axis_setAxis (n m : Nat) (x : Axis) : (s.setAxis n x).axis m = if m = n then x else s.axis m := by
  simp only [eq_comm (a := m)]; exact Tab.get_set (fun _ => ({} : Axis)) s.axes n m x
@[simp] theorem State.axis_setReg (a : Nat) (v : Word) (n : Nat) : (s.setReg a v).axis n = s.axis n := (rfl)
@[simp] theorem State.axis_setFld (a hi lo x : Nat) (n : Nat) : (s.setFld a hi lo x).axis n = s.axis n := (rfl)
@[simp] theorem State.axis_setFlag (a i : Nat) (b : Bool) (n : Nat) : (s.setFlag a i b).axis n = s.axis n := (rfl)
@[simp] theorem State.axis_incReg (a : Nat) (n : Nat) : (s.incReg a).axis n = s.axis n := (rfl)
@[simp] theorem State.axis_setReg64 (a b x : Nat) (n : Nat) : (s.setReg64 a b x).axis n = s.axis n := (rfl)
@[simp] theorem State.axis_irq (p i : Nat) (n : Nat) : (s.irq p i).axis n = s.axis n := (rfl)
@[simp] theorem State.axis_errc (p c d : Nat) (n : Nat) : (s.errc p c d).axis n = s.axis n := (rfl)
@[simp] theorem State.axis_statBit (p i : Nat) (b : Bool) (n : Nat) : (s.statBit p i b).axis n = s.axis n := (rfl)
@[simp] theorem State.axis_setPage (p : Nat) (h : PageHdr) (n : Nat) : (s.setPage p h).axis n = s.axis n := (rfl)
@[simp] theorem State.axis_setBlk (p : Nat) (b : Blk) (n : Nat) : (s.setBlk p b).axis n = s.axis n := (rfl)
@[simp] theorem State.axis_answer (v : Word) (n : Nat) : (s.answer v).axis n = s.axis n := (rfl)
@[simp] theorem State.axis_setRegs (l : List (Nat × Word)) (n : Nat) : (s.setRegs l).axis n = s.axis n := State.axis_congr (by simp) n
@[simp] theorem State.axis_emit (k p : Nat) (l : List Word) (n : Nat) : (s.emit k p l).axis n = s.axis n := State.axis_congr (by simp) n
@[simp] theorem State.axis_emitSev (k : Nat) (v : BitVec 2) (p : Nat) (l : List Word) (n : Nat) : (s.emitSev k v p l).axis n = s.axis n := State.axis_congr (by simp) n
theorem State.pulse_congr {s t : State} (h : t.pls = s.pls) (n : Nat) : t.pulse n = s.pulse n := by rw [State.pulse, h]; rfl
theorem State.pulse_setPulse (n m : Nat) (x : PulseOut) : (s.setPulse n x).pulse m = if m = n then x else s.pulse m := by
  simp only [eq_comm (a := m)]; exact Tab.get_set (fun _ => ({} : PulseOut)) s.pls n m x
@[simp] theorem State.pulse_setReg (a : Nat) (v : Word) (n : Nat) : (s.setReg a v).pulse n = s.pulse n := (rfl)
@[simp] theorem State.pulse_setFld (a hi lo x : Nat) (n : Nat) : (s.setFld a hi lo x).pulse n = s.pulse n := (rfl)
@[simp] theorem State.pulse_setFlag (a i : Nat) (b : Bool) (n : Nat) : (s.setFlag a i b).pulse n = s.pulse n := (rfl)
@[simp] theorem State.pulse_incReg (a : Nat) (n : Nat) : (s.incReg a).pulse n = s.pulse n := (rfl)
@[simp] theorem State.pulse_setReg64 (a b x : Nat) (n : Nat) : (s.setReg64 a b x).pulse n = s.pulse n := (rfl)
@[simp] theorem State.pulse_irq (p i : Nat) (n : Nat) : (s.irq p i).pulse n = s.pulse n := (rfl)
@[simp] theorem State.pulse_errc (p c d : Nat) (n : Nat) : (s.errc p c d).pulse n = s.pulse n := (rfl)
@[simp] theorem State.pulse_statBit (p i : Nat) (b : Bool) (n : Nat) : (s.statBit p i b).pulse n = s.pulse n := (rfl)
@[simp] theorem State.pulse_setPage (p : Nat) (h : PageHdr) (n : Nat) : (s.setPage p h).pulse n = s.pulse n := (rfl)
@[simp] theorem State.pulse_setBlk (p : Nat) (b : Blk) (n : Nat) : (s.setBlk p b).pulse n = s.pulse n := (rfl)
@[simp] theorem State.pulse_answer (v : Word) (n : Nat) : (s.answer v).pulse n = s.pulse n := (rfl)
@[simp] theorem State.pulse_setRegs (l : List (Nat × Word)) (n : Nat) : (s.setRegs l).pulse n = s.pulse n := State.pulse_congr (by simp) n
@[simp] theorem State.pulse_emit (k p : Nat) (l : List Word) (n : Nat) : (s.emit k p l).pulse n = s.pulse n := State.pulse_congr (by simp) n
@[simp] theorem State.pulse_emitSev (k : Nat) (v : BitVec 2) (p : Nat) (l : List Word) (n : Nat) : (s.emitSev k v p l).pulse n = s.pulse n := State.pulse_congr (by simp) n
theorem State.stall_congr {s t : State} (h : t.stalls = s.stalls) (n : Nat) : t.stall n = s.stall n := by rw [State.stall, h]; rfl
theorem State.stall_setStall (n m : Nat) (x : Stall) : (s.setStall n x).stall m = if m = n then x else s.stall m := by
  simp only [eq_comm (a := m)]; exact Tab.get_set (fun _ => ({} : Stall)) s.stalls n m x
@[simp] theorem State.stall_setReg (a : Nat) (v : Word) (n : Nat) : (s.setReg a v).stall n = s.stall n := (rfl)
@[simp] theorem State.stall_setFld (a hi lo x : Nat) (n : Nat) : (s.setFld a hi lo x).stall n = s.stall n := (rfl)
@[simp] theorem State.stall_setFlag (a i : Nat) (b : Bool) (n : Nat) : (s.setFlag a i b).stall n = s.stall n := (rfl)
@[simp] theorem State.stall_incReg (a : Nat) (n : Nat) : (s.incReg a).stall n = s.stall n := (rfl)
@[simp] theorem State.stall_setReg64 (a b x : Nat) (n : Nat) : (s.setReg64 a b x).stall n = s.stall n := (rfl)
@[simp] theorem State.stall_irq (p i : Nat) (n : Nat) : (s.irq p i).stall n = s.stall n := (rfl)
@[simp] theorem State.stall_errc (p c d : Nat) (n : Nat) : (s.errc p c d).stall n = s.stall n := (rfl)
@[simp] theorem State.stall_statBit (p i : Nat) (b : Bool) (n : Nat) : (s.statBit p i b).stall n = s.stall n := (rfl)
@[simp] theorem State.stall_setPage (p : Nat) (h : PageHdr) (n : Nat) : (s.setPage p h).stall n = s.stall n := (rfl)
@[simp] theorem State.stall_setBlk (p : Nat) (b : Blk) (n : Nat) : (s.setBlk p b).stall n = s.stall n := (rfl)
@[simp] theorem State.stall_answer (v : Word) (n : Nat) : (s.answer v).stall n = s.stall n := (rfl)
@[simp] theorem State.stall_setRegs (l : List (Nat × Word)) (n : Nat) : (s.setRegs l).stall n = s.stall n := State.stall_congr (by simp) n
@[simp] theorem State.stall_emit (k p : Nat) (l : List Word) (n : Nat) : (s.emit k p l).stall n = s.stall n := State.stall_congr (by simp) n
@[simp] theorem State.stall_emitSev (k : Nat) (v : BitVec 2) (p : Nat) (l : List Word) (n : Nat) : (s.emitSev k v p l).stall n = s.stall n := State.stall_congr (by simp) n

end Sys2Proof.Machine
end

