-- ==== Sys2Proof/Machine/Pins.lean ====
section
/-! DEFINITION. What the output balls carry (R45, R102, R452, R509, R516, R535, R546, R676 to R678): each a function of the state. The safety
outputs, RSTOUT_N, the PEN balls and the panel rails are SAFE_STAT, `wdoN`, `rstoutN`, `pen` and RAIL_STAT. -/

namespace Sys2Proof.Machine

/-- What a ball carries: a level, nothing (high impedance, or a driver that is off), or a frame's bits. -/
inductive Ball | low | high | hiZ | carries
deriving DecidableEq, Repr

/-- The device is held in reset (R45, R65). -/
def State.inReset (s : State) : Bool := s.pwr.hold == .reset
/-- A ball of the field pads: its state in reset, high impedance while the pads of PD_FIO have no supply (R45, log entry 85), else `b`. -/
def State.fieldBall (s : State) (inRst b : Ball) : Ball := if s.inReset then inRst else if s.dom 8 == 1 then b else .hiZ
/-- CANn_TX: recessive but while the channel sends on its bus (R45, R102, R465). -/
def State.canTx (s : State) (n : Nat) : Ball :=
  s.fieldBall .high
    (if s.active (canPage n) && !s.flag (R.CAN_MODE n) 5 && [0, 1, 2].any fun b => s.txbSt n b == 2 then .carries else .high)
/-- DLKn_DP/DN: the driver is off in reset and while no frame is sent (R45, R509). -/
def State.dlkDown (s : State) (n : Nat) : Ball :=
  s.fieldBall .hiZ
    (if s.shown (dlkPage n) == 0 || s.shown (dlkPage n) == 4 || (s.dlk.get (fun _ => {}) n).silent || s.pwr.saving then .hiZ else .carries)
/-- Rate of MCLKk in kHz; 0 with the ball low (R45, R516). -/
def State.mclk (s : State) (k : Nat) : Nat :=
  if s.inReset || s.dom 8 != 1 || !s.up 3 then 0 else [0, 20000, 16000, 10000].getD (s.fld R.MTR_MCLK_CFG (2 * k + 1) (2 * k)) 0
/-- PLSo: active while a pulse lasts; in STOP the ball is low (R45, R102, R535). -/
def State.plsBall (s : State) (o : Nat) : Ball :=
  s.fieldBall .low
    (if !s.active 225 then .low else if (s.pulse o).high != s.flag (R.PLS_CFG o) 12 then .high else .low)
/-- PPS_OUT (R45, R451). -/
def State.ppsBall (s : State) : Ball := s.fieldBall .low (if s.up 6 && s.ptp.ppsHigh then .high else .low)
/-- CLK10M_OUT: the first half of each 100 ns of device time, so that it rises at each whole second and follows a step at once; low
while it is off, and with LOCKED_ONLY outside LOCKED and MASTER (R45, R452). -/
def State.clk10m (s : State) : Ball :=
  s.fieldBall .low
    (if s.up 6 && s.flag R.PTP_CLK10M_CFG 0 && (!s.flag R.PTP_CLK10M_CFG 1 || s.servo == 2 || s.servo == 4) &&
        decide (nsOf s.time.cnt % 100 < 50) then .high else .low)
/-! ### The panel bus in the newest frame (R676 to R678) -/

/-- PNL_CLK in Hz (R676). -/
def State.pnlClk (s : State) : Nat := 100000000 / (2 * (s.fld R.PNL_BUS_CFG 3 0 + 1))
/-- Clocks of a line period, and line periods of a frame (R676). -/
def State.lineClocks (s : State) : Nat := s.glassW / 4 + s.fld R.PNL_BUS_CFG 15 8
def State.frameLines (s : State) : Nat := s.glassH + s.fld R.PNL_BUS_CFG 23 16
/-- PNL_SPH, PNL_LD, PNL_CKV and PNL_STV in clock k of line period n. PNL_STV is high in the clock before the edge of PNL_CKV and in the
one after it (R676; DESIGN CHOICE, log entry 88). -/
def State.pnlSph (_ : State) (k : Nat) : Bool := k == 0
def State.pnlLd (s : State) (k : Nat) : Bool := let w := s.glassW / 4; k == w + 2 || k == w + 3
def State.pnlCkv (s : State) (k : Nat) : Bool := let w := s.glassW / 4 + 4; decide (w ≤ k ∧ k < w + s.fld R.PNL_BUS_CFG 15 8 / 2)
def State.pnlStv (s : State) (n k : Nat) : Bool := let w := s.glassW / 4; n == 0 && (k == w + 3 || k == w + 4)
/-- Row that line period n drives: the one latched at the end of the period before it; none in a blank period (R676). -/
def State.rowDriven (s : State) (n : Nat) : Option Nat := if 1 ≤ n ∧ n ≤ s.glassH then some (n - 1) else none

/-- Inversion phase of pixel (x, y) in frame f: by frame, line or dot (R678). -/
def State.invPhase (s : State) (f x y : Nat) : Nat :=
  match s.fld R.PNL_BUS_CFG 25 24 with
  | 0 => 0
  | 1 => f % 2
  | 2 => (f + y) % 2
  | _ => (f + x + y) % 2
/-- Number of the newest frame: those scanned before it (DEDUCED, log entry 88). -/
def State.frameNo (s : State) : Nat := (s.reg R.PNL_FRAMES - 1).toNat
/-- PNL_POL through the line of row y: the line's inversion phase, which with INV 3 is that of its first pixel (R676, R678;
DEDUCED, log entry 88). -/
def State.pnlPol (s : State) (y : Nat) : Nat := s.invPhase s.frameNo 0 y
/-- Code that pixel (x, y) was sent in the newest frame; in phase 1 the column drivers swap the rails, not the codes (R677, R678). -/
def State.sentCode (s : State) (x y : Nat) : Nat := s.pnl.codes.get (fun _ => 0) (pixKey x y)
/-- PNL_D in clock k of the line of row y: the codes of four pixels (R677). -/
def State.pnlD (s : State) (y k : Nat) : Byte :=
  BitVec.ofNat 8 (s.sentCode (4 * k) y + 4 * s.sentCode (4 * k + 1) y + 16 * s.sentCode (4 * k + 2) y + 64 * s.sentCode (4 * k + 3) y)
/-- Field that the newest frame puts across a pixel: its code, the same in either phase (R678). -/
def State.field (s : State) (x y : Nat) : Int := match s.sentCode x y with | 1 => 1 | 2 => -1 | _ => 0

/-- GPIOg: an output ball drives while GPIO runs and its side acts; with OD set it drives low only (R45, R546). -/
def State.gpioBall (s : State) (g : Nat) : Ball :=
  s.fieldBall .hiZ
    (if s.running 224 && s.acts && s.flag R.GPIO_DIR g then (if !s.flag R.GPIO_OUT g then .low else if s.flag R.GPIO_OD g then .hiZ else .high) else .hiZ)

end Sys2Proof.Machine
end

