-- ==== Sys2Proof/WellFormed.lean ====
section
/-! DEFINITION. Which commands are well formed: the lengths and ranges that an operand's own format fixes and its type does not. The
machine gives a meaning to every command, well formed or not. -/

namespace Sys2Proof

/-- Stores that agents had made lie in the yard or in LPDDR5 (R107). -/
def storesOk (l : List Store) : Bool :=
  l.all fun x => decide ((0x20000000 ≤ x.addr ∧ x.addr + x.data.length ≤ 0x23000000) ∨
    (0x80000000 ≤ x.addr ∧ x.addr + x.data.length ≤ 0x180000000))
/-- A standard identifier has 11 bits, and a frame at most 64 bytes, 8 in a classical one (R464). -/
def frameOk (f : CanFrame) : Bool := (f.xtd || decide (f.id.toNat < 2048)) && decide (f.data.length ≤ (if f.fdf then 64 else 8))
/-- A segment's digest has 32 bytes, and its data at most 4,096 (R592). -/
def segOk (g : Segment) : Bool := g.digest.length == 32 && decide (g.data.length ≤ 4096)

/-- The checks, command by command. -/
def Instr.wellFormed : Instr → Bool
  | .plainRegWrite _ _ _ _ => true
  | .irqSet _ _ _ => true
  | .blockRunReq _ _ => true
  | .blockStopReq _ _ => true
  | .forceStop _ _ => true
  | .faultClr _ _ _ => true
  | .drainComplete _ => true
  | .drainTimeout _ => true
  | .powerOn => true
  | .release _ _ _ _ => true
  | .pinReset => true
  | .latePowerFail _ => true
  | .coreBrownout => true
  | .domainBrownout r => decide (1 ≤ r.val)
  | .tapReset => true
  | .rstoutRelease => true
  | .domReq _ _ => true
  | .domReqKp _ _ => true
  | .domTransitionDone _ => true
  | .penCheck k _ => decide (k.val ∈ [4, 5, 7, 8, 9, 11])
  | .pwrCfgWrite _ _ _ => true
  | .mgmtRst _ _ => true
  | .mgmtReset => true
  | .clkUnlock _ => true
  | .clkCheckWindow _ => true
  | .clkEdgeTimeout => true
  | .pfwWarn => true
  | .pfwLatch => true
  | .outTorn => true
  | .saveComplete => true
  | .pfwClear => true
  | .pfwRestart => true
  | .pfwStartWait => true
  | .trainDone _ => true
  | .drmRefresh _ _ => true
  | .drmScrub _ => true
  | .modelLoad _ _ => true
  | .modelCancel _ => true
  | .modelValidated _ => true
  | .jqTail _ _ st => storesOk st
  | .jqCfgWrite _ _ _ => true
  | .spmv _ => true
  | .spmvt _ => true
  | .dot _ => true
  | .axpy _ => true
  | .scale _ => true
  | .copy _ => true
  | .project _ => true
  | .remap _ => true
  | .fprint _ => true
  | .ic0 _ => true
  | .ildl0 _ => true
  | .pcg _ => true
  | .minres _ => true
  | .bicgstab _ => true
  | .pcgne _ => true
  | .newton _ => true
  | .jobEnd _ _ _ _ => true
  | .laneTest _ => true
  | .laneTestDone _ _ => true
  | .yardScrub _ => true
  | .lmapWrite _ _ _ _ => true
  | .transportStep _ => true
  | .stepCommit _ => true
  | .fcStart _ st => storesOk st
  | .fcCancel _ => true
  | .forecastEnd _ => true
  | .estPass => true
  | .dspPass => true
  | .dspNow _ => true
  | .hydPass => true
  | .keeperPoll => true
  | .checkDone _ _ _ => true
  | .planStep => true
  | .nextDue _ => true
  | .entryExpire _ => true
  | .wdogTrip => true
  | .emgAssert _ => true
  | .emgRelease _ => true
  | .lockstep => true
  | .keeperTcmUe => true
  | .keeperReset => true
  | .slogIndex _ _ => true
  | .cycleSnapshot => true
  | .executeDone st us => (st.all fun x => decide (x.ofs.val + x.data.length ≤ 0x80000)) && us.length == 4
  | .frameTaken => true
  | .time _ => true
  | .cycle _ => true
  | .regRead _ _ => true
  | .regWrite _ _ _ => true
  | .stallRead _ _ _ _ _ => true
  | .event _ _ _ _ => true
  | .coreException _ _ _ => true
  | .tcmUe _ => true
  | .ldBegin _ => true
  | .ldData _ _ => true
  | .ldEnd _ => true
  | .ldAbort _ => true
  | .ftIndex _ _ => true
  | .hello _ _ => true
  | .helloAck _ _ => true
  | .read _ => true
  | .readRsp _ _ => true
  | .replyHoldWait _ => true
  | .readTimeout _ => true
  | .writeAck _ _ => true
  | .writeNak _ _ => true
  | .writeTimeout _ => true
  | .refresh _ => true
  | .ethRxFrame _ _ => true
  | .ethTxDone _ _ => true
  | .linkChg _ _ _ _ _ => true
  | .hqTxTail _ _ _ => true
  | .hqRxTail _ _ _ => true
  | .nbExpire _ _ => true
  | .nbMiss _ _ => true
  | .timeNs _ => true
  | .set _ => true
  | .seconds _ => true
  | .sync _ _ _ _ _ => true
  | .followUp _ _ _ => true
  | .syncSend _ => true
  | .announce _ a => a.states.length == 6
  | .announceSend _ => true
  | .announceReceiptTimeout _ st => st.length == 6
  | .delayReq _ _ => true
  | .delayResp _ _ => true
  | .pdelayReq _ => true
  | .pdelayResp _ _ => true
  | .management _ => true
  | .holdoverExpire => true
  | .ppsIn _ => true
  | .ppsInLoss => true
  | .ppsOut => true
  | .ppsPulseEnd => true
  | .capEdge _ _ _ => true
  | .capTsNs _ _ => true
  | .capTsSh _ _ => true
  | .canRxFrame _ f => frameOk f
  | .rxfLatch _ _ _ => true
  | .rxfRelease _ _ => true
  | .txbReq _ _ _ _ => true
  | .txbAbort _ _ _ => true
  | .recReq _ _ => true
  | .canArbitration _ => true
  | .canTxEnd _ _ => true
  | .canBusError _ _ _ _ => true
  | .recoveryDone _ => true
  | .filterTimeout _ _ => true
  | .dlkFrame _ => true
  | .dlkReply _ _ _ => true
  | .reference _ _ => true
  | .setPos _ _ => true
  | .clear _ _ => true
  | .halt _ _ => true
  | .tholdExpire _ => true
  | .replyLost _ => true
  | .linkLoss _ => true
  | .mtrSample y _ => y.length == 48
  | .thermalTick => true
  | .avgPeriodEnd => true
  | .intervalEnd => true
  | .totalLoRead _ _ => true
  | .pulseTick => true
  | .pulseWidthEnd _ => true
  | .resLoRead _ _ => true
  | .gpioInChg _ _ => true
  | .heartbeatSend => true
  | .heartbeat _ _ => true
  | .witnessHeartbeat _ => true
  | .pathSilent _ => true
  | .laneDown _ => true
  | .statePage _ _ d => decide (d.length ≤ 4096)
  | .stateEnd _ _ => true
  | .stream _ _ _ _ _ _ => true
  | .keeper _ _ _ => true
  | .leaseReq _ _ => true
  | .leaseRsp _ _ => true
  | .leaseRenew => true
  | .leaseEnd => true
  | .grantEnd => true
  | .takeover => true
  | .epochCommit => true
  | .imageApplied => true
  | .fenceCheck => true
  | .contestEnd => true
  | .standDownLimit => true
  | .resolveEnd => true
  | .secRun => true
  | .cmdBegin _ => true
  | .cmdData _ _ => true
  | .cmdSubmit _ => true
  | .cmdAbort _ => true
  | .commandDeliver _ => true
  | .blockCtrl _ _ => true
  | .onlineChange items => decide (1 ≤ items.length ∧ items.length ≤ 16)
  | .force items => decide (1 ≤ items.length ∧ items.length ≤ 16)
  | .safeValue g => segOk g
  | .arm g => segOk g
  | .logClear _ _ _ => true
  | .keyChange _ _ k => k.wkey.length == 32
  | .fwUpdate b _ => b.digest.length == 32
  | .fwUpdateDone _ => true
  | .switch => true
  | .fwConfirm _ _ => true
  | .extend2 _ => true
  | .lock2 _ => true
  | .quoteStart _ => true
  | .quoteCert _ => true
  | .quoteDone => true
  | .recordSubmit r => decide (r.body.length % 2 = 1 ∧ 3 ≤ r.body.length ∧ r.body.length ≤ 63)
  | .recordStage _ => true
  | .flush => true
  | .swSend _ _ => true
  | .rdOfs _ _ => true
  | .rlIndex _ _ => true
  | .rtcSecond => true
  | .wake => true
  | .wakePeriod _ _ => true
  | .timeRead _ _ => true
  | .time2Read _ => true
  | .rdTimeout => true
  | .commitGo _ => true
  | .commitLoad => true
  | .backupSwitch _ => true
  | .batLow _ => true
  | .retLost => true
  | .trimWindow _ _ => true
  | .pnlFrame => true
  | .railUpDone => true
  | .railDownDone => true
  | .railIdle => true
  | .railFault _ => true
  | .wfBegin _ => true
  | .wfData _ _ => true
  | .wfEnd _ => true
  | .wfAbort _ => true
  | .updGo _ _ => true
  | .clearWf _ => true
  | .fullClear _ => true
  | .recovered => true
  | .timeRecovered => true
  | .restartGo _ => true
  | .supplyReturn => true
  | .pdelayReqSend _ => true
  | .laneUp _ => true
  | .leaseStartWait => true

end Sys2Proof
end

