-- ==== Sys2Proof/Tests/Slice0.lean ====
section
/-! SUPPORT. The author's own tests: an ill-formed command for each check, a state that meets the hypotheses of each clause of each
statement, and single steps with results taken from the spec. -/

namespace Sys2Proof.Tests

open Sys2Proof Sys2Proof.Machine
set_option Elab.async false

/-! ### States to test on -/

/-- After reset, every domain ON and every clock island locked. -/
def allOn : State := State.reset.setRegs [(R.PWR_DOM_STAT, 0x555555), (R.CLK_ISL_STAT, 0xFFF)]
/-- A state with some blocks put in a block state. -/
def inSt (st : BState) (l : List Nat) (s : State) : State := l.foldl (fun s p => s.setBlk p { s.blk p with st := st }) s
/-- Every domain ON, some blocks in RUN. -/
def runs (l : List Nat) : State := inSt .run l allOn
/-- The same on a side that is PRIMARY. -/
def acting (l : List Nat) : State := (runs (128 :: l)).setReg R.PLK_PAIR_STAT 1
/-- A state with its recorder changed. -/
def evr (f : EvrSt → EvrSt) (s : State) : State := { s with evr := f s.evr }
/-- An address as a word. -/
def aw (a : Nat) : Word := wd a


/-! ### A state that meets the hypotheses of each clause -/

theorem wit_KeeperRegisterWriteDropped :
    (isKp R.KPR_KSTAT = true ∧ kprotOf (pageOf R.KPR_KSTAT) = true) ∧ (isKp R.KPR_SLOG_INDEX = false ∧ kprotOf (pageOf R.KPR_SLOG_INDEX) = true) ∧
    (Initiator.mgmt ≠ .keeper ∧ isKp R.PWR_DOM_REQ_KP = true ∧ (aw R.PWR_DOM_REQ_KP).toNat % 4 = 0 ∧
      0x40000000 ≤ (aw R.PWR_DOM_REQ_KP).toNat ∧ (aw R.PWR_DOM_REQ_KP).toNat < 0x40100000 ∧ isPage (pageOf R.PWR_DOM_REQ_KP) = true ∧
      State.reset.up (domOf (pageOf R.PWR_DOM_REQ_KP)) = true) := by decide +kernel

theorem wit_BadAccessFaults :
    (0x40000000 ≤ (0x400FF000 : Word).toNat ∧ (0x400FF000 : Word).toNat < 0x40100000 ∧ isPage (pageOf (0x400FF000 : Word).toNat) = false) ∧
    ((0x40000002 : Word).toNat % 4 ≠ 0) ∧
    ((0x40030000 : Word).toNat % 4 = 0 ∧ 0x40000000 ≤ (0x40030000 : Word).toNat ∧ (0x40030000 : Word).toNat < 0x40100000 ∧
      isPage (pageOf (0x40030000 : Word).toNat) = true ∧ State.reset.up (domOf (pageOf (0x40030000 : Word).toNat)) = false) := by decide +kernel

theorem wit_PlainWriteByAccessCode :
    (MayWrite .mgmt R.RTC_STAGE0 State.reset = true ∧ ownRow R.RTC_STAGE0 = false ∧ txbAt (pageOf R.RTC_STAGE0) (ofsOf R.RTC_STAGE0) = none ∧
      0x100 ≤ ofsOf R.RTC_STAGE0 ∧ (regRow R.RTC_STAGE0).map (·.acc) = some .rw) ∧
    (MayWrite .mgmt R.DRM_DRM_CFG allOn = true ∧ ownRow R.DRM_DRM_CFG = false ∧ txbAt (pageOf R.DRM_DRM_CFG) (ofsOf R.DRM_DRM_CFG) = none ∧
      0x100 ≤ ofsOf R.DRM_DRM_CFG ∧ (regRow R.DRM_DRM_CFG).map (·.acc) = some .rws ∧ allOn.shown (pageOf R.DRM_DRM_CFG) = 1) ∧
    (MayWrite .mgmt R.RTC_EVT State.reset = true ∧ ownRow R.RTC_EVT = false ∧ 0x100 ≤ ofsOf R.RTC_EVT ∧
      (regRow R.RTC_EVT).map (·.acc) = some .w1c) ∧
    (MayWrite .mgmt R.RTC_TIME0 State.reset = true ∧ ownRow R.RTC_TIME0 = false ∧ (regRow R.RTC_TIME0).map (·.acc) = some .ro) ∧
    (MayWrite .mgmt (pageBase (35 : Byte).toNat + 0x1C) State.reset = true ∧ pageOf (pageBase (35 : Byte).toNat + 0x1C) = (35 : Byte).toNat) := by
  decide +kernel

theorem wit_RwsWriteOutsideStopRefused :
    MayWrite .mgmt R.DRM_DRM_CFG (runs [208]) = true ∧ ownRow R.DRM_DRM_CFG = false ∧ 0x100 ≤ ofsOf R.DRM_DRM_CFG ∧
    (regRow R.DRM_DRM_CFG).map (·.acc) = some .rws ∧ (runs [208]).shown (pageOf R.DRM_DRM_CFG) ≠ 1 := by decide +kernel

theorem wit_CauseAndErrorCode : 31 < 32 ∧ 0xFFFF < 0x10000 := by decide

theorem wit_RunRequestStartsBlock :
    (MayWrite .mgmt (pageBase (blockPage .cap) + 0xC) allOn = true ∧ critOf (blockPage .cap) = false ∧ allOn.pwr.saving = false ∧
      allOn.shown (blockPage .cap) = 1 ∧ ((allOn.answer 0).noteRun (blockPage .cap) true).runBad (blockPage .cap) 3 = none ∧ Block.cap ≠ .drm) ∧
    (MayWrite .mgmt (pageBase (blockPage .drm) + 0xC) allOn = true ∧ critOf (blockPage .drm) = false ∧
      allOn.shown (blockPage .drm) = 1 ∧ ((allOn.answer 0).noteRun (blockPage .drm) true).runBad (blockPage .drm) 3 = none) := by decide +kernel

theorem wit_StopDrainForceClear :
    (let s := runs [120, 56]
     MayWrite .mgmt (pageBase 56 + 0xC) s = true ∧ critOf 56 = false ∧ s.pwr.saving = false ∧ s.shown 56 = 3 ∧ s.stopRefused 56 = false ∧
       blockPage .btk = 56 ∧ s.stopRefused 120 = false ∧ s.shown 120 = 3 ∧ MayWrite .mgmt (pageBase 120 + 0xC) s = true ∧ critOf 120 = false) ∧
    (let s := runs [80, 111]
     MayWrite .quay (pageBase 80 + 0xC) s = true ∧ s.shown 80 = 3 ∧ s.stopRefused 80 = true ∧ blockPage .stl = 80) ∧
    (noStop 56 = false ∧ (56 : Nat) ≠ 64) ∧
    (let s := runs [64]
     MayWrite .quay (pageBase 64 + 0xC) s = true ∧ s.pwr.saving = false ∧ s.shown 64 = 3 ∧ blockPage .lge = 64) ∧
    (let s := inSt .drain [56, 64] allOn
     s.shown 56 = 2 ∧ s.drainBusy 56 = false ∧ s.shown 64 = 2 ∧
       (s.setBtk fun b => { b with next := some ({}, 0) }).shown 56 = 2 ∧ (s.setBtk fun b => { b with next := some ({}, 0) }).drainBusy 56 = true) ∧
    (let s := inSt .fault [48] allOn
     MayWrite .mgmt (pageBase 48 + 0xC) s = true ∧ critOf 48 = false ∧ s.pwr.saving = false ∧ s.shown 48 = 4 ∧ s.fld R.NSU_ACTIVE 7 4 ≠ 15) ∧
    (MayWrite .mgmt (pageBase 48 + 0xC) allOn = true ∧ allOn.shown 48 ≠ 4 ∧ allOn.pwr.saving = false) := by
  decide +kernel

theorem wit_MemoryController :
    (let s := allOn.setBlk 208 { st := .stop, req := 3 }
     s.shown 208 = 1 ∧ (s.blk 208).req = 3) ∧
    (allOn.up 9 = true ∧ allOn.flag R.DRM_REFRESH 8 = false) ∧
    (let s := (runs [208]).setReg R.DRM_DRM_CFG 2
     s.running 208 = true ∧ s.flag R.DRM_DRM_CFG 1 = true) := by decide +kernel

/-- After reset, with its power state changed. -/
def pw (f : PwrSt → PwrSt) (s : State) : State := s.setPwr f

theorem wit_DomainRequestRules :
    MayWrite .mgmt R.PWR_DOM_REQ State.reset = true ∧
    MayWrite .keeper R.PWR_DOM_REQ_KP State.reset = true ∧
    ((runs [208]).dom 9 = 1 ∧ (runs [208]).domIdle 9 = false ∧ allOn.dom 5 = 1 ∧ allOn.dom 4 = 1 ∧ allOn.dom 7 = 1 ∧ allOn.dom 6 = 1) ∧
    (State.reset.dom 5 ≠ 1 ∧ State.reset.goalOf 5 ≠ 1 ∧ State.reset.dom 7 ≠ 1 ∧ State.reset.goalOf 7 ≠ 1 ∧ (State.reset.setGoal 7 1).dom 7 ≠ 1 ∧
      (State.reset.setGoal 7 1).goalOf 7 = 1 ∧ (State.reset.setGoal 5 1).dom 5 ≠ 1 ∧ (State.reset.setGoal 5 1).goalOf 5 = 1) := by decide +kernel

theorem wit_DomainTransitions :
    (let s := State.reset.setGoal 5 1
     s.moving 5 = true ∧ (s.pwr.wait.any fun e => e.1 == 5) = false ∧ s.pwr.saving = false ∧ s.heldDom 5 = false ∧ s.goalOf 5 = 1 ∧
       domNeeds 5 = none) ∧
    (let s := State.reset.setGoal 4 1
     s.moving 4 = true ∧ (s.pwr.wait.any fun e => e.1 == 4) = false ∧ s.heldDom 4 = false ∧ s.goalOf 4 = 1 ∧ domNeeds 4 = some 5) ∧
    (let s := allOn.setGoal 11 0
     s.moving 11 = true ∧ (s.pwr.wait.any fun e => e.1 == 11) = false ∧ s.heldDom 11 = false ∧ s.goalOf 11 ≠ 1) ∧
    (let s := State.reset.setGoal 9 1
     s.moving 9 = true ∧ s.up 1 = true ∧ s.dom 9 = 0 ∧ (0 : BitVec 19).toNat &&& penRails 9 ≠ penRails 9 ∧ s.pwr.wait = []) := by decide +kernel

theorem wit_SupplyAndClockFaults :
    (State.reset.up 1 = true ∧ railDoms 10 ≠ [] ∧ railDoms 3 = []) ∧
    (allOn.dom 11 = 1 ∧ allOn.heldDom 11 = false ∧ State.reset.dom 11 ≠ 1) ∧
    ((runs [208]).shown 208 ≠ 0 ∧ (runs [208]).shown 208 ≠ 4 ∧ (0xFFFF : Nat) < 0x10000) := by decide +kernel

theorem wit_ResetsAndTheirCauses :
    (nvReg R.PWR_PEN_DLY = false ∧ nvReg R.RTC_TIME0 = true ∧ R.RTC_TIME0 ≠ R.PWR_RST_CAUSE) ∧
    (State.reset.pwr.saving = false ∧ State.reset.saveRuns = false) ∧
    (let s := pw (fun p => { p with saving := true }) State.reset
     s.pwr.saving = true ∧ s.pwr.saveDone = false ∧ s.saveRuns = true) ∧
    (let s := pw (fun p => { p with started := true }) State.reset
     s.pwr.hold ≠ .reset ∧ s.pwr.started = true) ∧
    (pw (fun p => { p with hold := .reset }) State.reset).pwr.hold = .reset ∧ 0 < 11 := by decide +kernel

theorem wit_StartUpFollows :
    (State.reset.pwr.started = false ∧ (0x7FFFF : BitVec 19).toNat &&& 0x60CC = 0x60CC ∧ (0 : BitVec 19).toNat &&& 0x60CC ≠ 0x60CC) ∧
    (let s := pw (fun p => { p with started := true }) State.reset
     s.pwr.started = true ∧ s.pwr.hold ≠ .reset) ∧
    (let s := pw (fun p => { p with hold := .reset, startWait := true }) State.reset
     s.pwr.startWait = true ∧ s.pwr.hold = .reset ∧ s.pwr.railWait = false ∧ (pw (fun p => { p with railWait := true }) s).pwr.railWait = true) ∧
    (let s := pw (fun p => { p with hold := .reset, started := true }) State.reset
     s.pwr.started = true ∧ s.pwr.hold = .reset ∧ s.pwr.porstLow = false ∧ s.pwr.startWait = false) ∧
    (let s := State.reset.setKpr fun k => { k with stopped := true }
     s.kpr.stopped = true ∧ s.pwr.hold ≠ .reset ∧ s.pwr.saving = false) ∧
    (let s := (State.reset.setKpr fun k => { k with stopped := true }).setPwr fun p => { p with saving := true, pfwHigh := false }
     s.kpr.stopped = true ∧ s.pwr.hold ≠ .reset ∧ s.pwr.saving = true ∧ s.pwr.pfwHigh = false) ∧
    (let s := pw (fun p => { p with hold := .save, saveDone := true, pfwHigh := true }) State.reset
     s.pwr.saveDone = true ∧ s.pwr.hold = .save ∧ s.pwr.pfwHigh = true) ∧
    MayWrite .mgmt R.PWR_MGMT_RST State.reset = true ∧
    (let s := pw (fun p => { p with mgmtReq := true }) State.reset
     s.pwr.mgmtReq = true ∧ s.up 10 = true ∧ s.pwr.saving = false) := by decide +kernel

theorem wit_ClockChecks :
    (let s := pw (fun p => { p with started := true }) State.reset
     s.heldDom 2 = false ∧ s.pwr.started = true ∧ s.pwr.clkFault = false ∧ 32768 - 983 ≤ (31785 : Word).toNat ∧
       (33751 : Word).toNat ≤ 32768 + 983 ∧ (31784 : Word).toNat < 32768 - 983 ∧
       MayWrite .mgmt R.PWR_PFW_RESTART s = true ∧ MayWrite .mgmt R.PWR_PEN_DLY s = true) ∧
    (let s := pw (fun p => { p with started := true, hold := .clk, clkFault := true, clkPass := 2 }) State.reset
     s.heldDom 2 = false ∧ s.pwr.started = true ∧ s.pwr.clkFault = true ∧ 2 ≤ s.pwr.clkPass ∧
       (pw (fun p => { p with clkPass := 1 }) s).pwr.clkPass < 2 ∧ (33752 : Word).toNat > 32768 + 983) ∧
    (100 ≤ (100 : Word).toNat ∧ (10000 : Word).toNat ≤ 10000 ∧ (99 : Word).toNat < 100 ∧ 50 < (51 : Word).toNat) := by decide +kernel

theorem wit_PowerFailSave :
    State.reset.up 1 = true ∧ State.reset.flag R.PWR_PFW_STAT 0 = false ∧ (State.reset.setReg R.PWR_DOM_STAT 0).up 1 = false ∧
    (let s := (pw (fun p => { p with started := true }) State.reset).setFlag R.PWR_PFW_STAT 0 true
     s.pwr.started = true ∧ s.pwr.hold = .none ∧ s.pwr.saving = false ∧ s.flag R.PWR_PFW_STAT 0 = true) ∧
    (let s := pw (fun p => { p with saving := true }) State.reset
     s.pwr.saving = true ∧ s.pwr.saveDone = false ∧ s.lge.cut = false) ∧
    (0 < 5 ∧ 5 ≤ 5) ∧ State.reset.pwr.saving = false := by decide +kernel

theorem wit_TimeAndRunsRecovered :
    (let s := (pw (fun p => { p with started := true }) State.reset).setFlag R.RTC_STAT 0 true
     s.pwr.started = true ∧ s.up 1 = true ∧ s.fld R.SYS_TIME_REC 1 0 = 0 ∧ s.flag R.RTC_STAT 0 = true ∧ s.up 6 = false) ∧
    State.reset.flag R.RTC_STAT 0 = false ∧
    (MayWrite .mgmt R.SYS_RESTART State.reset = true ∧ State.reset.flag R.SYS_START_STAT 0 = false) ∧
    (let s := State.reset.setFlag R.SYS_START_STAT 0 true
     MayWrite .mgmt R.SYS_RESTART s = true ∧ s.flag R.SYS_START_STAT 0 = true) := by decide +kernel

/-- A descriptor that breaks no rule of R199: opcode, tag 7, deadline one second, RESULT at the working area's start, 10 iterations at 2^-20. -/
def descOf (op : Nat) : List Byte :=
  leBytes 4 op ++ leBytes 4 7 ++ leBytes 4 0 ++ leBytes 4 1 ++ List.replicate 28 0 ++ leBytes 4 0x20000000 ++ leBytes 4 (10 + 20 * 65536) ++
    List.replicate 12 0
/-- The NSU in RUN, every lane tested, with a job of an operation at the head of its ring. -/
def jobState (op : Nat) : State :=
  let s := (runs [48]).setRegs [(R.JQ_JQ_BASE, aw 0x20100000), (R.JQ_JQ_SIZE, 16), (R.JQ_JQ_TAIL, 1)]
  { s with yard := wrBytes s.yard 0x20100000 (descOf op),
           nsu := { tested := (List.range 4).flatMap fun c => (List.range 34).map fun l => (64 * c + l, true) } }

theorem wit_ModelLoads :
    (MayWrite .mgmt R.DSQ_MODEL_CMD (allOn.setReg R.DSQ_MODEL_STAT 1) = true ∧ (allOn.setReg R.DSQ_MODEL_STAT 1).dramUp = false ∧
      (allOn.setReg R.DSQ_MODEL_STAT 1).fld R.DSQ_MODEL_STAT 2 0 = 1) ∧
    (let s := (runs [208]).setReg R.DSQ_MODEL_ADDR_LO 0x80000000
     MayWrite .mgmt R.DSQ_MODEL_CMD s = true ∧ s.fld R.DSQ_MODEL_STAT 2 0 ≠ 1 ∧ s.up 5 = true ∧
       inDram (s.reg64 R.DSQ_MODEL_ADDR_LO R.DSQ_MODEL_ADDR_HI) 128 = true ∧ s.dramUp = true) ∧
    (let s := allOn.setReg R.PWR_DOM_STAT 0x555155
     MayWrite .mgmt R.DSQ_MODEL_CMD s = true ∧ s.fld R.DSQ_MODEL_STAT 2 0 ≠ 1 ∧ s.up 5 = false) ∧
    (MayWrite .mgmt R.DSQ_MODEL_CMD (allOn.setReg R.DSQ_MODEL_STAT 2) = true ∧ (allOn.setReg R.DSQ_MODEL_STAT 2).fld R.DSQ_MODEL_STAT 2 0 = 2) ∧
    (let s := ((runs [208]).setReg R.DSQ_MODEL_ADDR_LO 0x80000000).setRegs [(R.DSQ_MODEL_STAT, 1), (R.DSQ_MODEL_LEN, 0xC00000)]
     s.fld R.DSQ_MODEL_STAT 2 0 = 1 ∧ s.up 4 = true ∧ s.up 5 = true ∧ s.dramUp = true ∧
       inDram (s.reg64 R.DSQ_MODEL_ADDR_LO R.DSQ_MODEL_ADDR_HI) (s.regN R.DSQ_MODEL_LEN) = true ∧ s.regN R.DSQ_MODEL_LEN ≤ 12 * 1048576) ∧
    (let s := (runs [208]).setRegs [(R.DSQ_MODEL_STAT, 1), (R.DSQ_MODEL_ADDR_LO, 0x80000000)]
     s.regN R.DSQ_MODEL_LEN = 0 ∧ s.dramUp = true ∧ s.mdlFail [] (s.reg64 R.DSQ_MODEL_ADDR_LO R.DSQ_MODEL_ADDR_HI) (s.regN R.DSQ_MODEL_LEN) = some 1) ∧
    (let s := (runs [208]).setRegs [(R.DSQ_MODEL_STAT, 1), (R.DSQ_MODEL_LEN, 0xC00001)]
     s.fld R.DSQ_MODEL_STAT 2 0 = 1 ∧ 12 * 1048576 < s.regN R.DSQ_MODEL_LEN ∧ allOn.fld R.DSQ_MODEL_STAT 2 0 ≠ 1) ∧
    (7 < 8 ∧ 255 < 256) := by decide +kernel

theorem wit_JobsAreTaken : (jobRows.all fun e =>
    let s := jobState e.2
    let d := s.descAt (s.regN R.JQ_JQ_HEAD)
    s.running 48 && s.lanesTested && s.reg R.JQ_JQ_HEAD != s.reg R.JQ_JQ_TAIL && dOp d == e.2 && (s.clusterSet d).1 &&& s.fld R.NSU_ACTIVE 3 0 == 0 &&
      !dFlag d 1 && s.nsu.jobs.isEmpty && !badDesc d && !dlPassed d s.time.nsu) = true ∧
    (runs [48]).lanesTested = false ∧ badDesc [0, 0, 0, 0, 0, 0, 0, 0, 0, 0, 0, 0, 0, 0, 0, 0] = true := by decide +kernel

/-- The header of a vector of one element, BOUND 100. -/
def vecOf (data : Nat) : List Byte :=
  [1, 0, 0, 0, 0, 0, 1, 0] ++ leBytes 4 1 ++ leBytes 4 1 ++ leBytes 4 data ++ List.replicate 20 0 ++ leBytes 8 100
/-- A rectangular matrix of one row, one column and the entry 5 at 0x20000000, and vectors with 2, 1, 0 and 9 at 0x40, 0x80, 0xC0 and 0x100. -/
def operands : Tab Byte :=
  [(0x20000000, [3, 1, 0, 0, 0, 0, 1, 0] ++ leBytes 4 1 ++ leBytes 4 1 ++ leBytes 4 1 ++ leBytes 4 0x20000200 ++ leBytes 4 0x20000240 ++
      leBytes 4 0x20000280 ++ List.replicate 16 0 ++ leBytes 8 100),
    (0x20000040, vecOf 0x200002C0), (0x20000080, vecOf 0x20000300), (0x200000C0, vecOf 0x20000340), (0x20000100, vecOf 0x20000380),
    (0x20000204, leBytes 4 1), (0x20000280, leBytes 8 5), (0x200002C0, leBytes 8 2), (0x20000300, leBytes 8 1),
    (0x20000380, leBytes 8 9)].foldl (fun m (e : Nat × List Byte) => wrBytes m e.1 e.2) []
/-- A job on three operands and OPE. -/
def opJob (a x y e : Word) : Job := { idx := 0, desc := [0, 0, 0, 0, a, x, y, 0, e], cl := 15, start := 0 }

theorem wit_ElementaryOperations :
    (let j := opJob 0x20000000 0x20000040 0x20000080 0
     j.data = [] ∧ j.out = 0 ∧ (0x20000300, leBytes 8 10) ∈ (jobMul operands j false).data ∧
       (0x20000300, leBytes 8 2) ∈ (jobMap operands j true false fun x y a _ => some (rescale a x.e y.e)).data ∧
       (rdVHdr operands (dOpnd j.desc 1)).e = (rdVHdr operands (dOpnd j.desc 2)).e ∧
       (jobMap operands j true false fun x y a _ => some (rescale a x.e y.e)).out = 0) ∧
    (let j := opJob 0 0x20000040 0x20000080 0x20000100
     j.data = [] ∧ j.out = 0 ∧ (jobProject operands j).out = 0 ∧ (0x20000300, leBytes 8 2) ∈ (jobProject operands j).data) := by decide +kernel

theorem wit_JobRing :
    (MayWrite .mgmt R.JQ_JQ_SIZE allOn = true ∧ MayWrite .mgmt R.JQ_JQ_BASE allOn = true ∧ allOn.shown 54 = 1) ∧
    (let s := allOn.setReg R.JQ_JQ_SIZE 16
     MayWrite .dsq R.JQ_JQ_TAIL s = true ∧ ((16 : Word) - s.reg R.JQ_JQ_TAIL).toNat < 2 ^ 31 ∧ ((16 : Word) - s.reg R.JQ_JQ_HEAD).toNat ≤ s.regN R.JQ_JQ_SIZE ∧
       s.regN R.JQ_JQ_SIZE < ((17 : Word) - s.reg R.JQ_JQ_HEAD).toNat ∧ 2 ^ 31 ≤ ((0x80000000 : Word) - s.reg R.JQ_JQ_TAIL).toNat) ∧
    (let s := { allOn with nsu := { allOn.nsu with jobs := [{ idx := 0, desc := [], cl := 15, start := 0 }] } }
     s.nsu.jobs[0]? = some { idx := 0, desc := [], cl := 15, start := 0 } ∧ s.up 4 = true ∧ s.dsq.est = none ∧ s.dsq.dsp = none ∧ s.dsq.hyd = none ∧
       allOn.nsu.jobs[0]? = none) ∧
    (let j : Job := { idx := 1, desc := [], cl := 15, start := 0, out := 7, cut := { err := some (3, .ecc 0x22FFFFF8) } }
     let s := allOn.setDsq fun d => { d with est := some { await := some 0 } }
     j.out = 7 ∧ j.cut.err = some (3, .ecc 0x22FFFFF8) ∧ s.passOf 0 = some { await := some 0 } ∧ some 0 ≠ some j.idx) ∧
    (dFlag [1 <<< 8, 0, 0, 0] 0 = true ∨ dFlag [1 <<< 24, 0, 0, 0] 0 = true ∨ dFlag [1 <<< 16, 0, 0, 0] 0 = true) := by decide +kernel

theorem wit_LanesAndScrubber :
    (allOn.up 4 = true ∧ allOn.shown 48 ≠ 4 ∧ (allOn.setFld (R.NSUC_STAT 3) 21 16 63).fld (R.NSUC_STAT 3) 21 16 = 63 ∧
      (((List.range 34).map fun i => (allOn.nsu.cur.get (fun _ => 33) 3 + 1 + i) % 34).find? fun l => !allOn.laneOut 3 l) = some 0) ∧
    ((allOn.setFld (R.NSUC_STAT 0) 21 16 33).fld (R.NSUC_STAT 0) 21 16 = 33) ∧
    (MayWrite .mgmt (R.NSUL_LMAP_HI 3) allOn = true ∧ MayWrite .mgmt (R.NSUL_LMAP_LO 0) allOn = true ∧ allOn.shown 55 = 1) ∧
    (17 ≤ (allOn.setReg (R.NSUL_LRET_LO 3) 0x1FFFF).goodLanes 3 ∧ (allOn.setReg (R.NSUL_LRET_LO 3) 0x1FFFF).flag (R.NSUC_STAT 3) 7 = false) ∧
    (allOn.up 5 = true ∧ allOn.regN R.YRD_YRD_SCRUB_POS + 8 < 0x23000000) ∧
    (0x23000000 ≤ (allOn.setReg R.YRD_YRD_SCRUB_POS 0x22FFFFF8).regN R.YRD_YRD_SCRUB_POS + 8) := by decide +kernel

/-- A model in force. -/
def withModel (s : State) : State := s.setMdl fun m => { m with act := true }

theorem wit_TrackerSteps :
    (let s := (withModel (acting [56])).setBtk fun b => { b with next := some ({}, 0) }
     s.running 56 = true ∧ s.mdl.act = true ∧ s.acts = true ∧ s.btk.next.isSome = true) ∧
    (let s := withModel (runs [56])
     s.running 56 = true ∧ s.mdl.act = true ∧ s.acts = false ∧ (runs [56]).mdl.act = false) ∧
    (let s := (withModel (acting [56])).setBtk fun b => { b with com := some {} }
     s.running 56 = true ∧ s.mdl.act = true ∧ s.acts = true ∧ s.btk.next = none ∧ s.btk.idle = false ∧ s.btk.com.isSome = true) ∧
    (let s := (runs [56]).setBtk fun b => { b with next := some ({}, 31) }
     s.btk.next = some ({}, 31) ∧ s.active 56 = true) := by decide +kernel

theorem wit_Forecasts :
    (MayWrite .dsq R.BTK_FC_CMD (runs [56]) = true ∧ (runs [56]).running 56 = true ∧ (runs [56]).fld R.BTK_FC_STAT 2 0 ≠ 1 ∧
      (runs [56]).fcRequest = none) ∧
    (MayWrite .dsq R.BTK_FC_CMD allOn = true ∧ allOn.running 56 = false) ∧
    (MayWrite .dsq R.BTK_FC_CMD ((runs [56]).setReg R.BTK_FC_STAT 1) = true ∧ ((runs [56]).setReg R.BTK_FC_STAT 1).fld R.BTK_FC_STAT 2 0 = 1) ∧
    (let f : FcJob := ⟨96, 3600, 0, 0, 0, 0, {}⟩
     ((runs [56]).setBtk fun b => { b with fc := some f }).btk.fc = some f) ∧ (runs [56]).btk.fc = none ∧
    (let p : Pass := { phase := .dspForecast }
     (allOn.setDsq fun d => { d with dsp := some p }).dsq.dsp = some p ∧ p.phase = .dspForecast ∧ allOn.dsq.dsp = none ∧
       (allOn.setDsq fun d => { d with dsp := some {} }).dsq.dsp = some {} ∧ ({} : Pass).phase ≠ .dspForecast) := by decide +kernel

/-- The Sequencer in RUN on an acting side, with the units a pass needs. -/
def passes : State := withModel (acting [48, 56, 57])

theorem wit_SequencerPasses :
    (let s := passes.setDsq fun d => { d with est := some {}, dsp := some {} }
     s.running 57 = true ∧ s.acts = true ∧ s.dsq.est = some {} ∧ s.dsq.dsp = some {} ∧ MayWrite .dsq R.DSQ_CMD s = true) ∧
    (let s := acting [57]
     s.running 57 = true ∧ s.acts = true ∧ s.dsq.est = none ∧ s.fld R.DSQ_MODEL_STAT 2 0 ≠ 2 ∧ s.passBlocked = some 8 ∧ s.dsq.dsp = none ∧
       MayWrite .dsq R.DSQ_CMD s = true) ∧
    (let s := { passes with yard := wrN passes.yard (setCtl 2) 8 5 }
     s.running 57 = true ∧ s.acts = true ∧ s.dsq.est = none ∧ s.fld R.DSQ_MODEL_STAT 2 0 ≠ 2 ∧ s.passBlocked = none ∧ s.newestSet = some 2 ∧
       s.time.nsu ≤ setTime s.yard 2 + s.regN R.DSQ_MEAS_AGE_MAX_MS * tMs) ∧
    (let s := passes.setDsq fun d => { d with hydDue := true }
     s.running 57 = true ∧ s.acts = true ∧ s.dsq.hydDue = true ∧ s.dsq.hyd = none ∧ s.passBlocked = none ∧ passes.dsq.hydDue = false) ∧
    (let s := (acting [57]).setDsq fun d => { d with hydDue := true }
     s.running 57 = true ∧ s.acts = true ∧ s.dsq.hydDue = true ∧ s.dsq.hyd = none ∧ s.passBlocked = some 8) ∧
    ((runs [57]).running 57 = true ∧ (runs [57]).acts = false) := by decide +kernel

/-- The keeper in service, the yard ON, with records of the two kinds handed over. -/
def handed (s : State) : State :=
  { s with yard := wrN (wrN s.yard (handoff + 0x100) 8 3) (handoff + 0x200) 8 4 }

theorem wit_ResultChecks :
    (State.reset.locked 5 = false ∧ allOn.kprCores = true ∧ allOn.kpr.cause = 0 ∧ allOn.locked 5 = true) ∧
    (let s := handed (acting [])
     s.acts = true ∧ s.chkBusy .est = false ∧ s.chkBusy .dsp = false ∧ s.seenAt .est 20 < (s.newestRec .est).2 ∧
       s.seenAt .dsp 20 < (s.newestRec .dsp).2) ∧
    (let s := handed allOn
     s.acts = false ∧ s.seenAt .est 0 < (s.newestRec .est).2) ∧
    (let c : Check := ⟨[], handoff + 0x200, 4, 0, none, 0⟩
     let s := (handed (acting [])).setKpr fun k => { k with chk := [(2, some c)] }
     s.acts = true ∧ s.chkBusy .dsp = true ∧ s.chkBusy .est = false ∧ s.kpr.chk.get (fun _ => none) (kindNum .dsp) = some c ∧ s.kprCores = true ∧ rdN s.yard c.at' 8 = c.seq ∧ CheckCut.none ≠ .katFail ∧
       (s.endCheck .dsp).vetoed = false) ∧
    (let c : Check := ⟨[], handoff, 4, 0, none, 0⟩
     let s := (handed (acting [])).setKpr fun k => { k with chk := [(1, some c)] }
     s.acts = true ∧ s.chkBusy .est = true ∧ s.kpr.chk.get (fun _ => none) (kindNum .est) = some c ∧ s.kprCores = true ∧ rdN s.yard c.at' 8 ≠ c.seq) ∧
    (let c : Check := ⟨List.replicate 0x18 0 ++ leBytes 4 5, handoff + 0x200, 4, tS, some [], 0⟩
     let s := ((handed (acting [])).setKpr fun k => { k with chk := [(2, some c)] }).setRegs
       [(R.KPR_EMG_STAT, 0x100), (R.KPR_EMG_CFG 0, 4)]
     s.kpr.chk.get (fun _ => none) (kindNum .dsp) = some c ∧ s.kprCores = true ∧ rdN s.yard c.at' 8 = c.seq ∧
       s.acts = true ∧ (s.endCheck .dsp).vetoed = true ∧ (s.endCheck .dsp).verdict .dsp c = 1) ∧
    (let c : Check := ⟨List.replicate 0x90 0 ++ leBytes 32 0x2f76d56e64270cb5821bb862ea52cd3f24eb3e74eb3f3b23138da80b2bddb946 ++ List.replicate 0x50 0,
       handoff + 0x200, 4, 0, some [], 0⟩
     let s := ((handed (acting [])).setKpr fun k => { k with chk := [(2, some c)] }).setRegs [(R.KPR_EMG_STAT, 0x100), (R.KPR_EMG_CFG 0, 4)]
     s.acts = true ∧ (s.endCheck .dsp).vetoed = true ∧ (s.endCheck .dsp).verdict .dsp c = 0) ∧
    (handed allOn).acts = false := by decide +kernel

theorem wit_SetpointTable :
    State.reset.tableLive = true ∧ (State.reset.setKpr fun k => { k with stopped := true }).tableLive = false ∧
    (255 ∈ spRange .dsp ∧ 256 ∈ spRange .est ∧ 511 ∈ spRange .est ∧ 511 ∉ spRange .dsp ∧ 511 < 512) ∧
    (let s := (acting []).setKpr fun k => { k with half0 := wrN (wrN [] 0xC 1 94) 0xD 1 96, steps := List.replicate 96 [] }
     s.tableLive = true ∧ s.acts = true ∧ 95 = rdN s.spHalf 0xC 1 + 1 ∧ 95 < rdN s.spHalf 0xD 1 ∧ s.kpr.steps[95]? = some []) := by decide +kernel

theorem wit_OutputEnables :
    (let s := State.reset.setReg R.KPR_SAFE_STAT 0x800
     s.safeUpdate.flag R.KPR_SAFE_STAT 3 = true ∧ s.flag R.KPR_SAFE_STAT 11 = true ∧ s.kprService = true ∧ s.emgOn 3 = false ∧
       s.tripOn 3 = false ∧ s.pwr.saving = false ∧ s.pwr.clkFault = false) ∧
    (let s := State.reset.setRegs [(R.KPR_EMG_STAT, 0x800), (R.KPR_SAFE_CFG 3, 0x18)]
     s.emgOn 3 = true ∧ (s.setKpr fun k => { k with trip := true }).tripOn 3 = true) ∧
    (let s := State.reset.setKpr fun k => { k with gate := true }
     (8 : Nat).testBit 3 = true ∧ s.armCauses 3 = 0 ∧ (8 : Nat).testBit 2 = false ∧ s.flag R.KPR_SAFE_STAT 10 = false) := by decide +kernel

theorem wit_KeeperEvents :
    (let s := State.reset.setKpr fun k => { k with wdFrom := some 0 }
     s.kprCores = true ∧ s.kpr.wdFrom.isSome = true ∧ s.kpr.cause = 0 ∧ s.pwr.saving = false ∧
       bit (s.reg (R.KPR_EMG_CFG 3)) 2 = false ∧ bit (s.reg (R.KPR_EMG_CFG 3)) 1 = false) ∧
    (State.reset.setKpr fun k => { k with stopped := true }).kprCores = false ∧
    (State.reset.setReg (R.KPR_SAFE_CFG 3) 0x10).flag (R.KPR_SAFE_CFG 3) 4 = true ∧
    MayWrite .mgmt R.KPR_SLOG_INDEX State.reset = true := by decide +kernel

/-- A segment that carries a whole table. -/
def whole (kind : Byte) (data : List Byte) : Segment := ⟨kind, 1, 0, wd data.length, digest32 data, data⟩

theorem wit_KeeperTables :
    ((State.reset.setKpr fun k => { k with stopped := true }).kprCores = false ∧ State.reset.kprCores = true) ∧
    ((runs [64]).shown 64 = 3 ∧ (runs [64]).kprCores = true ∧ (1 : Byte).getLsbD 0 = true ∧ (1 : Byte).toNat < 2 ∧ (1 : Word) ≠ 0) ∧
    (let g : Segment := ⟨3, 0, 0, 80, List.replicate 32 0, List.replicate 80 0⟩
     g.flags = 0 ∧ g.total ≠ 0 ∧ allZero g.digest = true ∧ g.seg = 0 ∧ totalBad 3 80 g.data = false ∧ g.data.length ≤ g.total.toNat) ∧
    (let g : Segment := ⟨3, 0, 0, 4096, List.replicate 32 0, [0]⟩
     g.flags = 0 ∧ g.total ≠ 0 ∧ allZero g.digest = true ∧ g.seg = 0 ∧ totalBad 3 4096 g.data = true) ∧
    ((∀ e, copyNewest State.reset.kpr.safe = some e → e.1 ≤ State.reset.kpr.tabSeq) ∧
      (∀ e, copyNewest State.reset.kpr.limit = some e → e.1 ≤ State.reset.kpr.tabSeq) ∧
      (∀ e, copyNewest State.reset.kpr.param = some e → e.1 ≤ State.reset.kpr.tabSeq)) :=
  ⟨by decide +kernel, by decide +kernel, by decide +kernel, by decide +kernel, nofun, nofun, nofun⟩

theorem wit_KeeperTables_commit (x : Byte) :
    ((whole 3 [x]).flags = 1 ∧ (whole 3 [x]).total.toNat = (whole 3 [x]).data.length ∧ (whole 3 [x]).data ≠ [] ∧ (whole 3 [x]).seg = 0 ∧
      digest32 (whole 3 [x]).data = (whole 3 [x]).digest ∧ tabBad 3 (whole 3 [x]).data = some 3) ∧
    ((whole 4 [x]).flags = 1 ∧ (whole 4 [x]).total = 1 ∧ (whole 4 [x]).seg = 0 ∧ (whole 4 [x]).data.length = 1 ∧
      (whole 4 [x]).digest = digest32 (whole 4 [x]).data) :=
  ⟨⟨rfl, rfl, nofun, rfl, rfl, rfl⟩, rfl, rfl, rfl, rfl, rfl⟩

/-- Bytes as the words of LD_DATA, newest first. -/
def ldWords (b : List Byte) : List Word := ((List.range (b.length / 4)).map fun i => wd (fieldN b (4 * i) 4)).reverse
/-- The LGE in STOP, a load of some bytes under way, an empty safe-value table committed. -/
def loading (b : List Byte) : State :=
  (((inSt .stop [64] allOn).setReg R.LGE_LD_STAT 1).setLge fun l => { l with ld := ldWords b }).setKpr fun k => { k with safe := { a := some (1, []) } }
theorem wit_LogicImageLoads :
    (MayWrite .mgmt R.LGE_LD_CTRL allOn = true ∧ allOn.shown 64 = 1 ∧ (runs [64]).shown 64 ≠ 1 ∧ MayWrite .mgmt R.LGE_LD_CTRL (runs [64]) = true ∧
      allOn.fld R.LGE_LD_STAT 2 0 ≠ 1 ∧ (runs [64]).fld R.LGE_LD_STAT 2 0 ≠ 1 ∧ ((runs [64]).setReg R.LGE_LD_STAT 1).fld R.LGE_LD_STAT 2 0 = 1) ∧
    (let s := loading []
     MayWrite .mgmt R.LGE_LD_CTRL s = true ∧ s.fld R.LGE_LD_STAT 2 0 = 1 ∧ s.shown 64 = 1 ∧ limgFail s.ldBytes = some 2 ∧
       MayWrite .mgmt R.LGE_LD_DATA s = true) ∧
    MayWrite .mgmt R.LGE_FT_INDEX State.reset = false ∧ MayWrite .mgmt R.LGE_FT_INDEX allOn = true := by decide +kernel

/-- A logic image with eight empty sections; its two digests are SHAKE256 as another program computes it. -/
def bareImage : List Byte :=
  leBytes 4 0x4C474D4C ++ leBytes 2 1 ++ leBytes 2 128 ++ leBytes 4 11 ++ leBytes 4 12 ++ leBytes 8 320 ++ leBytes 2 8 ++ List.replicate 38 0 ++
    leBytes 32 0x2f76d56e64270cb5821bb862ea52cd3f24eb3e74eb3f3b23138da80b2bddb946 ++
    leBytes 32 0x4b5e6e62177434326c6a1727d6647bb87ee6d49f37a3597ee482a977b4ca8f56 ++
    (List.range 8).flatMap fun i => leBytes 4 (i + 1) ++ leBytes 4 0 ++ leBytes 8 320 ++ leBytes 8 0
theorem wit_LogicImageLoads_good : limgFail bareImage = none ∧ bareImage.length = 320 := by decide +kernel

/-- An image in force with nothing in it. -/
def noImage : Limg :=
  { progId := 0, rev := 0, fp := 0, layout := 0, safe := [], digest := [], tcm := [], tasks := [], slices := [], inmap := [], outmap := [],
    publish := [], retain := [], change := [] }
def withImage (s : State) : State := s.setLge fun l => { l with image := some noImage }

theorem wit_LogicCycleStarts :
    (let s := withImage (acting [64])
     s.lge.image = some noImage ∧ s.acts = true ∧ s.pwr.saving = false ∧ s.regN R.LGE_PHASE = 0 ∧ s.shown 64 = 3 ∧ s.kpr.trip = false) ∧
    (let s := (withImage (inSt .drain [64] (acting []))).setReg R.LGE_PHASE 6
     s.lge.image = some noImage ∧ s.acts = true ∧ s.pwr.saving = false ∧ s.regN R.LGE_PHASE = 6 ∧ s.shown 64 = 2) ∧
    (let s := (withImage (acting [64])).setKpr fun k => { k with trip := true }
     s.lge.image = some noImage ∧ s.acts = true ∧ s.pwr.saving = false ∧ s.regN R.LGE_PHASE = 0 ∧ s.kpr.trip = true ∧ s.kprService = true ∧
       s.shown 64 = 3) := by decide +kernel

/-- With no stall bound the end of OUTPUT sends nothing to stalls. -/
theorem stallsOutput_unbound (s : State) (anew : Bool) (h : ∀ k, (s.stall k).bound = false) : s.stallsOutput anew = s := by
  unfold State.stallsOutput
  generalize allStalls = l
  induction l with
  | nil => rfl
  | cons k l ih => rw [List.foldl_cons, if_pos (Or.inr (by simp [h])), ih]

theorem wit_LogicCycleStarts_halt :
    ((withImage (acting [64])).setKpr fun k => { k with trip := true }).cycleTimes.runMark.shown 64 = 4 := by
  rw [State.runMark, if_pos (by decide +kernel), State.haltOrder, if_neg (by decide +kernel)]
  extract_lets
  rw [if_pos (by decide +kernel), State.driveSafe]
  extract_lets
  rw [State.outputEnd, stallsOutput_unbound _ _ (fun _ => rfl)]
  decide +kernel

theorem wit_LogicCycleEnds :
    (let s := (withImage (acting [64])).setReg R.LGE_PHASE 2
     s.active 64 = true ∧ s.acts = true ∧ s.pwr.saving = false ∧ s.lge.image = some noImage ∧ s.regN R.LGE_PHASE = 2 ∧ s.regN R.LGE_PHASE ≠ 4) ∧
    (let s := (acting [64]).setReg R.LGE_PHASE 4
     s.active 64 = true ∧ s.acts = true ∧ s.pwr.saving = false ∧ s.regN R.LGE_PHASE = 4 ∧ s.regN R.LGE_PHASE ≠ 2) := by decide +kernel

theorem wit_ServiceCalls :
    (let s := (runs [64]).setRegs [(R.LGE_PHASE, 2), (R.LGEC_STAT 0, 1), (R.LGEC_STAT 3, 1)]
     s.coreRuns 0 = true ∧ s.coreRuns 3 = true ∧ s.lge.calls.length < 256) ∧
    ((aw R.AXS_CMD).toNat % 4 = 0 ∧ 0x40000000 ≤ (aw R.AXS_CMD).toNat ∧ (aw R.AXS_CMD).toNat < 0x40100000 ∧
      isPage (pageOf (aw R.AXS_CMD).toNat) = true ∧ planeOf (pageOf (aw R.AXS_CMD).toNat) = .control ∧ ofsOf (aw R.AXS_CMD).toNat ≠ 0xC ∧
      0x800 ≤ ofsOf (aw R.AXS_CMD).toNat ∧ isKp (aw R.AXS_CMD).toNat = false) ∧
    (isPage (pageOf (aw R.RTC_TIME0).toNat) = true ∧ planeOf (pageOf (aw R.RTC_TIME0).toNat) ≠ .control) ∧
    ((0x40000002 : Word).toNat % 4 ≠ 0 ∧ (0x3FFFFFFC : Word).toNat < 0x40000000 ∧ 0x40100000 ≤ (0x40100000 : Word).toNat) ∧
    ((1023 : Word).toNat < 1024 ∧ (256 : Word).toNat ≤ 256 ∧ (0x3F00 : Word).toNat + (256 : Word).toNat ≤ 0x4000 ∧
      (0x7FF00 : Word).toNat + (256 : Word).toNat ≤ 0x80000) ∧
    (0xF000 ≤ (0xF000 : Word).toNat ∧ (0xF0FF : Word).toNat ≤ 0xF0FF ∧ 0xF0FF < (0xF100 : Word).toNat) := by decide +kernel

theorem wit_LogicHalts :
    (let s := (runs [64]).setRegs [(R.LGE_PHASE, 2), (R.LGEC_STAT 3, 1)]
     s.coreRuns 3 = true ∧ (s.setFlag (R.LGEC_STAT 3) 2 true).coreRuns 3 = false ∧ s.shown 64 ≠ 0 ∧ s.shown 64 ≠ 4 ∧ s.acts = false) := by
  decide +kernel

/-! Stalls: a station at an IPv4 address behind port 5 of the Ethernet block, bound to the last stall of stable 15. -/

def station : NetAddr := ⟨5, List.replicate 16 9, 0x1234⟩
/-- The stall units in RUN, stall 1023 enabled with UID 77, input length 4, output length 2. -/
def stallBase (s : State) : State :=
  (inSt .run [80, 111] s).setRegs [(R.STB_CFG0 1023, 0x10000000), (R.STB_UID_LO 1023, 77), (R.STB_CFG2 1023, 0x20004), (R.STB_PORTS 15, 0x3F)]
/-- Stall 1023 bound to the station, negotiated at a version, with its state changed. -/
def bound (major : Nat) (f : Stall → Stall) (s : State) : State :=
  let s := (stallBase s).winPut 1023 0 (leBytes 8 77 ++ station.ip ++ leBytes 2 0x1234 ++ [5])
  s.setStall 1023 (f { s.stall 1023 with bound := true, major := major, st := 3 })
/-- The station's hello: UID, versions 1 to 2, its lengths. -/
def hello (ty uid : Nat) : List Byte :=
  lsxHeader 1 ty 0 1023 32 0 0 ++ leBytes 8 uid ++ [1, 2, 0, 0] ++ leBytes 4 0 ++ leBytes 8 0 ++ leBytes 2 0 ++ [0, 0] ++ leBytes 2 4 ++ leBytes 2 2
/-- A frame of the station. -/
def frame (major ty seq : Nat) (payload tag : List Byte) : List Byte := lsxHeader major ty 0 1023 payload.length 0 seq ++ payload ++ tag

theorem wit_StallNegotiation :
    (let u := (stallBase allOn).lsxTake station (hello 1 76)
     u.running stlPage = true ∧ lsxReadable (hello 1 76) = true ∧ (hello 1 76).getD 2 0 = 1 ∧ 48 ≤ (hello 1 76).length ∧
       (allStalls.any fun k => u.stEn k && u.reg64 (R.STB_UID_LO k) (R.STB_UID_HI k) == (parseHello (hello 1 76)).uid) = false) ∧
    (let u := (inSt .stop [111] (stallBase allOn)).lsxTake station (hello 1 77)
     u.running stlPage = true ∧ lsxReadable (hello 1 77) = true ∧ (hello 1 77).getD 2 0 = 1 ∧ 48 ≤ (hello 1 77).length ∧
       (allStalls.any fun k => u.stEn k && u.reg64 (R.STB_UID_LO k) (R.STB_UID_HI k) == (parseHello (hello 1 77)).uid) = true ∧
       ∀ k, k < 1024 → u.stEn k = true → u.stRun k = false) ∧
    (let u := (bound 1 id allOn).lsxTake station (hello 1 77)
     u.running stlPage = true ∧ lsxReadable (hello 1 77) = true ∧ (hello 1 77).getD 2 0 = 1 ∧ 48 ≤ (hello 1 77).length ∧
       (allStalls.find? fun k => u.stEn k && u.stRun k && u.reg64 (R.STB_UID_LO k) (R.STB_UID_HI k) == (parseHello (hello 1 77)).uid) = some 1023 ∧
       (u.fld (R.STB_PORTS (1023 / 64)) 5 0).testBit station.eth.val = true ∧ u.boundTo 1023 station = true ∧
       u.helloSame 1023 (parseHello (hello 1 77)) = true ∧ (u.stall 1023).st ≠ 2 ∧ (u.stall 1023).st ≠ 5) := by decide +kernel

theorem wit_StallNegotiation_new :
    (let u := (stallBase allOn).lsxTake station (hello 1 77)
     (u.stall 1023).bound = false ∧
       (let v := (u.bind 1023 station (parseHello (hello 1 77))).irq (stbPage 1023) 13
        ((v.negotiate 1023 (parseHello (hello 1 77))).stall 1023).st ≠ 5)) ∧
    (let u := (bound 1 (fun x => { x with st := 2 }) allOn).lsxTake station (hello 2 77)
     u.lsxGood station (hello 2 77) 2 ∧ (u.stall (fieldN (hello 2 77) 4 2)).st = 2 ∧ 48 ≤ (hello 2 77).length) ∧
    (let u := (bound 1 id allOn).lsxTake station (hello 2 77)
     u.lsxGood station (hello 2 77) 2 ∧ (u.stall (fieldN (hello 2 77) 4 2)).st ≠ 2) := by
  refine ⟨by decide +kernel, ⟨?_, by decide +kernel⟩, ?_, by decide +kernel⟩ <;> (unfold State.lsxGood; decide +kernel)

/-- A READ reply of LSX 1 with four input bytes. -/
def reply (seq : Nat) : List Byte := frame 1 0x11 seq ([0, 0] ++ leBytes 2 4 ++ [1, 2, 3, 4]) []

theorem wit_StallReads :
    (let s := bound 1 id (acting [])
     s.stEn 1023 = true ∧ s.stRun 1023 = true ∧ s.acts = true ∧ (s.stall 1023).bound = true ∧ (s.stall 1023).major ≠ 0 ∧ (s.stall 1023).st = 3 ∧
       (s.stall 1023).rd = none ∧ s.stSeq 1023 < 2 ^ 64 - 1 ∧ ((bound 1 (fun x => { x with rd := some 5 }) (acting [])).stall 1023).rd = some 5) ∧
    (let u := (bound 1 (fun x => { x with rd := some (2 ^ 32 + 8) }) allOn).lsxTake station (reply 8)
     u.lsxGood station (reply 8) 0x11 ∧ fieldN (reply 8) 4 2 = 1023 ∧ (u.stall 1023).rd = some (2 ^ 32 + 8) ∧
       seqIs (u.stall 1023).major (2 ^ 32 + 8) (lsxSeq (reply 8)) = true ∧ fieldN ((reply 8).drop 16) 2 2 = u.stInLen 1023 ∧ 4 + 4 ≤ fieldN (reply 8) 6 2 ∧
       (u.setReg (R.STB_CFG2 1023) 0x20003).stInLen 1023 ≠ 4 ∧ (u.stall 1023).major ≠ 2 ∧ ((bound 1 id allOn).stall 1023).rd = none ∧
       (u.winN 1023 0x20 1).testBit 1 = false ∧ ((u.winPut 1023 0x20 [2]).winN 1023 0x20 1).testBit 1 = true ∧
       seqIs (u.stall 1023).major (2 ^ 32 + 8) (lsxSeq (reply 9)) = false) ∧
    (let s := bound 1 (fun x => { x with waiting := some (reply 8, tS) }) allOn
     (s.stall 1023).waiting = some (reply 8, tS)) ∧
    (let s := (bound 1 (fun x => { x with rd := some 8, rdMiss := 2, misses := 3 }) allOn).setRegs [(R.STB_CFG3 1023, 3), (R.STB_CFG1 1023, 0x5000)]
     (s.stall 1023).rd = some 8 ∧ (s.stall 1023).st = 3 ∧ s.fld (R.STB_CFG3 1023) 3 0 = (s.stall 1023).rdMiss + 1 ∧
       (s.stall 1023).misses + 1 < s.fld (R.STB_CFG1 1023) 15 12) := by
  refine ⟨by decide +kernel, ⟨?_, by decide +kernel⟩, by decide +kernel⟩
  unfold State.lsxGood; decide +kernel

theorem wit_StallWrites :
    (let f := frame 1 0x13 8 [0, 0, 0, 0] []
     let u := (bound 1 (fun x => { x with wr := some 8 }) allOn).lsxTake station f
     fieldN f 4 2 = 1023 ∧ u.lsxGood station f 0x13 ∧ (u.tagCheck 1023 f).1 = true ∧ (u.stall 1023).wr = some 8 ∧
       seqIs (u.stall 1023).major 8 (lsxSeq f) = true ∧ (u.stall 1023).dirty = false ∧ 8 < 2 ^ 64) ∧
    (let f := frame 1 0x14 8 [1, 0, 0, 0, 7, 0, 0, 0] []
     let u := (bound 1 (fun x => { x with wr := some 8 }) allOn).lsxTake station f
     u.lsxGood station f 0x14 ∧ (u.tagCheck 1023 f).1 = true ∧ (u.stall 1023).wr = some 8 ∧ seqIs (u.stall 1023).major 8 (lsxSeq f) = true ∧
       fieldN (f.drop (lsxHdrLen f)) 0 1 = 1) ∧
    (let f := frame 1 0x14 8 [5, 0, 0, 0, 0, 0, 0, 0] []
     let u := (bound 1 (fun x => { x with wr := some 8 }) allOn).lsxTake station f
     u.lsxGood station f 0x14 ∧ (u.tagCheck 1023 f).1 = true ∧ (u.stall 1023).wr = some 8 ∧ fieldN (f.drop (lsxHdrLen f)) 0 1 = 5) ∧
    (let s := (bound 1 (fun x => { x with wr := some 8 }) allOn).setReg (R.STB_CFG1 1023) 0x5000
     (s.stall 1023).wr = some 8 ∧ (s.stall 1023).st = 3 ∧ (s.stall 1023).misses + 1 < s.fld (R.STB_CFG1 1023) 15 12) ∧
    (let s := (bound 2 id (acting [])).setRegs [(R.STB_CFG1 1023, 0x10000), (R.STB_ACK_LO 1023, 7)]
     s.fld (R.STB_CFG1 1023) 23 16 ≠ 0 ∧ s.mayWrite 1023 = true ∧ (s.stall 1023).wr = none ∧ s.reg64 (R.STB_ACK_LO 1023) (R.STB_ACK_HI 1023) ≠ 0 ∧
       allOn.reg64 (R.STB_ACK_LO 1023) (R.STB_ACK_HI 1023) = 0) ∧
    (allOn.setReg (R.STB_CFG1 1023) 0).fld (R.STB_CFG1 1023) 23 16 = 0 := by
  unfold State.lsxGood; decide +kernel

theorem wit_StallWrites_badTag :
    (let f := frame 2 0x13 8 [0, 0, 0, 0] (List.replicate 16 0)
     let u := (bound 2 (fun x => { x with wr := some 8 }) allOn).lsxTake station f
     fieldN f 4 2 = 1023 ∧ u.lsxGood station f 0x13 ∧ (u.tagCheck 1023 f).1 = false) := by
  unfold State.lsxGood; decide +kernel

/-- A key slot that may sign every command. -/
def signer : KeySlot := { use := 1, perms := 0xFF, key := List.replicate 32 7 }
/-- Slots 0 and 15 may sign. -/
def keyed (s : State) : State := s.setSec fun c => { c with keys := [(0, signer), (15, signer)] }
/-- The image with one change record: unsigned, two bytes, from 3 to 10. -/
def changeImage : Limg := { noImage with change := [⟨9, 0, 1, 2, 0, 0, 3, 10⟩] }

theorem wit_SecCommandPort :
    (let s := runs [32]
     MayWrite .mgmt R.SEC_CMD_CTRL s = true ∧ s.running secPage = true ∧ s.fld R.SEC_CMD_STAT 1 0 ≠ 1 ∧ s.pwr.saving = false) ∧
    (let s := (runs [32]).setReg R.SEC_CMD_STAT 1
     MayWrite .mgmt R.SEC_CMD_CTRL s = true ∧ MayWrite .mgmt R.SEC_CMD_DATA s = true ∧ s.running secPage = true ∧ s.fld R.SEC_CMD_STAT 1 0 = 1) ∧
    (let c : QuayCmd := ⟨3, 0x40040000, 0, 1, []⟩
     let s := (runs [64]).setSec fun q => { q with queue := [c] }
     s.pwr.saving = false ∧ (s.sec.queue.find? fun x => x.target == (0x40040000 : Word).toNat) = some c ∧
       s.betweenBounds (pageOf (0x40040000 : Word).toNat) = false ∧ (runs [64]).sec.queue.find? (fun x => x.target == (0x40040000 : Word).toNat) = none) ∧
    (pageOf (0x40040000 : Word).toNat = 64 ∧ (acting [64]).betweenBounds 64 = true) := by decide +kernel

theorem wit_CommandsDelivered :
    (allOn.pwr.saving = false ∧ cmdSuits 1 (0x40040000 : Word).toNat = true ∧ allOn.up (domOf (pageOf (0x40040000 : Word).toNat)) = true ∧
      allOn.betweenBounds (pageOf (0x40040000 : Word).toNat) = false ∧
      (let c : QuayCmd := ⟨1, 0x40040000, 0, 0, leBytes 4 1⟩
       (acting [64]).waitsFor c = true ∧ (acting [64]).betweenBounds (pageOf (0x40040000 : Word).toNat) = true)) ∧
    (let s := acting [64]
     s.pwr.saving = false ∧ s.shown 64 ≠ 0 ∧ s.running 64 = true ∧ s.acts = true) ∧
    (let s := acting []
     s.pwr.saving = false ∧ s.shown 64 ≠ 0 ∧ s.running 64 = false ∧ s.acts = true ∧ s.lge.image = none ∧ allOn.acts = false ∧
       (withImage s).lge.image = some noImage) ∧
    (forceItems 0 [] [⟨0, 1, 0, 0x3FFF, 0⟩]).toOption = none ∧ (forceItems 0 [] []).toOption = some [] ∧
    (changeRefused changeImage ⟨9, 3⟩ = none ∧ changeRefused changeImage ⟨9, 10⟩ = none ∧ changeRefused changeImage ⟨9, 11⟩ = some 2 ∧
      (runs [64]).shown 64 ≠ 0 ∧ ((runs [64]).setLge fun l => { l with image := some changeImage }).lge.image = some changeImage) ∧
    (let s := evr (fun e => { e with ctl := some { next := 5 } }) (runs [34])
     s.running 34 = true ∧ (3 : DWord).toNat + 1 < (s.flushLog.evr.ctl.getD {}).next ∧ (3 : DWord) ≠ BitVec.allOnes 64 ∧
       ¬ ((4 : DWord).toNat + 1 < (s.flushLog.evr.ctl.getD {}).next ∧ (4 : DWord) ≠ BitVec.allOnes 64)) ∧
    (let b : Heartbeat := ⟨2, 2, false, false, true, false, 0, 0, 0, 0, 0⟩
     let s := ((runs [64, 128]).setRegs [(R.PLK_PAIR_STAT, 0x81), (R.LGE_PHASE, 3)]).setPlk fun p => { p with partner := some b, pFit := true }
     s.switchOk = true ∧ s.active 64 = true ∧ s.regN R.LGE_PHASE = 3 ∧ (inSt .stop [64] s).switchOk = true ∧ (inSt .stop [64] s).active 64 = false ∧
       (inSt .stop [128] s).switchOk = false) ∧
    (let s := keyed (runs [32])
     s.running 32 = true ∧ s.keyRefused ⟨15, 0, 0, []⟩ = false ∧ s.keyRefused ⟨15, 1, 0x3F, List.replicate 32 1⟩ = false) ∧
    (let s := (keyed (runs [32, 128])).setReg R.PLK_WIT_KEY_SLOT 15
     s.running 32 = true ∧ s.keyRefused ⟨15, 1, 0, []⟩ = true) := by decide +kernel

theorem wit_SecImagesAndQuotes :
    (allOn.shown 32 = 1 ∧ (allOn.blk 32).gen = 0 ∧ allOn.pwr.saving = false ∧ (runs [32]).shown 32 ≠ 1) ∧
    (let s := runs [32, 208]
     s.running 32 = true ∧ s.pwr.saving = false ∧ s.sec.upd = none ∧ s.dramUp = true ∧ inDram (0x17FFFFFF8 : DWord).toNat 8 = true) ∧
    ((runs [32]).fwRefused = true) ∧
    (let u : FwUpd := ⟨7, 0x80000000, []⟩
     let s := (runs [32]).setSec fun c => { c with upd := some u }
     s.active 32 = true ∧ s.sec.upd = some u) ∧
    (let s := (runs [32]).setSec fun c => { c with boot := { c.boot with trial := true } }
     MayWrite .mgmt R.SEC_FW_CONFIRM s = true ∧ s.running 32 = true ∧ s.sec.boot.trial = true ∧ s.sec.booted = s.sec.boot.next) ∧
    (MayWrite .mgmt R.SEC_MEAS_CTRL (runs [32]) = true ∧ (runs [32]).sec.lock2 = false ∧ ((runs [32]).setSec fun c => { c with lock2 := true }).sec.lock2 = true) ∧
    (let s := runs [32, 208]
     MayWrite .mgmt R.SEC_QUOTE_CMD s = true ∧ s.running 32 = true ∧ s.fld R.SEC_QUOTE_STAT 1 0 ≠ 1 ∧ s.dramUp = true) ∧
    (let s := (runs [32, 208]).setRegs [(R.SEC_QUOTE_STAT, 1), (R.SEC_QUOTE_ADDR_LO, 0x80000000)]
     s.active 32 = true ∧ s.fld R.SEC_QUOTE_STAT 1 0 = 1 ∧ s.dramUp = true ∧
       inDram (s.reg64 R.SEC_QUOTE_ADDR_LO R.SEC_QUOTE_ADDR_HI) s.sec.quote.length = true) := by decide +kernel

/-- A record of the control plane with a code and a body of four words. -/
def recOf (code : BitVec 16) : Record := ⟨.num code, 1, .control, 64, [0, 0, 0], []⟩

theorem wit_EventRecorder :
    (let s := runs [34]
     s.pwr.saveDone = false ∧ s.running 34 = true ∧ codeOk (recNumber (recOf 0xF0FF)).toNat = true ∧ bodyOk ((recOf 0xF0FF).src :: (recOf 0xF0FF).body) = true ∧
       (s.evr.queues.get (fun _ => []) 0).length < 64 ∧ planeNum (recOf 0xF0FF).plane = 0) ∧
    (allOn.running 34 = false ∧
      (let s := evr (fun e => { e with queues := [(0, List.replicate 64 ⟨recOf 1, 0⟩)] }) (runs [34])
       64 ≤ (s.evr.queues.get (fun _ => []) 0).length)) ∧
    (let q : QRec := ⟨recOf 0x20, 0⟩
     let s := evr (fun e => { e with queues := [(0, [q])] }) (runs [34])
     s.evr.queues.get (fun _ => []) (planeNum .control) = q :: [] ∧ s.active 34 = true ∧ s.evr.bytes + 36 + 4 * q.r.body.length ≤ 65536 ∧
       s.evr.lostNew.get (fun _ => 0) (planeNum .control) = 0 ∧ s.flag R.EVR_LOG_STAT 0 = false ∧ q.r.code ≠ .evt 20 ∧
       noLimit (recNumber q.r).toNat = true) ∧
    (let q : QRec := ⟨recOf 0x100, 0⟩
     let s := evr (fun e => { e with queues := [(0, [q])], newest := [(0x100, { seq := 3 })], tokens := [(0x100, 59, 0)] }) (runs [34])
     s.evr.queues.get (fun _ => []) (planeNum .control) = q :: [] ∧ s.active 34 = true ∧ s.flag R.EVR_LOG_STAT 0 = false ∧
       s.evr.bytes + 36 + 4 * q.r.body.length ≤ 65536 ∧ s.evr.lostNew.get (fun _ => 0) (planeNum .control) = 0 ∧ q.r.code ≠ .evt 20 ∧
       noLimit (recNumber q.r).toNat = false ∧ (s.evr.newest.get (fun _ => {}) (bucketOf (recNumber q.r).toNat)).seq ≠ 0 ∧
       s.tokens (bucketOf (recNumber q.r).toNat) < tokenUnit) ∧
    (MayWrite .mgmt R.EVR_SW_SEND allOn = true ∧ bits 0x1FF 15 0 < 0x200 ∧ 0x2FF < bits 0x300 15 0 ∧ 0x200 ≤ bits 0x200 15 0 ∧ bits 0x2FF 15 0 ≤ 0x2FF) ∧
    (MayWrite .mgmt R.EVR_RD_OFS allOn = true ∧ MayWrite .mgmt R.EVR_RL_INDEX allOn = true ∧ allOn.shown 34 = 1 ∧
      MayWrite .mgmt R.EVR_RL_INDEX (runs [34]) = true ∧ (runs [34]).shown 34 ≠ 1) := by decide +kernel

/-- The last second of the calendar, in TIME and in STAGE. -/
def lastSecond : State :=
  State.reset.setRegs [(R.RTC_TIME0, 0x3B3B0000), (R.RTC_TIME1, 0x0C1F0017), (R.RTC_TIME2, 2399), (R.RTC_STAGE0, 0x3B3B0000),
    (R.RTC_STAGE1, 0x0C1F0017), (R.RTC_STAGE2, 2399)]

theorem wit_RealTimeClock :
    (calOf (State.reset.reg R.RTC_TIME0) (State.reset.reg R.RTC_TIME1) (State.reset.reg R.RTC_TIME2) ≠ (2399, 12, 31, 23, 59, 59) ∧
      State.reset.flag (R.RTC_ALM_MASK 1) 8 = false) ∧
    (calOf (lastSecond.reg R.RTC_TIME0) (lastSecond.reg R.RTC_TIME1) (lastSecond.reg R.RTC_TIME2) = (2399, 12, 31, 23, 59, 59) ∧
      stageBad lastSecond = none ∧ stageBad (lastSecond.setReg R.RTC_STAGE2 2400) = some 0 ∧ MayWrite .mgmt R.RTC_COMMIT lastSecond = true ∧
      lastSecond.flag R.RTC_STAT 4 = false) ∧
    ((State.reset.setReg R.RTC_WAKE_PERIOD 0x80000001).flag R.RTC_WAKE_PERIOD 31 = true ∧ State.reset.flag R.RTC_WAKE_PERIOD 31 = false) ∧
    (MayWrite .mgmt R.RTC_WAKE_PERIOD State.reset = true ∧ 1 ≤ bits 1 24 0 ∧ bits 22118400 24 0 ≤ 22118400 ∧ 22118400 < bits 22118401 24 0) ∧
    (MayRead .mgmt R.RTC_TIME0 State.reset = true ∧ State.reset.flag R.RTC_STAT 1 = false ∧ MayRead .mgmt R.RTC_TIME1 State.reset = true ∧
      MayRead .mgmt R.RTC_TIME2 State.reset = true ∧ (State.reset.setReg R.RTC_STAT 2).flag R.RTC_STAT 1 = true) ∧
    (MayWrite .mgmt R.RTC_COMMIT State.reset = true ∧ State.reset.flag R.RTC_STAT 4 = false ∧ (State.reset.setReg R.RTC_STAT 16).flag R.RTC_STAT 4 = true) ∧
    State.reset.flag R.RTC_STAT 2 ≠ true ∧
    (let s := State.reset.setRegs [(R.RTC_TRIM, 0x10000), (R.PTP_SERVO_STAT, 2)]
     s.flag R.RTC_TRIM 16 = true ∧ s.fld R.PTP_SERVO_STAT 2 0 = 2) := by decide +kernel

theorem wit_StatusPanel :
    (MayWrite .mgmt R.PNL_WF_CTL allOn = true ∧ allOn.shown 192 = 1 ∧ MayWrite .mgmt R.PNL_WF_CTL (runs [192]) = true ∧ (runs [192]).shown 192 ≠ 1) ∧
    (let s := allOn.setReg R.PNL_WF_STAT 1
     MayWrite .mgmt R.PNL_WF_CTL s = true ∧ s.fld R.PNL_WF_STAT 2 0 = 1 ∧ (wfFail s.pnl.staging 257 0).isSome = true) ∧
    (let s := (allOn.setReg R.PNL_WF_STAT 1).setReg R.PNL_WF_ROW 256
     MayWrite .mgmt R.PNL_WF_DATA s = true ∧ s.fld R.PNL_WF_STAT 2 0 = 1 ∧ s.fld R.PNL_WF_ROW 8 0 ≤ 256 ∧ s.pnl.row.length < 4 ∧
       ({ s with pnl := { s.pnl with row := [0, 0, 0, 0] } } : State).pnl.row.length = 4) ∧
    (let s := (runs [208]).setReg R.PNL_UPD_SRC_LO 0x80000000
     MayWrite .mgmt R.PNL_UPD_CMD s = true ∧ s.dramUp = true ∧ inDram (s.reg64 R.PNL_UPD_SRC_LO R.PNL_UPD_SRC_HI) 64 = true) ∧
    (allOn.updRefuse true true 0 0 allOn.glassW allOn.glassH 0 = some 4 ∧ allOn.updRefuse true false 0 0 0 0 0 = some 2) ∧
    ((allOn.setReg R.PNL_SLOT_STAT 15).fld R.PNL_SLOT_STAT 3 0 = 15) ∧
    (let s := runs [192]
     s.running 192 = true ∧ s.flag R.PNL_STAT2 0 = false ∧ s.fld R.PNL_SLOT_STAT 3 0 = 0) ∧
    (let s : State := { runs [192] with pnl := { rails := .up, pix := [(0, { run := some ⟨15, false, 0, some 0⟩ })] } }
     s.active 192 = true ∧ s.pnl.rails = .up ∧ s.pwr.panelNeutral = false ∧ s.pnlWork = true) ∧
    (allOn.pnl.rails ≠ .up ∧ allOn.pnl.hold = 0 ∧ allOn.pnlWork = false) ∧
    (let s : State := { allOn with pnl := { rails := .up } }
     (s.setReg R.PNL_RAIL_CFG 2).flag R.PNL_RAIL_CFG 1 = true ∧ s.pnl.rails = .up ∧ s.pnlWork = false ∧ s.pnl.hold = 0 ∧ s.pnl.rails ≠ .down ∧
       s.shown 192 ≠ 0) ∧
    (let s : State := { runs [192] with pnl := { rails := .up, hold := 1 } }
     s.active 192 = true ∧ s.pnl.rails = .up ∧ s.pwr.panelNeutral = false ∧ s.pnlWork = false ∧ 0 < s.pnl.hold) ∧
    (let s : State := { runs [192] with pnl := { rails := .falling, pix := [(0, { run := some ⟨15, false, 0, some 0⟩ })] } }
     s.pnl.rails = .falling ∧ s.pnlWork = true ∧ s.running 192 = true ∧ ({ s with pnl := { rails := .falling } } : State).pnlWork = false) ∧
    (let s := (runs [192]).setReg R.PNL_STAT2 1
     s.flag R.PNL_STAT2 0 = true ∧ s.active 192 = true ∧ s.pnlWork = false) := by decide +kernel

theorem wit_StatusPanel_table :
    wfFail ((List.range 256).map (fun r => (r, [0, 0, 0, 0, 0])) ++ [(256, [1, 0, 0, 0, 0])]) 257 0 = none := by decide +kernel

/-- Port 5 in RUN with its link up; the classifier's two UDP ports set apart. -/
def linked (s : State) : State :=
  (inSt .run [117] s).setRegs [(R.ETH_MODE 5, 1), (R.ETH_LINK 5, 1), (R.ETH_CLS_LSX 5, 5000), (R.ETH_CLS_WIT 5, 5001)]
/-- A good frame to this port. -/
def ethFrame (kind : EthKind) (n : Nat) : EthFrame := ⟨List.replicate n 0, true, .own, [], 0, kind, .clean⟩

theorem wit_EthernetPort :
    (allOn.linkUp 5 = false ∧ allOn.phyUp 5 = false ∧ (linked allOn).linkUp 5 = true ∧ (linked allOn).phyUp 5 = true) ∧
    (1522 < (ethFrame .ptp 1523).bytes.length ∧ ((ethFrame .ptp 64).good = true ∧ (ethFrame .ptp 1522).bytes.length ≤ 1522)) ∧
    ({ ethFrame .ptp 64 with dst := .foreign }.dst = .foreign ∧ udpRefused (.echo 1281) = true) ∧
    ((ethFrame .ptp 64).dst ≠ .foreign ∧ (ethFrame .ptp 64).srcIp = [] ∧ ((linked allOn).port 5).rxPtp.length < 32) ∧
    (let k : EthKind := .udp false 5000 .zero false false
     (ethFrame k 64).kind = k ∧ udpRefused k = false ∧ (5000 : BitVec 16) ≠ 319 ∧ (5000 : BitVec 16) ≠ 320 ∧
       (5000 : BitVec 16).toNat = (linked allOn).fld (R.ETH_CLS_LSX 5) 15 0 ∧ (5000 : BitVec 16).toNat ≠ (linked allOn).fld (R.ETH_CLS_WIT 5) 15 0 ∧
       ((linked allOn).port 5).rxLsx.length < 64 ∧ 64 ≤ (((linked allOn).setPort 5 { rxLsx := List.replicate 64 [] }).port 5).rxLsx.length) ∧
    (let s := (linked allOn).setPort 5 { txLsx := [[1]] }
     (s.port 5).txLsx = [1] :: [] ∧ s.pausedNow 5 = false ∧ (s.port 5).onWire = false) ∧
    (let s := (linked allOn).setPort 5 { txLsx := [[1]], pauseTo := 1 }
     s.pausedNow 5 = true ∧ (s.port 5).onWire = false) ∧
    (let s := (inSt .run [208] (linked allOn)).setRegs [(R.ETH_HQ_TX_TAIL 5, 1)]
     s.pausedNow 5 = false ∧ (s.port 5).txOff = [] ∧ s.regN (R.ETH_HQ_TX_HEAD 5) ≠ s.regN (R.ETH_HQ_TX_TAIL 5) ∧ s.running 208 = true) ∧
    (MayWrite .mgmt (R.ETH_HQ_TX_TAIL 5) allOn = true ∧ MayWrite .mgmt (R.ETH_HQ_RX_TAIL 5) allOn = true) ∧
    (((allOn.setPort 5 { held := [([9], .lsx, [])] }).port 5).held.any (fun h => h.1 == [9]) = true ∧
      (allOn.port 5).held.any (fun h => h.1 == [9]) = false) := by decide +kernel

theorem wit_DeviceTime :
    (MayRead .mgmt R.PTP_TIME_NS allOn = true ∧ MayWrite .mgmt R.PTP_TCMD allOn = true ∧ (allOn.setReg R.PTP_STEP_EN 1).flag R.PTP_STEP_EN 0 = true ∧
      MayWrite .mgmt R.PTP_TCMD (allOn.setReg R.PTP_STEP_EN 1) = true ∧ (allOn.setReg R.PTP_STEP_EN 0).flag R.PTP_STEP_EN 0 = false) ∧
    (let s : State := { runs [120] with ptp := { secArm := true } }
     s.running 120 = true ∧ s.locked 8 = true ∧ s.ptp.secArm = true ∧ s.flag R.PTP_STEP_EN 0 = true ∧
       (s.setReg R.PTP_STEP_EN 0).flag R.PTP_STEP_EN 0 = false) ∧
    State.reset.locked 8 = false ∧
    ((runs [120]).running 120 = true ∧ (runs [120]).ptp.secArm = false ∧ (runs [120]).fld R.PTP_PPS_CFG 3 2 ≠ 2 ∧ allOn.running 120 = false) ∧
    (let s := (runs [120]).setReg R.PTP_SERVO_STAT 3
     s.running 120 = true ∧ s.servo = 3) ∧
    (let s := (runs [120]).setRegs [(R.PTP_PPS_CFG, 9), (R.PTP_SERVO_STAT, 2)]
     s.running 120 = true ∧ s.fld R.PTP_PPS_CFG 3 2 = 2 ∧ s.anyPort 9 = false ∧ s.servo = 2 ∧ s.servo ≠ 3 ∧ s.ptp.ppsLast = none ∧
       s.fld R.PTP_PPS_CFG 1 0 = 1) ∧
    (let s : State := { allOn with ptp := { ppsLast := some 0, ppsHigh := true } }
     s.ptp.ppsLast = some s.time.cnt ∧ s.ptp.ppsHigh = true) ∧ allOn.ptp.ppsHigh = false := by decide +kernel

theorem wit_PtpMessages :
    (let s : State := { (runs [120]).setRegs [(R.PTP_CFG, 0x3F00), (R.PTP_PORT_STATE, 0x900000)] with ptp := { twoStep := some ⟨0, 0, 0⟩ } }
     s.ptpOn 5 = true ∧ s.ptpPort 5 = 9 ∧ s.ptp.twoStep = some ⟨0, 0, 0⟩ ∧ s.ptpE2e = true) ∧
    (let s := (runs [120]).setRegs [(R.PTP_CFG, 0x3F01), (R.PTP_PORT_STATE, 0x600000)]
     s.ptpOn 5 = true ∧ s.ptpPort 5 = 6 ∧ s.ptpE2e = false ∧ (s.setPorts [3, 3, 3, 3, 3, 9]).ptpPort 5 = 9 ∧ (s.setPorts [3, 3, 3, 3, 3, 6]).ptpPort 5 ≠ 9) ∧
    (let s := (runs [120]).setRegs [(R.PTP_CFG, 0x2000), (R.PTP_PORT_STATE, 0x600000)]
     s.ptpOn 5 = true ∧ s.ptpPort 5 = 6 ∧ s.ptpE2e = true) ∧
    allOn.ptpOn 5 = false := by decide +kernel

/-- Drive link 7 and the axis master in RUN, driver 15 of the link enabled, its axis changed. -/
def axisState (f : Axis → Axis) : State :=
  let s := (inSt .run [160, 168] allOn).setRegs [(R.DLK_LINK_CFG 7, 0x8000), (R.DLK_ENC 127, 1000)]
  s.setAxis 127 (f (s.axis 127))

theorem wit_DriveAxes :
    (let s := axisState id
     s.shown (dlkPage 7) = 3 ∧ (s.dlk.get (fun _ => {}) 7).silent = false ∧ s.locked 8 = true ∧ s.pwr.saving = false ∧ s.linkPrimary = false) ∧
    ((inSt .fault [168] allOn).shown (dlkPage 7) = 4) ∧
    (let s := (axisState id).setReg R.PLK_PAIR_STAT 2
     s.shown (dlkPage 7) ≠ 0 ∧ s.locked 8 = true ∧ State.reset.locked 8 = false ∧ s.axEnabled 127 = true ∧ ([] : List Byte).length ≠ 8 ∧ s.role = rStandby ∧ s.axEnabled 126 = false) ∧
    (MayWrite .logic R.AXS_CMD allOn = true ∧ allOn.running (dlkPage (127 / 16)) = false) ∧
    (let s := axisState id
     MayWrite .logic R.AXS_CMD s = true ∧ s.running (dlkPage (127 / 16)) = true ∧ s.axEnabled 126 = false ∧ s.axEnabled 127 = true ∧
       s.axBusy 127 = false ∧ s.encFs 127 ≠ 0 ∧ (s.axis 127).st ≠ .stalled ∧ (s.axis 127).st ≠ .fault ∧ (s.setReg (R.DLK_ENC 127) 0).encFs 127 = 0 ∧ s.shown (dlkPage (127 / 16)) ≠ 0) ∧
    ((axisState fun x => { x with st := .moving }).axBusy 127 = true ∧ ((axisState fun x => { x with st := .moving }).axis 127).st = .moving ∧
      ((axisState fun x => { x with st := .stalled }).axis 127).st = .stalled ∧
      ((axisState fun x => { x with st := .fault, status := 1 }).axis 127).st = .fault ∧
      ((axisState fun x => { x with st := .fault, status := 1 }).axis 127).status.getLsbD 0 = true) ∧
    (((axisState fun x => { x with holding := true }).axis 127).holding = true ∧ ((axisState id).axis 127).holding = false) := by decide +kernel

theorem wit_MeteringAndPulses :
    ((runs [176]).active 176 = true ∧ (runs [176]).pwr.saving = false ∧ allOn.active 176 = false) ∧
    (let s := allOn.setMtr fun m => { m with sampled := true }
     s.up 3 = true ∧ s.pwr.saving = false ∧ s.mtr.sampled = true ∧ allOn.mtr.sampled = false) ∧
    (MayRead .mgmt (totalAddr 127) allOn = true ∧ MayRead .mgmt (totalAddr 0) allOn = true) ∧
    ((runs [225]).running 225 = true ∧ (runs [225]).pwr.saving = false ∧ allOn.active 225 = false) ∧
    (let s := ((acting [225]).setRegs [(R.PLS_CFG 15, 1), (R.PLS_WEIGHT 15, 3)]).setPulse 15 { res := 3 * 2 ^ 32 }
     (s.pulse 15).high = false ∧ (s.pulse 15).gap = 0 ∧ s.acts = true ∧ s.fld (R.PLS_CFG 15) 1 0 ≠ 0 ∧
       ((s.regN (R.PLS_WEIGHT 15) * 2 ^ 32 : Nat) : Int) ≤ (s.pulse 15).res) ∧
    ((allOn.setPulse 15 { high := true }).pulse 15).high = true ∧
    MayRead .mgmt (R.PLS_RES_LO 15) allOn = true ∧
    ((runs [224]).running 224 = true ∧ (runs [224]).locked 8 = true ∧ (runs [224]).flag R.GPIO_IN 15 ≠ true ∧ (runs [224]).flag R.GPIO_DIR 15 = false ∧
      ((runs [224]).setReg R.GPIO_DIR 0x8000).flag R.GPIO_DIR 15 = true) := by decide +kernel

/-- A stamp. -/
def stamp : Stamp := ⟨999999999, 5, true⟩

theorem wit_CaptureFifo :
    (let s := (runs [121]).setReg (R.CAP_CFG 24) 2
     s.locked 8 = true ∧ State.reset.locked 8 = false ∧ s.running 121 = true ∧ (if false then s.flag (R.CAP_CFG 24) 0 else s.flag (R.CAP_CFG 24) 1) = true ∧
       ((s.setCap 24 { fifo := List.replicate 15 stamp }).capCh 24).fifo.length < 16 ∧
       16 ≤ ((s.setCap 24 { fifo := List.replicate 16 stamp }).capCh 24).fifo.length) ∧
    (MayRead .mgmt (R.CAP_TS_NS 24) allOn = true ∧ ((allOn.setCap 24 { fifo := [stamp] }).capCh 24).fifo = stamp :: [] ∧ (allOn.capCh 24).fifo = []) ∧
    (let s := allOn.setCap 24 { fifo := [stamp], latch := some stamp }
     MayRead .mgmt (R.CAP_TS_SH 24) s = true ∧ (s.capCh 24).fifo = stamp :: [] ∧ (s.capCh 24).latch = some stamp) := by decide +kernel

/-- A data frame, and a message that keeps it. -/
def canFrame : CanFrame := ⟨0x7FF, false, true, true, false, false, 15, List.replicate 64 1⟩
def canMsg : CanMsg := ⟨canFrame, 0, some 15, 0, false⟩
/-- Channel 11 in RUN, its filter 15 taking every standard identifier. -/
def canRun (s : State) : State := (inSt .run [155] s).setRegs [(R.CAN_FLT_CFG 11 15, 1), (R.CAN_FLT_ID 11 15, 0x7FF), (R.CAN_FLT_MASK 11 15, 0x7FF)]

theorem wit_CanFrameFiltered :
    (let s := canRun allOn
     s.active (canPage 11) = true ∧ s.locked 8 = true ∧ s.canSt 11 < 2 ∧ s.canRestricted = true ∧ canFrame.rtr = false ∧
       (List.range 16).find? (fun k => s.filterHit 11 k canFrame) = some 15 ∧ s.flag (R.CAN_FLT_CFG 11 15) 2 = false) ∧
    (let s := runs [155]
     s.active (canPage 11) = true ∧ s.locked 8 = true ∧ s.canSt 11 < 2 ∧ s.canRestricted = true ∧
       (List.range 16).find? (fun k => s.filterHit 11 k canFrame) = none ∧ s.flag (R.CAN_RX_CFG 11) 0 = false) := by decide +kernel

theorem wit_CanFifoWindow :
    (let s := allOn.setCan 11 { fifo := [canMsg] }
     (s.canCh 11).fifo = canMsg :: [] ∧ MayRead .logic (pageBase (canPage 11) + (0x940 + 4 * 0)) s = true ∧ 0x940 + 4 * 0 ≠ relOfs canMsg ∧
       MayRead .logic (pageBase (canPage 11) + relOfs canMsg) s = true) := by decide +kernel

theorem wit_CanTransmitBuffers :
    (let s := runs [155]
     2 < 3 ∧ MayWrite .logic (R.CAN_TXB_CMD 11) s = true ∧ s.running (canPage 11) = true ∧ s.txbSt 11 1 = 0) ∧
    (let s := (runs [155]).setReg (R.CAN_TXB_STAT 11) 1
     MayWrite .logic (R.CAN_TXB_CMD 11) s = true ∧ s.txbSt 11 0 = 1) ∧
    (let s := ((acting [155]).setReg (R.CAN_TXB_STAT 11) 0x100).setReg (R.CAN_MODE 11) 0
     s.running (canPage 11) = true ∧ s.locked 8 = true ∧ s.pwr.saving = false ∧ s.acts = true ∧ s.plk.applied = false ∧ s.flag (R.CAN_MODE 11) 4 = false ∧ s.canSt 11 < 2 ∧
       (∀ c, c < 3 → s.txbSt 11 c ≠ 2) ∧ (s.canCh 11).queue = [] ∧ s.arbPick 11 = some 2) ∧
    (let s := ((runs [155]).setReg (R.CAN_TXB_STAT 11) 2).setReg (R.CAN_TXB_CTL 11 0) 0
     s.txbSt 11 0 = 2 ∧ s.flag (R.CAN_TXB_CTL 11 0) 4 = false ∧ (s.canCh 11).aborts.contains 0 = false) := by decide +kernel

theorem wit_CanErrorConfinement :
    (allOn.setReg (R.CAN_MODE 11) 1).flag (R.CAN_MODE 11) 3 = false ∧
    (let s := acting [155]
     s.active (canPage 11) = true ∧ s.locked 8 = true ∧ (15 : BitVec 4) ≠ 0 ∧ s.countsErr 11 = true) ∧
    (let s := (runs [155]).setFld (R.CAN_ERR 11) 26 25 3
     s.active (canPage 11) = true ∧ s.locked 8 = true ∧ s.canSt 11 = 3) ∧
    (let s := (runs [155]).setFld (R.CAN_ERR 11) 26 25 2
     MayWrite .logic (R.CAN_TXB_CMD 11) s = true ∧ s.active (canPage 11) = true ∧ s.canSt 11 = 2) ∧
    (let s := (allOn.setCan 11 { mbox := [(15, some canMsg)] }).setReg (R.CAN_FLT_CFG 11 15) 0x10000
     (s.canCh 11).mbox.get (fun _ => none) 15 = some canMsg ∧ canMsg.late = false ∧ s.fld (R.CAN_FLT_CFG 11 15) 31 16 ≠ 0) := by decide +kernel

/-- The header of a frame of the other side, side B, on lane 1. -/
def hdrB : PairHdr := ⟨2, true, false, true, false, 5, 3, 1⟩
def beat (protoMax : Byte) : Heartbeat := ⟨2, protoMax, false, false, true, false, 0, 0, 0, 0, 0⟩
/-- PLK in RUN on side A with both lanes up, in a role and with a protocol. -/
def plk (role proto : Nat) (f : PlkSt → PlkSt) : State :=
  (((runs [128]).setRegs [(R.PLK_LANE_STAT, 3), (R.PLK_PAIR_STAT, wd (role + 64 * proto))])).setPlk f
/-- A witness frame of side B: 56 bytes before its tag. -/
def witHead : List Byte := [2, 1, 5, 0] ++ List.replicate 21 0 ++ [2] ++ List.replicate 30 0

theorem wit_PairHeartbeats :
    (let s := plk 2 2 id
     s.running 128 = true ∧ s.pairLink = true ∧ s.laneUp 1 = true ∧ s.pairTakes hdrB 0 ∧ hdrB.sideB ≠ s.sideB ∧ (beat 2).protoMax ≠ 0 ∧ (beat 0).protoMax = 0 ∧
       s.role = 2 ∧ hdrB.fit = true) ∧
    (let s := plk 0 0 id
     s.pairTakes { hdrB with sideB := false } 0 ∧ { hdrB with sideB := false }.sideB = s.sideB ∧ s.role = 0) ∧
    (allOn.running 128 = false ∧ allOn.flag R.PLK_LANE_STAT hdrB.lane.val = false ∧ allOn.active 128 = false ∧ (runs [128]).up 7 = true ∧ (runs [128]).active 128 = true) ∧
    (let s := plk 2 2 id
     s.active 128 = true ∧ s.locked 7 = true ∧ s.flag R.PLK_LANE_STAT ({ hdrB with proto := 3 } : PairHdr).lane.val = true ∧
       (s.setPlk fun p => { p with seen := [(0, hdrB.seq)] }).dup 0 hdrB.seq = true ∧ badProto hdrB = false) ∧
    (let s := (plk 2 2 id).setFlag R.PLK_PAIR_STAT 5 true
     s.running 128 = true ∧ s.flag R.PLK_PAIR_STAT 5 = true) ∧
    (let s := (inSt .run [64] (plk 2 2 id)).setReg R.LGE_IMG_STAT 1
     s.running 128 = true ∧ s.flag R.PLK_PAIR_STAT 4 = false ∧ s.mayTake = true) ∧
    (let s := plk 1 2 id
     s.running 128 = true ∧ s.flag R.PLK_PAIR_STAT 4 = false ∧ s.role = 1 ∧ s.proto = 2) ∧
    (let s := plk 5 2 id
     s.running 128 = true ∧ s.flag R.PLK_PAIR_STAT 4 = false ∧ s.mayTake = false ∧ s.role ≠ 1) := by
  unfold State.pairTakes; decide +kernel

theorem wit_PairHeartbeats_witness :
    (let s := plk 2 2 id
     let raw := witHead ++ kmac256 (s.slotKey (s.fld R.PLK_WIT_KEY_SLOT 3 0)) witHead 16 "PLK2 WIT"
     s.active 128 = true ∧ raw.length = 72 ∧ raw.getD 1 0 = 1 ∧ raw.getD 0 0 = 2 ∧
       raw.drop 56 = kmac256 (s.slotKey (s.fld R.PLK_WIT_KEY_SLOT 3 0)) (raw.take 56) 16 "PLK2 WIT") ∧
    ([] : List Byte).length ≠ 72 :=
  ⟨⟨by decide +kernel, by decide +kernel, rfl, rfl, by
    have e : 56 = witHead.length := rfl
    rw [e, List.drop_left, List.take_left]⟩, by decide⟩

theorem wit_PairStateAndStreams :
    (let s := plk 2 2 id
     s.pairTakes hdrB 0 ∧ s.acts = false ∧ (plk 1 2 id).pairTakes hdrB 0 ∧ (plk 1 2 id).acts = true ∧
       s.pendingImage ⟨1, 0, 0, 1, true, false, 0, [511]⟩ = none ∧ s.pairTakes hdrB 1 ∧ s.proto ≠ 1 ∧ 1 ≤ (4 : Byte).toNat ∧ (4 : Byte).toNat ≤ 4 ∧
       (s.plk.objs.get (fun _ => {}) (4 : Byte).toNat).gen < (1 : Word).toNat) ∧
    (let s := plk 2 2 fun p => { p with objs := [(4, { gen := 2 })] }
     s.pairTakes hdrB 1 ∧ s.proto ≠ 1 ∧ (1 : Word).toNat < (s.plk.objs.get (fun _ => {}) (4 : Byte).toNat).gen) ∧
    (let s := (plk 2 2 id).setKpr fun k => { k with mirror := [(0, [1]), (1, [2])] }
     s.pairTakes hdrB 2 ∧ s.acts = false ∧ s.proto ≠ 1 ∧ s.kprCores = true ∧ s.kpr.cause = 0 ∧
       Tab.get (fun _ => []) s.kpr.mirror 0 ≠ [] ∧ Tab.get (fun _ => []) s.kpr.mirror 1 ≠ []) ∧
    (plk 1 2 id).pairTakes hdrB 2 ∧ (plk 1 2 id).acts = true := by unfold State.pairTakes; decide +kernel

/-- A STATE_END of a whole image with no page, whose CRC holds. -/
theorem wit_PairStateAndStreams_image (c : Word) (h : imgCrc ⟨7, []⟩ = c) :
    (plk 2 2 id).pendingImage ⟨7, 0, 0, 0, true, false, c, []⟩ = some ⟨7, []⟩ := by
  simp [State.pendingImage, h]

/-- A side that stands by and may take over. -/
def fitStandby (f : PlkSt → PlkSt) : State := (inSt .run [64] (plk 2 2 f)).setReg R.LGE_IMG_STAT 1

theorem wit_PairRoles :
    ((fitStandby id).mayTake = true ∧ (fitStandby id).bothSilent = true ∧ (fitStandby fun p => { p with fitClear := 3 }).takeCause = true ∧
      (plk 1 2 id).mayTake = false ∧ (fitStandby id).acts = false) ∧
    (let s := plk 3 2 fun p => { p with epochOk := true }
     s.active 128 = true ∧ s.role = 3 ∧ s.plk.epochOk = true ∧ (plk 3 2 id).plk.epochOk = false ∧ (plk 2 2 id).role ≠ 3) ∧
    (let s := (plk 1 2 fun p => { p with contest := true }).setRegs [(R.PLK_MAJ_N, 4), (R.STL_REACH, 2)]
     s.plk.contest = true ∧ s.active 128 = true ∧ s.role = 1 ∧ 2 * s.contestCount = s.regN R.PLK_MAJ_N ∧ s.sideB = false ∧
       (s.setReg R.STL_REACH 3).regN R.PLK_MAJ_N < 2 * (s.setReg R.STL_REACH 3).contestCount ∧ (plk 1 2 id).plk.contest = false) ∧
    (let s := (plk 2 2 fun p => { p with contest := true }).setRegs [(R.PLK_MAJ_N, 4), (R.STL_REACH, 1)]
     s.plk.contest = true ∧ s.acts = false ∧ 2 * s.contestCount < s.regN R.PLK_MAJ_N) ∧
    ((plk 1 2 fun p => { p with standTo := some 2 }).plk.standTo = some 2 ∧ (plk 1 2 id).plk.standTo = none) ∧
    (Peer.partner ≠ .witness ∧ (⟨1, true, false, 100, 0⟩ : LeaseReq).sideB ≠ (plk 2 2 id).sideB ∧ (plk 1 2 id).acts = true) ∧
    (let s := plk 1 1 fun p => { p with reqAt := some (9, 0), lease := some 1 }
     s.active 128 = true ∧ s.plk.reqAt = some (9, 0) ∧ 9 = (9 : Word).toNat ∧ s.plk.lease.isSome = true ∧ s.time.log < 1) ∧
    (let s := (plk 2 1 id).setReg R.PLK_CFG 1
     s.mayRequest = true ∧ s.sideB = false ∧ (s.setFlag R.PLK_PAIR_STAT 10 true).mayRequest = true ∧ (s.setFlag R.PLK_PAIR_STAT 10 true).sideB = true) ∧
    (let s := plk 2 2 fun p => { p with lease := some 0 }
     s.plk.lease = some 0 ∧ 0 ≤ s.time.log ∧ s.leaseMode = false ∧ (plk 3 1 fun p => { p with lease := some 0 }).leaseMode = true ∧
       (plk 3 1 fun p => { p with lease := some 0 }).role = 3) ∧
    (let s := plk 0 0 id
     s.running 128 = true ∧ s.role = 0 ∧ (s.page 128).errcode ≠ 0x103 ∧ s.bothSilent = true ∧ s.leaseMode = false ∧
       (let u := (plk 0 2 id).setFlag R.PLK_PAIR_STAT 4 true
        u.running 128 = true ∧ u.role = 0 ∧ u.bothSilent = false ∧ u.plk.pActing = false ∧ u.leaseMode = false ∧ u.sideB = false ∧ (u.errc 128 0x103 0).page 128 ≠ u.page 128 ∧
          (u.setFlag R.PLK_PAIR_STAT 10 true).sideB = true ∧ (u.setPlk fun p => { p with pActing := true }).plk.pActing = true)) := by decide +kernel

/-- When no stall has shown an epoch, the epochs that PLK knows decide. -/
theorem topEpoch_eq (s : State) (h : allStalls.all (fun k => s.regN (R.STB_EPOCH k) == 0) = true) :
    s.topEpoch = max (max s.epoch (s.regN R.PLK_PARTNER_EPOCH)) s.plk.epochNv := by
  unfold State.topEpoch
  generalize max (max s.epoch (s.regN R.PLK_PARTNER_EPOCH)) s.plk.epochNv = m
  revert h
  generalize allStalls = l
  intro h
  induction l with
  | nil => rfl
  | cons k l ih =>
    simp only [List.all_cons, Bool.and_eq_true, beq_iff_eq] at h
    rw [List.foldl_cons, h.1, Nat.max_zero, ih h.2]

theorem wit_PairRoles_epoch :
    (plk 3 2 id).nextEpoch ≤ 0xFFFFFFFE ∧ 0xFFFFFFFE < (plk 3 2 fun p => { p with epochNv := 0xFFFFFFFE }).nextEpoch := by
  constructor
  · rw [State.nextEpoch, topEpoch_eq _ (by decide +kernel)]; decide +kernel
  · rw [State.nextEpoch, topEpoch_eq _ (by decide +kernel)]; decide +kernel

theorem wit_StepRunsFrontCommand : State.reset.pending = [] ∧ State.reset.up 6 = false ∧ State.reset.time.cnt < timeLimit := by decide +kernel

theorem wit_MemoryReadsBack : Memory.wf [] = true ∧ Memory.wf [(3, 1)] = true := by decide +kernel

theorem wit_EveryStepKeepsForm : State.reset.canon = true ∧ allOn.canon = true := by decide +kernel

/-! ### Well-formedness: a well-formed command, and one ill-formed term for each check -/

def wfFrame (x fd : Bool) (id n : Nat) : CanFrame := ⟨BitVec.ofNat 29 id, x, fd, false, false, false, 0, List.replicate n 0⟩
def wfSeg (dg n : Nat) : Segment := ⟨1, 0, 0, 1, List.replicate dg 0, List.replicate n 0⟩
def wfHdr : PairHdr := ⟨1, false, true, false, false, 0, 0, 0⟩
def wfRec (n : Nat) : Record := ⟨.num 1, 0, .control, 0, List.replicate n 0, []⟩

theorem test_wellFormed_power : Instr.wellFormed (.domainBrownout 0) = false ∧ Instr.wellFormed (.penCheck 6 0) = false ∧
    Instr.wellFormed (.domainBrownout 19) = true := by decide
theorem test_wellFormed_stores : Instr.wellFormed (.jqTail .dsq 0 [⟨0x40000000, [0]⟩]) = false ∧ Instr.wellFormed (.fcStart .mgmt [⟨0x22FFFFFF, [0, 0]⟩]) = false ∧
    Instr.wellFormed (.fcStart .mgmt [⟨0x22FFFFFF, [0]⟩]) = true := by decide
theorem test_wellFormed_tcm : Instr.wellFormed (.executeDone [⟨0, 0x7FFFF, [0, 0]⟩] [0, 0, 0, 0]) = false ∧ Instr.wellFormed (.executeDone [] [0]) = false ∧
    Instr.wellFormed (.executeDone [⟨0, 0x7FFFF, [0]⟩] [0, 0, 0, 0]) = true := by decide
theorem test_wellFormed_time : Instr.wellFormed (.announce 0 ⟨0, 6, 0, true, [9]⟩) = false ∧ Instr.wellFormed (.announceReceiptTimeout 0 []) = false ∧
    Instr.wellFormed (.announceReceiptTimeout 0 [6, 6, 6, 6, 6, 6]) = true := by decide
theorem test_wellFormed_can : Instr.wellFormed (.canRxFrame 0 (wfFrame false true 2048 0)) = false ∧ Instr.wellFormed (.canRxFrame 0 (wfFrame true false 1 9)) = false ∧
    Instr.wellFormed (.canRxFrame 0 (wfFrame true true 1 65)) = false ∧ Instr.wellFormed (.canRxFrame 11 (wfFrame true true 2048 64)) = true := by decide
theorem test_wellFormed_mtr : Instr.wellFormed (.mtrSample [1, 2] 0) = false ∧ Instr.wellFormed (.mtrSample (List.replicate 48 1) 0) = true := by decide
theorem test_wellFormed_pair : Instr.wellFormed (.statePage wfHdr 0 (List.replicate 4097 0)) = false ∧
    Instr.wellFormed (.statePage wfHdr 0 (List.replicate 4096 0)) = true := by decide +kernel
theorem test_wellFormed_items : Instr.wellFormed (.onlineChange []) = false ∧ Instr.wellFormed (.onlineChange (List.replicate 17 ⟨0, 0⟩)) = false ∧
    Instr.wellFormed (.force []) = false ∧ Instr.wellFormed (.force (List.replicate 17 ⟨0, 0, 0, 0, 0⟩)) = false ∧
    Instr.wellFormed (.force (List.replicate 16 ⟨0, 0, 0, 0, 0⟩)) = true := by decide
theorem test_wellFormed_segments : Instr.wellFormed (.safeValue (wfSeg 31 0)) = false ∧ Instr.wellFormed (.arm (wfSeg 32 4097)) = false ∧
    Instr.wellFormed (.arm (wfSeg 32 4096)) = true := by decide +kernel
theorem test_wellFormed_keys : Instr.wellFormed (.keyChange 0 0 ⟨0, 1, 0, []⟩) = false ∧ Instr.wellFormed (.fwUpdate ⟨0, 0, [1]⟩ []) = false ∧
    Instr.wellFormed (.keyChange 0 0 ⟨0, 1, 0, List.replicate 32 0⟩) = true := by decide
theorem test_wellFormed_records : Instr.wellFormed (.recordSubmit (wfRec 2)) = false ∧ Instr.wellFormed (.recordSubmit (wfRec 1)) = false ∧
    Instr.wellFormed (.recordSubmit (wfRec 65)) = false ∧ Instr.wellFormed (.recordSubmit (wfRec 63)) = true := by decide

/-! ### Single operations, with results from outside the model -/

/-- FIPS 202: SHAKE256 of no bytes begins 46B9DD2B. -/
theorem test_shake256_empty : shake256 [] 4 = [0x46, 0xB9, 0xDD, 0x2B] := by decide +kernel
/-- The check value of CRC-32C, over the digits 1 to 9 in ASCII. -/
theorem test_crc32c_check : crc32c [0x31, 0x32, 0x33, 0x34, 0x35, 0x36, 0x37, 0x38, 0x39] = 0xE3069283 := by decide +kernel
/-- The example of spec ch. 6: a barge of 90 °C in a pipe of K_p 763,550 over ground of 10 °C reads 89.834 °C after 150 s. -/
theorem test_barge_cools :
    ((presentT ⟨0, 0, 0, 0, 64, 0, 763550, 10 * 65536, 0⟩ 0 ⟨0, 90 * 65536, 0, 0, 1500, 0⟩).1 * 1000 + 32768) / 65536 = 89834 := by decide +kernel
/-- The example of spec ch. 11: buffers with base identifiers 0x120, 0x0F0 and 0x120. -/
def canBuffers (mode : Nat) : State :=
  (allOn.setReg (R.CAN_MODE 0) (aw mode)).setRegs [(R.CAN_TXB_STAT 0, 0x111), (R.CAN_TXB_ID 0 0, 0x120), (R.CAN_TXB_ID 0 1, 0x0F0), (R.CAN_TXB_ID 0 2, 0x120)]
theorem test_can_order_identifier : (canBuffers 0).arbPick 0 = some 1 ∧ ((canBuffers 0).setTxb 0 1 0 1).arbPick 0 = some 0 := by decide +kernel
theorem test_can_order_buffer : (canBuffers 4).arbPick 0 = some 0 := by decide +kernel
/-- The example of spec ch. 12: braking from VMAX takes 39,667.2 microsteps. -/
def hotStore : State :=
  allOn.setRegs [(R.AXS_PRF_VSTART 0, 2560), (R.AXS_PRF_VSTOP 0, 2560), (R.AXS_PRF_V1 0, 25600), (R.AXS_PRF_VMAX 0, 102400),
    (R.AXS_PRF_A1 0, 256000), (R.AXS_PRF_D1 0, 256000), (R.AXS_PRF_A2 0, 128000), (R.AXS_PRF_D2 0, 128000)]
theorem test_axis_braking : (hotStore.brake 37 (hotStore.vMax 37) * 10 + 2 ^ 31) / 2 ^ 32 = 396672 := by decide +kernel
/-- The example of spec ch. 13: readings 999,999, 1 and 0 of stall 417's heat meter. -/
def heatMeter (r ms : Nat) (s : State) : State := s.remoteReading (8 * 417) 1000000 6 250000 r (ms * tMs)
theorem test_meter_wraps : ((heatMeter 1 1000 (heatMeter 999999 0 (acting [176]))).mtr.remote.get (fun _ => {}) (8 * 417)) = ⟨2000000, 1, 2, 1000, 1000 * tMs⟩ := by
  decide +kernel
theorem test_meter_replaced : ((heatMeter 0 1000 (heatMeter 4 0 (acting [176]))).mtr.remote.get (fun _ => {}) (8 * 417)) = ⟨0, 0, 4, 1000, 1000 * tMs⟩ := by
  decide +kernel
/-- A leap year: Monday 28 February 2000 23:59:59 counts into Tuesday the 29th. -/
theorem test_calendar_leap : calNext (pack0 0 59 59) (pack1 23 1 28 2) 2000 = (pack0 0 0 0, pack1 0 2 29 2, 2000) := by decide

end Sys2Proof.Tests
end

section
/-! Which writes of a register the access gate stops: a write to a page whose domain is not ON, whatever the register does on a write
(R52, R95), and a write to a keeper-protected register by an initiator that is not the keeper (R94). -/

namespace Sys2Proof.Machine

/-! ### Addresses of the register pages -/

/-- An address of the register pages is its page's base with its offset. -/
theorem pageBase_add_ofsOf {a : Nat} (h1 : 0x40000000 ≤ a) (h2 : a < 0x40100000) : pageBase (pageOf a) + ofsOf a = a := by
  simp only [pageBase, pageOf, ofsOf]; omega

/-- Only PWR and the keeper's own pages have rows of keeper-protected registers. -/
theorem page_of_hasKp {p : Nat} (hp : isPage p = true) (h : hasKp p = true) : p = 1 ∨ kprotOf p = true := by
  have hlt : p < 226 := by simp only [isPage, decide_eq_true_eq] at hp; omega
  have all : ∀ q < 226, hasKp q = true → q = 1 ∨ kprotOf q = true := by decide +kernel
  exact all p hlt h

/-- The row of an address is a row of its page. -/
theorem mem_pageRows_of_regRow {a : Nat} {r : RegRow} (h : regRow a = some r) : r ∈ pageRows (pageOf a) := List.mem_of_find?_eq_some h

/-- What makes a register keeper-protected (R94). -/
theorem isKp_iff (a : Nat) :
    isKp a = true ↔ a ≠ R.KPR_SLOG_INDEX ∧ (kprotOf (pageOf a) = true ∨ ∃ r, regRow a = some r ∧ r.acc = .kp) := by
  unfold isKp
  cases regRow a <;> simp

/-- Keeper-protected registers lie in PWR and in the keeper's own pages. -/
theorem page_of_isKp {a : Nat} (hp : isPage (pageOf a) = true) (h : isKp a = true) :
    pageOf a = 1 ∨ 16 ≤ pageOf a ∧ pageOf a ≤ 19 := by
  obtain ⟨-, hk | ⟨r, hr, hacc⟩⟩ := (isKp_iff a).mp h
  · exact .inr (of_decide_eq_true hk)
  · have hany : hasKp (pageOf a) = true := List.any_eq_true.mpr ⟨r, mem_pageRows_of_regRow hr, by simp [hacc]⟩
    exact (page_of_hasKp hp hany).imp_right of_decide_eq_true

/-- The keeper-protected registers whose write has an effect of its own: CTRL of a page, and DOM_REQ_KP. -/
theorem ownRow_isKp {a : Nat} (hp : isPage (pageOf a) = true) (hk : isKp a = true) (ho : ownRow a = true) :
    ofsOf a = 0xC ∨ a = R.PWR_DOM_REQ_KP := by
  have hpage := page_of_isKp hp hk
  simp only [ownRow, Bool.or_eq_true, beq_iff_eq, List.contains_iff_mem, decide_eq_true_eq] at ho
  obtain (hctrl | hnamed) | hindexed := ho
  · exact .inl hctrl
  · refine .inr ((?_ : ∀ x ∈ (_ : List Nat), isKp x = true → x = R.PWR_DOM_REQ_KP) a hnamed hk)
    decide +kernel
  · omega

/-! ### Effects that act through the write gate -/

section gated
variable {s : State} {who : Initiator} {a : Nat} {val : Word}

/-- In every state the meaning of a command is one access through the write gate of an address. -/
def GatedAt (who : Initiator) (a : Nat) (f : State → Host.Outcome State Fault Refusal) : Prop :=
  ∀ s, ∃ k, f s = .next (s.gate who a k)

/-- So it is for every command of a command register. -/
def AllGatedAt (who : Initiator) (a : Nat) (l : List (Nat × (State → Host.Outcome State Fault Refusal))) : Prop := ∀ e ∈ l, GatedAt who a e.2

theorem AllGatedAt.nil : AllGatedAt who a [] := List.forall_mem_nil _
theorem AllGatedAt.cons {i : Nat} {f : State → Host.Outcome State Fault Refusal} {l : List (Nat × (State → Host.Outcome State Fault Refusal))}
    (hf : GatedAt who a f) (hl : AllGatedAt who a l) : AllGatedAt who a ((i, f) :: l) := List.forall_mem_cons.mpr ⟨hf, hl⟩

/-- A write that has such an effect is the access. -/
theorem GatedAt.after {f : State → Host.Outcome State Fault Refusal} (hf : GatedAt who a f) (s : State) :
    ∃ k, s.after f = s.gate who a k := by
  obtain ⟨k, hk⟩ := hf s
  exact ⟨k, by rw [State.after, hk]⟩

/-- A write of CTRL of a page is one access, at the address of that register. -/
theorem State.ctrlWrite_gate (h1 : 0x40000000 ≤ a) (h2 : a < 0x40100000) (ho : ofsOf a = 0xC) :
    ∃ k, s.ctrlWrite who (pageOf a) val = s.gate who a k := by
  have hadr : pageBase (pageOf a) + 0xC = a := ho ▸ pageBase_add_ofsOf h1 h2
  rw [State.ctrlWrite, hadr]
  exact ⟨_, rfl⟩

/-! ### A keeper-protected register written by another initiator (R94) -/

/-- The gate drops the write and reports it, whatever the register would have done. -/
theorem State.gate_isKp (k : State → State) (ha : a % 4 = 0) (h1 : 0x40000000 ≤ a) (h2 : a < 0x40100000) (hp : isPage (pageOf a) = true)
    (hu : s.up (domOf (pageOf a)) = true) (hk : isKp a = true) (hw : who ≠ .keeper) :
    s.gate who a k = ((s.answer 0).protDrop (pageOf a) (ofsOf a) true).slogProt who a := by
  unfold State.gate
  rw [if_neg (by omega), if_neg (by simp [hp]), if_neg (by simp [hu]), if_pos (by simp [hk, hw])]

/-- The effects of the keeper-protected registers are accesses through the gate: CTRL of a page, and DOM_REQ_KP. -/
theorem State.ownWrite_isKp (h1 : 0x40000000 ≤ a) (h2 : a < 0x40100000) (ho : ofsOf a = 0xC ∨ a = R.PWR_DOM_REQ_KP) :
    ∃ k, s.ownWrite who a val = s.gate who a k := by
  obtain hctrl | rfl := ho
  · rw [State.ownWrite, if_pos hctrl]
    exact State.ctrlWrite_gate h1 h2 hctrl
  · have hgated : GatedAt who R.PWR_DOM_REQ_KP (execDomReqKp who val) := fun _ => ⟨_, rfl⟩
    exact hgated.after s

/-- A plain write of a keeper-protected register goes through the gate once. -/
theorem State.regWrite_isKp (ha : a % 4 = 0) (h1 : 0x40000000 ≤ a) (h2 : a < 0x40100000) (hp : isPage (pageOf a) = true)
    (hk : isKp a = true) : ∃ k, s.regWrite who a val = s.gate who a k := by
  unfold State.regWrite
  rw [if_neg (by omega), if_neg (by omega), if_neg (by simp [hp])]
  split
  case isTrue ho => exact State.ownWrite_isKp h1 h2 (ownRow_isKp hp hk ho)
  case isFalse => exact ⟨_, rfl⟩

/-! ### A page whose domain is not ON (R52, R95) -/

/-- The word at an address lies on a page whose domain is not ON. -/
structure State.PageOff (s : State) (a : Nat) : Prop where
  aligned : a % 4 = 0
  lo : 0x40000000 ≤ a
  hi : a < 0x40100000
  page : isPage (pageOf a) = true
  off : s.up (domOf (pageOf a)) = false

/-- Answering leaves the domains as they are. -/
theorem State.PageOff.answer (h : s.PageOff a) (v : Word) : (s.answer v).PageOff a := { h with off := by simp [h.off] }

/-- The gate answers 0 and does no more. -/
theorem State.PageOff.gate (h : s.PageOff a) (k : State → State) : s.gate who a k = s.answer 0 := by
  obtain ⟨ha, h1, h2, hp, hu⟩ := h
  unfold State.gate
  rw [if_neg (by omega), if_neg (by simp [hp]), if_pos (by simp [hu])]

/-- An effect that acts through the gate answers 0; `b` is the name its meaning has for the address. -/
theorem State.PageOff.after {b : Nat} {f : State → Host.Outcome State Fault Refusal} (h : s.PageOff a) (hb : a = b)
    (hf : GatedAt who b f) : s.after f = s.answer 0 := by
  subst hb
  obtain ⟨k, hk⟩ := hf.after s
  exact hk.trans (h.gate k)

/-- Commands of a command register that follow an answered one change nothing more. -/
theorem State.PageOff.foldl_afterBit_answer (h : s.PageOff a) (l : List (Nat × (State → Host.Outcome State Fault Refusal)))
    (hl : AllGatedAt who a l) : l.foldl (fun s e => s.afterBit val e.1 e.2) (s.answer 0) = s.answer 0 := by
  induction l with
  | nil => rfl
  | cons e l ih =>
    have he : (s.answer 0).afterBit val e.1 e.2 = s.answer 0 := by
      unfold State.afterBit
      split
      · exact (h.answer 0).after rfl (hl e List.mem_cons_self)
      · rfl
    rw [List.foldl_cons, he]
    exact ih fun e' he' => hl e' (List.mem_cons_of_mem e he')

/-- A command register answers 0 whichever of its bits are set. -/
theorem State.PageOff.bitsWrite {b : Nat} {l : List (Nat × (State → Host.Outcome State Fault Refusal))} (h : s.PageOff a) (hb : a = b)
    (hl : AllGatedAt who b l) : s.bitsWrite who a val l = s.answer 0 := by
  subst hb
  unfold State.bitsWrite
  split
  case isTrue => exact h.gate _
  case isFalse hset =>
    induction l with
    | nil => simp at hset
    | cons e l ih =>
      rw [List.foldl_cons, State.afterBit]
      by_cases hb : bit val e.1 = true
      · rw [if_pos hb, h.after rfl (hl e List.mem_cons_self)]
        exact h.foldl_afterBit_answer l fun e' he' => hl e' (List.mem_cons_of_mem e he')
      · rw [if_neg hb]
        exact ih (fun e' he' => hl e' (List.mem_cons_of_mem e he')) (by simpa [hb] using hset)

/-- A field that is zero has no bit set. -/
theorem getLsbD_of_bits_eq_zero {w : Word} {hi lo : Nat} (h : bits w hi lo = 0) {i : Nat} (h1 : lo ≤ i) (h2 : i ≤ hi) :
    w.getLsbD i = false := by
  have hbit := testBit_bits w hi lo (i - lo)
  simpa [h, show i - lo < hi + 1 - lo by omega, Nat.add_sub_cancel' h1] using hbit.symm

/-- A TXB_CMD that asks for no request, abort or recovery has none of the command bits. -/
theorem txbCmd_none (hreq : bits val 2 1 = 0) (habort : bits val 6 4 = 0) (hrec : bit val 8 = false) : val &&& 0x176 = 0 := by
  have mask : ∀ i < 32, (0x176 : Word).getLsbD i = true → (1 ≤ i ∧ i ≤ 2) ∨ (4 ≤ i ∧ i ≤ 6) ∨ i = 8 := by decide
  refine BitVec.eq_of_getLsbD_eq fun i hi => ?_
  rw [BitVec.getLsbD_and, show (0 : Word).getLsbD i = false from BitVec.getLsbD_zero]
  cases hm : (0x176 : Word).getLsbD i with
  | false => exact Bool.and_false _
  | true =>
    have hclear : val.getLsbD i = false := by
      obtain ⟨h1, h2⟩ | ⟨h1, h2⟩ | rfl := mask i hi hm
      · exact getLsbD_of_bits_eq_zero hreq h1 h2
      · exact getLsbD_of_bits_eq_zero habort h1 h2
      · exact hrec
    rw [hclear, Bool.false_and]

/-- TXB_CMD of a channel answers 0 whichever of its bits are set. -/
theorem State.PageOff.txbWrite {n : Fin 12} (h : s.PageOff (R.CAN_TXB_CMD n.val)) : s.txbWrite who n val = s.answer 0 := by
  have hreq : GatedAt who (R.CAN_TXB_CMD n.val) (execTxbReq who n (bit val 1) (bit val 2)) := fun _ => ⟨_, rfl⟩
  have habort : GatedAt who (R.CAN_TXB_CMD n.val) (execTxbAbort who n (BitVec.ofNat 3 (bits val 6 4))) := fun _ => ⟨_, rfl⟩
  have hrec : GatedAt who (R.CAN_TXB_CMD n.val) (execRecReq who n) := fun _ => ⟨_, rfl⟩
  have again : (s.answer 0).answer 0 = s.answer 0 := rfl
  unfold State.txbWrite State.afterBit
  by_cases hm : val &&& 0x176 = 0
  · simp only [if_pos hm, h.gate, (h.answer 0).after rfl hreq, (h.answer 0).after rfl habort, (h.answer 0).after rfl hrec, again, ite_self]
  · simp only [if_neg hm]
    by_cases h1 : bits val 2 1 = 0
    · by_cases h2 : bits val 6 4 = 0
      · have h3 : bit val 8 = true := by_contra fun h3 => hm (txbCmd_none h1 h2 (Bool.eq_false_iff.mpr h3))
        simp only [if_pos h1, if_pos h2, if_pos h3, h.after rfl hrec]
      · simp only [if_pos h1, if_neg h2, h.after rfl habort, (h.answer 0).after rfl hrec, again, ite_self]
    · simp only [if_neg h1, h.after rfl hreq, (h.answer 0).after rfl habort, (h.answer 0).after rfl hrec, again, ite_self]

/-- CMD of AXS answers 0 whatever operation it names. -/
theorem State.PageOff.axsWrite (h : s.PageOff R.AXS_CMD) : s.axsWrite who val = s.answer 0 := by
  have hcmd (f : State → Host.Outcome State Fault Refusal) (hf : GatedAt who R.AXS_CMD f) : s.after f = s.answer 0 := h.after rfl hf
  unfold State.axsWrite
  dsimp only
  split
  · exact hcmd (execReference who _) fun _ => ⟨_, rfl⟩
  · exact hcmd (execSetPos who _) fun _ => ⟨_, rfl⟩
  · exact hcmd (execClear who _) fun _ => ⟨_, rfl⟩
  · exact hcmd (execHalt who _) fun _ => ⟨_, rfl⟩
  · exact h.gate _

/-- MODEL_LOAD that comes with no image acts through the gate. -/
theorem gatedAt_modelLoad : GatedAt who R.DSQ_MODEL_CMD (execModelLoad who []) := by
  intro s
  unfold execModelLoad
  simp only [wrBytes, ite_self]
  exact ⟨_, rfl⟩

/-- JQ_TAIL that comes with no stores of agents acts through the gate. -/
theorem gatedAt_jqTail : GatedAt who R.JQ_JQ_TAIL (execJqTail who val []) := by
  intro s
  have h (k : State → State) : s.afterStores who [] k = k s := rfl
  rw [execJqTail, h]
  exact ⟨_, rfl⟩

/-- CTRL of any page answers 0. -/
theorem State.PageOff.ctrlWrite (h : s.PageOff a) (hc : ofsOf a = 0xC) : s.ctrlWrite who (pageOf a) val = s.answer 0 := by
  obtain ⟨k, hk⟩ := State.ctrlWrite_gate (s := s) (who := who) (val := val) h.lo h.hi hc
  exact hk.trans (h.gate k)

/-- UPD_CMD of the panel answers 0 whichever of its bits are set. -/
theorem State.PageOff.updCmd (h : s.PageOff a) (ha : a = R.PNL_UPD_CMD) :
    (if bit val 2 then s.after (execFullClear who) else if bit val 1 then s.after (execClearWf who)
      else s.bitsWrite who a val [(0, execUpdGo who [])]) = s.answer 0 := by
  split_ifs
  · exact h.after ha fun _ => ⟨_, rfl⟩
  · exact h.after ha fun _ => ⟨_, rfl⟩
  · exact h.bitsWrite ha (.cons (fun _ => ⟨_, rfl⟩) .nil)

/-- An address on a page of the Ethernet ports, by the port it names. -/
theorem ethAddr {o : Nat} (h1 : 0x40000000 ≤ a) (h2 : a < 0x40100000) (hp : 112 ≤ pageOf a ∧ pageOf a ≤ 117 ∧ ofsOf a = o) :
    a = 0x40070000 + o + 0x1000 * (ethIx (pageOf a)).val := by
  simp only [ethIx, Fin.val_ofNat, pageOf, ofsOf] at *
  omega

/-- TXB_CMD of a CAN channel, by the channel. -/
theorem canAddr (h1 : 0x40000000 ≤ a) (h2 : a < 0x40100000) (hp : 144 ≤ pageOf a ∧ pageOf a ≤ 155 ∧ ofsOf a = 0x808) :
    a = R.CAN_TXB_CMD (canIx (pageOf a)).val := by
  simp only [R.CAN_TXB_CMD, canIx, Fin.val_ofNat, pageOf, ofsOf] at *
  omega

/-- A lane map register, by its cluster and half. -/
theorem lmapAddr (h0 : a % 4 = 0) (h1 : 0x40000000 ≤ a) (h2 : a < 0x40100000) (hp : pageOf a = 55)
    (ho : 0x100 ≤ ofsOf a ∧ ofsOf a < 0x120) :
    a = if ofsOf a % 8 == 4 then R.NSUL_LMAP_HI (lmapIx (ofsOf a)).val else R.NSUL_LMAP_LO (lmapIx (ofsOf a)).val := by
  simp only [R.NSUL_LMAP_HI, R.NSUL_LMAP_LO, lmapIx, Fin.val_ofNat, pageOf, ofsOf, beq_iff_eq] at *
  split <;> omega

/-- Every register whose write has an effect of its own answers 0. -/
theorem State.PageOff.ownWrite (h : s.PageOff a) (ho : ownRow a = true) : s.ownWrite who a val = s.answer 0 := by
  unfold State.ownWrite
  dsimp only
  refine ite_eq_iff'.mpr ⟨fun hc => h.ctrlWrite hc, fun _ => ?_⟩
  refine ite_eq_iff'.mpr ⟨fun (ha : a = R.SYS_RESTART) => h.bitsWrite ha (.cons (fun _ => ⟨_, rfl⟩) .nil), fun _ => ?_⟩
  refine ite_eq_iff'.mpr ⟨fun (ha : a = R.PWR_PEN_DLY) => h.after ha fun _ => ⟨_, rfl⟩, fun _ => ?_⟩
  refine ite_eq_iff'.mpr ⟨fun (ha : a = R.PWR_PFW_RESTART) => h.after ha fun _ => ⟨_, rfl⟩, fun _ => ?_⟩
  refine ite_eq_iff'.mpr ⟨fun (ha : a = R.PWR_DOM_REQ) => h.after ha fun _ => ⟨_, rfl⟩, fun _ => ?_⟩
  refine ite_eq_iff'.mpr ⟨fun (ha : a = R.PWR_DOM_REQ_KP) => h.after ha fun _ => ⟨_, rfl⟩, fun _ => ?_⟩
  refine ite_eq_iff'.mpr ⟨fun (ha : a = R.PWR_MGMT_RST) => h.after ha fun _ => ⟨_, rfl⟩, fun _ => ?_⟩
  refine ite_eq_iff'.mpr ⟨fun (ha : a = R.KPR_SLOG_INDEX) => h.after ha fun _ => ⟨_, rfl⟩, fun _ => ?_⟩
  refine ite_eq_iff'.mpr ⟨fun (ha : a = R.SEC_CMD_CTRL) =>
    h.bitsWrite ha (.cons (fun _ => ⟨_, rfl⟩) (.cons (fun _ => ⟨_, rfl⟩) (.cons (fun _ => ⟨_, rfl⟩) .nil))), fun _ => ?_⟩
  refine ite_eq_iff'.mpr ⟨fun (ha : a = R.SEC_CMD_DATA) => h.after ha fun _ => ⟨_, rfl⟩, fun _ => ?_⟩
  refine ite_eq_iff'.mpr ⟨fun (ha : a = R.SEC_FW_CONFIRM) => h.after ha fun _ => ⟨_, rfl⟩, fun _ => ?_⟩
  refine ite_eq_iff'.mpr ⟨fun (ha : a = R.SEC_MEAS_CTRL) => h.bitsWrite ha (.cons (fun _ => ⟨_, rfl⟩) (.cons (fun _ => ⟨_, rfl⟩) .nil)), fun _ => ?_⟩
  refine ite_eq_iff'.mpr ⟨fun (ha : a = R.SEC_QUOTE_CMD) => h.bitsWrite ha (.cons (fun _ => ⟨_, rfl⟩) (.cons (fun _ => ⟨_, rfl⟩) .nil)), fun _ => ?_⟩
  refine ite_eq_iff'.mpr ⟨fun (ha : a = R.EVR_RL_INDEX) => h.after ha fun _ => ⟨_, rfl⟩, fun _ => ?_⟩
  refine ite_eq_iff'.mpr ⟨fun (_ : a = R.EVR_RL_CFG) => h.gate _, fun _ => ?_⟩
  refine ite_eq_iff'.mpr ⟨fun (ha : a = R.EVR_RD_OFS) => h.after ha fun _ => ⟨_, rfl⟩, fun _ => ?_⟩
  refine ite_eq_iff'.mpr ⟨fun (ha : a = R.EVR_SW_SEND) => h.after ha fun _ => ⟨_, rfl⟩, fun _ => ?_⟩
  refine ite_eq_iff'.mpr ⟨fun (ha : a = R.RTC_COMMIT) => h.bitsWrite ha (.cons (fun _ => ⟨_, rfl⟩) .nil), fun _ => ?_⟩
  refine ite_eq_iff'.mpr ⟨fun (ha : a = R.RTC_WAKE_PERIOD) => h.after ha fun _ => ⟨_, rfl⟩, fun _ => ?_⟩
  refine ite_eq_iff'.mpr ⟨fun (ha : a = R.JQ_JQ_BASE) => h.after ha fun _ => ⟨_, rfl⟩, fun _ => ?_⟩
  refine ite_eq_iff'.mpr ⟨fun (ha : a = R.JQ_JQ_SIZE) => h.after ha fun _ => ⟨_, rfl⟩, fun _ => ?_⟩
  refine ite_eq_iff'.mpr ⟨fun (ha : a = R.JQ_JQ_TAIL) => h.after ha (gatedAt_jqTail (val := val)), fun _ => ?_⟩
  -- the lane maps of the clusters
  refine ite_eq_iff'.mpr ⟨fun ha => h.after (lmapAddr h.aligned h.lo h.hi ha.1 ha.2) fun _ => ⟨_, rfl⟩, fun _ => ?_⟩
  refine ite_eq_iff'.mpr ⟨fun (ha : a = R.BTK_FC_CMD) => h.bitsWrite ha (.cons (fun _ => ⟨_, rfl⟩) (.cons (fun _ => ⟨_, rfl⟩) .nil)), fun _ => ?_⟩
  refine ite_eq_iff'.mpr ⟨fun (ha : a = R.DSQ_MODEL_CMD) => h.bitsWrite ha (.cons gatedAt_modelLoad (.cons (fun _ => ⟨_, rfl⟩) .nil)), fun _ => ?_⟩
  refine ite_eq_iff'.mpr ⟨fun (ha : a = R.DSQ_CMD) => h.bitsWrite ha (.cons (fun _ => ⟨_, rfl⟩) .nil), fun _ => ?_⟩
  refine ite_eq_iff'.mpr ⟨fun (ha : a = R.LGE_LD_CTRL) =>
    h.bitsWrite ha (.cons (fun _ => ⟨_, rfl⟩) (.cons (fun _ => ⟨_, rfl⟩) (.cons (fun _ => ⟨_, rfl⟩) .nil))), fun _ => ?_⟩
  refine ite_eq_iff'.mpr ⟨fun (ha : a = R.LGE_LD_DATA) => h.after ha fun _ => ⟨_, rfl⟩, fun _ => ?_⟩
  refine ite_eq_iff'.mpr ⟨fun (ha : a = R.LGE_FT_INDEX) => h.after ha fun _ => ⟨_, rfl⟩, fun _ => ?_⟩
  -- HQ_TX_TAIL and HQ_RX_TAIL of a port
  refine ite_eq_iff'.mpr ⟨fun ha => h.after (ethAddr h.lo h.hi ha) fun _ => ⟨_, rfl⟩, fun _ => ?_⟩
  refine ite_eq_iff'.mpr ⟨fun ha => h.after (ethAddr h.lo h.hi ha) fun _ => ⟨_, rfl⟩, fun _ => ?_⟩
  refine ite_eq_iff'.mpr ⟨fun (ha : a = R.PTP_TCMD) => h.bitsWrite ha (.cons (fun _ => ⟨_, rfl⟩) (.cons (fun _ => ⟨_, rfl⟩) .nil)), fun _ => ?_⟩
  refine ite_eq_iff'.mpr ⟨fun (_ : a = R.PLK_CMD) => h.gate _, fun _ => ?_⟩
  -- TXB_CMD of a channel
  refine ite_eq_iff'.mpr ⟨fun ha => ((canAddr h.lo h.hi ha) ▸ h).txbWrite, fun _ => ?_⟩
  refine ite_eq_iff'.mpr ⟨fun (ha : a = R.AXS_CMD) => (ha ▸ h).axsWrite, fun _ => ?_⟩
  refine ite_eq_iff'.mpr ⟨fun (ha : a = R.PNL_UPD_CMD) => h.updCmd ha, fun _ => ?_⟩
  refine ite_eq_iff'.mpr ⟨fun (ha : a = R.PNL_WF_CTL) =>
    h.bitsWrite ha (.cons (fun _ => ⟨_, rfl⟩) (.cons (fun _ => ⟨_, rfl⟩) (.cons (fun _ => ⟨_, rfl⟩) .nil))), fun _ => ?_⟩
  refine ite_eq_iff'.mpr ⟨fun (ha : a = R.PNL_WF_DATA) => h.after ha fun _ => ⟨_, rfl⟩, fun _ => ?_⟩
  have hnone : ownRow a = false := by simp [ownRow, *]
  exact absurd ho (by simp [hnone])

/-- A plain write to a page whose domain is not ON answers 0 and changes nothing else. -/
theorem State.PageOff.regWrite (h : s.PageOff a) : s.regWrite who a val = s.answer 0 := by
  obtain ⟨h0, h1, h2, hp, -⟩ := id h
  unfold State.regWrite
  rw [if_neg (by omega), if_neg (by omega), if_neg (by simp [hp])]
  split
  case isTrue ho => exact h.ownWrite ho
  case isFalse => exact h.gate _

/-! ### An access that is not one aligned word, or that falls where no page lies (R95) -/

/-- A write that is misaligned or falls where no page lies faults. -/
theorem State.regWrite_fault (h : a % 4 ≠ 0 ∨ (0x40000000 ≤ a ∧ a < 0x40100000 ∧ isPage (pageOf a) = false)) :
    s.regWrite who a val = s.accFault := by
  unfold State.regWrite
  by_cases h0 : a % 4 = 0
  · obtain ⟨h1, h2, hp⟩ := h.resolve_left (not_not_intro h0)
    rw [if_neg (not_not_intro h0), if_neg (by omega), if_pos (by simp [hp])]
  · rw [if_pos h0]

end gated

/-! ### The statements -/

/-- Settles O1: a plain write of a KP register goes through the gate once, and the gate drops it. -/
theorem keeperRegisterWriteDropped : Obligations.KeeperRegisterWriteDropped := by
  refine ⟨isKp_iff, fun s who a val hw hk ha h1 h2 hp hu => ?_⟩
  obtain ⟨k, hgate⟩ := State.regWrite_isKp (s := s) (who := who) (val := val) ha h1 h2 hp hk
  have hdrop := State.gate_isKp k ha h1 h2 hp hu hk hw
  exact congrArg Host.Outcome.next (hgate.trans hdrop)

/-- Settles O2: a bad access faults before any effect, and on a page whose domain is not ON every effect stops at the gate. -/
theorem badAccessFaults : Obligations.BadAccessFaults := by
  constructor
  · intro s who a val w hbad
    cases w with
    | false => rfl
    | true => exact congrArg Host.Outcome.next (State.regWrite_fault (hbad.resolve_left Bool.noConfusion))
  · intro s who a val h0 h1 h2 hp hu
    exact congrArg Host.Outcome.next (State.PageOff.regWrite ⟨h0, h1, h2, hp, hu⟩)

end Sys2Proof.Machine
end

section
/-! What the capture channels do (R454, R455): an edge that CFG selects is counted and stamped, a read of TS_NS latches the oldest stamp and
a read of TS_SH takes it out. -/

namespace Sys2Proof.Machine

variable {s : State} {who : Initiator} {n : Fin 25} {rising : Bool} {x : Stamp} {rest : List Stamp}

/-! ### The channel after an operation -/

@[simp] theorem State.capCh_setCap_self (s : State) (n : Nat) (c : CapCh) : (s.setCap n c).capCh n = c := by
  rw [State.capCh_setCap, if_pos rfl]

/-- A cause raised in IRQ_STAT reads back. -/
theorem State.bit_irqStat_irq (s : State) (p : Nat) {i : Nat} (hi : i < 32) : bit ((s.irq p i).page p).irqStat i = true := by
  simp [State.page_irq, bit_bitW i i hi]

/-! ### An edge at a pad -/

/-- CFG of a channel selects the edges of one direction (R454). -/
def State.capSelects (s : State) (n : Nat) (rising : Bool) : Bool := if rising then s.flag (R.CAP_CFG n) 0 else s.flag (R.CAP_CFG n) 1

/-- EDGE is odd when it selects rising edges, and at least 2 when it selects falling ones. -/
theorem State.edge_selects (s : State) (n : Nat) (rising : Bool) :
    (if rising then s.fld (R.CAP_CFG n) 1 0 % 2 == 1 else decide (2 ≤ s.fld (R.CAP_CFG n) 1 0)) = s.capSelects n rising := by
  rw [State.fld, bits_odd _ 1 0 (Nat.zero_le 1), bits_two_le _ 0]
  rfl

/-- The stamp of an edge: the PD_LOG copy and the edge's direction (R454). -/
def State.edgeStamp (s : State) (rising : Bool) : Stamp := ⟨nsField s.time.log, BitVec.ofNat 48 (secOf s.time.log), rising⟩

/-- A channel whose pad has shown an edge, with a stamp put at the end of its FIFO. -/
def CapCh.push (c : CapCh) (x : Stamp) : CapCh := { c with level := x.edge, fifo := c.fifo ++ [x], newest := some x }

/-- No edge reaches a channel while the pads' island is not locked (R62). -/
theorem capEdge_unlocked (close : Bool) (hl : s.locked 8 = false) : exec (.capEdge n rising close) s = .next s := by
  change execCapEdge n rising close s = _
  simp [execCapEdge, hl]

/-- A selected edge is counted; with room in the FIFO its stamp goes to the end. -/
theorem capEdge_room (hl : s.locked 8 = true) (hr : s.running 121 = true) (hs : s.capSelects n.val rising = true)
    (hroom : (s.capCh n.val).fifo.length < 16) : Answers (.capEdge n rising false) s fun t =>
      t.regs = (s.incReg (R.CAP_CNT n.val)).regs ∧ t.cap = (s.setCap n.val ((s.capCh n.val).push (s.edgeStamp rising))).cap ∧ SameMem s t := by
  refine ⟨_, (rfl : exec (.capEdge n rising false) s = execCapEdge n rising false s), ?_⟩
  rw [if_pos hl]
  unfold State.capAccept
  simp only [State.edge_selects, hr, hs, Bool.and_self, if_true, if_neg (Nat.not_le.mpr hroom), Bool.false_eq_true, if_false]
  -- the stamp that enters an empty FIFO also raises EDGE
  split <;> simp [SameMem, CapCh.push, State.edgeStamp]

/-- A selected edge is counted; a full FIFO drops its stamp, and OVF is set and raised. -/
theorem capEdge_full (hl : s.locked 8 = true) (hr : s.running 121 = true) (hs : s.capSelects n.val rising = true)
    (hfull : 16 ≤ (s.capCh n.val).fifo.length) : exec (.capEdge n rising false) s =
      .next ((((s.incReg (R.CAP_CNT n.val)).setCap n.val { s.capCh n.val with level := rising }).setFlag R.CAP_OVF n.val true).irq 121 9) := by
  change execCapEdge n rising false s = _
  rw [execCapEdge, if_pos hl]
  unfold State.capAccept
  simp only [State.edge_selects, hr, hs, Bool.and_self, if_true, if_pos hfull, Bool.false_eq_true, if_false]

/-! ### The two reads -/

/-- A read of TS_NS latches the oldest stamp into the three stamp registers. -/
theorem capTsNs_cons (h : MayRead who (R.CAP_TS_NS n.val) s = true) (hf : (s.capCh n.val).fifo = x :: rest) :
    exec (.capTsNs who n) s = .next (((s.setCap n.val { s.capCh n.val with latch := some x }).setRegs
      [(R.CAP_TS_NS n.val, x.ns), (R.CAP_TS_S n.val, x.s.setWidth 32),
        (R.CAP_TS_SH n.val, wd (x.s.toNat / 2 ^ 32 + 2 ^ 16 * b2n x.edge + 2 ^ 17 * rest.length))]).answer x.ns) := by
  change execCapTsNs who n s = _
  simp only [execCapTsNs, s.rgate_may _ h, hf]

/-- A read of TS_NS with nothing in the FIFO sets TS_SH.EMPTY. -/
theorem capTsNs_nil (h : MayRead who (R.CAP_TS_NS n.val) s = true) (hf : (s.capCh n.val).fifo = []) :
    exec (.capTsNs who n) s = .next (((s.setCap n.val { s.capCh n.val with latch := none }).setRegs
      [(R.CAP_TS_NS n.val, 0), (R.CAP_TS_S n.val, 0), (R.CAP_TS_SH n.val, 0x80000000)]).answer 0) := by
  change execCapTsNs who n s = _
  simp only [execCapTsNs, s.rgate_may _ h, hf]

/-- A read of TS_SH answers the latched word and takes the latched stamp out. -/
theorem capTsSh_latched (h : MayRead who (R.CAP_TS_SH n.val) s = true) (hx : (s.capCh n.val).latch = some x) :
    exec (.capTsSh who n) s = .next ((s.setCap n.val { s.capCh n.val with fifo := (s.capCh n.val).fifo.drop 1, latch := none }).answer
      (s.reg (R.CAP_TS_SH n.val))) := by
  change execCapTsSh who n s = _
  simp only [execCapTsSh, s.rgate_may _ h, hx, Option.isSome_some, if_true]

/-- The three stamp registers of a channel after they are loaded. -/
theorem State.reg_loadStamp (s : State) (n : Nat) (ns sec sh : Word) :
    let t := s.setRegs [(R.CAP_TS_NS n, ns), (R.CAP_TS_S n, sec), (R.CAP_TS_SH n, sh)]
    t.reg (R.CAP_TS_NS n) = ns ∧ t.reg (R.CAP_TS_S n) = sec ∧ t.reg (R.CAP_TS_SH n) = sh := by
  simp [State.setRegs, State.reg_setReg]

/-! ### The statement -/

/-- Settles O49: an edge is counted and stamped, or its stamp dropped at a full FIFO; TS_NS latches the oldest stamp, and TS_SH takes it out. -/
theorem captureFifo : Obligations.CaptureFifo := by
  intro s who n rising x rest
  refine ⟨fun hl hr hs hroom => ?_, capEdge_unlocked false, fun hl hr hs hfull => ?_, fun h hf => ?_, fun h hf => ?_, fun h hf hx => ?_⟩
  · obtain ⟨t, ht, hregs, hcap, hmem⟩ := capEdge_room hl hr hs hroom
    have hch (m : Nat) : t.capCh m = if m = n.val then (s.capCh n.val).push (s.edgeStamp rising) else s.capCh m :=
      (State.capCh_congr hcap m).trans (s.capCh_setCap _ _ _)
    have hself : t.capCh n.val = (s.capCh n.val).push (s.edgeStamp rising) := (hch _).trans (if_pos rfl)
    have hcnt : RegsBut [R.CAP_CNT n.val] s t := ((RegsBut.refl _ s).incReg List.mem_cons_self).same hregs
    have hreg : t.reg (R.CAP_CNT n.val) = s.reg (R.CAP_CNT n.val) + 1 := by
      rw [State.reg, hregs]
      exact (s.reg_incReg _ _).trans (if_pos rfl)
    exact ⟨t, ht, congrArg CapCh.fifo hself, (congrArg CapCh.latch hself).trans rfl, hreg, hcnt, hmem, fun m hm => (hch m).trans (if_neg hm)⟩
  · have hovf : R.CAP_CNT n.val ≠ R.CAP_OVF := by simp only [R.CAP_CNT, R.CAP_OVF]; omega
    refine ⟨_, capEdge_full hl hr hs hfull, by simp, ?_, ?_, State.bit_irqStat_irq _ _ (by decide), by simp [SameMem]⟩
    · rw [State.flag_irq, State.flag_setFlag _ _ _ _ _ _ (by omega), if_pos ⟨rfl, rfl⟩]
    · rw [State.reg_irq, State.reg_setFlag, if_neg hovf, State.reg_setCap, State.reg_incReg, if_pos rfl]
  · obtain ⟨hns, hsec, hsh⟩ := State.reg_loadStamp (s.setCap n.val { s.capCh n.val with latch := some x }) n.val x.ns (x.s.setWidth 32)
      (wd (x.s.toNat / 2 ^ 32 + 2 ^ 16 * b2n x.edge + 2 ^ 17 * rest.length))
    have hcap : RegsBut [R.CAP_TS_NS n.val, R.CAP_TS_S n.val, R.CAP_TS_SH n.val] s (s.setCap n.val { s.capCh n.val with latch := some x }) :=
      (RegsBut.refl _ s).same (s.setCap_regs _ _)
    exact ⟨_, capTsNs_cons h hf, rfl, by simp, by simp [hf], hns, hsec, hsh, (hcap.setRegs _ (by simp)).answer _, by simp [SameMem]⟩
  · obtain ⟨-, -, hsh⟩ := State.reg_loadStamp (s.setCap n.val { s.capCh n.val with latch := none }) n.val 0 0 0x80000000
    exact ⟨_, capTsNs_nil h hf, rfl, (congrArg (bit · 31) hsh).trans (by decide), by simp [hf], by simp [SameMem]⟩
  · exact ⟨_, capTsSh_latched h hx, rfl, by simp [hf], by simp, by simp, by simp [SameMem]⟩

end Sys2Proof.Machine
end

section
/-! Every step answers a next state and keeps queue, free values and canonical forms. -/

namespace Sys2Proof.Machine

/-- A command's outcome is a next state. -/
def IsNext (o : Host.Outcome State Fault Refusal) : Prop := ∃ t, o = .next t

theorem IsNext.next (t : State) : IsNext (.next t) := ⟨t, rfl⟩

theorem IsNext.ite {c : Prop} [Decidable c] {a b : Host.Outcome State Fault Refusal} (ha : IsNext a) (hb : IsNext b) :
    IsNext (if c then a else b) := by
  split
  · exact ha
  · exact hb

/-- Every arm of `exec` is a tree of conditions whose leaves are next states. -/
theorem exec_isNext (i : Instr) (s : State) : IsNext (exec i s) := by
  cases i <;> simp only [exec,
    execPlainRegWrite, execIrqSet, execBlockRunReq, execBlockStopReq, execForceStop, execFaultClr, execDrainComplete, execDrainTimeout,
    execPowerOn, execRelease, execPinReset, execLatePowerFail, execCoreBrownout, execDomainBrownout, execTapReset, execRstoutRelease,
    execDomReq, execDomReqKp, execDomTransitionDone, execPenCheck, execPwrCfgWrite, execMgmtRst, execMgmtReset, execClkUnlock,
    execClkCheckWindow, execClkEdgeTimeout, execPfwWarn, execPfwLatch, execOutTorn, execSaveComplete, execPfwClear, execPfwRestart,
    execPfwStartWait, execTrainDone, execDrmRefresh, execDrmScrub, execModelLoad, execModelCancel, execModelValidated, execJqTail,
    execJqCfgWrite, execSpmv, execSpmvt, execDot, execAxpy, execScale, execCopy, execProject, execRemap, execFprint, execIc0, execIldl0,
    execPcg, execMinres, execBicgstab, execPcgne, execNewton, execJobEnd, execLaneTest, execLaneTestDone, execYardScrub, execLmapWrite,
    execTransportStep, execStepCommit, execFcStart, execFcCancel, execForecastEnd, execEstPass, execDspPass, execDspNow, execHydPass,
    execKeeperPoll, execCheckDone, execPlanStep, execNextDue, execEntryExpire, execWdogTrip, execEmgAssert, execEmgRelease, execLockstep,
    execKeeperTcmUe, execKeeperReset, execSlogIndex, execCycleSnapshot, execExecuteDone, execFrameTaken, execTime, execCycle, execRegRead,
    execRegWrite, execStallRead, execEvent, execCoreException, execTcmUe, execLdBegin, execLdData, execLdEnd, execLdAbort, execFtIndex,
    execHello, execHelloAck, execRead, execReadRsp, execReplyHoldWait, execReadTimeout, execWriteAck, execWriteNak, execWriteTimeout,
    execRefresh, execEthRxFrame, execEthTxDone, execLinkChg, execHqTxTail, execHqRxTail, execNbExpire, execNbMiss, execTimeNs, execSet,
    execSeconds, execSync, execFollowUp, execSyncSend, execAnnounce, execAnnounceSend, execAnnounceReceiptTimeout, execDelayReq,
    execDelayResp, execPdelayReq, execPdelayResp, execManagement, execHoldoverExpire, execPpsIn, execPpsInLoss, execPpsOut, execPpsPulseEnd,
    execCapEdge, execCapTsNs, execCapTsSh, execCanRxFrame, execRxfLatch, execRxfRelease, execTxbReq, execTxbAbort, execRecReq,
    execCanArbitration, execCanTxEnd, execCanBusError, execRecoveryDone, execFilterTimeout, execDlkFrame, execDlkReply, execReference,
    execSetPos, execClear, execHalt, execTholdExpire, execReplyLost, execLinkLoss, execMtrSample, execThermalTick, execAvgPeriodEnd,
    execIntervalEnd, execTotalLoRead, execPulseTick, execPulseWidthEnd, execResLoRead, execGpioInChg, execHeartbeatSend, execHeartbeat,
    execWitnessHeartbeat, execPathSilent, execLaneDown, execStatePage, execStateEnd, execStream, execKeeper, execLeaseReq, execLeaseRsp,
    execLeaseRenew, execLeaseEnd, execGrantEnd, execTakeover, execEpochCommit, execImageApplied, execFenceCheck, execContestEnd,
    execStandDownLimit, execResolveEnd, execSecRun, execCmdBegin, execCmdData, execCmdSubmit, execCmdAbort, execCommandDeliver,
    execBlockCtrl, execOnlineChange, execForce, execSafeValue, execArm, execLogClear, execKeyChange, execFwUpdate, execFwUpdateDone,
    execSwitch, execFwConfirm, execExtend2, execLock2, execQuoteStart, execQuoteCert, execQuoteDone, execRecordSubmit, execRecordStage,
    execFlush, execSwSend, execRdOfs, execRlIndex, execRtcSecond, execWake, execWakePeriod, execTimeRead, execTime2Read, execRdTimeout,
    execCommitGo, execCommitLoad, execBackupSwitch, execBatLow, execRetLost, execTrimWindow, execPnlFrame, execRailUpDone, execRailDownDone,
    execRailIdle, execRailFault, execWfBegin, execWfData, execWfEnd, execWfAbort, execUpdGo, execClearWf, execFullClear, execRecovered,
    execTimeRecovered, execRestartGo, execSupplyReturn, execPdelayReqSend, execLaneUp, execLeaseStartWait]
  all_goals repeat' with_reducible first | exact IsNext.next _ | apply IsNext.ite | split

/-- Every command keeps the queue, draws free values only forward and keeps the canonical forms. -/
theorem exec_keeps (i : Instr) {s0 s : State} (h : Keeps s0 s) : KeepsO s0 (exec i s) :=
  match i with
  | .plainRegWrite .. => execPlainRegWrite_keeps h
  | .irqSet .. => execIrqSet_keeps h
  | .blockRunReq .. => execBlockRunReq_keeps h
  | .blockStopReq .. => execBlockStopReq_keeps h
  | .forceStop .. => execForceStop_keeps h
  | .faultClr .. => execFaultClr_keeps h
  | .drainComplete .. => execDrainComplete_keeps h
  | .drainTimeout .. => execDrainTimeout_keeps h
  | .powerOn => execPowerOn_keeps h
  | .release .. => execRelease_keeps h
  | .pinReset => execPinReset_keeps h
  | .latePowerFail .. => execLatePowerFail_keeps h
  | .coreBrownout => execCoreBrownout_keeps h
  | .domainBrownout .. => execDomainBrownout_keeps h
  | .tapReset => execTapReset_keeps h
  | .rstoutRelease => execRstoutRelease_keeps h
  | .domReq .. => execDomReq_keeps h
  | .domReqKp .. => execDomReqKp_keeps h
  | .domTransitionDone .. => execDomTransitionDone_keeps h
  | .penCheck .. => execPenCheck_keeps h
  | .pwrCfgWrite .. => execPwrCfgWrite_keeps h
  | .mgmtRst .. => execMgmtRst_keeps h
  | .mgmtReset => execMgmtReset_keeps h
  | .clkUnlock .. => execClkUnlock_keeps h
  | .clkCheckWindow .. => execClkCheckWindow_keeps h
  | .clkEdgeTimeout => execClkEdgeTimeout_keeps h
  | .pfwWarn => execPfwWarn_keeps h
  | .pfwLatch => execPfwLatch_keeps h
  | .outTorn => execOutTorn_keeps h
  | .saveComplete => execSaveComplete_keeps h
  | .pfwClear => execPfwClear_keeps h
  | .pfwRestart => execPfwRestart_keeps h
  | .pfwStartWait => execPfwStartWait_keeps h
  | .trainDone .. => execTrainDone_keeps h
  | .drmRefresh .. => execDrmRefresh_keeps h
  | .drmScrub .. => execDrmScrub_keeps h
  | .modelLoad .. => execModelLoad_keeps h
  | .modelCancel .. => execModelCancel_keeps h
  | .modelValidated .. => execModelValidated_keeps h
  | .jqTail .. => execJqTail_keeps h
  | .jqCfgWrite .. => execJqCfgWrite_keeps h
  | .spmv .. => execSpmv_keeps h
  | .spmvt .. => execSpmvt_keeps h
  | .dot .. => execDot_keeps h
  | .axpy .. => execAxpy_keeps h
  | .scale .. => execScale_keeps h
  | .copy .. => execCopy_keeps h
  | .project .. => execProject_keeps h
  | .remap .. => execRemap_keeps h
  | .fprint .. => execFprint_keeps h
  | .ic0 .. => execIc0_keeps h
  | .ildl0 .. => execIldl0_keeps h
  | .pcg .. => execPcg_keeps h
  | .minres .. => execMinres_keeps h
  | .bicgstab .. => execBicgstab_keeps h
  | .pcgne .. => execPcgne_keeps h
  | .newton .. => execNewton_keeps h
  | .jobEnd .. => execJobEnd_keeps h
  | .laneTest .. => execLaneTest_keeps h
  | .laneTestDone .. => execLaneTestDone_keeps h
  | .yardScrub .. => execYardScrub_keeps h
  | .lmapWrite .. => execLmapWrite_keeps h
  | .transportStep .. => execTransportStep_keeps h
  | .stepCommit .. => execStepCommit_keeps h
  | .fcStart .. => execFcStart_keeps h
  | .fcCancel .. => execFcCancel_keeps h
  | .forecastEnd .. => execForecastEnd_keeps h
  | .estPass => execEstPass_keeps h
  | .dspPass => execDspPass_keeps h
  | .dspNow .. => execDspNow_keeps h
  | .hydPass => execHydPass_keeps h
  | .keeperPoll => execKeeperPoll_keeps h
  | .checkDone .. => execCheckDone_keeps h
  | .planStep => execPlanStep_keeps h
  | .nextDue .. => execNextDue_keeps h
  | .entryExpire .. => execEntryExpire_keeps h
  | .wdogTrip => execWdogTrip_keeps h
  | .emgAssert .. => execEmgAssert_keeps h
  | .emgRelease .. => execEmgRelease_keeps h
  | .lockstep => execLockstep_keeps h
  | .keeperTcmUe => execKeeperTcmUe_keeps h
  | .keeperReset => execKeeperReset_keeps h
  | .slogIndex .. => execSlogIndex_keeps h
  | .cycleSnapshot => execCycleSnapshot_keeps h
  | .executeDone .. => execExecuteDone_keeps h
  | .frameTaken => execFrameTaken_keeps h
  | .time .. => execTime_keeps h
  | .cycle .. => execCycle_keeps h
  | .regRead .. => execRegRead_keeps h
  | .regWrite .. => execRegWrite_keeps h
  | .stallRead .. => execStallRead_keeps h
  | .event .. => execEvent_keeps h
  | .coreException .. => execCoreException_keeps h
  | .tcmUe .. => execTcmUe_keeps h
  | .ldBegin .. => execLdBegin_keeps h
  | .ldData .. => execLdData_keeps h
  | .ldEnd .. => execLdEnd_keeps h
  | .ldAbort .. => execLdAbort_keeps h
  | .ftIndex .. => execFtIndex_keeps h
  | .hello .. => execHello_keeps h
  | .helloAck .. => execHelloAck_keeps h
  | .read .. => execRead_keeps h
  | .readRsp .. => execReadRsp_keeps h
  | .replyHoldWait .. => execReplyHoldWait_keeps h
  | .readTimeout .. => execReadTimeout_keeps h
  | .writeAck .. => execWriteAck_keeps h
  | .writeNak .. => execWriteNak_keeps h
  | .writeTimeout .. => execWriteTimeout_keeps h
  | .refresh .. => execRefresh_keeps h
  | .ethRxFrame .. => execEthRxFrame_keeps h
  | .ethTxDone .. => execEthTxDone_keeps h
  | .linkChg .. => execLinkChg_keeps h
  | .hqTxTail .. => execHqTxTail_keeps h
  | .hqRxTail .. => execHqRxTail_keeps h
  | .nbExpire .. => execNbExpire_keeps h
  | .nbMiss .. => execNbMiss_keeps h
  | .timeNs .. => execTimeNs_keeps h
  | .set .. => execSet_keeps h
  | .seconds .. => execSeconds_keeps h
  | .sync .. => execSync_keeps h
  | .followUp .. => execFollowUp_keeps h
  | .syncSend .. => execSyncSend_keeps h
  | .announce .. => execAnnounce_keeps h
  | .announceSend .. => execAnnounceSend_keeps h
  | .announceReceiptTimeout .. => execAnnounceReceiptTimeout_keeps h
  | .delayReq .. => execDelayReq_keeps h
  | .delayResp .. => execDelayResp_keeps h
  | .pdelayReq .. => execPdelayReq_keeps h
  | .pdelayResp .. => execPdelayResp_keeps h
  | .management port => execManagement_keeps (_port := port) h
  | .holdoverExpire => execHoldoverExpire_keeps h
  | .ppsIn .. => execPpsIn_keeps h
  | .ppsInLoss => execPpsInLoss_keeps h
  | .ppsOut => execPpsOut_keeps h
  | .ppsPulseEnd => execPpsPulseEnd_keeps h
  | .capEdge .. => execCapEdge_keeps h
  | .capTsNs .. => execCapTsNs_keeps h
  | .capTsSh .. => execCapTsSh_keeps h
  | .canRxFrame .. => execCanRxFrame_keeps h
  | .rxfLatch .. => execRxfLatch_keeps h
  | .rxfRelease .. => execRxfRelease_keeps h
  | .txbReq .. => execTxbReq_keeps h
  | .txbAbort .. => execTxbAbort_keeps h
  | .recReq .. => execRecReq_keeps h
  | .canArbitration .. => execCanArbitration_keeps h
  | .canTxEnd .. => execCanTxEnd_keeps h
  | .canBusError .. => execCanBusError_keeps h
  | .recoveryDone .. => execRecoveryDone_keeps h
  | .filterTimeout .. => execFilterTimeout_keeps h
  | .dlkFrame .. => execDlkFrame_keeps h
  | .dlkReply .. => execDlkReply_keeps h
  | .reference .. => execReference_keeps h
  | .setPos .. => execSetPos_keeps h
  | .clear .. => execClear_keeps h
  | .halt .. => execHalt_keeps h
  | .tholdExpire .. => execTholdExpire_keeps h
  | .replyLost .. => execReplyLost_keeps h
  | .linkLoss .. => execLinkLoss_keeps h
  | .mtrSample .. => execMtrSample_keeps h
  | .thermalTick => execThermalTick_keeps h
  | .avgPeriodEnd => execAvgPeriodEnd_keeps h
  | .intervalEnd => execIntervalEnd_keeps h
  | .totalLoRead .. => execTotalLoRead_keeps h
  | .pulseTick => execPulseTick_keeps h
  | .pulseWidthEnd .. => execPulseWidthEnd_keeps h
  | .resLoRead .. => execResLoRead_keeps h
  | .gpioInChg .. => execGpioInChg_keeps h
  | .heartbeatSend => execHeartbeatSend_keeps h
  | .heartbeat .. => execHeartbeat_keeps h
  | .witnessHeartbeat .. => execWitnessHeartbeat_keeps h
  | .pathSilent .. => execPathSilent_keeps h
  | .laneDown .. => execLaneDown_keeps h
  | .statePage .. => execStatePage_keeps h
  | .stateEnd .. => execStateEnd_keeps h
  | .stream .. => execStream_keeps h
  | .keeper .. => execKeeper_keeps h
  | .leaseReq .. => execLeaseReq_keeps h
  | .leaseRsp src _ => execLeaseRsp_keeps (_src := src) h
  | .leaseRenew => execLeaseRenew_keeps h
  | .leaseEnd => execLeaseEnd_keeps h
  | .grantEnd => execGrantEnd_keeps h
  | .takeover => execTakeover_keeps h
  | .epochCommit => execEpochCommit_keeps h
  | .imageApplied => execImageApplied_keeps h
  | .fenceCheck => execFenceCheck_keeps h
  | .contestEnd => execContestEnd_keeps h
  | .standDownLimit => execStandDownLimit_keeps h
  | .resolveEnd => execResolveEnd_keeps h
  | .secRun => execSecRun_keeps h
  | .cmdBegin .. => execCmdBegin_keeps h
  | .cmdData .. => execCmdData_keeps h
  | .cmdSubmit .. => execCmdSubmit_keeps h
  | .cmdAbort .. => execCmdAbort_keeps h
  | .commandDeliver .. => execCommandDeliver_keeps h
  | .blockCtrl .. => execBlockCtrl_keeps h
  | .onlineChange .. => execOnlineChange_keeps h
  | .force .. => execForce_keeps h
  | .safeValue .. => execSafeValue_keeps h
  | .arm .. => execArm_keeps h
  | .logClear .. => execLogClear_keeps h
  | .keyChange .. => execKeyChange_keeps h
  | .fwUpdate .. => execFwUpdate_keeps h
  | .fwUpdateDone .. => execFwUpdateDone_keeps h
  | .switch => execSwitch_keeps h
  | .fwConfirm .. => execFwConfirm_keeps h
  | .extend2 .. => execExtend2_keeps h
  | .lock2 .. => execLock2_keeps h
  | .quoteStart .. => execQuoteStart_keeps h
  | .quoteCert .. => execQuoteCert_keeps h
  | .quoteDone => execQuoteDone_keeps h
  | .recordSubmit .. => execRecordSubmit_keeps h
  | .recordStage .. => execRecordStage_keeps h
  | .flush => execFlush_keeps h
  | .swSend .. => execSwSend_keeps h
  | .rdOfs .. => execRdOfs_keeps h
  | .rlIndex .. => execRlIndex_keeps h
  | .rtcSecond => execRtcSecond_keeps h
  | .wake => execWake_keeps h
  | .wakePeriod .. => execWakePeriod_keeps h
  | .timeRead .. => execTimeRead_keeps h
  | .time2Read .. => execTime2Read_keeps h
  | .rdTimeout => execRdTimeout_keeps h
  | .commitGo .. => execCommitGo_keeps h
  | .commitLoad => execCommitLoad_keeps h
  | .backupSwitch .. => execBackupSwitch_keeps h
  | .batLow .. => execBatLow_keeps h
  | .retLost => execRetLost_keeps h
  | .trimWindow .. => execTrimWindow_keeps h
  | .pnlFrame => execPnlFrame_keeps h
  | .railUpDone => execRailUpDone_keeps h
  | .railDownDone => execRailDownDone_keeps h
  | .railIdle => execRailIdle_keeps h
  | .railFault .. => execRailFault_keeps h
  | .wfBegin .. => execWfBegin_keeps h
  | .wfData .. => execWfData_keeps h
  | .wfEnd .. => execWfEnd_keeps h
  | .wfAbort .. => execWfAbort_keeps h
  | .updGo .. => execUpdGo_keeps h
  | .clearWf .. => execClearWf_keeps h
  | .fullClear .. => execFullClear_keeps h
  | .recovered => execRecovered_keeps h
  | .timeRecovered => execTimeRecovered_keeps h
  | .restartGo .. => execRestartGo_keeps h
  | .supplyReturn => execSupplyReturn_keeps h
  | .pdelayReqSend .. => execPdelayReqSend_keeps h
  | .laneUp .. => execLaneUp_keeps h
  | .leaseStartWait => execLeaseStartWait_keeps h

/-- Every command answers a next state that is kept. -/
theorem exec_answers (i : Instr) (s : State) : Answers i s (Keeps s) :=
  let ⟨t, ht⟩ := exec_isNext i s
  ⟨t, ht, exec_keeps i (Keeps.refl s) t ht⟩

/-- Settles O60: an empty queue passes one clock, and else the front command answers a state that is kept. -/
theorem everyStepKeepsForm : Obligations.EveryStepKeepsForm := by
  intro s
  unfold step
  cases hq : s.pending with
  | nil =>
    have hk := State.idle_keeps (Keeps.refl s)
    exact ⟨_, rfl, hk.queue.trans hq, hk.drawn, hk.form⟩
  | cons i rest =>
    obtain ⟨t, ht, hk⟩ := exec_answers i { s with pending := rest }
    exact ⟨t, ht, hk.queue, hk.drawn, hk.form⟩

/-! ### One step (R8) -/

/-- The lanes of the pair link replaced, and nothing else. -/
theorem State.lanesTick_lanes (s : State) : ∃ l, s.lanesTick = { s with plk := { s.plk with lanes := l } } := by
  have one (t : State) (i : Nat) (ht : ∃ l, t = { s with plk := { s.plk with lanes := l } }) :
      ∃ l, (if t.laneUp i && t.lane i != {} then t.setLane i (t.lane i).tick else t) = { s with plk := { s.plk with lanes := l } } := by
    obtain ⟨l, rfl⟩ := ht
    split
    · exact ⟨_, rfl⟩
    · exact ⟨l, rfl⟩
  exact one _ 1 (one s 0 ⟨_, rfl⟩)

/-- A clock of PD_NET changes the copies of device time alone. -/
theorem State.tick_time (s : State) : s.tick = { s with time := s.tick.time } := by
  unfold State.tick
  dsimp only
  split
  · split <;> rfl
  · rfl

/-- With PD_NET not ON the counter stands. -/
theorem State.tick_cnt {s : State} (h : s.up 6 = false) : s.tick.time.cnt = s.time.cnt := by
  unfold State.tick
  rw [if_neg (by simp [h])]

/-- What passes on an empty queue changes device time, free values and the lanes alone. -/
theorem State.idle_changes (s : State) :
    s.idle = { s with time := s.idle.time, free := s.idle.free, plk := { s.plk with lanes := s.idle.plk.lanes } } := by
  obtain ⟨l, hl⟩ := s.lanesTick_lanes
  unfold State.idle
  dsimp only
  rw [hl, State.tick_time]
  split <;> rfl

/-- With PD_NET not ON a clock leaves the counter, below the last time of its format. -/
theorem State.idle_cnt {s : State} (h : s.up 6 = false) (ht : s.time.cnt < timeLimit) : s.idle.time.cnt = s.time.cnt := by
  obtain ⟨l, hl⟩ := s.lanesTick_lanes
  have hc : s.lanesTick.tick.time.cnt = s.time.cnt := by
    rw [hl]
    exact State.tick_cnt h
  unfold State.idle
  dsimp only
  split
  · exact hc
  · exact (if_pos (hc.symm ▸ ht)).trans hc

/-- Settles O57: the front command runs on the queue's rest; an empty queue passes one clock. -/
theorem stepRunsFrontCommand : Obligations.StepRunsFrontCommand := by
  refine fun s c rest => ⟨rfl, fun hq => ⟨s.idle, ?_, s.idle_changes, (State.idle_keeps (Keeps.refl s)).drawn, State.idle_cnt⟩⟩
  rw [step, hq]

/-- Settles O58: no table lists anything at reset, so each reads as its default. -/
theorem resetState : Obligations.ResetState := by
  refine ⟨rfl, rfl, fun _ => rfl, fun p => ⟨?_, rfl, rfl, rfl⟩, fun _ => ⟨rfl, rfl, rfl⟩⟩
  change (blkReset p).st = _
  unfold blkReset
  split <;> rfl

/-- Settles O59: each written byte reads back, and every other one as before. -/
theorem memoryReadsBack : Obligations.MemoryReadsBack := by
  refine fun m a l => ⟨?_, fun b hb => rdB_wrBytes_out l a b m hb, wf_wrBytes l a⟩
  refine List.ext_getElem (by simp [rdBytes]) fun i h1 h2 => ?_
  simpa [rdBytes] using rdB_wrBytes_in l a i m h2

end Sys2Proof.Machine
end

section
/-! Elementary operations (R198, R202, R203): the elements a job stores lie in its output vector; COPY and PROJECT element by element. -/

namespace Sys2Proof.Machine

variable {m : Tab Byte} {j : Job}

@[simp] theorem length_leBytes (n v : Nat) : (leBytes n v).length = n := by
  induction n generalizing v with
  | zero => rfl
  | succ n ih => simp [leBytes, ih]

/-- A vector built without RANGE holds the value of every element. -/
theorem map_some_of_build {o sub bound : Nat} {f : Nat → Option Int} {l : List Nat} {r : List Int}
    (h : build o sub bound f l = .ok r) : r.map some = l.map f := by
  induction l generalizing r with
  | nil => cases h; rfl
  | cons i l ih =>
    unfold build at h
    split at h
    · cases h
    · split at h
      · cases h
      · split at h
        case h_1 r' hr => cases h; simp [ih hr, *]
        case h_2 => cases h

/-- The bytes of one element of a vector of n elements at address a. -/
def IsElem (a n : Nat) (e : Nat × List Byte) : Prop := a ≤ e.1 ∧ e.1 + 8 ≤ a + 8 * n ∧ e.2.length = 8

theorem isElem_of_lt {a n i : Nat} (v : Nat) (h : i < n) : IsElem a n (a + 8 * i, leBytes 8 v) :=
  ⟨Nat.le_add_right _ _, by dsimp only; omega, length_leBytes 8 v⟩

theorem isElem_of_mem_elems {a : Nat} {l : List Int} {e : Nat × List Byte} (h : e ∈ elems a l) : IsElem a l.length e := by
  obtain ⟨⟨v, i⟩, hp, rfl⟩ := List.mem_map.mp h
  exact isElem_of_lt _ (List.mem_range.mp (List.of_mem_zip hp).2)

/-- A job that stores an elementary result stores elements of its vector. -/
theorem Job.elem_isElem {y : VHdr} {n : Nat} {g : Nat → Option Int} {e : Nat × List Byte} (h : e ∈ (j.elem y n g).data) :
    IsElem y.data n e := by
  unfold Job.elem at h
  dsimp only at h
  split at h
  next r hr =>
    have hl : r.length = n := by simpa using congrArg List.length (map_some_of_build hr)
    exact hl ▸ isElem_of_mem_elems h
  next =>
    obtain ⟨i, hi, hv⟩ := List.mem_filterMap.mp h
    split at hv
    · split at hv
      · cases hv
      · cases hv
        exact isElem_of_lt _ (List.mem_range.mp hi)
    · cases hv

/-- A job whose elementary result met no RANGE stored every element. -/
theorem Job.elem_out_zero {y : VHdr} {n : Nat} {g : Nat → Option Int} (h : (j.elem y n g).out = 0) :
    ∃ r : List Int, (j.elem y n g).data = elems y.data r ∧ r.map some = (List.range n).map g := by
  unfold Job.elem at h ⊢
  dsimp only at h ⊢
  split at h
  next r hr => exact ⟨r, rfl, map_some_of_build hr⟩
  next => cases h

/-- A condition answers its first branch, or its second where it does not hold. -/
theorem ite_cases {α : Type} {c : Prop} [Decidable c] (a b : α) : (if c then a else b) = a ∨ ¬c ∧ (if c then a else b) = b := by
  by_cases h : c <;> simp [h]

/-- SPMV and SPMVT end BAD_OPERAND, or store an elementary result for y. -/
theorem jobMul_cases (m : Tab Byte) (j : Job) (tr : Bool) : jobMul m j tr = j.bad ∨
    ∃ (o : List (Nat × List Byte)) (g : Nat → Option Int), jobMul m j tr =
      { j with other := o }.elem (rdVHdr m (dOpnd j.desc 2)) (rdVHdr m (dOpnd j.desc 2)).len g := by
  exact (ite_cases _ _).imp_right fun ⟨_, h⟩ => ⟨_, _, h⟩

/-- AXPY, SCALE and COPY end BAD_OPERAND, or store an elementary result for y, element by element from vectors of one length. -/
theorem jobMap_cases (m : Tab Byte) (j : Job) (useX inout : Bool) (f : VHdr → VHdr → Int → Int → Option Int) :
    let y := rdVHdr m (dOpnd j.desc 2)
    let x := if useX then rdVHdr m (dOpnd j.desc 1) else y
    jobMap m j useX inout f = j.bad ∨
      x.len = y.len ∧ jobMap m j useX inout f = j.elem y y.len fun i => f x y (el (x.read m) i) (el (y.read m) i) := by
  intro y x
  refine (ite_cases _ _).imp_right fun ⟨h, hj⟩ => ⟨?_, hj⟩
  simp only [Bool.or_eq_true, not_or, Bool.not_eq_true, bne_eq_false_iff_eq] at h
  exact h.1.2

/-- PROJECT ends BAD_OPERAND, or stores the clamped elements between bounds that are in order. -/
theorem jobProject_cases (m : Tab Byte) (j : Job) :
    let lo := rdVHdr m (dOpnd j.desc 1)
    let x := rdVHdr m (dOpnd j.desc 2)
    let hi := rdVHdr m (dOpnd j.desc 4)
    jobProject m j = j.bad ∨ lo.len = x.len ∧ hi.len = x.len ∧ (∀ p, p ∈ (lo.read m).zip (hi.read m) → p.1 ≤ p.2) ∧
      jobProject m j = j.elem x x.len fun i => some (clampI (el (lo.read m) i) (el (hi.read m) i) (el (x.read m) i)) := by
  intro lo x hi
  refine (ite_cases _ _).imp_right fun ⟨h, hj⟩ => ?_
  simp only [Bool.or_eq_true, not_or, Bool.not_eq_true, bne_eq_false_iff_eq, List.any_eq_false, decide_eq_true_eq, not_lt] at h
  obtain ⟨⟨⟨⟨⟨⟨-, hlo⟩, hhi⟩, -⟩, -⟩, -⟩, hord⟩ := h
  exact ⟨hlo, hhi, hord, hj⟩

/-- Between bounds of one scale nothing is rescaled. -/
theorem rescale_self (v e : Int) : rescale v e e = v := by
  simp only [rescale, le_refl, if_true, sub_self, Int.toNat_zero, pow_zero, rne]
  rw [if_pos (by rw [show v.emod (1 : Nat) = 0 from Int.emod_one v]; decide)]
  exact Int.ediv_one v

/-- A clamped value lies between bounds that are in order. -/
theorem clampI_mem {lo hi : Int} (x : Int) (h : lo ≤ hi) : lo ≤ clampI lo hi x ∧ clampI lo hi x ≤ hi := by
  unfold clampI
  split
  · omega
  · split <;> omega

@[simp] theorem VHdr.length_read (h : VHdr) (m : Tab Byte) : (h.read m).length = h.len := by
  simp [VHdr.read, rdInts]

/-- A vector is the list of its elements. -/
theorem map_el_range (l : List Int) : (List.range l.length).map (el l) = l := by
  refine List.ext_getElem (by simp) fun i h1 h2 => ?_
  simp [el, h2]

/-- COPY between vectors of one scale stores x's elements. -/
theorem jobMap_copy (he : (rdVHdr m (dOpnd j.desc 1)).e = (rdVHdr m (dOpnd j.desc 2)).e)
    (ho : (jobMap m j true false fun x y a _ => some (rescale a x.e y.e)).out = 0) :
    (jobMap m j true false fun x y a _ => some (rescale a x.e y.e)).data =
      elems (rdVHdr m (dOpnd j.desc 2)).data ((rdVHdr m (dOpnd j.desc 1)).read m) := by
  obtain hb | ⟨hl, hj⟩ := jobMap_cases m j true false fun x y a _ => some (rescale a x.e y.e)
  · rw [hb] at ho
    cases ho
  · rw [hj] at ho ⊢
    obtain ⟨r, hd, hr⟩ := Job.elem_out_zero ho
    simp only [if_true, he, rescale_self] at hl hr
    have hr' : r = (rdVHdr m (dOpnd j.desc 1)).read m := by
      apply List.map_injective_iff.mpr (Option.some_injective Int)
      have hx := map_el_range ((rdVHdr m (dOpnd j.desc 1)).read m)
      rw [VHdr.length_read, hl] at hx
      rw [hr, ← congrArg (List.map some) hx, List.map_map]
      rfl
    rw [hd, hr']

/-- Each element that PROJECT stores lies between its bounds. -/
theorem jobProject_bounded (ho : (jobProject m j).out = 0) :
    ∃ r : List Int, (jobProject m j).data = elems (rdVHdr m (dOpnd j.desc 2)).data r ∧ r.length = (rdVHdr m (dOpnd j.desc 2)).len ∧
      ∀ i, i < (rdVHdr m (dOpnd j.desc 2)).len → el ((rdVHdr m (dOpnd j.desc 1)).read m) i ≤ el r i ∧
        el r i ≤ el ((rdVHdr m (dOpnd j.desc 4)).read m) i := by
  obtain hb | ⟨hlo, hhi, hord, hj⟩ := jobProject_cases m j
  · rw [hb] at ho
    cases ho
  · rw [hj] at ho ⊢
    obtain ⟨r, hd, hr⟩ := Job.elem_out_zero ho
    have hlen : r.length = (rdVHdr m (dOpnd j.desc 2)).len := by simpa using congrArg List.length hr
    refine ⟨r, hd, hlen, fun i hi => ?_⟩
    have hle : el ((rdVHdr m (dOpnd j.desc 1)).read m) i ≤ el ((rdVHdr m (dOpnd j.desc 4)).read m) i := by
      have hm := List.getElem_mem (l := ((rdVHdr m (dOpnd j.desc 1)).read m).zip ((rdVHdr m (dOpnd j.desc 4)).read m)) (n := i)
        (by simp [hlo, hhi, hi])
      rw [List.getElem_zip] at hm
      simpa [el, hlo, hhi, hi] using hord _ hm
    have hri := congrArg (fun l => l[i]?) hr
    simp only [List.getElem?_map, List.getElem?_eq_getElem (hlen ▸ hi), List.getElem?_range hi, Option.map_some, Option.some.injEq] at hri
    have hel : el r i = r[i]'(hlen ▸ hi) := by simp [el, hlen, hi]
    rw [hel, hri]
    exact clampI_mem _ hle

/-- Settles O19: each operation ends BAD_OPERAND with no data, or with the elements of its output vector. -/
theorem elementaryOperations : Obligations.ElementaryOperations := by
  intro m j tr useX inout f e hd ho x y inY
  have hbad : e ∉ j.bad.data := by simp [Job.bad, hd]
  refine ⟨fun h => ?_, fun h => ?_, fun h => ?_, fun he => jobMap_copy he, jobProject_bounded⟩
  · obtain hb | ⟨_, _, hj⟩ := jobMul_cases m j tr
    · exact absurd (hb ▸ h) hbad
    · exact Job.elem_isElem (hj ▸ h)
  · obtain hb | ⟨-, hj⟩ := jobMap_cases m j useX inout f
    · exact absurd (hb ▸ h) hbad
    · exact Job.elem_isElem (hj ▸ h)
  · obtain hb | ⟨-, -, -, hj⟩ := jobProject_cases m j
    · exact absurd (hb ▸ h) hbad
    · exact Job.elem_isElem (hj ▸ h)

end Sys2Proof.Machine
end

section
/-! Numbers in memory: what reads back after a store, and the states that sending on the pair link and the output enables leave. -/

namespace Sys2Proof.Machine

/-! ### Numbers in memory -/

theorem leNat_leBytes (n v : Nat) : leNat (leBytes n v) = v % 256 ^ n := by
  induction n generalizing v with
  | zero => simp [leBytes, leNat, Nat.mod_one]
  | succ n ih =>
    rw [leBytes, leNat, ih, BitVec.toNat_ofNat, pow_succ' 256, Nat.mod_mul]

theorem leNat_lt (l : List Byte) : leNat l < 256 ^ l.length := by
  induction l with
  | nil => simp [leNat]
  | cons b l ih =>
    have hb : b.toNat < 256 := b.isLt
    simp only [leNat, List.length_cons, pow_succ']
    omega

theorem rdN_lt (m : Tab Byte) (a n : Nat) : rdN m a n < 256 ^ n := by
  simpa [rdN, rdBytes] using leNat_lt (rdBytes m a n)

/-- Written bytes read back as they were put. -/
theorem rdBytes_wrBytes_same (m : Tab Byte) (a : Nat) (l : List Byte) : rdBytes (wrBytes m a l) a l.length = l := by
  refine List.ext_getElem (by simp [rdBytes]) fun i h1 h2 => ?_
  simpa [rdBytes] using rdB_wrBytes_in l a i m h2

/-- Bytes apart from the written ones read as before. -/
theorem rdBytes_wrBytes_out (m : Tab Byte) {a b n : Nat} {l : List Byte} (h : b + n ≤ a ∨ a + l.length ≤ b) :
    rdBytes (wrBytes m a l) b n = rdBytes m b n :=
  List.map_congr_left fun i hi => rdB_wrBytes_out l a (b + i) m (by have := List.mem_range.mp hi; omega)

theorem rdN_wrN (m : Tab Byte) (a n v : Nat) : rdN (wrN m a n v) a n = v % 256 ^ n := by
  have h := rdBytes_wrBytes_same m a (leBytes n v)
  rw [length_leBytes] at h
  rw [rdN, wrN, h, leNat_leBytes]

theorem rdN_wrBytes_out (m : Tab Byte) {a b n : Nat} {l : List Byte} (h : b + n ≤ a ∨ a + l.length ≤ b) :
    rdN (wrBytes m a l) b n = rdN m b n := by rw [rdN, rdBytes_wrBytes_out m h, rdN]

theorem rdN_wrN_out (m : Tab Byte) {a b n k : Nat} (v : Nat) (h : b + n ≤ a ∨ a + k ≤ b) : rdN (wrN m a k v) b n = rdN m b n :=
  rdN_wrBytes_out m (by rwa [length_leBytes])

/-! ### Sending on the pair link -/

/-- A fold whose steps each change one field alone changes that field alone. -/
theorem foldl_only {α β : Type} {put : State → α → State} (hid : ∀ s, ∃ x, s = put s x) (hput : ∀ s x y, put (put s x) y = put s y)
    {f : State → β → State} (hf : ∀ s b, ∃ x, f s b = put s x) (l : List β) (s : State) : ∃ x, l.foldl f s = put s x := by
  induction l generalizing s with
  | nil => exact hid s
  | cons b l ih =>
    obtain ⟨x, hx⟩ := hf s b
    obtain ⟨y, hy⟩ := ih (f s b)
    exact ⟨y, by rw [List.foldl_cons, hy, hx, hput]⟩

/-- The pair link's state replaced. -/
def State.putPlk (s : State) (p : PlkSt) : State := { s with plk := p }

theorem State.foldl_putPlk {β : Type} {f : State → β → State} (hf : ∀ s b, ∃ p, f s b = s.putPlk p) (l : List β) (s : State) :
    ∃ p, l.foldl f s = s.putPlk p :=
  foldl_only (put := State.putPlk) (fun s => ⟨s.plk, rfl⟩) (fun _ _ _ => rfl) hf l s

theorem State.lanesPut_putPlk (s : State) (ty q : Nat) (f : List Byte) : ∃ p, s.lanesPut ty q f = s.putPlk p := by
  refine State.foldl_putPlk (fun s i => ?_) _ s
  split
  · exact ⟨_, rfl⟩
  · exact ⟨s.plk, rfl⟩

theorem State.plkSend_putPlk (s : State) (ty q i : Nat) (fin : Bool) (b : List Byte) : ∃ p, s.plkSend ty q i fin b = s.putPlk p := by
  unfold State.plkSend
  split
  · exact ⟨s.plk, rfl⟩
  · obtain ⟨p, hp⟩ := (s.seqNext q).lanesPut_putPlk ty q (s.plkFrame ty q i fin b)
    dsimp only
    rw [hp]
    exact ⟨_, rfl⟩

end Sys2Proof.Machine
end

section
/-! The keeper's output enables (R596, R597) and its setpoint table (R25, R328 to R331). -/

namespace Sys2Proof.Machine

/-! ### What a ball's level depends on -/

section causes
variable {s t : State}

/-- SAFE_STAT and KSTAT aside, registers are as before, and so are the keeper's state, the supply's and every memory. -/
structure SameCauses (s t : State) : Prop where
  regs : RegsBut [R.KPR_SAFE_STAT, R.KPR_KSTAT] s t
  kpr : t.kpr = s.kpr
  pwr : t.pwr = s.pwr
  mem : SameMem s t

theorem SameCauses.refl (s : State) : SameCauses s s := ⟨RegsBut.refl _ s, rfl, rfl, SameMem.refl s⟩
theorem SameCauses.safe {i : Nat} {b : Bool} (h : SameCauses s t) : SameCauses s (t.setFlag R.KPR_SAFE_STAT i b) :=
  ⟨h.regs.setFlag _ _ (by simp), by simp [h.kpr], by simp [h.pwr], by simpa [SameMem] using h.mem⟩
theorem SameCauses.trans {u : State} (h : SameCauses s t) (g : SameCauses t u) : SameCauses s u :=
  ⟨h.regs.trans g.regs, g.kpr.trans h.kpr, g.pwr.trans h.pwr, h.mem.trans g.mem⟩

theorem safeCfg_other (n : Nat) : R.KPR_SAFE_CFG n ∉ [R.KPR_SAFE_STAT, R.KPR_KSTAT] := by
  simp only [R.KPR_SAFE_CFG, R.KPR_SAFE_STAT, R.KPR_KSTAT, List.mem_cons, List.not_mem_nil, or_false]
  omega

theorem SameCauses.up (h : SameCauses s t) (k : Nat) : t.up k = s.up k := State.up_congr (h.regs _ (by decide)) h.pwr k
theorem SameCauses.kprService (h : SameCauses s t) : t.kprService = s.kprService := by
  simp only [State.kprService, h.up, h.kpr]
theorem SameCauses.emgOn (h : SameCauses s t) (n : Nat) : t.emgOn n = s.emgOn n := by
  simp only [State.emgOn, State.emgLatched, State.fld, h.regs _ (safeCfg_other n), h.regs R.KPR_EMG_STAT (by decide)]
theorem SameCauses.tripOn (h : SameCauses s t) (n : Nat) : t.tripOn n = s.tripOn n := by
  simp only [State.tripOn, State.flag, h.regs _ (safeCfg_other n), h.kpr]

end causes

/-- ARMED of a ball is its bit of SAFE_STAT. -/
theorem State.armed_testBit (s : State) {n : Nat} (h : n < 4) : s.armed.testBit n = s.flag R.KPR_SAFE_STAT (8 + n) := by
  rw [State.armed, State.fld, testBit_bits, decide_eq_true (by omega), Bool.true_and]
  rfl

/-! ### The levels brought up to date -/

/-- Puts bits of SAFE_STAT, one for each number of a list, each as `g` has it. -/
def State.putSafe (f : State → Nat → Option Bool) (k : Nat) (s : State) (n : Nat) : State :=
  match f s n with
  | some b => s.setFlag R.KPR_SAFE_STAT (k + n) b
  | none => s

section putSafe
variable {f : State → Nat → Option Bool} {k : Nat}

theorem SameCauses.foldl_putSafe (l : List Nat) (s : State) : SameCauses s (l.foldl (State.putSafe f k) s) := by
  induction l generalizing s with
  | nil => exact .refl s
  | cons n l ih =>
    refine SameCauses.trans ?_ (ih _)
    unfold State.putSafe
    split
    · exact (SameCauses.refl s).safe
    · exact .refl s

/-- A bit that no number of the list puts stands. -/
theorem State.flag_foldl_putSafe_ne {j : Nat} (hj : j < 32) (l : List Nat) (h : ∀ n, n ∈ l → k + n ≠ j) (s : State) :
    (l.foldl (State.putSafe f k) s).flag R.KPR_SAFE_STAT j = s.flag R.KPR_SAFE_STAT j := by
  induction l generalizing s with
  | nil => rfl
  | cons n l ih =>
    refine (ih (fun m hm => h m (List.mem_cons_of_mem _ hm)) _).trans ?_
    unfold State.putSafe
    split
    · exact (s.flag_setFlag _ _ _ _ _ hj).trans (if_neg fun e => h n List.mem_cons_self e.2)
    · rfl

/-- A bit put by its number of the list reads as it was put, where nothing before it changes what is put. -/
theorem State.flag_foldl_putSafe {n : Nat} (hn : k + n < 32) {l : List Nat} (hl : l.Nodup) (hm : n ∈ l) (s : State)
    (hf : ∀ t, SameCauses s t → (∀ j, j < 32 → (∀ m, m ∈ l → k + m ≠ j) → t.flag R.KPR_SAFE_STAT j = s.flag R.KPR_SAFE_STAT j) → f t n = f s n) :
    (l.foldl (State.putSafe f k) s).flag R.KPR_SAFE_STAT (k + n) = (f s n).getD (s.flag R.KPR_SAFE_STAT (k + n)) := by
  obtain ⟨l1, l2, rfl⟩ := List.append_of_mem hm
  have hnd := List.nodup_append.mp hl
  have h1 (m : Nat) (hm : m ∈ l1) : k + m ≠ k + n := fun e => hnd.2.2 m hm n List.mem_cons_self (by omega)
  have h2 (m : Nat) (hm : m ∈ l2) : k + m ≠ k + n := fun e => (List.nodup_cons.mp hnd.2.1).1 ((show m = n by omega) ▸ hm)
  rw [List.foldl_append, List.foldl_cons, State.flag_foldl_putSafe_ne hn l2 h2]
  have hv := hf _ (SameCauses.foldl_putSafe (f := f) (k := k) l1 s) fun j hj hne =>
    State.flag_foldl_putSafe_ne hj l1 (fun m hm => hne m (List.mem_append_left _ hm)) s
  rw [State.putSafe, hv]
  cases f s n with
  | some b => exact (State.flag_setFlag _ _ _ _ _ _ hn).trans (if_pos ⟨rfl, rfl⟩)
  | none => exact State.flag_foldl_putSafe_ne hn l1 h1 s

end putSafe

/-- A ball under an emergency input or a trip loses ARMED. -/
def State.dropOf (s : State) (n : Nat) : Option Bool := if s.emgOn n || s.tripOn n then some false else none

/-- Each ball's ARMED after the drops. -/
def State.safeDrop (s : State) : State := (List.range 4).foldl (State.putSafe State.dropOf 8) s
/-- Each ball's level after the drops. -/
def State.safeLevels (s : State) : State := (List.range 4).foldl (State.putSafe (fun t n => some (t.safeLevel n)) 0) s

theorem State.safeUpdate_eq (s : State) : s.safeUpdate =
    ((s.safeDrop.safeLevels.setFlag R.KPR_KSTAT 0 s.safeDrop.safeLevels.kprService).setFlag R.KPR_KSTAT 1
      s.safeDrop.safeLevels.kpr.trip).setFld R.KPR_KSTAT 7 4 s.safeDrop.safeLevels.kpr.cause := by
  have hdrop : (fun (s : State) n => if s.emgOn n || s.tripOn n then s.setFlag R.KPR_SAFE_STAT (8 + n) false else s) =
      State.putSafe State.dropOf 8 := by
    funext s n
    unfold State.putSafe State.dropOf
    split <;> rfl
  have hlev : (fun (s : State) n => s.setFlag R.KPR_SAFE_STAT n (s.safeLevel n)) = State.putSafe (fun t n => some (t.safeLevel n)) 0 := by
    funext s n
    simp [State.putSafe]
  unfold State.safeUpdate
  rw [hdrop, hlev]
  rfl

section
variable (s : State) {n : Nat}

theorem State.safeDrop_causes : SameCauses s s.safeDrop := SameCauses.foldl_putSafe _ s
theorem State.safeLevels_causes : SameCauses s s.safeLevels := SameCauses.foldl_putSafe _ s

theorem State.safeDrop_armed (hn : n < 4) :
    s.safeDrop.flag R.KPR_SAFE_STAT (8 + n) = (s.flag R.KPR_SAFE_STAT (8 + n) && !(s.emgOn n || s.tripOn n)) := by
  refine (State.flag_foldl_putSafe (by omega) List.nodup_range (List.mem_range.mpr hn) s fun t hc _ => ?_).trans ?_
  · simp only [State.dropOf, hc.emgOn, hc.tripOn]
  · unfold State.dropOf
    cases s.emgOn n <;> cases s.tripOn n <;> simp

theorem State.safeLevels_armed (hn : n < 4) : s.safeLevels.flag R.KPR_SAFE_STAT (8 + n) = s.flag R.KPR_SAFE_STAT (8 + n) :=
  State.flag_foldl_putSafe_ne (by omega) _ (fun m hm => by have := List.mem_range.mp hm; omega) s

/-- The level a ball shows. -/
theorem State.safeLevels_level (hn : n < 4) : s.safeLevels.flag R.KPR_SAFE_STAT n = s.safeLevel n := by
  have h := State.flag_foldl_putSafe (f := fun t n => some (t.safeLevel n)) (k := 0) (n := n) (l := List.range 4) (by omega)
    List.nodup_range (List.mem_range.mpr hn) s fun t hc hbits => ?_
  · rwa [Nat.zero_add] at h
  · have ha := hbits (8 + n) (by omega) fun m hm => by have := List.mem_range.mp hm; omega
    simp only [State.safeLevel, hc.kprService, t.armed_testBit hn, ha, s.armed_testBit hn, hc.emgOn, hc.tripOn, hc.pwr]

theorem State.safeUpdate_flag (i : Nat) : s.safeUpdate.flag R.KPR_SAFE_STAT i = s.safeDrop.safeLevels.flag R.KPR_SAFE_STAT i := by
  rw [State.safeUpdate_eq, State.flag_setFld_reg _ _ _ _ _ (by decide), State.flag, State.reg_setFlag, if_neg (by decide),
    State.reg_setFlag, if_neg (by decide)]
  rfl

/-- ARMED after the levels are brought up to date: a ball under an emergency input or a trip has lost it. -/
theorem State.safeUpdate_armed (hn : n < 4) :
    s.safeUpdate.flag R.KPR_SAFE_STAT (8 + n) = (s.flag R.KPR_SAFE_STAT (8 + n) && !(s.emgOn n || s.tripOn n)) := by
  rw [State.safeUpdate_flag, State.safeLevels_armed _ hn, State.safeDrop_armed s hn]

/-- A ball's level after they are brought up to date: armed, and nothing stands against it. -/
theorem State.safeUpdate_level (hn : n < 4) : s.safeUpdate.flag R.KPR_SAFE_STAT n =
    (s.kprService && s.flag R.KPR_SAFE_STAT (8 + n) && !s.emgOn n && !s.tripOn n && !s.pwr.saving && !s.pwr.clkFault) := by
  have hc := s.safeDrop_causes
  rw [State.safeUpdate_flag, State.safeLevels_level _ hn, State.safeLevel, hc.kprService, State.armed_testBit _ hn,
    State.safeDrop_armed s hn, hc.emgOn, hc.tripOn, hc.pwr]
  cases s.emgOn n <;> cases s.tripOn n <;> simp

theorem State.safeUpdate_causes : SameCauses s s.safeUpdate := by
  have h := s.safeDrop_causes.trans s.safeDrop.safeLevels_causes
  rw [State.safeUpdate_eq]
  exact ⟨((h.regs.setFlag _ _ (by simp)).setFlag _ _ (by simp)).setFld _ _ _ (by simp), by simp [h.kpr], by simp [h.pwr], by simpa [SameMem] using h.mem⟩

/-! ### Arming -/

/-- ARMED set for the balls of a mask with no standing cause. -/
def State.armSet (s : State) (mask : Nat) : State :=
  ((List.range 4).filter fun n => mask.testBit n && s.armCauses n == 0).foldl (State.putSafe (fun _ _ => some true) 8) s

theorem State.armBalls_eq (mask : Nat) : s.armBalls mask = (s.armSet mask).safeUpdate := rfl

theorem State.armSet_causes (mask : Nat) : SameCauses s (s.armSet mask) := SameCauses.foldl_putSafe _ s

theorem State.armSet_armed (mask : Nat) (hn : n < 4) : (s.armSet mask).flag R.KPR_SAFE_STAT (8 + n) =
    (s.flag R.KPR_SAFE_STAT (8 + n) || mask.testBit n && s.armCauses n == 0) := by
  by_cases h : (mask.testBit n && s.armCauses n == 0) = true
  · rw [h, Bool.or_true]
    exact State.flag_foldl_putSafe (by omega) (List.nodup_range.filter _) (List.mem_filter.mpr ⟨List.mem_range.mpr hn, h⟩) s fun _ _ _ => rfl
  · rw [Bool.eq_false_iff.mpr h, Bool.or_false]
    refine State.flag_foldl_putSafe_ne (by omega) _ (fun m hm e => ?_) s
    exact h ((show m = n by omega) ▸ (List.mem_filter.mp hm).2)

/-- No standing cause: no keeper fault, emergency input, trip, save or clock fault. -/
theorem State.armCauses_eq_zero (h : s.armCauses n = 0) :
    s.kprService = true ∧ s.emgOn n = false ∧ s.tripOn n = false ∧ s.pwr.saving = false ∧ s.pwr.clkFault = false := by
  have hb (b : Bool) : b2n b = 0 ↔ b = false := by cases b <;> decide
  simp only [State.armCauses, Nat.add_eq_zero_iff, Nat.mul_eq_zero, OfNat.ofNat_ne_zero, false_or, hb, Bool.or_eq_false_iff,
    Bool.not_eq_false'] at h
  obtain ⟨⟨⟨⟨⟨⟨-, hk⟩, he⟩, ht⟩, hs⟩, hc⟩, -⟩ := h
  exact ⟨hk, he, ht, hs, hc⟩

end

/-- Settles O27: what the levels and ARMED are after they are brought up to date, and after balls are armed. -/
theorem outputEnables : Obligations.OutputEnables := by
  intro s n mask hn
  have hc := s.armSet_causes mask
  refine ⟨fun h => ?_, fun ha hk he ht hs hf => ?_, fun h => ?_, fun he ht => ?_, fun hm h0 => ?_, fun hm ha => ?_, ?_⟩
  · rw [s.safeUpdate_level hn] at h
    simp only [Bool.and_eq_true, Bool.not_eq_true'] at h
    obtain ⟨⟨⟨⟨⟨hk, ha⟩, he⟩, ht⟩, hs⟩, hf⟩ := h
    exact ⟨ha, hk, he, ht, hs, hf⟩
  · simp [s.safeUpdate_level hn, ha, hk, he, ht, hs, hf]
  · obtain h | h := h <;> simp [s.safeUpdate_armed hn, h]
  · simp [s.safeUpdate_armed hn, he, ht]
  · obtain ⟨hk, he, ht, hs, hf⟩ := s.armCauses_eq_zero h0
    simp [State.armBalls_eq, State.safeUpdate_level _ hn, State.safeUpdate_armed _ hn, hc.kprService, hc.emgOn, hc.tripOn, hc.pwr,
      s.armSet_armed mask hn, hm, h0, hk, he, ht, hs, hf]
  · simp [State.armBalls_eq, State.safeUpdate_armed _ hn, s.armSet_armed mask hn, hm, ha]
  · exact hc.regs.trans (s.armSet mask).safeUpdate_causes.regs

/-! ### The setpoint table's halves (R25) -/

section table
variable (s : State)

theorem State.armBalls_causes (mask : Nat) : SameCauses s (s.armBalls mask) :=
  (s.armSet_causes mask).trans (s.armSet mask).safeUpdate_causes

/-- Both halves, the generation, the mirrored chunks and every memory are as before. -/
structure SameHalves (s t : State) : Prop where
  gen : t.kpr.gen = s.kpr.gen
  half0 : t.kpr.half0 = s.kpr.half0
  half1 : t.kpr.half1 = s.kpr.half1
  mirror : t.kpr.mirror = s.kpr.mirror
  mem : SameMem s t

theorem SameHalves.trans {s t u : State} (h : SameHalves s t) (g : SameHalves t u) : SameHalves s u :=
  ⟨g.gen.trans h.gen, g.half0.trans h.half0, g.half1.trans h.half1, g.mirror.trans h.mirror, h.mem.trans g.mem⟩
theorem SameHalves.spHalf {s t : State} (h : SameHalves s t) : t.spHalf = s.spHalf := by
  simp only [State.spHalf, h.gen, h.half0, h.half1]

theorem State.gateCheck_halves : SameHalves s s.gateCheck := by
  unfold State.gateCheck
  dsimp only
  split
  · exact ⟨rfl, rfl, rfl, rfl, .refl s⟩
  · split
    · exact ⟨rfl, rfl, rfl, rfl, .refl s⟩
    next m _ =>
      have h := State.armBalls_causes (s.setKpr fun k => { k with gate := true }) m.toNat
      generalize State.armBalls _ _ = u at h ⊢
      obtain ⟨hy, hd, hs, ht, hi⟩ := h.mem
      exact ⟨(congrArg KprSt.gen h.kpr :), (congrArg KprSt.half0 h.kpr :), (congrArg KprSt.half1 h.kpr :), (congrArg KprSt.mirror h.kpr :), hy, hd, hs, ht, hi⟩

/-- The half of a generation replaced, and the generation put. -/
def State.putHalf (g : Nat) (h : Tab Byte) : State :=
  s.setKpr fun k => if g % 2 = 0 then { k with gen := g, half0 := h } else { k with gen := g, half1 := h }

theorem State.putHalf_gen (g : Nat) (h : Tab Byte) : (s.putHalf g h).kpr.gen = g ∧ (s.putHalf g h).spHalf = h := by
  unfold State.putHalf State.spHalf State.setKpr
  dsimp only
  split <;> simp [*]

theorem State.putHalf_mirror (g : Nat) (h : Tab Byte) : (s.putHalf g h).kpr.mirror = s.kpr.mirror := by
  unfold State.putHalf State.setKpr
  dsimp only
  split <;> rfl

theorem State.swapTo_halves (h : Tab Byte) :
    SameHalves (s.putHalf ((s.kpr.gen + 1) % 2 ^ 32) (wrN h 0 4 ((s.kpr.gen + 1) % 2 ^ 32))) (s.swapTo h) := by
  unfold State.swapTo
  dsimp only
  rw [← State.putHalf]
  refine SameHalves.trans ?_ (State.gateCheck_halves _)
  generalize s.putHalf _ _ = u
  split
  · obtain ⟨p, hp⟩ := State.foldl_putPlk (fun s i => State.plkSend_putPlk s _ _ _ _ _) _ _
    rw [hp]
    exact ⟨rfl, rfl, rfl, rfl, .refl _⟩
  · exact ⟨rfl, rfl, rfl, rfl, .refl _⟩

theorem State.swapTo_gen (h : Tab Byte) : (s.swapTo h).kpr.gen = (s.kpr.gen + 1) % 2 ^ 32 :=
  (s.swapTo_halves h).gen.trans (s.putHalf_gen _ _).1
theorem State.swapTo_spHalf (h : Tab Byte) : (s.swapTo h).spHalf = wrN h 0 4 ((s.kpr.gen + 1) % 2 ^ 32) :=
  (s.swapTo_halves h).spHalf.trans (s.putHalf_gen _ _).2
theorem State.swapTo_mirror (h : Tab Byte) : (s.swapTo h).kpr.mirror = s.kpr.mirror := (s.swapTo_halves h).mirror.trans (s.putHalf_mirror _ _)
theorem State.swapTo_mem (h : Tab Byte) : SameMem s (s.swapTo h) := SameMem.trans (.refl s) (s.swapTo_halves h).mem

end table

/-! ### Entries of a half (R329) -/

section entries
variable {h : Tab Byte} {k : Kind} {from' : List Nat} {n st : Nat}

theorem spState_spSetState (hst : st < 4) : spState (spSetState h n st) n = st := by
  have := rdN_lt h (spEnt n + 8) 4
  rw [spState, spSetState, rdN_wrN]
  omega
theorem spState_spSetState_ne {m : Nat} (hm : m ≠ n) : spState (spSetState h n st) m = spState h m := by
  rw [spState, spSetState, rdN_wrN_out _ _ (by simp only [spEnt]; omega), spState]
theorem rdN_spSetState (m : Nat) : rdN (spSetState h n st) (spEnt m) 8 = rdN h (spEnt m) 8 :=
  rdN_wrN_out _ _ (by simp only [spEnt]; omega)

/-- One entry moved. -/
def spMove1 (from' : List Nat) (to' : Nat) (h : Tab Byte) (n : Nat) : Tab Byte :=
  if from'.contains (spState h n) then spSetState h n to' else h

theorem spState_spMove1_ne {m : Nat} (hm : m ≠ n) : spState (spMove1 from' st h n) m = spState h m := by
  unfold spMove1
  split
  · exact spState_spSetState_ne hm
  · rfl
theorem spState_spMove1 (hst : st < 4) : spState (spMove1 from' st h n) n = if from'.contains (spState h n) then st else spState h n := by
  unfold spMove1
  split
  · exact spState_spSetState hst
  · rfl
theorem rdN_spMove1 (m : Nat) : rdN (spMove1 from' st h n) (spEnt m) 8 = rdN h (spEnt m) 8 := by
  unfold spMove1
  split
  · exact rdN_spSetState m
  · rfl

theorem spState_foldl_spMove1_ne (l : List Nat) (hn : n ∉ l) : spState (l.foldl (spMove1 from' st) h) n = spState h n := by
  induction l generalizing h with
  | nil => rfl
  | cons m l ih =>
    obtain ⟨hm, hl⟩ := not_or.mp (List.mem_cons.not.mp hn)
    exact (ih hl).trans (spState_spMove1_ne hm)
/-- Each entry of the list takes the new state where it was in one of the old ones. -/
theorem spState_foldl_spMove1 (hst : st < 4) {l : List Nat} (hl : l.Nodup) (hn : n ∈ l) :
    spState (l.foldl (spMove1 from' st) h) n = if from'.contains (spState h n) then st else spState h n := by
  induction l generalizing h with
  | nil => cases hn
  | cons m l ih =>
    obtain ⟨hm, hl⟩ := List.nodup_cons.mp hl
    rw [List.foldl_cons]
    by_cases e : n = m
    · subst e
      rw [spState_foldl_spMove1_ne l hm, spState_spMove1 hst]
    · rw [ih hl ((List.mem_cons.mp hn).resolve_left e), spState_spMove1_ne e]
theorem rdN_foldl_spMove1 (l : List Nat) (m : Nat) : rdN (l.foldl (spMove1 from' st) h) (spEnt m) 8 = rdN h (spEnt m) 8 := by
  induction l generalizing h with
  | nil => rfl
  | cons n l ih => exact ih.trans (rdN_spMove1 m)

theorem spRange_nodup (k : Kind) : (spRange k).Nodup := by
  cases k with
  | dsp => exact List.nodup_range
  | est => exact List.nodup_range.map (add_left_injective 256)

theorem spState_spMove (hst : st < 4) (hn : n ∈ spRange k) :
    spState (spMove k from' st h) n = if from'.contains (spState h n) then st else spState h n :=
  spState_foldl_spMove1 hst (spRange_nodup k) hn
theorem spState_spMove_ne (hn : n ∉ spRange k) : spState (spMove k from' st h) n = spState h n := spState_foldl_spMove1_ne _ hn
theorem rdN_spMove (m : Nat) : rdN (spMove k from' st h) (spEnt m) 8 = rdN h (spEnt m) 8 := rdN_foldl_spMove1 _ m

end entries

/-! ### The commands -/

section commands
variable {s : State} {k : Kind}

theorem nextDue_live (hl : s.tableLive = true) : exec (.nextDue k) s =
    .next (if spMove k [1] 2 s.spHalf = s.spHalf then s else s.swapTo (spMove k [1] 2 s.spHalf)) := by
  change execNextDue k s = _
  rw [execNextDue, if_pos hl]
  rfl
theorem entryExpire_live (hl : s.tableLive = true) : exec (.entryExpire k) s =
    .next (if spMove k [1, 2] 3 s.spHalf = s.spHalf then s else s.swapTo (spMove k [1, 2] 3 s.spHalf)) := by
  change execEntryExpire k s = _
  rw [execEntryExpire, if_pos hl]
  rfl
theorem nextDue_dead (hl : s.tableLive = false) : exec (.nextDue k) s = .next s := by
  change execNextDue k s = _
  simp [execNextDue, hl]
theorem entryExpire_dead (hl : s.tableLive = false) : exec (.entryExpire k) s = .next s := by
  change execEntryExpire k s = _
  simp [execEntryExpire, hl]

/-- A plan step that is due swaps in a half, with the values of its step where they are held. -/
theorem planStep_due (hl : s.tableLive = true) (ha : s.acts = true) (hi : rdN s.spHalf 0xC 1 + 1 < rdN s.spHalf 0xD 1) :
    (∃ (u : State) (h : Tab Byte), u = { s with free := u.free } ∧ exec .planStep s = .next (u.swapTo h)) ∧
      ∀ l, s.kpr.steps[rdN s.spHalf 0xC 1 + 1]? = some l → exec .planStep s = .next (s.swapTo (l.foldl
        (fun g e => if e.1 < 512 then spPut g e.1 e.2.1 e.2.2 else g) (wrN s.spHalf 0xC 1 (rdN s.spHalf 0xC 1 + 1)))) := by
  change (∃ u h, _ ∧ execPlanStep s = _) ∧ ∀ l, _ → execPlanStep s = _
  have hc : ¬(!s.tableLive || !s.acts || decide (rdN s.spHalf 0xD 1 ≤ rdN s.spHalf 0xC 1 + 1)) = true := by simp [hl, ha, hi]
  unfold execPlanStep
  dsimp only
  rw [if_neg hc]
  cases hst : s.kpr.steps[rdN s.spHalf 0xC 1 + 1]? with
  | some l => exact ⟨⟨s, _, rfl, rfl⟩, fun l' e => by cases e; rfl⟩
  | none => exact ⟨⟨_, _, rfl, rfl⟩, fun l' e => by cases e⟩

theorem planStep_not_due (h : s.tableLive = false ∨ s.acts = false ∨ rdN s.spHalf 0xD 1 ≤ rdN s.spHalf 0xC 1 + 1) :
    exec .planStep s = .next s := by
  change execPlanStep s = _
  unfold execPlanStep
  dsimp only
  rw [if_pos]
  obtain h | h | h := h <;> simp [h]

end commands

/-- Settles O26: a change goes to the other half; ageing moves states of one kind; a plan step swaps in its values. -/
theorem setpointTable : Obligations.SetpointTable := by
  intro s k h n m l
  refine ⟨⟨s.swapTo_gen h, s.swapTo_spHalf h⟩, fun hl => ⟨nextDue_live hl, entryExpire_live hl⟩, fun hl => ⟨nextDue_dead hl, entryExpire_dead hl⟩,
    fun hn => ⟨?_, ?_⟩, fun _ => ⟨rdN_spMove n, spState_spMove_ne⟩, fun hl ha hm hi => ?_, planStep_not_due⟩
  · rw [spState_spMove (by decide) hn]
    simp
  · rw [spState_spMove (by decide) hn]
    simp
  · subst hm
    obtain ⟨⟨u, g, hu, he⟩, hv⟩ := planStep_due hl ha hi
    have hk : u.kpr = s.kpr := by rw [hu]
    have hmem : SameMem s u := by rw [hu]; exact ⟨rfl, rfl, rfl, rfl, rfl⟩
    exact ⟨⟨_, he, hk ▸ u.swapTo_gen g, hmem.trans (u.swapTo_mem g)⟩, hv l⟩

end Sys2Proof.Machine
end

section
/-! Folds of state changes: what each step keeps, the fold keeps. -/

namespace Sys2Proof.Machine

/-- A reflexive and transitive relation that every step of a fold keeps relates its start and its end. -/
theorem foldl_rel {α β : Type} {P : α → α → Prop} (hr : ∀ s, P s s) (ht : ∀ {s t u}, P s t → P t u → P s u) {f : α → β → α}
    (hf : ∀ s b, P s (f s b)) (l : List β) (s : α) : P s (l.foldl f s) := by
  induction l generalizing s with
  | nil => exact hr s
  | cons b l ih => exact ht (hf s b) (ih _)

/-- A value that no step of a fold changes is unchanged by the fold. -/
theorem foldl_fixed {α β γ : Type} (g : α → γ) {f : α → β → α} (hf : ∀ s b, g (f s b) = g s) (l : List β) (s : α) :
    g (l.foldl f s) = g s :=
  foldl_rel (P := fun s t => g t = g s) (fun _ => rfl) (fun h k => k.trans h) hf l s

/-- The register file replaced. -/
def State.putRegs (s : State) (r : Tab Word) : State := { s with regs := r }

/-- Registers alone differ. -/
def OnlyRegs (s t : State) : Prop := ∃ r, t = s.putRegs r

section onlyRegs
variable {s t : State}

theorem OnlyRegs.refl (s : State) : OnlyRegs s s := ⟨s.regs, rfl⟩
theorem OnlyRegs.trans {u : State} (h : OnlyRegs s t) (g : OnlyRegs t u) : OnlyRegs s u := by
  obtain ⟨x, rfl⟩ := h
  obtain ⟨y, rfl⟩ := g
  exact ⟨y, rfl⟩
theorem OnlyRegs.setReg (a : Nat) (v : Word) (h : OnlyRegs s t) : OnlyRegs s (t.setReg a v) := h.trans ⟨_, rfl⟩
theorem OnlyRegs.setFld (a hi lo x : Nat) (h : OnlyRegs s t) : OnlyRegs s (t.setFld a hi lo x) := h.setReg _ _
theorem OnlyRegs.setFlag (a i : Nat) (b : Bool) (h : OnlyRegs s t) : OnlyRegs s (t.setFlag a i b) := h.setReg _ _
theorem OnlyRegs.incReg (a : Nat) (h : OnlyRegs s t) : OnlyRegs s (t.incReg a) := h.setReg _ _
theorem OnlyRegs.setReg64 (a b n : Nat) (h : OnlyRegs s t) : OnlyRegs s (t.setReg64 a b n) := (h.setReg _ _).setReg _ _
theorem OnlyRegs.ite {c : Prop} [Decidable c] {u v : State} (hu : OnlyRegs s u) (hv : OnlyRegs s v) : OnlyRegs s (if c then u else v) := by
  split
  · exact hu
  · exact hv
theorem OnlyRegs.foldl {β : Type} {f : State → β → State} (hf : ∀ s b, OnlyRegs s (f s b)) (l : List β) (s : State) :
    OnlyRegs s (l.foldl f s) := foldl_rel .refl .trans hf l s
theorem OnlyRegs.setRegs (l : List (Nat × Word)) (h : OnlyRegs s t) : OnlyRegs s (t.setRegs l) :=
  h.trans (.foldl (fun s _ => (OnlyRegs.refl s).setReg _ _) l t)

end onlyRegs

/-! ### Blocks that show a state -/

section shown
variable {s : State} {p : Nat}

theorem State.up_of_shown (h : s.shown p ≠ 0) : s.up (domOf (firstPage p)) = true := by
  by_contra hu
  exact h (by rw [State.shown, if_neg hu])
theorem State.shown_of_running (h : s.running p = true) : s.shown p = 3 := by simpa [State.running] using h
theorem State.up_of_running (h : s.running p = true) : s.up (domOf (firstPage p)) = true :=
  State.up_of_shown (by rw [State.shown_of_running h]; decide)
theorem State.active_of_running (h : s.running p = true) : s.active p = true := by simp [State.active, State.shown_of_running h]
theorem State.running_of_shown (h : s.shown p = 3) : s.running p = true := by simp [State.running, h]
theorem State.not_running_of_shown {n : Nat} (h : s.shown p = n) (hn : n ≠ 3) : s.running p = false := by simp [State.running, h, hn]
theorem State.running_of_not_active (h : s.active p = false) : s.running p = false := by
  rw [← Bool.not_eq_true] at h ⊢
  exact fun hr => h (State.active_of_running hr)

end shown

/-- A domain without a locked island delivers nothing; a locked one is up. -/
theorem State.up_of_locked {s : State} {k : Nat} (h : s.locked k = true) : s.up k = true := by
  rw [State.locked, Bool.and_eq_true] at h
  exact h.1

end Sys2Proof.Machine
end

section
/-! Metering (R517 to R530), pulse outputs (R532 to R545) and GPIO (R546, R547). -/

namespace Sys2Proof.Machine

/-! ### Totals never fall -/

/-- No total falls, and means, time and memories are as before. -/
structure Metered (s t : State) : Prop where
  acc : ∀ k, geti s.mtr.acc k ≤ geti t.mtr.acc k
  means : t.mtr.means = s.mtr.means
  time : t.time = s.time
  mem : SameMem s t

section metered
variable {s t : State}

theorem Metered.refl (s : State) : Metered s s := ⟨fun _ => le_rfl, rfl, rfl, .refl s⟩
theorem Metered.trans {u : State} (h : Metered s t) (g : Metered t u) : Metered s u :=
  ⟨fun k => (h.acc k).trans (g.acc k), g.means.trans h.means, g.time.trans h.time, h.mem.trans g.mem⟩
theorem Metered.foldl {β : Type} {f : State → β → State} (hf : ∀ s b, Metered s (f s b)) (l : List β) (s : State) :
    Metered s (l.foldl f s) := foldl_rel .refl .trans hf l s

/-- What leaves the totals, the means, the time and the memories alone. -/
theorem Metered.same {u : State} (h : Metered s t) (ha : u.mtr.acc = t.mtr.acc) (hm : u.mtr.means = t.mtr.means) (ht : u.time = t.time)
    (hmem : SameMem t u) : Metered s u :=
  h.trans ⟨fun k => by rw [ha], hm, ht, hmem⟩

theorem Metered.irq (p i : Nat) (h : Metered s t) : Metered s (t.irq p i) := h.same rfl rfl rfl (.refl t)
theorem Metered.errc (p c d : Nat) (h : Metered s t) : Metered s (t.errc p c d) := h.same rfl rfl rfl (.refl t)
theorem Metered.setReg (a : Nat) (v : Word) (h : Metered s t) : Metered s (t.setReg a v) := h.same rfl rfl rfl (.refl t)
theorem Metered.setFlag (a i : Nat) (b : Bool) (h : Metered s t) : Metered s (t.setFlag a i b) := h.setReg _ _
theorem Metered.setPulse (o : Nat) (p : PulseOut) (h : Metered s t) : Metered s (t.setPulse o p) := h.same rfl rfl rfl (.refl t)
theorem Metered.emit (k p : Nat) (l : List Word) (h : Metered s t) : Metered s (t.emit k p l) :=
  h.same (by simp) (by simp) (by simp) (by simp [SameMem])
/-- A change of the metering unit that leaves totals and means alone. -/
theorem Metered.setMtr (f : MtrSt → MtrSt) (h : Metered s t) (ha : (f t.mtr).acc = t.mtr.acc) (hm : (f t.mtr).means = t.mtr.means) :
    Metered s (t.setMtr f) := h.same ha hm rfl (.refl t)
theorem Metered.intFlag (c f : Nat) (h : Metered s t) : Metered s (t.intFlag c f) := h.setMtr _ rfl rfl
theorem Metered.meanAdd (k : Nat) (x : Rat) (h : Metered s t) : Metered s (t.meanAdd k x) := h.setMtr _ rfl rfl

theorem geti_addi (t : Tab Int) (i k : Nat) (x : Int) : geti (addi t i x) k = if i = k then geti t k + x else geti t k := by
  rw [geti, addi, Tab.get_set]
  split
  · next h => rw [h]
  · rfl

theorem Metered.accumulate (k : Nat) {e : Int} (he : 0 ≤ e) (h : Metered s t) : Metered s (t.accumulate k e) := by
  refine h.trans ⟨fun j => ?_, rfl, rfl, .refl t⟩
  change _ ≤ geti (addi t.mtr.acc k e) j
  rw [geti_addi]
  split <;> omega

theorem Metered.accSigned (k : Nat) (e : Int) (h : Metered s t) : Metered s (t.accSigned k e) := by
  unfold State.accSigned
  split
  · exact h.accumulate k (by omega)
  split
  · exact h.accumulate _ (by omega)
  · exact h

theorem Metered.addResidue (o : Nat) (x : Int) (h : Metered s t) : Metered s (t.addResidue o x) := by
  have h0 := h.setMtr (fun m => { m with own := addi m.own (128 + o) x }) rfl rfl
  unfold State.addResidue
  dsimp only
  split
  · exact h0.setPulse o _
  split
  · exact (h0.setPulse o _).setReg _ _
  · exact ((h0.setPulse o _).setReg _ _).irq _ _

theorem Metered.loadPulse (o : Nat) (e : Int) (n : Nat) (h : Metered s t) : Metered s (t.loadPulse o e n) := by
  unfold State.loadPulse
  dsimp only
  split
  · exact h.setPulse o _
  · exact (h.addResidue o _).setPulse o _

theorem Metered.feedPulses (lo hi n : Nat) (f : Nat → Int) (h : Metered s t) : Metered s (t.feedPulses lo hi n f) := by
  refine h.trans (Metered.foldl (fun s o => ?_) _ t)
  dsimp only
  split
  · exact (Metered.refl s).loadPulse _ _ _
  · exact .refl s

theorem Metered.ite {c : Prop} [Decidable c] {u v : State} (hu : Metered s u) (hv : Metered s v) : Metered s (if c then u else v) := by
  split
  · exact hu
  · exact hv

theorem Metered.sampleInput (y : Int) (stuck : Bool) (n : Nat) (h : Metered s t) : Metered s (t.sampleInput y stuck n) := by
  unfold State.sampleInput
  extract_lets r bad e on v g u c
  have hu : Metered s u := by
    have hv : Metered s v := h.setMtr _ rfl rfl
    exact .ite (.ite hv ((((hv.setFlag _ _ _).irq _ _).errc _ _ _).emit _ _ _))
      (.ite (.ite (h.setMtr _ rfl rfl) ((h.setFlag _ _ _).setMtr _ rfl rfl)) h)
  clear_value u
  exact .ite ((hu.setFlag _ _ _).irq _ _) hu

theorem Metered.sampleCircuit (y : List Int) (c : Nat) (h : Metered s t) : Metered s (t.sampleCircuit y c) := by
  unfold State.sampleCircuit
  refine .ite h ?_
  extract_lets bad counted squared faulty e tot taken net phases
  have hcounted : Metered s counted := h.setMtr _ rfl rfl
  have hsquared : Metered s squared := hcounted.trans (.foldl (fun s p => ((Metered.refl s).meanAdd _ _).meanAdd _ _) _ _)
  have hfaulty : Metered s faulty := (hsquared.intFlag c 1).setMtr _ rfl rfl
  have htaken : Metered s taken := hsquared.setMtr _ rfl rfl
  have hnet : Metered s net := (htaken.accSigned _ _).meanAdd _ _
  have hphases : Metered s phases := hnet.trans (.foldl (fun s p => ((Metered.refl s).accSigned _ _).meanAdd _ _) _ _)
  clear_value phases faulty
  exact .ite hfaulty (.ite (hphases.intFlag c 2) hphases)

theorem Metered.thermalChan (n : Nat) (h : Metered s t) : Metered s (t.thermalChan n) := by
  unfold State.thermalChan
  extract_lets ch cfg hold q ts tr tOk use qual ranked held p flow pw clip pw' pw'' e taken counted means
  have hranked : Metered s ranked := h.setMtr _ rfl rfl
  have hheld : Metered s held := .ite ((hranked.intFlag _ _).setMtr _ rfl rfl) hranked
  have htaken : Metered s taken := hheld.accSigned _ _
  have hcounted : Metered s counted := htaken.setMtr _ rfl rfl
  have hmeans : Metered s means := (((hcounted.meanAdd _ _).meanAdd _ _).meanAdd _ _).meanAdd _ _
  clear_value means
  exact .ite ((hranked.intFlag _ _).setMtr _ rfl rfl) (.ite (((hmeans.intFlag _ _).setFlag _ _ _).irq _ _) hmeans)

theorem Metered.thermalOne (n : Nat) (h : Metered s t) : Metered s (t.thermalOne n) := by
  unfold State.thermalOne
  exact .ite h (.ite ((h.thermalChan n).irq _ _) (h.thermalChan n))

end metered

/-- A sample never takes from a total and keeps the means. -/
theorem execMtrSample_metered (s : State) (y : List Int) (stuck : BitVec 48) (ha : s.active 176 = true) (hp : s.pwr.saving = false) :
    ∃ t, execMtrSample y stuck s = .next t ∧ Metered s t ∧ t.mtr.lastT = s.time.log := by
  unfold execMtrSample
  rw [if_neg (by simp [ha, hp])]
  extract_lets stuck' u before v after w
  have hw : Metered s w :=
    .feedPulses _ _ _ _ ((Metered.foldl (fun s n => (Metered.refl s).sampleInput _ _ _) _ s).trans
      (.foldl (fun s c => (Metered.refl s).sampleCircuit _ _) _ u))
  clear_value w
  exact ⟨_, rfl, hw.setMtr _ rfl rfl, by simp [hw.time]⟩

/-- A tick of the thermal channels never takes from a total and keeps the newest millisecond. -/
theorem execThermalTick_metered (s : State) (ha : s.active 176 = true) (hp : s.pwr.saving = false) :
    ∃ t, execThermalTick s = .next t ∧ Metered s t ∧ (t.mtr.ring.map (·.ms)).head? = some (s.time.log / tMs) ∧ t.mtr.ring.length ≤ 128 := by
  unfold execThermalTick
  rw [if_neg (by simp [ha, hp])]
  extract_lets before u after w
  have hw : Metered s w := .feedPulses _ _ _ _ (Metered.foldl (fun s n => (Metered.refl s).thermalOne _) _ s)
  clear_value w
  refine ⟨_, rfl, hw.setMtr _ rfl rfl, ?_, ?_⟩
  · simp [State.ringPush, hw.time]
  · simp [State.ringPush]

/-! ### Averages and intervals -/

/-- The published means replaced. -/
def State.putMeans (s : State) (m : Tab Mean) : State := s.setMtr fun x => { x with means := m }
/-- The interval's flags replaced. -/
def State.putFlags (s : State) (f : Tab Nat) : State := s.setMtr fun x => { x with flags := f }

theorem State.foldl_putMeans {β : Type} {f : State → β → State} (hf : ∀ s b, ∃ m, f s b = s.putMeans m) (l : List β) (s : State) :
    ∃ m, l.foldl f s = s.putMeans m :=
  foldl_only (put := State.putMeans) (fun s => ⟨s.mtr.means, rfl⟩) (fun _ _ _ => rfl) hf l s

/-- The end of an averaging period publishes means and starts the sums anew. -/
theorem execAvgPeriodEnd_eq (s : State) (ha : s.active 176 = true) (hp : s.pwr.saving = false) :
    ∃ m, execAvgPeriodEnd s = .next ((s.putMeans m).setMtr fun m => { m with sums := [], sumN := [], worst := [] }) := by
  unfold execAvgPeriodEnd
  rw [if_neg (by simp [ha, hp])]
  obtain ⟨m, hm⟩ := State.foldl_putMeans (β := Nat) (f := fun s ch => if !s.chanOn ch then s else
      let q := getn s.mtr.worst ch
      (List.range (if ch < 8 then 10 else 4)).foldl (fun s f => s.putMean (16 * ch + f) (s.meanOf ch f) q) s)
    (fun s ch => by
      split
      · exact ⟨s.mtr.means, rfl⟩
      · exact State.foldl_putMeans (fun s f => ⟨_, rfl⟩) _ s) (List.range 40) s
  dsimp only at hm ⊢
  rw [hm]
  exact ⟨m, rfl⟩

theorem State.latchChan_onlyRegs (s : State) (x ch : Nat) : OnlyRegs s (s.latchChan x ch) := by
  unfold State.latchChan
  extract_lets m imp ex fl u t v
  have hu : OnlyRegs s u := ((OnlyRegs.refl s).setReg64 _ _ _).setReg64 _ _ _
  have hv : OnlyRegs s v := ((OnlyRegs.refl s).setReg64 _ _ _).setReg64 _ _ _
  exact .ite (.refl s) (.ite ((hu.setReg _ _).setReg _ _) (((hv.setReg _ _).setReg _ _).setReg _ _))

/-- An interval published: its values are latched in registers, its number shown and INT raised. -/
theorem State.publishInterval_eq (s : State) (n x : Nat) :
    ∃ r, s.publishInterval n x = ((s.putRegs r).setReg R.MTR_INT_NO (wd n)).irq mtrPage 8 := by
  obtain ⟨r, hr⟩ := OnlyRegs.foldl (fun s ch => s.latchChan_onlyRegs x ch) (List.range 40) s
  exact ⟨r, congrArg (fun u => (State.setReg u R.MTR_INT_NO (wd n)).irq mtrPage 8) hr⟩

/-- PARTIAL set for every channel changes flags alone. -/
theorem State.markPartial_putFlags (s : State) : ∃ f, s.markPartial = s.putFlags f :=
  foldl_only (put := State.putFlags) (fun s => ⟨s.mtr.flags, rfl⟩) (fun _ _ _ => rfl) (fun _ _ => ⟨_, rfl⟩) _ s

/-- An interval that ends is published where a sample was taken, and the next one starts from zero. -/
theorem execIntervalEnd_eq (s : State) (hu : s.up 3 = true) (hp : s.pwr.saving = false) : ∃ f x,
    execIntervalEnd s = .next (((if s.mtr.sampled then s.publishInterval (secOf s.time.log / max 1 (s.regN R.MTR_INT_S)) x else s).newInterval).putFlags f) := by
  unfold execIntervalEnd
  rw [if_neg (by simp [hu, hp])]
  extract_lets no extra u v
  split
  · exact ⟨[], extra, rfl⟩
  · obtain ⟨f, hf⟩ := v.markPartial_putFlags
    exact ⟨f, extra, congrArg Host.Outcome.next hf⟩

/-! ### Pulses -/

/-- A pulse starts: the output rises, a weight leaves its residue and COUNT counts. -/
theorem State.pulseStart_weight (s : State) (o : Nat) (hh : (s.pulse o).high = false) (hg : (s.pulse o).gap = 0) (ha : s.acts = true)
    (hc : s.fld (R.PLS_CFG o) 1 0 ≠ 0) (hw : ((s.regN (R.PLS_WEIGHT o) * 2 ^ 32 : Nat) : Int) ≤ (s.pulse o).res) :
    s.pulseStart o = (s.setPulse o { s.pulse o with
      high := true, res := (s.pulse o).res - ((s.regN (R.PLS_WEIGHT o) * 2 ^ 32 : Nat) : Int) }).incReg (R.PLS_COUNT o) := by
  unfold State.pulseStart
  dsimp only
  rw [if_neg (by simp [hh]), if_neg (by simp [hg]), if_pos (by simpa [ha, hc] using hw)]

@[simp] theorem State.pulse_setPulse_self (s : State) (o : Nat) (p : PulseOut) : (s.setPulse o p).pulse o = p := by
  rw [State.pulse_setPulse, if_pos rfl]

/-! ### A level change of a ball -/

/-- A level stored and an edge counted. -/
theorem State.gpioEdge_spec (s : State) (g : Fin 16) (lv : Bool) :
    let t := (s.setFlag R.GPIO_IN g.val lv).incReg (R.GPIO_EDGE g.val)
    t.flag R.GPIO_IN g.val = lv ∧ t.reg (R.GPIO_EDGE g.val) = s.reg (R.GPIO_EDGE g.val) + 1 ∧
      RegsBut [R.GPIO_IN, R.GPIO_EDGE g.val] s t ∧ t.pages = s.pages ∧ SameMem s t := by
  have hne : R.GPIO_IN ≠ R.GPIO_EDGE g.val := by simp only [R.GPIO_IN, R.GPIO_EDGE]; omega
  refine ⟨?_, ?_, ((RegsBut.refl _ s).setFlag _ _ (by simp)).incReg (by simp), rfl, .refl s⟩
  · rw [State.flag, State.reg_incReg, if_neg hne]
    exact (s.flag_setFlag _ _ _ _ _ (by omega)).trans (if_pos ⟨rfl, rfl⟩)
  · rw [State.reg_incReg, if_pos rfl, State.reg_setFlag, if_neg hne.symm]

/-- A changed level of a ball is stored and its edge counted; an input ball raises IN_CHG. -/
theorem execGpioInChg_edge (s : State) (g : Fin 16) (lv : Bool) (hr : s.running 224 = true) (hl : s.locked 8 = true)
    (h : s.flag R.GPIO_IN g.val ≠ lv) : execGpioInChg g lv s = .next (
      let t := (s.setFlag R.GPIO_IN g.val lv).incReg (R.GPIO_EDGE g.val)
      if s.flag R.GPIO_DIR g.val then t else t.irq gpioPage 8) := by
  have hu : s.up 3 = true := State.up_of_running hr
  have hdir : ((s.setFlag R.GPIO_IN g.val lv).incReg (R.GPIO_EDGE g.val)).flag R.GPIO_DIR g.val = s.flag R.GPIO_DIR g.val := by
    rw [State.flag, State.reg_incReg, if_neg (by simp only [R.GPIO_DIR, R.GPIO_EDGE]; omega), State.reg_setFlag, if_neg (by decide)]
    rfl
  unfold execGpioInChg
  dsimp only
  rw [if_neg (by simp [hu, hl, h]), State.running_setFlag _ _ _ (by decide), if_pos hr, hdir]

/-! ### The statement -/

/-- Settles O48: totals grow by what a sample or a tick adds, and each of the unit's other events changes what its rule names. -/
theorem meteringAndPulses : Obligations.MeteringAndPulses := by
  intro s who y stuck sel o g lv k
  refine ⟨fun ha hp => ⟨?_, ?_, ?_⟩, fun ha => ?_, fun hu hp => ⟨fun hs => ?_, fun hs => ?_⟩, fun h => ?_, fun hr hp => ?_,
    fun hh hg ha hc hw => ?_, fun h => ?_, fun h => ?_, fun h => ?_, fun h => ?_, fun hr hl h => ?_, fun h => ?_⟩
  · obtain ⟨t, ht, hm, hlast⟩ := execMtrSample_metered s y stuck ha hp
    exact ⟨t, ht, hm.acc k, hlast, hm.means, hm.mem⟩
  · obtain ⟨t, ht, hm, hhead, hlen⟩ := execThermalTick_metered s ha hp
    exact ⟨t, ht, hm.acc k, hhead, hlen, hm.mem⟩
  · obtain ⟨m, hm⟩ := execAvgPeriodEnd_eq s ha hp
    exact ⟨_, hm, rfl, rfl, rfl, rfl, rfl, .refl s⟩
  · refine ⟨?_, ?_, ?_⟩
    · exact if_pos (by simp [ha])
    · exact if_pos (by simp [ha])
    · exact if_pos (by simp [ha])
  · obtain ⟨f, x, ht⟩ := execIntervalEnd_eq s hu hp
    obtain ⟨r, hr⟩ := s.publishInterval_eq (secOf s.time.log / max 1 (s.regN R.MTR_INT_S)) x
    rw [if_pos hs, hr] at ht
    refine ⟨_, ht, ?_, rfl, rfl, ?_, .refl s⟩
    · exact State.reg_setReg_self _ _ _
    · exact State.bit_irqStat_irq _ _ (by decide)
  · obtain ⟨f, x, ht⟩ := execIntervalEnd_eq s hu hp
    rw [if_neg (by simp [hs])] at ht
    exact ⟨_, ht, rfl, rfl, rfl, rfl, .refl s⟩
  · refine ⟨_, congrArg Host.Outcome.next (s.rgate_may _ h), rfl, ?_, rfl, rfl, .refl s⟩
    simp [State.readTotalLo, State.totalHi, Tab.get_set]
  · change execPulseTick s = _
    rw [execPulseTick, if_neg (by simp [State.active_of_running hr, hp]), if_neg (by simp [hr])]
  · rw [s.pulseStart_weight o hh hg ha hc hw]
    exact ⟨by simp, by rw [State.reg_incReg, if_pos rfl, State.reg_setPulse]⟩
  · exact if_pos (by simpa using h)
  · refine ⟨_, congrArg Host.Outcome.next (if_pos h), by simp, fun m hm => ?_, rfl, .refl s⟩
    rw [State.pulse_setPulse, if_neg hm]
  · exact congrArg Host.Outcome.next (if_neg (by simp [h]))
  · refine ⟨_, congrArg Host.Outcome.next (s.rgate_may _ h), rfl, ?_, by simp, rfl, .refl s⟩
    simp [State.resHi]
  · obtain ⟨hin, hedge, hbut, hpages, hmem⟩ := s.gpioEdge_spec g lv
    refine ⟨_, execGpioInChg_edge s g lv hr hl h, ?_⟩
    dsimp only
    split
    · next hd => exact ⟨hin, hedge, by simp [hd], fun _ => hpages, hbut, hmem⟩
    · next hd => exact ⟨hin, hedge, fun _ => State.bit_irqStat_irq _ _ (by decide), (absurd · hd), hbut, hmem⟩
  · exact if_pos (by rcases h with h | h <;> simp [h])

end Sys2Proof.Machine
end

section
/-! CAN FD channels: error confinement (R464, R470, R477, R478, R481), filtering (R468 to R472) and the receive window (R471). -/

namespace Sys2Proof.Machine

/-! ### Confinement -/

/-- The counters and the confinement state put into ERR. -/
def State.putErr (s : State) (n tec rxc st : Nat) : State :=
  ((s.setFld (R.CAN_ERR n) 8 0 tec).setFld (R.CAN_ERR n) 24 16 rxc).setFld (R.CAN_ERR n) 26 25 st

theorem State.putErr_fld (s : State) (n tec rxc st : Nat) (ht : tec < 512) (hr : rxc < 512) (hs : st < 4) :
    (s.putErr n tec rxc st).fld (R.CAN_ERR n) 8 0 = tec ∧ (s.putErr n tec rxc st).fld (R.CAN_ERR n) 24 16 = rxc ∧
      (s.putErr n tec rxc st).canSt n = st := by
  unfold State.putErr
  refine ⟨?_, ?_, ?_⟩
  · rw [State.fld_setFld_ne _ _ _ (by omega) (by omega), State.fld_setFld_ne _ _ _ (by omega) (by omega),
      State.fld_setFld _ _ _ _ (by omega) (by omega)]
    exact Nat.mod_eq_of_lt ht
  · rw [State.fld_setFld_ne _ _ _ (by omega) (by omega), State.fld_setFld _ _ _ _ (by omega) (by omega)]
    exact Nat.mod_eq_of_lt hr
  · rw [State.canSt, State.fld_setFld _ _ _ _ (by omega) (by omega)]
    exact Nat.mod_eq_of_lt hs

/-- CAN_ERR is none of the recorder's counters, nor BUSOFFS or REC_CNT. -/
theorem canErr_other (n : Nat) : R.CAN_ERR n ∉ evrRegs ∧ R.CAN_ERR n ≠ R.CAN_BUSOFFS n ∧ R.CAN_ERR n ≠ R.CAN_REC_CNT n := by
  simp only [evrRegs, R.CAN_ERR, R.CAN_BUSOFFS, R.CAN_REC_CNT, R.EVR_LOST, R.EVR_BAD_REC, List.mem_cons, List.not_mem_nil, or_false]
  omega

/-- The state that counters give: bus off, passive or active. -/
def confineSt (tec rxc : Nat) : Nat := if 255 < tec then 2 else if 127 < tec ∨ 127 < rxc then 1 else 0

theorem confineSt_lt (tec rxc : Nat) : confineSt tec rxc < 3 := by
  unfold confineSt
  split
  · omega
  split <;> omega

/-- Confinement leaves in ERR the counters put, and the state they give unless AUTO_REC begins a recovery. -/
theorem State.confine_err (s : State) (n tec rxc : Nat) :
    let t := s.putErr n (min tec 511) (min rxc 511) (confineSt (min tec 511) (min rxc 511))
    (s.confine n tec rxc).reg (R.CAN_ERR n) = t.reg (R.CAN_ERR n) ∨
      s.flag (R.CAN_MODE n) 3 = true ∧ (s.confine n tec rxc).reg (R.CAN_ERR n) = (t.setFld (R.CAN_ERR n) 26 25 3).reg (R.CAN_ERR n) := by
  obtain ⟨hevr, hoff, hrec⟩ := canErr_other n
  have hmode : R.CAN_MODE n ∉ evrRegs ∧ R.CAN_MODE n ≠ R.CAN_BUSOFFS n ∧ R.CAN_MODE n ≠ R.CAN_ERR n := by
    simp only [evrRegs, R.CAN_MODE, R.CAN_BUSOFFS, R.CAN_ERR, R.EVR_LOST, R.EVR_BAD_REC, List.mem_cons, List.not_mem_nil, or_false]
    omega
  intro t
  unfold State.confine
  extract_lets old tec' rxc' st t' u
  have hu : u.reg (R.CAN_ERR n) = t.reg (R.CAN_ERR n) := by
    rw [State.reg_emitSev _ _ _ _ _ hevr, State.reg_errc, State.reg_irq, State.reg_incReg, if_neg hoff]
    rfl
  have hm : u.flag (R.CAN_MODE n) 3 = s.flag (R.CAN_MODE n) 3 := by
    rw [State.flag, State.reg_emitSev _ _ _ _ _ hmode.1, State.reg_errc, State.reg_irq, State.reg_incReg, if_neg hmode.2.1]
    iterate 3 rw [State.reg_setFld, if_neg hmode.2.2]
    rfl
  change (ite _ t _).reg _ = t.reg _ ∨ _ ∧ (ite _ t _).reg _ = _
  split
  · exact .inl rfl
  split
  · split
    · next hf =>
      refine .inr ⟨hm ▸ hf, ?_⟩
      rw [State.reg_setReg, if_neg hrec, State.reg_setFld, if_pos rfl, hu, State.reg_setFld, if_pos rfl]
    · exact .inl hu
  split
  · exact .inl (State.reg_emitSev _ _ _ _ _ hevr)
  · exact .inl rfl

/-- The counters that confinement shows, and the state it gives where AUTO_REC is not set. -/
theorem State.confine_spec (s : State) (n tec rxc : Nat) :
    (s.confine n tec rxc).fld (R.CAN_ERR n) 8 0 = min tec 511 ∧ (s.confine n tec rxc).fld (R.CAN_ERR n) 24 16 = min rxc 511 ∧
      (s.flag (R.CAN_MODE n) 3 = false → (s.confine n tec rxc).canSt n = confineSt tec rxc) := by
  have hst := confineSt_lt (min tec 511) (min rxc 511)
  have hsame : confineSt (min tec 511) (min rxc 511) = confineSt tec rxc := by
    simp [confineSt]
  obtain ⟨htec, hrxc, hs⟩ := s.putErr_fld n (min tec 511) (min rxc 511) _ (by omega) (by omega) (by omega : confineSt (min tec 511) (min rxc 511) < 4)
  rcases s.confine_err n tec rxc with h | ⟨hauto, h⟩
  · exact ⟨(congrArg (bits · 8 0) h).trans htec, (congrArg (bits · 24 16) h).trans hrxc,
      fun _ => ((congrArg (bits · 26 25) h).trans hs).trans hsame⟩
  · refine ⟨(congrArg (bits · 8 0) h).trans ((State.fld_setFld_ne _ _ _ (by omega) (by omega)).trans htec),
      (congrArg (bits · 24 16) h).trans ((State.fld_setFld_ne _ _ _ (by omega) (by omega)).trans hrxc), fun hm => ?_⟩
    rw [hauto] at hm
    exact absurd hm (by decide)

@[simp] theorem State.canCh_setCan_self (s : State) (n : Nat) (c : CanCh) : (s.setCan n c).canCh n = c := by
  rw [State.canCh_setCan, if_pos rfl]

theorem State.canRecover_busOff (s : State) (n : Nat) (h : s.canSt n = 2) :
    (s.canRecover n).canSt n = 3 ∧ (s.canRecover n).reg (R.CAN_REC_CNT n) = 0 ∧
      RegsBut [R.CAN_ERR n, R.CAN_REC_CNT n] s (s.canRecover n) ∧ SameMem s (s.canRecover n) := by
  rw [State.canRecover, if_pos h]
  refine ⟨?_, State.reg_setReg_self _ _ _, ((RegsBut.refl _ s).setFld _ _ _ (by simp)).setReg _ (by simp), .refl s⟩
  rw [State.canSt, State.fld_setReg, if_neg (canErr_other n).2.2, State.fld_setFld _ _ _ _ (by omega) (by omega)]
  rfl

/-- What decides whether a side is restricted. -/
theorem State.canRestricted_congr {s t : State} (h0 : t.reg R.PLK_PAIR_STAT = s.reg R.PLK_PAIR_STAT)
    (hr : t.reg R.PWR_DOM_STAT = s.reg R.PWR_DOM_STAT) (hp : t.pwr = s.pwr) (hb : t.blks = s.blks) (hk : t.plk = s.plk) :
    t.canRestricted = s.canRestricted := by
  rw [State.canRestricted, State.acts_congr h0 hr hp hb hk, State.role_congr h0, hk]
  rfl

/-- A channel's registers are neither the pair's status nor the domains'. -/
theorem canErr_pair (n : Nat) : R.PLK_PAIR_STAT ≠ R.CAN_ERR n ∧ R.PWR_DOM_STAT ≠ R.CAN_ERR n ∧ R.CAN_MODE n ≠ R.CAN_ERR n := by
  simp only [R.PLK_PAIR_STAT, R.PWR_DOM_STAT, R.CAN_ERR, R.CAN_MODE]
  omega

/-- The code of the last error decides nothing of whether the counters move. -/
theorem State.countsErr_code (s : State) (n c : Nat) : (s.setFld (R.CAN_ERR n) 31 28 c).countsErr n = s.countsErr n := by
  obtain ⟨hpair, hdom, hmode⟩ := canErr_pair n
  have hrest : (s.setFld (R.CAN_ERR n) 31 28 c).canRestricted = s.canRestricted :=
    State.canRestricted_congr ((s.reg_setFld _ _ _ _ _).trans (if_neg hpair)) ((s.reg_setFld _ _ _ _ _).trans (if_neg hdom)) rfl rfl rfl
  simp only [State.countsErr, hrest, State.flag_setFld_reg _ _ _ _ _ hmode, State.canSt, State.fld_setFld_ne _ _ _ (by omega : 26 < 32) (by omega : 26 < 28 ∨ 31 < 25)]
  rfl

/-- Settles O53: the confinement state follows the counters put, and each event of a channel's errors puts what its rule names. -/
theorem canErrorConfinement : Obligations.CanErrorConfinement := by
  intro s who n f code up rup tec rxc m
  obtain ⟨htec, hrxc, hst⟩ := s.confine_spec n tec rxc
  refine ⟨⟨⟨htec, hrxc⟩, hst⟩, fun ha hl hc hk => ?_, fun ha hl => ?_, fun ha hl hs => ?_, fun h ha hs => ?_, fun hm hlate hlim => ?_⟩
  · change execCanBusError n code up rup s = _
    unfold execCanBusError
    dsimp only
    rw [if_neg (by simp [ha, hl]), if_neg hc, if_pos ((s.countsErr_code _ _).trans hk), State.fld_setFld_ne _ _ _ (by omega) (by omega),
      State.fld_setFld_ne _ _ _ (by omega) (by omega)]
  · change execCanBusError n 0 up rup s = _
    unfold execCanBusError
    dsimp only
    rw [if_neg (by simp [ha, hl]), if_pos rfl]
  · exact if_pos (by simp [ha, hl, hs])
  · refine ⟨_, congrArg Host.Outcome.next ((s.gate_may _ h).trans (if_pos ha)), ?_⟩
    exact (s.answer 0).canRecover_busOff n hs
  · refine ⟨((s.setCan n.val { s.canCh n.val with mbox := (s.canCh n.val).mbox.set (fun _ => none) f.val (some { m with late := true }) }).irq
      (canPage n.val) 15), ?_, ?_, State.bit_irqStat_irq _ _ (by decide), rfl, .refl s⟩
    · change execFilterTimeout n f s = _
      simp only [execFilterTimeout, hm]
      exact if_pos ⟨hlim, hlate⟩
    · simp [Tab.get_set]

/-! ### Filtering on a restricted side -/

/-- The counters of received and dropped frames are no register that filtering or the confinement reads. -/
theorem canCount_other (n k : Nat) (hk : k < 16) {a : Nat} (ha : a = R.CAN_RX_FRAMES n ∨ a = R.CAN_RX_DROP n) :
    R.CAN_FLT_CFG n k ≠ a ∧ R.CAN_FLT_ID n k ≠ a ∧ R.CAN_FLT_MASK n k ≠ a := by
  simp only [R.CAN_FLT_CFG, R.CAN_FLT_ID, R.CAN_FLT_MASK, R.CAN_RX_FRAMES, R.CAN_RX_DROP] at *
  omega

/-- A counted frame meets the same filters. -/
theorem State.filterHit_incReg (s : State) (n k : Nat) (hk : k < 16) (f : CanFrame) :
    (s.incReg (R.CAN_RX_FRAMES n)).filterHit n k f = s.filterHit n k f := by
  obtain ⟨hcfg, hid, hmask⟩ := canCount_other n k hk (.inl rfl)
  simp only [State.filterHit, State.flag, State.reg_incReg, if_neg hcfg, if_neg hid, if_neg hmask]

/-- A frame received on a restricted side is counted and filtered, and no error counter moves. -/
theorem execCanRxFrame_restricted (s : State) (n : Fin 12) (f : CanFrame) (ha : s.active (canPage n.val) = true) (hl : s.locked 8 = true)
    (hst : s.canSt n.val < 2) (hr : s.canRestricted = true) :
    execCanRxFrame n f s = .next ((s.incReg (R.CAN_RX_FRAMES n.val)).canTake n.val f) := by
  have hne : R.PLK_PAIR_STAT ≠ R.CAN_RX_FRAMES n.val ∧ R.PWR_DOM_STAT ≠ R.CAN_RX_FRAMES n.val := by
    simp only [R.PLK_PAIR_STAT, R.PWR_DOM_STAT, R.CAN_RX_FRAMES]
    omega
  have hcount : (s.incReg (R.CAN_RX_FRAMES n.val)).canRestricted = true :=
    (State.canRestricted_congr ((s.reg_incReg _ _).trans (if_neg hne.1)) ((s.reg_incReg _ _).trans (if_neg hne.2)) rfl rfl rfl).trans hr
  unfold execCanRxFrame
  dsimp only
  rw [if_neg (by simp [ha, hl]; omega), if_neg (by simp [State.countsErr, hcount])]

/-- Settles O50: on a restricted side a frame is counted, and goes to its filter's mailbox or is dropped. -/
theorem canFrameFiltered : Obligations.CanFrameFiltered := by
  intro s n f k ha hl hst hr
  have hfind : (List.range 16).find? (fun k => (s.incReg (R.CAN_RX_FRAMES n.val)).filterHit n.val k f) =
      (List.range 16).find? fun k => s.filterHit n.val k f := List.find?_congr fun k hk => s.filterHit_incReg n.val k (List.mem_range.mp hk) f
  have hdrop : R.CAN_RX_DROP n.val ≠ R.CAN_RX_FRAMES n.val := by simp only [R.CAN_RX_DROP, R.CAN_RX_FRAMES]; omega
  have hexec : exec (.canRxFrame n f) s = _ := execCanRxFrame_restricted s n f ha hl hst hr
  refine ⟨fun hrtr hk hfifo => ?_, fun h => ?_⟩
  · have hk16 : k < 16 := by simpa using List.mem_of_find?_eq_some hk
    have hflag : (s.incReg (R.CAN_RX_FRAMES n.val)).flag (R.CAN_FLT_CFG n.val k) 2 = false := by
      rw [State.flag, State.reg_incReg, if_neg (canCount_other n.val k hk16 (.inl rfl)).1]
      exact hfifo
    rw [State.canTake, if_neg (by simp [hrtr]), hfind, hk] at hexec
    dsimp only at hexec
    rw [State.flag_setCan, hflag, if_neg (by decide)] at hexec
    refine ⟨_, hexec, ?_, ?_, ?_, ((RegsBut.refl _ s).incReg (a := R.CAN_RX_FRAMES n.val) (by simp)).same (by simp), .refl s⟩
    · simp [Tab.get_set]
    · simp
    · simp [State.reg_incReg]
  · have htake : (s.incReg (R.CAN_RX_FRAMES n.val)).canTake n.val f = (s.incReg (R.CAN_RX_FRAMES n.val)).incReg (R.CAN_RX_DROP n.val) := by
      unfold State.canTake
      split
      · rfl
      · next hrtr =>
        obtain ⟨hnone, hall⟩ := h.resolve_left hrtr
        rw [hfind, hnone]
        exact if_neg (by simp [State.flag, State.reg_incReg, ← hall])
    rw [htake] at hexec
    refine ⟨_, hexec, ?_, by simp, ((RegsBut.refl _ s).incReg (by simp)).incReg (by simp), .refl s⟩
    rw [State.reg_incReg, if_pos rfl, State.reg_incReg, if_neg hdrop]

/-! ### The receive window -/

/-- Settles O51: a window read latches the oldest entry, and the read of its release word takes it out. -/
theorem canFifoWindow : Obligations.CanFifoWindow := by
  intro s who n i m rest hf
  refine ⟨fun h ho => ?_, fun h => ?_⟩
  · have hi : (BitVec.ofNat 8 i.val).toNat % 20 = i.val := by
      rw [BitVec.toNat_ofNat]
      omega
    refine ⟨_, congrArg Host.Outcome.next (congrArg (fun o => s.rgate who (pageBase (canPage n.val) + (0x940 + 4 * o))
      fun s => s.winRead n.val (0x940 + 4 * o)) hi), ?_⟩
    rw [s.rgate_may _ h]
    simp only [State.winRead, hf, if_neg ho]
    exact ⟨rfl, by simp, rfl, .refl s⟩
  · refine ⟨_, rfl, ?_⟩
    simp only [hf]
    rw [s.rgate_may _ h]
    simp only [State.winRead, hf, if_true]
    have hcan : RegsBut [R.CAN_RXF_LEVEL n.val] s (s.setCan n.val { s.canCh n.val with fifo := rest, latched := false }) :=
      (RegsBut.refl _ s).same (by simp)
    exact ⟨rfl, by simp, by simp, (hcan.setReg _ (by simp)).answer _, .refl s⟩

end Sys2Proof.Machine
end

section
/-! The pair's roles and epochs (R548 to R552, R567 to R583). -/

namespace Sys2Proof.Machine

/-! ### Epochs -/

/-- A running maximum is at least its start and every value met. -/
theorem le_foldl_max (f : Nat → Nat) (l : List Nat) (m : Nat) :
    m ≤ l.foldl (fun m k => max m (f k)) m ∧ ∀ k, k ∈ l → f k ≤ l.foldl (fun m k => max m (f k)) m := by
  induction l generalizing m with
  | nil => simp
  | cons k l ih =>
    obtain ⟨hm, hl⟩ := ih (max m (f k))
    refine ⟨(le_max_left _ _).trans hm, fun j hj => ?_⟩
    rcases List.mem_cons.mp hj with rfl | hj
    · exact (le_max_right _ _).trans hm
    · exact hl j hj

/-- Every epoch that the side knows is at most the greatest. -/
theorem State.le_topEpoch (s : State) : s.epoch ≤ s.topEpoch ∧ s.regN R.PLK_PARTNER_EPOCH ≤ s.topEpoch ∧ s.plk.epochNv ≤ s.topEpoch ∧
    ∀ k, k < 1024 → s.regN (R.STB_EPOCH k) ≤ s.topEpoch := by
  obtain ⟨hm, hl⟩ := le_foldl_max (fun k => s.regN (R.STB_EPOCH k)) allStalls (max (max s.epoch (s.regN R.PLK_PARTNER_EPOCH)) s.plk.epochNv)
  change _ ≤ s.topEpoch at hm
  simp only [max_le_iff] at hm
  exact ⟨hm.1.1, hm.1.2, hm.2, fun k hk => hl k (List.mem_range.mpr hk)⟩

/-- The next epoch is one or two above the greatest known, by its parity. -/
theorem State.nextEpoch_spec (s : State) : s.topEpoch < s.nextEpoch ∧ s.nextEpoch % 2 = b2n s.sideB := by
  have hb : b2n s.sideB = 0 ∨ b2n s.sideB = 1 := by cases s.sideB <;> simp [b2n]
  unfold State.nextEpoch
  dsimp only
  split <;> omega

/-! ### Taking a role -/

/-- PAIR_STAT is no counter of the recorder, nor the domains' status. -/
theorem pairStat_other : R.PLK_PAIR_STAT ∉ evrRegs ∧ R.PWR_DOM_STAT ∉ evrRegs ∧ R.PWR_DOM_STAT ≠ R.PLK_PAIR_STAT := by decide

/-- A side whose role is neither PRIMARY nor UNPAIRED does not act. -/
theorem State.not_acts {s : State} (h1 : s.role ≠ 1) (h5 : s.role ≠ 5) : s.acts = false := by simp [State.acts, h1, h5]

/-- What decides whether a side acts. -/
theorem State.acts_of {s t : State} (hr : t.role = s.role) (hd : t.reg R.PWR_DOM_STAT = s.reg R.PWR_DOM_STAT) (hp : t.pwr = s.pwr)
    (hb : t.blks = s.blks) (hst : t.plk.standTo = s.plk.standTo) : t.acts = s.acts := by
  simp only [State.acts, State.active, State.shown_congr hd hp hb, hr, hst]

/-- A bit of PAIR_STAT above ROLE changes neither the role nor whether the side acts. -/
theorem State.role_setPairBit (s : State) {i : Nat} (b : Bool) (h : 2 < i) : (s.setFlag R.PLK_PAIR_STAT i b).role = s.role :=
  s.fld_setFlag_ne _ b (by omega) (by omega)
theorem State.acts_setPairBit (s : State) {i : Nat} (b : Bool) (h : 2 < i) : (s.setFlag R.PLK_PAIR_STAT i b).acts = s.acts :=
  State.acts_of (s.role_setPairBit b h) ((s.reg_setFlag _ _ _ _).trans (if_neg pairStat_other.2.2)) (by simp) (by simp) (by simp)

/-- A role shown, raised as a cause and recorded. -/
def State.showRole (s : State) (r : Nat) : State := ((s.setFld R.PLK_PAIR_STAT 2 0 r).irq plkPage 8).emit evRole plkPage [wd s.role, wd r]

theorem State.showRole_role (s : State) {r : Nat} (h : r < 8) : (s.showRole r).role = r := by
  rw [State.role, State.fld, State.showRole, State.reg_emit _ _ _ _ pairStat_other.1, State.reg_irq]
  exact (State.fld_setFld _ _ _ _ (by omega) (by omega)).trans (Nat.mod_eq_of_lt h)
theorem State.showRole_plk (s : State) (r : Nat) : (s.showRole r).plk = s.plk := by simp [State.showRole]
theorem State.showRole_mem (s : State) (r : Nat) : SameMem s (s.showRole r) := by simp [State.showRole, SameMem]
theorem State.showRole_regs (s : State) (r : Nat) : RegsBut ([R.PLK_PAIR_STAT] ++ evrRegs) s (s.showRole r) :=
  (((RegsBut.refl _ s).setFld _ _ _ (by simp)).irq _ _).emit _ _ _ (by simp +contextual)
theorem State.showRole_active (s : State) (r p : Nat) : (s.showRole r).active p = s.active p := by
  have hdom : (s.showRole r).reg R.PWR_DOM_STAT = s.reg R.PWR_DOM_STAT := s.showRole_regs r _ (by decide)
  simp only [State.active, State.shown_congr hdom (by simp [State.showRole]) (by simp [State.showRole])]

/-- A side that does not act and takes a role in which it does not act shows it, and that is all. -/
theorem State.setRole_quiet (s : State) {r : Nat} (h : r < 8) (h1 : r ≠ 1) (h5 : r ≠ 5) (ha : s.acts = false) :
    s.setRole r = if s.role = r then s else s.showRole r := by
  have hafter : (s.showRole r).acts = false := State.not_acts (by rwa [s.showRole_role h]) (by rwa [s.showRole_role h])
  unfold State.setRole
  split
  · rfl
  · change (if s.acts && !(s.showRole r).acts then _ else if !s.acts && (s.showRole r).acts then _ else s.showRole r) = _
    simp [ha, hafter]

/-- What taking a role leaves: the role, and all but what it shows and the retained memory. -/
structure RoleTaken (s t : State) (r : Nat) : Prop where
  role : t.role = r
  plk : t.plk = s.plk
  regs : RegsBut ([R.PLK_PAIR_STAT, R.LGE_IMG_STAT] ++ evrRegs) s t
  yard : t.yard = s.yard
  stallMem : t.stallMem = s.stallMem

/-- A quiet change of role keeps the retained memory as well. -/
structure RoleQuiet (s t : State) (r : Nat) : Prop where
  role : t.role = r
  plk : t.plk = s.plk
  regs : RegsBut ([R.PLK_PAIR_STAT] ++ evrRegs) s t
  mem : SameMem s t

theorem State.setRole_roleQuiet (s : State) {r : Nat} (h : r < 8) (h1 : r ≠ 1) (h5 : r ≠ 5) (ha : s.acts = false) :
    RoleQuiet s (s.setRole r) r := by
  rw [s.setRole_quiet h h1 h5 ha]
  split
  · next hr => exact ⟨hr, rfl, .refl _ s, .refl s⟩
  · exact ⟨s.showRole_role h, s.showRole_plk r, s.showRole_regs r, s.showRole_mem r⟩

theorem State.retainFill_frame (s : State) (b : Bool) : (s.retainFill b).plk = s.plk ∧ RegsBut [R.LGE_IMG_STAT] s (s.retainFill b) ∧
    (s.retainFill b).yard = s.yard ∧ (s.retainFill b).stallMem = s.stallMem := by
  unfold State.retainFill
  split
  · exact ⟨rfl, .refl _ s, rfl, rfl⟩
  · extract_lets okc src vals t
    have ht : RegsBut [R.LGE_IMG_STAT] s t := (RegsBut.refl _ s).same rfl
    exact ⟨rfl, ht.setFlag _ _ (by simp), rfl, rfl⟩

/-- A side that does not act takes any role: the retained memory is filled where it starts to act. -/
theorem State.setRole_taken (s : State) {r : Nat} (h : r < 8) (ha : s.acts = false) : RoleTaken s (s.setRole r) r := by
  have hshow : RoleTaken s (s.showRole r) r :=
    ⟨s.showRole_role h, s.showRole_plk r, (s.showRole_regs r).mono (by simp +contextual), (s.showRole_mem r).1, (s.showRole_mem r).2.2.1⟩
  unfold State.setRole
  split
  · next hr => exact ⟨hr, rfl, .refl _ s, rfl, rfl⟩
  extract_lets old was t _ _ u
  change RoleTaken s t r at hshow
  have hu : RoleTaken s u r := by
    obtain ⟨hplk, hregs, hyard, hst⟩ := t.retainFill_frame false
    have hrole : (t.retainFill false).role = t.role := State.role_congr (hregs _ (by decide))
    change RoleTaken s (if t.active lgePage then t.retainFill false else t) r
    split
    · exact ⟨hrole.trans hshow.role, hplk.trans hshow.plk, hshow.regs.trans (hregs.mono (by simp)), hyard.trans hshow.yard,
        hst.trans hshow.stallMem⟩
    · exact hshow
  clear_value t u
  rw [if_neg (by simp [was, ha])]
  split
  · exact ⟨hu.role, hu.plk, hu.regs.same rfl, hu.yard, hu.stallMem⟩
  · exact hshow

/-- A side that does not act stands down at once: the role, no contest, no stand-down that waits. -/
theorem State.standDown_quiet (s : State) {r : Nat} (h : r < 8) (h1 : r ≠ 1) (h5 : r ≠ 5) (ha : s.acts = false) : ∃ u,
    s.standDown r = u.setPlk (fun p => { p with standTo := none, resync := p.resync || r == rStandby }) ∧ u.role = r ∧
      u.plk = { s.plk with contest := false } ∧ RegsBut ([R.PLK_PAIR_STAT] ++ evrRegs) s u ∧ SameMem s u := by
  have ht : ((s.setPlk fun p => { p with contest := false }).setFlag R.PLK_PAIR_STAT 3 false).acts = false := by
    rw [State.acts_setPairBit _ _ (by decide), State.acts_setPlk s _ rfl, ha]
  unfold State.standDown
  extract_lets ph t
  change t.acts = false at ht
  have hregs : RegsBut ([R.PLK_PAIR_STAT] ++ evrRegs) s t := ((RegsBut.refl _ s).same rfl).setFlag _ _ (by simp)
  have hq := t.setRole_roleQuiet h h1 h5 ht
  rw [if_neg (by simp [ht])]
  exact ⟨_, rfl, hq.role, hq.plk, hregs.trans hq.regs, hq.mem⟩

/-- The state that a quiet stand-down leaves. -/
structure StoodDown (s t : State) (r : Nat) : Prop where
  role : t.role = r
  contest : t.plk.contest = false
  epochOk : t.plk.epochOk = s.plk.epochOk
  lease : t.plk.lease = s.plk.lease
  regs : RegsBut ([R.PLK_PAIR_STAT] ++ evrRegs) s t
  mem : SameMem s t

theorem State.standDown_stood (s : State) {r : Nat} (h : r < 8) (h1 : r ≠ 1) (h5 : r ≠ 5) (ha : s.acts = false) : StoodDown s (s.standDown r) r := by
  obtain ⟨u, hu, hrole, hplk, hregs, hmem⟩ := s.standDown_quiet h h1 h5 ha
  rw [hu]
  exact ⟨hrole, by simp [hplk], by simp [hplk], by simp [hplk], hregs.same rfl, hmem⟩

/-- A side that does not act becomes TAKING, its epoch not yet committed. -/
theorem State.takeOver_spec (s : State) (ha : s.acts = false) :
    (s.takeOver false).role = 3 ∧ (s.takeOver false).plk.epochOk = false ∧ SameMem s (s.takeOver false) := by
  have hq := State.setRole_roleQuiet (s.setPlk fun p => { p with epochOk := false, applied := false, finalReq := false }) (r := rTaking) (by decide)
    (by decide) (by decide) ((State.acts_setPlk s _ rfl).trans ha)
  exact ⟨hq.role, by rw [State.takeOver, if_neg (by decide), hq.plk]; rfl, hq.mem⟩

/-! ### An epoch committed, an image applied -/

/-- The axes replaced. -/
def State.putAxes (s : State) (a : Tab Axis) : State := { s with axes := a }

theorem State.foldl_putAxes {β : Type} {f : State → β → State} (hf : ∀ s b, ∃ a, f s b = s.putAxes a) (l : List β) (s : State) :
    ∃ a, l.foldl f s = s.putAxes a :=
  foldl_only (put := State.putAxes) (fun s => ⟨s.axes, rfl⟩) (fun _ _ _ => rfl) hf l s

/-- An axis at the commit of an epoch: rebased from the image's page `pg` where that calls it REFERENCED, else UNREFERENCED. -/
def State.axisCommit (s : State) (full : Bool) (pg : List Byte) (a : Nat) : State :=
  let e := pg.drop (32 * a)
  if full && (fieldN e 6 2).testBit 0 then
    (s.setAxis a { s.axis a with adrOfs := fieldN e 4 2 }).axRebase a (sext 32 (fieldN e 0 4)) (sext 32 (fieldN e 8 4))
  else s.setAxis a { (s.axis a).rest with st := .unreferenced, referenced := false, rebased := false }

theorem State.putAxes_setAxis (s : State) (a : Nat) (x : Axis) (y : Tab Axis) : (s.setAxis a x).putAxes y = s.putAxes y := rfl
theorem State.axRebase_putAxes (s : State) (a : Nat) (ps es : Int) : ∃ x, s.axRebase a ps es = s.putAxes x := ⟨_, rfl⟩
theorem State.axisCommit_putAxes (s : State) (full : Bool) (pg : List Byte) (a : Nat) : ∃ x, s.axisCommit full pg a = s.putAxes x := by
  unfold State.axisCommit
  extract_lets e
  split
  · obtain ⟨x, hx⟩ := (s.setAxis a { s.axis a with adrOfs := fieldN e 4 2 }).axRebase_putAxes a (sext 32 (fieldN e 0 4)) (sext 32 (fieldN e 8 4))
    exact ⟨x, hx.trans (s.putAxes_setAxis a _ x)⟩
  · exact ⟨_, rfl⟩

/-- An epoch taken into force and into MRAM. -/
def State.putEpoch (s : State) (e : Nat) : State := (s.setReg R.PLK_EPOCH (wd e)).setPlk fun p => { p with epochNv := e, epochOk := true }

theorem State.takeEpoch_low (s : State) (hn : s.nextEpoch ≤ 0xFFFFFFFE) : s.takeEpoch = s.putEpoch s.nextEpoch := by
  unfold State.takeEpoch
  dsimp only
  rw [if_neg (Nat.not_lt.mpr hn)]
  rfl

theorem State.putEpoch_epoch (s : State) {e : Nat} (h : e ≤ 0xFFFFFFFE) : (s.putEpoch e).epoch = e := by
  rw [State.epoch, State.regN, State.putEpoch, State.reg_setPlk, State.reg_setReg_self]
  exact toNat_wd (by omega)
theorem State.putEpoch_regs (s : State) (e : Nat) : RegsBut [R.PLK_EPOCH] s (s.putEpoch e) := ((RegsBut.refl _ s).setReg _ (by simp)).same rfl
theorem State.putEpoch_mem (s : State) (e : Nat) : SameMem s (s.putEpoch e) := .refl s
theorem State.putEpoch_plk (s : State) (e : Nat) : (s.putEpoch e).plk = { s.plk with epochNv := e, epochOk := true } := rfl
theorem State.putEpoch_role (s : State) (e : Nat) : (s.putEpoch e).role = s.role := State.role_congr (s.putEpoch_regs e _ (by decide))
theorem State.putEpoch_active (s : State) (e p : Nat) : (s.putEpoch e).active p = s.active p := by
  simp only [State.active, State.shown_congr (s.putEpoch_regs e R.PWR_DOM_STAT (by decide)) rfl rfl]

/-- An epoch below the limit is taken into force and into MRAM; the axes are rebased or unreferenced, and nothing else changes. -/
theorem execEpochCommit_taken (s : State) (ha : s.active 128 = true) (hr : s.role = 3) (hok : s.plk.epochOk = false)
    (hn : s.nextEpoch ≤ 0xFFFFFFFE) : ∃ a, execEpochCommit s = .next ((s.putEpoch s.nextEpoch).putAxes a) := by
  unfold execEpochCommit
  rw [if_neg (by simp [ha, hr, hok]), s.takeEpoch_low hn]
  extract_lets u pg full
  rw [if_neg (by simp [u, State.putEpoch])]
  obtain ⟨a, h⟩ := State.foldl_putAxes (fun s a => s.axisCommit_putAxes full pg a) (List.range 128) u
  exact ⟨a, congrArg Host.Outcome.next h⟩

/-- A block that faults keeps the pair's state. -/
theorem State.fail_plk (s : State) (p c d : Nat) : (s.fail p c d).plk = s.plk := by
  have h : (s.toFault p).plk = s.plk := foldl_fixed State.plk (fun s q => by simp) _ _
  simpa [State.fail] using h

/-- Past the last epoch the side stands down and PLK faults. -/
theorem execEpochCommit_spent (s : State) (ha : s.active 128 = true) (hr : s.role = 3) (hok : s.plk.epochOk = false)
    (hn : 0xFFFFFFFE < s.nextEpoch) : execEpochCommit s = .next ((s.standDown 4).fail 128 0x104 0) := by
  have htake : s.takeEpoch = (s.standDown 4).fail 128 0x104 0 := by
    unfold State.takeEpoch
    dsimp only
    rw [if_pos hn, if_pos (.inr hr)]
  have hdown := s.standDown_stood (r := 4) (by decide) (by decide) (by decide) (State.not_acts (by simp [hr]) (by simp [hr]))
  unfold execEpochCommit
  rw [if_neg (by simp [ha, hr, hok]), htake]
  exact if_pos (by simp [State.fail_plk, hdown.epochOk, hok])

/-- What applying an image has changed before the role is taken. -/
structure Applying (s t : State) : Prop where
  plk : t.plk = s.plk
  regs : RegsBut ([R.LGE_FORCES, R.LGE_CYCLE_LO, R.LGE_CYCLE_HI, R.MTR_STAT2] ++ evrRegs) s t
  yard : t.yard = s.yard
  stallMem : t.stallMem = s.stallMem
  pwr : t.pwr = s.pwr
  blks : t.blks = s.blks

section applying
variable {s t : State}

theorem Applying.refl (s : State) : Applying s s := ⟨rfl, .refl _ s, rfl, rfl, rfl, rfl⟩
theorem Applying.setReg {a : Nat} (v : Word) (h : Applying s t) (ha : a ∈ [R.LGE_FORCES, R.LGE_CYCLE_LO, R.LGE_CYCLE_HI, R.MTR_STAT2]) :
    Applying s (t.setReg a v) :=
  ⟨h.plk, h.regs.setReg v (List.mem_append_left _ ha), h.yard, h.stallMem, h.pwr, h.blks⟩
theorem Applying.emit (k p : Nat) (l : List Word) (h : Applying s t) : Applying s (t.emit k p l) :=
  ⟨by simp [h.plk], h.regs.emit _ _ _ (by simp +contextual), by simp [h.yard], by simp [h.stallMem], by simp [h.pwr], by simp [h.blks]⟩
theorem Applying.setLge (f : LgeSt → LgeSt) (h : Applying s t) : Applying s (t.setLge f) :=
  ⟨h.plk, h.regs.same rfl, h.yard, h.stallMem, h.pwr, h.blks⟩
theorem Applying.img (m : Tab Byte) (h : Applying s t) : Applying s { t with img := m } :=
  ⟨h.plk, h.regs.same rfl, h.yard, h.stallMem, h.pwr, h.blks⟩
theorem Applying.ite {c : Prop} [Decidable c] {u v : State} (hu : Applying s u) (hv : Applying s v) : Applying s (if c then u else v) := by
  split
  · exact hu
  · exact hv

end applying

/-- The image is applied and the side becomes PRIMARY. -/
theorem execImageApplied_spec (s : State) (ha : s.active 128 = true) (hr : s.role = 3) (hok : s.plk.epochOk = true) : ∃ t,
    execImageApplied s = .next t ∧ t.role = 1 ∧ t.plk.applied = true ∧ t.reg R.PLK_TAKEOVERS = s.reg R.PLK_TAKEOVERS + 1 ∧ t.yard = s.yard ∧
      t.stallMem = s.stallMem := by
  unfold execImageApplied
  rw [if_neg (by simp [ha, hr, hok])]
  extract_lets valid told cyc revOk clear filled captured forced applied counted shown recorded
  have htold : Applying s told := .ite ((Applying.refl s).emit _ _ _) (.refl s)
  have hforced : Applying s forced := .ite (((htold.img _).setLge _).setLge _) (((htold.img _).setLge _).setLge _)
  have happlied : Applying s applied := .ite (((hforced.setReg _ (by decide)).setReg _ (by decide)).setReg _ (by decide))
    (((htold.img _).setLge _).setReg _ (by decide))
  have hcounted : Applying s counted := .ite happlied ((happlied.setReg _ (by decide)).emit _ _ _)
  have hcount : shown.reg R.PLK_TAKEOVERS = s.reg R.PLK_TAKEOVERS + 1 := by
    rw [State.reg_incReg, if_pos rfl, State.reg_setPlk, hcounted.regs _ (by decide)]
  clear_value counted
  have hpair : recorded.reg R.PLK_PAIR_STAT = s.reg R.PLK_PAIR_STAT := by
    rw [State.reg_emit _ _ _ _ (by decide), State.reg_incReg, if_neg (by decide), State.reg_setPlk, hcounted.regs _ (by decide)]
  have hrole : recorded.role = 3 := (State.role_congr hpair).trans hr
  have htaken := recorded.setRole_taken (r := 1) (by decide) (State.not_acts (by simp [hrole]) (by simp [hrole]))
  have hplk : recorded.plk = shown.plk := State.emit_plk _ _ _ _
  refine ⟨_, rfl, htaken.role, ?_, ?_, ?_, ?_⟩
  · rw [State.setPlk_plk, htaken.plk, hplk]
    rfl
  · rw [State.reg_setPlk, htaken.regs _ (by decide), State.reg_emit _ _ _ _ (by decide), hcount]
  · rw [State.setPlk_yard, htaken.yard, State.emit_yard]
    exact hcounted.yard
  · rw [State.setPlk_stallMem, htaken.stallMem, State.emit_stallMem]
    exact hcounted.stallMem

/-! ### Contests -/

/-- What every end of a contest leaves before the verdict is acted on. -/
def State.contestOver (s : State) (win : Bool) : State :=
  (((s.setPlk fun p => { p with contest := false }).setFlag R.PLK_PAIR_STAT 3 false).setReg R.PLK_REACH_LAST
    (wd (s.contestCount % 2048 + 65536 * b2n (!win)))).emit evContestEnd plkPage [wd s.contestCount, wd (s.regN R.PLK_MAJ_N)]

/-- The contest is won by more than half of MAJ_N, or by half on side A (R574). -/
def State.contestWon (s : State) : Bool := decide (s.regN R.PLK_MAJ_N < 2 * s.contestCount) || (2 * s.contestCount == s.regN R.PLK_MAJ_N && !s.sideB)

theorem State.contestOver_spec (s : State) (win : Bool) : (s.contestOver win).role = s.role ∧ (s.contestOver win).acts = s.acts ∧
    (s.contestOver win).plk.contest = false ∧ (s.contestOver win).flag R.PLK_PAIR_STAT 3 = false ∧
    (s.contestOver win).reg R.PLK_REACH_LAST = wd (s.contestCount % 2048 + 65536 * b2n (!win)) ∧
    RegsBut ([R.PLK_PAIR_STAT, R.PLK_REACH_LAST] ++ evrRegs) s (s.contestOver win) ∧ SameMem s (s.contestOver win) := by
  have hpair : (s.contestOver win).reg R.PLK_PAIR_STAT = (s.setFlag R.PLK_PAIR_STAT 3 false).reg R.PLK_PAIR_STAT := by
    rw [State.contestOver, State.reg_emit _ _ _ _ (by decide), State.reg_setReg, if_neg (by decide)]
    rfl
  have hrole : (s.contestOver win).role = s.role := (State.role_congr hpair).trans (s.role_setPairBit _ (by decide))
  have hregs : RegsBut ([R.PLK_PAIR_STAT, R.PLK_REACH_LAST] ++ evrRegs) s (s.contestOver win) := by
    have hplk : RegsBut ([R.PLK_PAIR_STAT, R.PLK_REACH_LAST] ++ evrRegs) s (s.setPlk fun p => { p with contest := false }) := .refl _ s
    exact ((hplk.setFlag _ _ (by simp)).setReg _ (by simp)).emit _ _ _ (by simp +contextual)
  have hpwr : (s.contestOver win).pwr = s.pwr := by simp [State.contestOver]
  have hblks : (s.contestOver win).blks = s.blks := by simp [State.contestOver]
  have hplk : (s.contestOver win).plk = { s.plk with contest := false } := by simp [State.contestOver]
  have hacts : (s.contestOver win).acts = s.acts :=
    State.acts_of hrole (hregs R.PWR_DOM_STAT (by decide)) hpwr hblks (congrArg PlkSt.standTo hplk :)
  refine ⟨hrole, hacts, congrArg PlkSt.contest hplk, ?_, ?_, hregs, by simp [State.contestOver, SameMem]⟩
  · rw [State.flag, hpair]
    exact (s.flag_setFlag _ _ _ _ _ (by decide)).trans (if_pos ⟨rfl, rfl⟩)
  · rw [State.contestOver, State.reg_emit _ _ _ _ (by decide), State.reg_setReg_self]

theorem execContestEnd_eq (s : State) (hc : s.plk.contest = true) : execContestEnd s = .next (
    if s.contestWon then (if (s.contestOver true).role = rTaking ∧ (s.contestOver true).plk.epochOk then (s.contestOver true).setRole rPrimary
      else s.contestOver true) else (s.contestOver false).standDown rDeposed) := by
  unfold execContestEnd
  rw [if_neg (by simp [hc])]
  extract_lets c n win t u
  have hu : u = s.contestOver win := rfl
  have hw : s.contestWon = win := rfl
  clear_value u
  rw [hw]
  clear_value win
  subst hu
  cases win
  · simp only [Bool.false_eq_true, if_false]
  · simp only [if_true]

/-! ### Sending -/

/-- The sending side of the pair link replaced: sequences, the frame sent last and the lanes. -/
def State.putLink (s : State) (x : Tab Nat × List Byte × Tab PlkLane) : State :=
  s.setPlk fun p => { p with seqTx := x.1, lastTx := x.2.1, lanes := x.2.2 }

theorem State.foldl_putLink {β : Type} {f : State → β → State} (hf : ∀ s b, ∃ x, f s b = s.putLink x) (l : List β) (s : State) :
    ∃ x, l.foldl f s = s.putLink x :=
  foldl_only (put := State.putLink) (fun s => ⟨(s.plk.seqTx, s.plk.lastTx, s.plk.lanes), rfl⟩) (fun _ _ _ => rfl) hf l s

theorem State.lanesPut_putLink (s : State) (ty q : Nat) (f : List Byte) : ∃ x, s.lanesPut ty q f = s.putLink x := by
  refine State.foldl_putLink (fun s i => ?_) _ s
  split
  · exact ⟨(s.plk.seqTx, s.plk.lastTx, _), rfl⟩
  · exact ⟨(s.plk.seqTx, s.plk.lastTx, s.plk.lanes), rfl⟩

/-- Sending on the pair link changes its sending side alone. -/
theorem State.plkSend_putLink (s : State) (ty q i : Nat) (fin : Bool) (b : List Byte) : ∃ x, s.plkSend ty q i fin b = s.putLink x := by
  unfold State.plkSend
  split
  · exact ⟨(s.plk.seqTx, s.plk.lastTx, s.plk.lanes), rfl⟩
  · generalize s.plkFrame ty q i fin b = f
    obtain ⟨x, hx⟩ := (s.seqNext q).lanesPut_putLink ty q f
    refine ⟨(x.1, f, x.2.2), ?_⟩
    dsimp only
    rw [hx]
    simp only [State.putLink, State.setPlk, State.seqNext]

/-! ### Leases -/

/-- A bit of LEASE_STAT put. -/
theorem State.leaseBit (s : State) (i : Nat) (b : Bool) (h : i < 32) : (s.setFlag R.PLK_LEASE_STAT i b).flag R.PLK_LEASE_STAT i = b ∧
    RegsBut [R.PLK_LEASE_STAT] s (s.setFlag R.PLK_LEASE_STAT i b) :=
  ⟨(s.flag_setFlag _ _ _ _ _ h).trans (if_pos ⟨rfl, rfl⟩), (RegsBut.refl _ s).setFlag _ _ (by simp)⟩

/-- A request is granted by a side that does not act to the other side, and answered either way. -/
theorem execLeaseReq_asked (s : State) (src : Peer) (q : LeaseReq) (ha : s.active 128 = true) (hsrc : src ≠ .witness) (hrel : q.release = false) :
    ∃ x, execLeaseReq src q s = .next (State.putLink (if !s.acts && q.sideB != s.sideB then
      (s.setPlk fun p => { p with grant := some (s.time.log + (q.ms.toNat + s.regN R.PLK_GUARD_MS) * tMs) }).setFlag R.PLK_LEASE_STAT 1 true
    else s) x) := by
  unfold execLeaseReq
  rw [if_neg (by simp [ha, hsrc]), if_neg (by simp [hrel])]
  extract_lets ok till u left holder
  obtain ⟨x, hx⟩ := u.plkSend_putLink 0x41 0 0 false (leBytes 4 q.id.toNat ++ [BitVec.ofNat 8 (b2n ok), BitVec.ofNat 8 holder, 0, 0] ++
    leBytes 4 q.ms.toNat ++ leBytes 4 left)
  exact ⟨x, congrArg Host.Outcome.next hx⟩

/-- The lease given up. -/
def State.leaseFree (s : State) : State := (s.setPlk fun p => { p with lease := none }).setFlag R.PLK_LEASE_STAT 0 false

theorem State.leaseFree_regs (s : State) : RegsBut [R.PLK_LEASE_STAT] s s.leaseFree := (s.setPlk fun p => { p with lease := none }).leaseBit 0 false (by decide) |>.2
theorem State.leaseFree_role (s : State) : s.leaseFree.role = s.role := State.role_congr (s.leaseFree_regs _ (by decide))
theorem State.leaseFree_acts (s : State) : s.leaseFree.acts = s.acts :=
  State.acts_of s.leaseFree_role (s.leaseFree_regs R.PWR_DOM_STAT (by decide)) rfl rfl rfl
theorem State.leaseFree_mode (s : State) : s.leaseFree.leaseMode = s.leaseMode := by
  simp only [State.leaseMode, State.proto, State.ownProto, State.fld, s.leaseFree_regs R.PLK_PAIR_STAT (by decide), s.leaseFree_regs R.PLK_CFG (by decide)]
  rfl

/-- A lease that ends is given up, and in lease mode a side that acts or is TAKING stands down. -/
theorem execLeaseEnd_ended (s : State) {t0 : Nat} (hl : s.plk.lease = some t0) (ht : t0 ≤ s.time.log) :
    execLeaseEnd s = .next (if s.leaseMode ∧ (s.acts ∨ s.role = rTaking) then s.leaseFree.standDown rDeposed else s.leaseFree) := by
  rw [← s.leaseFree_mode, ← s.leaseFree_acts, ← s.leaseFree_role]
  simp only [execLeaseEnd, hl]
  rw [if_neg (Nat.not_lt.mpr ht)]
  rfl

/-! ### The start-up role -/

/-- Resolution ends with side A, heard and not acting, in protocol 2: it takes an epoch and becomes PRIMARY. -/
theorem execResolveEnd_first (s : State) (hrun : s.running 128 = true) (hr : s.role = 0) (he : (s.page 128).errcode ≠ 0x103)
    (hb : s.bothSilent = false) (hp : s.plk.pActing = false) (hl : s.leaseMode = false) (hside : s.sideB = false) (hn : s.nextEpoch ≤ 0xFFFFFFFE) :
    ∃ t, execResolveEnd s = .next t ∧ t.role = 1 ∧ t.epoch = s.nextEpoch ∧ t.yard = s.yard := by
  have hrole : (s.putEpoch s.nextEpoch).role = 0 := (s.putEpoch_role _).trans hr
  have hact : (s.putEpoch s.nextEpoch).active 128 = true := (s.putEpoch_active _ _).trans (State.active_of_running hrun)
  have htaken := (s.putEpoch s.nextEpoch).setRole_taken (r := 1) (by decide) (State.not_acts (by simp [hrole]) (by simp [hrole]))
  unfold execResolveEnd
  rw [if_neg (not_or.mpr ⟨by simp [hrun], not_or.mpr ⟨by simp [hr], he⟩⟩), if_neg (by simp [hp]), if_neg (by simp [hl]), if_neg (by simp [hb]),
    if_neg (by simp [hside]), s.takeEpoch_low hn]
  dsimp only
  rw [if_pos hact]
  refine ⟨_, rfl, htaken.role, ?_, htaken.yard.trans (s.putEpoch_mem _).1⟩
  rw [State.epoch, State.regN, htaken.regs _ (by decide)]
  exact s.putEpoch_epoch hn

/-- Resolution ends in STANDBY beside a partner that acts, or on side B in protocol 2. -/
theorem execResolveEnd_standby (s : State) (hrun : s.running 128 = true) (hr : s.role = 0) (he : (s.page 128).errcode ≠ 0x103)
    (hb : s.bothSilent = false) (h : s.plk.pActing = true ∨ s.plk.pActing = false ∧ s.leaseMode = false ∧ s.sideB = true) :
    ∃ t, execResolveEnd s = .next t ∧ t.role = 2 ∧ t.plk.resync = true ∧ SameMem s t := by
  have hq := State.setRole_roleQuiet (s.setPlk fun p => { p with resync := true }) (r := rStandby) (by decide) (by decide) (by decide)
    ((State.acts_setPlk s _ rfl).trans (State.not_acts (by simp [hr]) (by simp [hr])))
  refine ⟨(s.setPlk fun p => { p with resync := true }).setRole rStandby, ?_, hq.role, by rw [hq.plk]; rfl, hq.mem⟩
  unfold execResolveEnd
  rw [if_neg (not_or.mpr ⟨by simp [hrun], not_or.mpr ⟨by simp [hr], he⟩⟩)]
  rcases h with hp | ⟨hp, hl, hside⟩
  · rw [if_pos ⟨hp, by simp [hb]⟩]
  · rw [if_neg (by simp [hp]), if_neg (by simp [hl]), if_neg (by simp [hb]), if_pos hside]

/-! ### The statement -/

/-- Settles O56: epochs rise, roles change by their rules, and a lease is granted and held as its frames say. -/
theorem pairRoles : Obligations.PairRoles := by
  intro s src q r id t0 k rl
  obtain ⟨htop, hpar⟩ := s.nextEpoch_spec
  obtain ⟨hep, hpart, hnv, hst⟩ := s.le_topEpoch
  refine ⟨⟨by omega, by omega, by omega, fun hk => (hst k hk).trans_lt htop, hpar⟩, fun hm h => ?_, fun hm => ?_, fun ha => s.takeOver_spec ha,
    fun ha hr hok => ⟨fun hn => ?_, fun hn => execEpochCommit_spent s ha hr hok hn⟩, fun ha hr hok => execImageApplied_spec s ha hr hok,
    fun hr => ⟨?_, ?_⟩, fun hc ha => ?_, fun hc => ⟨?_, ?_⟩, fun hc hr h => ?_, fun hc ha h => ?_, fun h => ?_, fun h => ?_,
    fun ha hsrc => ⟨fun hrel hacts hside => ?_, fun hrel hacts => ?_, fun hrel => ?_⟩, fun ha hg hat hid hl => ?_, fun hg => ?_,
    fun hm => ⟨?_, fun hb => ?_, fun hb => ?_⟩, fun hl ht hmode => ?_, fun hl ht hmode hr => ?_, fun hl ht => ?_, ?_,
    fun hrun hr he => ⟨fun hb hmode => ?_, fun hb hp => ?_, fun hb hp hmode hside => ?_, fun hb hp hmode hside hn => ?_⟩, fun h => ?_⟩
  · exact if_pos (by simpa [hm] using h)
  · exact if_neg (by simp [hm])
  · obtain ⟨a, hexec⟩ := execEpochCommit_taken s ha hr hok hn
    generalize s.nextEpoch = e at hn hexec ⊢
    exact ⟨_, hexec, s.putEpoch_epoch hn, congrArg PlkSt.epochNv (s.putEpoch_plk e), congrArg PlkSt.epochOk (s.putEpoch_plk e),
      s.putEpoch_regs e, s.putEpoch_mem e⟩
  · exact if_pos (.inr (.inl hr))
  · exact if_pos (.inr (.inl hr))
  · exact congrArg Host.Outcome.next (if_pos (by simp [hc, ha]))
  · exact congrArg Host.Outcome.next (if_neg (by simp [hc]))
  · exact if_pos (by simp [hc])
  · obtain ⟨hrole, -, hcontest, hflag, hreach, hregs, hmem⟩ := s.contestOver_spec true
    have hwon : s.contestWon = true := by simpa [State.contestWon] using h
    have hexec : exec .contestEnd s = _ := execContestEnd_eq s hc
    rw [if_pos hwon, if_neg (by simp [hrole, hr])] at hexec
    exact ⟨_, hexec, hrole.trans hr, hcontest, hflag, hreach, hregs, hmem⟩
  · obtain ⟨hrole, hacts, hcontest, -, hreach, -, hmem⟩ := s.contestOver_spec false
    have hlost : s.contestWon = false := by
      simp only [State.contestWon, Bool.or_eq_false_iff, decide_eq_false_iff_not, Bool.and_eq_false_iff, beq_eq_false_iff_ne, Bool.not_eq_false']
      rcases h with h | ⟨h, hside⟩
      · exact ⟨by omega, .inl (by omega)⟩
      · exact ⟨by omega, .inr hside⟩
    have hexec : exec .contestEnd s = _ := execContestEnd_eq s hc
    rw [if_neg (by simp [hlost])] at hexec
    have hdown := (s.contestOver false).standDown_stood (r := 4) (by decide) (by decide) (by decide) (hacts.trans ha)
    exact ⟨_, hexec, hdown.role, hdown.contest, (hdown.regs _ (by decide)).trans hreach, hmem.trans hdown.mem⟩
  · change execStandDownLimit s = _
    simp only [execStandDownLimit, h]
  · change execStandDownLimit s = _
    simp only [execStandDownLimit, h]
  · obtain ⟨x, hexec⟩ := execLeaseReq_asked s src q ha hsrc hrel
    rw [if_pos (by simp [hacts, hside])] at hexec
    obtain ⟨hflag, hregs⟩ := (s.setPlk fun p => { p with grant := some (s.time.log + (q.ms.toNat + s.regN R.PLK_GUARD_MS) * tMs) }).leaseBit 1 true
      (by decide)
    exact ⟨_, hexec, rfl, hflag, hregs, .refl s⟩
  · obtain ⟨x, hexec⟩ := execLeaseReq_asked s src q ha hsrc hrel
    rw [if_neg (by simp [hacts])] at hexec
    exact ⟨_, hexec, rfl, rfl, .refl _⟩
  · obtain ⟨hflag, hregs⟩ := (s.setPlk fun p => { p with grant := none }).leaseBit 1 false (by decide)
    refine ⟨_, (if_neg (by simp [ha, hsrc])).trans (if_pos hrel), rfl, hflag, hregs, .refl s⟩
  · obtain ⟨hflag, hregs⟩ := (s.setPlk fun p => { p with lease := some (t0 + s.regN R.PLK_LEASE_MS * tMs) }).leaseBit 0 true (by decide)
    refine ⟨_, ?_, rfl, hflag, ?_, hregs, .refl s⟩
    · change execLeaseRsp src r s = _
      simp only [execLeaseRsp, hat, hl, Bool.true_or, if_true]
      rw [if_neg (by simp [ha, hg]), if_neg (not_not_intro hid)]
    · exact State.role_congr (hregs _ (by decide))
  · exact if_pos (by simp [hg])
  · exact congrArg Host.Outcome.next (if_pos hm)
  · exact congrArg Host.Outcome.next (if_pos (by simp [hm, hb]))
  · exact congrArg Host.Outcome.next (if_neg (by simp [hb]))
  · have hexec : exec .leaseEnd s = _ := execLeaseEnd_ended s hl ht
    rw [if_neg (by simp [hmode])] at hexec
    exact ⟨_, hexec, rfl, ((s.setPlk fun p => { p with lease := none }).leaseBit 0 false (by decide)).1, s.leaseFree_regs, .refl s⟩
  · have hexec : exec .leaseEnd s = _ := execLeaseEnd_ended s hl ht
    rw [if_pos ⟨hmode, .inr hr⟩] at hexec
    have hdown := s.leaseFree.standDown_stood (r := 4) (by decide) (by decide) (by decide)
      (s.leaseFree_acts.trans (State.not_acts (by simp [hr]) (by simp [hr])))
    exact ⟨_, hexec, hdown.lease, hdown.role, hdown.mem⟩
  · change execLeaseEnd s = _
    simp only [execLeaseEnd, hl]
    exact if_pos ht
  · obtain ⟨hflag, hregs⟩ := (s.setPlk fun p => { p with grant := none }).leaseBit 1 false (by decide)
    exact ⟨_, rfl, rfl, hflag, hregs, .refl s⟩
  · change execResolveEnd s = _
    unfold execResolveEnd
    rw [if_neg (not_or.mpr ⟨by simp [hrun], not_or.mpr ⟨by simp [hr], he⟩⟩), if_neg (by simp [hb]), if_neg (by simp [hmode]), if_pos hb]
  · exact execResolveEnd_standby s hrun hr he hb (.inl hp)
  · exact execResolveEnd_standby s hrun hr he hb (.inr ⟨hp, hmode, hside⟩)
  · exact execResolveEnd_first s hrun hr he hb hp hmode hside hn
  · exact if_pos (by rcases h with h | h <;> simp [h])

end Sys2Proof.Machine
end

section
/-! The pair link: state frames, streams and the mirrored half (R559 to R566), heartbeats, silent paths and lanes (R553 to R558). -/

namespace Sys2Proof.Machine

/-! ### Frames taken -/

/-- A frame noted, so that a later copy is dropped. -/
def State.noteSeen (s : State) (h : PairHdr) (q : Nat) : State :=
  s.setPlk fun p => { p with seen := ((BitVec.ofNat 8 q, h.seq) :: p.seen).take 4096 }

/-- A frame that is taken is noted and acted on. -/
theorem State.keep_takes {s : State} {h : PairHdr} {q : Nat} (k : State → State) (ht : s.pairTakes h q) : s.keep h q k = k (s.noteSeen h q) := by
  obtain ⟨ha, hl, hlane, hp, hd⟩ := ht
  unfold State.keep
  rw [if_neg (by simp [hp]), if_neg (by simp [ha, hl, hlane, hd])]
  rfl

@[simp] theorem State.noteSeen_regs (s : State) (h : PairHdr) (q : Nat) : (s.noteSeen h q).regs = s.regs := rfl
@[simp] theorem State.noteSeen_kpr (s : State) (h : PairHdr) (q : Nat) : (s.noteSeen h q).kpr = s.kpr := rfl
@[simp] theorem State.noteSeen_acts (s : State) (h : PairHdr) (q : Nat) : (s.noteSeen h q).acts = s.acts := State.acts_setPlk s _ rfl
@[simp] theorem State.noteSeen_proto (s : State) (h : PairHdr) (q : Nat) : (s.noteSeen h q).proto = s.proto := rfl
@[simp] theorem State.noteSeen_kprCores (s : State) (h : PairHdr) (q : Nat) : (s.noteSeen h q).kprCores = s.kprCores := rfl
theorem State.noteSeen_mem (s : State) (h : PairHdr) (q : Nat) : SameMem s (s.noteSeen h q) := .refl s
theorem State.noteSeen_pendingImage (s : State) (h : PairHdr) (q : Nat) (e : StateEnd) : (s.noteSeen h q).pendingImage e = s.pendingImage e := by
  simp only [State.pendingImage, State.noteSeen, State.setPlk_plk]

/-! ### State frames -/

/-- A commit on the way: stall sequences have risen or stayed, and the pair's registers, its state and the memories are as before. -/
structure SeqRaised (s t : State) : Prop where
  seq : ∀ k, k < 1024 → s.stSeq k ≤ t.stSeq k
  plk : t.plk = s.plk
  pair : t.reg R.PLK_PAIR_STAT = s.reg R.PLK_PAIR_STAT
  rev : t.reg R.LGE_PROG_REV = s.reg R.LGE_PROG_REV
  mem : SameMem s t

theorem SeqRaised.refl (s : State) : SeqRaised s s := ⟨fun _ _ => le_rfl, rfl, rfl, rfl, .refl s⟩
theorem SeqRaised.trans {s t u : State} (h : SeqRaised s t) (g : SeqRaised t u) : SeqRaised s u :=
  ⟨fun k hk => (h.seq k hk).trans (g.seq k hk), g.plk.trans h.plk, g.pair.trans h.pair, g.rev.trans h.rev, h.mem.trans g.mem⟩

/-- The registers that a commit must leave, beside the stalls' sequences. -/
def seqRegs (k : Nat) : List Nat := [R.PLK_PAIR_STAT, R.LGE_PROG_REV, R.STB_SEQ_LO k, R.STB_SEQ_HI k]

/-- What leaves those registers, the pair's state and the memories alone raises nothing. -/
theorem SeqRaised.of_regs {l : List Nat} {s t : State} (hl : ∀ k, k < 1024 → ∀ a, a ∈ seqRegs k → a ∉ l) (hr : RegsBut l s t) (hp : t.plk = s.plk)
    (hm : SameMem s t) : SeqRaised s t := by
  refine ⟨fun k hk => ?_, hp, hr _ (hl 0 (by decide) _ (by simp [seqRegs])), hr _ (hl 0 (by decide) _ (by simp [seqRegs])), hm⟩
  rw [State.stSeq, State.reg64, State.regN, State.regN, ← hr _ (hl k hk _ (by simp [seqRegs])), ← hr (R.STB_SEQ_HI k) (hl k hk _ (by simp [seqRegs]))]
  exact le_rfl

theorem State.reg64_setReg64 (s : State) {a b n : Nat} (hab : a ≠ b) (hn : n < 2 ^ 64) : (s.setReg64 a b n).reg64 a b = n := by
  have ha : (s.setReg64 a b n).reg a = lo32 n := by rw [State.setReg64, State.reg_setReg, if_neg hab, State.reg_setReg_self]
  have hb : (s.setReg64 a b n).reg b = hi32 n := State.reg_setReg_self _ _ _
  rw [State.reg64, State.regN, State.regN, ha, hb, lo32, hi32, BitVec.toNat_ofNat, BitVec.toNat_ofNat]
  omega

/-- A stall's sequence that rises. -/
theorem SeqRaised.raise (s : State) {k q : Nat} (hk : k < 1024) (hq : s.stSeq k < q) (hq64 : q < 2 ^ 64) :
    SeqRaised s (s.setReg64 (R.STB_SEQ_LO k) (R.STB_SEQ_HI k) q) := by
  have hregs : RegsBut [R.STB_SEQ_LO k, R.STB_SEQ_HI k] s (s.setReg64 (R.STB_SEQ_LO k) (R.STB_SEQ_HI k) q) :=
    (RegsBut.refl _ s).setReg64 _ (by simp) (by simp)
  refine ⟨fun j hj => ?_, rfl, hregs _ ?_, hregs _ ?_, .refl s⟩
  · by_cases h : j = k
    · subst h
      have hne : R.STB_SEQ_LO j ≠ R.STB_SEQ_HI j := by simp only [R.STB_SEQ_LO, R.STB_SEQ_HI]; omega
      rw [State.stSeq, State.stSeq, s.reg64_setReg64 hne hq64]
      exact hq.le
    · have hlo : R.STB_SEQ_LO j ∉ [R.STB_SEQ_LO k, R.STB_SEQ_HI k] := by
        simp only [R.STB_SEQ_LO, R.STB_SEQ_HI, List.mem_cons, List.not_mem_nil, or_false]
        omega
      have hhi : R.STB_SEQ_HI j ∉ [R.STB_SEQ_LO k, R.STB_SEQ_HI k] := by
        simp only [R.STB_SEQ_LO, R.STB_SEQ_HI, List.mem_cons, List.not_mem_nil, or_false]
        omega
      rw [State.stSeq, State.stSeq, State.reg64, State.reg64, State.regN, State.regN, State.regN, State.regN, hregs _ hlo, hregs _ hhi]
  · simp only [R.PLK_PAIR_STAT, R.STB_SEQ_LO, R.STB_SEQ_HI, List.mem_cons, List.not_mem_nil, or_false]
    omega
  · simp only [R.LGE_PROG_REV, R.STB_SEQ_LO, R.STB_SEQ_HI, List.mem_cons, List.not_mem_nil, or_false]
    omega

theorem fieldN_lt (l : List Byte) (o n : Nat) : fieldN l o n < 256 ^ n := by
  have h : (((l.drop o).take n).length) ≤ n := by simp
  exact (leNat_lt _).trans_le (Nat.pow_le_pow_right (by decide) h)

/-- A step of the commit that takes a stall's sequence from the image, where it is the greater. -/
def State.seqTake (s : State) (k : Nat) : State :=
  let q := fieldN ((s.stPage (321 + k / 256)).drop (16 * (k % 256))) 0 8
  if s.stSeq k < q then s.setReg64 (R.STB_SEQ_LO k) (R.STB_SEQ_HI k) q else s

theorem State.seqTake_raised (s : State) {k : Nat} (hk : k < 1024) : SeqRaised s (s.seqTake k) := by
  unfold State.seqTake
  dsimp only
  split
  · next h => exact .raise s hk h (fieldN_lt _ _ _)
  · exact .refl s

theorem seqTakes_raised (l : List Nat) (hl : ∀ k, k ∈ l → k < 1024) (s : State) : SeqRaised s (l.foldl State.seqTake s) := by
  induction l generalizing s with
  | nil => exact .refl s
  | cons k l ih => exact (s.seqTake_raised (hl k (by simp))).trans (ih (fun j hj => hl j (by simp [hj])) _)

/-- The recorder's counters and MTR_STAT2 are none of the registers that a commit must leave. -/
theorem seqRegs_other {k : Nat} (hk : k < 1024) {a : Nat} (ha : a ∈ seqRegs k) :
    a ∉ [R.MTR_STAT2, R.PLK_CYCLE_LO, R.PLK_CYCLE_HI] ++ evrRegs := by
  simp only [seqRegs, evrRegs, R.PLK_PAIR_STAT, R.LGE_PROG_REV, R.STB_SEQ_LO, R.STB_SEQ_HI, R.MTR_STAT2, R.PLK_CYCLE_LO, R.PLK_CYCLE_HI, R.EVR_LOST,
    R.EVR_BAD_REC, List.mem_cons, List.not_mem_nil, or_false, List.cons_append, List.nil_append] at *
  omega

/-- The pulse outputs replaced. -/
def State.putPls (s : State) (p : Tab PulseOut) : State := { s with pls := p }

/-- Metering taken from a state frame changes no register of the commit. -/
theorem State.mtrTake_raised (s : State) (ms : Nat) (tot res : Nat → Int) (base : Tab (Option (Nat × Nat))) :
    SeqRaised s (s.mtrTake ms tot res base) := by
  unfold State.mtrTake
  extract_lets since u v
  obtain ⟨p, hp⟩ : ∃ p, v = u.putPls p :=
    foldl_only (put := State.putPls) (fun s => ⟨s.pls, rfl⟩) (fun _ _ _ => rfl) (fun _ _ => ⟨_, rfl⟩) _ u
  have hv : RegsBut ([R.MTR_STAT2, R.PLK_CYCLE_LO, R.PLK_CYCLE_HI] ++ evrRegs) s v := by
    rw [hp]
    exact .refl _ s
  have hplk : v.plk = s.plk := by rw [hp]; rfl
  have hmem : SameMem s v := by rw [hp]; exact .refl s
  clear_value v
  split
  · exact .of_regs (fun k hk a ha => seqRegs_other hk ha) hv hplk hmem
  · refine .of_regs (fun k hk a ha => seqRegs_other hk ha) ((hv.setFlag _ _ (by simp)).emit _ _ _ (by simp +contextual)) (by simpa using hplk) ?_
    exact hmem.trans (by simp [SameMem])

/-- STATE_VALID put, and a revision that does not agree recorded. -/
def State.putValid (s : State) (ok : Prop) [Decidable ok] (r : Word) : State :=
  if ok then s.setFlag R.PLK_PAIR_STAT 8 true else (s.setFlag R.PLK_PAIR_STAT 8 false).emit evStateRev plkPage [r]

theorem State.putValid_spec (s : State) (ok : Prop) [Decidable ok] (r : Word) :
    (s.putValid ok r).plk = s.plk ∧ (∀ k, k < 1024 → (s.putValid ok r).stSeq k = s.stSeq k) ∧ (s.putValid ok r).role = s.role ∧
      (s.putValid ok r).flag R.PLK_PAIR_STAT 8 = decide ok ∧ SameMem s (s.putValid ok r) := by
  have hpair : (s.putValid ok r).reg R.PLK_PAIR_STAT = (s.setFlag R.PLK_PAIR_STAT 8 (decide ok)).reg R.PLK_PAIR_STAT := by
    unfold State.putValid
    split
    · next h => rw [decide_eq_true h]
    · next h => rw [decide_eq_false h, State.reg_emit _ _ _ _ (by decide)]
  have hregs : RegsBut ([R.PLK_PAIR_STAT] ++ evrRegs) s (s.putValid ok r) := by
    unfold State.putValid
    split
    · exact (RegsBut.refl _ s).setFlag _ _ (by simp)
    · exact ((RegsBut.refl _ s).setFlag _ _ (by simp)).emit _ _ _ (by simp +contextual)
  have hseq (k : Nat) (hk : k < 1024) : R.STB_SEQ_LO k ∉ [R.PLK_PAIR_STAT] ++ evrRegs ∧ R.STB_SEQ_HI k ∉ [R.PLK_PAIR_STAT] ++ evrRegs := by
    simp only [evrRegs, R.PLK_PAIR_STAT, R.STB_SEQ_LO, R.STB_SEQ_HI, R.EVR_LOST, R.EVR_BAD_REC, List.mem_cons, List.not_mem_nil, or_false,
      List.cons_append, List.nil_append]
    omega
  refine ⟨?_, fun k hk => ?_, (State.role_congr hpair).trans (s.role_setPairBit _ (by decide)), ?_, ?_⟩
  · unfold State.putValid
    split <;> simp
  · simp only [State.stSeq, State.reg64, State.regN, hregs _ (hseq k hk).1, hregs _ (hseq k hk).2]
  · exact (congrArg (bit · 8) hpair).trans ((s.flag_setFlag _ _ _ _ _ (by decide)).trans (if_pos ⟨rfl, rfl⟩))
  · unfold State.putValid
    split <;> simp [SameMem]

/-- What the commit of an image leaves. -/
theorem State.frameCommit_spec (s : State) (g : StateImg) (full : Bool) :
    (s.frameCommit g full).plk = { s.plk with image := some g, pend := [], resync := s.plk.resync && !full } ∧
      (∀ k, k < 1024 → s.stSeq k ≤ (s.frameCommit g full).stSeq k) ∧ (s.frameCommit g full).role = s.role ∧
      (s.frameCommit g full).flag R.PLK_PAIR_STAT 8 = decide (fieldN (g.pages.get (fun _ => List.replicate 4096 0) 0) 0x14 4 = s.regN R.LGE_PROG_REV) ∧
      SameMem s (s.frameCommit g full) := by
  have hdef : ∃ x, SeqRaised (s.setPlk fun p => { p with image := some g, pend := [], resync := p.resync && !full }) x ∧
      s.frameCommit g full = x.putValid (fieldN (x.stPage 0) 0x14 4 = x.regN R.LGE_PROG_REV) (wd (fieldN (x.stPage 0) 0x14 4)) := by
    unfold State.frameCommit
    extract_lets u v w pg ms at12 base x
    have hv : SeqRaised u v := .of_regs (l := [R.PLK_CYCLE_LO, R.PLK_CYCLE_HI])
      (fun k hk a ha h => seqRegs_other hk ha (List.mem_append_left _ (List.mem_cons_of_mem _ h))) ((RegsBut.refl _ u).setReg64 _ (by simp) (by simp)) rfl (.refl u)
    have hw : SeqRaised u w := hv.trans (seqTakes_raised _ (fun k hk => List.mem_range.mp hk) v)
    have hx : SeqRaised u x := by
      change SeqRaised u (if w.proto = 1 then w else w.mtrTake ms (fun k => at12 k) (fun o => at12 (128 + o)) base)
      split
      · exact hw
      · exact hw.trans (w.mtrTake_raised _ _ _ _)
    exact ⟨x, hx, rfl⟩
  obtain ⟨x, hx, hcommit⟩ := hdef
  obtain ⟨hplk, hseq, hrole, hflag, hmem⟩ := x.putValid_spec (fieldN (x.stPage 0) 0x14 4 = x.regN R.LGE_PROG_REV) (wd (fieldN (x.stPage 0) 0x14 4))
  rw [hcommit]
  refine ⟨hplk.trans hx.plk, fun k hk => (hx.seq k hk).trans (hseq k hk).ge, hrole.trans (State.role_congr hx.pair), hflag.trans ?_, hx.mem.trans hmem⟩
  rw [State.stPage, hx.plk, State.regN, hx.rev]
  rfl

section stateEnd
variable {s : State} {h : PairHdr} {e : StateEnd}

/-- A STATE_END whose pages, base and CRC do not agree discards the pages. -/
theorem execStateEnd_none (ht : s.pairTakes h 0) (ha : s.acts = false) (hp : s.pendingImage e = none) : execStateEnd h e s =
    .next (((s.noteSeen h 0).setPlk fun p => { p with pend := [], resync := true }).irq plkPage 12) := by
  unfold execStateEnd
  rw [State.keep_takes _ ht]
  dsimp only
  rw [if_neg (by simp [ha]), State.noteSeen_pendingImage, hp]

/-- One that is not final and agrees commits its image. -/
theorem execStateEnd_some {g : StateImg} (ht : s.pairTakes h 0) (ha : s.acts = false) (hp : s.pendingImage e = some g) (hf : e.final = false) :
    execStateEnd h e s = .next ((s.noteSeen h 0).frameCommit g e.full) := by
  unfold execStateEnd
  rw [State.keep_takes _ ht]
  dsimp only
  rw [if_neg (by simp [ha]), State.noteSeen_pendingImage, hp]
  dsimp only
  rw [if_neg (by simp [hf])]

end stateEnd

/-! ### Streams -/

section stream
variable {s : State} {h : PairHdr} {obj : Byte} {gen : Word} {data : List Byte}

/-- The one chunk of a newer object completes it. -/
theorem execStream_whole (ht : s.pairTakes h 1) (hp : s.proto ≠ 1) (h1 : 1 ≤ obj.toNat) (h4 : obj.toNat ≤ 4)
    (hgen : (s.plk.objs.get (fun _ => {}) obj.toNat).gen < gen.toNat) (hd : data ≠ []) : ∃ o : Tab StreamObj → Tab StreamObj,
    execStream h 0 obj true gen data s = .next ((((s.noteSeen h 1).setPlk fun p => { p with objs := o p.objs }).setPlk fun p =>
      { p with heldObj := p.heldObj.set (fun _ => (0, [])) obj.toNat (gen.toNat, data) }).setFlag R.PLK_STREAM_STAT (obj.toNat - 1) true) := by
  have hobj : ((s.noteSeen h 1).plk.objs.get (fun _ => {}) obj.toNat).gen < gen.toNat := hgen
  unfold execStream
  rw [State.keep_takes _ ht]
  dsimp only
  rw [if_neg (by rw [State.noteSeen_proto]; omega), if_neg (Nat.not_lt.mpr hobj.le), if_pos hobj]
  simp only [if_true]
  rw [if_neg (by simpa [Tab.get_set] using hd)]
  have hb : (List.range (0 + 1)).flatMap (fun i => Tab.get (fun _ => []) (Tab.set (fun _ => []) [] 0 data) i) = data := by simp [Tab.get_set]
  rw [hb]
  exact ⟨fun o => o.set (fun _ => {}) obj.toNat { gen := gen.toNat, chunks := Tab.set (fun _ => []) [] 0 data, last := some 0 }, rfl⟩

/-- A chunk of an older object changes nothing. -/
theorem execStream_old (ht : s.pairTakes h 1) (hp : s.proto ≠ 1) (h1 : 1 ≤ obj.toNat) (h4 : obj.toNat ≤ 4)
    (hgen : gen.toNat < (s.plk.objs.get (fun _ => {}) obj.toNat).gen) : execStream h 0 obj true gen data s = .next (s.noteSeen h 1) := by
  have hobj : gen.toNat < ((s.noteSeen h 1).plk.objs.get (fun _ => {}) obj.toNat).gen := hgen
  unfold execStream
  rw [State.keep_takes _ ht]
  dsimp only
  rw [if_neg (by rw [State.noteSeen_proto]; omega), if_pos hobj]

end stream

/-! ### The keeper's mirrored half -/

section keeper
variable {s : State} {h : PairHdr} {data : List Byte}

/-- The first chunk of a half starts its assembly anew. -/
theorem execKeeper_first (ht : s.pairTakes h 2) (ha : s.acts = false) (hp : s.proto ≠ 1) (hk : s.kprCores = true) (hc : s.kpr.cause = 0) :
    execKeeper h 0 data s = .next ((s.noteSeen h 2).setKpr fun k => { k with mirror := Tab.set (fun _ => []) [] 0 data }) := by
  unfold execKeeper
  rw [State.keep_takes _ ht]
  dsimp only
  rw [if_neg (by simp [ha, hp, hk, hc])]
  rw [if_pos (List.any_eq_true.mpr ⟨1, by decide, by simp [Tab.get_set, Tab.get]⟩)]
  rfl

/-- The third chunk of a half ends its assembly, however the half is judged. -/
theorem execKeeper_last (ht : s.pairTakes h 2) (ha : s.acts = false) (hp : s.proto ≠ 1) (hk : s.kprCores = true) (hc : s.kpr.cause = 0) (hd : data ≠ [])
    (h0 : Tab.get (fun _ => []) s.kpr.mirror 0 ≠ []) (h1 : Tab.get (fun _ => []) s.kpr.mirror 1 ≠ []) :
    ∃ t, execKeeper h 2 data s = .next t ∧ t.kpr.mirror = [] := by
  unfold execKeeper
  rw [State.keep_takes _ ht]
  extract_lets old m u b half v t w veto
  have hm (i : Nat) : Tab.get (fun _ => []) m i = if 2 = i then data else Tab.get (fun _ => []) s.kpr.mirror i := Tab.get_set _ _ _ _ _
  have hfull : ((List.range 3).any fun i => (Tab.get (fun _ => []) m i).isEmpty) = false := by
    rw [List.any_eq_false]
    intro i hi
    rcases (by have := List.mem_range.mp hi; omega : i = 0 ∨ i = 1 ∨ i = 2) with rfl | rfl | rfl
    · simpa [hm] using h0
    · simpa [hm] using h1
    · simpa [hm] using hd
  have hv : v.kpr.mirror = [] := rfl
  have hw : w.kpr.mirror = [] := rfl
  clear_value v w
  rw [if_neg (by simp [ha, hp, hk, hc]), if_neg (by simp [hfull])]
  split
  · exact ⟨_, rfl, by simp [State.slog, hv]⟩
  split
  · exact ⟨_, rfl, (State.swapTo_mirror _ _).trans (by simpa using hw)⟩
  · exact ⟨_, rfl, (State.swapTo_mirror _ _).trans hw⟩

end keeper

/-! ### The statement -/

/-- Settles O55: pages, images, streams and the mirrored half, each kept or left as its frame and the side's role say. -/
theorem pairStateAndStreams : Obligations.PairStateAndStreams := by
  intro s h p data e g obj gen k
  refine ⟨fun ht => ⟨fun ha => ?_, fun ha => ?_, fun ha hp => ?_, fun ha hp hf => ?_⟩, fun ht hp h1 h4 hgen hd => ?_, fun ht hp h1 h4 hgen => ?_,
    fun ht ha hp hk hc hd => ⟨?_, fun h0 h1 => ?_⟩, fun ht ha => ?_⟩
  · refine ⟨_, congrArg Host.Outcome.next ((State.keep_takes _ ht).trans (if_neg (by simp [ha]))), ?_, fun q hq => ?_, rfl, rfl, by simp [SameMem, State.noteSeen]⟩
    · exact (Tab.get_set _ _ _ _ _).trans (if_pos rfl)
    · exact (Tab.get_set _ _ _ _ _).trans (if_neg hq.symm)
  · exact ⟨_, congrArg Host.Outcome.next ((State.keep_takes _ ht).trans (if_pos (by simp [ha]))), rfl, rfl, by simp [SameMem, State.noteSeen]⟩
  · exact ⟨_, execStateEnd_none ht ha hp, rfl, rfl, rfl, State.bit_irqStat_irq _ _ (by decide), rfl, by simp [SameMem, State.noteSeen]⟩
  · obtain ⟨hplk, hseq, hrole, hflag, hmem⟩ := (s.noteSeen h 0).frameCommit_spec g e.full
    exact ⟨_, execStateEnd_some ht ha hp hf, congrArg PlkSt.pend hplk, congrArg PlkSt.image hplk, congrArg PlkSt.resync hplk, hseq k, hrole, hflag, hmem⟩
  · obtain ⟨o, hexec⟩ := execStream_whole ht hp h1 h4 hgen hd
    have hregs : RegsBut [R.PLK_STREAM_STAT] s (((s.noteSeen h 1).setPlk fun p => { p with objs := o p.objs }).setPlk fun p =>
      { p with heldObj := p.heldObj.set (fun _ => (0, [])) obj.toNat (gen.toNat, data) }) := .refl _ s
    refine ⟨_, hexec, ?_, ?_, hregs.setFlag _ _ (by simp), by simp [SameMem, State.noteSeen]⟩
    · exact (Tab.get_set _ _ _ _ _).trans (if_pos rfl)
    · exact (State.flag_setFlag _ _ _ _ _ _ (by omega)).trans (if_pos ⟨rfl, rfl⟩)
  · exact ⟨_, execStream_old ht hp h1 h4 hgen, rfl, rfl, rfl, by simp [SameMem, State.noteSeen]⟩
  · refine ⟨_, execKeeper_first ht ha hp hk hc, ?_, fun i hi => ?_, rfl, by simp [SameMem, State.noteSeen]⟩
    · exact (Tab.get_set _ _ _ _ _).trans (if_pos rfl)
    · exact (Tab.get_set _ _ _ _ _).trans (if_neg hi.symm)
  · exact execKeeper_last ht ha hp hk hc hd h0 h1
  · exact ⟨_, congrArg Host.Outcome.next ((State.keep_takes _ ht).trans (if_pos (by simp [ha]))), rfl, rfl, by simp [SameMem, State.noteSeen]⟩

end Sys2Proof.Machine
end

section
/-! Heartbeats, silent paths and lanes of the pair link (R7, R553 to R558). -/

namespace Sys2Proof.Machine

/-! ### Heartbeats sent -/

/-- The pair's state, the registers' stop short of the ports' counters, and the memories are as before. -/
structure PlkKept (s t : State) : Prop where
  plk : t.plk = s.plk
  mem : SameMem s t

theorem PlkKept.refl (s : State) : PlkKept s s := ⟨rfl, .refl s⟩
theorem PlkKept.trans {s t u : State} (h : PlkKept s t) (g : PlkKept t u) : PlkKept s u := ⟨g.plk.trans h.plk, h.mem.trans g.mem⟩

theorem State.ethSend_plk (s : State) (i : Nat) (q : EthQueue) (f : List Byte) : PlkKept s (s.ethSend i q f) := by
  unfold State.ethSend
  cases q <;> dsimp only <;> split <;> exact ⟨rfl, .refl s⟩

theorem State.ethSendTo_plk (s : State) (i : Nat) (q : EthQueue) (ip f : List Byte) : PlkKept s (s.ethSendTo i q ip f) := by
  unfold State.ethSendTo
  dsimp only
  split
  · exact s.ethSend_plk i q f
  · exact ⟨rfl, .refl s⟩

/-! ### The lanes -/

@[simp] theorem State.lane_setLane (s : State) (i j : Nat) (l : PlkLane) : (s.setLane i l).lane j = if i = j then l else s.lane j :=
  Tab.get_set _ _ _ _ _

@[simp] theorem State.laneUp_setLane (s : State) (i j : Nat) (l : PlkLane) : (s.setLane i l).laneUp j = s.laneUp j := rfl

/-- A frame given to the lanes waits on each one that is up. -/
theorem State.lanesPut_lane (s : State) (ty q : Nat) (f : List Byte) (l : Fin 2) (h : s.laneUp l.val = true) :
    (s.lanesPut ty q f).lane l.val = (s.lane l.val).put ty q f := by
  unfold State.lanesPut
  simp only [List.foldl_cons, List.foldl_nil]
  obtain rfl | rfl : l = 0 ∨ l = 1 := by omega
  · have h0 : s.laneUp 0 = true := h
    simp only [h0, if_true, Fin.val_zero]
    split <;> simp
  · have h1 : s.laneUp 1 = true := h
    split <;> simp [h1]

/-- A frame's header has 24 bytes. -/
theorem State.plkFrame_drop (s : State) (ty q i : Nat) (fin : Bool) (b : List Byte) : (s.plkFrame ty q i fin b).drop 24 = b := by
  unfold State.plkFrame
  exact List.drop_left' (by simp)

/-- A heartbeat takes the next sequence, goes to the lanes that are up, and stays the frame sent last. -/
theorem execHeartbeatSend_link (s : State) (hr : s.running 128 = true) (hl : s.pairLink = true) : ∃ t, execHeartbeatSend s = .next t ∧
    PlkKept (s.plkSend 1 0 0 false s.hbPayload) t := by
  unfold execHeartbeatSend
  rw [if_neg (by simp [hr])]
  extract_lets x f ip u
  refine ⟨_, rfl, ?_⟩
  have hu : u = s.plkSend 1 0 0 false s.hbPayload := if_pos hl
  rw [← hu]
  refine foldl_rel (P := PlkKept) .refl .trans (fun v i => ?_) _ u
  split
  · exact v.ethSendTo_plk _ _ _ _
  · exact .refl v

/-- What sending a heartbeat on the link leaves in the pair's state. -/
theorem State.plkSend_heartbeat (s : State) (b : List Byte) (hl : s.pairLink = true) :
    (s.plkSend 1 0 0 false b).plk.seqTx = s.plk.seqTx.set (fun _ => 0) 0 ((s.plk.seqTx.get (fun _ => 0) 0 + 1) % 2 ^ 32) ∧
    (s.plkSend 1 0 0 false b).plk.lastTx = s.plkFrame 1 0 0 false b ∧ SameMem s (s.plkSend 1 0 0 false b) ∧
    ∀ l : Fin 2, s.laneUp l.val = true → ((s.plkSend 1 0 0 false b).lane l.val).hb = (s.lane l.val).hb ++ [s.plkFrame 1 0 0 false b] := by
  have hsend : s.plkSend 1 0 0 false b = ((s.seqNext 0).lanesPut 1 0 (s.plkFrame 1 0 0 false b)).setPlk fun p =>
      { p with lastTx := s.plkFrame 1 0 0 false b } := if_neg (by simp [hl])
  generalize s.plkFrame 1 0 0 false b = f at hsend ⊢
  rw [hsend]
  have hseq : ((s.seqNext 0).lanesPut 1 0 f).plk.seqTx = (s.seqNext 0).plk.seqTx :=
    foldl_fixed (fun u : State => u.plk.seqTx) (fun u i => by split <;> simp) _ _
  obtain ⟨x, hx⟩ := (s.seqNext 0).lanesPut_putLink 1 0 f
  refine ⟨hseq, rfl, ?_, fun l h => ?_⟩
  · rw [hx]
    simp [SameMem, State.putLink, State.seqNext]
  · have hlane := (s.seqNext 0).lanesPut_lane 1 0 f l h
    exact (congrArg PlkLane.hb hlane :)

/-! ### Heartbeats heard -/

/-- What a heartbeat of the other side shows in the pair's state and registers. -/
def State.heard (s : State) (witness : Bool) (h : PairHdr) (b : Heartbeat) : State :=
  ((((s.setPlk fun p => { p with
      hbPair := if witness then p.hbPair else some s.time.log, hbWit := if witness then some s.time.log else p.hbWit, partner := some b,
      pActing := h.acting, pFit := h.fit,
      fitClear := if h.fit then 0 else if witness && s.flag R.PLK_PAIR_STAT 4 then p.fitClear else p.fitClear + 1 }).setFlag
    R.PLK_PAIR_STAT (if witness then 5 else 4) true).setFld R.PLK_PAIR_STAT 7 6 (min s.ownProto b.protoMax.toNat)).setFlag R.PLK_PAIR_STAT 9
      h.fit).setReg R.PLK_PARTNER_EPOCH h.epoch

theorem State.heard_pair (s : State) (h : PairHdr) (b : Heartbeat) : (s.heard false h b).role = s.role ∧
    (s.heard false h b).flag R.PLK_PAIR_STAT 4 = true ∧ (s.heard false h b).fld R.PLK_PAIR_STAT 7 6 = (min s.ownProto b.protoMax.toNat) % 4 := by
  unfold State.heard
  refine ⟨?_, ?_, ?_⟩
  · rw [State.role, State.fld_setReg, if_neg (by decide), State.fld_setFlag_ne _ _ _ (by decide) (by decide),
      State.fld_setFld_ne _ _ _ (by decide) (by decide), State.fld_setFlag_ne _ _ _ (by decide) (by decide)]
    rfl
  · rw [State.flag_setReg, if_neg (by decide), State.flag_setFlag _ _ _ _ _ _ (by decide), if_neg (by decide),
      State.flag_setFld_ne _ _ _ (by decide) (by decide), State.flag_setFlag _ _ _ _ _ _ (by decide), if_pos ⟨rfl, rfl⟩]
  · rw [State.fld_setReg, if_neg (by decide), State.fld_setFlag_ne _ _ _ (by decide) (by decide), State.fld_setFld _ _ _ _ (by decide) (by decide)]
    rfl

theorem State.heard_mem (s : State) (w : Bool) (h : PairHdr) (b : Heartbeat) : SameMem s (s.heard w h b) := by simp [State.heard, SameMem]
theorem State.heard_plk (s : State) (h : PairHdr) (b : Heartbeat) : (s.heard false h b).plk = { s.plk with
    hbPair := some s.time.log, partner := some b, pActing := h.acting, pFit := h.fit, fitClear := if h.fit then 0 else s.plk.fitClear + 1 } := by
  simp [State.heard]
theorem State.heard_epoch (s : State) (w : Bool) (h : PairHdr) (b : Heartbeat) : (s.heard w h b).reg R.PLK_PARTNER_EPOCH = h.epoch :=
  State.reg_setReg_self _ _ _
theorem State.heard_regs (s : State) (w : Bool) (h : PairHdr) (b : Heartbeat) : RegsBut [R.PLK_PAIR_STAT, R.PLK_PARTNER_EPOCH] s (s.heard w h b) := by
  have hplk : RegsBut [R.PLK_PAIR_STAT, R.PLK_PARTNER_EPOCH] s (s.setPlk fun p => { p with
      hbPair := if w then p.hbPair else some s.time.log, hbWit := if w then some s.time.log else p.hbWit, partner := some b,
      pActing := h.acting, pFit := h.fit,
      fitClear := if h.fit then 0 else if w && s.flag R.PLK_PAIR_STAT 4 then p.fitClear else p.fitClear + 1 }) := .refl _ s
  exact (((hplk.setFlag _ _ (by simp)).setFld _ _ _ (by simp)).setFlag _ _ (by simp)).setReg _ (by simp)

/-- A standby hears a heartbeat of a fit partner and goes on standing by. -/
theorem State.hear_standby (s : State) (h : PairHdr) (b : Heartbeat) (hside : h.sideB ≠ s.sideB) (hp : b.protoMax ≠ 0) (hr : s.role = 2)
    (hf : h.fit = true) : s.hear false h b = s.heard false h b := by
  obtain ⟨hrole, -, -⟩ := s.heard_pair h b
  rw [hr] at hrole
  have hfit : (s.heard false h b).plk.fitClear = 0 := if_pos hf
  have hacts : (s.heard false h b).acts = false := State.not_acts (by simp [hrole]) (by simp [hrole])
  unfold State.hear
  rw [if_neg hside, if_neg hp]
  extract_lets pr twin u v w x pRole theirs mine
  have hw : w = s.heard false h b := rfl
  have hx : x = s.heard false h b := if_neg (by simp [hw, hacts])
  rw [hx, if_neg (by simp [hacts, hrole]), if_neg (by simp [hrole]), if_neg (by simp [hfit])]

/-- An error code set and recorded on the pair's page. -/
theorem State.errc_emit_spec (s : State) (c k : Nat) (l : List Word) (hc : c < 0x10000) :
    ((((s.errc plkPage c 0).emit k plkPage l).page 128).errcode = wd c) ∧ ((s.errc plkPage c 0).emit k plkPage l).role = s.role ∧
      RegsBut evrRegs s ((s.errc plkPage c 0).emit k plkPage l) ∧ SameMem s ((s.errc plkPage c 0).emit k plkPage l) := by
  have hregs : RegsBut evrRegs s ((s.errc plkPage c 0).emit k plkPage l) := ((RegsBut.refl _ s).errc _ _ _).emit _ _ _ fun _ h => h
  refine ⟨?_, State.role_congr (hregs _ (by decide)), hregs, by simp [SameMem]⟩
  rw [(s.errc plkPage c 0).page_emit k plkPage l (by decide), State.page_errc, if_pos rfl]
  simp [Nat.mod_eq_of_lt hc]

/-- A frame whose lane is down, or a later copy, changes nothing. -/
theorem State.keep_dropped {s : State} {h : PairHdr} {q : Nat} (k : State → State)
    (hd : s.flag R.PLK_LANE_STAT h.lane.val = false ∨ badProto h = false ∧ s.dup q h.seq = true) : s.keep h q k = s := by
  unfold State.keep
  rcases hd with hd | ⟨hp, hd⟩
  · rw [if_neg (by simp [hd]), if_pos (by simp [hd])]
  · rw [if_neg (by simp [hp]), if_pos (by simp [hd])]

/-! ### The witness path -/

/-- A witness frame of the right length, type and tag, of a supported protocol, is heard. -/
theorem execWitnessHeartbeat_heard (s : State) (raw : List Byte) (ha : s.active 128 = true) (hl : raw.length = 72) (ht : raw.getD 1 0 = 1)
    (hp : raw.getD 0 0 = 1 ∨ raw.getD 0 0 = 2)
    (htag : raw.drop 56 = kmac256 (s.slotKey (s.fld R.PLK_WIT_KEY_SLOT 3 0)) (raw.take 56) 16 "PLK2 WIT") : ∃ g c,
    execWitnessHeartbeat raw s = .next (s.hear true g c) ∧ g.sideB = (fieldN raw 2 1).testBit 0 ∧ g.acting = (fieldN raw 2 1).testBit 1 ∧
    g.fit = (fieldN raw 2 1).testBit 2 ∧ g.epoch = wd (fieldN raw 8 4) ∧ c.role = raw.getD 24 0 ∧ c.protoMax = raw.getD 25 0 ∧
    c.cycle = BitVec.ofNat 64 (fieldN (raw.drop 24) 4 8) := by
  have hn : raw.length - 16 = 56 := by omega
  unfold execWitnessHeartbeat
  rw [if_neg (by simp [ha])]
  extract_lets n fl p g hf c
  have hnval : n = 56 := hn
  have hbad : badProto g = false := by
    change (raw.getD 0 0 != 1 && raw.getD 0 0 != 2) = false
    rcases hp with hp | hp <;> simp only [hp] <;> decide
  have hrole : c.role = raw.getD 24 0 := by simp [c, p]
  have hmax : c.protoMax = raw.getD 25 0 := by simp [c, p]
  refine ⟨g, c, ?_, rfl, rfl, rfl, rfl, hrole, hmax, rfl⟩
  rw [if_neg (by rw [hnval]; exact not_or.mpr ⟨not_not_intro hl, not_or.mpr ⟨not_not_intro ht, not_not_intro htag⟩⟩), if_neg (by simp [hbad])]

/-! ### Silent paths -/

/-- A side that may take over still may once the witness path is silent. -/
theorem State.mayTake_setPairBit (s : State) : (s.setFlag R.PLK_PAIR_STAT 5 false).mayTake = s.mayTake := by
  have hdom : R.PLK_PAIR_STAT ≠ R.PWR_DOM_STAT := by decide
  have hproto : (s.setFlag R.PLK_PAIR_STAT 5 false).proto = s.proto := s.fld_setFlag_ne _ _ (by decide) (by decide)
  have himg : (s.setFlag R.PLK_PAIR_STAT 5 false).flag R.LGE_IMG_STAT 0 = s.flag R.LGE_IMG_STAT 0 :=
    (s.flag_setFlag _ _ _ _ _ (by decide)).trans (if_neg (by decide))
  simp only [State.mayTake, State.fit, State.running_setFlag _ _ _ hdom, State.shown_setFlag _ _ _ hdom, s.role_setPairBit _ (by decide : 2 < 5), hproto, himg]

theorem State.bothSilent_witness (s : State) (h : s.flag R.PLK_PAIR_STAT 4 = false) : (s.setFlag R.PLK_PAIR_STAT 5 false).bothSilent = true := by
  rw [State.bothSilent, State.flag_setFlag _ _ _ _ _ _ (by decide), State.flag_setFlag _ _ _ _ _ _ (by decide), if_neg (by decide), if_pos ⟨rfl, rfl⟩, h]
  rfl

/-- The pair link falls silent while the witness path lives: shown and recorded. -/
theorem execPathSilent_link (s : State) (hr : s.running 128 = true) (h5 : s.flag R.PLK_PAIR_STAT 5 = true) : execPathSilent false s =
    .next (((s.setFlag R.PLK_PAIR_STAT 4 false).irq plkPage 9).emit evPathLost plkPage [0]) := by
  have hlive : (s.setFlag R.PLK_PAIR_STAT 4 false).flag R.PLK_PAIR_STAT 5 = true :=
    (s.flag_setFlag _ _ _ _ _ (by decide)).trans ((if_neg (by decide)).trans h5)
  unfold execPathSilent
  rw [if_neg (by simp [hr])]
  exact if_pos (by simp [State.bothSilent, hlive])

/-- The witness path falls silent after the pair link. -/
theorem execPathSilent_witness (s : State) (hr : s.running 128 = true) (h4 : s.flag R.PLK_PAIR_STAT 4 = false) : execPathSilent true s =
    let u := s.setFlag R.PLK_PAIR_STAT 5 false
    if s.mayTake then .next (u.takeOver true) else if s.role = 1 ∧ s.proto = 2 then .next u.openContest else .next u := by
  have hproto : (s.setFlag R.PLK_PAIR_STAT 5 false).proto = s.proto := s.fld_setFlag_ne _ _ (by decide) (by decide)
  unfold execPathSilent
  rw [if_neg (by simp [hr])]
  dsimp only
  rw [if_pos rfl, if_neg (by simp [s.bothSilent_witness h4]), s.mayTake_setPairBit, s.role_setPairBit _ (by decide), hproto]

/-! ### The statement -/

/-- Settles O54: heartbeats go out and are heard by their rules, silent paths are shown or acted on, and lanes come and go. -/
theorem pairHeartbeats : Obligations.PairHeartbeats := by
  intro s h b raw l
  refine ⟨fun hr hl => ?_, fun hr => ?_, fun ht => ⟨fun hside hp hr hf => ?_, fun hside hp => ?_, fun hside hr => ?_⟩, fun hd => ?_,
    fun ha hl hlane hp => ?_, fun ha => ⟨fun hbad => ?_, fun hlen hty hproto htag => execWitnessHeartbeat_heard s raw ha hlen hty hproto htag⟩,
    fun hr h5 => ?_, fun hr h4 u hu => ⟨fun hm => ?_, fun hr1 hp => ?_, fun hm hr1 => ?_⟩, ?_, fun ha hup => ?_, fun ha => ?_⟩
  · obtain ⟨t, hexec, hplk, hmem⟩ := execHeartbeatSend_link s hr hl
    obtain ⟨hseq, hlast, hsend, hlane⟩ := s.plkSend_heartbeat s.hbPayload hl
    refine ⟨t, hexec, ?_, ?_, hsend.trans hmem, fun hup => ?_⟩
    · rw [hplk, hseq, Tab.get_set, if_pos rfl]
    · rw [hplk, hlast, s.plkFrame_drop]
    · rw [State.lane, hplk]
      exact hlane l hup
  · exact if_pos (by simp [hr])
  · have hexec : exec (.heartbeat h b) s = .next ((s.noteSeen h 0).heard false h b) :=
      congrArg Host.Outcome.next ((State.keep_takes _ ht).trans ((s.noteSeen h 0).hear_standby h b hside hp hr hf))
    obtain ⟨hrole, h4, hproto⟩ := (s.noteSeen h 0).heard_pair h b
    have hplk := (s.noteSeen h 0).heard_plk h b
    rw [hf] at hplk
    exact ⟨_, hexec, (congrArg PlkSt.partner hplk :), (congrArg PlkSt.hbPair hplk :), (congrArg PlkSt.hbWit hplk :), (congrArg PlkSt.pActing hplk :),
      (congrArg PlkSt.pFit hplk :), (congrArg PlkSt.fitClear hplk :), h4, hproto, hrole.trans hr, State.heard_epoch _ _ _ _,
      (s.noteSeen h 0).heard_regs false h b, (s.noteSeen h 0).heard_mem false h b⟩
  · obtain ⟨herr, -, hregs, hmem⟩ := (s.noteSeen h 0).errc_emit_spec 0x102 evPairVersion [0] (by decide)
    refine ⟨_, congrArg Host.Outcome.next ((State.keep_takes _ ht).trans ?_), herr, hregs, hmem⟩
    exact (if_neg hside).trans (if_pos hp)
  · obtain ⟨herr, hrole, hregs, hmem⟩ := (s.noteSeen h 0).errc_emit_spec 0x103 evSideClash [] (by decide)
    refine ⟨_, congrArg Host.Outcome.next ((State.keep_takes _ ht).trans ?_), herr, hrole.trans hr, hregs, hmem⟩
    exact (if_pos hside).trans (if_pos (hrole.trans hr))
  · exact congrArg Host.Outcome.next (State.keep_dropped _ hd)
  · have hbad : badProto h = true := by simp only [badProto, hp]; decide
    refine congrArg Host.Outcome.next ?_
    unfold State.keep
    rw [if_pos (by simp [ha, hl, hlane, hbad]), State.protoDrop, hp]
    rfl
  · refine (if_neg (by simp [ha])).trans (if_pos ?_)
    rcases hbad with hlen | htag
    · exact .inl hlen
    · exact .inr (.inr htag)
  · have hbut : RegsBut ([R.PLK_PAIR_STAT] ++ evrRegs) s (((s.setFlag R.PLK_PAIR_STAT 4 false).irq plkPage 9).emit evPathLost plkPage [0]) :=
      (((RegsBut.refl _ s).setFlag _ _ (by simp)).irq _ _).emit _ _ _ (by simp +contextual)
    have hpair : (((s.setFlag R.PLK_PAIR_STAT 4 false).irq plkPage 9).emit evPathLost plkPage [0]).reg R.PLK_PAIR_STAT =
      (s.setFlag R.PLK_PAIR_STAT 4 false).reg R.PLK_PAIR_STAT := State.reg_emit _ _ _ _ (by decide)
    refine ⟨_, execPathSilent_link s hr h5, ?_, ?_, ?_, ?_, hbut, by simp [SameMem]⟩
    · exact (congrArg (bit · 4) hpair).trans ((s.flag_setFlag _ _ _ _ _ (by decide)).trans (if_pos ⟨rfl, rfl⟩))
    · exact (congrArg (bit · 5) hpair).trans ((s.flag_setFlag _ _ _ _ _ (by decide)).trans ((if_neg (by decide)).trans h5))
    · exact (State.role_congr hpair).trans (s.role_setPairBit _ (by decide))
    · rw [State.page_emit _ _ _ _ (by decide)]
      exact State.bit_irqStat_irq _ _ (by decide)
  · subst hu
    exact (execPathSilent_witness s hr h4).trans (if_pos hm)
  · subst hu
    have hm : s.mayTake = false := by simp [State.mayTake, hr1]
    exact (execPathSilent_witness s hr h4).trans ((if_neg (by simp [hm])).trans (if_pos ⟨hr1, hp⟩))
  · subst hu
    exact (execPathSilent_witness s hr h4).trans ((if_neg (by simp [hm])).trans (if_neg (by simp [hr1])))
  · refine ⟨_, rfl, ?_, ?_, ?_, by simp [State.lanes, SameMem]⟩
    · exact (s.flag_setFlag _ _ _ _ _ (by omega)).trans (if_pos ⟨rfl, rfl⟩)
    · exact (State.lane_setLane _ _ _ _).trans (if_pos rfl)
    · exact ((RegsBut.refl _ s).setFlag (a := R.PLK_LANE_STAT) l.val false (by simp)).same (by simp [State.lanes])
  · refine ⟨_, congrArg Host.Outcome.next (if_pos (by simp [ha, hup])), ?_, ?_, by simp [State.lanes, SameMem]⟩
    · exact (s.flag_setFlag _ _ _ _ _ (by omega)).trans (if_pos ⟨rfl, rfl⟩)
    · exact ((RegsBut.refl _ s).setFlag (a := R.PLK_LANE_STAT) l.val true (by simp)).same (by simp [State.lanes])
  · exact congrArg Host.Outcome.next (if_neg (by simp [ha]))

end Sys2Proof.Machine
end

section
/-! What a command shows: registers, page headers and the recorder. Many operations change these alone, and so leave all else. -/

namespace Sys2Proof.Machine

/-- The registers, the page headers, the interrupt controllers that see them, and the recorder replaced. -/
def State.putShown (s : State) (r : Tab Word) (x : Tab PageHdr) (c : Plics) (e : EvrSt) : State :=
  { s with regs := r, pages := x, plic := c, evr := e }

/-- Registers, page headers and the recorder alone differ. -/
def Shows (s t : State) : Prop := ∃ r x c e, t = s.putShown r x c e

section shows
variable {s t : State}

theorem Shows.refl (s : State) : Shows s s := ⟨s.regs, s.pages, s.plic, s.evr, rfl⟩
theorem Shows.trans {u : State} (h : Shows s t) (g : Shows t u) : Shows s u := by
  obtain ⟨r, x, c, e, rfl⟩ := h
  obtain ⟨r', x', c', e', rfl⟩ := g
  exact ⟨r', x', c', e', rfl⟩
theorem Shows.ite {p : Prop} [Decidable p] {u v : State} (hu : Shows s u) (hv : Shows s v) : Shows s (if p then u else v) := by
  split
  · exact hu
  · exact hv
theorem Shows.foldl {β : Type} {f : State → β → State} (hf : ∀ s b, Shows s (f s b)) (l : List β) (s : State) : Shows s (l.foldl f s) :=
  foldl_rel .refl .trans hf l s

theorem Shows.setReg (a : Nat) (v : Word) (h : Shows s t) : Shows s (t.setReg a v) := h.trans ⟨_, _, _, _, rfl⟩
theorem Shows.setFld (a hi lo x : Nat) (h : Shows s t) : Shows s (t.setFld a hi lo x) := h.setReg _ _
theorem Shows.setFlag (a i : Nat) (b : Bool) (h : Shows s t) : Shows s (t.setFlag a i b) := h.setReg _ _
theorem Shows.incReg (a : Nat) (h : Shows s t) : Shows s (t.incReg a) := h.setReg _ _
theorem Shows.setReg64 (a b n : Nat) (h : Shows s t) : Shows s (t.setReg64 a b n) := (h.setReg _ _).setReg _ _
theorem Shows.setRegs (l : List (Nat × Word)) (h : Shows s t) : Shows s (t.setRegs l) :=
  h.trans (.foldl (fun s _ => (Shows.refl s).setReg _ _) l t)
theorem Shows.setPage (p : Nat) (x : PageHdr) (h : Shows s t) : Shows s (t.setPage p x) := h.trans ⟨_, _, _, _, rfl⟩
theorem Shows.irq (p i : Nat) (h : Shows s t) : Shows s (t.irq p i) := h.setPage _ _
theorem Shows.errc (p c d : Nat) (h : Shows s t) : Shows s (t.errc p c d) := h.setPage _ _
theorem Shows.statBit (p i : Nat) (b : Bool) (h : Shows s t) : Shows s (t.statBit p i b) := h.setPage _ _
theorem Shows.evr (e : EvrSt) (h : Shows s t) : Shows s { t with evr := e } := h.trans ⟨_, _, _, _, rfl⟩
theorem Shows.submit (r : Record) (h : Shows s t) : Shows s (t.submit r) := by
  refine h.trans ?_
  obtain e | e | e | ⟨q, e⟩ := t.submit_cases r <;> rw [e]
  · exact .refl t
  · exact (((Shows.refl t).incReg _).evr _).irq _ _
  · exact (Shows.refl t).incReg _
  · exact (Shows.refl t).evr q
theorem Shows.emit (k p : Nat) (l : List Word) (h : Shows s t) : Shows s (t.emit k p l) := h.submit _
theorem Shows.emitSev (k : Nat) (v : BitVec 2) (p : Nat) (l : List Word) (h : Shows s t) : Shows s (t.emitSev k v p l) := h.submit _

theorem Shows.mem (h : Shows s t) : SameMem s t := by
  obtain ⟨r, x, c, e, rfl⟩ := h
  exact .refl s
theorem Shows.blks (h : Shows s t) : t.blks = s.blks := by
  obtain ⟨r, x, c, e, rfl⟩ := h
  rfl
theorem Shows.pwr (h : Shows s t) : t.pwr = s.pwr := by
  obtain ⟨r, x, c, e, rfl⟩ := h
  rfl
theorem Shows.time (h : Shows s t) : t.time = s.time := by
  obtain ⟨r, x, c, e, rfl⟩ := h
  rfl
theorem Shows.rtc (h : Shows s t) : t.rtc = s.rtc := by
  obtain ⟨r, x, c, e, rfl⟩ := h
  rfl
theorem Shows.kpr (h : Shows s t) : t.kpr = s.kpr := by
  obtain ⟨r, x, c, e, rfl⟩ := h
  rfl
theorem Shows.dsq (h : Shows s t) : t.dsq = s.dsq := by
  obtain ⟨r, x, c, e, rfl⟩ := h
  rfl
theorem Shows.lge (h : Shows s t) : t.lge = s.lge := by
  obtain ⟨r, x, c, e, rfl⟩ := h
  rfl
theorem Shows.resp (h : Shows s t) : t.resp = s.resp := by
  obtain ⟨r, x, c, e, rfl⟩ := h
  rfl

end shows

/-! ### Error codes -/

section errcode
variable (s : State)

theorem State.errcode_irq (p i q : Nat) : ((s.irq p i).page q).errcode = (s.page q).errcode := by
  rw [State.page_irq]
  split
  case isTrue h => rw [h]
  case isFalse => rfl

theorem State.errcode_submit (r : Record) (q : Nat) : ((s.submit r).page q).errcode = (s.page q).errcode := by
  obtain e | e | e | ⟨x, e⟩ := s.submit_cases r <;> rw [e]
  · exact State.errcode_irq _ _ _ _
  · rfl
  · rfl

/-- A report changes no error code. -/
theorem State.errcode_emit (k p : Nat) (l : List Word) (q : Nat) : ((s.emit k p l).page q).errcode = (s.page q).errcode := s.errcode_submit _ q
theorem State.errcode_emitSev (k : Nat) (v : BitVec 2) (p : Nat) (l : List Word) (q : Nat) :
    ((s.emitSev k v p l).page q).errcode = (s.page q).errcode := s.errcode_submit _ q
theorem State.errcode_statBit (p i : Nat) (b : Bool) (q : Nat) : ((s.statBit p i b).page q).errcode = (s.page q).errcode := by
  unfold State.statBit
  rw [State.page_setPage]
  split
  case isTrue h => rw [h]
  case isFalse => rfl

end errcode

end Sys2Proof.Machine
end

section
/-! The ends of passes (R287, R337, R340): what they change of the state. -/

namespace Sys2Proof.Machine

/-- The Sequencer's state and the yard replaced. -/
def State.putPass (s : State) (d : DsqSt) (y : Tab Byte) : State := { s with dsq := d, yard := y }

/-- Registers that the end of a pass writes. -/
def passRegs : List Nat :=
  [R.DSQ_ISO_COUNT, R.DSQ_PASS_STAT, R.DSQ_EST_LAST, R.DSQ_EST_US, R.DSQ_DSP_LAST, R.DSQ_DSP_MS, R.DSQ_DSP_ITERS] ++ evrRegs

/-- What the end of a pass may change. -/
structure PassEnds (s t : State) : Prop where
  shows : ∃ d y, Shows (s.putPass d y) t
  regs : RegsBut passRegs s t
  errcode : ∀ q, q ≠ 57 → (t.page q).errcode = (s.page q).errcode

section passEnds
variable {s t : State}

theorem PassEnds.refl (s : State) : PassEnds s s := ⟨⟨s.dsq, s.yard, .refl s⟩, .refl _ s, fun _ _ => rfl⟩
theorem PassEnds.trans {u : State} (h : PassEnds s t) (g : PassEnds t u) : PassEnds s u := by
  obtain ⟨⟨d, y, r, x, c, e, rfl⟩, hr, he⟩ := h
  obtain ⟨⟨d', y', g⟩, gr, ge⟩ := g
  exact ⟨⟨d', y', Shows.trans ⟨r, x, c, e, rfl⟩ g⟩, hr.trans gr, fun q hq => (ge q hq).trans (he q hq)⟩
/-- A change of what is shown alone. -/
theorem PassEnds.of_shows {u : State} (h : PassEnds s t) (g : Shows t u) (hr : RegsBut passRegs t u)
    (he : ∀ q, q ≠ 57 → (u.page q).errcode = (t.page q).errcode) : PassEnds s u := h.trans ⟨⟨_, _, g⟩, hr, he⟩
theorem PassEnds.setReg {a : Nat} (v : Word) (h : PassEnds s t) (ha : a ∈ passRegs) : PassEnds s (t.setReg a v) :=
  h.of_shows ((Shows.refl t).setReg _ _) ((RegsBut.refl _ t).setReg _ ha) fun _ _ => rfl
theorem PassEnds.setFlag {a : Nat} (i : Nat) (b : Bool) (h : PassEnds s t) (ha : a ∈ passRegs) : PassEnds s (t.setFlag a i b) := h.setReg _ ha
theorem PassEnds.setRegs (l : List (Nat × Word)) (h : PassEnds s t) (hl : ∀ e, e ∈ l → e.1 ∈ passRegs) : PassEnds s (t.setRegs l) :=
  h.of_shows ((Shows.refl t).setRegs _) ((RegsBut.refl _ t).setRegs _ hl) fun q _ => by rw [State.page_setRegs]
theorem PassEnds.irq (p i : Nat) (h : PassEnds s t) : PassEnds s (t.irq p i) :=
  h.of_shows ((Shows.refl t).irq _ _) (.refl _ t) fun q _ => t.errcode_irq p i q
theorem PassEnds.errc (c d : Nat) (h : PassEnds s t) : PassEnds s (t.errc 57 c d) :=
  h.of_shows ((Shows.refl t).errc _ _ _) (.refl _ t) fun q hq => by rw [State.page_errc, if_neg hq]
theorem PassEnds.emit (k p : Nat) (l : List Word) (h : PassEnds s t) : PassEnds s (t.emit k p l) :=
  h.of_shows ((Shows.refl t).emit _ _ _) ((RegsBut.refl _ t).emit _ _ _ fun _ ha => List.mem_append_right _ ha) fun q _ => t.errcode_emit k p l q
theorem PassEnds.emitSev (k : Nat) (v : BitVec 2) (p : Nat) (l : List Word) (h : PassEnds s t) : PassEnds s (t.emitSev k v p l) :=
  h.of_shows ((Shows.refl t).emitSev _ _ _ _) ((RegsBut.refl _ t).emitSev _ _ _ _ fun _ ha => List.mem_append_right _ ha)
    fun q _ => t.errcode_emitSev k v p l q
theorem PassEnds.setDsq (f : DsqSt → DsqSt) (h : PassEnds s t) : PassEnds s (t.setDsq f) :=
  h.trans ⟨⟨f t.dsq, t.yard, .refl _⟩, .refl _ t, fun _ _ => rfl⟩
theorem PassEnds.ite {p : Prop} [Decidable p] {u v : State} (hu : PassEnds s u) (hv : PassEnds s v) : PassEnds s (if p then u else v) := by
  split
  · exact hu
  · exact hv
/-- A step that is taken or not. -/
theorem PassEnds.ite_step {p : Prop} [Decidable p] {u v : State} (hu : PassEnds s u) (hv : PassEnds s u → PassEnds s v) :
    PassEnds s (if p then v else u) := .ite (hv hu) hu
theorem PassEnds.setRelease (b : Option Nat) (h : PassEnds s t) : PassEnds s (t.setRelease b) := by
  unfold State.setRelease
  split
  · exact h
  · exact .ite h (h.trans ⟨⟨t.dsq, _, .refl _⟩, .refl _ t, fun _ _ => rfl⟩)
theorem PassEnds.reportIso (l : List Nat) (h : PassEnds s t) : PassEnds s (t.reportIso l) := by
  have h1 := h.setReg (a := R.DSQ_ISO_COUNT) (wd l.length) (by decide)
  exact .ite h1 (((h1.setDsq _).irq _ _).emit _ _ _)

theorem PassEnds.estEnd (status : Nat) (h : PassEnds s t) : PassEnds s (t.estEnd status) := by
  unfold State.estEnd
  split
  · exact h
  · exact .emitSev _ _ _ _ (.ite_step (.irq _ _ (.setRegs _ (.setFlag _ _ (.setRelease _ (.reportIso _ (h.setDsq _))) (by decide))
      (by simp [passRegs]))) fun h => h.irq _ _)
theorem PassEnds.dspEnd (status : Nat) (rexp : Word) (h : PassEnds s t) : PassEnds s (t.dspEnd status rexp) := by
  unfold State.dspEnd
  split
  · exact h
  · exact .emitSev _ _ _ _ (.ite_step (.irq _ _ (.setRegs _ (.setFlag _ _ (.setRelease _ (h.setDsq _)) (by decide))
      (by simp [passRegs]))) fun h => h.irq _ _)
theorem PassEnds.hydEnd (h : PassEnds s t) : PassEnds s t.hydEnd := (h.setDsq _).setFlag _ _ (by decide)
theorem PassEnds.passesStopped (h : PassEnds s t) : PassEnds s t.passesStopped := ((h.estEnd _).dspEnd _ _).hydEnd
theorem PassEnds.passesDown (h : PassEnds s t) : PassEnds s t.passesDown := by
  unfold State.passesDown
  exact .ite h (.ite_step (.dspEnd _ _ (.ite_step (.estEnd _ (.ite_step h fun h => h.errc _ _)) fun h => h.errc _ _))
    fun h => .hydEnd (.setDsq _ (.ite_step h fun h => h.errc _ _)))

theorem PassEnds.blks (h : PassEnds s t) : t.blks = s.blks := by
  obtain ⟨d, y, h⟩ := h.shows
  exact h.blks
theorem PassEnds.blk (h : PassEnds s t) (p : Nat) : t.blk p = s.blk p := by rw [State.blk, h.blks, State.blk]
theorem PassEnds.pwr (h : PassEnds s t) : t.pwr = s.pwr := by
  obtain ⟨d, y, h⟩ := h.shows
  exact h.pwr
theorem PassEnds.kpr (h : PassEnds s t) : t.kpr = s.kpr := by
  obtain ⟨d, y, h⟩ := h.shows
  exact h.kpr

end passEnds

/-! ### No pass runs -/

/-- No pass runs. -/
def State.noPass (s : State) : Prop := s.dsq.est = none ∧ s.dsq.dsp = none ∧ s.dsq.hyd = none

section noPass
variable {s : State}

theorem State.setRelease_dsq (s : State) (b : Option Nat) : (s.setRelease b).dsq = s.dsq := by
  unfold State.setRelease
  split
  · rfl
  · dsimp only
    split
    · rfl
    · rfl
theorem State.reportIso_dsq (s : State) (l : List Nat) : (s.reportIso l).dsq.est = s.dsq.est ∧ (s.reportIso l).dsq.dsp = s.dsq.dsp ∧
    (s.reportIso l).dsq.hyd = s.dsq.hyd := by
  unfold State.reportIso
  dsimp only
  split
  · simp
  · simp [State.setDsq]

/-- The ends of the passes clear their places alone. -/
theorem State.estEnd_dsq (s : State) (st : Nat) : (s.estEnd st).dsq.est = none ∧ (s.estEnd st).dsq.dsp = s.dsq.dsp ∧
    (s.estEnd st).dsq.hyd = s.dsq.hyd := by
  unfold State.estEnd
  split
  case h_1 h => exact ⟨h, rfl, rfl⟩
  case h_2 p h =>
    have hr := (s.setDsq fun d => { d with est := none }).reportIso_dsq p.iso
    have hd (u : State) (c : Prop) [Decidable c] : (if c then u.irq dsqPage 10 else u).dsq = u.dsq := by
      split
      · rfl
      · rfl
    simp only [State.emitSev_dsq, hd, State.irq_dsq, State.setRegs_dsq, State.setFlag_dsq, State.setRelease_dsq]
    exact hr
theorem State.dspEnd_dsq (s : State) (st : Nat) (x : Word) : (s.dspEnd st x).dsq.est = s.dsq.est ∧ (s.dspEnd st x).dsq.dsp = none ∧
    (s.dspEnd st x).dsq.hyd = s.dsq.hyd := by
  unfold State.dspEnd
  split
  case h_1 h => exact ⟨rfl, h, rfl⟩
  case h_2 p h =>
    have hd (u : State) (c : Prop) [Decidable c] : (if c then u.irq dsqPage 10 else u).dsq = u.dsq := by
      split
      · rfl
      · rfl
    simp only [State.emitSev_dsq, hd, State.irq_dsq, State.setRegs_dsq, State.setFlag_dsq, State.setRelease_dsq]
    exact ⟨rfl, rfl, rfl⟩

theorem State.passesStopped_noPass (s : State) : s.passesStopped.noPass := by
  obtain ⟨he, -, -⟩ := s.estEnd_dsq 12
  obtain ⟨he', hd', -⟩ := (s.estEnd 12).dspEnd_dsq 12 0
  exact ⟨he'.trans he, hd', rfl⟩

/-- With no pass, none ends. -/
theorem State.passesDown_noPass (h : s.noPass) : s.passesDown = s := by
  obtain ⟨he, hd, hh⟩ := h
  unfold State.passesDown
  split
  · rfl
  · simp [he, hd, hh, State.estEnd, State.dspEnd]

end noPass

end Sys2Proof.Machine
end

section
/-! Block states (R87 to R99): what the requests of CTRL do, register writes by access code, and the LPDDR5 controller (R84, R85). -/

namespace Sys2Proof.Machine

/-- A property that the step of one element gives and no step takes away holds after a fold over a list with that element. -/
theorem foldl_establish {α β : Type} {P : α → Prop} {f : α → β → α} {b : β} (hset : ∀ s, P (f s b)) (hkeep : ∀ s c, P s → P (f s c))
    {l : List β} (hb : b ∈ l) (s : α) : P (l.foldl f s) := by
  induction l generalizing s with
  | nil => exact absurd hb List.not_mem_nil
  | cons c l ih =>
    rcases List.mem_cons.mp hb with rfl | h
    · exact List.foldlRecOn l f (hset s) fun u hu c _ => hkeep u c hu
    · exact ih h _

/-! ### Page headers alone -/

/-- The page headers, and the interrupt controllers that see them, replaced. -/
def State.putPages (s : State) (x : Tab PageHdr) (c : Plics) : State := { s with pages := x, plic := c }

/-- Page headers alone differ. -/
def OnlyPages (s t : State) : Prop := ∃ x c, t = s.putPages x c

section onlyPages
variable {s t : State}

theorem OnlyPages.refl (s : State) : OnlyPages s s := ⟨s.pages, s.plic, rfl⟩
theorem OnlyPages.trans {u : State} (h : OnlyPages s t) (g : OnlyPages t u) : OnlyPages s u := by
  obtain ⟨x, c, rfl⟩ := h
  obtain ⟨y, d, rfl⟩ := g
  exact ⟨y, d, rfl⟩
theorem OnlyPages.setPage (p : Nat) (x : PageHdr) (h : OnlyPages s t) : OnlyPages s (t.setPage p x) := h.trans ⟨_, _, rfl⟩
theorem OnlyPages.irq (p i : Nat) (h : OnlyPages s t) : OnlyPages s (t.irq p i) := h.setPage _ _
theorem OnlyPages.errc (p c d : Nat) (h : OnlyPages s t) : OnlyPages s (t.errc p c d) := h.setPage _ _
theorem OnlyPages.statBit (p i : Nat) (b : Bool) (h : OnlyPages s t) : OnlyPages s (t.statBit p i b) := h.setPage _ _
theorem OnlyPages.foldl {β : Type} {f : State → β → State} (hf : ∀ s b, OnlyPages s (f s b)) (l : List β) (s : State) :
    OnlyPages s (l.foldl f s) := foldl_rel .refl .trans hf l s
theorem OnlyPages.stateChg (p : Nat) (h : OnlyPages s t) : OnlyPages s (t.stateChg p) :=
  h.trans (.foldl (fun s q => (OnlyPages.refl s).irq q 0) _ t)

theorem OnlyPages.blk (h : OnlyPages s t) (p : Nat) : t.blk p = s.blk p := by
  obtain ⟨x, c, rfl⟩ := h
  rfl
theorem OnlyPages.regs (h : OnlyPages s t) : t.regs = s.regs := by
  obtain ⟨x, c, rfl⟩ := h
  rfl
theorem OnlyPages.mem (h : OnlyPages s t) : SameMem s t := by
  obtain ⟨x, c, rfl⟩ := h
  exact .refl s

end onlyPages

/-! ### Block states -/

section blocks
variable (s : State) (p : Nat)

theorem State.blk_stateChg (q : Nat) : (s.stateChg p).blk q = s.blk q := ((OnlyPages.refl s).stateChg p).blk q

/-- A block that is put into a state is in it. -/
theorem State.st_setSt (st : BState) : ((s.setSt p st).blk p).st = st := by
  unfold State.setSt
  dsimp only
  split
  case isTrue h => exact h
  case isFalse => rw [State.blk_stateChg, State.blk_setBlk, if_pos rfl]

theorem State.setSt_regs (st : BState) : (s.setSt p st).regs = s.regs := by
  unfold State.setSt
  dsimp only
  split
  · rfl
  · exact ((OnlyPages.refl _).stateChg p).regs

theorem State.setSt_mem (st : BState) : SameMem s (s.setSt p st) := by
  unfold State.setSt
  dsimp only
  split
  · exact .refl s
  · exact SameMem.trans (by simp [SameMem]) ((OnlyPages.refl _).stateChg p).mem

/-- The page headers after the entry into RUN. -/
theorem State.toRun_pages : OnlyPages (s.setBlk p { s.blk p with st := .run, draining := false, abandoned := false, req := 3, gen := (s.blk p).gen + 1 })
    (s.toRun p) :=
  (OnlyPages.foldl (fun s q => (OnlyPages.refl s).setPage q _) _ _).stateChg p

theorem State.blk_toRun : (s.toRun p).blk p =
    { s.blk p with st := .run, draining := false, abandoned := false, req := 3, gen := (s.blk p).gen + 1 } :=
  ((s.toRun_pages p).blk p).trans ((s.blk_setBlk p p _).trans (if_pos rfl))

theorem State.errcode_stateChg (q : Nat) : ((s.stateChg p).page q).errcode = (s.page q).errcode :=
  foldl_fixed (fun u : State => (u.page q).errcode) (fun u r => u.errcode_irq r 0 q) _ s

/-- ERRCODE of a block that enters RUN clears. -/
theorem State.errcode_toRun (h : p ∈ pagesOf p) : ((s.toRun p).page p).errcode = 0 := by
  unfold State.toRun
  rw [State.errcode_stateChg]
  refine foldl_establish (P := fun u : State => (u.page p).errcode = 0) (fun u => ?_) (fun u q hu => ?_) h _
  · rw [State.page_setPage, if_pos rfl]
  · rw [State.page_setPage]
    split
    · rfl
    · exact hu

theorem State.blk_toStopAbandoned : (s.toStopAbandoned p).blk p = { s.blk p with st := .stop, draining := false, abandoned := true } :=
  (State.blk_stateChg _ p p).trans ((s.blk_setBlk p p _).trans (if_pos rfl))

/-- A block that fails is in FAULT with its code, and its memories stay. -/
theorem State.fail_blk (code detail : Nat) :
    (s.fail p code detail).blk p = { s.blk p with st := .fault, draining := false, abandoned := true } := by
  have h : OnlyPages (s.setBlk p { s.blk p with st := .fault, draining := false, abandoned := true }) (s.toFault p) :=
    .foldl (fun s q => ((OnlyPages.refl s).irq q 0).irq q 3) _ _
  rw [State.fail, State.blk_emit, State.blk_errc, h.blk, State.blk_setBlk, if_pos rfl]

theorem State.toFault_regs : (s.toFault p).regs = s.regs :=
  (OnlyPages.foldl (fun s q => ((OnlyPages.refl s).irq q 0).irq q 3) (pagesOf p) _).regs
theorem State.toFault_mem : SameMem s (s.toFault p) :=
  SameMem.trans (by simp [SameMem]) (OnlyPages.foldl (fun s q => ((OnlyPages.refl s).irq q 0).irq q 3) (pagesOf p)
    (s.setBlk p { s.blk p with st := .fault, draining := false, abandoned := true })).mem

theorem State.fail_mem (code detail : Nat) : SameMem s (s.fail p code detail) :=
  (s.toFault_mem p).trans (by simp [State.fail, SameMem])
theorem State.reg_fail (code detail : Nat) {a : Nat} (h : a ∉ evrRegs) : (s.fail p code detail).reg a = s.reg a := by
  rw [State.fail, State.reg_emit _ _ _ _ h, State.reg_errc, State.reg, State.toFault_regs, State.reg]
theorem State.errcode_fail {code detail : Nat} (hc : code < 0x10000) (hd : detail < 0x10000) :
    ((s.fail p code detail).page p).errcode = wd (code + 0x10000 * detail) := by
  rw [State.fail, State.errcode_emit, State.page_errc, if_pos rfl, Nat.mod_eq_of_lt hc, Nat.mod_eq_of_lt hd]

end blocks

/-- A block's page is its own first page, and one of its pages. -/
theorem firstPage_blockPage (b : Block) : firstPage (blockPage b) = blockPage b := by
  cases b <;> simp only [blockPage] <;> first | rfl | (simp only [firstPage]; split_ifs <;> omega)
theorem mem_pagesOf_self (p : Nat) : p ∈ pagesOf p := by
  unfold pagesOf
  split_ifs <;> simp [*]

/-! ### Writes by access code -/

section writes
variable {s : State} {who : Initiator} {a val : Word} {r : RegRow}

/-- A write that reaches a register of a table with no row of its own acts by its access code. -/
theorem plainRegWrite_rowWrite (h : MayWrite who a.toNat s = true) (ho : ownRow a.toNat = false) (h1 : 0x100 ≤ ofsOf a.toNat)
    (hr : regRow a.toNat = some r) : exec (.plainRegWrite who a val true) s = .next ((s.answer 0).rowWrite a.toNat val r) := by
  refine congrArg Host.Outcome.next ((if_pos rfl).trans ?_)
  have hb := h
  simp only [MayWrite, Bool.and_eq_true, decide_eq_true_eq] at hb
  obtain ⟨⟨⟨⟨⟨h0, hlo, hhi⟩, hp⟩, -⟩, -⟩, -⟩ := hb
  rw [State.regWrite, if_neg (not_not_intro h0), if_neg (by omega), if_neg (by simp [hp]), if_neg (by simp [ho]), State.genericWrite,
    s.gate_may _ h, if_neg (by omega), State.tableWrite, hr]

end writes

/-- Settles O3: the row's access code decides the write, and IRQ_SET goes to the page header. -/
theorem plainWriteByAccessCode : Obligations.PlainWriteByAccessCode := by
  intro s who a val r h ho ht
  have hset (v : Word) : RegsBut [a.toNat] s ((s.answer 0).setReg a.toNat v) ∧ SameMem s ((s.answer 0).setReg a.toNat v) :=
    ⟨((RegsBut.refl _ s).answer 0).setReg _ List.mem_cons_self, by simp [SameMem]⟩
  refine ⟨fun h1 hr => ⟨fun hacc => ?_, fun hacc => ?_, fun hacc => ?_⟩, fun page hm hp => ?_⟩
  · refine ⟨(s.answer 0).setReg a.toNat (val &&& writeMask a.toNat r), (plainRegWrite_rowWrite h ho h1 hr).trans (congrArg _ ?_), by simp,
      (hset _).1, (hset _).2, by simp, by simp⟩
    rcases hacc with hacc | ⟨hacc, hs⟩
    · simp only [State.rowWrite, hacc, State.rwWrite, ht]
    · simp only [State.rowWrite, hacc, State.rws, State.shown_answer, if_pos hs]
  · refine ⟨(s.answer 0).setReg a.toNat (s.reg a.toNat &&& ~~~(val &&& writeMask a.toNat r)),
      (plainRegWrite_rowWrite h ho h1 hr).trans (congrArg _ ?_), by simp, (hset _).1, (hset _).2, by simp, by simp⟩
    simp only [State.rowWrite, hacc, State.reg_answer]
  · refine (plainRegWrite_rowWrite h ho h1 hr).trans (congrArg _ ?_)
    simp only [State.rowWrite, hacc]
    rfl
  · have ho : ofsOf (pageBase page.toNat + 0x1C) = 0x1C := by simp only [ofsOf, pageBase]; omega
    refine ⟨_, congrArg Host.Outcome.next (s.gate_may _ hm), ?_⟩
    dsimp only
    rw [if_pos (by omega), hp, ho, State.hdrWrite]
    refine ⟨(State.page_setPage _ _ _ _).trans (if_pos rfl), by simp, by simp, by simp [SameMem], fun q hq => ?_⟩
    exact (State.page_setPage _ _ _ _).trans (if_neg hq)

/-- Settles O4: the access code sends the write to the report. -/
theorem rwsWriteOutsideStopRefused : Obligations.RwsWriteOutsideStopRefused := by
  intro s who a val r h ho h1 hr hacc hs
  refine (plainRegWrite_rowWrite h ho h1 hr).trans (congrArg _ ?_)
  simp only [State.rowWrite, hacc, State.rws, State.shown_answer, if_neg hs]
  rfl

/-- BLOCKERR follows the code put. -/
theorem blockerr_bit (e : BitVec 6) (code : Nat) : (if 0x100 ≤ code then e ||| 0x20 else e &&& 0x1F).getLsbD 5 = decide (0x100 ≤ code) := by
  split
  · simp_all
  · simp_all

/-- Settles O5: both operations replace the header of one page. -/
theorem causeAndErrorCode : Obligations.CauseAndErrorCode := by
  intro s p i code detail q hi hc hd
  refine ⟨?_, ?_, ?_, fun hq => ⟨(s.page_irq p i q).trans (if_neg hq), (s.page_errc p code detail q).trans (if_neg hq)⟩⟩
  · rw [State.page_irq, if_pos rfl]
  · rw [State.page_errc, if_pos rfl, Nat.mod_eq_of_lt hc, Nat.mod_eq_of_lt hd]
    exact toNat_wd (by omega)
  · rw [State.page_errc, if_pos rfl, Nat.mod_eq_of_lt hc]
    exact blockerr_bit _ _

/-! ### Requests of CTRL -/

section requests
variable (s : State) (p : Nat)

/-- A note of the run record changes its two registers alone. -/
theorem State.noteRun_cases (run : Bool) : s.noteRun p run = s ∨ ∃ a i, a ≠ R.PWR_DOM_STAT ∧ s.noteRun p run = s.setFlag a i run := by
  unfold State.noteRun
  split
  · exact .inl rfl
  · split
    · exact .inr ⟨_, _, by decide, rfl⟩
    · exact .inr ⟨_, _, by decide, rfl⟩

theorem State.shown_noteRun (run : Bool) (q : Nat) : (s.noteRun p run).shown q = s.shown q := by
  obtain h | ⟨a, i, ha, h⟩ := s.noteRun_cases p run <;> rw [h]
  exact s.shown_setFlag i run ha q

theorem State.active_noteRun (run : Bool) (q : Nat) : (s.noteRun p run).active q = s.active q := by
  simp only [State.active, State.shown_noteRun]

theorem State.stopRefused_congr {s t : State} (h : ∀ q, t.shown q = s.shown q) (p : Nat) : t.stopRefused p = s.stopRefused p := by
  simp only [State.stopRefused, h]

variable {s p} {who : Initiator} {b : Block}

/-- A write of CTRL that may reach its block does. -/
theorem ctrlWrite_reach {val : Word} (h : MayWrite who (pageBase (blockPage b) + 0xC) s = true) (hc : critOf (blockPage b) = true → who = .quay) :
    s.ctrlWrite who (blockPage b) val = (s.answer 0).ctrlReach (blockPage b) (who == .quay) val := by
  rw [State.ctrlWrite, s.gate_may _ h, if_neg (not_not_intro (firstPage_blockPage b)), if_neg]
  rw [Bool.and_eq_true, bne_iff_ne]
  exact fun hx => hx.2 (hc hx.1)

/-- RUN takes the request with the run record noted. -/
theorem ctrlReach_run {crit : Bool} (hf : firstPage p = p) (hs : s.pwr.saving = false) (h0 : s.shown p ≠ 0) :
    s.ctrlReach p crit 3 = (s.noteRun p true).reqRun p crit 3 := by
  rw [State.ctrlReach, if_neg (by simp [hf, hs, h0])]
  rfl
/-- STOP likewise. -/
theorem ctrlReach_stop {crit : Bool} (hf : firstPage p = p) (hs : s.pwr.saving = false) (h0 : s.shown p ≠ 0) :
    s.ctrlReach p crit 1 = (s.noteRun p false).reqStop p 1 := by
  rw [State.ctrlReach, if_neg (by simp [hf, hs, h0])]
  rfl
/-- FORCE_STOP of a block that works. -/
theorem ctrlReach_force {crit : Bool} (hf : firstPage p = p) (hs : s.pwr.saving = false) (h0 : s.shown p = 3) :
    s.ctrlReach p crit 0x101 = (s.noteRun p false).reqForce p 0x101 := by
  rw [State.ctrlReach, if_neg (by simp [hf, hs, h0])]
  have ha : (s.noteRun p false).active p = true := by rw [State.active_noteRun, State.active, h0]; rfl
  exact if_pos (show (bit 0x101 8 && (noStop p || (s.noteRun p false).active p)) = true by rw [ha, Bool.or_true]; rfl)

end requests

theorem blockPage_eq_drm {b : Block} : blockPage b = drmPage ↔ b = .drm := by
  cases b <;> simp only [blockPage, drmPage, reduceCtorEq, iff_false] <;> omega

/-- Settles O6: the request reaches the block, and its conditions hold. -/
theorem runRequestStartsBlock : Obligations.RunRequestStartsBlock := by
  intro s who b h hc hs h1 hbad
  have hreach : exec (.blockRunReq who b) s = .next (((s.answer 0).noteRun (blockPage b) true).reqRun (blockPage b) (who == .quay) 3) :=
    congrArg Host.Outcome.next ((ctrlWrite_reach h hc).trans (ctrlReach_run (s := s.answer 0) (firstPage_blockPage b) hs (by simp [h1])))
  have hshown : ((s.answer 0).noteRun (blockPage b) true).shown (blockPage b) = 1 := by rw [State.shown_noteRun, State.shown_answer, h1]
  have hrun : ((s.answer 0).noteRun (blockPage b) true).reqRun (blockPage b) (who == .quay) 3 =
      if blockPage b = drmPage then (((s.answer 0).noteRun (blockPage b) true).setReq (blockPage b) 3).setFld R.DRM_TRAIN_STAT 1 0 0
      else (((s.answer 0).noteRun (blockPage b) true).toRun (blockPage b)).onRun (blockPage b) (who == .quay) := by
    rw [State.reqRun, if_neg (by omega), if_neg (by omega), hbad]
  refine ⟨fun hb => ?_, fun hb => ?_, ?_, ?_, ?_, s.errcode_toRun _ (mem_pagesOf_self _)⟩
  · rw [hreach, hrun, if_neg (mt blockPage_eq_drm.mp hb)]
  · rw [hreach, hrun, if_pos (blockPage_eq_drm.mpr hb)]
    subst hb
    rfl
  all_goals rw [State.blk_toRun]

/-! ### Leaving RUN and FAULT -/

section leaving
variable {s : State} {p : Nat}

/-- A block in RUN that may stop begins its drain. -/
theorem State.reqStop_run {val : Word} (hr : s.stopRefused p = false) (h3 : s.shown p = 3) : s.reqStop p val =
    if p = 120 ∨ p = 121 ∨ p = 224 then ((((s.setReq p 1).setSt p .drain).onDrain p).passesDown).drained p
    else (((s.setReq p 1).setSt p .drain).onDrain p).passesDown := by
  rw [State.reqStop, if_neg (by simp [hr]), if_pos h3]
theorem State.reqStop_refused {val : Word} (hr : s.stopRefused p = true) : s.reqStop p val = s.refuse p val (8, val.toNat) := by
  rw [State.reqStop, if_pos hr]

/-- The cause of a FAULT is gone once the bits of its registers are back. -/
theorem State.causeGone_of (hclk : (s.page p).err.getLsbD sbClk = true → s.flag R.CLK_ISL_STAT (domOf p) = true)
    (hbo : (s.page p).err.getLsbD sbBo = true → s.regN R.PWR_RAIL_MON &&& railsOf (domOf p) = railsOf (domOf p))
    (hnsu : p = 48 → s.fld R.NSU_ACTIVE 7 4 ≠ 15) (hkpr : p = 16 → s.kpr.stopped = false) : s.causeGone p = true := by
  simp only [State.causeGone, Bool.and_eq_true, Bool.or_eq_true, Bool.not_eq_true', Bool.and_eq_false_iff, beq_iff_eq, beq_eq_false_iff_ne]
  refine ⟨⟨⟨?_, ?_⟩, ?_⟩, ?_⟩
  · exact (Bool.eq_false_or_eq_true _).symm.imp_right hclk
  · exact (Bool.eq_false_or_eq_true _).symm.imp_right hbo
  · exact Decidable.not_or_of_imp hnsu
  · exact Decidable.not_or_of_imp hkpr

/-- A block that leaves FAULT is in STOP, or in RUN where it cannot be stopped; registers and memories stay. -/
theorem State.faultLeft_spec (s : State) (p : Nat) : ((s.faultLeft p).blk p).st = (if noStop p then .run else .stop) ∧
    (s.faultLeft p).regs = s.regs ∧ SameMem s (s.faultLeft p) := by
  have h : OnlyPages s ((pagesOf p).foldl (fun (s : State) q => (s.statBit q sbClk false).statBit q sbBo false) s) :=
    .foldl (fun s q => ((OnlyPages.refl s).statBit _ _ _).statBit _ _ _) _ _
  unfold State.faultLeft
  generalize (pagesOf p).foldl (fun (s : State) q => (s.statBit q sbClk false).statBit q sbBo false) s = t at h ⊢
  dsimp only
  split
  · exact ⟨by rw [State.blk_toRun], ((t.toRun_pages p).regs.trans h.regs), h.mem.trans (SameMem.trans (by simp [SameMem]) (t.toRun_pages p).mem)⟩
  · exact ⟨t.st_setSt p _, (t.setSt_regs p _).trans h.regs, h.mem.trans (t.setSt_mem p _)⟩

end leaving

theorem ite_lt {c : Prop} [Decidable c] {a b n : Nat} (ha : a < n) (hb : b < n) : (if c then a else b) < n := by
  split
  · exact ha
  · exact hb
theorem domOf_lt (p : Nat) : domOf p < 32 := by
  unfold domOf
  repeat' apply ite_lt
  all_goals decide
theorem railsOf_lt (k : Nat) : railsOf k < 2 ^ 32 := by
  unfold railsOf
  split_ifs <;> decide

/-- The state in which a FAULT_CLR that reaches a block in FAULT is judged: the lock and the rails that its finding names are back. -/
def State.findingGone (s : State) (p : Nat) : State :=
  let e := (s.page p).err
  let s := if e.getLsbD sbClk then s.setFlag R.CLK_ISL_STAT (domOf p) true else s
  if e.getLsbD sbBo then s.setReg R.PWR_RAIL_MON (s.reg R.PWR_RAIL_MON ||| wd (railsOf (domOf p))) else s

section finding
variable (s : State) (p : Nat)

theorem State.findingGone_only : OnlyRegs s (s.findingGone p) :=
  .ite (.setReg _ _ (.ite (.setFlag _ _ _ (.refl s)) (.refl s))) (.ite (.setFlag _ _ _ (.refl s)) (.refl s))

theorem State.findingGone_regs : RegsBut [R.CLK_ISL_STAT, R.PWR_RAIL_MON] s (s.findingGone p) := by
  unfold State.findingGone
  dsimp only
  split_ifs
  · exact ((RegsBut.refl _ s).setFlag (a := R.CLK_ISL_STAT) _ _ (by simp)).setReg _ (by simp)
  · exact (RegsBut.refl _ s).setReg _ (by simp)
  · exact (RegsBut.refl _ s).setFlag (a := R.CLK_ISL_STAT) _ _ (by simp)
  · exact .refl _ s

theorem State.findingGone_flag (h : (s.page p).err.getLsbD sbClk = true) : (s.findingGone p).flag R.CLK_ISL_STAT (domOf p) = true := by
  unfold State.findingGone
  simp only [h, if_true]
  split
  · rw [State.flag_setReg, if_neg (by decide), State.flag_setFlag _ _ _ _ _ _ (domOf_lt p), if_pos ⟨rfl, rfl⟩]
  · rw [State.flag_setFlag _ _ _ _ _ _ (domOf_lt p), if_pos ⟨rfl, rfl⟩]

theorem State.findingGone_rails (h : (s.page p).err.getLsbD sbBo = true) :
    (s.findingGone p).regN R.PWR_RAIL_MON &&& railsOf (domOf p) = railsOf (domOf p) := by
  unfold State.findingGone
  simp only [h, if_true, State.regN, State.reg_setReg_self, BitVec.toNat_or, toNat_wd (railsOf_lt _)]
  rw [Nat.and_or_distrib_right, Nat.and_self]
  refine Nat.eq_of_testBit_eq fun i => ?_
  simp only [Nat.testBit_or, Nat.testBit_and]
  cases (railsOf (domOf p)).testBit i <;> simp

end finding

section clear
variable {s : State} {who : Initiator} {b : Block} {gone : Bool}

/-- FAULT_CLR judges the state with its finding gone, where it reaches the block. -/
theorem faultClr_reach (h : MayWrite who (pageBase (blockPage b) + 0xC) s = true) (hc : critOf (blockPage b) = true → who = .quay)
    (hs : s.pwr.saving = false) (hgone : (gone && s.shown (blockPage b) == 4) = true) : exec (.faultClr who b gone) s = .next
      (((s.answer 0).findingGone (blockPage b)).reqClear (blockPage b) 0x200 (((s.answer 0).findingGone (blockPage b)).causeGone (blockPage b))) := by
  obtain ⟨hg, hf⟩ := Bool.and_eq_true _ _ ▸ hgone
  refine congrArg Host.Outcome.next ((s.gate_may _ h).trans ?_)
  dsimp only
  rw [if_neg (by rw [Bool.and_eq_true, bne_iff_ne]; exact fun hx => hx.2 (hc hx.1)), if_neg (by simp [hs])]
  simp only [State.shown_answer, hf, hg, Bool.true_and]
  rfl
/-- With the cause there, or out of FAULT, it is refused. -/
theorem faultClr_refused (h : MayWrite who (pageBase (blockPage b) + 0xC) s = true) (hc : critOf (blockPage b) = true → who = .quay)
    (hs : s.pwr.saving = false) (hgone : (s.shown (blockPage b) == 4 && gone) = false) : exec (.faultClr who b gone) s = .next
      ((s.answer 0).refuse (blockPage b) 0x200 (8, 0x200)) := by
  refine congrArg Host.Outcome.next ((s.gate_may _ h).trans ?_)
  dsimp only
  rw [if_neg (by rw [Bool.and_eq_true, bne_iff_ne]; exact fun hx => hx.2 (hc hx.1)), if_neg (by simp [hs])]
  simp only [State.shown_answer, hgone, Bool.false_and, Bool.false_eq_true, if_false]
  rw [State.reqClear, if_neg]
  · rfl
  · rw [Bool.and_eq_true, State.shown_answer]
    rintro ⟨hf, hg, -⟩
    simp [hf, hg] at hgone

theorem faultClr_left (h : MayWrite who (pageBase (blockPage b) + 0xC) s = true) (hc : critOf (blockPage b) = true → who = .quay)
    (hs : s.pwr.saving = false) (h4 : s.shown (blockPage b) = 4) (hnsu : blockPage b = 48 → s.fld R.NSU_ACTIVE 7 4 ≠ 15)
    (hkpr : blockPage b = 16 → s.kpr.stopped = false) :
    exec (.faultClr who b true) s = .next (((s.answer 0).findingGone (blockPage b)).faultLeft (blockPage b)) := by
  have hregs := (s.answer 0).findingGone_regs (blockPage b)
  have hshown : ((s.answer 0).findingGone (blockPage b)).shown (blockPage b) = 4 := by
    obtain ⟨r, hr⟩ := (s.answer 0).findingGone_only (blockPage b)
    refine (State.shown_congr (s := s) ((hregs _ (by decide)).trans rfl) (by rw [hr]; rfl) (by rw [hr]; rfl) _).trans h4
  have hgone : ((s.answer 0).findingGone (blockPage b)).causeGone (blockPage b) = true := by
    obtain ⟨r, hr⟩ := (s.answer 0).findingGone_only (blockPage b)
    have hpage : ((s.answer 0).findingGone (blockPage b)).page (blockPage b) = (s.answer 0).page (blockPage b) := by rw [hr]; rfl
    refine State.causeGone_of (fun he => ?_) (fun he => ?_) (fun hp => ?_) fun hp => ?_
    · exact State.findingGone_flag _ _ (hpage ▸ he)
    · exact State.findingGone_rails _ _ (hpage ▸ he)
    · rw [State.fld, hregs _ (by decide)]
      exact hnsu hp
    · rw [hr]
      exact hkpr hp
  rw [faultClr_reach h hc hs (by simp [h4]), State.reqClear, if_pos ⟨hshown, hgone⟩]

end clear

/-- Settles O7: each request of CTRL by the state of its block. -/
theorem stopDrainForceClear : Obligations.StopDrainForceClear := by
  rintro s who b p rfl
  refine ⟨fun h hc hs h3 => ?_, fun h2 => ?_, fun h hc hs h4 => ?_, fun h hc hs h4 gone => ?_,
    s.blk_toStopAbandoned _, s.st_setSt _ _, s.st_setSt _ _⟩
  · have hstop : exec (.blockStopReq who b) s = .next (((s.answer 0).noteRun (blockPage b) false).reqStop (blockPage b) 1) :=
      congrArg Host.Outcome.next ((ctrlWrite_reach h hc).trans (ctrlReach_stop (s := s.answer 0) (firstPage_blockPage b) hs (by simp [h3])))
    have hforce : exec (.forceStop who b) s = .next (((s.answer 0).noteRun (blockPage b) false).reqForce (blockPage b) 0x101) :=
      congrArg Host.Outcome.next ((ctrlWrite_reach h hc).trans (ctrlReach_force (s := s.answer 0) (firstPage_blockPage b) hs h3))
    have hshown (q : Nat) : ((s.answer 0).noteRun (blockPage b) false).shown q = s.shown q := by rw [State.shown_noteRun, State.shown_answer]
    have hact : ((s.answer 0).noteRun (blockPage b) false).active (blockPage b) = true := by rw [State.active, hshown, h3]; rfl
    refine ⟨fun hr => ?_, fun hr => ?_, fun hn h64 => ?_, fun h64 => ?_⟩
    · rw [hstop, State.reqStop_run ((State.stopRefused_congr hshown _).trans hr) ((hshown _).trans h3)]
    · rw [hstop, State.reqStop_refused ((State.stopRefused_congr hshown _).trans hr)]
      rfl
    · rw [hforce, State.reqForce, if_neg (by simp [hn]), if_neg (by rw [hact]; decide), if_neg h64]
    · rw [hforce, State.reqForce, if_neg (by rw [h64]; decide), if_neg (by rw [hact]; decide), if_pos h64]
  · refine ⟨fun hb => ?_, fun hb => ?_, fun h64 => ?_, fun h64 => ?_⟩
    · exact congrArg Host.Outcome.next (if_neg (by simp [h2, hb]))
    · exact congrArg Host.Outcome.next (if_pos (.inr hb))
    · exact (if_neg (not_not_intro h2)).trans (if_neg h64)
    · exact (if_neg (not_not_intro h2)).trans (if_pos h64)
  · refine ⟨fun hnsu hkpr => ⟨_, faultClr_left h hc hs h4 hnsu hkpr, ?_⟩, faultClr_refused h hc hs (Bool.and_false _)⟩
    obtain ⟨hst, hregs, hmem⟩ := ((s.answer 0).findingGone (blockPage b)).faultLeft_spec (blockPage b)
    refine ⟨hst, (((s.answer 0).findingGone_regs (blockPage b)).same hregs), ?_⟩
    obtain ⟨r, hr⟩ := (s.answer 0).findingGone_only (blockPage b)
    exact SameMem.trans (by rw [hr]; exact .refl s) hmem
  · exact faultClr_refused h hc hs (by simp [h4])

/-! ### The LPDDR5 controller -/

/-- The failed channel shows 0, and the step it failed at stands beside it. -/
theorem trainStat_bits (ch : Fin 2) (k : Fin 5) (other : Bool) :
    bit (wd (b2n other * 2 ^ (1 - ch.val) + 256 * (k.val + 1))) ch.val = false ∧
      bits (wd (b2n other * 2 ^ (1 - ch.val) + 256 * (k.val + 1))) 15 8 = k.val + 1 := by
  revert ch k other
  decide

/-- A failed training takes the controller to FAULT. -/
theorem trainDone_failed {s : State} (h1 : s.shown 208 = 1) (h3 : (s.blk 208).req = 3) (ch : Fin 2) (k : Fin 5) :
    Answers (.trainDone (some (ch, k))) s fun t => (t.blk 208).st = .fault ∧
        (t.page 208).errcode = wd (0x100 + 0x10000 * (ch.val + 256 * (k.val + 1))) ∧ bit (t.page 208).irqStat 8 = true ∧
        bit (t.reg R.DRM_TRAIN_STAT) ch.val = false ∧ bits (t.reg R.DRM_TRAIN_STAT) 15 8 = k.val + 1 ∧ SameMem s t := by
  refine ⟨_, if_neg (by simp [h1, h3]), ?_⟩
  obtain ⟨hbit, hbits⟩ := trainStat_bits ch k (s.fresh.1.getLsbD 0)
  have hmem : SameMem s (s.fresh.2.setReg R.DRM_TRAIN_STAT (wd (b2n (s.fresh.1.getLsbD 0) * 2 ^ (1 - ch.val) + 256 * (k.val + 1)))) :=
    .refl s
  have hreg : ((s.fresh.2.setReg R.DRM_TRAIN_STAT (wd (b2n (s.fresh.1.getLsbD 0) * 2 ^ (1 - ch.val) + 256 * (k.val + 1)))).fail drmPage 0x100
      (ch.val + 256 * (k.val + 1))).reg R.DRM_TRAIN_STAT = wd (b2n (s.fresh.1.getLsbD 0) * 2 ^ (1 - ch.val) + 256 * (k.val + 1)) :=
    (State.reg_fail _ _ _ _ (by decide)).trans (State.reg_setReg_self _ _ _)
  refine ⟨?_, ?_, State.bit_irqStat_irq _ _ (by decide), ?_, ?_, hmem.trans (State.fail_mem _ _ _ _)⟩
  · rw [State.blk_irq, State.fail_blk]
  · rw [State.errcode_irq, State.errcode_fail _ _ (by decide) (by omega)]
  · rw [State.reg_irq, hreg, hbit]
  · rw [State.reg_irq, hreg, hbits]

/-- A scrubbed burst, by what it met. -/
theorem drmScrub_next {s : State} (h1 : s.running 208 = true) (h2 : s.flag R.DRM_DRM_CFG 1 = true) (res : Ecc) :
    exec (.drmScrub res) s = .next ((match res with
      | .clean => s | .corrected => s.drmCe | .uncorrectable => s.drmUe (s.reg64 R.DRM_SCRUB_POS_LO R.DRM_SCRUB_POS_HI)).setReg64
        R.DRM_SCRUB_POS_LO R.DRM_SCRUB_POS_HI ((s.reg64 R.DRM_SCRUB_POS_LO R.DRM_SCRUB_POS_HI + 32) % 2 ^ 32)) :=
  (if_neg (by simp [h1, h2])).trans (by cases res <;> rfl)

theorem State.reg_setReg64_ne (s : State) {lo hi a : Nat} (n : Nat) (hl : a ≠ lo) (hh : a ≠ hi) : (s.setReg64 lo hi n).reg a = s.reg a :=
  (State.reg_setReg_ne _ _ hh).trans (s.reg_setReg_ne _ hl)

/-- The halves of a 64-bit register pair are its two registers. -/
theorem State.lo32_reg64 (s : State) (lo hi : Nat) : lo32 (s.reg64 lo hi) = s.reg lo := by
  have h := (s.reg lo).isLt
  refine BitVec.eq_of_toNat_eq ?_
  simp only [State.reg64, State.regN, lo32, BitVec.toNat_ofNat]
  omega
theorem State.hi32_reg64 (s : State) (lo hi : Nat) : hi32 (s.reg64 lo hi) = s.reg hi := by
  have h := (s.reg lo).isLt
  have h' := (s.reg hi).isLt
  refine BitVec.eq_of_toNat_eq ?_
  simp only [State.reg64, State.regN, hi32, BitVec.toNat_ofNat]
  omega

/-- Settles O8: training, refresh and scrubbing, each by its outcome. -/
theorem memoryController : Obligations.MemoryController := by
  intro s code ch k
  refine ⟨fun h1 h3 => ⟨if_neg (by simp [h1, h3]), trainDone_failed h1 h3 ch k⟩, fun hu => ⟨?_, fun hf => ?_⟩, fun h1 h2 => ⟨?_, ?_, ?_⟩⟩
  · refine (if_neg (by simp [hu])).trans (congrArg Host.Outcome.next ?_)
    simp
  · refine (if_neg (by simp [hu])).trans (congrArg Host.Outcome.next ?_)
    simp [hf]
  · exact drmScrub_next h1 h2 .clean
  · have hr : RegsBut [R.DRM_CE_COUNT, R.DRM_SCRUB_POS_LO, R.DRM_SCRUB_POS_HI] s s.drmCe :=
      (((RegsBut.refl _ s).incReg (a := R.DRM_CE_COUNT) (by simp)).same rfl)
    refine ⟨_, drmScrub_next h1 h2 .corrected, ?_, ?_, hr.setReg64 _ (by simp) (by simp), by simp [SameMem, State.drmCe]⟩
    · rw [State.reg_setReg64_ne _ _ (by decide) (by decide), State.drmCe, State.reg_irq, State.reg_statBit, State.reg_incReg, if_pos rfl]
    · rw [State.page_setReg64]
      exact State.bit_irqStat_irq _ _ (by decide)
  · set a := s.reg64 R.DRM_SCRUB_POS_LO R.DRM_SCRUB_POS_HI with ha
    have hr : RegsBut [R.DRM_UE_COUNT, R.DRM_UE_ADDR_LO, R.DRM_UE_ADDR_HI, R.DRM_SCRUB_POS_LO, R.DRM_SCRUB_POS_HI] s (s.drmUe a) :=
      ((((RegsBut.refl _ s).incReg (a := R.DRM_UE_COUNT) (by simp)).setReg64 (a := R.DRM_UE_ADDR_LO) (b := R.DRM_UE_ADDR_HI) a
        (by simp) (by simp)).same rfl)
    have hlo : lo32 a = s.reg R.DRM_SCRUB_POS_LO := s.lo32_reg64 _ _
    have hhi : hi32 a = s.reg R.DRM_SCRUB_POS_HI := s.hi32_reg64 _ _
    refine ⟨_, drmScrub_next h1 h2 .uncorrectable, ?_, ?_, ?_, ?_, ?_, hr.setReg64 _ (by simp) (by simp), by simp [SameMem, State.drmUe]⟩
    · rw [State.reg_setReg64_ne _ _ (by decide) (by decide)]
      simp only [State.drmUe, State.reg_irq, State.reg_statBit]
      rw [State.reg_setReg64_ne _ _ (by decide) (by decide), State.reg_incReg, if_pos rfl]
    · rw [State.reg_setReg64_ne _ _ (by decide) (by decide)]
      simp only [State.drmUe, State.reg_irq, State.reg_statBit, State.setReg64]
      rw [State.reg_setReg_ne _ _ (by decide), State.reg_setReg_self, ← ha, hlo]
    · rw [State.reg_setReg64_ne _ _ (by decide) (by decide)]
      simp only [State.drmUe, State.reg_irq, State.reg_statBit, State.setReg64]
      rw [State.reg_setReg_self, ← ha, hhi]
    · rw [State.page_setReg64, State.drmUe, State.page_irq, if_pos rfl, bit_or, State.bit_irqStat_irq _ _ (by decide), Bool.true_or]
    · rw [State.page_setReg64]
      exact State.bit_irqStat_irq _ _ (by decide)

end Sys2Proof.Machine
end

section
/-! Power domains (R46 to R62, R82): requests, transitions, rail checks, and the faults of a supply or a clock island. -/

namespace Sys2Proof.Machine

/-! ### Requests -/

section requests
variable {s : State} {k v d : Nat}

theorem State.domAway_refused (hv : v = 3 ∨ (v = 2 ∧ k ≠ 5)) : s.domAway k v = s.setFlag R.PWR_DOM_ERR k true := if_pos hv

theorem State.domAway_busy (hv : v = 0 ∨ v = 2 ∧ k = 5) (h1 : s.dom k = 1)
    (hb : s.domIdle k = false ∨ (k = 5 ∧ s.dom 4 = 1) ∨ (k = 7 ∧ (s.dom 6 = 1 ∨ s.running 128 = true))) :
    s.domAway k v = s.setFlag R.PWR_DOM_ERR k true := by
  rw [State.domAway, if_neg (by omega), if_neg (by omega), if_pos ⟨h1, hb.imp_left fun h => by simp [h]⟩]
  rfl

theorem domNeeds_iff : domNeeds k = some d ↔ (k = 4 ∧ d = 5 ∨ k = 6 ∧ d = 7) := by
  unfold domNeeds
  split_ifs <;> simp <;> omega

theorem domNeeds_none (h4 : k ≠ 4) (h6 : k ≠ 6) : domNeeds k = none := (if_neg h4).trans (if_neg h6)

end requests

/-- Settles O9: the write goes through the gate, and each request is judged by its first condition that fails. -/
theorem domainRequestRules : Obligations.DomainRequestRules := by
  intro s who val k v d
  refine ⟨fun h => congrArg Host.Outcome.next (s.gate_may _ h), fun h => congrArg Host.Outcome.next (s.gate_may _ h),
    State.domAway_busy, State.domAway_refused, fun h => ⟨fun h1 hg => ?_, fun h1 hg => ?_, fun h1 => ?_⟩, fun h4 h6 => ?_⟩
  · rw [State.domToOn, domNeeds_iff.mpr h]
    exact (if_neg h1).trans (if_neg hg)
  · rw [State.domToOn, domNeeds_iff.mpr h]
    exact (if_neg h1).trans (if_pos hg)
  · rw [State.domToOn, domNeeds_iff.mpr h]
    exact if_pos h1
  · rw [State.domToOn, domNeeds_none h4 h6]
    rfl

/-! ### Transitions -/

section transitions
variable (s : State)

/-- The state a domain was put in is the one it shows. -/
theorem State.dom_setDom {k v : Nat} (hk : k < 12) (hv : v < 4) : (s.setFld R.PWR_DOM_STAT (2 * k + 1) (2 * k) v).dom k = v := by
  have h2 : 2 * k + 1 + 1 - 2 * k = 2 := by omega
  rw [State.dom, s.fld_setFld _ (hi := 2 * k + 1) (i := 2 * k + 1) _ _ (by omega) (Nat.le_refl _), h2]
  omega

theorem State.goalOf_lt (k : Nat) : s.goalOf k < 4 := by
  have h2 : 2 * k + 1 + 1 - 2 * k = 2 := by omega
  rw [State.goalOf, bits, h2]
  omega

/-- Most domains that come ON show it, with their island locked, and no more. -/
theorem State.domEnter_plain {k : Nat} (h3 : k ≠ 3) (h4 : k ≠ 4) (h6 : k ≠ 6) :
    s.domEnter k = ((s.setFld R.PWR_DOM_STAT (2 * k + 1) (2 * k) 1).setGoal k 1).setFlag R.CLK_ISL_STAT k true :=
  (if_neg h3).trans ((if_neg h4).trans (if_neg h6))

/-- No request waits, so none is refused. -/
theorem State.waitersRefused_nil (h : s.pwr.wait = []) (k : Nat) : s.waitersRefused k = s.setPwr fun p => { p with wait := [] } := by
  simp [State.waitersRefused, State.setPwr, h]

end transitions

/-- A transition away from ON ends. -/
theorem domTransitionDone_away {s : State} {k : Fin 12} (hm : s.moving k.val = true) (hw : (s.pwr.wait.any fun e => e.1 == k.val) = false)
    (hs : s.pwr.saving = false) (hh : s.heldDom k.val = false) (hg : s.goalOf k.val ≠ 1) :
    exec (.domTransitionDone k) s = .next (s.setFld R.PWR_DOM_STAT (2 * k.val + 1) (2 * k.val) (s.goalOf k.val)) :=
  (if_neg (by simp [hm, hs, hh, hw])).trans (if_neg hg)

/-- A domain goes ON. -/
theorem domTransitionDone_on {s : State} {k : Fin 12} (hm : s.moving k.val = true) (hw : (s.pwr.wait.any fun e => e.1 == k.val) = false)
    (hs : s.pwr.saving = false) (hh : s.heldDom k.val = false) (hg : s.goalOf k.val = 1) : execDomTransitionDone k s =
      match domNeeds k.val with
      | some d => .next (if s.dom d = 1 then s.domEnter k.val else (s.setGoal k.val (s.dom k.val)).domRefuse k.val)
      | none => .next ((s.domEnter k.val).setPwr fun p => { p with wait := p.wait.filter fun e => e.2 != k.val }) :=
  (if_neg (by simp [hm, hs, hh, hw])).trans (if_pos hg)

/-- A rail out of range keeps the domain OFF. -/
theorem penCheck_low {s : State} {k : Fin 12} {rails : BitVec 19} (hm : s.moving k.val = true) (hu : s.up 1 = true) (h0 : s.dom k.val = 0)
    (hr : rails.toNat &&& penRails k.val ≠ penRails k.val) (hw : s.pwr.wait = []) : exec (.penCheck k rails) s =
      .next ((((s.setReg R.PWR_RAIL_MON (rails.setWidth 32)).setGoal k.val 0).setPwr fun p => { p with wait := [] }).setFlag
        R.PWR_DOM_ERR (16 + k.val) true) := by
  change execPenCheck k rails s = _
  have hd : (s.setReg R.PWR_RAIL_MON (rails.setWidth 32)).dom k.val = 0 := (s.dom_setReg _ (by decide) _).trans h0
  have hm' : (s.setReg R.PWR_RAIL_MON (rails.setWidth 32)).moving k.val = true := by
    rw [State.moving, hd]
    rwa [State.moving, h0] at hm
  unfold execPenCheck
  dsimp only
  rw [if_pos hu, if_neg (by simp [hd, hm', hw, hr]), State.waitersRefused_nil _ (by exact hw)]

/-- Settles O10: the transition's end, by the state requested. -/
theorem domainTransitions : Obligations.DomainTransitions := by
  intro s k d rails hm hw
  have hk := k.isLt
  refine ⟨fun hs hh hg hn => ?_, fun hs hh hg hn => ?_, fun hs hh hg => ⟨_, domTransitionDone_away hm hw hs hh hg, ?_⟩,
    fun h3 h4 h6 => ?_, fun hu h0 hr hwait => ⟨_, penCheck_low hm hu h0 hr hwait, ?_⟩⟩
  · exact (domTransitionDone_on hm hw hs hh hg).trans (by rw [hn])
  · refine (domTransitionDone_on hm hw hs hh hg).trans (by rw [hn]; rfl)
  · exact ⟨s.dom_setDom hk (s.goalOf_lt _), (RegsBut.refl _ s).setFld _ _ _ (by simp), by simp [SameMem], by simp⟩
  · rw [s.domEnter_plain h3 h4 h6]
    refine ⟨?_, ?_, (((RegsBut.refl _ s).setFld (a := R.PWR_DOM_STAT) _ _ _ (by simp)).same rfl).setFlag _ _ (by simp)⟩
    · rw [State.dom_setFlag _ _ _ (by decide)]
      exact s.dom_setDom hk (by decide)
    · rw [State.flag_setFlag _ _ _ _ _ _ (by omega), if_pos ⟨rfl, rfl⟩]
  · refine ⟨?_, ?_, ?_, (((RegsBut.refl _ s).setReg (a := R.PWR_RAIL_MON) _ (by simp)).same rfl).setFlag _ _ (by simp), by simp [SameMem, State.setPwr, State.setGoal]⟩
    · rw [State.dom_setFlag _ _ _ (by decide)]
      exact (s.dom_setReg _ (by decide) _).trans h0
    · rw [State.flag_setFlag _ _ _ _ _ _ (by omega), if_pos ⟨rfl, rfl⟩]
    · rw [State.reg_setFlag, if_neg (by decide)]
      exact s.reg_setReg_self _ _

/-! ### Faults of a supply or a clock island -/

section faults
variable {s : State} {p : Nat}

/-- The state in which a block's fault is entered: its work abandoned. -/
def State.faultWork (s : State) (p : Nat) : State :=
  let s := if s.active p then (if p = 57 then s.passesStopped else s.onForce p) else s
  if p = 57 then s.mdlDrop else s

theorem State.blockFault_eq (h0 : s.shown p ≠ 0) (h4 : s.shown p ≠ 4) (h64 : p ≠ 64) (code detail : Nat) :
    s.blockFault p code detail = ((s.faultWork p).fail p code detail).passesDown := by
  rw [State.blockFault, if_neg (by omega), if_neg h64]
  rfl

theorem State.setLoad_shows (s : State) (v c : Nat) : Shows s (s.setLoad v c) :=
  .ite (.refl s) (.irq _ _ (.setFld _ _ _ _ (.setFld _ _ _ _ (.refl s))))
theorem State.mdlDrop_shows (s : State) : Shows s s.mdlDrop :=
  .ite (.trans (.setReg _ _ (.refl s)) (State.setLoad_shows _ _ _)) (.refl s)

/-- What a failing block leaves of the Sequencer. -/
theorem State.fail_dsq (s : State) (p code detail : Nat) : (s.fail p code detail).dsq = s.dsq := by
  have h : OnlyPages (s.setBlk p { s.blk p with st := .fault, draining := false, abandoned := true }) (s.toFault p) :=
    .foldl (fun s q => ((OnlyPages.refl s).irq q 0).irq q 3) _ _
  obtain ⟨x, c, hx⟩ := h
  rw [State.fail, State.emit_dsq, State.errc_dsq, hx]
  rfl

/-- A Sequencer that fails runs no pass. -/
theorem State.faultWork_noPass (ha : s.active 57 = true) : (s.faultWork 57).noPass := by
  unfold State.faultWork
  simp only [ha, if_true]
  rw [State.noPass, (State.mdlDrop_shows _).dsq]
  exact s.passesStopped_noPass

/-- The passes' ends after a block's fault touch neither the block nor its error code. -/
theorem State.passesDown_fail (u : State) (p code detail : Nat) (hp : p = 57 → u.noPass) :
    (u.fail p code detail).passesDown.blk p = (u.fail p code detail).blk p ∧
      ((u.fail p code detail).passesDown.page p).errcode = ((u.fail p code detail).page p).errcode := by
  by_cases h : p = 57
  · have hn : (u.fail p code detail).noPass := by
      rw [State.noPass, State.fail_dsq]
      exact hp h
    rw [State.passesDown_noPass hn]
    exact ⟨rfl, rfl⟩
  · have he := (PassEnds.refl (u.fail p code detail)).passesDown
    exact ⟨he.blk p, he.errcode p h⟩

end faults

/-- Settles O11: each fault by the conditions of its command, and the block's own fault. -/
theorem supplyAndClockFaults : Obligations.SupplyAndClockFaults := by
  intro s rail k p code detail
  have hup (h1 : s.dom k.val = 1) (hh : s.heldDom k.val = false) : s.up k.val = true := by simp [State.up, h1, hh]
  refine ⟨fun hu hr => if_neg (by simp [hu, hr]), fun hr => if_pos (.inl hr), fun h1 hh => ⟨?_, ?_⟩, fun h back => ?_,
    fun h0 h4 h64 h57 => ?_⟩
  · exact if_neg (by simp [hup h1 hh])
  · exact (if_neg (by simp [hup h1 hh])).trans (if_pos rfl)
  · refine if_pos ?_
    have hd : s.up k.val = false := by
      rw [State.up]
      obtain h | h := h <;> simp [h]
    simp [hd]
  · rw [State.blockFault_eq h0 h4 h64]
    obtain ⟨hb, he⟩ := State.passesDown_fail (s.faultWork p) p code detail fun e => e ▸ State.faultWork_noPass (h57 e)
    rw [hb, he, State.fail_blk]
    exact ⟨rfl, rfl, State.errcode_fail _ _⟩

end Sys2Proof.Machine
end

section
/-! Resets and start-up (R65 to R83, R694), the clock checks (R63, R64), and what the save items commit (R71 to R73). -/

namespace Sys2Proof.Machine

/-! ### What the save items change -/

/-- The saved copies replaced. -/
def State.putSaves (s : State) (v : Saves) : State := { s with pwr := { s.pwr with saves := v } }

/-- Registers that the save items write. -/
def saveRegs : List Nat :=
  [R.EVR_FULL_DROP, R.EVR_STAGE_BYTES, R.PWR_SAVE_STAT, R.PWR_SAVE_SEQ_LO, R.PWR_SAVE_SEQ_HI]

/-- What committing save items may change: the copies, the recorder, and what is shown. -/
structure SaveMade (s t : State) : Prop where
  shows : ∃ v, Shows (s.putSaves v) t
  regs : RegsBut saveRegs s t

section saveMade
variable {s t : State}

theorem SaveMade.refl (s : State) : SaveMade s s := ⟨⟨s.pwr.saves, .refl s⟩, .refl _ s⟩
theorem SaveMade.trans {u : State} (h : SaveMade s t) (g : SaveMade t u) : SaveMade s u := by
  obtain ⟨⟨v, r, x, c, e, rfl⟩, hr⟩ := h
  obtain ⟨⟨v', g⟩, gr⟩ := g
  exact ⟨⟨v', Shows.trans ⟨r, x, c, e, rfl⟩ g⟩, hr.trans gr⟩
theorem SaveMade.of_shows {u : State} (h : SaveMade s t) (g : Shows t u) (hr : RegsBut saveRegs t u) : SaveMade s u :=
  h.trans ⟨⟨_, g⟩, hr⟩
theorem SaveMade.setReg {a : Nat} (v : Word) (h : SaveMade s t) (ha : a ∈ saveRegs) : SaveMade s (t.setReg a v) :=
  h.of_shows ((Shows.refl t).setReg _ _) ((RegsBut.refl _ t).setReg _ ha)
theorem SaveMade.irq (p i : Nat) (h : SaveMade s t) : SaveMade s (t.irq p i) := h.of_shows ((Shows.refl t).irq _ _) (.refl _ t)
theorem SaveMade.evr (e : EvrSt) (h : SaveMade s t) : SaveMade s { t with evr := e } := h.of_shows ((Shows.refl t).evr e) (.refl _ t)
theorem SaveMade.setSaves (f : Saves → Saves) (h : SaveMade s t) : SaveMade s (t.setSaves f) := h.trans ⟨⟨f t.pwr.saves, .refl _⟩, .refl _ t⟩
theorem SaveMade.ite_step {p : Prop} [Decidable p] {u v : State} (hu : SaveMade s u) (hv : SaveMade s u → SaveMade s v) :
    SaveMade s (if p then v else u) := by
  split
  · exact hv hu
  · exact hu

theorem SaveMade.showStage (h : SaveMade s t) : SaveMade s t.showStage := h.setReg _ (by decide)
theorem SaveMade.bumpCount (b : Nat) (h : SaveMade s t) : SaveMade s (t.bumpCount b) := by
  unfold State.bumpCount
  dsimp only
  split
  · exact (h.evr _).showStage
  · exact h.evr _
theorem SaveMade.flushOne (c : LogCtl) (x : Staged) (h : SaveMade s t) : SaveMade s (flushOne t c x).1 := by
  unfold Machine.flushOne
  split
  · exact (h.setReg _ (by decide)).bumpCount 3
  · split
    · exact h.evr _
    · exact ((h.evr _).setReg _ (by decide)).irq _ _
theorem SaveMade.flushAll (f : Staged → Staged) (l : List Staged) (a : State × LogCtl) (h : SaveMade s a.1) :
    SaveMade s (l.foldl (fun (acc : State × LogCtl) x => Machine.flushOne acc.1 acc.2 (f x)) a).1 := by
  induction l generalizing a with
  | nil => exact h
  | cons x l ih => exact ih _ (h.flushOne _ _)
theorem SaveMade.saveStaged (h : SaveMade s t) : SaveMade s t.saveStaged :=
  SaveMade.flushAll (fun x => { x with flags := x.flags ||| 0x20 }) _ _ (h.evr _)
theorem SaveMade.captureItem (q : Nat) (h : SaveMade s t) : SaveMade s (t.captureItem q) := by
  unfold State.captureItem
  split
  · exact h.setSaves _
  · exact h
theorem SaveMade.dirtyItem (q : Nat) (h : SaveMade s t) : SaveMade s (t.dirtyItem q) := by
  have hput (d : List Nat) : SaveMade s (t.dirtyPut q d) := h.trans ⟨⟨_, .refl _⟩, .refl _ t⟩
  unfold State.dirtyItem
  split
  · exact hput _
  · split
    · exact hput _
    · exact h

theorem SaveMade.saveItems (n : Nat) (c : Bool) (h : SaveMade s t) : SaveMade s (t.saveItems n c) := by
  unfold State.saveItems
  split
  · exact h
  · exact .setReg _ (.setReg _ (.setReg _ (.setSaves _ (.ite_step (.ite_step (.ite_step (.ite_step (h.setSaves _) fun h => h.captureItem _)
      fun h => h.setSaves _) fun h => h.saveStaged) fun h => h.dirtyItem _)) (by decide)) (by decide)) (by decide)

theorem SaveMade.pwr (h : SaveMade s t) : ∃ v, t.pwr = { s.pwr with saves := v } := by
  obtain ⟨v, h⟩ := h.shows
  exact ⟨v, h.pwr⟩
theorem SaveMade.rtc (h : SaveMade s t) : t.rtc = s.rtc := by
  obtain ⟨v, h⟩ := h.shows
  exact h.rtc

/-- Cutting a save off commits items alone, and draws how many. -/
theorem State.saveCut_made (s : State) : SaveMade s s.saveCut ∨ SaveMade s.fresh.2 s.saveCut := by
  unfold State.saveCut
  split
  · exact .inr ((SaveMade.refl _).saveItems _ _)
  · exact .inl (.refl s)
theorem State.reg_saveCut (s : State) {a : Nat} (ha : a ∉ saveRegs) : s.saveCut.reg a = s.reg a := by
  rcases s.saveCut_made with h | h
  · exact h.regs a ha
  · exact h.regs a ha
theorem State.pwr_saveCut (s : State) : ∃ v, s.saveCut.pwr = { s.pwr with saves := v } := by
  rcases s.saveCut_made with h | h
  · exact h.pwr
  · exact h.pwr
theorem State.rtc_saveCut (s : State) : s.saveCut.rtc = s.rtc := by
  rcases s.saveCut_made with h | h
  · exact h.rtc
  · exact h.rtc

end saveMade

/-! ### Registers that a reset keeps -/

/-- An entry kept by its key reads as before, and one left out reads its default. -/
theorem Tab.get_filter {α : Type} (d : Nat → α) (p : Nat → Bool) (t : Tab α) (k : Nat) :
    Tab.get d (t.filter fun e : Nat × α => p e.1) k = if p k then Tab.get d t k else d k := by
  induction t with
  | nil => exact (ite_self _).symm
  | cons e t ih =>
    obtain ⟨j, v⟩ := e
    rw [List.filter_cons]
    by_cases hj : j = k
    · subst hj
      cases hp : p j <;> simp [hp, ih, Tab.get]
    · cases p j <;> simp [ih, Tab.get, hj]

section resetAll
variable (s : State) {a cause : Nat}

theorem State.reg_resetAll (ha : a ≠ R.PWR_RST_CAUSE) : (s.resetAll cause).reg a = if nvReg a then s.reg a else regReset a :=
  (State.reg_setReg_ne _ _ ha).trans (Tab.get_filter regReset nvReg s.regs a)
theorem State.cause_resetAll : (s.resetAll cause).reg R.PWR_RST_CAUSE = if cause = 0 then 1 else s.reg R.PWR_RST_CAUSE ||| bitW cause :=
  State.reg_setReg_self _ _ _

/-- The registers after a reset whose save was cut off. -/
theorem State.cutReset_regs (f : PwrSt → PwrSt) (a : Nat) :
    (nvReg a = false → ((s.saveCut.resetAll cause).setPwr f).reg a = regReset a) ∧
      (nvReg a = true → a ≠ R.PWR_RST_CAUSE → ((s.saveCut.resetAll cause).setPwr f).reg a = s.saveCut.reg a) := by
  refine ⟨fun hn => ?_, fun hn ha => ?_⟩
  · have ha : a ≠ R.PWR_RST_CAUSE := by
      rintro rfl
      exact absurd hn (by decide)
    exact (s.saveCut.reg_resetAll ha).trans (if_neg (by simp [hn]))
  · exact (s.saveCut.reg_resetAll ha).trans (if_pos hn)
/-- The cause after such a reset. -/
theorem State.cutReset_cause (f : PwrSt → PwrSt) : ((s.saveCut.resetAll cause).setPwr f).reg R.PWR_RST_CAUSE =
    if cause = 0 then 1 else s.reg R.PWR_RST_CAUSE ||| bitW cause := by
  refine s.saveCut.cause_resetAll.trans ?_
  rw [s.reg_saveCut (by decide)]

end resetAll

/-- Settles O12: each reset is one of all but PD_RTC with its own bit, after a save that runs is cut off. -/
theorem resetsAndTheirCauses : Obligations.ResetsAndTheirCauses := by
  intro s a n
  refine ⟨⟨_, rfl, rfl, ?_, s.rtc_saveCut, rfl, rfl, rfl, rfl, s.cutReset_regs _ a⟩, ⟨_, rfl, rfl, rfl, ?_, s.cutReset_regs _ a⟩,
    ⟨_, rfl, rfl, ?_, s.cutReset_regs _ a⟩, fun h => if_neg (by simp [h]), fun h => ⟨s.fresh.1.toNat % 6, Nat.mod_lt _ (by decide), if_pos h⟩,
    fun h => ⟨s.resetAll 2, ?_, rfl, s.cause_resetAll, fun hn ha => (s.reg_resetAll ha).trans (if_pos hn)⟩,
    fun hs hd => ?_, rfl, fun hh hs => ?_, fun h => ?_, fun d hd => ?_⟩
  · exact s.cutReset_cause _
  · exact s.cutReset_cause _
  · exact s.cutReset_cause _
  · have hz : (if s.saveRuns then s.saveItems n.val false else s) = s := by
      split
      case isTrue hr =>
        obtain h | h | h := h
        · simp [State.saveRuns, h] at hr
        · simp [State.saveRuns, h] at hr
        · rw [h]
          exact if_pos rfl
      case isFalse => rfl
    exact congrArg (fun t : State => Host.Outcome.next (t.resetAll 2)) hz
  · exact congrArg (fun t : State => Host.Outcome.next (t.resetAll 2)) (if_pos (by simp [State.saveRuns, hs, hd]))
  · exact congrArg Host.Outcome.next (if_neg (by simp [hh, hs]))
  · exact congrArg Host.Outcome.next (if_pos (h.imp_right fun h => by simp [h]))
  · have hheld : (s.resetAll 1).heldDom d = true := bne_iff_ne.mpr (by omega)
    rw [State.up, hheld, Bool.not_true, Bool.and_false]

/-! ### Start-up -/

section release
variable {s : State} (side hi : Bool) (bm : BitVec 2) (rails : BitVec 19)

/-- The state after the pins were sampled. -/
def State.sampled (s : State) (side hi : Bool) (bm : BitVec 2) (rails : BitVec 19) : State :=
  (s.setPwr fun p => { p with pside := side, bootmode := bm, pfwHigh := hi, porstLow := false, hold := .reset, rstoutN := false,
                              startWait := !hi, railWait := decide (rails.toNat &&& coreRails ≠ coreRails) }).setReg
    R.PWR_RAIL_MON (rails.setWidth 32)

theorem release_sampled (h : s.pwr.started = false ∨ s.pwr.hold = .reset) : exec (.release side bm rails hi) s =
    if (!hi) = true ∨ decide (rails.toNat &&& coreRails ≠ coreRails) = true then .next (s.sampled side hi bm rails)
    else .next (s.sampled side hi bm rails).startUp :=
  if_neg (by rintro ⟨hs, hh⟩; obtain h | h := h <;> simp_all)

end release

/-- Settles O13: each command whose conditions hold brings the state it names to start-up, or to its wait. -/
theorem startUpFollows : Obligations.StartUpFollows := by
  intro s side hi bm rails who
  refine ⟨fun h hr => ?_, fun hs hh => if_pos ⟨hs, hh⟩, fun h hw => ⟨s.sampled side hi bm rails, ?_, rfl, rfl, rfl, rfl, rfl, rfl, ?_, ?_⟩,
    fun hw hh u hu => ⟨fun hr => ?_, fun hr => ?_⟩, fun hs hh u hu => ⟨fun hp hw => ?_, fun hw => ?_⟩,
    fun hk hh u hu => ⟨fun hw => ?_, fun hs hp => ?_⟩, fun h => ?_, fun hd hh hp => ?_, fun h => ?_, fun hm hu hs => ?_⟩
  · have hd : decide (rails.toNat &&& coreRails ≠ coreRails) = false := by simp [hr]
    rw [release_sampled _ _ _ _ h, if_neg (by simp [hr]), State.sampled, hd]
    rfl
  · refine (release_sampled _ _ _ _ h).trans (if_pos ?_)
    exact hw.imp (fun h => by simp [h]) fun h => by simp [h]
  · exact ((RegsBut.refl _ s).same rfl).setReg _ (by simp)
  · simp [SameMem, State.sampled, State.setPwr]
  · subst hu
    exact (if_neg (by simp [hw, hh])).trans (congrArg Host.Outcome.next (if_neg (by simp [State.setPwr, hr])))
  · subst hu
    exact (if_neg (by simp [hw, hh])).trans (congrArg Host.Outcome.next (if_pos hr))
  · subst hu
    exact (if_neg (by simp [hs, hh])).trans (congrArg Host.Outcome.next (if_neg (by simp [State.setPwr, hp, hw])))
  · subst hu
    exact (if_neg (by simp [hs, hh])).trans (congrArg Host.Outcome.next (if_pos hw))
  · subst hu
    refine (if_neg (by simp [hk, hh])).trans (congrArg Host.Outcome.next (if_neg ?_))
    obtain h | h := hw <;> simp [h]
  · subst hu
    exact (if_neg (by simp [hk, hh])).trans (congrArg Host.Outcome.next (if_pos (by simp [hs, hp])))
  · exact if_pos (h.imp_left fun h => by simp [h])
  · exact congrArg Host.Outcome.next (if_pos ⟨hd, hh, hp⟩)
  · exact congrArg Host.Outcome.next (s.gate_may _ h)
  · exact if_neg (by simp [hm, hu, hs])

/-! ### Clock checks -/

section wiped
variable (s : State)

theorem pwr_ite {c : Prop} [Decidable c] {a b : State} {p : PwrSt} (ha : a.pwr = p) (hb : b.pwr = p) : (if c then a else b).pwr = p := by
  split
  · exact ha
  · exact hb

theorem State.pagesWiped_pwr (k : Nat) : (s.pagesWiped k).pwr = s.pwr := by
  unfold State.pagesWiped
  dsimp only
  split
  · rfl
  · rfl
theorem State.domWiped_pwr (k : Nat) : (s.domWiped k).pwr = s.pwr := by
  rw [← s.pagesWiped_pwr k]
  exact pwr_ite rfl (pwr_ite rfl (pwr_ite rfl (pwr_ite rfl (pwr_ite rfl (pwr_ite rfl (pwr_ite rfl rfl))))))
theorem State.planesWiped_pwr : s.planesWiped.pwr = s.pwr := foldl_fixed State.pwr (fun u k => u.domWiped_pwr k) _ s

end wiped

/-- A clock fault in the safety log, and the island that it names. -/
def State.clkNoted (s : State) (noEdge : Bool) : State :=
  let s := s.slog slClk (s.pwr.clkCount.toNat + 2 ^ 32 * b2n noEdge)
  if noEdge then s.setFlag R.CLK_ISL_STAT 1 false else s

theorem State.slog_pwr (s : State) (code data : Nat) : (s.slog code data).pwr = s.pwr := State.emit_pwr _ _ _ _
theorem State.clkNoted_pwr (s : State) (noEdge : Bool) : (s.clkNoted noEdge).pwr = s.pwr := pwr_ite (s.slog_pwr _ _) (s.slog_pwr _ _)

/-- The state in which a clock fault brings the levels up to date. -/
def State.clkHeld (s : State) (noEdge : Bool) : State :=
  (((s.clkNoted noEdge).saveCut.setPwr fun p =>
    { p with clkFault := true, clkMiss := 0, clkPass := 0, hold := if p.saveDone then .save else .clk, saving := p.saveDone }).setKpr fun k => { k with chk := [], wdFrom := none }).planesWiped

theorem State.clkFail_eq (s : State) (noEdge : Bool) : s.clkFail noEdge = (s.clkHeld noEdge).safeUpdate := rfl

/-- What a clock fault leaves of the supply's state. -/
theorem State.clkHeld_pwr (s : State) (noEdge : Bool) : (s.clkHeld noEdge).pwr.clkFault = true ∧
    (s.clkHeld noEdge).pwr.hold = (if s.pwr.saveDone then .save else .clk) := by
  obtain ⟨v, hv⟩ := (s.clkNoted noEdge).pwr_saveCut
  rw [State.clkHeld, State.planesWiped_pwr, State.setKpr_pwr, State.setPwr, hv, State.clkNoted_pwr]
  exact ⟨rfl, rfl⟩

/-- A clock fault drops every ball. -/
theorem State.clkFail_level (s : State) (noEdge : Bool) {n : Nat} (hn : n < 4) : (s.clkFail noEdge).flag R.KPR_SAFE_STAT n = false := by
  rw [State.clkFail_eq, State.safeUpdate_level _ hn, (s.clkHeld_pwr noEdge).1]
  simp

/-- The window's verdict, counted. -/
def State.clkCounted (s : State) (count : Word) (ok : Bool) : State :=
  s.setPwr fun p => { p with clkCount := count, clkMiss := if ok then 0 else p.clkMiss + 1, clkPass := if ok then p.clkPass + 1 else 0 }

/-- A clock window by its verdict. -/
theorem clkCheckWindow_eq {s : State} {count : Word} (hh : s.heldDom 2 = false) (hs : s.pwr.started = true) (ok : Bool)
    (hok : decide (32768 - 983 ≤ count.toNat ∧ count.toNat ≤ 32768 + 983) = ok) : exec (.clkCheckWindow count) s =
      if s.pwr.clkFault then
        .next (if (s.clkCounted count ok).pwr.clkPass < 3 then s.clkCounted count ok
          else if s.pwr.saveDone then ((s.clkCounted count ok).setFlag R.PWR_RST_CAUSE 5 true).setPwr fun p => { p with clkFault := false }
          else ((s.clkCounted count ok).setFlag R.PWR_RST_CAUSE 5 true).startUp)
      else .next (if 3 ≤ (s.clkCounted count ok).pwr.clkMiss then (s.clkCounted count ok).clkFail false else s.clkCounted count ok) := by
  subst hok
  exact if_neg (by simp [hh, hs])

/-- A write of PEN_DLY or PFW_RESTART. -/
theorem pwrCfgWrite_eq {s : State} {who : Initiator} {restart : Bool} (val : Word)
    (h : MayWrite who (if restart then R.PWR_PFW_RESTART else R.PWR_PEN_DLY) s = true) : exec (.pwrCfgWrite who restart val) s = .next
      (if (if restart then 100 else 1) ≤ val.toNat ∧ val.toNat ≤ (if restart then 10000 else 50) then
        (s.answer 0).setReg (if restart then R.PWR_PFW_RESTART else R.PWR_PEN_DLY) val
      else (s.answer 0).cfgRej 1 (ofsOf (if restart then R.PWR_PFW_RESTART else R.PWR_PEN_DLY))) :=
  congrArg Host.Outcome.next (s.gate_may _ h)

/-- Settles O14: a window by its verdict and the fault that stands. -/
theorem clockChecks : Obligations.ClockChecks := by
  intro s count val who restart hh hs
  refine ⟨fun h1 h2 hc => ?_, fun h hc => ?_, fun h1 h2 hc hp => ?_, fun hc hw => ?_, fun b => ?_, fun hc => ?_, fun hc => ?_,
    fun h => ⟨fun h1 h2 => ?_, fun hv => ?_⟩⟩
  · exact (clkCheckWindow_eq hh hs true (decide_eq_true ⟨h1, h2⟩)).trans (by simp [hc, State.clkCounted, State.setPwr])
  · rw [clkCheckWindow_eq hh hs false (decide_eq_false (by omega)), if_neg (by simp [hc])]
    refine congrArg Host.Outcome.next ?_
    have hm : (s.clkCounted count false).pwr.clkMiss = s.pwr.clkMiss + 1 := rfl
    rw [hm]
    by_cases h2 : s.pwr.clkMiss < 2
    · rw [if_neg (by omega)]
      exact (if_pos h2).symm
    · rw [if_pos (by omega)]
      exact (if_neg h2).symm
  · rw [clkCheckWindow_eq hh hs true (decide_eq_true ⟨h1, h2⟩), if_pos hc]
    have hm : (s.clkCounted count true).pwr.clkPass = s.pwr.clkPass + 1 := rfl
    rw [hm, if_neg (by omega)]
    rfl
  · by_cases hok : 32768 - 983 ≤ count.toNat ∧ count.toNat ≤ 32768 + 983
    · have hp : s.pwr.clkPass < 2 := by omega
      have hm : (s.clkCounted count true).pwr.clkPass = s.pwr.clkPass + 1 := rfl
      refine ⟨s.clkCounted count true, ?_, hc, hm.trans (if_pos hok).symm, rfl, by simp [SameMem, State.clkCounted, State.setPwr]⟩
      rw [clkCheckWindow_eq hh hs true (decide_eq_true hok), if_pos hc, hm, if_pos (by omega)]
    · have hm : (s.clkCounted count false).pwr.clkPass = 0 := rfl
      refine ⟨s.clkCounted count false, ?_, hc, hm.trans (if_neg hok).symm, rfl, by simp [SameMem, State.clkCounted, State.setPwr]⟩
      rw [clkCheckWindow_eq hh hs false (decide_eq_false hok), if_pos hc, hm, if_pos (by omega)]
  · rw [State.clkFail_eq, (State.safeUpdate_causes _).pwr, ← State.clkFail_eq]
    exact ⟨(s.clkHeld_pwr b).1, (s.clkHeld_pwr b).2, fun n hn => s.clkFail_level b hn⟩
  · exact (if_neg (by simp [hh, hs])).trans (congrArg Host.Outcome.next (if_neg (by simp [hc])))
  · exact (if_neg (by simp [hh, hs])).trans (congrArg Host.Outcome.next (if_pos hc))
  · exact (pwrCfgWrite_eq val h).trans (congrArg _ (if_pos ⟨h1, h2⟩))
  · exact (pwrCfgWrite_eq val h).trans (congrArg _ (if_neg (by omega)))

end Sys2Proof.Machine
end

section
/-! The power-fail latch and its save (R67 to R76): what the latch sheds, and what all that it stops leaves of the supply's state. -/

namespace Sys2Proof.Machine

/-! ### What the latch's steps keep -/

/-- Registers of the supply that only the latch and the domains themselves write. -/
def shedKept : List Nat := [R.PWR_PFW_STAT, R.PWR_DOM_STAT]

/-- PFW_STAT, DOM_STAT, the save and the keeper's checks are as before. -/
structure Shed (s t : State) : Prop where
  regs : ∀ a, a ∈ shedKept → t.reg a = s.reg a
  saving : t.pwr.saving = s.pwr.saving
  chk : t.kpr.chk = s.kpr.chk
  wd : t.kpr.wdFrom = s.kpr.wdFrom

section shed
variable {s t : State}

theorem Shed.refl (s : State) : Shed s s := ⟨fun _ _ => rfl, rfl, rfl, rfl⟩
theorem Shed.trans {u : State} (h : Shed s t) (g : Shed t u) : Shed s u :=
  ⟨fun a ha => (g.regs a ha).trans (h.regs a ha), g.saving.trans h.saving, g.chk.trans h.chk, g.wd.trans h.wd⟩
/-- A change of other fields alone. -/
theorem Shed.same {u : State} (h : Shed s t) (hr : u.regs = t.regs) (hs : u.pwr.saving = t.pwr.saving) (hc : u.kpr.chk = t.kpr.chk)
    (hw : u.kpr.wdFrom = t.kpr.wdFrom) : Shed s u :=
  h.trans ⟨fun a _ => by rw [State.reg, hr, State.reg], hs, hc, hw⟩
/-- A change of what is shown that leaves the kept registers. -/
theorem Shed.shows {u : State} (h : Shed s t) (g : Shows t u) (hr : ∀ a, a ∈ shedKept → u.reg a = t.reg a) : Shed s u :=
  h.trans ⟨hr, congrArg PwrSt.saving g.pwr, congrArg KprSt.chk g.kpr, congrArg KprSt.wdFrom g.kpr⟩
theorem Shed.setReg {a : Nat} (v : Word) (h : Shed s t) (ha : a ∉ shedKept) : Shed s (t.setReg a v) :=
  h.shows ((Shows.refl t).setReg _ _) fun _ hb => t.reg_setReg_ne v fun e => ha (e ▸ hb)
theorem Shed.setFld {a : Nat} (hi lo x : Nat) (h : Shed s t) (ha : a ∉ shedKept) : Shed s (t.setFld a hi lo x) := h.setReg _ ha
theorem Shed.setFlag {a : Nat} (i : Nat) (b : Bool) (h : Shed s t) (ha : a ∉ shedKept) : Shed s (t.setFlag a i b) := h.setReg _ ha
theorem Shed.incReg {a : Nat} (h : Shed s t) (ha : a ∉ shedKept) : Shed s (t.incReg a) := h.setReg _ ha
theorem Shed.setRegs (l : List (Nat × Word)) (h : Shed s t) (hl : ∀ e, e ∈ l → e.1 ∉ shedKept) : Shed s (t.setRegs l) :=
  h.shows ((Shows.refl t).setRegs _) fun a ha =>
    (RegsBut.refl (l.map Prod.fst) t).setRegs l (fun _ he => List.mem_map_of_mem he) a fun hm => by
      obtain ⟨e, he, rfl⟩ := List.mem_map.mp hm
      exact hl e he ha
theorem Shed.irq (p i : Nat) (h : Shed s t) : Shed s (t.irq p i) := h.same rfl rfl rfl rfl
theorem Shed.errc (p c d : Nat) (h : Shed s t) : Shed s (t.errc p c d) := h.same rfl rfl rfl rfl
theorem Shed.statBit (p i : Nat) (b : Bool) (h : Shed s t) : Shed s (t.statBit p i b) := h.same rfl rfl rfl rfl
theorem Shed.emit (k p : Nat) (l : List Word) (h : Shed s t) : Shed s (t.emit k p l) :=
  h.shows ((Shows.refl t).emit _ _ _) fun a ha => t.reg_emit _ _ _ (by revert a; decide)
theorem Shed.ite {p : Prop} [Decidable p] {u v : State} (hu : Shed s u) (hv : Shed s v) : Shed s (if p then u else v) := by
  split
  · exact hu
  · exact hv
theorem Shed.ite_step {p : Prop} [Decidable p] {u v : State} (hu : Shed s u) (hv : Shed s u → Shed s v) : Shed s (if p then v else u) :=
  .ite (hv hu) hu
theorem Shed.ite_else {p : Prop} [Decidable p] {u v : State} (hu : Shed s u) (hv : Shed s u → Shed s v) : Shed s (if p then u else v) :=
  .ite hu (hv hu)
theorem Shed.foldl {β : Type} {f : State → β → State} (hf : ∀ s b, Shed s (f s b)) (l : List β) (h : Shed s t) : Shed s (l.foldl f t) :=
  h.trans (foldl_rel .refl .trans hf l t)
theorem Shed.evr (e : EvrSt) (h : Shed s t) : Shed s { t with evr := e } := h.same rfl rfl rfl rfl
theorem Shed.passEnds {u : State} (h : Shed s t) (g : PassEnds t u) : Shed s u :=
  h.trans ⟨fun a ha => g.regs a (by revert a; decide), congrArg PwrSt.saving g.pwr, congrArg KprSt.chk g.kpr, congrArg KprSt.wdFrom g.kpr⟩

/-! ### The recorder's staging -/

theorem Shed.showStage (h : Shed s t) : Shed s t.showStage := h.setReg _ (by decide)
theorem Shed.stageRec (code : BitVec 16) (sev : BitVec 2) (pl : Plane) (lost : Bool) (n : Nat) (body : List Word) (h : Shed s t) :
    Shed s (t.stageRec code sev pl lost n body) := (h.evr _).showStage
theorem Shed.bumpCount (b : Nat) (h : Shed s t) : Shed s (t.bumpCount b) := by
  unfold State.bumpCount
  dsimp only
  split
  · exact (h.evr _).showStage
  · exact h.evr _
theorem Shed.addRec (code : BitVec 16) (sev : BitVec 2) (pl : Plane) (lost : Bool) (n : Nat) (body : List Word) (h : Shed s t) :
    Shed s (t.addRec code sev pl lost n body) := .ite ((h.incReg (by decide)).bumpCount 3) (h.stageRec _ _ _ _ _ _)
theorem Shed.passRec (code : BitVec 16) (sev : BitVec 2) (pl : Plane) (lost : Bool) (n : Nat) (body : List Word) (h : Shed s t) :
    Shed s (t.passRec code sev pl lost n body) :=
  .ite (h.addRec _ _ _ _ _ _) (.ite ((h.evr _).addRec _ _ _ _ _ _) (((h.evr _).bumpCount _).incReg (by decide)))
theorem Shed.stageNext (p : Plane) (h : Shed s t) : Shed s (t.stageNext p) := by
  unfold State.stageNext
  split
  · exact h
  · refine .ite h (.ite h (.passRec _ _ _ _ _ _ (.ite_else ?_ fun h => h.stageRec _ _ _ _ _ _)))
    dsimp only
    split
    · refine .ite_step (h.evr _) fun h => .setFlag _ _ h ?_
      split
      · simp only [R.NVM_LMAP_LO, shedKept, R.PWR_PFW_STAT, R.PWR_DOM_STAT, List.mem_cons, List.not_mem_nil, or_false]
        omega
      · simp only [R.NVM_LMAP_HI, shedKept, R.PWR_PFW_STAT, R.PWR_DOM_STAT, List.mem_cons, List.not_mem_nil, or_false]
        omega
    · exact h.evr _
theorem Shed.stageQueue (p : Plane) (h : Shed s t) : Shed s (t.stageQueue p) := h.foldl (fun u _ => (Shed.refl u).stageNext p) _

/-! ### What stops -/

theorem Shed.cmdDrop (h : Shed s t) : Shed s t.cmdDrop := by
  have hend (res : Nat) (b : List Byte) : Shed s (t.cmdEnd res b) :=
    .ite_else (.irq _ _ (.setRegs _ (h.same rfl rfl rfl rfl) (by simp [shedKept]))) fun h => h.emit _ _ _
  exact .ite (hend _ _) h
theorem Shed.slog (code data : Nat) (h : Shed s t) : Shed s (t.slog code data) := .emit _ _ _ (h.same rfl rfl rfl rfl)
theorem Shed.coresStop (h : Shed s t) : Shed s t.coresStop := by
  have hf (c : Nat) : R.LGEC_STAT c ∉ shedKept := by
    simp only [R.LGEC_STAT, shedKept, R.PWR_PFW_STAT, R.PWR_DOM_STAT, List.mem_cons, List.not_mem_nil, or_false]
    omega
  unfold State.coresStop
  extract_lets a
  have ha : Shed s a := h.foldl (fun u c => ((Shed.refl u).setFlag 0 false (hf c)).setFlag 1 true (hf c)) _
  clear_value a
  exact .same (.setReg 0 ha (by decide : R.LGE_PHASE ∉ shedKept)) rfl rfl rfl rfl
theorem Shed.pulseCut (o : Nat) (h : Shed s t) : Shed s (t.pulseCut o) :=
  .ite h (.emit _ _ _ (.irq _ _ (h.same rfl rfl rfl rfl)))
theorem Shed.mtrFreeze (h : Shed s t) : Shed s t.mtrFreeze := h.foldl (fun u o => (Shed.refl u).pulseCut o) _
theorem Shed.gpioOut (g : Nat) (level : Bool) (h : Shed s t) : Shed s (t.gpioOut g level) :=
  .ite h (.ite (h.setFlag _ _ (by decide)) (h.incReg (by decide)))
theorem Shed.pulseRate (o rate : Nat) (h : Shed s t) : Shed s (t.pulseRate o rate) := by
  refine h.setReg _ ?_
  simp only [R.PLS_RATE, shedKept, R.PWR_PFW_STAT, R.PWR_DOM_STAT, List.mem_cons, List.not_mem_nil, or_false]
  omega
/-- A pad that takes a value or goes off. -/
theorem Shed.drivePad {e : MapEnt} (l : List Byte) (hk : e.kind = 5 ∨ e.kind = 6) (h : Shed s t) : Shed s (t.drive e l) := by
  unfold State.drive
  obtain hk | hk := hk
  · rw [hk]
    exact h.gpioOut _ _
  · rw [hk]
    exact h.pulseRate _ _
theorem Shed.padOff {e : MapEnt} (hk : e.kind = 5 ∨ e.kind = 6) (h : Shed s t) : Shed s (t.driveOff e) := by
  unfold State.driveOff
  obtain hk | hk := hk
  · rw [hk]
    exact h.setFlag _ _ (by decide)
  · rw [hk]
    exact (h.pulseCut _).pulseRate _ _
theorem Shed.padsSafe (h : Shed s t) : Shed s t.padsSafe := by
  refine h.foldl (fun u e => ?_) _
  by_cases hk : e.1.kind = 5 ∨ e.1.kind = 6
  · rw [if_neg (by omega)]
    refine .ite (.same (.drivePad _ hk (.ite_step (.refl u) fun h => h.pulseCut _)) rfl rfl rfl rfl) (.ite ((Shed.refl u).padOff hk) (.refl u))
  · rw [if_pos (by omega)]
    exact .refl u
theorem Shed.pnlPowerFail (h : Shed s t) : Shed s t.pnlPowerFail := .setReg _ (h.same rfl rfl rfl rfl) (by decide)

/-! ### Domains that leave ON -/

theorem Shed.toFault (p : Nat) (h : Shed s t) : Shed s (t.toFault p) :=
  .foldl (fun u q => ((Shed.refl u).irq q 0).irq q 3) _ (h.same rfl rfl rfl rfl)
theorem Shed.fail (p c d : Nat) (h : Shed s t) : Shed s (t.fail p c d) := ((h.toFault p).errc _ _ _).emit _ _ _
theorem Shed.btkLost (h : Shed s t) : Shed s t.btkLost := by
  have h0 : Shed s (t.setBtk fun b => { b with com := none, next := none }) := h.same rfl rfl rfl rfl
  exact .ite (((h0.setReg (a := R.BTK_FC_STAT) 5 (by decide)).irq 56 9).same rfl rfl rfl rfl) h0
theorem Shed.drmGone (h : Shed s t) : Shed s t.drmGone := .ite ((h.btkLost.fail 56 0x101 0).passEnds (PassEnds.refl _).passesDown) h
theorem Shed.setLoad (v c : Nat) (h : Shed s t) : Shed s (t.setLoad v c) :=
  .ite h (.irq _ _ (.setFld _ _ _ (h.setFld _ _ _ (by decide)) (by decide)))
theorem Shed.mdlDrop (h : Shed s t) : Shed s t.mdlDrop := .ite (.setLoad _ _ (h.setReg _ (by decide))) h
theorem Shed.mdlLost (h : Shed s t) : Shed s t.mdlLost :=
  .setReg _ (.setReg _ (.setFld _ _ _ (h.same rfl rfl rfl rfl) (by decide)) (by decide)) (by decide)
theorem Shed.lanesGone (h : Shed s t) : Shed s t.lanesGone := .statBit _ _ _ (h.setFld _ _ _ (by decide))
theorem Shed.setGoal (k v : Nat) (h : Shed s t) : Shed s (t.setGoal k v) := h.same rfl rfl rfl rfl
theorem Shed.waitersRefused (k : Nat) (h : Shed s t) : Shed s (t.waitersRefused k) := by
  have h0 : Shed s (t.setPwr fun p => { p with wait := p.wait.filter fun e => e.2 != k }) := h.same rfl rfl rfl rfl
  have hstep (u : State) (e : Nat × Nat) : Shed u ((u.setGoal e.1 (u.dom e.1)).domRefuse e.1) :=
    ((Shed.refl u).setGoal e.1 (u.dom e.1)).setFlag (a := R.PWR_DOM_ERR) e.1 true (by decide)
  exact h0.foldl hstep _

end shed

/-- Both branches have what is said of the state. -/
theorem ite_of {P : State → Prop} {c : Prop} [Decidable c] {u v : State} (hu : P u) (hv : P v) : P (if c then u else v) := by
  split
  · exact hu
  · exact hv

/-- The wiping of a domain leaves the registers of other domains. -/
theorem State.reg_domWiped (s : State) (k a : Nat) (h : domOf (pageOf a) ≠ k) : (s.domWiped k).reg a = s.reg a := by
  have hp : (s.pagesWiped k).reg a = s.reg a := by
    have hr : (if k = 10 then s.rtcHeader else s).regs = s.regs := by
      split
      · rfl
      · rfl
    refine (Tab.get_filter regReset (fun a => domOf (pageOf a) != k || nvReg a) _ a).trans ?_
    rw [hr, if_pos (by simp [h]), State.reg]
  rw [← hp]
  have hi {c : Prop} [Decidable c] {u v : State} := ite_of (P := fun w : State => w.reg a = (s.pagesWiped k).reg a) (c := c) (u := u) (v := v)
  exact hi rfl (hi rfl (hi rfl (hi rfl (hi rfl (hi rfl (hi rfl rfl))))))

theorem State.domWiped_kpr (s : State) {k : Nat} (h3 : k ≠ 3) : (s.domWiped k).kpr = s.kpr := by
  have hp : (s.pagesWiped k).kpr = s.kpr := by
    unfold State.pagesWiped
    dsimp only
    split
    · rfl
    · rfl
  rw [← hp]
  have hi {c : Prop} [Decidable c] {u v : State} := ite_of (P := fun w : State => w.kpr = (s.pagesWiped k).kpr) (c := c) (u := u) (v := v)
  exact (congrArg State.kpr (if_neg h3)).trans (hi rfl (hi rfl (hi rfl (hi rfl (hi rfl (hi rfl rfl))))))

section leave
variable {s t : State}

/-- The wiping of a domain that is neither the supply's own nor the logic's. -/
theorem Shed.domWiped {k : Nat} (h : Shed s t) (h1 : k ≠ 1) (h3 : k ≠ 3) : Shed s (t.domWiped k) :=
  h.trans ⟨fun a ha => t.reg_domWiped k a (by
      have hd : domOf (pageOf a) = 1 := by
        revert a
        decide
      omega), congrArg PwrSt.saving (t.domWiped_pwr k), congrArg KprSt.chk (t.domWiped_kpr h3), congrArg KprSt.wdFrom (t.domWiped_kpr h3)⟩

/-- What a domain's way to OFF stops before it shows OFF. -/
def State.leaving (s : State) (k : Nat) : State :=
  let s := if k = 9 then s.drmGone else if k = 4 ∨ k = 5 then s.mdlDrop else s
  let s := if k = 5 ∧ 0 = 0 then s.mdlLost.passesDown else s
  if k = 7 then s.lanesGone else s
theorem Shed.leaving (k : Nat) (h : Shed s t) : Shed s (t.leaving k) :=
  .ite_step (.ite_step (.ite h.drmGone (.ite h.mdlDrop h)) fun h => h.mdlLost.passEnds (PassEnds.refl _).passesDown) fun h => h.lanesGone

theorem State.domLeave_off (s : State) (k : Nat) : s.domLeave k 0 =
    (((((s.leaving k).setFld R.PWR_DOM_STAT (2 * k + 1) (2 * k) 0).setGoal k 0).setFlag R.CLK_ISL_STAT k false).waitersRefused k).domWiped k := rfl

/-- A domain that goes OFF, after which only its own field of DOM_STAT differs. -/
theorem State.domLeave_shed (s : State) {k : Nat} (h1 : k ≠ 1) (h3 : k ≠ 3) :
    Shed ((s.leaving k).setFld R.PWR_DOM_STAT (2 * k + 1) (2 * k) 0) (s.domLeave k 0) := by
  rw [State.domLeave_off]
  exact ((((Shed.refl _).setGoal k 0).setFlag (a := R.CLK_ISL_STAT) k false (by decide)).waitersRefused k).domWiped h1 h3

end leave

/-- What the shedding of a domain leaves: every domain that was OFF is still OFF, the domain itself is OFF, and the latch stands. -/
structure ShedDom (k : Nat) (s t : State) : Prop where
  off : t.dom k = 0
  stays : ∀ j, j < 12 → s.dom j = 0 → t.dom j = 0
  pfw : t.reg R.PWR_PFW_STAT = s.reg R.PWR_PFW_STAT
  saving : t.pwr.saving = s.pwr.saving
  chk : t.kpr.chk = s.kpr.chk
  wd : t.kpr.wdFrom = s.kpr.wdFrom

/-- One domain of the shedding. -/
def State.shedDom (s : State) (k : Nat) : State := if s.dom k = 0 then s.setGoal k 0 else s.domLeave k 0

theorem State.shedDom_spec (s : State) {k : Nat} (hk : k < 12) (h1 : k ≠ 1) (h3 : k ≠ 3) : ShedDom k s (s.shedDom k) := by
  unfold State.shedDom
  split
  case isTrue h0 => exact ⟨h0, fun j _ h => h, rfl, rfl, rfl, rfl⟩
  case isFalse =>
    have hb := (Shed.refl s).leaving k
    have ha := s.domLeave_shed h1 h3
    have hdom (j : Nat) : (s.domLeave k 0).dom j = ((s.leaving k).setFld R.PWR_DOM_STAT (2 * k + 1) (2 * k) 0).dom j :=
      State.dom_congr (ha.regs _ (by decide)) j
    have hpfw := (ha.regs R.PWR_PFW_STAT (by decide)).trans ((State.reg_setFld _ _ _ _ _ _).trans (if_neg (by decide)))
    refine ⟨(hdom k).trans (State.dom_setDom _ hk (by decide)), fun j hj h => ?_, hpfw.trans (hb.regs _ (by decide)),
      ha.saving.trans hb.saving, ha.chk.trans hb.chk, ha.wd.trans hb.wd⟩
    by_cases hjk : j = k
    · rw [hjk, hdom]
      exact State.dom_setDom _ hk (by decide)
    · rw [hdom, State.dom, State.fld_setFld_ne _ _ _ (by omega) (by omega)]
      exact (State.dom_congr (hb.regs _ (by decide)) j).trans h

/-- The shedding of a list of domains. -/
theorem State.shedDoms_spec (l : List Nat) (hl : ∀ k, k ∈ l → k < 12 ∧ k ≠ 1 ∧ k ≠ 3) (s : State) :
    (∀ k, k ∈ l → (l.foldl State.shedDom s).dom k = 0) ∧ (∀ j, j < 12 → s.dom j = 0 → (l.foldl State.shedDom s).dom j = 0) ∧
      (l.foldl State.shedDom s).reg R.PWR_PFW_STAT = s.reg R.PWR_PFW_STAT ∧ (l.foldl State.shedDom s).pwr.saving = s.pwr.saving ∧
      (l.foldl State.shedDom s).kpr.chk = s.kpr.chk ∧ (l.foldl State.shedDom s).kpr.wdFrom = s.kpr.wdFrom := by
  induction l generalizing s with
  | nil => exact ⟨fun _ h => absurd h List.not_mem_nil, fun _ _ h => h, rfl, rfl, rfl, rfl⟩
  | cons k l ih =>
    obtain ⟨hk, h1, h3⟩ := hl k List.mem_cons_self
    have hs := s.shedDom_spec hk h1 h3
    obtain ⟨hoff, hstay, hp, hsv, hc, hw⟩ := ih (fun j hj => hl j (List.mem_cons_of_mem _ hj)) (s.shedDom k)
    refine ⟨fun j hj => ?_, fun j hj h => hstay j hj (hs.stays j hj h), hp.trans hs.pfw, hsv.trans hs.saving, hc.trans hs.chk, hw.trans hs.wd⟩
    rcases List.mem_cons.mp hj with rfl | hj
    · exact hstay _ hk hs.off
    · exact hoff j hj

/-! ### The latch -/

/-- The state before the domains are shed. -/
def State.latched (s : State) : State :=
  let s := ((s.setFlag R.PWR_PFW_STAT 1 true).emit evPfw 1 []).stageQueue .management
  let s := (if s.up 10 then s.cmdDrop else s).slog slPower s.armed
  let s := s.setKpr fun k => { k with chk := [], wdFrom := none }
  let s := (if s.active lgePage then s.coresStop else s).mtrFreeze.padsSafe
  let s := if s.shown 192 = 0 then s else s.pnlPowerFail
  s.setPwr fun p => { p with saving := true, wait := [] }

theorem pfwLatch_eq {s : State} (hs : s.pwr.started = true) (hh : s.pwr.hold = .none) (hv : s.pwr.saving = false)
    (hw : s.flag R.PWR_PFW_STAT 0 = true) : exec .pfwLatch s = .next ([4, 5, 6, 7, 9].foldl State.shedDom s.latched).safeUpdate :=
  if_neg (by simp [hs, hh, hv, hw])

/-- The latch, before the domains are shed, shows itself and stops the keeper's checks. -/
theorem State.latched_spec (s : State) : s.latched.flag R.PWR_PFW_STAT 1 = true ∧ s.latched.pwr.saving = true ∧ s.latched.kpr.chk = [] ∧
    s.latched.kpr.wdFrom = none := by
  unfold State.latched
  extract_lets a b c d e
  have hb : Shed (s.setFlag R.PWR_PFW_STAT 1 true) b :=
    .slog _ _ (.ite_step (((Shed.refl _).emit _ _ _).stageQueue _) fun h => h.cmdDrop)
  have he : Shed c e := .ite_else (.padsSafe (.mtrFreeze (.ite_step (.refl c) fun h => h.coresStop))) fun h => h.pnlPowerFail
  refine ⟨?_, rfl, he.chk, he.wd⟩
  have h1 : e.flag R.PWR_PFW_STAT 1 = (s.setFlag R.PWR_PFW_STAT 1 true).flag R.PWR_PFW_STAT 1 :=
    congrArg (bit · 1) ((he.regs _ (by decide)).trans (hb.regs _ (by decide)))
  refine Eq.trans h1 ?_
  rw [State.flag_setFlag _ _ _ _ _ _ (by decide), if_pos ⟨rfl, rfl⟩]

theorem pfwLatch_sheds {s : State} (hs : s.pwr.started = true) (hh : s.pwr.hold = .none) (hv : s.pwr.saving = false)
    (hw : s.flag R.PWR_PFW_STAT 0 = true) : Answers .pfwLatch s fun t => t.pwr.saving = true ∧ t.flag R.PWR_PFW_STAT 1 = true ∧
      (∀ k, k ∈ [4, 5, 6, 7, 9] → t.dom k = 0) ∧ (∀ i, i < 4 → t.flag R.KPR_SAFE_STAT i = false) ∧ t.kpr.chk = [] ∧ t.kpr.wdFrom = none := by
  obtain ⟨hlat, hsav, hchk, hwd⟩ := s.latched_spec
  obtain ⟨hoff, -, hpfw, hsv, hc, hwf⟩ := State.shedDoms_spec [4, 5, 6, 7, 9] (by decide) s.latched
  refine ⟨_, pfwLatch_eq hs hh hv hw, ?_⟩
  generalize [4, 5, 6, 7, 9].foldl State.shedDom s.latched = u at *
  have hu := u.safeUpdate_causes
  refine ⟨by rw [hu.pwr, hsv, hsav], ?_, fun k hk => ?_, fun i hi => ?_, by rw [hu.kpr, hc, hchk], by rw [hu.kpr, hwf, hwd]⟩
  · rw [State.flag, hu.regs _ (by decide), hpfw]
    exact hlat
  · rw [State.dom_congr (hu.regs _ (by decide))]
    exact hoff k hk
  · rw [u.safeUpdate_level hi, hsv, hsav]
    simp

/-- A pair of registers holds a number modulo its width. -/
theorem State.reg64_setReg64_mod (s : State) {a b : Nat} (n : Nat) (hab : a ≠ b) : (s.setReg64 a b n).reg64 a b = n % 2 ^ 64 := by
  have ha : (s.setReg64 a b n).reg a = lo32 n := by rw [State.setReg64, State.reg_setReg, if_neg hab, State.reg_setReg_self]
  have hb : (s.setReg64 a b n).reg b = hi32 n := State.reg_setReg_self _ _ _
  rw [State.reg64, State.regN, State.regN, ha, hb, lo32, hi32, BitVec.toNat_ofNat, BitVec.toNat_ofNat]
  omega

/-- The level of PFW_N is none of a domain's states. -/
theorem State.up_congr_pfw (s : State) (b : Bool) (k : Nat) : (s.setPwr fun p => { p with pfwHigh := b }).up k = s.up k := rfl

/-- SAVE_STAT and the sequence after items are committed. -/
theorem State.saveItems_shown (s : State) {n : Nat} (h0 : 0 < n) (c : Bool) :
    (s.saveItems n c).reg R.PWR_SAVE_STAT = wd (2 ^ n - 1 + 256 * b2n c + 512 * b2n s.lge.cut) ∧
      (s.saveItems n c).reg64 R.PWR_SAVE_SEQ_LO R.PWR_SAVE_SEQ_HI = (s.pwr.saves.seq + 1) % 2 ^ 64 ∧
      (s.saveItems n c).pwr.saves.seq = s.pwr.saves.seq + 1 := by
  rw [State.saveItems, if_neg (by omega)]
  dsimp only
  refine ⟨?_, ?_, ?_⟩
  · rw [State.reg_setReg64_ne _ _ (by decide) (by decide), State.reg_setReg_self]
  · rw [State.reg64_setReg64_mod _ _ (by decide)]
  · rw [State.setReg64_pwr, State.setReg_pwr, State.setSaves]

/-- Settles O15: the warning, the latch that sheds, and the items of the save. -/
theorem powerFailSave : Obligations.PowerFailSave := by
  intro s n c
  refine ⟨fun hu => ⟨?_, ?_⟩, fun hu => ⟨?_, ?_⟩, fun h => ?_, pfwLatch_sheds, fun hs hd hc => ?_, fun h => ?_,
    fun h0 _ => s.saveItems_shown h0 c, if_pos rfl, fun hs hd => ?_, fun h => ?_⟩
  · exact congrArg Host.Outcome.next (if_neg (by rw [State.up_congr_pfw, hu]; decide))
  · exact congrArg Host.Outcome.next (if_neg (by rw [State.up_congr_pfw, hu]; decide))
  · exact congrArg Host.Outcome.next (if_pos ((s.up_congr_pfw _ 1).trans hu))
  · exact congrArg Host.Outcome.next (if_pos ((s.up_congr_pfw _ 1).trans hu))
  · refine if_pos ?_
    obtain h | h | h | h := h <;> simp [h]
  · exact congrArg Host.Outcome.next (if_pos ⟨hs, by simp [hd], by simp [hc]⟩)
  · refine congrArg Host.Outcome.next (if_neg ?_)
    rintro ⟨h1, h2, h3⟩
    simp_all
  · refine ⟨_, if_neg (by simp [hs, hd]), ?_⟩
    exact ⟨congrArg PwrSt.saveDone (State.safeUpdate_causes _).pwr, congrArg PwrSt.hold (State.safeUpdate_causes _).pwr⟩
  · refine if_pos ?_
    obtain h | h := h <;> simp [h]

end Sys2Proof.Machine
end

section
/-! Model loads (R155 to R164): how a load starts, ends and is judged. -/

namespace Sys2Proof.Machine

theorem Shows.mdl {s t : State} (h : Shows s t) : t.mdl = s.mdl := by
  obtain ⟨r, x, c, e, rfl⟩ := h
  rfl

section loads
variable (s : State)

/-- LOAD and CHECK read as they were put. -/
theorem State.setLoad_reads {v c : Nat} (hv : v < 8) (hc : c < 256) :
    (s.setLoad v c).fld R.DSQ_MODEL_STAT 2 0 = v ∧ (s.setLoad v c).fld R.DSQ_MODEL_STAT 15 8 = c := by
  unfold State.setLoad
  split
  case isTrue h => exact h
  case isFalse =>
    rw [State.fld_irq, State.fld_irq, State.fld_setFld_ne _ _ _ (by decide) (by decide), State.fld_setFld _ _ _ _ (by decide) (by decide),
      State.fld_setFld _ _ _ _ (by decide) (by decide)]
    exact ⟨Nat.mod_eq_of_lt hv, Nat.mod_eq_of_lt hc⟩

theorem RegsBut.setLoad {l : List Nat} {t : State} (v c : Nat) (h : RegsBut l s t) (ha : R.DSQ_MODEL_STAT ∈ l) : RegsBut l s (t.setLoad v c) := by
  unfold State.setLoad
  split
  · exact h
  · exact ((h.setFld _ _ _ ha).setFld _ _ _ ha).irq _ _

theorem State.measExtend_shows (m : Nat) (d : List Byte) : Shows s (s.measExtend m d) :=
  .emit _ _ _ (.incReg _ (.foldl (fun u _ => (Shows.refl u).setReg _ _) _ s))

/-- A discarded load shows CANCELLED. -/
theorem State.mdlDrop_cancels (h : s.fld R.DSQ_MODEL_STAT 2 0 = 1 ∨ s.fld R.DSQ_MODEL_STAT 2 0 = 2) :
    s.mdlDrop.fld R.DSQ_MODEL_STAT 2 0 = 4 ∧ s.mdlDrop.reg R.DSQ_MODEL_PEND_REV = 0 ∧
      RegsBut [R.DSQ_MODEL_STAT, R.DSQ_MODEL_PEND_REV] s s.mdlDrop := by
  have hd : s.mdlDrop = (s.setReg R.DSQ_MODEL_PEND_REV 0).setLoad 4 0 := if_pos h
  rw [hd]
  refine ⟨(State.setLoad_reads _ (by decide) (by decide)).1, ?_, ((RegsBut.refl _ s).setReg _ (by simp)).setLoad _ _ _ (by simp)⟩
  exact ((RegsBut.refl [R.DSQ_MODEL_STAT] _).setLoad _ _ _ (by simp) R.DSQ_MODEL_PEND_REV (by decide)).trans (s.reg_setReg_self _ _)

theorem State.mdlActivate_mdl : s.mdlActivate.mdl = { act := true, slot := 1 - s.mdl.slot, gen := s.mdl.gen + 1 } := by
  unfold State.mdlActivate
  dsimp only
  rw [State.emitSev_mdl, (State.measExtend_shows _ _ _).mdl, (State.setLoad_shows _ _ _).mdl, State.setFlag_mdl, State.setFlag_mdl,
    State.setRegs_mdl]
  rfl

/-- Without LPDDR5, or without an image, MODEL_LOAD is its command alone. -/
theorem modelLoad_noImage {who : Initiator} {image : List Byte} (h : MayWrite who R.DSQ_MODEL_CMD s = true) (hi : s.dramUp = false ∨ image = []) :
    exec (.modelLoad who image) s = .next (if (s.answer 0).fld R.DSQ_MODEL_STAT 2 0 = 1 then
        ((s.answer 0).errc dsqPage 0x103 0).emit evModelBusy dsqPage []
      else if (!(s.answer 0).up 5) = true then (s.answer 0).setLoad 4 0
      else ((s.answer 0).setReg R.DSQ_MODEL_PEND_REV (s.answer 0).pendRev).setLoad 1 0) := by
  have hs : (if s.dramUp && inDram (s.reg64 R.DSQ_MODEL_ADDR_LO R.DSQ_MODEL_ADDR_HI) image.length then
      { s with dram := wrBytes s.dram (s.reg64 R.DSQ_MODEL_ADDR_LO R.DSQ_MODEL_ADDR_HI) image } else s) = s := by
    obtain hi | hi := hi
    · rw [hi]
      rfl
    · subst hi
      exact ite_self _
  change execModelLoad who image s = _
  unfold execModelLoad
  dsimp only
  rw [hs, s.gate_may _ h]

/-- An image that LPDDR5 cannot give reads as no bytes. -/
theorem State.mdlImage_none (h : s.dramUp = false ∨
    inDram (s.reg64 R.DSQ_MODEL_ADDR_LO R.DSQ_MODEL_ADDR_HI) (s.regN R.DSQ_MODEL_LEN) = false ∨ 12 * 1048576 < s.regN R.DSQ_MODEL_LEN) :
    s.mdlImage = [] := by
  refine if_neg ?_
  rw [Bool.and_eq_true, Bool.and_eq_true, decide_eq_true_eq]
  rintro ⟨⟨h1, h2⟩, h3⟩
  obtain h | h | h := h
  · exact Bool.noConfusion (h.symm.trans h1)
  · exact Bool.noConfusion (h.symm.trans h2)
  · omega

end loads

/-- Settles O17: each command of a load by the state of the load, and the verdict by its first failed check. -/
theorem modelLoads : Obligations.ModelLoads := by
  intro s who image read bad b v c
  refine ⟨fun h hi h1 => ?_, fun h h1 hu hd hr => ?_, fun h h1 hu hi => ?_, fun h h1 => ?_, fun h1 h4 h5 hd hi hn => ⟨fun h0 => ?_, fun h0 => ?_⟩,
    fun h1 h4 h5 hx => ?_, fun h1 => if_pos (.inl h1), fun n a ha hf => ?_, fun a ha hf => ⟨?_, fun t ht => ?_⟩, s.setLoad_reads, s.mdlActivate_mdl⟩
  · exact (modelLoad_noImage s h hi).trans (congrArg _ (if_pos h1))
  · intro u
    have hs : (if s.dramUp && inDram (s.reg64 R.DSQ_MODEL_ADDR_LO R.DSQ_MODEL_ADDR_HI) image.length then
        { s with dram := wrBytes s.dram (s.reg64 R.DSQ_MODEL_ADDR_LO R.DSQ_MODEL_ADDR_HI) image } else s) = u :=
      if_pos (by rw [hr, hd]; rfl)
    change execModelLoad who image s = _
    unfold execModelLoad
    dsimp only
    rw [hs, State.gate_may _ _ (show MayWrite who R.DSQ_MODEL_CMD u = true from h), if_neg (show ¬ (u.answer 0).fld R.DSQ_MODEL_STAT 2 0 = 1 from h1),
      if_neg (show ¬ (!(u.answer 0).up 5) = true by rw [State.up_answer, show u.up 5 = true from hu]; decide)]
    rfl
  · refine ⟨(s.answer 0).setLoad 4 0, ?_, (State.setLoad_reads _ (by decide) (by decide)).1, ((RegsBut.refl _ s).answer 0).setLoad _ _ _ (by simp)⟩
    refine (modelLoad_noImage s h (.inr hi)).trans (congrArg _ ((if_neg h1).trans (if_pos ?_)))
    rw [State.up_answer, hu]
    rfl
  · obtain ⟨h4, hp, hr⟩ := (s.answer 0).mdlDrop_cancels h1
    exact ⟨_, congrArg Host.Outcome.next (s.gate_may _ h), h4, hp, ((RegsBut.refl _ s).answer 0).trans hr,
      SameMem.trans (.refl s) (State.mdlDrop_shows _).mem, (State.mdlDrop_shows _).mdl⟩
  · have hb : s.mdlImage = rdBytes s.dram (s.reg64 R.DSQ_MODEL_ADDR_LO R.DSQ_MODEL_ADDR_HI) (s.regN R.DSQ_MODEL_LEN) :=
      if_pos (by rw [hd, hi, decide_eq_true hn]; rfl)
    have hl : (rdBytes s.dram (s.reg64 R.DSQ_MODEL_ADDR_LO R.DSQ_MODEL_ADDR_HI) (s.regN R.DSQ_MODEL_LEN)).length = s.regN R.DSQ_MODEL_LEN := by
      simp [rdBytes]
    refine (if_neg (by simp [h1, h4, h5])).trans ?_
    rw [hb, if_neg, hl]
    rw [List.isEmpty_iff_length_eq_zero, hl]
    omega
  · have hb : s.mdlImage = [] := by
      refine (if_pos (by rw [hd, hi, decide_eq_true hn]; rfl)).trans ?_
      rw [h0]
      rfl
    refine (if_neg (by simp [h1, h4, h5])).trans ?_
    rw [hb]
    rfl
  · refine (if_neg (by simp [h1, h4, h5])).trans ?_
    rw [s.mdlImage_none hx]
    rfl
  · subst ha
    rw [State.mdlJudge, hf]
    simp only [Bool.and_eq_true, decide_eq_true_eq]
  · subst ha
    rw [State.mdlJudge, hf]
    rfl
  · subst ha ht
    rw [State.mdlJudge, hf]
    rfl

end Sys2Proof.Machine
end

section
/-! Causes stay: an operation that only raises causes takes none of IRQ_STAT back (R88). -/

namespace Sys2Proof.Machine

/-- Every cause that stands in s stands in t. -/
def CausesKept (s t : State) : Prop := ∀ p i, bit (s.page p).irqStat i = true → bit (t.page p).irqStat i = true

section causes
variable {s t : State}

theorem CausesKept.refl (s : State) : CausesKept s s := fun _ _ h => h
theorem CausesKept.trans {u : State} (h : CausesKept s t) (g : CausesKept t u) : CausesKept s u := fun p i e => g p i (h p i e)
theorem CausesKept.ite {p : Prop} [Decidable p] {u v : State} (hu : CausesKept s u) (hv : CausesKept s v) :
    CausesKept s (if p then u else v) := by
  split
  · exact hu
  · exact hv
theorem CausesKept.ite_step {p : Prop} [Decidable p] {u v : State} (hu : CausesKept s u) (hv : CausesKept s u → CausesKept s v) :
    CausesKept s (if p then v else u) := .ite (hv hu) hu
theorem CausesKept.foldl {β : Type} {f : State → β → State} (hf : ∀ s b, CausesKept s (f s b)) (l : List β) (s : State) :
    CausesKept s (l.foldl f s) := foldl_rel .refl .trans hf l s
/-- The page headers stay. -/
theorem CausesKept.pages {u : State} (h : CausesKept s t) (e : ∀ p, u.page p = t.page p) : CausesKept s u :=
  fun p i g => by rw [e p]; exact h p i g
theorem CausesKept.setReg (a : Nat) (v : Word) (h : CausesKept s t) : CausesKept s (t.setReg a v) := h.pages fun _ => rfl
theorem CausesKept.setFld (a hi lo x : Nat) (h : CausesKept s t) : CausesKept s (t.setFld a hi lo x) := h.setReg _ _
theorem CausesKept.setFlag (a i : Nat) (b : Bool) (h : CausesKept s t) : CausesKept s (t.setFlag a i b) := h.setReg _ _
theorem CausesKept.incReg (a : Nat) (h : CausesKept s t) : CausesKept s (t.incReg a) := h.setReg _ _
theorem CausesKept.setRegs (l : List (Nat × Word)) (h : CausesKept s t) : CausesKept s (t.setRegs l) := h.pages fun _ => State.page_setRegs _ _ _
theorem CausesKept.irq (q k : Nat) (h : CausesKept s t) : CausesKept s (t.irq q k) := h.trans fun p i e => by
  rw [State.page_irq]
  split
  case isTrue hq => subst hq; simp only [bit_or, e, Bool.true_or]
  case isFalse => exact e
theorem CausesKept.errc (q c d : Nat) (h : CausesKept s t) : CausesKept s (t.errc q c d) := h.trans fun p i e => by
  rw [State.page_errc]
  split
  case isTrue hq => subst hq; exact e
  case isFalse => exact e
theorem CausesKept.statBit (q k : Nat) (b : Bool) (h : CausesKept s t) : CausesKept s (t.statBit q k b) := h.trans fun p i e => by
  rw [State.statBit, State.page_setPage]
  split
  case isTrue hq => subst hq; exact e
  case isFalse => exact e
theorem CausesKept.submit (r : Record) (h : CausesKept s t) : CausesKept s (t.submit r) := by
  refine h.trans ?_
  obtain e | e | e | ⟨q, e⟩ := t.submit_cases r <;> rw [e]
  · exact .refl t
  · exact ((CausesKept.refl t).pages fun _ => rfl).irq _ _
  · exact (CausesKept.refl t).incReg _
  · exact (CausesKept.refl t).pages fun _ => rfl
theorem CausesKept.emit (k p : Nat) (l : List Word) (h : CausesKept s t) : CausesKept s (t.emit k p l) := h.submit _
theorem CausesKept.emitSev (k : Nat) (v : BitVec 2) (p : Nat) (l : List Word) (h : CausesKept s t) : CausesKept s (t.emitSev k v p l) := h.submit _

end causes

/-! ### The rest of the state -/

section rest
variable {s t : State}

theorem Shows.nsu (h : Shows s t) : t.nsu = s.nsu := by
  obtain ⟨r, x, c, e, rfl⟩ := h
  rfl
theorem Shows.btk (h : Shows s t) : t.btk = s.btk := by
  obtain ⟨r, x, c, e, rfl⟩ := h
  rfl
theorem Shows.plk (h : Shows s t) : t.plk = s.plk := by
  obtain ⟨r, x, c, e, rfl⟩ := h
  rfl
theorem Shows.stalls (h : Shows s t) : t.stalls = s.stalls := by
  obtain ⟨r, x, c, e, rfl⟩ := h
  rfl
theorem Shows.sec (h : Shows s t) : t.sec = s.sec := by
  obtain ⟨r, x, c, e, rfl⟩ := h
  rfl
theorem Shows.axes (h : Shows s t) : t.axes = s.axes := by
  obtain ⟨r, x, c, e, rfl⟩ := h
  rfl

theorem Shows.ite_step {p : Prop} [Decidable p] {u v : State} (hu : Shows s u) (hv : Shows s u → Shows s v) :
    Shows s (if p then v else u) := .ite (hv hu) hu

end rest

section registers
variable {s : State} {l : List Nat}

theorem RegsBut.ite {p : Prop} [Decidable p] {u v : State} (hu : RegsBut l s u) (hv : RegsBut l s v) : RegsBut l s (if p then u else v) := by
  split
  · exact hu
  · exact hv
theorem RegsBut.ite_step {p : Prop} [Decidable p] {u v : State} (hu : RegsBut l s u) (hv : RegsBut l s u → RegsBut l s v) :
    RegsBut l s (if p then v else u) := .ite (hv hu) hu
theorem RegsBut.statBit {t : State} (p i : Nat) (b : Bool) (h : RegsBut l s t) : RegsBut l s (t.statBit p i b) := h.same rfl
theorem RegsBut.foldl {β : Type} {f : State → β → State} (hf : ∀ s b, RegsBut l s (f s b)) (k : List β) (s : State) :
    RegsBut l s (k.foldl f s) := foldl_rel (RegsBut.refl l) RegsBut.trans hf k s

theorem RegsBut.fld {t : State} (h : RegsBut l s t) {a : Nat} (ha : a ∉ l) (i j : Nat) : t.fld a i j = s.fld a i j := by
  rw [State.fld, h.reg ha, State.fld]
theorem RegsBut.flag {t : State} (h : RegsBut l s t) {a : Nat} (ha : a ∉ l) (i : Nat) : t.flag a i = s.flag a i := by
  rw [State.flag, h.reg ha, State.flag]
theorem RegsBut.regN {t : State} (h : RegsBut l s t) {a : Nat} (ha : a ∉ l) : t.regN a = s.regN a := by
  rw [State.regN, h.reg ha, State.regN]

end registers

end Sys2Proof.Machine
end

section
/-! The job ring (R190 to R201, R224): how a job is taken, how it ends and what an error that it met shows. -/

namespace Sys2Proof.Machine

/-- The jobs, the yard and the free values replaced. -/
def State.putJobs (s : State) (y : Tab Byte) (n : NsuSt) (f : Nat) : State := { s with yard := y, nsu := n, free := f }

/-- Registers that show what the clusters run. -/
def clusterRegs : List Nat :=
  R.NSU_ACTIVE :: (List.range 4).flatMap fun c => [R.NSUC_BUSY_LO c, R.NSUC_BUSY_HI c, R.NSUC_STAT c, R.NSUC_JOB_TAG c]
/-- Registers that a job's end writes. -/
def jobRegs : List Nat := [R.JQ_JQ_DONE, R.JQ_JQ_LAST_TAG, R.JQ_JQ_LAST_OUT, R.NSU_JOB_ERRS] ++ clusterRegs

/-- What the end of a job may change. -/
structure JobEnds (s t : State) : Prop where
  shows : ∃ y n f, Shows (s.putJobs y n f) t
  regs : RegsBut jobRegs s t
  errcode : ∀ q, (t.page q).errcode = (s.page q).errcode

section ends
variable (s : State)

theorem JobEnds.refl : JobEnds s s := ⟨⟨s.yard, s.nsu, s.free, .refl s⟩, .refl _ s, fun _ => rfl⟩
theorem JobEnds.trans {s t u : State} (h : JobEnds s t) (g : JobEnds t u) : JobEnds s u := by
  obtain ⟨⟨y, n, f, r, x, c, e, rfl⟩, hr, he⟩ := h
  obtain ⟨⟨y', n', f', g⟩, gr, ge⟩ := g
  exact ⟨⟨y', n', f', Shows.trans ⟨r, x, c, e, rfl⟩ g⟩, hr.trans gr, fun q => (ge q).trans (he q)⟩

/-- A cluster shows the job that it runs. -/
def State.showJob (s : State) (c : Nat) : State :=
  (s.setFlag (R.NSUC_STAT c) 8 (s.nsu.jobs.find? fun j => j.cl.testBit c).isSome).setReg (R.NSUC_JOB_TAG c)
    (match s.nsu.jobs.find? fun j => j.cl.testBit c with | some j => wd (dW j.desc 1) | none => s.reg (R.NSUC_JOB_TAG c))

theorem State.showBusy_eq : s.showBusy =
    (List.range 4).foldl State.showJob (s.setFld R.NSU_ACTIVE 3 0 (s.nsu.jobs.foldl (fun a j => a ||| j.cl) 0)) := rfl

theorem mem_clusterRegs {c : Nat} (hc : c < 4) : R.NSUC_BUSY_LO c ∈ clusterRegs ∧ R.NSUC_BUSY_HI c ∈ clusterRegs ∧ R.NSUC_STAT c ∈ clusterRegs ∧
    R.NSUC_JOB_TAG c ∈ clusterRegs := by
  have h (a : Nat) (ha : a ∈ [R.NSUC_BUSY_LO c, R.NSUC_BUSY_HI c, R.NSUC_STAT c, R.NSUC_JOB_TAG c]) : a ∈ clusterRegs :=
    List.mem_cons_of_mem _ (List.mem_flatMap.mpr ⟨c, List.mem_range.mpr hc, ha⟩)
  exact ⟨h _ (by simp), h _ (by simp), h _ (by simp), h _ (by simp)⟩

/-- Steps over the clusters change registers of the list alone. -/
theorem RegsBut.clusters {l : List Nat} {f : State → Nat → State} (hf : ∀ u c, c < 4 → RegsBut l u (f u c)) {t : State} (h : RegsBut l s t) :
    RegsBut l s ((List.range 4).foldl f t) :=
  ((((h.trans (hf _ 0 (by decide))).trans (hf _ 1 (by decide))).trans (hf _ 2 (by decide))).trans (hf _ 3 (by decide)))

theorem State.showJob_shows (c : Nat) : Shows s (s.showJob c) := ((Shows.refl s).setFlag _ _ _).setReg _ _
theorem State.showJob_regs {c : Nat} (hc : c < 4) : RegsBut clusterRegs s (s.showJob c) :=
  ((RegsBut.refl _ s).setFlag _ _ (mem_clusterRegs hc).2.2.1).setReg _ (mem_clusterRegs hc).2.2.2

theorem State.showBusy_shows : Shows s s.showBusy := by
  rw [State.showBusy_eq]
  exact ((Shows.refl s).setFld _ _ _ _).trans (.foldl State.showJob_shows _ _)
theorem State.showBusy_regs : RegsBut clusterRegs s s.showBusy := by
  rw [State.showBusy_eq]
  exact .clusters s (fun u _ hc => u.showJob_regs hc) ((RegsBut.refl _ s).setFld _ _ _ (by decide))
theorem State.showBusy_page (p : Nat) : s.showBusy.page p = s.page p := by
  rw [State.showBusy_eq, foldl_fixed (fun u : State => u.page p) (f := State.showJob) (fun _ _ => rfl)]
  rfl

end ends

section finish
variable (s : State) (j : Job) (it : Word)

/-- The job is out of the list, its outputs in the yard. -/
def State.jobOut (s : State) (j : Job) (it : Word) : State :=
  (if s.up 5 then { s with yard := s.jobYard j it } else s).setNsu fun n => { n with jobs := n.jobs.filter fun x => x.idx != j.idx }

/-- What a job's end shows before its causes: the clusters' busy time, JQ_DONE and the last job. -/
def State.jobShown (s : State) (j : Job) (t : Nat) : State :=
  (((List.range 4).foldl (fun s c => if j.cl.testBit c then
      s.setReg64 (R.NSUC_BUSY_LO c) (R.NSUC_BUSY_HI c) (s.reg64 (R.NSUC_BUSY_LO c) (R.NSUC_BUSY_HI c) + (t - j.start) / 2 ^ 32 * 4 / 5) else s) s).incReg
    R.JQ_JQ_DONE).setRegs [(R.JQ_JQ_LAST_TAG, wd (dW j.desc 1)), (R.JQ_JQ_LAST_OUT, wd (j.out + 256 * dOp j.desc))]

/-- The causes of a job's end. -/
def State.jobCauses (s : State) (j : Job) : State :=
  let s := if decide ((4 ≤ j.out ∧ j.out ≤ 9) ∨ j.out = 11) then (s.incReg R.NSU_JOB_ERRS).irq jqPage 9 else s
  if dFlag j.desc 0 then s.irq jqPage 8 else s

theorem State.jobFinish_eq : s.jobFinish j it =
    let u := (((s.jobOut j it).jobShown j s.time.nsu).jobCauses j).showBusy
    if u.nsu.jobs.isEmpty && u.reg R.JQ_JQ_HEAD == u.reg R.JQ_JQ_TAIL then u.irq jqPage 11 else u := rfl

theorem State.jobOut_nsu : (s.jobOut j it).nsu.jobs = s.nsu.jobs.filter fun x => x.idx != j.idx := by
  unfold State.jobOut
  split
  · rfl
  · rfl
theorem State.jobOut_eq : ∃ y n, s.jobOut j it = s.putJobs y n s.free := by
  unfold State.jobOut
  split
  · exact ⟨_, _, rfl⟩
  · exact ⟨s.yard, _, rfl⟩
theorem State.jobShown_shows (t : Nat) : Shows s (s.jobShown j t) :=
  .setRegs _ (.incReg _ (.foldl (fun u _ => .ite_step (.refl u) fun h => h.setReg64 _ _ _) _ s))
theorem State.jobShown_regs (t : Nat) : RegsBut jobRegs s (s.jobShown j t) :=
  .setRegs _ (.incReg (.clusters s (fun u c hc => .ite_step (.refl _ u) fun h => h.setReg64 _ (List.mem_append_right _ (mem_clusterRegs hc).1) (List.mem_append_right _ (mem_clusterRegs hc).2.1))
    (.refl _ s)) (by decide)) (by simp [jobRegs])
theorem State.jobCauses_shows : Shows s (s.jobCauses j) :=
  .ite_step (.ite_step (.refl s) fun h => (h.incReg _).irq _ _) fun h => h.irq _ _
theorem State.jobCauses_regs : RegsBut [R.NSU_JOB_ERRS] s (s.jobCauses j) :=
  .ite_step (.ite_step (.refl _ s) fun h => (h.incReg (by decide)).irq _ _) fun h => h.irq _ _
theorem State.jobShown_page (t p : Nat) : (s.jobShown j t).page p = s.page p := by
  unfold State.jobShown
  rw [State.page_setRegs]
  refine foldl_fixed (fun u : State => u.page p) (fun u c => ?_) _ s
  split
  · rfl
  · rfl

theorem State.jobCauses_errcode (q : Nat) : ((s.jobCauses j).page q).errcode = (s.page q).errcode := by
  unfold State.jobCauses
  dsimp only
  have h (p : Prop) [Decidable p] : ((if p then (s.incReg R.NSU_JOB_ERRS).irq jqPage 9 else s).page q).errcode = (s.page q).errcode := by
    split
    · exact State.errcode_irq _ _ _ _
    · rfl
  split
  · rw [State.errcode_irq, h]
  · exact h _

/-- What stands of the job when its end is shown. -/
def State.jobLeft (s : State) (j : Job) (it : Word) : State := (((s.jobOut j it).jobShown j s.time.nsu).jobCauses j).showBusy

theorem State.jobLeft_shows : Shows (s.jobOut j it) (s.jobLeft j it) :=
  ((State.jobShown_shows _ _ _).trans (State.jobCauses_shows _ _)).trans (State.showBusy_shows _)
theorem State.jobLeft_regs : RegsBut jobRegs s (s.jobLeft j it) := by
  obtain ⟨y, n, h⟩ := s.jobOut_eq j it
  have h0 : RegsBut jobRegs s (s.jobOut j it) := by
    rw [h]
    exact .refl _ s
  exact ((h0.trans (State.jobShown_regs _ _ _)).trans ((State.jobCauses_regs _ _).mono (by simp [jobRegs]))).trans
    ((State.showBusy_regs _).mono fun _ h => List.mem_append_right _ h)
theorem State.jobLeft_errcode (q : Nat) : ((s.jobLeft j it).page q).errcode = (s.page q).errcode := by
  rw [State.jobLeft, State.showBusy_page, State.jobCauses_errcode, State.jobShown_page]
  obtain ⟨y, n, h⟩ := s.jobOut_eq j it
  rw [h]
  rfl

/-- The end of a job changes the yard, the jobs and what is shown. -/
theorem JobEnds.jobFinish : JobEnds s (s.jobFinish j it) := by
  obtain ⟨y, n, h⟩ := s.jobOut_eq j it
  have hs := s.jobLeft_shows j it
  have hr := s.jobLeft_regs j it
  have he := s.jobLeft_errcode j it
  rw [State.jobFinish_eq]
  change JobEnds s (if _ then (s.jobLeft j it).irq jqPage 11 else s.jobLeft j it)
  generalize s.jobLeft j it = u at *
  rw [h] at hs
  refine ⟨⟨y, n, s.free, .ite_step hs fun h => h.irq _ _⟩, .ite_step hr fun h => h.irq _ _, fun q => ?_⟩
  split
  · rw [State.errcode_irq, he]
  · exact he q

theorem State.jobFinish_jobs : (s.jobFinish j it).nsu.jobs = s.nsu.jobs.filter fun x => x.idx != j.idx := by
  rw [State.jobFinish_eq, ← s.jobOut_nsu j it, ← (s.jobLeft_shows j it).nsu]
  change (State.nsu (if _ then (s.jobLeft j it).irq jqPage 11 else s.jobLeft j it)).jobs = _
  split
  · rfl
  · rfl

end finish

/-! ### An abort (R224) -/

/-- A job as an abort ends it: what it ran on, and nothing of its work but elements already copied. -/
def Job.aborted (j : Job) (l : List (Nat × List Byte)) : Job :=
  { idx := j.idx, desc := j.desc, cl := j.cl, start := j.start, out := 6, data := l, flags := j.flags &&& 16,
    log := if hasLog j.desc then some [] else none }
/-- A job is aborted. -/
def State.abortJob (s : State) (j : Job) : State :=
  let f := s.fresh
  let k := if f.1.getLsbD 0 then f.2.someOf j.data else ([], f.2)
  k.2.jobFinish (j.aborted k.1) 0

section abort
variable (s : State)

theorem State.jobsAbort_eq : s.jobsAbort = s.nsu.jobs.foldl State.abortJob s := rfl

/-- An aborted job ends, drawing free values. -/
theorem State.abortJob_eq (j : Job) : ∃ n k, k.idx = j.idx ∧ s.abortJob j = State.jobFinish { s with free := n } k 0 := by
  unfold State.abortJob
  extract_lets f k
  obtain ⟨n, hn⟩ : ∃ n, k.2 = { s with free := n } := by
    change ∃ n, (if f.1.getLsbD 0 then f.2.someOf j.data else ([], f.2)).2 = _
    split
    · exact ⟨_, rfl⟩
    · exact ⟨_, rfl⟩
  rw [hn]
  exact ⟨n, j.aborted k.1, rfl, rfl⟩

theorem State.abortJob_ends (j : Job) : JobEnds s (s.abortJob j) := by
  obtain ⟨n, k, -, h⟩ := s.abortJob_eq j
  rw [h]
  exact JobEnds.trans ⟨⟨s.yard, s.nsu, n, .refl _⟩, .refl _ s, fun _ => rfl⟩ (.jobFinish _ k 0)

theorem State.jobsAbort_ends : JobEnds s s.jobsAbort := foldl_rel .refl .trans State.abortJob_ends _ s

theorem State.foldl_abortJob_jobs (l : List Job) : (l.foldl State.abortJob s).nsu.jobs = s.nsu.jobs.filter fun x => l.all fun j => x.idx != j.idx := by
  induction l generalizing s with
  | nil => exact (List.filter_eq_self.mpr fun _ _ => rfl).symm
  | cons j l ih =>
    obtain ⟨n, k, hk, h⟩ := s.abortJob_eq j
    rw [List.foldl_cons, ih, h, State.jobFinish_jobs, hk, List.filter_filter]
    exact congrArg (fun f => List.filter f s.nsu.jobs) (funext fun x => Bool.and_comm _ _)

/-- An abort leaves no job. -/
theorem State.jobsAbort_jobs : s.jobsAbort.nsu.jobs = [] := by
  rw [State.jobsAbort_eq, State.foldl_abortJob_jobs, List.filter_eq_nil_iff]
  intro x hx h
  have := List.all_eq_true.mp h x hx
  simp at this

end abort

/-! ### Errors that a job met (R166, R171 to R173) -/

section met
variable (s : State)

theorem State.toFault_nsu (p : Nat) : (s.toFault p).nsu = s.nsu :=
  foldl_fixed State.nsu (f := fun s q => (s.irq q 0).irq q 3) (fun _ _ => rfl) (pagesOf p) _

/-- The NSU in FAULT shows its code, and no job is left. -/
theorem State.nsuFail_spec (code detail : Nat) : ((s.nsuFail code detail).blk 48).st = .fault ∧
    ((s.nsuFail code detail).page 48).errcode = wd (code % 0x10000 + 0x10000 * (detail % 0x10000)) ∧ (s.nsuFail code detail).nsu.jobs = [] ∧
    ∀ a, a ∉ jobRegs → a ∉ passRegs → (s.nsuFail code detail).reg a = s.reg a := by
  have hp := (PassEnds.refl (s.jobsAbort.fail nsuPage code detail)).passesDown
  have hj := s.jobsAbort_ends
  obtain ⟨d, y, hn⟩ := hp.shows
  refine ⟨?_, ?_, ?_, fun a h1 h2 => ?_⟩
  · rw [State.nsuFail, hp.blk, State.fail_blk]
  · rw [State.nsuFail, hp.errcode _ (by decide), State.fail, State.errcode_emit, State.page_errc, if_pos rfl]
  · rw [State.nsuFail, hn.nsu]
    change (State.nsu (s.jobsAbort.fail nsuPage code detail)).jobs = []
    rw [State.fail, State.emit_nsu, State.errc_nsu]
    rw [State.toFault_nsu, s.jobsAbort_jobs]
  · have h3 : a ∉ evrRegs := fun h => h2 (List.mem_append_right _ h)
    rw [State.nsuFail, hp.regs.reg h2, State.reg_fail _ _ _ _ h3, hj.regs.reg h1]

/-- Registers that count corrected words. -/
def ceRegs : List Nat := [R.YRD_YRD_CE_COUNT, R.YRD_YRD_CE_BANKS_LO, R.YRD_YRD_CE_BANKS_HI]

theorem State.yardCe_shows (a : Nat) : Shows s (s.yardCe a) := by
  have h : Shows s (if (s.incReg R.YRD_YRD_CE_COUNT).up 4 then ((s.incReg R.YRD_YRD_CE_COUNT).statBit nsuPage sbCe true).irq nsuPage 4
      else s.incReg R.YRD_YRD_CE_COUNT) := .ite_step ((Shows.refl s).incReg _) fun h => (h.statBit _ _ _).irq _ _
  exact .ite (h.setFlag _ _ _) (h.setFlag _ _ _)
theorem State.yardCe_regs (a : Nat) : RegsBut ceRegs s (s.yardCe a) := by
  have h : RegsBut ceRegs s (if (s.incReg R.YRD_YRD_CE_COUNT).up 4 then ((s.incReg R.YRD_YRD_CE_COUNT).statBit nsuPage sbCe true).irq nsuPage 4
      else s.incReg R.YRD_YRD_CE_COUNT) := .ite_step ((RegsBut.refl _ s).incReg (by decide)) fun h => (h.statBit _ _ _).irq _ _
  exact .ite (h.setFlag _ _ (by decide)) (h.setFlag _ _ (by decide))
theorem State.yardCe_count (a : Nat) : (s.yardCe a).reg R.YRD_YRD_CE_COUNT = s.reg R.YRD_YRD_CE_COUNT + 1 := by
  have h : RegsBut [R.YRD_YRD_CE_BANKS_LO, R.YRD_YRD_CE_BANKS_HI] (s.incReg R.YRD_YRD_CE_COUNT) (s.yardCe a) := by
    have h : RegsBut [R.YRD_YRD_CE_BANKS_LO, R.YRD_YRD_CE_BANKS_HI] (s.incReg R.YRD_YRD_CE_COUNT)
        (if (s.incReg R.YRD_YRD_CE_COUNT).up 4 then ((s.incReg R.YRD_YRD_CE_COUNT).statBit nsuPage sbCe true).irq nsuPage 4
        else s.incReg R.YRD_YRD_CE_COUNT) := .ite_step (.refl _ _) fun h => (h.statBit _ _ _).irq _ _
    exact .ite (h.setFlag _ _ (by decide)) (h.setFlag _ _ (by decide))
  rw [h.reg (by decide), State.incReg, State.reg_setReg_self]

/-- Words that reads corrected show, and each is counted. -/
theorem State.fixed_shows (l : List Word) : Shows s (l.foldl (fun s a => s.yardCe a.toNat) s) := .foldl (fun u a => u.yardCe_shows a.toNat) l s
theorem State.fixed_regs (l : List Word) : RegsBut ceRegs s (l.foldl (fun s a => s.yardCe a.toNat) s) :=
  .foldl (fun u a => u.yardCe_regs a.toNat) l s
theorem State.fixed_count (l : List Word) :
    (l.foldl (fun s a => s.yardCe a.toNat) s).reg R.YRD_YRD_CE_COUNT = s.reg R.YRD_YRD_CE_COUNT + wd l.length := by
  induction l generalizing s with
  | nil => exact (BitVec.add_zero _).symm
  | cons a l ih =>
    rw [List.foldl_cons, ih, State.yardCe_count, List.length_cons, BitVec.add_assoc]
    congr 1
    rw [wd, wd, BitVec.ofNat_add, BitVec.add_comm]
    rfl

end met

/-! ### A job is taken (R192, R193, R198, R224) -/

section taking
variable (s : State)

theorem State.someOf_spec (l : List (Nat × List Byte)) : (∀ e, e ∈ (s.someOf l).1 → e ∈ l) ∧ (s.someOf l).2 = { s with free := s.free + l.length } := by
  refine ⟨fun e he => ?_, rfl⟩
  obtain ⟨p, hp, rfl⟩ := List.mem_map.mp he
  exact (List.of_mem_zip (List.mem_filter.mp hp).1).1

/-- What a job will write is what its operation writes, or for an elementary one that an error or RANGE ends some of it. -/
theorem State.jobPlan_spec (j : Job) (c : JobCut) : ∃ l n, s.jobPlan j c = ({ jobRun s.yard j c with data := l }, { s with free := n }) ∧
    (∀ e, e ∈ l → e ∈ (jobRun s.yard j c).data) ∧
    (¬(dOp j.desc ≤ 9 ∧ ((jobRun s.yard j c).out = 4 ∨ errOut (jobRun s.yard j c).out = true)) → l = (jobRun s.yard j c).data) := by
  unfold State.jobPlan
  extract_lets r
  split
  case isTrue h =>
    obtain ⟨hl, hs⟩ := s.someOf_spec r.data
    refine ⟨(s.someOf r.data).1, _, Prod.ext rfl hs, hl, fun hn => absurd ?_ hn⟩
    rw [Bool.and_eq_true, decide_eq_true_eq, Bool.or_eq_true, beq_iff_eq] at h
    exact h
  case isFalse => exact ⟨r.data, s.free, rfl, fun _ he => he, fun _ => rfl⟩

/-- A malformed descriptor's outcome is BAD_DESC (R199). -/
theorem jobRun_badDesc (m : Tab Byte) (j : Job) (c : JobCut) (h : badDesc j.desc = true) : (jobRun m j c).out = 8 := by
  unfold jobRun
  dsimp only
  rw [if_pos h]

theorem exec_jobRows {mk : JobCut → Instr} {op : Nat} (h : (mk, op) ∈ jobRows) (cut : JobCut) : exec (mk cut) s = .next (s.takeJob op cut) := by
  simp only [jobRows, List.mem_cons, List.not_mem_nil, or_false, Prod.mk.injEq] at h
  rcases h with ⟨rfl, rfl⟩ | ⟨rfl, rfl⟩ | ⟨rfl, rfl⟩ | ⟨rfl, rfl⟩ | ⟨rfl, rfl⟩ | ⟨rfl, rfl⟩ | ⟨rfl, rfl⟩ | ⟨rfl, rfl⟩ | ⟨rfl, rfl⟩ | ⟨rfl, rfl⟩ |
    ⟨rfl, rfl⟩ | ⟨rfl, rfl⟩ | ⟨rfl, rfl⟩ | ⟨rfl, rfl⟩ | ⟨rfl, rfl⟩ | ⟨rfl, rfl⟩ <;> rfl

theorem any_range_congr {n : Nat} {f g : Nat → Bool} (h : ∀ c, c < n → f c = g c) : (List.range n).any f = (List.range n).any g := by
  rw [Bool.eq_iff_iff, List.any_eq_true, List.any_eq_true]
  exact exists_congr fun c => and_congr_right fun hc => by rw [h c (List.mem_range.mp hc)]

/-- The cut of a job as it is taken: a passed deadline is met at once, a mismatch of another cluster is none of it. -/
def State.cutTaken (s : State) (d : List Word) (cut : JobCut) : JobCut :=
  { cut with deadline := if dlPassed d s.time.nsu then some 0 else cut.deadline,
             err := cut.err.filter fun e => match e.2 with | .hw k => (s.clusterSet d).1.testBit k.val | .ecc _ => true }
/-- The job of the descriptor at JQ_HEAD. -/
def State.headJob (s : State) : Job :=
  let d := s.descAt (s.regN R.JQ_JQ_HEAD)
  { idx := s.regN R.JQ_JQ_HEAD, desc := d, cl := (s.clusterSet d).1, start := s.time.nsu,
    flags := if (s.clusterSet d).2 || (List.range 4).any fun c => (s.clusterSet d).1.testBit c && s.flag (R.NSUC_STAT c) 6 then 16 else 0 }
/-- The state as the job's operands are read. -/
def State.headTaken (s : State) (cut : JobCut) : State := cut.fixed.foldl (fun s a => s.yardCe a.toNat) (s.incReg R.JQ_JQ_HEAD)

/-- The job at JQ_HEAD may be taken by an operation's row. -/
structure Takes (s : State) (op : Nat) : Prop where
  running : s.running nsuPage = true
  queued : s.reg R.JQ_JQ_HEAD ≠ s.reg R.JQ_JQ_TAIL
  tested : s.lanesTested = true
  row : dOp s.headJob.desc = op ∨ opKnown (dOp s.headJob.desc) = false
  idle : s.headJob.cl &&& s.fld R.NSU_ACTIVE 3 0 = 0
  alone : dFlag s.headJob.desc 1 = false ∨ s.nsu.jobs = []

variable {s}

/-- A descriptor that cannot be read takes the NSU to FAULT; another is taken, and its job runs. -/
theorem Takes.takeJob {op : Nat} (h : Takes s op) (cut : JobCut) : s.takeJob op cut = if cut.descUe then
      (s.fresh.2.nsuUe (s.regN R.JQ_JQ_BASE + 64 * (s.regN R.JQ_JQ_HEAD % max 1 (s.regN R.JQ_JQ_SIZE)) + 8 * (s.fresh.1.toNat % 8))).nsuFail 0x101
        (s.regN R.JQ_JQ_HEAD % max 1 (s.regN R.JQ_JQ_SIZE))
    else
      let c := s.cutTaken s.headJob.desc cut
      let r := (s.headTaken cut).jobPlan s.headJob { c with drain := none }
      (r.2.setNsu fun n => { n with jobs := n.jobs ++ [{ r.1 with cut := c }] }).showBusy := by
  have hq : ¬((!s.running nsuPage) = true ∨ s.reg R.JQ_JQ_HEAD = s.reg R.JQ_JQ_TAIL) := by simp [h.running, h.queued]
  have hg : ¬((dOp (s.descAt (s.regN R.JQ_JQ_HEAD)) ≠ op ∧ opKnown (dOp (s.descAt (s.regN R.JQ_JQ_HEAD)))) ∨
      ((s.clusterSet (s.descAt (s.regN R.JQ_JQ_HEAD))).1 &&& s.fld R.NSU_ACTIVE 3 0) ≠ 0 ∨
      (dFlag (s.descAt (s.regN R.JQ_JQ_HEAD)) 1 ∧ s.nsu.jobs ≠ []) ∨ !s.lanesTested) := by
    rintro (⟨h1, h2⟩ | h1 | ⟨h1, h2⟩ | h1)
    · exact h.row.elim h1 fun e => Bool.noConfusion (e.symm.trans h2)
    · exact h1 h.idle
    · exact h.alone.elim (fun e => Bool.noConfusion (e.symm.trans h1)) h2
    · rw [h.tested] at h1
      exact Bool.noConfusion h1
  have hf := any_range_congr (n := 4) (f := fun c => (s.clusterSet (s.descAt (s.regN R.JQ_JQ_HEAD))).1.testBit c && (s.incReg R.JQ_JQ_HEAD).flag (R.NSUC_STAT c) 6)
    (g := fun c => (s.clusterSet (s.descAt (s.regN R.JQ_JQ_HEAD))).1.testBit c && s.flag (R.NSUC_STAT c) 6) fun c hc => by
      rw [State.incReg, State.flag_setReg, if_neg (by simp only [R.NSUC_STAT, R.JQ_JQ_HEAD]; omega)]
  have ht : (cut.fixed.foldl (fun s a => s.yardCe a.toNat) (s.incReg R.JQ_JQ_HEAD)).time = (s.incReg R.JQ_JQ_HEAD).time := (State.fixed_shows _ _).time
  unfold State.takeJob State.headTaken State.headJob State.cutTaken
  dsimp only
  rewrite [if_neg hq, if_neg hg, hf, ht, show (s.incReg R.JQ_JQ_HEAD).time = s.time from rfl]
  generalize List.foldl _ _ cut.fixed = u
  generalize State.nsuFail _ _ _ = v
  generalize s.descAt _ = d
  rfl

/-- Out of RUN, with no job waiting or with lanes to be tested the NSU takes none. -/
theorem State.takeJob_idle (s : State) (op : Nat) (cut : JobCut)
    (h : s.running 48 = false ∨ s.reg R.JQ_JQ_HEAD = s.reg R.JQ_JQ_TAIL ∨ s.lanesTested = false) : s.takeJob op cut = s := by
  by_cases h1 : (!s.running nsuPage) = true ∨ s.reg R.JQ_JQ_HEAD = s.reg R.JQ_JQ_TAIL
  · exact if_pos h1
  · have ht : s.lanesTested = false := by
      obtain h | h | h := h
      · exact absurd (.inl (by rw [h]; rfl)) h1
      · exact absurd (.inr h) h1
      · exact h
    exact (if_neg h1).trans (if_pos (.inr (.inr (.inr (by rw [ht]; rfl)))))

/-- A job that is taken runs with its descriptor: HEAD counts on, what the reads corrected is counted, and no memory changes. -/
theorem Takes.taken {op : Nat} (h : Takes s op) {cut : JobCut} (hd : cut.descUe = false) {c : JobCut} (hc : c = s.cutTaken s.headJob.desc cut) {j : Job}
    (hj : j = jobRun s.yard s.headJob { c with drain := none }) :
    (s.takeJob op cut).reg R.JQ_JQ_HEAD = s.reg R.JQ_JQ_HEAD + 1 ∧
      (∃ l, (∀ e, e ∈ l → e ∈ j.data) ∧ (¬(dOp s.headJob.desc ≤ 9 ∧ (j.out = 4 ∨ errOut j.out = true)) → l = j.data) ∧
        (s.takeJob op cut).nsu.jobs = s.nsu.jobs ++ [{ j with data := l, cut := c }]) ∧
      SameMem s (s.takeJob op cut) ∧ (s.takeJob op cut).reg R.JQ_JQ_TAIL = s.reg R.JQ_JQ_TAIL ∧
      (s.takeJob op cut).reg R.JQ_JQ_DONE = s.reg R.JQ_JQ_DONE ∧
      (s.takeJob op cut).reg R.YRD_YRD_CE_COUNT = s.reg R.YRD_YRD_CE_COUNT + wd cut.fixed.length := by
  have hu : Shows s (s.headTaken cut) := ((Shows.refl s).incReg _).trans (State.fixed_shows _ _)
  have hr : RegsBut ceRegs (s.incReg R.JQ_JQ_HEAD) (s.headTaken cut) := State.fixed_regs _ _
  have hn : (s.headTaken cut).reg R.YRD_YRD_CE_COUNT = s.reg R.YRD_YRD_CE_COUNT + wd cut.fixed.length :=
    (State.fixed_count _ _).trans (congrArg (· + _) (s.reg_setReg_ne _ (by decide)))
  obtain ⟨l, n, hp, hl, hl'⟩ := (s.headTaken cut).jobPlan_spec s.headJob { c with drain := none }
  rw [h.takeJob, if_neg (by rw [hd]; decide), ← hc]
  dsimp only
  rw [hp]
  generalize s.headTaken cut = u at *
  rw [← hu.mem.1] at hj
  rw [← hj] at hl hl' ⊢
  dsimp only
  generalize hv : State.setNsu { u with free := n } (fun m => { m with jobs := m.jobs ++ [{ j with data := l, cut := c }] }) = v
  have hvn : v.nsu.jobs = s.nsu.jobs ++ [{ j with data := l, cut := c }] := by
    rw [← hv, ← hu.nsu]
    rfl
  have hvr : ∀ a, v.reg a = u.reg a := fun a => by
    rw [← hv]
    rfl
  have hvm : SameMem u v := by
    rw [← hv]
    exact .refl u
  have hb := v.showBusy_shows
  have hbr := v.showBusy_regs
  refine ⟨?_, ⟨l, hl, hl', (congrArg NsuSt.jobs hb.nsu).trans hvn⟩, (hu.mem.trans hvm).trans hb.mem, ?_, ?_, ?_⟩
  · rw [hbr.reg (by decide), hvr, hr.reg (by decide), State.incReg, State.reg_setReg_self]
  · rw [hbr.reg (by decide), hvr, hr.reg (by decide), State.incReg, s.reg_setReg_ne _ (by decide)]
  · rw [hbr.reg (by decide), hvr, hr.reg (by decide), State.incReg, s.reg_setReg_ne _ (by decide)]
  · rw [hbr.reg (by decide), hvr, hn]

/-- An uncorrectable descriptor is counted, and takes the NSU to FAULT with no job left. -/
theorem Takes.unreadable {op : Nat} (h : Takes s op) {cut : JobCut} (hd : cut.descUe = true) : ((s.takeJob op cut).blk 48).st = .fault ∧
    bits ((s.takeJob op cut).page 48).errcode 15 0 = 0x101 ∧ (s.takeJob op cut).nsu.jobs = [] ∧
    (s.takeJob op cut).reg R.YRD_YRD_UE_COUNT = s.reg R.YRD_YRD_UE_COUNT + 1 ∧ (s.takeJob op cut).reg R.JQ_JQ_HEAD = s.reg R.JQ_JQ_HEAD := by
  rw [h.takeJob, if_pos hd]
  generalize s.regN R.JQ_JQ_HEAD % max 1 (s.regN R.JQ_JQ_SIZE) = k
  generalize s.regN R.JQ_JQ_BASE + _ + _ = a
  obtain ⟨hb, he, hn, hr⟩ := (s.fresh.2.nsuUe a).nsuFail_spec 0x101 k
  refine ⟨hb, ?_, hn, ?_, ?_⟩
  · rw [he, bits, BitVec.toNat_ofNat]
    omega
  · rw [hr _ (by decide) (by decide), State.nsuUe, State.reg_irq, State.statBit, State.reg_setPage, State.yardUe, State.reg_setReg_ne _ _ (by decide),
      State.incReg, State.reg_setReg_self]
    rfl
  · rw [hr _ (by decide) (by decide), State.nsuUe, State.reg_irq, State.statBit, State.reg_setPage, State.yardUe, State.reg_setReg_ne _ _ (by decide),
      State.incReg, State.reg_setReg_ne _ _ (by decide)]
    rfl

end taking

/-- Settles O18: the job at JQ_HEAD as the NSU takes it, or its unreadable descriptor. -/
theorem jobsAreTaken : Obligations.JobsAreTaken := by
  intro s mk op cut hmk
  refine ⟨fun hrun hq ht => ?_, fun h => ?_⟩
  · intro d hop hidle halone deg c j
    have h : Takes s op := ⟨hrun, hq, ht, hop, hidle, halone⟩
    refine ⟨fun hd => ⟨_, exec_jobRows s hmk cut, ?_⟩, fun hd => ⟨_, exec_jobRows s hmk cut, h.unreadable hd⟩⟩
    obtain ⟨hh, hj, hm, htl, hdn, hce⟩ := h.taken hd (c := c) rfl (j := j) rfl
    exact ⟨hh, hj, fun hb => jobRun_badDesc _ _ _ hb, hm, htl, hdn, hce⟩
  · rw [exec_jobRows s hmk cut]
    exact congrArg Host.Outcome.next (s.takeJob_idle op cut h)

/-! ### A job's end (R194, R286) -/

section ends
variable (s : State) (j : Job)

/-- What the clusters run is shown last, and what was raised stays. -/
theorem State.jobFinish_last (it : Word) :
    RegsBut clusterRegs (((s.jobOut j it).jobShown j s.time.nsu).jobCauses j) (s.jobFinish j it) ∧
      CausesKept (((s.jobOut j it).jobShown j s.time.nsu).jobCauses j) (s.jobFinish j it) := by
  rw [State.jobFinish_eq]
  generalize ((s.jobOut j it).jobShown j s.time.nsu).jobCauses j = u
  exact ⟨.ite_step u.showBusy_regs fun h => h.irq _ _, .ite_step ((CausesKept.refl u).pages u.showBusy_page) fun h => h.irq _ _⟩

theorem State.jobShown_reads (t : Nat) : (s.jobShown j t).reg R.JQ_JQ_DONE = s.reg R.JQ_JQ_DONE + 1 ∧
    (s.jobShown j t).reg R.JQ_JQ_LAST_TAG = wd (dW j.desc 1) ∧ (s.jobShown j t).reg R.JQ_JQ_LAST_OUT = wd (j.out + 256 * dOp j.desc) ∧
    (s.jobShown j t).reg R.NSU_JOB_ERRS = s.reg R.NSU_JOB_ERRS := by
  have hr : RegsBut clusterRegs s ((List.range 4).foldl (fun s c => if j.cl.testBit c then
      s.setReg64 (R.NSUC_BUSY_LO c) (R.NSUC_BUSY_HI c) (s.reg64 (R.NSUC_BUSY_LO c) (R.NSUC_BUSY_HI c) + (t - j.start) / 2 ^ 32 * 4 / 5) else s) s) :=
    .clusters s (fun u c hc => .ite_step (.refl _ u) fun h => h.setReg64 _ (mem_clusterRegs hc).1 (mem_clusterRegs hc).2.1) (.refl _ s)
  unfold State.jobShown
  generalize List.foldl _ s _ = u at *
  simp only [State.setRegs, List.foldl_cons, List.foldl_nil]
  refine ⟨?_, ?_, ?_, ?_⟩
  · rw [State.reg_setReg_ne _ _ (by decide), State.reg_setReg_ne _ _ (by decide), State.incReg, State.reg_setReg_self, hr.reg (by decide)]
  · rw [State.reg_setReg_ne _ _ (by decide), State.reg_setReg_self]
  · exact State.reg_setReg_self _ _ _
  · rw [State.reg_setReg_ne _ _ (by decide), State.reg_setReg_ne _ _ (by decide), State.incReg, State.reg_setReg_ne _ _ (by decide),
      hr.reg (by decide)]

/-- An error raises JOB_ERR and is counted; JOB_DONE is raised where the job asks for it. -/
theorem State.jobCauses_raised : (dFlag j.desc 0 = true → bit ((s.jobCauses j).page 54).irqStat 8 = true) ∧
    ((4 ≤ j.out ∧ j.out ≤ 9) ∨ j.out = 11 →
      bit ((s.jobCauses j).page 54).irqStat 9 = true ∧ (s.jobCauses j).reg R.NSU_JOB_ERRS = s.reg R.NSU_JOB_ERRS + 1) := by
  unfold State.jobCauses
  dsimp only
  refine ⟨fun h => ?_, fun h => ?_⟩
  · rw [if_pos h]
    exact State.bit_irqStat_irq _ _ (by decide)
  · rw [if_pos (decide_eq_true h)]
    have hb : bit (((s.incReg R.NSU_JOB_ERRS).irq jqPage 9).page 54).irqStat 9 = true := State.bit_irqStat_irq _ _ (by decide)
    have hr : ((s.incReg R.NSU_JOB_ERRS).irq jqPage 9).reg R.NSU_JOB_ERRS = s.reg R.NSU_JOB_ERRS + 1 := State.reg_setReg_self _ _ _
    generalize (s.incReg R.NSU_JOB_ERRS).irq jqPage 9 = u at *
    split
    · exact ⟨((CausesKept.refl u).irq _ _) _ _ hb, hr⟩
    · exact ⟨hb, hr⟩

theorem State.jobOut_reg (it : Word) (a : Nat) : (s.jobOut j it).reg a = s.reg a := by
  obtain ⟨y, n, h⟩ := s.jobOut_eq j it
  rw [h]
  rfl

/-- A job's end counts JQ_DONE and shows the job. -/
theorem State.jobFinish_reads (it : Word) : (s.jobFinish j it).reg R.JQ_JQ_DONE = s.reg R.JQ_JQ_DONE + 1 ∧
    (s.jobFinish j it).reg R.JQ_JQ_LAST_TAG = wd (dW j.desc 1) ∧ (s.jobFinish j it).reg R.JQ_JQ_LAST_OUT = wd (j.out + 256 * dOp j.desc) := by
  obtain ⟨hd, ht, ho, -⟩ := (s.jobOut j it).jobShown_reads j s.time.nsu
  have hl := (s.jobFinish_last j it).1
  have hc := ((s.jobOut j it).jobShown j s.time.nsu).jobCauses_regs j
  refine ⟨?_, ?_, ?_⟩
  · rw [hl.reg (by decide), hc.reg (by decide), hd, s.jobOut_reg]
  · rw [hl.reg (by decide), hc.reg (by decide), ht]
  · rw [hl.reg (by decide), hc.reg (by decide), ho]
theorem State.jobFinish_raised (it : Word) : (dFlag j.desc 0 = true → bit ((s.jobFinish j it).page 54).irqStat 8 = true) ∧
    ((4 ≤ j.out ∧ j.out ≤ 9) ∨ j.out = 11 →
      bit ((s.jobFinish j it).page 54).irqStat 9 = true ∧ (s.jobFinish j it).reg R.NSU_JOB_ERRS = s.reg R.NSU_JOB_ERRS + 1) := by
  obtain ⟨hd, he⟩ := ((s.jobOut j it).jobShown j s.time.nsu).jobCauses_raised j
  obtain ⟨hl, hk⟩ := s.jobFinish_last j it
  obtain ⟨-, -, -, hn⟩ := (s.jobOut j it).jobShown_reads j s.time.nsu
  refine ⟨fun h => hk _ _ (hd h), fun h => ?_⟩
  obtain ⟨hb, hr⟩ := he h
  exact ⟨hk _ _ hb, by rw [hl.reg (by decide), hr, hn, s.jobOut_reg]⟩

variable {s}

/-- What a job's end does to the passes where none runs: nothing. -/
theorem State.seqJob_id (h : ∀ k p, s.passOf k = some p → p.await ≠ some j.idx) : s.seqJob j = s := by
  have hf : ([0, 1, 2].find? fun k => match s.passOf k with | some p => p.await == some j.idx | none => false) = none := by
    rw [List.find?_eq_none]
    intro k _ hk
    split at hk
    next p hp => exact h k p hp (beq_iff_eq.mp hk)
    next => exact Bool.noConfusion hk
  unfold State.seqJob
  split
  next => rfl
  next k hk => exact nomatch hf.symm.trans hk
theorem State.passOf_none (h : s.noPass) (k : Nat) : s.passOf k = none := by
  obtain ⟨he, hd, hh⟩ := h
  unfold State.passOf
  split
  · exact he
  · split
    · exact hd
    · exact hh
theorem State.submitJob_noPass (h : s.noPass) (k : Nat) : s.submitJob k = s := by
  unfold State.submitJob
  rw [State.passOf_none h]
theorem State.seqPump_noPass (h : s.noPass) : s.seqPump = s := by
  unfold State.seqPump
  rw [State.submitJob_noPass h, State.submitJob_noPass h, State.submitJob_noPass h]

theorem State.noPass_congr {t : State} (e : t.dsq = s.dsq) : t.noPass ↔ s.noPass := by rw [State.noPass, e, State.noPass]

theorem JobEnds.dsq {t : State} (h : JobEnds s t) : t.dsq = s.dsq := by
  obtain ⟨y, n, f, h⟩ := h.shows
  exact h.dsq

/-- Without a pass the NSU's failure changes no pass. -/
theorem State.nsuFail_noPass (h : s.noPass) (c d : Nat) : (s.nsuFail c d).noPass := by
  have hn : (s.jobsAbort.fail nsuPage c d).noPass := (State.noPass_congr ((State.fail_dsq _ _ _ _).trans s.jobsAbort_ends.dsq)).mpr h
  rw [State.nsuFail, State.passesDown_noPass hn]
  exact hn

end ends

/-- The cluster's width, and what follows from it. -/
def State.clusterSeen (s : State) (c : Nat) : State :=
  let g := s.goodLanes c
  let w := if 33 ≤ g then 32 else g - 1
  let deg := decide (g ≤ 32)
  let off := decide (w < 16) || s.flag (R.NSUC_STAT c) 7
  let was := (s.flag (R.NSUC_STAT c) 6, s.flag (R.NSUC_STAT c) 7)
  let s := ((s.setFld (R.NSUC_STAT c) 5 0 w).setFlag (R.NSUC_STAT c) 6 deg).setFlag (R.NSUC_STAT c) 7 off
  let s := s.setFlag R.NSU_ACTIVE (4 + c) off
  let diff := s.reg (R.NSUL_LMAP_LO c) != s.reg (R.NSUL_LRET_LO c) || s.reg (R.NSUL_LMAP_HI c) != s.reg (R.NSUL_LRET_HI c)
  let s := s.setFlag R.NSUL_LMAP_CHANGED c diff
  let s := if deg then (s.statBit (49 + c) sbDeg true).statBit nsuPage sbDeg true else s
  let s := if was = (deg, off) then s else s.irq nsuPage 9
  if off && !was.2 then s.irq (49 + c) 10 else s

section clusters
variable (s : State) (c : Nat)

theorem State.clusterShow_eq : s.clusterShow c =
    if (s.clusterSeen c).fld R.NSU_ACTIVE 7 4 = 15 ∧ (s.clusterSeen c).shown nsuPage ≠ 4 then ((s.clusterSeen c).irq nsuPage 10).nsuFail 0x102 0
    else s.clusterSeen c := rfl
theorem State.clusterSeen_shows : Shows s (s.clusterSeen c) :=
  .ite_step (.ite (.ite_step ((((((Shows.refl s).setFld _ _ _ _).setFlag _ _ _).setFlag _ _ _).setFlag _ _ _).setFlag _ _ _)
      fun h => (h.statBit _ _ _).statBit _ _ _)
    (.irq _ _ (.ite_step ((((((Shows.refl s).setFld _ _ _ _).setFlag _ _ _).setFlag _ _ _).setFlag _ _ _).setFlag _ _ _)
      fun h => (h.statBit _ _ _).statBit _ _ _))) fun h => h.irq _ _

theorem State.clusterShow_noPass {s : State} (h : s.noPass) (c : Nat) : (s.clusterShow c).noPass := by
  have hn : (s.clusterSeen c).noPass := (State.noPass_congr (s.clusterSeen_shows c).dsq).mpr h
  rw [State.clusterShow_eq]
  split
  · exact State.nsuFail_noPass ((State.noPass_congr (State.irq_dsq _ _ _)).mpr hn) _ _
  · exact hn

end clusters

/-- Without a pass no error that ended a job changes one. -/
theorem State.jobMet_noPass {s : State} (h : s.noPass) (j : Job) : (s.jobMet j).noPass := by
  unfold State.jobMet
  split
  next => exact (State.noPass_congr ((((((Shows.refl s).incReg _).setReg _ _).statBit _ _ _).irq _ _).errc _ _ _).dsq).mpr h
  next c _ _ =>
    exact State.clusterShow_noPass ((State.noPass_congr (((((Shows.refl s).errc _ _ _).setFlag _ _ _).irq _ _).irq _ _).dsq).mpr h) c.val
  next => exact h

theorem State.yardFixed_shows (s : State) (l : List Word) : Shows s (s.yardFixed l) := .ite_step (.refl s) fun _ => s.fixed_shows l

theorem State.afterStores_nil (s : State) (who : Initiator) (k : State → State) : s.afterStores who [] k = k s := rfl

/-- Settles O20: the ring's configuration and TAIL, and the end of a job with what it shows. -/
theorem jobRing : Obligations.JobRing := by
  intro s who size val iterNs i j fixed core
  refine ⟨fun h h1 => ?_, fun h hb hl => ?_, fun h hbl => ?_, fun hj hu => ?_, fun hj => ?_, fun hu => ?_, fun h7 h11 => ?_, fun k a h7 he => ?_,
    State.seqJob_id j, ?_⟩
  · have ha : pageOf (if size then R.JQ_JQ_SIZE else R.JQ_JQ_BASE) = 54 ∧ (if size then R.JQ_JQ_SIZE else R.JQ_JQ_BASE) ≠ R.JQ_JQ_HEAD ∧
        (if size then R.JQ_JQ_SIZE else R.JQ_JQ_BASE) ≠ R.JQ_JQ_TAIL ∧ (if size then R.JQ_JQ_SIZE else R.JQ_JQ_BASE) ≠ R.JQ_JQ_DONE := by
      clear h
      cases size
      · decide
      · decide
    change ∃ t, execJqCfgWrite who size val s = _ ∧ _
    unfold execJqCfgWrite
    generalize (if size then R.JQ_JQ_SIZE else R.JQ_JQ_BASE) = a at *
    obtain ⟨hp, hh, ht, hd⟩ := ha
    refine ⟨((((s.answer 0).setReg a val).setReg R.JQ_JQ_HEAD 0).setReg R.JQ_JQ_TAIL 0).setReg R.JQ_JQ_DONE 0,
      congrArg Host.Outcome.next ((s.gate_may _ h).trans (if_pos (by rw [hp]; exact h1))), ?_, ?_, ?_, State.reg_setReg_self _ _ _, ?_, .refl s⟩
    · rw [State.reg_setReg_ne _ _ hd, State.reg_setReg_ne _ _ ht, State.reg_setReg_ne _ _ hh, State.reg_setReg_self]
    · rw [State.reg_setReg_ne _ _ (by decide), State.reg_setReg_ne _ _ (by decide), State.reg_setReg_self]
    · rw [State.reg_setReg_ne _ _ (by decide), State.reg_setReg_self]
    · exact (((((RegsBut.refl _ s).answer 0).setReg _ (by simp)).setReg _ (by simp)).setReg _ (by simp)).setReg _ (by simp)
  · change execJqTail who val [] s = _
    unfold execJqTail
    rw [State.afterStores_nil, s.gate_may _ h]
    refine congrArg Host.Outcome.next (if_neg ?_)
    rw [Bool.or_eq_true, decide_eq_true_eq, decide_eq_true_eq]
    exact fun e => e.elim (Nat.not_le.mpr hb) (Nat.not_lt.mpr hl)
  · change execJqTail who val [] s = _
    unfold execJqTail
    rw [State.afterStores_nil, s.gate_may _ h]
    refine congrArg Host.Outcome.next (if_pos ?_)
    rw [Bool.or_eq_true, decide_eq_true_eq, decide_eq_true_eq]
    exact hbl
  · have he : exec (.jobEnd i iterNs fixed core) s =
        .next ((((((s.jobFinish j iterNs).jobMet j).yardFixed fixed).seqJob j).yardFixed core).seqPump) := by
      change execJobEnd i iterNs fixed core s = _
      unfold execJobEnd
      rw [hj, hu]
      rfl
    refine ⟨he, fun h1 h2 h3 => ?_⟩
    have h0 : (((s.jobFinish j iterNs).jobMet j).yardFixed fixed).noPass :=
      (State.noPass_congr (State.yardFixed_shows _ _).dsq).mpr
        (State.jobMet_noPass ((State.noPass_congr (JobEnds.jobFinish s j iterNs).dsq).mpr ⟨h1, h2, h3⟩) j)
    rw [he, State.seqJob_id j (fun k p hp => nomatch (State.passOf_none h0 k).symm.trans hp),
      State.seqPump_noPass ((State.noPass_congr (State.yardFixed_shows _ _).dsq).mpr h0)]
  · change execJobEnd i iterNs fixed core s = _
    unfold execJobEnd
    rw [hj]
  · exact ⟨(congrArg (fun u : State => u.reg R.YRD_YRD_CE_COUNT) (if_pos hu)).trans (s.fixed_count fixed), (s.yardFixed_shows fixed).mem⟩
  · unfold State.jobMet
    split
    next h _ => exact absurd h h7
    next h _ => exact absurd h h11
    next => rfl
  · have hm : s.jobMet j = (s.nsuUe a.toNat).errc nsuPage 3 (a.toNat / 64 % 48) := by
      unfold State.jobMet
      rw [h7, he]
      rfl
    have hr : RegsBut [R.YRD_YRD_UE_COUNT, R.YRD_YRD_UE_ADDR] s (s.nsuUe a.toNat) :=
      ((((RegsBut.refl _ s).incReg (by decide)).setReg _ (by decide)).statBit _ _ _).irq _ _
    rw [hm]
    refine ⟨?_, ?_, ?_, ((((((Shows.refl s).incReg _).setReg _ _).statBit _ _ _).irq _ _).errc _ _ _).mem⟩
    · rw [State.reg_errc, State.nsuUe, State.reg_irq, State.statBit, State.reg_setPage, State.yardUe, State.reg_setReg_self]
      rw [wd, BitVec.ofNat_toNat, BitVec.setWidth_eq]
    · rw [State.reg_errc, State.nsuUe, State.reg_irq, State.statBit, State.reg_setPage, State.yardUe, State.reg_setReg_ne _ _ (by decide),
        State.incReg, State.reg_setReg_self]
    · rw [State.page_errc, if_pos rfl, Nat.mod_eq_of_lt (by omega : a.toNat / 64 % 48 < 0x10000)]
  · obtain ⟨hd, ht, ho⟩ := s.jobFinish_reads j iterNs
    obtain ⟨h8, h9⟩ := s.jobFinish_raised j iterNs
    exact ⟨hd, ht, ho, s.jobFinish_jobs j iterNs, h8, h9⟩

/-! ### Lanes and the scrubber (R174, R228 to R233) -/

section lanes
variable (s : State) (c : Nat)

/-- The bits of a cluster's width, DEGRADED and OFFLINE. -/
def State.clusterBits (s : State) (c : Nat) : State :=
  let g := s.goodLanes c
  let w := if 33 ≤ g then 32 else g - 1
  let off := decide (w < 16) || s.flag (R.NSUC_STAT c) 7
  (((s.setFld (R.NSUC_STAT c) 5 0 w).setFlag (R.NSUC_STAT c) 6 (decide (g ≤ 32))).setFlag (R.NSUC_STAT c) 7 off).setFlag R.NSU_ACTIVE (4 + c) off

theorem State.clusterSeen_regs : RegsBut [R.NSUL_LMAP_CHANGED] (s.clusterBits c) (s.clusterSeen c) := by
  have h (p : Prop) [Decidable p] : RegsBut [R.NSUL_LMAP_CHANGED] (s.clusterBits c)
      (if p then (((s.clusterBits c).setFlag R.NSUL_LMAP_CHANGED c
        ((s.clusterBits c).reg (R.NSUL_LMAP_LO c) != (s.clusterBits c).reg (R.NSUL_LRET_LO c) ||
          (s.clusterBits c).reg (R.NSUL_LMAP_HI c) != (s.clusterBits c).reg (R.NSUL_LRET_HI c))).statBit (49 + c) sbDeg true).statBit nsuPage sbDeg true
      else (s.clusterBits c).setFlag R.NSUL_LMAP_CHANGED c
        ((s.clusterBits c).reg (R.NSUL_LMAP_LO c) != (s.clusterBits c).reg (R.NSUL_LRET_LO c) ||
          (s.clusterBits c).reg (R.NSUL_LMAP_HI c) != (s.clusterBits c).reg (R.NSUL_LRET_HI c))) :=
    .ite_step ((RegsBut.refl _ _).setFlag _ _ (by decide)) fun h => (h.statBit _ _ _).statBit _ _ _
  exact .ite_step (.ite (h _) ((h _).irq _ _)) fun h => h.irq _ _

/-- The lane map of a cluster with a width of 16 or more and not OFFLINE shows its width and DEGRADED. -/
theorem State.clusterShow_wide (hg : 17 ≤ s.goodLanes c) (h7 : s.flag (R.NSUC_STAT c) 7 = false) (hc : c < 4) :
    (s.clusterShow c).fld (R.NSUC_STAT c) 5 0 = (if 33 ≤ s.goodLanes c then 32 else s.goodLanes c - 1) ∧
      (s.clusterShow c).flag (R.NSUC_STAT c) 6 = decide (s.goodLanes c ≤ 32) := by
  have hw : (if 33 ≤ s.goodLanes c then 32 else s.goodLanes c - 1) < 64 ∧ 16 ≤ if 33 ≤ s.goodLanes c then 32 else s.goodLanes c - 1 := by
    split <;> omega
  have hb : s.clusterBits c = (((s.setFld (R.NSUC_STAT c) 5 0 (if 33 ≤ s.goodLanes c then 32 else s.goodLanes c - 1)).setFlag (R.NSUC_STAT c) 6
      (decide (s.goodLanes c ≤ 32))).setFlag (R.NSUC_STAT c) 7 false).setFlag R.NSU_ACTIVE (4 + c) false := by
    unfold State.clusterBits
    dsimp only
    rw [h7, decide_eq_false (Nat.not_lt.mpr hw.2)]
    rfl
  have hs := s.clusterSeen_regs c
  have hne : R.NSUC_STAT c ≠ R.NSU_ACTIVE ∧ R.NSUC_STAT c ∉ [R.NSUL_LMAP_CHANGED] := by
    simp only [List.mem_singleton, R.NSUC_STAT, R.NSU_ACTIVE, R.NSUL_LMAP_CHANGED]
    omega
  have ha : (s.clusterSeen c).fld R.NSU_ACTIVE 7 4 ≠ 15 := by
    intro h
    have h1 : ((s.clusterSeen c).fld R.NSU_ACTIVE 7 4).testBit c = true := by
      rw [h]
      obtain rfl | rfl | rfl | rfl : c = 0 ∨ c = 1 ∨ c = 2 ∨ c = 3 := by omega
      · rfl
      · rfl
      · rfl
      · rfl
    have h2 : (s.clusterSeen c).flag R.NSU_ACTIVE (4 + c) = false := by
      rw [hs.flag (by decide), hb, State.flag_setFlag _ _ _ _ _ _ (by omega), if_pos ⟨rfl, rfl⟩]
    rw [State.fld, testBit_bits, Bool.and_eq_true] at h1
    exact Bool.noConfusion (h2.symm.trans h1.2)
  rw [State.clusterShow_eq, if_neg fun h => ha h.1, hs.fld hne.2, hs.flag hne.2, hb]
  constructor
  · rw [State.fld_setFlag_reg _ _ _ _ _ hne.1, State.fld_setFlag_ne _ _ _ (by decide) (by decide),
      State.fld_setFlag_ne _ _ _ (by decide) (by decide), State.fld_setFld _ _ _ _ (by decide) (by decide)]
    exact Nat.mod_eq_of_lt hw.1
  · rw [State.flag_setFlag _ _ _ _ _ _ (by decide), if_neg fun h => hne.1 h.1, State.flag_setFlag _ _ _ _ _ _ (by decide),
      if_neg fun h => absurd h.2 (by decide), State.flag_setFlag _ _ _ _ _ _ (by decide), if_pos ⟨rfl, rfl⟩]

/-- A lane is under test no more. -/
def State.laneTested (s : State) (c l : Nat) : State :=
  (s.setFld (R.NSUC_STAT c) 21 16 63).setNsu fun n =>
    { n with cur := n.cur.set (fun _ => 33) c l, tested := n.tested.set (fun _ => false) (64 * c + l) true }
/-- A lane has passed its test. -/
def State.lanePassed (s : State) (c l : Nat) : State :=
  ((s.laneTested c l).incReg (R.NSUC_TESTS c)).setNsu fun n => { n with passed := n.passed.set (fun _ => 0) (64 * c + l) s.time.nsu }
/-- A lane that failed is retired. -/
def State.laneRetired (s : State) (c l : Nat) : State :=
  if l < 32 then (s.laneTested c l).setFlag (R.NSUL_LRET_LO c) l true else (s.laneTested c l).setFlag (R.NSUL_LRET_HI c) (l - 32) true
/-- What a retired lane shows: its count, its place and the time of its last passed test. -/
def State.laneShown (s : State) (c l t : Nat) : State :=
  ((((s.incReg R.NSU_LANE_FAILS).setRegs [(R.NSU_LF_LANE, wd (c + 256 * l)), (R.NSU_LF_WIN_NS, nsField t), (R.NSU_LF_WIN_S, lo32 (secOf t))]).irq
    nsuPage 8).irq (49 + c) 8).emit evLaneRetire nsuPage [wd c, wd l, nsField t, lo32 (secOf t)]

theorem State.laneTestDone_eq {s : State} {c : Fin 4} (hu : s.up 4 = true) {l : Nat} (hl : s.fld (R.NSUC_STAT c.val) 21 16 = l) (h34 : l < 34)
    (res : LaneEnd) : exec (.laneTestDone c res) s = .next (match res with
      | .pass => s.lanePassed c.val l
      | .transient => (((s.lanePassed c.val l).incReg (R.NSUC_TRANSIENTS c.val)).irq (49 + c.val) 9).emit evLaneTransient nsuPage [wd c.val, wd l]
      | .failed => ((s.laneRetired c.val l).laneShown c.val l (s.nsu.passed.get (fun _ => 0) (64 * c.val + l))).clusterShow c.val) := by
  change execLaneTestDone c res s = _
  unfold execLaneTestDone
  subst hl
  rw [if_neg (by rw [hu]; simp; omega)]
  cases res
  · rfl
  · rfl
  · rfl

theorem State.lanePassed_reads (l : Nat) : (s.lanePassed c l).fld (R.NSUC_STAT c) 21 16 = 63 ∧
    (s.lanePassed c l).reg (R.NSUC_TESTS c) = s.reg (R.NSUC_TESTS c) + 1 ∧
    (s.lanePassed c l).nsu.passed.get (fun _ => 0) (64 * c + l) = s.time.nsu ∧ (s.lanePassed c l).nsu.cur.get (fun _ => 33) c = l ∧
    RegsBut [R.NSUC_STAT c, R.NSUC_TESTS c] s (s.lanePassed c l) ∧ SameMem s (s.lanePassed c l) := by
  have hne : R.NSUC_TESTS c ≠ R.NSUC_STAT c ∧ R.NSUC_STAT c ≠ R.NSUC_TESTS c := by
    simp only [R.NSUC_TESTS, R.NSUC_STAT]
    omega
  have hm : SameMem s (s.laneTested c l) := ⟨rfl, rfl, rfl, rfl, rfl⟩
  have ht : RegsBut [R.NSUC_STAT c, R.NSUC_TESTS c] s (s.laneTested c l) :=
    .same ((RegsBut.refl _ s).setFld 21 16 63 (a := R.NSUC_STAT c) (by simp)) rfl
  have hc : (s.laneTested c l).nsu.cur.get (fun _ => 33) c = l := (Tab.get_set _ _ _ _ _).trans (if_pos rfl)
  have hf : (s.laneTested c l).fld (R.NSUC_STAT c) 21 16 = 63 := by
    rw [State.laneTested, State.fld_setNsu, State.fld_setFld _ _ _ _ (by decide) (by decide)]
    rfl
  have h1 : (s.laneTested c l).reg (R.NSUC_TESTS c) = s.reg (R.NSUC_TESTS c) := by
    rw [State.laneTested, State.reg_setNsu, State.reg_setFld, if_neg hne.1]
  rw [State.lanePassed]
  generalize s.laneTested c l = u at *
  refine ⟨?_, ?_, ?_, ?_, ?_, ?_⟩
  · rw [State.fld_setNsu, State.incReg, State.fld_setReg, if_neg hne.2, hf]
  · rw [State.reg_setNsu, State.incReg, State.reg_setReg_self, h1]
  · exact (Tab.get_set _ _ _ _ _).trans (if_pos rfl)
  · exact hc
  · exact .same (ht.incReg (a := R.NSUC_TESTS c) (by simp)) rfl
  · exact (hm.trans ((Shows.refl u).incReg (R.NSUC_TESTS c)).mem).trans ⟨rfl, rfl, rfl, rfl, rfl⟩

theorem State.laneRetired_out {l : Nat} (h : l < 34) : (s.laneRetired c l).laneOut c l = true := by
  unfold State.laneOut State.laneRetired
  split
  · rw [State.flag_setFlag _ _ _ _ _ _ (by omega), if_pos ⟨rfl, rfl⟩]
  · rw [State.flag_setFlag _ _ _ _ _ _ (by omega), if_pos ⟨rfl, rfl⟩]

theorem State.laneRetired_fails (l : Nat) :
    (s.laneRetired c l).reg R.NSU_LANE_FAILS = s.reg R.NSU_LANE_FAILS := by
  have hn : R.NSU_LANE_FAILS ∉ [R.NSUC_STAT c, R.NSUL_LRET_LO c, R.NSUL_LRET_HI c] := by
    simp only [R.NSU_LANE_FAILS, R.NSUC_STAT, R.NSUL_LRET_LO, R.NSUL_LRET_HI, List.mem_cons, List.not_mem_nil, or_false]
    omega
  have h0 : RegsBut [R.NSUC_STAT c, R.NSUL_LRET_LO c, R.NSUL_LRET_HI c] s (s.laneTested c l) :=
    .same ((RegsBut.refl _ s).setFld 21 16 63 (a := R.NSUC_STAT c) (by simp)) rfl
  have h1 : RegsBut [R.NSUC_STAT c, R.NSUL_LRET_LO c, R.NSUL_LRET_HI c] s (s.laneRetired c l) :=
    .ite (h0.setFlag _ _ (by simp)) (h0.setFlag _ _ (by simp))
  exact h1.reg hn

theorem State.laneShown_reads (l t : Nat) (hc : c < 4) : (s.laneShown c l t).laneOut c l = s.laneOut c l ∧
    (s.laneShown c l t).reg R.NSU_LANE_FAILS = s.reg R.NSU_LANE_FAILS + 1 ∧ (s.laneShown c l t).reg R.NSU_LF_LANE = wd (c + 256 * l) ∧
    (s.laneShown c l t).reg R.NSU_LF_WIN_NS = nsField t ∧ bit ((s.laneShown c l t).page 48).irqStat 8 = true := by
  have hr : RegsBut ([R.NSU_LANE_FAILS, R.NSU_LF_LANE, R.NSU_LF_WIN_NS, R.NSU_LF_WIN_S] ++ evrRegs) s (s.laneShown c l t) :=
    .emit _ _ _ (.irq _ _ (.irq _ _ (.setRegs _ (.incReg (.refl _ s) (by decide)) (by simp)))) (by simp +contextual)
  have hn : R.NSUL_LRET_LO c ∉ [R.NSU_LANE_FAILS, R.NSU_LF_LANE, R.NSU_LF_WIN_NS, R.NSU_LF_WIN_S] ++ evrRegs ∧
      R.NSUL_LRET_HI c ∉ [R.NSU_LANE_FAILS, R.NSU_LF_LANE, R.NSU_LF_WIN_NS, R.NSU_LF_WIN_S] ++ evrRegs := by
    simp only [R.NSUL_LRET_LO, R.NSUL_LRET_HI, R.NSU_LANE_FAILS, R.NSU_LF_LANE, R.NSU_LF_WIN_NS, R.NSU_LF_WIN_S, evrRegs, R.EVR_LOST, R.EVR_BAD_REC,
      List.cons_append, List.nil_append, List.mem_cons, List.not_mem_nil, or_false]
    omega
  refine ⟨?_, ?_, ?_, ?_, ?_⟩
  · rw [State.laneOut, hr.flag hn.1, hr.flag hn.2, State.laneOut]
  · rw [State.laneShown, State.reg_emit _ _ _ _ (by decide), State.reg_irq, State.reg_irq]
    simp only [State.setRegs, List.foldl_cons, List.foldl_nil]
    rw [State.reg_setReg_ne _ _ (by decide), State.reg_setReg_ne _ _ (by decide), State.reg_setReg_ne _ _ (by decide), State.incReg,
      State.reg_setReg_self]
  · rw [State.laneShown, State.reg_emit _ _ _ _ (by decide), State.reg_irq, State.reg_irq]
    simp only [State.setRegs, List.foldl_cons, List.foldl_nil]
    rw [State.reg_setReg_ne _ _ (by decide), State.reg_setReg_ne _ _ (by decide), State.reg_setReg_self]
  · rw [State.laneShown, State.reg_emit _ _ _ _ (by decide), State.reg_irq, State.reg_irq]
    simp only [State.setRegs, List.foldl_cons, List.foldl_nil]
    rw [State.reg_setReg_ne _ _ (by decide), State.reg_setReg_self]
  · exact (((CausesKept.refl _).irq _ _).emit _ _ _) _ _ (State.bit_irqStat_irq _ _ (by decide))

end lanes

/-- Settles O21: the lane tests, the lane map, a cluster's width and the yard's scrubber. -/
theorem lanesAndScrubber : Obligations.LanesAndScrubber := by
  intro s who c hi val l
  refine ⟨fun hu h4 h63 hf => ?_, fun hu hl h34 => ⟨?_, ?_, ?_⟩, fun h h1 => ?_, fun hg h7 => ?_, fun hu hlt => ⟨?_, ?_, ?_⟩, fun hu hle => ?_⟩
  · change execLaneTest c s = _
    unfold execLaneTest
    rw [if_neg (by simp [hu, h4, h63])]
    dsimp only
    rw [hf]
  · exact ⟨_, State.laneTestDone_eq hu hl h34 .pass, s.lanePassed_reads c.val l⟩
  · obtain ⟨-, -, -, -, hr, hm⟩ := s.lanePassed_reads c.val l
    have hn : R.NSUC_TRANSIENTS c.val ∉ [R.NSUC_STAT c.val, R.NSUC_TESTS c.val] ∧ R.NSUC_TRANSIENTS c.val ∉ evrRegs := by
      simp only [R.NSUC_TRANSIENTS, R.NSUC_STAT, R.NSUC_TESTS, evrRegs, R.EVR_LOST, R.EVR_BAD_REC, List.mem_cons, List.not_mem_nil, or_false]
      omega
    refine ⟨_, State.laneTestDone_eq hu hl h34 .transient, ?_, ?_, ?_, ?_⟩
    · rw [State.reg_emit _ _ _ _ hn.2, State.reg_irq, State.incReg, State.reg_setReg_self, hr.reg hn.1]
    · exact (CausesKept.refl _).emit _ _ _ _ _ (State.bit_irqStat_irq _ _ (by decide))
    · exact .emit _ _ _ (.irq _ _ (.incReg (hr.mono (by simp +contextual)) (by simp))) (by simp +contextual)
    · exact hm.trans ((((Shows.refl _).incReg _).irq _ _).emit _ _ _).mem
  · obtain ⟨ho, hf, hl', ht, hb⟩ := (s.laneRetired c.val l).laneShown_reads c.val l (s.nsu.passed.get (fun _ => 0) (64 * c.val + l)) c.isLt
    exact ⟨_, State.laneTestDone_eq hu hl h34 .failed, ho.trans (s.laneRetired_out c.val h34), hf.trans (congrArg (· + 1) (s.laneRetired_fails c.val l)), hl', ht, hb⟩
  · refine congrArg Host.Outcome.next ((s.gate_may _ h).trans (if_pos ?_))
    rw [State.shown_answer, show pageOf (if hi then R.NSUL_LMAP_HI c.val else R.NSUL_LMAP_LO c.val) = 55 from ?_]
    · exact h1
    · clear h
      revert c hi
      decide
  · exact s.clusterShow_wide c.val hg h7 c.isLt
  · change execYardScrub .clean s = _
    unfold execYardScrub
    rw [if_neg (by rw [hu]; decide)]
    dsimp only
    rw [if_pos hlt]
  · change execYardScrub .uncorrectable s = _
    unfold execYardScrub
    rw [if_neg (by rw [hu]; decide)]
    dsimp only
    rw [if_pos hlt]
    simp only [State.yardUe, State.regN, wd, BitVec.ofNat_toNat, BitVec.setWidth_eq]
  · refine ⟨(s.yardCe (s.regN R.YRD_YRD_SCRUB_POS)).setReg R.YRD_YRD_SCRUB_POS (wd (s.regN R.YRD_YRD_SCRUB_POS + 8)), ?_, ?_,
      ((s.yardCe_shows _).setReg _ _).mem⟩
    · change execYardScrub .corrected s = _
      unfold execYardScrub
      rw [if_neg (by rw [hu]; decide)]
      dsimp only
      rw [if_pos hlt]
    · rw [State.reg_setReg_ne _ _ (by decide), State.yardCe_count]
  · change execYardScrub .clean s = _
    unfold execYardScrub
    rw [if_neg (by rw [hu]; decide)]
    dsimp only
    rw [if_neg (Nat.not_lt.mpr hle)]

end Sys2Proof.Machine
end

section
/-! The barge tracker (R252 to R282): transport steps, their commit and forecasts. -/

namespace Sys2Proof.Machine

/-- The yard replaced. -/
def State.putYard (s : State) (y : Tab Byte) : State := { s with yard := y }
/-- LPDDR5's bytes replaced. -/
def State.putDram (s : State) (d : Tab Byte) : State := { s with dram := d }

section stores
variable (s : State)

theorem State.writeBank_eq (k : Nat) (c : BtkCopy) : ∃ d, s.writeBank k c = s.putDram d := by
  unfold State.writeBank
  split
  · exact ⟨s.dram, rfl⟩
  · exact ⟨_, rfl⟩

/-- A state copy is stored at its address, in as many bytes as it has. -/
theorem State.putState_eq (a : Nat) (l : List (List Int)) : ∃ y, s.putState a l = s.putYard y ∧
    ∀ x, (x < a ∨ a + s.stateLen.toNat ≤ x) → rdB y x = rdB s.yard x := by
  unfold State.putState
  split
  · exact ⟨s.yard, rfl, fun _ _ => rfl⟩
  · exact ⟨_, rfl, fun x hx => rdB_wrBytes_out _ _ _ _ (by simpa using hx)⟩
theorem State.putHdr_eq (n : Nat) (b : Bool) : ∃ y, s.putHdr n b = s.putYard y ∧
    ∀ x, (x < s.regN R.BTK_STATE_ADDR + Config.stateHdrOfs ∨ s.regN R.BTK_STATE_ADDR + Config.stateHdrOfs + 8 ≤ x) → rdB y x = rdB s.yard x := by
  unfold State.putHdr
  dsimp only
  split
  · exact ⟨s.yard, rfl, fun _ _ => rfl⟩
  · exact ⟨_, rfl, fun x hx => rdB_wrBytes_out _ _ _ _ (by simpa using hx)⟩

/-- STATE_LEN depends on the model in force alone. -/
theorem State.stateLen_congr {s t : State} (hm : t.mdl = s.mdl) (hy : t.yard = s.yard) : t.stateLen = s.stateLen := by
  rw [State.stateLen, State.mdlBytes, State.slotBytes, hm, hy, State.stateLen, State.mdlBytes, State.slotBytes]

theorem length_vecHdr (a : Nat) (sp : ArrSpec) (n d b i f : Nat) : (vecHdr a sp n d b i f).length = 64 := by simp [vecHdr]
theorem length_intBytes (l : List Int) : (intBytes l).length = 8 * l.length := by
  induction l with
  | nil => rfl
  | cons x l ih =>
    rw [intBytes, List.flatMap_cons, List.length_append, length_leBytes, List.length_cons, ← intBytes, ih]
    omega
theorem rdB_putVals_out (m : Tab Byte) {a x : Nat} (sp : ArrSpec) {l : List Rat} (h : x < a ∨ a + 64 + 8 * l.length ≤ x) :
    rdB (putVals m a sp l) x = rdB m x := by
  rw [putVals, rdB_wrBytes_out _ _ _ _ (by rw [length_intBytes, List.length_map]; omega), rdB_wrBytes_out _ _ _ _ (by rw [length_vecHdr]; omega)]

theorem length_rats (l : List Nat) : (do let a ← l; pure (a : Rat) : List Rat).length = l.length := by
  simp [List.bind_eq_flatMap, List.pure_def]

/-- The output buffer is stored in its place. -/
theorem rdB_outYard_out (sp : List ScaleRec) (m : Tab Byte) {a x : Nat} (o : BtkOut) (hl : o.ages.length = o.temps.length)
    (h : x < a ∨ a + 64 + 2 * (64 + up64 (8 * o.temps.length)) ≤ x) :
    rdB (outYard sp m a (a + 64 + 64 + up64 (8 * o.temps.length)) o) x = rdB m x := by
  have hu : 8 * o.temps.length ≤ up64 (8 * o.temps.length) := by
    rw [up64]
    omega
  rw [outYard, rdB_wrBytes_out _ _ _ _ (by rw [length_leBytes]; omega), rdB_putVals_out _ _ (by rw [List.length_map, length_rats, hl]; omega),
    rdB_putVals_out _ _ (by rw [List.length_map, length_rats]; omega), rdB_wrBytes_out _ _ _ _ (by simp only [List.length_append, length_leBytes]; omega)]

theorem State.writeOut_eq (second : Bool) (o : BtkOut) (hl : o.ages.length = o.temps.length) : ∃ y, s.writeOut second o = s.putYard y ∧
    ∀ x, (x < s.outBase second o.temps.length ∨ s.outBase second o.temps.length + 64 + 2 * (64 + up64 (8 * o.temps.length)) ≤ x) →
      rdB y x = rdB s.yard x := by
  unfold State.writeOut
  dsimp only
  split
  · exact ⟨s.yard, rfl, fun _ _ => rfl⟩
  · exact ⟨_, rfl, fun x hx => rdB_outYard_out _ _ o hl hx⟩

end stores

/-! ### A transport step -/

/-- Registers in which a step counts what it met. -/
def trackRegs : List Nat :=
  [R.BTK_OVERRUNS, R.BTK_MERGES, R.BTK_FLOW_BAD, R.DRM_CE_COUNT, R.DRM_UE_COUNT, R.DRM_UE_ADDR_LO, R.DRM_UE_ADDR_HI]

/-- What reading the queues and the flow set may change. -/
def TrackReads (s t : State) : Prop := (∃ n, Shows { s with free := n } t) ∧ RegsBut trackRegs s t

section reads
variable {s t : State}

theorem TrackReads.refl (s : State) : TrackReads s s := ⟨⟨s.free, .refl s⟩, .refl _ s⟩
theorem TrackReads.of_shows (h : TrackReads s t) {u : State} (g : Shows t u) (hr : RegsBut trackRegs t u) : TrackReads s u := by
  obtain ⟨⟨n, h⟩, r⟩ := h
  exact ⟨⟨n, h.trans g⟩, r.trans hr⟩

theorem TrackReads.drmUe (s : State) (a : Nat) : TrackReads s (s.fresh.2.drmUe a) :=
  ⟨⟨s.free + 1, .irq _ _ (.irq _ _ (.statBit _ _ _ (.setReg64 _ _ _ (.incReg _ (.refl _)))))⟩,
    .irq _ _ (.irq _ _ (.statBit _ _ _ (.setReg64 _ (.incReg (.same (.refl _ s) rfl) (by decide)) (by decide) (by decide))))⟩
theorem TrackReads.drmCe (s : State) : TrackReads s s.drmCe :=
  .of_shows (.refl s) (.irq _ _ (.statBit _ _ _ (.incReg _ (.refl _)))) (.irq _ _ (.statBit _ _ _ (.incReg (.refl _ s) (by decide))))

/-- A slot of a flow set that cannot be used is counted. -/
theorem TrackReads.takeSet (h : TrackReads s t) : TrackReads s t.takeSet.2 := by
  unfold State.takeSet
  extract_lets a g first rd bad
  have hbad (u : State) (hu : TrackReads s u) (k : Nat) : TrackReads s (bad u k) := by
    change TrackReads s (if g k = 0 then u else (u.incReg R.BTK_FLOW_BAD).errc btkPage 0x102 k)
    split
    · exact hu
    · exact hu.of_shows (.errc _ _ _ (.incReg _ (.refl u))) (.errc _ _ _ (.incReg (.refl _ u) (by decide)))
  clear_value bad
  split
  · exact h
  · split
    · exact hbad t h first
    · exact hbad _ (hbad t h first) _

/-- A queue that cannot be read is counted and latched, as is a corrected one. -/
theorem TrackReads.queues (s : State) (ue : Option BtkCopy) (q : Option Nat) (ce : Bool) : TrackReads s (match ue, q with
    | some _, some k => ((s.drmRead .uncorrectable (s.bankBase (b2n s.btk.bankB) + 1024 * k) 1024).errc btkPage 0x103 k).irq btkPage 12
    | _, _ => if ce then s.drmCe else s) := by
  split
  · exact (TrackReads.drmUe s _).of_shows (.irq _ _ (.errc _ _ _ (.refl _))) (.irq _ _ (.errc _ _ _ (.refl _ _)))
  · split
    · exact .drmCe s
    · exact .refl s

theorem TrackReads.btk (h : TrackReads s t) : t.btk = s.btk := by
  obtain ⟨⟨n, h⟩, -⟩ := h
  exact h.btk
theorem TrackReads.time (h : TrackReads s t) : t.time = s.time := by
  obtain ⟨⟨n, h⟩, -⟩ := h
  exact h.time
theorem TrackReads.mdl (h : TrackReads s t) : t.mdl = s.mdl := by
  obtain ⟨⟨n, h⟩, -⟩ := h
  exact h.mdl
theorem TrackReads.yard (h : TrackReads s t) : t.yard = s.yard := by
  obtain ⟨⟨n, h⟩, -⟩ := h
  exact h.mem.1

end reads

/-- What a step leaves before it is stored: its result beside the committed copy. -/
structure StepRan (s w : State) (nc : BtkCopy) (fl : Nat) : Prop where
  time : nc.t = s.time.nsu
  next : w.btk.next = some (nc, fl)
  com : w.btk.com = s.btk.com
  bank : w.btk.bankB = s.btk.bankB
  tg : w.btk.tg = s.btk.tg
  skipped : w.btk.skipped = false
  mdl : w.mdl = s.mdl
  yard : w.yard = s.yard
  regs : RegsBut trackRegs s w

/-- A step runs on the committed copy and leaves its result in the other bank and state copy. -/
theorem State.transportStep_runs (s : State) (q : Option Nat) (ce : Bool) (hr : s.running 56 = true) (hm : s.mdl.act = true) (ha : s.acts = true)
    (hn : s.btk.next = none) (hi : s.btk.idle = false) {c : BtkCopy} (hc : s.btk.com = some c) : ∃ w nc fl, StepRan s w nc fl ∧
      exec (.transportStep ⟨q, ce⟩) s =
        .next ((w.writeBank (if w.btk.bankB then 0 else 1) nc).putState (w.stateAt !w.btk.bankB) (stateInts nc)) := by
  change ∃ w nc fl, StepRan s w nc fl ∧ execTransportStep ⟨q, ce⟩ s = _
  unfold execTransportStep
  rw [if_neg (by rw [hr, hm]; decide), if_neg (by rw [ha]; decide), if_neg (by rw [hn]; decide)]
  extract_lets s0
  have h0 : s0 = s := (if_neg (by rw [hi]; decide)).trans (if_neg (by rw [hc]; exact Bool.noConfusion))
  clear_value s0
  subst h0
  split
  next h => exact nomatch h.symm.trans hc
  next c' h =>
  extract_lets mp c1 c2 nt ue s1 c3 f s2 now fresh noSet q0 q1 inp setT stale dt lim subs r r1 nc seeded fl s3 s4
  have h1 : TrackReads s0 s1 := .queues s0 ue q ce
  have h2 : TrackReads s0 s2 := h1.takeSet
  have hb : s3.btk = s0.btk := h2.btk
  have hm' : s3.mdl = s0.mdl := h2.mdl
  have hy : s3.yard = s0.yard := h2.yard
  have hg : RegsBut trackRegs s0 s3 := (h2.2.setReg _ (by decide)).setReg _ (by decide)
  have ht : nc.t = s0.time.nsu := congrArg TimeSt.nsu h2.time
  clear_value s3 nc fl setT
  have hcom : s3.btk.com = s0.btk.com := congrArg BtkSt.com hb
  have hbank : s3.btk.bankB = s0.btk.bankB := congrArg BtkSt.bankB hb
  have htg : s3.btk.tg = s0.btk.tg := congrArg BtkSt.tg hb
  exact ⟨s4, nc, fl, ⟨ht, rfl, hcom, hbank, htg, rfl, hm', hy, .same hg rfl⟩, rfl⟩

/-! ### The commit of a step (R252, R271) -/

section commit
variable (s : State) (us : Word) (c : BtkCopy) (fl : Nat)

/-- The new copy and bank are the committed ones. -/
def State.stepTaken (s : State) (c : BtkCopy) : State :=
  s.setBtk fun b => { b with com := some c, next := none, bankB := !b.bankB, tg := b.tgN, setT := b.setTN, setGen := b.setGenN }
/-- The outputs of a step, noted beside the older ones. -/
def State.outTaken (s : State) (o : BtkOut) : State :=
  let second := decide (s.btk.out1.step < s.btk.out0.step)
  s.setBtk fun b => if second then { b with out1 := o } else { b with out0 := o }
/-- The outputs that a step publishes. -/
def State.stepOut (s : State) (c : BtkCopy) (fl : Nat) : BtkOut := ⟨s.regN R.BTK_STEP_GEN, c.t, fl, c.nodes.map (·.2.t), c.nodes.map (·.2.age)⟩
/-- STEP is raised, and FLOWS where the step met none. -/
def State.stepRaised (s : State) (fl : Nat) : State := if fl.testBit 2 then (s.irq btkPage 8).irq btkPage 10 else s.irq btkPage 8

/-- The committed copy as the header and the registers show it. -/
def State.stepShown (s : State) (us : Word) (c : BtkCopy) (fl : Nat) : State :=
  ((s.stepTaken c).putHdr ((s.stepTaken c).regN R.BTK_STEP_GEN + 1) (s.stepTaken c).btk.bankB).btkShow c fl us
/-- The outputs of the step are published, and its causes raised. -/
def State.stepDone (s : State) (c : BtkCopy) (fl : Nat) : State :=
  ((s.outTaken (s.stepOut c fl)).writeOut (decide (s.btk.out1.step < s.btk.out0.step)) (s.stepOut c fl)).stepRaised fl

theorem execStepCommit_some (hn : s.btk.next = some (c, fl)) (ha : s.active 56 = true) : exec (.stepCommit us) s =
    .next (((s.stepShown us c fl).stepDone c fl).sendObj 1 (((s.stepShown us c fl).stepDone c fl).regN R.BTK_STEP_GEN) (streamOf c)) := by
  change execStepCommit us s = _
  unfold execStepCommit
  rw [hn]
  exact if_neg (by rw [ha]; decide)

theorem State.sendObj_eq (obj gen : Nat) (b : List Byte) : ∃ p, s.sendObj obj gen b = s.putPlk p := by
  unfold State.sendObj
  dsimp only
  split
  · exact ⟨s.plk, rfl⟩
  · exact State.foldl_putPlk (fun u k => u.plkSend_putPlk _ _ _ _ _) _ s

theorem State.btkShow_shows : Shows s (s.btkShow c fl us) := (((Shows.refl s).incReg _).setRegs _)

theorem State.btkShow_reads : (s.btkShow c fl us).reg R.BTK_STEP_GEN = s.reg R.BTK_STEP_GEN + 1 ∧ (s.btkShow c fl us).reg R.BTK_STEP_STAT = wd fl ∧
    (s.btkShow c fl us).reg R.BTK_STEP_US = us ∧ (s.btkShow c fl us).reg R.BTK_OUT_ADDR = s.reg R.BTK_OUT_ADDR := by
  unfold State.btkShow
  simp only [State.setRegs, List.foldl_cons, List.foldl_nil]
  have h0 : (s.incReg R.BTK_STEP_GEN).reg R.BTK_STEP_GEN = s.reg R.BTK_STEP_GEN + 1 := State.reg_setReg_self _ _ _
  have h1 : (s.incReg R.BTK_STEP_GEN).reg R.BTK_OUT_ADDR = s.reg R.BTK_OUT_ADDR := State.reg_setReg_ne _ _ (by decide)
  generalize s.incReg R.BTK_STEP_GEN = u at *
  refine ⟨?_, ?_, ?_, ?_⟩
  · iterate 6 rw [State.reg_setReg_ne _ _ (by decide)]
    exact h0
  · iterate 3 rw [State.reg_setReg_ne _ _ (by decide)]
    exact State.reg_setReg_self _ _ _
  · iterate 2 rw [State.reg_setReg_ne _ _ (by decide)]
    exact State.reg_setReg_self _ _ _
  · iterate 6 rw [State.reg_setReg_ne _ _ (by decide)]
    exact h1

/-- The outputs' places are all that noting a step's outputs changes. -/
theorem State.outTaken_btk (o : BtkOut) : (s.outTaken o).btk.com = s.btk.com ∧ (s.outTaken o).btk.next = s.btk.next ∧
    (s.outTaken o).btk.bankB = s.btk.bankB ∧ (s.outTaken o).btk.tg = s.btk.tg := by
  unfold State.outTaken State.setBtk
  dsimp only
  split
  · exact ⟨rfl, rfl, rfl, rfl⟩
  · exact ⟨rfl, rfl, rfl, rfl⟩

theorem State.stepRaised_shows : Shows s (s.stepRaised fl) := .ite (.irq _ _ (.irq _ _ (.refl s))) (.irq _ _ (.refl s))
theorem State.stepRaised_regs (a : Nat) : (s.stepRaised fl).reg a = s.reg a := by
  unfold State.stepRaised
  split
  · rfl
  · rfl
theorem State.stepRaised_step : bit ((s.stepRaised fl).page 56).irqStat 8 = true := by
  unfold State.stepRaised
  split
  · exact (CausesKept.refl _).irq _ _ _ _ (State.bit_irqStat_irq _ _ (by decide))
  · exact State.bit_irqStat_irq _ _ (by decide)

/-- A step that is shown: what is committed, and the header's bytes. -/
theorem State.stepShown_spec : ∃ y, Shows ((s.stepTaken c).putYard y) (s.stepShown us c fl) ∧
    (∀ x, (x < s.regN R.BTK_STATE_ADDR + Config.stateHdrOfs ∨ s.regN R.BTK_STATE_ADDR + Config.stateHdrOfs + 8 ≤ x) → rdB y x = rdB s.yard x) ∧
    (s.stepShown us c fl).reg R.BTK_STEP_GEN = s.reg R.BTK_STEP_GEN + 1 ∧ (s.stepShown us c fl).reg R.BTK_STEP_STAT = wd fl ∧
    (s.stepShown us c fl).reg R.BTK_STEP_US = us ∧ (s.stepShown us c fl).reg R.BTK_OUT_ADDR = s.reg R.BTK_OUT_ADDR := by
  obtain ⟨y, hy, hyo⟩ := (s.stepTaken c).putHdr_eq ((s.stepTaken c).regN R.BTK_STEP_GEN + 1) (s.stepTaken c).btk.bankB
  rw [State.stepShown, hy]
  exact ⟨y, State.btkShow_shows _ us c fl, hyo, State.btkShow_reads _ us c fl⟩

/-- The publication of a step's outputs: their buffer and STEP. -/
theorem State.stepDone_spec : ∃ y, Shows ((s.outTaken (s.stepOut c fl)).putYard y) (s.stepDone c fl) ∧
    (∀ x, (x < s.outBase (decide (s.btk.out1.step < s.btk.out0.step)) c.nodes.length ∨
      s.outBase (decide (s.btk.out1.step < s.btk.out0.step)) c.nodes.length + 64 + 2 * (64 + up64 (8 * c.nodes.length)) ≤ x) →
      rdB y x = rdB s.yard x) ∧ (∀ a, (s.stepDone c fl).reg a = s.reg a) ∧ bit ((s.stepDone c fl).page 56).irqStat 8 = true := by
  have hl : (s.stepOut c fl).temps.length = c.nodes.length := List.length_map _
  obtain ⟨y, hy, hyo⟩ := (s.outTaken (s.stepOut c fl)).writeOut_eq (decide (s.btk.out1.step < s.btk.out0.step)) (s.stepOut c fl)
    ((List.length_map _).trans hl.symm)
  rw [hl] at hyo
  rw [State.stepDone, hy]
  exact ⟨y, State.stepRaised_shows _ fl, hyo, fun a => State.stepRaised_regs _ fl a, State.stepRaised_step _ fl⟩

end commit

/-- Settles O22: a transport step in each state of the tracker, and its commit. -/
theorem trackerSteps : Obligations.TrackerSteps := by
  intro s q ce us c fl n ms
  refine ⟨fun h => ?_, fun hr hm ha hn => ?_, fun hr hm ha => ?_, fun hr hm ha hn hi hc => ?_, fun hn ha => ?_, fun h => ?_, ?_⟩
  · exact if_pos (h.imp (fun h => by rw [h]; rfl) fun h => by rw [h]; rfl)
  · change execTransportStep ⟨q, ce⟩ s = _
    unfold execTransportStep
    rw [if_neg (by rw [hr, hm]; decide), if_neg (by rw [ha]; decide), if_pos hn]
  · change execTransportStep ⟨q, ce⟩ s = _
    unfold execTransportStep
    rw [if_neg (by rw [hr, hm]; decide), if_pos (by rw [ha]; rfl)]
    rfl
  · obtain ⟨c, hc⟩ := Option.isSome_iff_exists.mp hc
    obtain ⟨w, nc, f, h, he⟩ := s.transportStep_runs q ce hr hm ha hn hi hc
    obtain ⟨d, hd⟩ := w.writeBank_eq (if w.btk.bankB then 0 else 1) nc
    rw [hd] at he
    obtain ⟨y, hy, hout⟩ := (w.putDram d).putState_eq (w.stateAt !w.btk.bankB) (stateInts nc)
    refine ⟨_, he, ?_⟩
    rw [hy]
    have hst : w.stateAt (!w.btk.bankB) = s.stateAt (!s.btk.bankB) := by
      rw [State.stateAt, State.stateAt, h.bank, h.regs.regN (by decide)]
    have hln : (w.putDram d).stateLen = s.stateLen := State.stateLen_congr h.mdl h.yard
    refine ⟨⟨nc, f, h.next, h.time⟩, h.com, h.bank, h.tg, h.skipped, fun a hx => ?_, h.regs⟩
    rw [← hst, ← hln] at hx
    exact (hout a hx).trans (congrArg (rdB · a) h.yard)
  · refine ⟨_, execStepCommit_some s us c fl hn ha, ?_⟩
    obtain ⟨y, hs, hyo, hgen, hstat, hus, hout⟩ := s.stepShown_spec us c fl
    generalize s.stepShown us c fl = u at *
    obtain ⟨y', hs', hyo', hreg, hstep⟩ := u.stepDone_spec c fl
    obtain ⟨hcom, hnext, hbank, htg⟩ := u.outTaken_btk (u.stepOut c fl)
    generalize u.stepDone c fl = v at *
    obtain ⟨p, hp⟩ := v.sendObj_eq 1 (v.regN R.BTK_STEP_GEN) (streamOf c)
    rw [hp]
    have hvb : v.btk = (u.outTaken (u.stepOut c fl)).btk := hs'.btk
    have hub : u.btk = (s.stepTaken c).btk := hs.btk
    have hmem := hs.mem
    have hmem' := hs'.mem
    refine ⟨?_, ?_, ?_, ?_, (hreg _).trans hgen, (hreg _).trans hstat, (hreg _).trans hus, hstep, ?_, ?_, ?_, ?_, ?_⟩
    · exact (congrArg BtkSt.com hvb).trans (hcom.trans (congrArg BtkSt.com hub))
    · exact (congrArg BtkSt.next hvb).trans (hnext.trans (congrArg BtkSt.next hub))
    · exact (congrArg BtkSt.bankB hvb).trans (hbank.trans (congrArg BtkSt.bankB hub))
    · exact (congrArg BtkSt.tg hvb).trans (htg.trans (congrArg BtkSt.tg hub))
    · exact hmem'.2.1.trans hmem.2.1
    · exact hmem'.2.2.1.trans hmem.2.2.1
    · exact hmem'.2.2.2.1.trans hmem.2.2.2.1
    · exact hmem'.2.2.2.2.trans hmem.2.2.2.2
    · intro o h a ho hh
      have he : u.outBase (decide (u.btk.out1.step < u.btk.out0.step)) c.nodes.length = o := by
        rw [hub, State.outBase, State.regN, hout]
        rfl
      rw [← he] at ho
      rw [show (v.putPlk p).yard = y' from hmem'.1, hyo' a ho, show u.yard = y from hmem.1, hyo a hh]
  · obtain h | h := h
    · change execStepCommit us s = _
      unfold execStepCommit
      rw [h]
    · change execStepCommit us s = _
      unfold execStepCommit
      split
      · rfl
      · exact if_pos (by rw [h]; rfl)
  · rfl

/-! ### Forecasts (R273 to R282) -/

section forecast
variable (s : State) (f : FcJob)

/-- What a forecast leaves free: bytes of memory and a free value. -/
theorem State.fcFree_eq : ∃ y d n, s.fcFree f = { s with yard := y, dram := d, free := n } := by
  obtain ⟨y, hy, -⟩ := s.fresh.2.putState_eq f.scratch [[(s.fresh.1.toNat : Int)]]
  unfold State.fcFree
  dsimp only
  rw [hy]
  exact ⟨y, _, _, rfl⟩
theorem State.fcKeep_eq (c : BtkCopy) : ∃ y d, s.fcKeep f c = { s with yard := y, dram := d } := by
  obtain ⟨d, hd⟩ := s.writeBank_eq 2 c
  obtain ⟨y, hy, -⟩ := (s.putDram d).putState_eq f.scratch (stateInts c)
  unfold State.fcKeep
  rw [hd, hy]
  exact ⟨y, d, rfl⟩

/-- A request that breaks a condition ends BAD_REQUEST; a good one runs. -/
theorem State.fcBegin_none (hr : s.running 56 = true) (h1 : s.fld R.BTK_FC_STAT 2 0 ≠ 1) (h : s.fcRequest = none) :
    s.fcBegin = (s.setReg R.BTK_FC_STAT 6).irq 56 9 := by
  unfold State.fcBegin
  rw [if_neg (by rw [hr]; simpa using h1), h]
theorem State.fcBegin_some (hr : s.running 56 = true) (h1 : s.fld R.BTK_FC_STAT 2 0 ≠ 1) (h : s.fcRequest = some f) :
    s.fcBegin.btk = { s.btk with fc := some f } ∧ s.fcBegin.reg R.BTK_FC_STAT = 1 ∧ RegsBut [R.BTK_FC_STAT] s s.fcBegin := by
  obtain ⟨y, hy⟩ : ∃ u : State, s.fcBegin = (u.setReg R.BTK_FC_STAT 1).setBtk (fun b => { b with fc := some f }) ∧ u.btk = s.btk ∧ u.regs = s.regs := by
    unfold State.fcBegin
    rw [if_neg (by rw [hr]; simpa using h1), h]
    dsimp only
    generalize List.flatMap _ (mdlPaths s.mdlBytes).1 = rows
    obtain ⟨y, d, n, he⟩ := State.fcFree_eq { s with yard := wrBytes s.yard f.delay rows } f
    rw [he]
    exact ⟨_, rfl, rfl, rfl⟩
  obtain ⟨hy, hb, hg⟩ := hy
  rw [hy]
  have h3 : (y.setReg R.BTK_FC_STAT 1).reg R.BTK_FC_STAT = 1 := State.reg_setReg_self _ _ _
  refine ⟨congrArg (fun b : BtkSt => { b with fc := some f }) hb, h3, ?_⟩
  have h2 : RegsBut [R.BTK_FC_STAT] s (y.setReg R.BTK_FC_STAT 1) := (RegsBut.same (.refl _ s) hg).setReg _ (by decide)
  exact .same h2 rfl

/-- Code of a forecast's end, and the rows that it completed. -/
def fcCode (why : FcEnd) : Nat := match why with | .done => 2 | .deadline _ => 3 | .aborted => 5
def fcDone (why : FcEnd) (n : Nat) : Nat := match why with | .done => n | .deadline k => min k.val n | .aborted => 0

/-- The end of a forecast shows its outcome. -/
def State.fcShown (s : State) (f : FcJob) (why : FcEnd) : State :=
  ((s.setBtk fun b => { b with fc := none }).setReg R.BTK_FC_STAT (wd (fcCode why + 256 * fcDone why f.n))).irq btkPage 9

/-- The rows that a forecast's end completed. -/
def State.fcRun (s : State) (f : FcJob) (n : Nat) : List (List Rat) × BtkCopy :=
  fcRows s.yard s.mdlBytes s.tgOfs (s.regN R.BTK_MIN_MASS) (s.regN R.BTK_FC_SUB) f.stepS f.flows (mdlPaths s.mdlBytes).2 n 0 f.copy
/-- The yard with the forecast's table. -/
def State.fcTable (s : State) (f : FcJob) (n : Nat) : Tab Byte :=
  let rows := (s.fcRun f n).1
  let last := rows.getLastD (initRow f.copy (mdlPaths s.mdlBytes).2)
  let tb := rdVHdr s.yard f.table
  let vals := ((rows ++ List.replicate (f.n - n) last).flatten).map fun v => clampI (-(tb.bound : Int)) tb.bound (mant tb.e v)
  (elems tb.data vals).foldl (fun (m : Tab Byte) (e : Nat × List Byte) => wrBytes m e.1 e.2) s.yard

theorem State.fcFinish_eq (hf : s.btk.fc = some f) (why : FcEnd) : s.fcFinish why =
    if fcCode why = 5 ∨ !(s.fcShown f why).up 5 then s.fcShown f why
    else if fcCode why = 2 then
      State.fcKeep { s.fcShown f why with yard := (s.fcShown f why).fcTable f (fcDone why f.n) } f ((s.fcShown f why).fcRun f (fcDone why f.n)).2
    else { s.fcShown f why with yard := (s.fcShown f why).fcTable f (fcDone why f.n) } := by
  unfold State.fcFinish
  rw [hf]
  cases why
  · rfl
  · rfl
  · rfl

theorem State.fcFinish_some (hf : s.btk.fc = some f) (why : FcEnd) : ∃ y d, s.fcFinish why = { s.fcShown f why with yard := y, dram := d } ∧
    (why = .aborted → y = s.yard) ∧ (why ≠ .done → d = s.dram) := by
  rw [s.fcFinish_eq f hf]
  split
  · exact ⟨s.yard, s.dram, rfl, fun _ => rfl, fun _ => rfl⟩
  next h =>
    have ha : why ≠ .aborted := fun e => h (.inl (by rw [e]; rfl))
    split
    next h2 =>
      have hd : why = .done := by
        cases why with
        | done => rfl
        | deadline k => exact absurd (show 3 = 2 from h2) (by decide)
        | aborted => exact absurd rfl ha
      obtain ⟨y, d, he⟩ := State.fcKeep_eq { s.fcShown f why with yard := (s.fcShown f why).fcTable f (fcDone why f.n) } f
        ((s.fcShown f why).fcRun f (fcDone why f.n)).2
      exact ⟨y, d, he, fun e => absurd e ha, fun e => absurd hd e⟩
    · exact ⟨_, s.dram, rfl, fun e => absurd e ha, fun _ => rfl⟩

theorem State.fcShown_reads (why : FcEnd) : (s.fcShown f why).reg R.BTK_FC_STAT = wd (fcCode why + 256 * fcDone why f.n) ∧
    (s.fcShown f why).btk = { s.btk with fc := none } ∧ bit ((s.fcShown f why).page 56).irqStat 9 = true ∧
    RegsBut [R.BTK_FC_STAT] s (s.fcShown f why) ∧ (s.fcShown f why).dsq = s.dsq := by
  refine ⟨?_, rfl, State.bit_irqStat_irq _ _ (by decide), ?_, rfl⟩
  · rw [State.fcShown, State.reg_irq, State.reg_setReg_self]
  · exact .irq _ _ (.setReg _ (.same (.refl _ s) rfl) (by decide))

/-- A pass waits for the forecast, or the end changes nothing more. -/
theorem State.forecastOver_other (h : ∀ p, s.dsq.dsp = some p → p.phase ≠ .dspForecast) (c : Nat) : s.forecastOver c = s := by
  unfold State.forecastOver
  split
  · rfl
  next p hp => exact if_pos (h p hp)
theorem State.forecastOver_lost {p : Pass} (h : s.dsq.dsp = some p) (hp : p.phase = .dspForecast) {c : Nat} (h2 : c ≠ 2) (h3 : c ≠ 3) :
    s.forecastOver c = s.passEnd 1 p 5 := by
  unfold State.forecastOver
  rw [h]
  exact (if_neg (not_not.mpr hp)).trans (if_pos ⟨h2, h3⟩)

end forecast

theorem execForecastEnd_some (s : State) {f : FcJob} (hf : s.btk.fc = some f) (why : FcEnd) :
    exec (.forecastEnd why) s = .next ((s.fcFinish why).forecastOver (match why with | .done => 2 | .deadline _ => 3 | .aborted => 5)) :=
  if_neg (by rw [hf]; exact Bool.noConfusion)

/-- Settles O23: the request, the cancellation and the ends of a forecast, and the pass that waits for it. -/
theorem forecasts : Obligations.Forecasts := by
  intro s who f k
  refine ⟨fun h hr h1 => ⟨_, congrArg Host.Outcome.next (s.gate_may _ h), ?_⟩, fun h hn => ?_, fun h h1 => ?_, fun h h1 => ?_,
    fun hf => ⟨execForecastEnd_some s hf _, execForecastEnd_some s hf _, execForecastEnd_some s hf _, fun why u hu => ?_⟩, fun h c => ?_,
    fun p hp hph c => ?_, fun p hp hph => ⟨?_, ?_⟩, fun h why => ?_⟩
  · have hq : (s.answer 0).fcRequest = s.fcRequest := rfl
    have hb := (s.answer 0).fcBegin_some (hr := hr) (h1 := h1)
    have hn := (s.answer 0).fcBegin_none hr h1
    rw [hq] at hb hn
    split
    next h0 => exact hn h0
    next f h0 =>
      obtain ⟨hk, hg, hu⟩ := hb f h0
      exact ⟨hk, hg, ((RegsBut.refl _ s).answer 0).trans hu⟩
  · refine congrArg Host.Outcome.next ((s.gate_may _ h).trans (if_pos ?_))
    exact hn.imp (fun e => by rw [show (s.answer 0).running 56 = s.running 56 from rfl, e]; rfl) id
  · refine ⟨_, congrArg Host.Outcome.next ((s.gate_may _ h).trans (if_pos h1)), ?_, rfl, State.bit_irqStat_irq _ _ (by decide), ?_, .refl s, rfl⟩
    · rw [State.reg_setBtk, State.reg_irq, State.reg_setReg_self]
    · exact .same ((((RegsBut.refl _ s).answer 0).setReg (a := R.BTK_FC_STAT) 4 (by decide)).irq btkPage 9) rfl
  · exact congrArg Host.Outcome.next ((s.gate_may _ h).trans (if_neg h1))
  · obtain ⟨y, d, he, hy, hd⟩ := s.fcFinish_some f hf why
    obtain ⟨h1, h2, h3, h4, h5⟩ := s.fcShown_reads f why
    subst hu
    rw [he]
    refine ⟨?_, h2, h3, h4, hd, h5, fun ha => ⟨hy ha, hd (by rw [ha]; exact fun e => FcEnd.noConfusion e), rfl, rfl, rfl⟩⟩
    cases why with
    | done => exact h1
    | deadline k => exact h1
    | aborted => exact h1
  · exact s.forecastOver_other (fun p hp => nomatch h.symm.trans hp) c
  · exact s.forecastOver_other (fun p' hp' => by rw [← Option.some.inj (hp.symm.trans hp')]; exact hph) c
  · exact s.forecastOver_lost hp hph (by decide) (by decide)
  · exact s.forecastOver_lost hp hph (by decide) (by decide)
  · exact if_pos (by rw [h]; rfl)

end Sys2Proof.Machine
end

section
/-! Passes of the Sequencer (R284 to R305): how they fall due, start and end. -/

namespace Sys2Proof.Machine

/-! ### The end of a pass (R337, R340) -/

section ends
variable (s : State) (st : Nat)

/-- The causes of a pass's end: its own, and PASS_ERR from status 3 on. -/
def State.passRaised (s : State) (n st : Nat) : State := if 3 ≤ st then (s.irq 57 n).irq 57 10 else s.irq 57 n

/-- The causes and the record of a pass's end. -/
theorem State.passRaised_reads {n : Nat} (hn : n < 32) (k : Nat) (v : BitVec 2) (p : Nat) (l : List Word) :
    RegsBut evrRegs s ((s.passRaised n st).emitSev k v p l) ∧ bit (((s.passRaised n st).emitSev k v p l).page 57).irqStat n = true ∧
      (3 ≤ st → bit (((s.passRaised n st).emitSev k v p l).page 57).irqStat 10 = true) := by
  have hr : RegsBut evrRegs s (s.passRaised n st) := .ite (.irq _ _ (.irq _ _ (.refl _ s))) (.irq _ _ (.refl _ s))
  have hc : CausesKept (s.irq 57 n) (s.passRaised n st) := .ite ((CausesKept.refl _).irq _ _) (.refl _)
  refine ⟨.emitSev _ _ _ _ hr fun _ h => h, (hc.emitSev _ _ _ _) _ _ (s.bit_irqStat_irq 57 hn), fun h => ?_⟩
  have h10 : bit ((s.passRaised n st).page 57).irqStat 10 = true := by
    rw [State.passRaised, if_pos h]
    exact State.bit_irqStat_irq _ _ (by decide)
  exact (CausesKept.refl _).emitSev _ _ _ _ _ _ h10

/-- What an EST pass shows as it ends. -/
theorem State.estEnd_reads {p : Pass} (hp : s.dsq.est = some p) : (s.estEnd st).reg R.DSQ_EST_LAST = wd (st + 256 * (p.flags % 2 ^ 20)) ∧
    (s.estEnd st).flag R.DSQ_PASS_STAT 0 = false ∧ bit ((s.estEnd st).page 57).irqStat 8 = true ∧
    (3 ≤ st → bit ((s.estEnd st).page 57).irqStat 10 = true) := by
  obtain ⟨u, us, v, l, he⟩ : ∃ (u : State) (us : Word) (v : BitVec 2) (l : List Word), s.estEnd st = (((u.setFlag R.DSQ_PASS_STAT 0 false).setRegs
      [(R.DSQ_EST_LAST, wd (st + 256 * (p.flags % 2 ^ 20))), (R.DSQ_EST_US, us)]).passRaised 8 st).emitSev evPass v dsqPage l := by
    unfold State.estEnd
    rw [hp]
    exact ⟨_, _, _, _, rfl⟩
  obtain ⟨hr, h8, h10⟩ := State.passRaised_reads ((u.setFlag R.DSQ_PASS_STAT 0 false).setRegs
    [(R.DSQ_EST_LAST, wd (st + 256 * (p.flags % 2 ^ 20))), (R.DSQ_EST_US, us)]) st (by decide : 8 < 32) evPass v dsqPage l
  rw [he, hr.reg (by decide), hr.flag (by decide)]
  simp only [State.setRegs, List.foldl_cons, List.foldl_nil]
  refine ⟨?_, ?_, h8, h10⟩
  · rw [State.reg_setReg_ne _ _ (by decide), State.reg_setReg_self]
  · rw [State.flag_setReg, if_neg (by decide), State.flag_setReg, if_neg (by decide), State.flag_setFlag _ _ _ _ _ _ (by decide), if_pos ⟨rfl, rfl⟩]

/-- What a DSP pass shows as it ends. -/
theorem State.dspEnd_reads (w : Word) {p : Pass} (hp : s.dsq.dsp = some p) :
    (s.dspEnd st w).reg R.DSQ_DSP_LAST = wd (st + 256 * (p.flags % 2 ^ 20)) ∧
    (s.dspEnd st w).flag R.DSQ_PASS_STAT 1 = false ∧ bit ((s.dspEnd st w).page 57).irqStat 9 = true := by
  obtain ⟨u, ms, it, v, l, he⟩ : ∃ (u : State) (ms it : Word) (v : BitVec 2) (l : List Word), s.dspEnd st w = (((u.setFlag R.DSQ_PASS_STAT 1 false).setRegs
      [(R.DSQ_DSP_LAST, wd (st + 256 * (p.flags % 2 ^ 20))), (R.DSQ_DSP_MS, ms), (R.DSQ_DSP_ITERS, it)]).passRaised 9 st).emitSev evPass v dsqPage l := by
    unfold State.dspEnd
    rw [hp]
    exact ⟨_, _, _, _, _, rfl⟩
  obtain ⟨hr, h9, -⟩ := State.passRaised_reads ((u.setFlag R.DSQ_PASS_STAT 1 false).setRegs
    [(R.DSQ_DSP_LAST, wd (st + 256 * (p.flags % 2 ^ 20))), (R.DSQ_DSP_MS, ms), (R.DSQ_DSP_ITERS, it)]) st (by decide : 9 < 32) evPass v dsqPage l
  rw [he, hr.reg (by decide), hr.flag (by decide)]
  simp only [State.setRegs, List.foldl_cons, List.foldl_nil]
  refine ⟨?_, ?_, h9⟩
  · rw [State.reg_setReg_ne _ _ (by decide), State.reg_setReg_ne _ _ (by decide), State.reg_setReg_self]
  · rw [State.flag_setReg, if_neg (by decide), State.flag_setReg, if_neg (by decide), State.flag_setReg, if_neg (by decide),
      State.flag_setFlag _ _ _ _ _ _ (by decide), if_pos ⟨rfl, rfl⟩]

end ends

/-! ### A pass that runs goes on running -/

section running
variable (s : State)

theorem State.setPass_isSome {k : Nat} (p : Pass) : (s.dsq.est.isSome = true → (s.setPass k p).dsq.est.isSome = true) ∧
    (s.dsq.hyd.isSome = true → (s.setPass k p).dsq.hyd.isSome = true) := by
  unfold State.setPass State.setDsq
  dsimp only
  split
  · exact ⟨fun _ => rfl, fun h => h⟩
  · split
    · exact ⟨fun h => h, fun h => h⟩
    · exact ⟨fun h => h, fun _ => rfl⟩

/-- Submitting a job ends no pass. -/
theorem State.submitJob_isSome (k : Nat) : (s.dsq.est.isSome = true → (s.submitJob k).dsq.est.isSome = true) ∧
    (s.dsq.hyd.isSome = true → (s.submitJob k).dsq.hyd.isSome = true) := by
  unfold State.submitJob
  split
  · exact ⟨fun h => h, fun h => h⟩
  · split
    · extract_lets i room busy
      split
      · exact ⟨fun h => h, fun h => h⟩
      · rename_i a u v _
        have hv : (s.dsq.est.isSome = true → v.dsq.est.isSome = true) ∧ (s.dsq.hyd.isSome = true → v.dsq.hyd.isSome = true) :=
          State.setPass_isSome (u.incReg R.JQ_JQ_TAIL) _
        clear_value v
        split
        · exact hv
        · exact hv
    · exact ⟨fun h => h, fun h => h⟩
theorem State.seqPump_isSome : (s.dsq.est.isSome = true → s.seqPump.dsq.est.isSome = true) ∧
    (s.dsq.hyd.isSome = true → s.seqPump.dsq.hyd.isSome = true) := by
  obtain ⟨e0, h0⟩ := s.submitJob_isSome 0
  obtain ⟨e1, h1⟩ := (s.submitJob 0).submitJob_isSome 1
  obtain ⟨e2, h2⟩ := ((s.submitJob 0).submitJob 1).submitJob_isSome 2
  exact ⟨fun h => e2 (e1 (e0 h)), fun h => h2 (h1 (h0 h))⟩

theorem State.line_est (p : Pass) (ph : SeqPhase) (dl res : Nat) (jobs : List JobArg) : (s.line 0 p ph dl res jobs).dsq.est.isSome = true := rfl
theorem State.line_hyd (p : Pass) (ph : SeqPhase) (dl res : Nat) (jobs : List JobArg) : (s.line 2 p ph dl res jobs).dsq.hyd.isSome = true := rfl

/-- An EST pass that begins has its first line of jobs. -/
theorem State.estBegin_isSome (p : Pass) : (s.estBegin p).dsq.est.isSome = true := by
  unfold State.estBegin
  extract_lets mb d prev x p' ins m u
  split
  · exact State.line_est _ _ _ _ _ _
  · exact State.line_est _ _ _ _ _ _
theorem State.hydBegin_isSome (p : Pass) : (s.hydBegin p).dsq.hyd.isSome = true := State.line_hyd _ _ _ _ _ _

end running

/-! ### A pass falls due (R284 to R289) -/

section due
variable (s : State)

/-- What the partner streamed is adopted into the Sequencer's own state alone. -/
theorem State.seqAdopt_eq : ∃ d : DsqSt, s.seqAdopt = { s with dsq := d } ∧ d.est = s.dsq.est ∧ d.dsp = s.dsq.dsp ∧ d.hyd = s.dsq.hyd := by
  unfold State.seqAdopt
  split
  · exact ⟨s.dsq, rfl, rfl, rfl, rfl⟩
  · exact ⟨_, rfl, rfl, rfl, rfl⟩

/-- The EST pass that falls due. -/
def State.estNew (s : State) : Pass :=
  { start := s.time.nsu, due := s.time.nsu + s.regN R.DSQ_EST_DEADLINE_MS * tMs, flags := s.startFlags, fails := s.reg R.NSU_LANE_FAILS,
    slot := s.mdl.slot, iso := s.dsq.iso }
/-- The pass is the one that runs, with the next tag. -/
def State.estTaken (s : State) (p : Pass) : State :=
  (((s.incReg R.DSQ_EST_TAG).setDsq fun d =>
    { d with est := some p, held := d.held.filterMap fun h => if h.2 ≤ 1 then none else some (h.1, h.2 - 1) }).setFlag R.DSQ_PASS_STAT 0 true).showHeld
/-- What follows once it is taken: its end where it cannot run or finds no set, else its first line. -/
def State.estGo (s : State) (p : Pass) : State :=
  match s.passBlocked with
  | some st => (if st = 9 then s.errc dsqPage 0x102 1 else s).estEnd st
  | none =>
    match s.newestSet with
    | none => s.estStale
    | some i =>
      if setTime s.yard i + s.regN R.DSQ_MEAS_AGE_MAX_MS * tMs < p.start then s.estStale
      else ((((s.holdSet i).keepEcho i).setDsq fun d => { d with stale := false }).estBegin { p with buf := some i }).seqPump

theorem State.mdlTake_none (h : s.fld R.DSQ_MODEL_STAT 2 0 ≠ 2) : s.mdlTake = s := if_pos h

/-- An EST pass falls due on a side that acts, with no model pending and no pass of its kind running. -/
theorem execEstPass_due (hr : s.running 57 = true) (ha : s.acts = true) (he : s.dsq.est = none) (hm : s.fld R.DSQ_MODEL_STAT 2 0 ≠ 2) :
    exec .estPass s = .next ((s.seqAdopt.estTaken s.seqAdopt.estNew).estGo s.seqAdopt.estNew) := by
  have hm' : s.seqAdopt.mdlTake = s.seqAdopt := by
    obtain ⟨d, hd, -⟩ := s.seqAdopt_eq
    rw [hd]
    exact State.mdlTake_none _ hm
  change execEstPass s = _
  unfold execEstPass
  rw [if_neg (by rw [hr]; decide), if_neg (by rw [ha]; decide), if_neg (by rw [he]; decide), hm']
  extract_lets v now p u0 u
  have hn : now = p.start := rfl
  have hp : p = s.seqAdopt.estNew := rfl
  have hu : u = s.seqAdopt.estTaken p := rfl
  rw [← hp, ← hu, hn]
  clear_value u p now v
  unfold State.estGo
  cases u.passBlocked with
  | some st => rfl
  | none =>
    cases u.newestSet with
    | none => rfl
    | some i => exact (apply_ite Host.Outcome.next _ _ _).symm

/-- What a pass that is taken changes: the Sequencer's state and its registers. -/
structure PassTaken (l : List Nat) (s t : State) : Prop where
  shows : ∃ d, Shows { s with dsq := d } t
  regs : RegsBut l s t
  held : R.PWR_DOM_STAT ∉ l

theorem State.passBlocked_congr {s t : State} (hm : t.mdl = s.mdl) (hr : t.reg R.PWR_DOM_STAT = s.reg R.PWR_DOM_STAT) (hp : t.pwr = s.pwr)
    (hb : t.blks = s.blks) : t.passBlocked = s.passBlocked := by
  rw [State.passBlocked, State.running, State.running, hm, State.shown_congr hr hp hb, State.shown_congr hr hp hb]
  rfl
theorem State.newestSet_congr {s t : State} (hy : t.yard = s.yard) : t.newestSet = s.newestSet := by
  rw [State.newestSet, hy]
  rfl

theorem PassTaken.blocked {l : List Nat} {s t : State} (h : PassTaken l s t) : t.passBlocked = s.passBlocked := by
  obtain ⟨d, hs⟩ := h.shows
  exact State.passBlocked_congr hs.mdl (h.regs.reg h.held) hs.pwr hs.blks
theorem PassTaken.yard {l : List Nat} {s t : State} (h : PassTaken l s t) : t.yard = s.yard := by
  obtain ⟨d, hs⟩ := h.shows
  exact hs.mem.1

/-- Registers that taking an EST pass writes. -/
def estRegs : List Nat := [R.DSQ_EST_TAG, R.DSQ_PASS_STAT, R.DSQ_BAD_HELD]

theorem State.estTaken_spec (p : Pass) : PassTaken estRegs s (s.estTaken p) ∧ (s.estTaken p).dsq.est = some p ∧
    (s.estTaken p).reg R.DSQ_EST_TAG = s.reg R.DSQ_EST_TAG + 1 ∧ (s.estTaken p).flag R.DSQ_PASS_STAT 0 = true := by
  refine ⟨⟨⟨(s.estTaken p).dsq, ?_⟩, ?_, by decide⟩, rfl, ?_, ?_⟩
  · exact .setReg _ _ (.setFlag _ _ _ ⟨_, _, _, _, rfl⟩)
  · have h0 : RegsBut estRegs s (s.incReg R.DSQ_EST_TAG) := (RegsBut.refl _ s).incReg (by decide)
    exact .setReg _ (.setFlag _ _ (h0.same rfl) (by decide)) (by decide)
  · rw [State.estTaken, State.showHeld, State.reg_setReg_ne _ _ (by decide), State.setFlag, State.reg_setReg_ne _ _ (by decide), State.reg_setDsq,
      State.incReg, State.reg_setReg_self]
  · rw [State.estTaken, State.showHeld, State.flag_setReg, if_neg (by decide), State.flag_setFlag _ _ _ _ _ _ (by decide), if_pos ⟨rfl, rfl⟩]

/-- A pass that may not run has status 8 or 9. -/
theorem State.passBlocked_le {st : Nat} (h : s.passBlocked = some st) : 3 ≤ st := by
  unfold State.passBlocked at h
  split_ifs at h
  · cases h
    decide
  · cases h
    decide

/-- Keeping a set's echo changes the Sequencer's copies, the pair link and the echo's generation. -/
def EchoKept (s t : State) : Prop :=
  (∃ d p, Shows { s with dsq := d, plk := p } t ∧ d.est = s.dsq.est) ∧ RegsBut [R.DSQ_ECHO_GEN] s t

theorem EchoKept.trans {s t u : State} (h : EchoKept s t) (g : EchoKept t u) : EchoKept s u := by
  obtain ⟨⟨d, p, ⟨r, x, c, e, rfl⟩, hd⟩, hr⟩ := h
  obtain ⟨⟨d', p', g, gd⟩, gr⟩ := g
  exact ⟨⟨d', p', Shows.trans ⟨r, x, c, e, rfl⟩ g, gd.trans hd⟩, hr.trans gr⟩
theorem EchoKept.sendObj (o g : Nat) (b : List Byte) : EchoKept s (s.sendObj o g b) := by
  obtain ⟨p, hp⟩ := s.sendObj_eq o g b
  rw [hp]
  exact ⟨⟨s.dsq, p, .refl _, rfl⟩, .refl _ s⟩
theorem EchoKept.setDsq {f : DsqSt → DsqSt} (hf : (f s.dsq).est = s.dsq.est) : EchoKept s (s.setDsq f) :=
  ⟨⟨_, s.plk, .refl _, hf⟩, .refl _ s⟩
theorem EchoKept.refl : EchoKept s s := ⟨⟨s.dsq, s.plk, .refl s, rfl⟩, .refl _ s⟩

theorem State.keepEcho_kept (i : Nat) : EchoKept s (s.keepEcho i) := by
  unfold State.keepEcho
  extract_lets dt b u tag v w
  have hu : EchoKept s u := ⟨⟨s.dsq, s.plk, .setReg _ _ (.refl s), rfl⟩, (RegsBut.refl _ s).setReg _ (by decide)⟩
  have hv : EchoKept s v := by
    refine hu.trans ?_
    change EchoKept u (match u.dsq.ests.find? fun e => e.tag == tag with
      | some e => if tag = 0 ∨ tag = u.dsq.sent then u else (u.setDsq fun d => { d with sent := tag }).sendObj 2 tag (packInts (estInts e))
      | none => u)
    split
    · split
      · exact .refl u
      · exact (EchoKept.setDsq u rfl).trans (.sendObj _ _ _ _)
    · exact .refl u
  split
  · exact hv
  · exact hv.trans ((EchoKept.setDsq v rfl).trans (.sendObj _ _ _ _))

theorem State.adopted_taken : PassTaken [] s s.seqAdopt := by
  obtain ⟨d, hd, -⟩ := s.seqAdopt_eq
  rw [hd]
  exact ⟨⟨d, .refl _⟩, .refl _ s, by decide⟩
theorem State.startFlags_congr {s t : State} (h : RegsBut [] s t) : t.startFlags = s.startFlags := by
  rw [State.startFlags, h.flag (by decide), h.flag (by decide), h.flag (by decide)]
  rfl

/-- A DSP pass that may not run ends with its status. -/
theorem State.dspStart_blocked {st : Nat} (h : s.passBlocked = some st) : ∃ (u : State) (p : Pass), s.dspStart = u.dspEnd st 0 ∧
    u.dsq.dsp = some p ∧ p.flags = s.startFlags := by
  have hv := s.adopted_taken
  unfold State.dspStart
  extract_lets v now due dt p u
  have hf : p.flags = s.startFlags := State.startFlags_congr hv.regs
  have hu : PassTaken [R.DSQ_DSP_TAG, R.DSQ_PASS_STAT] v u := by
    refine ⟨⟨u.dsq, .setFlag _ _ _ ⟨_, _, _, _, rfl⟩⟩, ?_, by decide⟩
    have h0 : RegsBut [R.DSQ_DSP_TAG, R.DSQ_PASS_STAT] v (v.incReg R.DSQ_DSP_TAG) := (RegsBut.refl _ v).incReg (by decide)
    exact .setFlag _ _ (h0.same rfl) (by decide)
  have hd : u.dsq.dsp = some p := rfl
  have hb : u.passBlocked = some st := hu.blocked.trans (hv.blocked.trans h)
  clear_value u p
  rw [hb]
  refine ⟨_, p, rfl, ?_, hf⟩
  split
  · exact hd
  · exact hd

/-- An EST pass that falls due and may not run ends with its status. -/
theorem State.estGo_blocked {st : Nat} (h : s.passBlocked = some st) :
    ∃ u : State, (s.seqAdopt.estTaken s.seqAdopt.estNew).estGo s.seqAdopt.estNew = u.estEnd st ∧ u.dsq.est = some s.seqAdopt.estNew ∧
      u.reg R.DSQ_EST_TAG = s.reg R.DSQ_EST_TAG + 1 := by
  have hv := s.adopted_taken
  obtain ⟨hu, he, ht, -⟩ := s.seqAdopt.estTaken_spec s.seqAdopt.estNew
  have hb := hu.blocked.trans (hv.blocked.trans h)
  rw [hv.regs.reg (by decide)] at ht
  generalize s.seqAdopt.estTaken s.seqAdopt.estNew = u at *
  unfold State.estGo
  rw [hb]
  refine ⟨_, rfl, ?_, ?_⟩
  · split
    · exact he
    · exact he
  · split
    · exact ht
    · exact ht

/-- An EST pass that falls due and finds a set that is new enough begins on it. -/
theorem State.estGo_begins {i : Nat} (h : s.passBlocked = none) (hs : s.newestSet = some i)
    (ht : s.time.nsu ≤ setTime s.yard i + s.regN R.DSQ_MEAS_AGE_MAX_MS * tMs) : ∃ u : State,
    (s.seqAdopt.estTaken s.seqAdopt.estNew).estGo s.seqAdopt.estNew = (u.estBegin { s.seqAdopt.estNew with buf := some i }).seqPump ∧
      u.dsq.est.isSome = true ∧ u.dsq.stale = false ∧ u.reg R.DSQ_EST_TAG = s.reg R.DSQ_EST_TAG + 1 ∧ u.flag R.DSQ_PASS_STAT 0 = true ∧
      u.yard = wrN s.yard (setHold i) 4 (rdN s.yard (setHold i) 4 ||| 1) := by
  have hv := s.adopted_taken
  have hst : s.seqAdopt.estNew.start = s.time.nsu := by
    obtain ⟨d, hd⟩ := hv.shows
    exact congrArg TimeSt.nsu hd.time
  obtain ⟨hu, he, htag, hflag⟩ := s.seqAdopt.estTaken_spec s.seqAdopt.estNew
  have hb := hu.blocked.trans (hv.blocked.trans h)
  have hy : (s.seqAdopt.estTaken s.seqAdopt.estNew).yard = s.yard := hu.yard.trans hv.yard
  have hn := (State.newestSet_congr hy).trans hs
  have hg : (s.seqAdopt.estTaken s.seqAdopt.estNew).regN R.DSQ_MEAS_AGE_MAX_MS = s.regN R.DSQ_MEAS_AGE_MAX_MS := by
    rw [hu.regs.regN (by decide), hv.regs.regN (by decide)]
  rw [hv.regs.reg (by decide)] at htag
  generalize s.seqAdopt.estTaken s.seqAdopt.estNew = u at *
  obtain ⟨⟨d, p, hk, hd⟩, hr⟩ := (u.holdSet i).keepEcho_kept i
  unfold State.estGo
  rw [hb]
  dsimp only
  rw [hn]
  dsimp only
  rw [hy, hg, hst, if_neg (Nat.not_lt.mpr ht)]
  refine ⟨_, rfl, ?_, rfl, ?_, ?_, ?_⟩
  · exact (congrArg (fun x : DsqSt => x.est.isSome) hk.dsq).trans ((congrArg Option.isSome (hd.trans he)).trans rfl)
  · exact (hr.reg (by decide)).trans htag
  · exact (hr.flag (by decide) 0).trans hflag
  · exact hk.mem.1.trans (by rw [State.holdSet, hy])

/-- The HYD pass of a plan that was handed over. -/
def State.hydNew (s : State) : Pass :=
  { start := s.time.nsu, due := s.time.nsu + 5 * tS, fails := s.reg R.NSU_LANE_FAILS, slot := s.dsq.hydIn.slot, buf := s.newestSet }

theorem execHydPass_due (hr : s.running 57 = true) (ha : s.acts = true) (h1 : s.dsq.hydDue = true) (h2 : s.dsq.hyd = none) :
    exec .hydPass s = .next (match s.passBlocked with
      | some st => (if st = 9 then (s.setDsq fun d => { d with hydDue := false }).errc dsqPage 0x102 3
          else s.setDsq fun d => { d with hydDue := false }).setDsq fun d => { d with biasOld := true }
      | none => (((s.setDsq fun d => { d with hydDue := false }).setFlag R.DSQ_PASS_STAT 2 true).hydBegin s.hydNew).seqPump) := by
  change execHydPass s = _
  unfold execHydPass
  rw [if_neg (by rw [hr, ha, h1, h2]; decide)]
  have hb : (s.setDsq fun d => { d with hydDue := false }).passBlocked = s.passBlocked := rfl
  dsimp only
  rw [hb]
  cases s.passBlocked with
  | some st => rfl
  | none => rfl

end due

/-- Settles O24: EST, DSP and HYD passes as they fall due, start and end. -/
theorem sequencerPasses : Obligations.SequencerPasses := by
  intro s who i st p w hr
  have hgo (ha : s.acts = true) : ¬((!(s.answer 0).running dsqPage) = true ∨ (!(s.answer 0).acts) = true) := by
    rw [show (s.answer 0).running dsqPage = true from hr, show (s.answer 0).acts = true from ha]
    decide
  refine ⟨fun ha => ⟨?_, ?_, ?_⟩, fun ha => ⟨fun he => ?_, fun he hm hb => ?_, fun he hm hb hs ht => ?_, fun e => ⟨?_, ?_⟩, fun hd => ⟨?_, fun h => ?_⟩,
    fun hd => ⟨?_, fun h => ?_, fun hb => ?_⟩, fun h1 h2 hb => ?_, fun h1 h2 hb => ?_, fun h => ?_⟩, fun hp => ?_, fun hp => ?_⟩
  · change execEstPass s = _
    unfold execEstPass
    rw [if_neg (by rw [hr]; decide), if_pos (by rw [ha]; rfl)]
    rfl
  · change execDspPass s = _
    unfold execDspPass
    rw [if_neg (by rw [hr]; decide), if_pos (by rw [ha]; rfl)]
    rfl
  · exact if_pos (.inr (.inl (by rw [ha]; rfl)))
  · change execEstPass s = _
    unfold execEstPass
    rw [if_neg (by rw [hr]; decide), if_neg (by rw [ha]; decide), if_pos he]
    rfl
  · obtain ⟨u, hu, hd, ht⟩ := s.estGo_blocked hb
    obtain ⟨hl, -, h8, h10⟩ := u.estEnd_reads st hd
    refine ⟨_, execEstPass_due s hr ha he hm, ?_⟩
    rw [hu]
    refine ⟨(u.estEnd_dsq st).1, ?_, ?_, h8, h10 (s.passBlocked_le hb)⟩
    · rw [((PassEnds.refl u).estEnd st).regs.reg (by decide), ht]
    · rw [hl, show s.seqAdopt.estNew.flags = s.startFlags from State.startFlags_congr s.adopted_taken.regs]
  · obtain ⟨u, hu, hes, hst, htag, hfl, hy⟩ := s.estGo_begins hb hs ht
    obtain ⟨d, hv⟩ := s.adopted_taken.shows
    refine ⟨u, { s.seqAdopt.estNew with buf := some i }, (execEstPass_due s hr ha he hm).trans (congrArg _ hu), hes, congrArg TimeSt.nsu hv.time, ?_,
      rfl, congrArg ModelSt.slot hv.mdl, hst, htag, hfl, hy⟩
    change s.seqAdopt.time.nsu + s.seqAdopt.regN R.DSQ_EST_DEADLINE_MS * tMs = _
    rw [hv.time, s.adopted_taken.regs.regN (by decide)]
  · exact (State.seqPump_isSome _).1 (s.estBegin_isSome e)
  · exact (State.seqPump_isSome _).2 (s.hydBegin_isSome e)
  · change execDspPass s = _
    unfold execDspPass
    rw [if_neg (by rw [hr]; decide), if_neg (by rw [ha]; decide), if_pos hd]
    rfl
  · refine congrArg Host.Outcome.next ((s.gate_may _ h).trans ((if_neg (hgo ha)).trans (if_pos hd)))
  · change execDspPass s = _
    unfold execDspPass
    rw [if_neg (by rw [hr]; decide), if_neg (by rw [ha]; decide), if_neg (by rw [hd]; decide)]
  · exact congrArg Host.Outcome.next ((s.gate_may _ h).trans ((if_neg (hgo ha)).trans (if_neg (by rw [show (s.answer 0).dsq = s.dsq from rfl, hd]; decide))))
  · obtain ⟨u, q, hu, hq, hf⟩ := s.dspStart_blocked hb
    rw [hu, (u.dspEnd_dsq st 0).2.1, (u.dspEnd_reads st 0 hq).1, hf]
    exact ⟨rfl, rfl⟩
  · refine ⟨(s.setDsq fun d => { d with hydDue := false }).setFlag R.DSQ_PASS_STAT 2 true, s.hydNew, ?_, rfl, rfl, rfl, ?_, rfl, ?_, .refl s⟩
    · rw [execHydPass_due s hr ha h1 h2, hb]
    · rw [State.flag_setFlag _ _ _ _ _ _ (by decide), if_pos ⟨rfl, rfl⟩]
    · exact .setFlag _ _ (.same (.refl _ s) rfl) (by decide)
  · refine ⟨_, execHydPass_due s hr ha h1 h2, ?_⟩
    rw [hb]
    dsimp only
    split
    · exact ⟨rfl, h2, rfl, .refl s⟩
    · exact ⟨rfl, h2, rfl, .refl s⟩
  · exact if_pos (by obtain h | h := h <;> simp [h])
  · obtain ⟨hl, hf, h8, -⟩ := s.estEnd_reads st hp
    exact ⟨(s.estEnd_dsq st).1, hl, hf, h8⟩
  · obtain ⟨hl, hf, h9⟩ := s.dspEnd_reads st w hp
    exact ⟨(s.dspEnd_dsq st w).2.1, hl, hf, h9⟩

end Sys2Proof.Machine
end

section
/-! Driving the outputs (R352, R356, R405, R476) changes the state of no block. -/

namespace Sys2Proof.Machine

/-- The states of the blocks are the same. -/
def SameBlks (s t : State) : Prop := t.blks = s.blks

section same
variable {s t : State}

theorem SameBlks.refl (s : State) : SameBlks s s := rfl
theorem SameBlks.trans {u : State} (h : SameBlks s t) (g : SameBlks t u) : SameBlks s u := Eq.trans g h
theorem SameBlks.ite {p : Prop} [Decidable p] {u v : State} (hu : SameBlks s u) (hv : SameBlks s v) : SameBlks s (if p then u else v) := by
  split
  · exact hu
  · exact hv
theorem SameBlks.ite_step {p : Prop} [Decidable p] {f : State → State} (h : SameBlks s t) (hf : ∀ u, SameBlks u (f u)) :
    SameBlks s (if p then f t else t) := .ite (h.trans (hf t)) h
theorem SameBlks.foldl {β : Type} {f : State → β → State} (hf : ∀ s b, SameBlks s (f s b)) (l : List β) (h : SameBlks s t) :
    SameBlks s (l.foldl f t) := h.trans (foldl_rel .refl .trans hf l t)
theorem SameBlks.setReg (a : Nat) (v : Word) (h : SameBlks s t) : SameBlks s (t.setReg a v) := h
theorem SameBlks.setFld (a hi lo x : Nat) (h : SameBlks s t) : SameBlks s (t.setFld a hi lo x) := h
theorem SameBlks.setFlag (a i : Nat) (b : Bool) (h : SameBlks s t) : SameBlks s (t.setFlag a i b) := h
theorem SameBlks.incReg (a : Nat) (h : SameBlks s t) : SameBlks s (t.incReg a) := h
theorem SameBlks.setReg64 (a b n : Nat) (h : SameBlks s t) : SameBlks s (t.setReg64 a b n) := h
theorem SameBlks.irq (p i : Nat) (h : SameBlks s t) : SameBlks s (t.irq p i) := h
theorem SameBlks.errc (p c d : Nat) (h : SameBlks s t) : SameBlks s (t.errc p c d) := h
theorem SameBlks.emit (k p : Nat) (l : List Word) (h : SameBlks s t) : SameBlks s (t.emit k p l) := (State.emit_blks _ _ _ _).trans h
theorem SameBlks.setCan (n : Nat) (c : CanCh) (h : SameBlks s t) : SameBlks s (t.setCan n c) := h
theorem SameBlks.setStall (n : Nat) (c : Stall) (h : SameBlks s t) : SameBlks s (t.setStall n c) := h
theorem SameBlks.setAxis (n : Nat) (c : Axis) (h : SameBlks s t) : SameBlks s (t.setAxis n c) := h
theorem SameBlks.setPulse (n : Nat) (c : PulseOut) (h : SameBlks s t) : SameBlks s (t.setPulse n c) := h
theorem SameBlks.setPort (n : Nat) (c : EthPort) (h : SameBlks s t) : SameBlks s (t.setPort n c) := h
theorem SameBlks.winPut (k o : Nat) (l : List Byte) (h : SameBlks s t) : SameBlks s (t.winPut k o l) := h
theorem SameBlks.putPlk (q : PlkSt) (h : SameBlks s t) : SameBlks s (t.putPlk q) := h
theorem SameBlks.setLge (f : LgeSt → LgeSt) (h : SameBlks s t) : SameBlks s (t.setLge f) := h
theorem SameBlks.imgPut (a : Nat) (l : List Byte) (h : SameBlks s t) : SameBlks s (t.imgPut a l) := h
theorem SameBlks.setSaves (f : Saves → Saves) (h : SameBlks s t) : SameBlks s (t.setSaves f) := h

end same

section driven
variable (s : State)

theorem State.dropCtl_sameBlks (i : Nat) (b : Bool) : SameBlks s (s.dropCtl i b) := by
  unfold State.dropCtl
  exact .refl s
theorem State.ethSend_sameBlks (i : Nat) (q : EthQueue) (f : List Byte) : SameBlks s (s.ethSend i q f) := by
  unfold State.ethSend
  cases q
  · exact .ite (.setPort _ _ (.refl s)) (.refl s)
  · exact .ite (.setPort _ _ (.refl s)) (s.dropCtl_sameBlks _ _)
  · exact .ite (.setPort _ _ (.refl s)) (s.dropCtl_sameBlks _ _)
  · exact .ite (.setPort _ _ (.refl s)) (.refl s)
theorem State.ethSendTo_sameBlks (i : Nat) (q : EthQueue) (ip f : List Byte) : SameBlks s (s.ethSendTo i q ip f) :=
  .ite (s.ethSend_sameBlks i q f) (.setPort _ _ (.refl s))
theorem State.stFrame_sameBlks (k m ty flags : Nat) (l : List Byte) (b : Bool) : SameBlks s (s.stFrame k m ty flags l b).2 :=
  .trans (.setStall _ _ (.setReg64 _ _ _ (.refl s))) (State.ethSendTo_sameBlks _ _ _ _ _)
theorem State.sendWrite_sameBlks (k : Nat) : SameBlks s (s.sendWrite k) :=
  .ite (.refl s) (.setStall _ _ (.winPut _ _ _ (.trans (.setStall _ _ (.refl s)) (State.stFrame_sameBlks _ _ _ _ _ _ _))))
theorem State.stallsOutput_sameBlks (b : Bool) : SameBlks s (s.stallsOutput b) :=
  .foldl (fun u k => .ite (.refl u) (.ite (.ite (.trans (.setStall _ _ (.refl u)) (State.sendWrite_sameBlks _ k)) (.refl u))
    (.ite (.refl u) (.ite (.setStall _ _ (.refl u)) (u.sendWrite_sameBlks k))))) _ (.refl s)
theorem State.loadBuf0_sameBlks (n : Nat) : SameBlks s (s.loadBuf0 n) := by
  unfold State.loadBuf0
  dsimp only
  split
  · exact .refl s
  · exact .ite (.refl s) (.setFld _ _ _ _ (.foldl (fun u _ => .setReg _ _ (.refl u)) _ (.setReg _ _ (.setReg _ _ (.setCan _ _ (.refl s))))))
theorem State.canQueue_sameBlks (n : Nat) (l : List Nat) : SameBlks s (s.canQueue n l) :=
  .ite (.setCan _ _ (.refl s)) (.ite_step (.foldl (fun u _ => .ite (.setCan _ _ (.refl u)) (.refl u)) _ (.setCan _ _ (.refl s)))
    fun u => u.loadBuf0_sameBlks n)
theorem State.outputEnd_sameBlks (b : Bool) : SameBlks s (s.outputEnd b) :=
  .foldl (fun u n => u.canQueue_sameBlks n _) _ (.trans (.putPlk { s.plk with applied := false } (.refl s)) (State.stallsOutput_sameBlks _ b))
theorem State.pulseCut_sameBlks (o : Nat) : SameBlks s (s.pulseCut o) :=
  .ite (.refl s) (.emit _ _ _ (.irq _ _ (.setPulse _ _ (.refl s))))
theorem State.axHalt_sameBlks (a : Nat) : SameBlks s (s.axHalt a) :=
  .ite (.setAxis _ _ (.refl s)) (.ite (.setAxis _ _ (.refl s)) (.refl s))
theorem State.drive_sameBlks (e : MapEnt) (l : List Byte) : SameBlks s (s.drive e l) := by
  unfold State.drive
  split
  · exact .ite (.incReg _ (.refl s)) (.setStall _ _ (.winPut _ _ _ (.refl s)))
  · exact .ite (.incReg _ (.refl s)) (.setCan _ _ (.refl s))
  · exact .ite (.ite (.setAxis _ _ (.refl s)) (.refl s)) (.setAxis _ _ (.refl s))
  · exact .ite (.refl s) (.ite (.setFlag _ _ _ (.refl s)) (.incReg _ (.refl s)))
  · exact .setReg _ _ (.refl s)
  · exact .refl s
theorem State.driveOff_sameBlks (e : MapEnt) : SameBlks s (s.driveOff e) := by
  unfold State.driveOff
  split
  · exact s.axHalt_sameBlks _
  · exact .setFlag _ _ _ (.refl s)
  · exact .setReg _ _ (s.pulseCut_sameBlks _)
  · exact .refl s
/-- An output entry driven to its safe value. -/
def safeDriven (s : State) (e : MapEnt × Nat) : State :=
  let r := s.safeRec e.2
  if r.1 = 1 then
    let l := r.2.take e.1.width
    let s := if e.1.kind = 6 then s.pulseCut e.1.index else s
    let s := s.drive e.1 l
    { s with img := wrBytes s.img e.1.addr l }
  else if r.1 = 2 then s.driveOff e.1 else s
theorem safeDriven_sameBlks (e : MapEnt × Nat) : SameBlks s (safeDriven s e) := by
  have h : SameBlks s (if e.1.kind = 6 then s.pulseCut e.1.index else s) := .ite_step (.refl s) fun v => v.pulseCut_sameBlks _
  exact .ite (.imgPut _ _ (h.trans (State.drive_sameBlks _ e.1 _))) (.ite_step (.refl s) fun v => v.driveOff_sameBlks e.1)
theorem State.driveSafe_eq : s.driveSafe =
    ((s.outmap.zip (List.range s.outmap.length)).foldl safeDriven (s.setLge fun l => { l with safe := true })).outputEnd false := rfl
theorem State.driveSafe_sameBlks : SameBlks s s.driveSafe := by
  rw [State.driveSafe_eq]
  exact .trans (.foldl safeDriven_sameBlks _ (.setLge _ (.refl s))) (State.outputEnd_sameBlks _ false)
theorem State.captureSave_sameBlks : SameBlks s s.captureSave := by
  unfold State.captureSave State.captureItem
  cases s.lge.capture with
  | none => exact .setSaves _ (.refl s)
  | some c => exact .setSaves _ (.setSaves _ (.refl s))
theorem State.coresStop_sameBlks : SameBlks s s.coresStop :=
  .setLge (fun l => { l with calls := [] }) (.setReg _ _ (.foldl (fun u _ => .setFlag _ _ _ (.setFlag _ _ _ (.refl u))) _ (.refl s)))

/-- The halt of the LGE as it is shown: its cores stopped, FAULT with the code, the newest capture saved. -/
def State.haltMarked (s : State) (code detail : Nat) : State := ((s.coresStop.fail lgePage code detail).irq lgePage 8).captureSave
theorem State.haltOrder_eq (code detail : Nat) : s.haltOrder code detail = if s.shown lgePage = 0 ∨ s.shown lgePage = 4 then s
    else if (s.haltMarked code detail).acts then (s.haltMarked code detail).driveSafe
    else { s.haltMarked code detail with lge := { (s.haltMarked code detail).lge with safe := true } } := rfl
theorem State.toFault_sameBlks (p : Nat) :
    SameBlks (s.setBlk p { s.blk p with st := .fault, draining := false, abandoned := true }) (s.toFault p) :=
  .foldl (fun u _ => .irq _ _ (.irq _ _ (.refl u))) _ (.refl _)
theorem State.toFault_st (p : Nat) : ((s.toFault p).blk p).st = .fault := by
  rw [State.blk, s.toFault_sameBlks p]
  change ((s.setBlk p _).blk p).st = _
  rw [State.blk_setBlk, if_pos rfl]
theorem State.fail_sameBlks (p code detail : Nat) :
    SameBlks (s.setBlk p { s.blk p with st := .fault, draining := false, abandoned := true }) (s.fail p code detail) :=
  .emit _ _ _ (.errc _ _ _ (s.toFault_sameBlks p))
theorem State.haltMarked_sameBlks (code detail : Nat) :
    SameBlks (s.setBlk lgePage { s.blk lgePage with st := .fault, draining := false, abandoned := true }) (s.haltMarked code detail) := by
  have h : SameBlks (s.setBlk lgePage { s.blk lgePage with st := .fault, draining := false, abandoned := true })
      (s.coresStop.setBlk lgePage { s.coresStop.blk lgePage with st := .fault, draining := false, abandoned := true }) := by
    have e : s.coresStop.blks = s.blks := s.coresStop_sameBlks
    simp only [SameBlks, State.setBlk, State.blk, e]
  exact (h.trans (.irq _ _ (State.fail_sameBlks _ _ _ _))).trans (State.captureSave_sameBlks _)
theorem State.haltMarked_blk {p : Nat} (hp : p ≠ lgePage) (code detail : Nat) : (s.haltMarked code detail).blk p = s.blk p := by
  rw [State.blk, s.haltMarked_sameBlks code detail]
  exact (State.blk_setBlk _ _ _ _).trans (if_neg hp)
/-- A halt order changes the state of the LGE's block alone. -/
theorem State.haltOrder_blk {p : Nat} (hp : p ≠ lgePage) (code detail : Nat) : (s.haltOrder code detail).blk p = s.blk p := by
  rw [State.haltOrder_eq]
  have h := s.haltMarked_blk hp code detail
  generalize s.haltMarked code detail = u at *
  split
  · rfl
  · split
    · rw [State.blk, u.driveSafe_sameBlks]
      exact h
    · exact h

end driven

end Sys2Proof.Machine
end

section
/-! The keeper's checks and events (R586 to R614). -/

namespace Sys2Proof.Machine

/-- The keeper's state replaced. -/
def State.putKpr (s : State) (q : KprSt) : State := { s with kpr := q }

/-! ### The safety log and the levels -/

section log
variable (s : State)

/-- A record of the safety log changes the log and the recorder. -/
theorem State.slog_shows (code data : Nat) : ∃ q : KprSt, Shows (s.putKpr q) (s.slog code data) ∧ RegsBut evrRegs s (s.slog code data) ∧
    CausesKept s (s.slog code data) ∧ q.cause = s.kpr.cause ∧ q.stopped = s.kpr.stopped ∧ q.chk = s.kpr.chk ∧ q.trip = s.kpr.trip ∧
    q.wdFrom = s.kpr.wdFrom :=
  ⟨_, .emit _ _ _ (.refl _), .emit _ _ _ (.same (.refl _ s) rfl) (fun _ h => h), .emit _ _ _ ((CausesKept.refl s).pages fun _ => rfl), rfl, rfl, rfl,
    rfl, rfl⟩

theorem State.putSafe_shows (f : State → Nat → Option Bool) (k n : Nat) : Shows s (s.putSafe f k n) := by
  unfold State.putSafe
  split
  · exact .setFlag _ _ _ (.refl s)
  · exact .refl s
theorem State.putSafe_page (f : State → Nat → Option Bool) (k n p : Nat) : (s.putSafe f k n).page p = s.page p := by
  unfold State.putSafe
  split
  · rfl
  · rfl

/-- Bringing the levels up to date changes registers alone. -/
theorem State.safeUpdate_shows : Shows s s.safeUpdate := by
  rw [State.safeUpdate_eq]
  have h : Shows s s.safeDrop.safeLevels := .trans (.foldl (fun u n => u.putSafe_shows _ _ n) _ s) (.foldl (fun u n => u.putSafe_shows _ _ n) _ _)
  exact .setFld _ _ _ _ (.setFlag _ _ _ (.setFlag _ _ _ h))
theorem State.safeUpdate_page (p : Nat) : s.safeUpdate.page p = s.page p := by
  have h1 : s.safeDrop.page p = s.page p := foldl_fixed (fun u : State => u.page p) (f := State.putSafe State.dropOf 8)
    (fun u n => u.putSafe_page _ _ n p) _ s
  have h2 : s.safeDrop.safeLevels.page p = s.safeDrop.page p := foldl_fixed (fun u : State => u.page p)
    (f := State.putSafe (fun t n => some (t.safeLevel n)) 0) (fun u n => u.putSafe_page _ _ n p) _ _
  rw [State.safeUpdate_eq, State.page_setFld, State.page_setFlag, State.page_setFlag, h2, h1]

/-- No ball is high while the keeper is out of service. -/
theorem State.safeUpdate_low {n : Nat} (hn : n < 4) (h : s.kprService = false ∨ s.tripOn n = true) : s.safeUpdate.flag R.KPR_SAFE_STAT n = false := by
  rw [s.safeUpdate_level hn]
  obtain h | h := h
  · rw [h]
    rfl
  · rw [h]
    simp

end log

/-! ### Watchdog, emergency inputs and keeper faults (R599 to R610) -/

section events
variable (s : State)

/-- A keeper fault stops the cores, drops the balls and orders the halt. -/
def State.faultMarked (s : State) (c : Nat) : State :=
  (((s.putKpr { s.kpr with cause := c, stopped := true, chk := [] }).setFld R.KPR_KSTAT 9 8 0).safeUpdate.errc kprPage 0x100 c).slog slFault c

theorem State.keeperFault_eq (c : Nat) : s.keeperFault c = (s.faultMarked c).haltOrder 0x105 0 := rfl

theorem State.faultMarked_shows (c : Nat) : ∃ q : KprSt, Shows (s.putKpr q) (s.faultMarked c) ∧ q.cause = c ∧ q.stopped = true ∧ q.chk = [] := by
  obtain ⟨q, hq, -, -, h1, h2, h3, -⟩ := (((s.putKpr { s.kpr with cause := c, stopped := true, chk := [] }).setFld R.KPR_KSTAT 9 8 0).safeUpdate.errc
    kprPage 0x100 c).slog_shows slFault c
  have hu : Shows (s.putKpr { s.kpr with cause := c, stopped := true, chk := [] }) (((s.putKpr { s.kpr with cause := c, stopped := true, chk := [] }).setFld
    R.KPR_KSTAT 9 8 0).safeUpdate.errc kprPage 0x100 c) := .errc _ _ _ (.trans (.setFld _ _ _ _ (.refl _)) (State.safeUpdate_shows _))
  rw [State.faultMarked]
  generalize (((s.putKpr { s.kpr with cause := c, stopped := true, chk := [] }).setFld R.KPR_KSTAT 9 8 0).safeUpdate.errc kprPage 0x100 c) = u at *
  obtain ⟨r, x, d, e, rfl⟩ := hu
  exact ⟨q, hq, h1, h2, h3⟩
theorem State.faultMarked_low (c : Nat) {n : Nat} (hn : n < 4) : (s.faultMarked c).flag R.KPR_SAFE_STAT n = false := by
  rw [State.faultMarked]
  have hk : ((s.putKpr { s.kpr with cause := c, stopped := true, chk := [] }).setFld R.KPR_KSTAT 9 8 0).kprService = false := by
    rw [State.kprService]
    exact Bool.and_false _
  generalize (s.putKpr { s.kpr with cause := c, stopped := true, chk := [] }).setFld R.KPR_KSTAT 9 8 0 = u at *
  obtain ⟨q, -, hr, -⟩ := (u.safeUpdate.errc kprPage 0x100 c).slog_shows slFault c
  rw [hr.flag (by decide), State.flag_errc, u.safeUpdate_low hn (.inl hk)]
theorem State.faultMarked_reads (c : Nat) : (s.faultMarked c).kpr.cause = c ∧ (s.faultMarked c).kpr.stopped = true ∧ (s.faultMarked c).kpr.chk = [] ∧
    ∀ n, n < 4 → (s.faultMarked c).flag R.KPR_SAFE_STAT n = false := by
  obtain ⟨q, hq, h1, h2, h3⟩ := s.faultMarked_shows c
  have hk : (s.faultMarked c).kpr = q := hq.kpr
  rw [hk]
  exact ⟨h1, h2, h3, fun n hn => s.faultMarked_low c hn⟩

/-- A keeper fault changes the state of the LGE's block alone. -/
theorem State.keeperFault_st {p : Nat} (hp : p ≠ lgePage) (c : Nat) : ((s.keeperFault c).blk p).st = (s.blk p).st := by
  obtain ⟨q, hq, -⟩ := s.faultMarked_shows c
  have h : (s.faultMarked c).blk p = s.blk p := by
    rw [State.blk, hq.blks]
    rfl
  rw [State.keeperFault_eq]
  generalize s.faultMarked c = u at *
  rw [u.haltOrder_blk hp, h]

/-- A trip as it is shown: its time, its cause, the balls that it drops. -/
def State.tripMarked (s : State) (c : Nat) : State :=
  (((((s.putKpr { s.kpr with trip := true, wdFrom := none }).setReg R.KPR_TRIP_T_NS (nsField s.time.kpr)).setReg R.KPR_TRIP_T_S
    (lo32 (secOf s.time.kpr))).setReg R.KPR_LAST_HALT (wd c)).irq kprPage 8).safeUpdate.slog slTrip
      (c + 256 * b2n s.kpr.trip + 2 ^ 32 * min s.wdElapsed (2 ^ 32 - 1))

theorem State.trip_eq (c code detail : Nat) : s.trip c code detail = (s.tripMarked c).haltOrder code detail := rfl

theorem State.tripMarked_reads (c : Nat) : (s.tripMarked c).kpr.trip = true ∧ (s.tripMarked c).kpr.wdFrom = none ∧
    (s.tripMarked c).reg R.KPR_LAST_HALT = wd c ∧ (s.tripMarked c).reg R.KPR_TRIP_T_NS = nsField s.time.kpr ∧
    ∀ n, n < 4 → s.flag (R.KPR_SAFE_CFG n) 4 = true → (s.tripMarked c).flag R.KPR_SAFE_STAT n = false := by
  unfold State.tripMarked
  generalize hu : ((((s.putKpr { s.kpr with trip := true, wdFrom := none }).setReg R.KPR_TRIP_T_NS (nsField s.time.kpr)).setReg R.KPR_TRIP_T_S
    (lo32 (secOf s.time.kpr))).setReg R.KPR_LAST_HALT (wd c)).irq kprPage 8 = u
  have hk : u.kpr = { s.kpr with trip := true, wdFrom := none } := by
    rw [← hu]
    rfl
  have hl : u.reg R.KPR_LAST_HALT = wd c := by
    rw [← hu, State.reg_irq, State.reg_setReg_self]
  have ht : u.reg R.KPR_TRIP_T_NS = nsField s.time.kpr := by
    rw [← hu, State.reg_irq, State.reg_setReg_ne _ _ (by decide), State.reg_setReg_ne _ _ (by decide), State.reg_setReg_self]
  have hg : RegsBut [R.KPR_TRIP_T_NS, R.KPR_TRIP_T_S, R.KPR_LAST_HALT] s u := by
    rw [← hu]
    exact .irq _ _ (.setReg _ (.setReg _ (.setReg _ (.same (.refl _ s) rfl) (by decide)) (by decide)) (by decide))
  have hc := u.safeUpdate_causes
  obtain ⟨q, hq, hr, -, -, -, -, h4, h5⟩ := u.safeUpdate.slog_shows slTrip (c + 256 * b2n s.kpr.trip + 2 ^ 32 * min s.wdElapsed (2 ^ 32 - 1))
  rw [hq.kpr]
  refine ⟨h4.trans ?_, h5.trans ?_, ?_, ?_, fun n hn hf => ?_⟩
  · rw [hc.kpr, hk]
  · rw [hc.kpr, hk]
  · rw [hr.reg (by decide), hc.regs.reg (by decide), hl]
  · rw [hr.reg (by decide), hc.regs.reg (by decide), ht]
  · have hne : R.KPR_SAFE_CFG n ∉ [R.KPR_TRIP_T_NS, R.KPR_TRIP_T_S, R.KPR_LAST_HALT] := by
      simp only [R.KPR_SAFE_CFG, R.KPR_TRIP_T_NS, R.KPR_TRIP_T_S, R.KPR_LAST_HALT, List.mem_cons, List.not_mem_nil, or_false]
      omega
    rw [hr.flag (by decide), u.safeUpdate_low hn (.inr _)]
    rw [State.tripOn, hk, hg.flag hne, hf]
    rfl

/-- An emergency input as it is shown and latched. -/
def State.emgMarked (s : State) (i : Nat) (hard : Bool) : State :=
  (((s.setFlag R.KPR_EMG_STAT i true).setFlag R.KPR_EMG_STAT (8 + i) true).irq 16 9).safeUpdate.slog slEmg (i + 256 * b2n hard)

theorem State.emgMarked_reads {i : Nat} (hi : i < 4) (hard : Bool) : (s.emgMarked i hard).flag R.KPR_EMG_STAT i = true ∧
    (s.emgMarked i hard).flag R.KPR_EMG_STAT (8 + i) = true ∧ bit ((s.emgMarked i hard).page 16).irqStat 9 = true ∧
    RegsBut (evrRegs ++ [R.KPR_EMG_STAT, R.KPR_SAFE_STAT, R.KPR_KSTAT]) s (s.emgMarked i hard) ∧ SameMem s (s.emgMarked i hard) ∧
    (s.emgMarked i hard).pwr = s.pwr := by
  unfold State.emgMarked
  generalize hu : ((s.setFlag R.KPR_EMG_STAT i true).setFlag R.KPR_EMG_STAT (8 + i) true).irq 16 9 = u
  have h1 : u.flag R.KPR_EMG_STAT i = true := by
    rw [← hu, State.flag_irq, State.flag_setFlag _ _ _ _ _ _ (by omega), if_neg (by omega), State.flag_setFlag _ _ _ _ _ _ (by omega),
      if_pos ⟨rfl, rfl⟩]
  have h2 : u.flag R.KPR_EMG_STAT (8 + i) = true := by
    rw [← hu, State.flag_irq, State.flag_setFlag _ _ _ _ _ _ (by omega), if_pos ⟨rfl, rfl⟩]
  have h3 : bit (u.page 16).irqStat 9 = true := by
    rw [← hu]
    exact State.bit_irqStat_irq _ _ (by decide)
  have hg : RegsBut (evrRegs ++ [R.KPR_EMG_STAT, R.KPR_SAFE_STAT, R.KPR_KSTAT]) s u := by
    rw [← hu]
    exact .irq _ _ (.setFlag _ _ (.setFlag _ _ (.refl _ s) (by decide)) (by decide))
  have hs : Shows s u := by
    rw [← hu]
    exact .irq _ _ (.setFlag _ _ _ (.setFlag _ _ _ (.refl s)))
  have hc := u.safeUpdate_causes
  have h3' : bit (u.safeUpdate.page 16).irqStat 9 = true := by
    rw [u.safeUpdate_page]
    exact h3
  generalize u.safeUpdate = w at *
  obtain ⟨q, hq, hr, hk, -⟩ := w.slog_shows slEmg (i + 256 * b2n hard)
  have hp : SameMem w (w.putKpr q) := .refl _
  refine ⟨?_, ?_, hk _ _ h3', ?_, ?_, ?_⟩
  · rw [hr.flag (by decide), hc.regs.flag (by decide), h1]
  · rw [hr.flag (by decide), hc.regs.flag (by decide), h2]
  · exact hg.trans ((hc.regs.mono (by simp +contextual)).trans (hr.mono (by simp +contextual)))
  · exact hs.mem.trans (hc.mem.trans (hp.trans hq.mem))
  · exact hq.pwr.trans (hc.pwr.trans hs.pwr)

theorem execEmgAssert_new {s : State} {i : Fin 4} (hk : s.kprCores = true) (h : s.flag R.KPR_EMG_STAT i.val = false) :
    exec (.emgAssert i) s = .next
      (let r := s.reg (R.KPR_EMG_CFG i.val)
       let u := s.emgMarked i.val (bit r 0)
       let u := if bit r 2 then u.swapIf (spMove .dsp [1, 2] 3 u.spHalf) else u
       if bit r 1 && !u.pwr.saving then u.trip 2 0x106 i.val else u) :=
  if_neg (by rw [hk, h]; decide)

end events

/-- Settles O28: what each event of the keeper does, in and out of service. -/
theorem keeperEvents : Obligations.KeeperEvents := by
  intro s who i val c code detail
  refine ⟨fun hk => ⟨fun hw hs => ?_, fun h => ?_, fun h => ?_, fun h h2 h1 => ?_, fun h => ?_, ?_, ?_, ?_, ?_⟩, fun hk => ⟨?_, ?_, ?_, ?_, ?_⟩,
    ⟨_, s.keeperFault_eq c, s.faultMarked_reads c⟩, ⟨_, s.trip_eq c code detail, s.tripMarked_reads c⟩, fun h => ?_⟩
  · obtain ⟨x, hx⟩ := Option.isSome_iff_exists.mp hw
    exact if_neg (by rw [hx, hk, hs]; simp)
  · exact if_pos (by obtain h | h := h <;> simp [h])
  · exact if_pos (by rw [h]; simp)
  · refine ⟨s.emgMarked i.val (bit (s.reg (R.KPR_EMG_CFG i.val)) 0), (execEmgAssert_new hk h).trans ?_, ?_⟩
    · obtain ⟨-, -, -, -, -, hp⟩ := s.emgMarked_reads i.isLt (bit (s.reg (R.KPR_EMG_CFG i.val)) 0)
      dsimp only
      rw [if_neg (show ¬ bit (s.reg (R.KPR_EMG_CFG i.val)) 2 = true by rw [h2]; decide), if_neg]
      rw [hp]
      obtain h | h := h1 <;> simp [h]
    · obtain ⟨g1, g2, g3, g4, g5, -⟩ := s.emgMarked_reads i.isLt (bit (s.reg (R.KPR_EMG_CFG i.val)) 0)
      exact ⟨g1, g2, g3, g4, g5⟩
  · exact execEmgAssert_new hk h
  · exact congrArg Host.Outcome.next (if_pos hk)
  · exact congrArg Host.Outcome.next (if_pos hk)
  · exact congrArg Host.Outcome.next (if_pos hk)
  · refine ⟨_, congrArg Host.Outcome.next (if_pos hk), ?_⟩
    exact (State.keeperFault_st _ (by decide) 2).trans (State.toFault_st _ 16)
  · exact if_pos (by rw [hk]; simp)
  · exact if_pos (by rw [hk]; rfl)
  · exact congrArg Host.Outcome.next (if_neg (by rw [hk]; decide))
  · exact congrArg Host.Outcome.next (if_neg (by rw [hk]; decide))
  · exact congrArg Host.Outcome.next (if_neg (by rw [hk]; decide))
  · exact congrArg Host.Outcome.next (s.gate_may _ h)

end Sys2Proof.Machine
end

section
/-! The keeper's polls and checks (R324, R594, R603 to R607). -/

namespace Sys2Proof.Machine

section polls
variable (s : State) (k : Kind)

/-- The sequences seen replaced. -/
def State.putSeen (s : State) (z : Tab Nat) : State := s.putKpr { s.kpr with seen := z }

theorem State.putSeen_newestRec (z : Tab Nat) : (s.putSeen z).newestRec k = s.newestRec k := rfl
theorem State.putSeen_seenAt (z : Tab Nat) (o : Nat) : (s.putSeen z).seenAt k o = z.get (fun _ => 0) (o + kindNum k) := rfl
theorem State.putSeen_acts (z : Tab Nat) : (s.putSeen z).acts = s.acts := rfl

theorem State.setSeen_eq (o v : Nat) : s.setSeen k o v = s.putSeen (s.kpr.seen.set (fun _ => 0) (o + kindNum k) v) := rfl
theorem State.putSeen_seen (z : Tab Nat) : (s.putSeen z).kpr.seen = z := rfl
theorem State.putSeen_putSeen (z y : Tab Nat) : (s.putSeen z).putSeen y = s.putSeen y := rfl

/-- A note of the newest sequence changes what was seen of it alone, and not the sequence checked last. -/
theorem State.noteSeq_eq : ∃ z : Tab Nat, s.noteSeq k = s.putSeen z ∧ z.get (fun _ => 0) (20 + kindNum k) = s.seenAt k 20 := by
  unfold State.noteSeq
  dsimp only
  split
  · exact ⟨s.kpr.seen, rfl, rfl⟩
  · rw [State.setSeen_eq, State.setSeen_eq, State.putSeen_putSeen, State.putSeen_seen]
    refine ⟨_, rfl, ?_⟩
    rw [Tab.get_set_ne _ _ _ (by omega), Tab.get_set_ne _ _ _ (by omega)]
    rfl

/-- A free checker takes the newest record that it has not checked. -/
theorem State.pollKind_free (ha : s.acts = true) (hb : s.chkBusy k = false) : ∃ z : Tab Nat, s.pollKind k = (s.putSeen z).startCheck k ∧
    z.get (fun _ => 0) (20 + kindNum k) = s.seenAt k 20 := by
  obtain ⟨z, hz, hs⟩ := s.noteSeq_eq k
  refine ⟨z, ?_, hs⟩
  unfold State.pollKind
  dsimp only
  rw [hz, State.putSeen_acts, ha]
  rw [if_neg (by decide), if_neg]
  change ¬ s.chkBusy k = true
  rw [hb]
  decide

/-- The check of the newest record as it stands. -/
def State.newCheck (s : State) (k : Kind) : Check :=
  ⟨rdBytes s.yard (s.newestRec k).1 256, (s.newestRec k).1, (s.newestRec k).2, s.seenAt k 10, s.limTable, s.regN R.KPR_T_K⟩
/-- The checks that run replaced. -/
def State.putChk (s : State) (c : Tab (Option Check)) : State := s.setKpr fun q => { q with chk := c }
theorem State.putChk_chk (c : Tab (Option Check)) : (s.putChk c).kpr.chk = c := rfl
theorem State.putSeen_chk (z : Tab Nat) : (s.putSeen z).kpr.chk = s.kpr.chk := rfl
theorem State.putChk_acts (c : Tab (Option Check)) : (s.putChk c).acts = s.acts := rfl
theorem State.putChk_mem (c : Tab (Option Check)) : SameMem s (s.putChk c) := .refl s
theorem State.putChk_regs (c : Tab (Option Check)) : (s.putChk c).regs = s.regs := rfl
theorem State.putSeen_mem (z : Tab Nat) : SameMem s (s.putSeen z) := .refl s
theorem State.putSeen_regs (z : Tab Nat) : (s.putSeen z).regs = s.regs := rfl

theorem State.startCheck_new (h : s.seenAt k 20 < (s.newestRec k).2) : s.startCheck k =
    ((s.setSeen k 20 (s.newestRec k).2).setKpr fun q => { q with chk := q.chk.set (fun _ => none) (kindNum k) (some (s.newCheck k)) }).setFlag
      R.KPR_KSTAT (7 + kindNum k) true := by
  unfold State.startCheck
  dsimp only
  rw [if_neg (by omega), State.newCheck]

/-- A check that starts holds the record, the limit table and T_K as they are. -/
theorem State.startCheck_reads (h : s.seenAt k 20 < (s.newestRec k).2) :
    (s.startCheck k).kpr.chk.get (fun _ => none) (kindNum k) = some (s.newCheck k) ∧
    (s.startCheck k).flag R.KPR_KSTAT (7 + kindNum k) = true ∧ RegsBut [R.KPR_KSTAT] s (s.startCheck k) ∧ SameMem s (s.startCheck k) := by
  rw [s.startCheck_new k h, State.setSeen_eq]
  generalize s.kpr.seen.set (fun _ => 0) (20 + kindNum k) (s.newestRec k).2 = z
  generalize s.newCheck k = c
  have h1 : RegsBut [R.KPR_KSTAT] s (s.putSeen z) := .same (.refl _ s) (s.putSeen_regs z)
  have h2 := s.putSeen_mem z
  generalize s.putSeen z = u at *
  refine ⟨?_, ?_, .setFlag _ _ (.same h1 rfl) (by decide), h2.trans (.refl u)⟩
  · change (u.kpr.chk.set (fun _ => none) (kindNum k) (some c)).get _ _ = _
    rw [Tab.get_set, if_pos rfl]
  · rw [State.flag_setFlag _ _ _ _ _ _ (by cases k <;> decide), if_pos ⟨rfl, rfl⟩]

theorem State.pollKind_starts (ha : s.acts = true) (hb : s.chkBusy k = false) (h : s.seenAt k 20 < (s.newestRec k).2) :
    (∃ e, (s.pollKind k).kpr.chk.get (fun _ => none) (kindNum k) = some e ∧ e.at' = (s.newestRec k).1 ∧ e.seq = (s.newestRec k).2 ∧
      e.body = rdBytes s.yard (s.newestRec k).1 256 ∧ e.lim = s.limTable ∧ e.tK = s.regN R.KPR_T_K) ∧
    (s.pollKind k).flag R.KPR_KSTAT (7 + kindNum k) = true ∧ RegsBut [R.KPR_KSTAT] s (s.pollKind k) ∧ SameMem s (s.pollKind k) := by
  obtain ⟨z, hz, hs⟩ := s.pollKind_free k ha hb
  have hn : (s.putSeen z).seenAt k 20 < ((s.putSeen z).newestRec k).2 := by
    rw [State.putSeen_seenAt, State.putSeen_newestRec, hs]
    exact h
  obtain ⟨h1, h2, h3, h4⟩ := (s.putSeen z).startCheck_reads k hn
  rw [hz]
  have hg : RegsBut [R.KPR_KSTAT] s (s.putSeen z) := .same (.refl _ s) rfl
  have hm : SameMem s (s.putSeen z) := .refl s
  have h5 : (s.putSeen z).newestRec k = s.newestRec k := s.putSeen_newestRec k z
  have h6 : (s.putSeen z).limTable = s.limTable := rfl
  have h7 : (s.putSeen z).regN R.KPR_T_K = s.regN R.KPR_T_K := rfl
  have h8 : (s.putSeen z).yard = s.yard := rfl
  generalize s.putSeen z = u at *
  rw [State.newCheck, h5, h6, h7, h8] at h1
  generalize s.newestRec k = a at *
  exact ⟨⟨_, h1, rfl, rfl, rfl, rfl, rfl⟩, h2, hg.trans h3, hm.trans h4⟩

/-- A busy checker takes none. -/
theorem State.pollKind_busy (ha : s.acts = true) (hb : s.chkBusy k = true) : s.pollKind k = s.noteSeq k := by
  obtain ⟨z, hz, -⟩ := s.noteSeq_eq k
  unfold State.pollKind
  dsimp only
  rw [hz, State.putSeen_acts, ha]
  rw [if_neg (by decide), if_pos]
  exact hb

/-- A side that does not act counts a new record as ignored. -/
theorem State.pollKind_ignored (ha : s.acts = false) (h : s.seenAt k 0 < (s.newestRec k).2) :
    (s.pollKind k).reg R.KPR_CHK_IGNORED = s.reg R.KPR_CHK_IGNORED + 1 ∧ (s.pollKind k).kpr.chk = s.kpr.chk := by
  obtain ⟨z, hz, -⟩ := s.noteSeq_eq k
  unfold State.pollKind
  dsimp only
  rw [hz, State.putSeen_acts, ha, if_pos (by decide), if_pos (decide_eq_true h)]
  have h1 : (s.putSeen z).regs = s.regs := s.putSeen_regs z
  have h2 : (s.putSeen z).kpr.chk = s.kpr.chk := s.putSeen_chk z
  generalize s.putSeen z = u at *
  rw [State.setSeen_eq]
  generalize (u.incReg R.KPR_CHK_IGNORED).kpr.seen.set _ _ _ = y
  refine ⟨?_, ((u.incReg R.KPR_CHK_IGNORED).putSeen_chk y).trans h2⟩
  have h3 : ((u.incReg R.KPR_CHK_IGNORED).putSeen y).reg R.KPR_CHK_IGNORED = (u.incReg R.KPR_CHK_IGNORED).reg R.KPR_CHK_IGNORED := rfl
  rw [h3, State.incReg, State.reg_setReg_self, State.reg, h1]
  rfl

end polls

section ends
variable {s : State} {k : Kind} {c : Check}

theorem execCheckDone_some (cut : CheckCut) (us : Word) (hc : s.kpr.chk.get (fun _ => none) (kindNum k) = some c) (hk : s.kprCores = true) :
    exec (.checkDone k cut us) s = if cut = .katFail then .next ((s.endCheck k).keeperFault 3)
      else if !(s.endCheck k).acts then .next ((s.endCheck k).incReg R.KPR_CHK_IGNORED)
      else if rdN (s.endCheck k).yard c.at' 8 ≠ c.seq then .next ((((s.endCheck k).giveVerdict k c 8 us).noteSeq k).startCheck k)
      else .next ((s.endCheck k).giveVerdict k c
        (if (if cut = .readErr then 7 else (s.endCheck k).verdict k c) = 0 ∧ k = .dsp ∧ (s.endCheck k).vetoed then 9
          else if cut = .readErr then 7 else (s.endCheck k).verdict k c) us) := by
  change execCheckDone k cut us s = _
  unfold execCheckDone
  rw [hc]
  exact if_neg (by rw [hk]; decide)

theorem endCheck_eq : ∃ c, s.endCheck k = (s.putChk c).setFlag R.KPR_KSTAT (7 + kindNum k) false :=
  ⟨s.kpr.chk.set (fun _ => none) (kindNum k) none, rfl⟩
theorem endCheck_acts : (s.endCheck k).acts = s.acts := by
  obtain ⟨q, hq⟩ := endCheck_eq (s := s) (k := k)
  rw [hq, ← s.putChk_acts q]
  exact State.acts_congr (State.reg_setReg_ne _ _ (by decide)) (State.reg_setReg_ne _ _ (by decide)) rfl rfl rfl

theorem execCheckDone_none (cut : CheckCut) (us : Word) (h : s.kpr.chk.get (fun _ => none) (kindNum k) = none ∨ s.kprCores = false) :
    exec (.checkDone k cut us) s = .next s := by
  change execCheckDone k cut us s = _
  unfold execCheckDone
  split
  · rfl
  next d hd => exact if_pos (by rw [h.resolve_left (by rw [hd]; exact nofun)]; rfl)

/-- The judgement of a check of a newest record. -/
theorem execCheckDone_judged (cut : CheckCut) (us : Word) (hc : s.kpr.chk.get (fun _ => none) (kindNum k) = some c) (hk : s.kprCores = true)
    (hn : cut ≠ .katFail) (ha : s.acts = true) (hq : rdN s.yard c.at' 8 = c.seq) {v : Nat}
    (hv : (if cut = .readErr then 7 else (s.endCheck k).verdict k c) = v) :
    exec (.checkDone k cut us) s = .next ((s.endCheck k).giveVerdict k c (if v = 0 ∧ k = .dsp ∧ (s.endCheck k).vetoed then 9 else v) us) := by
  have hy : (s.endCheck k).yard = s.yard := rfl
  rw [execCheckDone_some cut us hc hk, if_neg hn, endCheck_acts, ha, hv, hy, if_neg (by decide), if_neg (not_not.mpr hq)]

end ends

theorem execKeeperPoll_eq (s : State) : exec .keeperPoll s = if !s.kprCores || s.kpr.cause != 0 || !s.locked 5 then .next s
    else .next ((s.pollKind .est).pollKind .dsp) := rfl
/-- The registers that show a verdict. -/
def State.verdictShown (s : State) (k : Kind) (c : Check) (v : Nat) (us : Word) : State :=
  s.setRegs [(R.KPR_CHK_LAST, wd (kindNum k + 256 * v)), (R.KPR_CHK_TAG, wd (fieldN c.body 0xC 4)), (R.KPR_CHK_US, us)]
theorem giveVerdict_eq (s : State) (k : Kind) (c : Check) (v : Nat) (us : Word) : s.giveVerdict k c v us =
    if v = 0 then (s.verdictShown k c v us).publishRec k c.body
    else if v = 9 then (s.verdictShown k c v us).incReg R.KPR_CHK_VETOED
    else if v = 8 then (s.verdictShown k c v us).incReg R.KPR_CHK_OVERTAKEN
    else ((((s.verdictShown k c v us).incReg R.KPR_CHK_FAILS).irq kprPage 10).slog slVerdict
      (kindNum k + 256 * v + 2 ^ 32 * fieldN c.body 0xC 4)).ageKind k := rfl

/-- Settles O25: when a check of the keeper starts, and how it is judged. -/
theorem resultChecks : Obligations.ResultChecks := by
  intro s k c cut us v
  refine ⟨fun h => ?_, fun hk hc hl => ?_, s.pollKind_starts k, s.pollKind_busy k, s.pollKind_ignored k, fun hc hk => ⟨?_, fun hn ha => ?_,
    fun hn ha hq => ?_, fun ha hq => ⟨?_, fun hv h => ?_, fun hv hd hw => ?_⟩⟩, execCheckDone_none cut us, ?_⟩
  · rw [execKeeperPoll_eq, if_pos]
    obtain h | h | h := h <;> simp [h]
  · rw [execKeeperPoll_eq, if_neg]
    simp [hk, hc, hl]
  · rw [execCheckDone_some _ us hc hk, if_pos rfl]
  · rw [execCheckDone_some cut us hc hk, if_neg hn, endCheck_acts, ha, if_pos (by decide)]
  · rw [execCheckDone_some cut us hc hk, if_neg hn, endCheck_acts, ha, if_neg (by decide), if_pos]
    exact hq
  · rw [execCheckDone_judged _ us hc hk (by decide) ha hq (if_pos rfl), if_neg (by omega)]
  · rw [execCheckDone_judged _ us hc hk (by decide) ha hq ((if_neg (by decide)).trans hv), if_neg]
    rintro ⟨rfl, rfl, hw⟩
    obtain h | h | h := h
    · exact h rfl
    · cases h
    · rw [h] at hw
      cases hw
  · rw [execCheckDone_judged _ us hc hk (by decide) ha hq ((if_neg (by decide)).trans hv), if_pos ⟨rfl, hd, hw⟩]
  · rw [giveVerdict_eq]
    refine ⟨fun h => if_pos h, fun h => ?_, fun h => ?_, fun h1 h7 => ?_⟩
    · rw [if_neg (by omega), if_pos h, State.verdictShown]
    · rw [if_neg (by omega), if_neg (by omega), if_pos h, State.verdictShown]
    · rw [if_neg (by omega), if_neg (by omega), if_neg (by omega), State.verdictShown]

end Sys2Proof.Machine
end

section
/-! The halts of the logic engine (R355, R356, R385). -/

namespace Sys2Proof.Machine

/-- Whether the side acts hangs on PLK's block as it is shown, on the role and on an agreed stand-down. -/
theorem State.acts_of_shown {s t : State} (h : t.shown 128 = s.shown 128) (hr : t.reg R.PLK_PAIR_STAT = s.reg R.PLK_PAIR_STAT) (hk : t.plk = s.plk) :
    t.acts = s.acts := by
  simp only [State.acts, State.active, h, State.role_congr hr, hk]

/-- Registers that a stop of the cores writes. -/
def coreRegs : List Nat := (List.range 4).map R.LGEC_STAT ++ [R.LGE_PHASE]

section halt
variable (s : State)

/-- The engine's state replaced. -/
def State.putLge (s : State) (q : LgeSt) : State := { s with lge := q }
theorem State.reg_putLge (q : LgeSt) (a : Nat) : (s.putLge q).reg a = s.reg a := rfl
theorem State.flag_putLge (q : LgeSt) (a i : Nat) : (s.putLge q).flag a i = s.flag a i := rfl
theorem State.regs_putLge (q : LgeSt) : (s.putLge q).regs = s.regs := rfl

/-- The cores as they stand once stopped. -/
def State.coresQuiet (s : State) : State :=
  (List.range 4).foldl (fun s c => (s.setFlag (R.LGEC_STAT c) 0 false).setFlag (R.LGEC_STAT c) 1 true) s

theorem State.coresStop_eq : s.coresStop = (s.coresQuiet.setReg R.LGE_PHASE 0).putLge { s.coresQuiet.lge with calls := [] } := by
  simp only [State.coresStop, State.coresQuiet, State.putLge]

theorem State.coresQuiet_shows : Shows s s.coresQuiet :=
  .foldl (fun u _ => .setFlag _ _ _ (.setFlag _ _ _ (.refl u))) _ s
theorem mem_coreRegs {c : Nat} (hc : c < 4) : R.LGEC_STAT c ∈ coreRegs := List.mem_append_left _ (List.mem_map_of_mem (List.mem_range.mpr hc))

theorem State.coresQuiet_regs : RegsBut coreRegs s s.coresQuiet := by
  simp only [State.coresQuiet, List.range, List.range.loop, List.foldl_cons, List.foldl_nil]
  exact .setFlag _ _ (.setFlag _ _ (.setFlag _ _ (.setFlag _ _ (.setFlag _ _ (.setFlag _ _ (.setFlag _ _ (.setFlag _ _ (.refl _ s)
    (by decide)) (by decide)) (by decide)) (by decide)) (by decide)) (by decide)) (by decide)) (by decide)

/-- A stopped core does not run. -/
theorem State.coresQuiet_off {c : Nat} (hc : c < 4) : s.coresQuiet.flag (R.LGEC_STAT c) 0 = false := by
  refine foldl_establish (P := fun u : State => u.flag (R.LGEC_STAT c) 0 = false) (fun u => ?_) (fun u d hu => ?_) (List.mem_range.mpr hc) s
  · rw [State.flag_setFlag _ _ _ _ _ _ (by decide), if_neg (by omega), State.flag_setFlag _ _ _ _ _ _ (by decide), if_pos ⟨rfl, rfl⟩]
  · rw [State.flag_setFlag _ _ _ _ _ _ (by decide), if_neg (by omega), State.flag_setFlag _ _ _ _ _ _ (by decide)]
    split
    · rfl
    · exact hu

/-- The cores stopped: what the engine shows, and what stays. -/
theorem State.coresStop_regs : RegsBut coreRegs s s.coresStop := by
  rw [State.coresStop_eq]
  exact .same (.setReg _ s.coresQuiet_regs (by decide)) (State.regs_putLge _ _)
theorem State.coresStop_shows : ∃ l : LgeSt, Shows (s.putLge l) s.coresStop := by
  have h := s.coresQuiet_shows.setReg R.LGE_PHASE 0
  rw [State.coresStop_eq]
  generalize s.coresQuiet.setReg R.LGE_PHASE 0 = u at *
  obtain ⟨r, x, c, e, rfl⟩ := h
  exact ⟨_, r, x, c, e, rfl⟩
theorem State.coresStop_off {c : Nat} (hc : c < 4) : s.coresStop.flag (R.LGEC_STAT c) 0 = false := by
  have hne : R.LGE_PHASE ≠ R.LGEC_STAT c := by simp only [R.LGEC_STAT, R.LGE_PHASE]; omega
  rw [State.coresStop_eq, State.flag_putLge, State.flag_setReg, if_neg hne.symm, s.coresQuiet_off hc]
theorem State.coresStop_phase : s.coresStop.reg R.LGE_PHASE = 0 := by
  rw [State.coresStop_eq, State.reg_putLge, State.reg_setReg_self]

/-- A block that fails shows it, and changes its own state. -/
theorem State.fail_shows (p code detail : Nat) :
    Shows (s.setBlk p { s.blk p with st := .fault, draining := false, abandoned := true }) (s.fail p code detail) :=
  .emit _ _ _ (.errc _ _ _ (.foldl (fun u _ => .irq _ _ (.irq _ _ (.refl u))) _ _))

/-- A save of the capture changes the saves alone. -/
theorem State.captureSave_eq : ∃ f, s.captureSave = s.setSaves f := by
  unfold State.captureSave State.captureItem
  cases s.lge.capture with
  | none => exact ⟨_, rfl⟩
  | some c => exact ⟨fun v => { v with retained := copyPut v.retained (s.pwr.saves.seq + 1) c, seq := s.pwr.saves.seq + 1 }, rfl⟩

/-- The engine in FAULT with its code, before the capture is saved. -/
def State.lgeFailed (s : State) (code detail : Nat) : State := (s.coresStop.fail lgePage code detail).irq lgePage 8

theorem State.lgeFailed_regs (code detail : Nat) : RegsBut (coreRegs ++ evrRegs) s (s.lgeFailed code detail) :=
  .irq _ _ (.emit _ _ _ (.errc _ _ _ (.same (s.coresStop_regs.mono fun _ h => List.mem_append_left _ h) (State.toFault_regs _ _)))
    fun _ h => List.mem_append_right _ h)

/-- A halt of the LGE leaves the role and what the side does. -/
theorem State.lgeFailed_acts (code detail : Nat) : (s.lgeFailed code detail).acts = s.acts := by
  obtain ⟨l, hl⟩ := s.coresStop_shows
  have hr := s.lgeFailed_regs code detail
  have hc : s.coresStop.blks = s.blks := s.coresStop_sameBlks
  have hs := Shows.irq lgePage 8 (s.coresStop.fail_shows lgePage code detail)
  unfold State.lgeFailed at *
  generalize s.coresStop = u at *
  generalize (u.fail lgePage code detail).irq lgePage 8 = v at *
  have hp : v.pwr = s.pwr := by
    obtain ⟨_, _, _, _, rfl⟩ := hl
    exact hs.pwr
  have hk : v.plk = s.plk := by
    obtain ⟨_, _, _, _, rfl⟩ := hl
    exact hs.plk
  have hb : v.blk 128 = s.blk 128 := by
    rw [State.blk, hs.blks]
    refine ((State.blk_setBlk _ _ _ _).trans (if_neg (by decide))).trans ?_
    rw [State.blk, hc, State.blk]
  refine State.acts_of_shown ?_ (hr.reg (by decide)) hk
  rw [State.shown, State.shown, State.up_congr (hr.reg (by decide)) hp, show firstPage 128 = 128 from rfl, hb]

/-- The halted engine: FAULT with its code, and its cores off. -/
theorem State.haltMarked_reads {code detail : Nat} (hc : code < 0x10000) (hd : detail < 0x10000) :
    ((s.haltMarked code detail).blk 64).st = .fault ∧ ((s.haltMarked code detail).page 64).errcode = wd (code + 0x10000 * detail) ∧
    (s.haltMarked code detail).reg R.LGE_PHASE = 0 ∧ (∀ c, c < 4 → (s.haltMarked code detail).flag (R.LGEC_STAT c) 0 = false) ∧
    (s.haltMarked code detail).acts = s.acts := by
  obtain ⟨f, hf⟩ := (s.lgeFailed code detail).captureSave_eq
  have h : s.haltMarked code detail = (s.lgeFailed code detail).setSaves f := hf
  have hb : ((s.lgeFailed code detail).blk 64).st = .fault := congrArg Blk.st (State.fail_blk _ _ _ _)
  have he : ((s.lgeFailed code detail).page 64).errcode = wd (code + 0x10000 * detail) := by
    rw [State.lgeFailed, State.errcode_irq, State.errcode_fail _ _ hc hd]
  have hr : (s.lgeFailed code detail).reg R.LGE_PHASE = 0 := by
    rw [State.lgeFailed, State.reg_irq, State.reg_fail _ _ _ _ (by decide), State.coresStop_phase]
  have ho (c : Nat) (h : c < 4) : (s.lgeFailed code detail).flag (R.LGEC_STAT c) 0 = false := by
    have hne : R.LGEC_STAT c ∉ evrRegs := by
      simp only [R.LGEC_STAT, evrRegs, R.EVR_LOST, R.EVR_BAD_REC, List.mem_cons, List.not_mem_nil, or_false]
      omega
    rw [State.lgeFailed, State.flag_irq, State.flag, State.reg_fail _ _ _ _ hne]
    exact s.coresStop_off h
  have ha := s.lgeFailed_acts code detail
  rw [h]
  generalize s.lgeFailed code detail = u at *
  exact ⟨hb, he, hr, ho, ha⟩

/-- A halt order on a side that does not act leaves the outputs as they are. -/
theorem State.haltOrder_idle (h0 : s.shown 64 ≠ 0) (h4 : s.shown 64 ≠ 4) {code detail : Nat} (ha : (s.haltMarked code detail).acts = false) :
    s.haltOrder code detail = (s.haltMarked code detail).setLge fun l => { l with safe := true } := by
  rw [State.haltOrder_eq, if_neg (not_or.mpr ⟨h0, h4⟩), if_neg (by rw [ha]; decide), State.setLge]

/-- An exception of a core as it is shown. -/
def State.excShown (s : State) (c : Nat) (mcause : Byte) (pc : Word) : State :=
  (((s.setRegs [(R.LGE_EXC_CORE, wd (c + 256 * mcause.toNat)), (R.LGE_EXC_PC, pc)]).setFlag (R.LGEC_STAT c) 2 true).irq lgePage 9).emit
    evCoreExc lgePage [wd c, wd mcause.toNat, pc]
theorem execCoreException_runs {s : State} {c : Fin 4} (h : s.coreRuns c.val = true) (mcause : Byte) (pc : Word) :
    exec (.coreException c mcause pc) s = .next ((s.excShown c.val mcause pc).haltMark 0x102 c.val) :=
  if_neg (by rw [h]; decide)
theorem State.excShown_reads {c : Nat} (hc : c < 4) (mcause : Byte) (pc : Word) :
    (s.excShown c mcause pc).reg R.LGE_EXC_CORE = wd (c + 256 * mcause.toNat) ∧ (s.excShown c mcause pc).reg R.LGE_EXC_PC = pc ∧
    (s.excShown c mcause pc).flag (R.LGEC_STAT c) 2 = true ∧ bit ((s.excShown c mcause pc).page 64).irqStat 9 = true := by
  have h1 : R.LGEC_STAT c ≠ R.LGE_EXC_CORE := by simp only [R.LGEC_STAT, R.LGE_EXC_CORE]; omega
  have h2 : R.LGEC_STAT c ≠ R.LGE_EXC_PC := by simp only [R.LGEC_STAT, R.LGE_EXC_PC]; omega
  have h3 : R.LGEC_STAT c ∉ evrRegs := by
    simp only [R.LGEC_STAT, evrRegs, R.EVR_LOST, R.EVR_BAD_REC, List.mem_cons, List.not_mem_nil, or_false]
    omega
  simp only [State.excShown, State.setRegs, List.foldl_cons, List.foldl_nil]
  refine ⟨?_, ?_, ?_, CausesKept.emit _ _ _ (.refl _) _ _ (State.bit_irqStat_irq _ _ (by decide))⟩
  · rw [State.reg_emit _ _ _ _ (by decide), State.reg_irq, State.setFlag, State.reg_setReg_ne _ _ h1.symm, State.reg_setReg_ne _ _ (by decide), State.reg_setReg_self]
  · rw [State.reg_emit _ _ _ _ (by decide), State.reg_irq, State.setFlag, State.reg_setReg_ne _ _ h2.symm, State.reg_setReg_self]
  · rw [State.flag, State.reg_emit _ _ _ _ h3, State.reg_irq]
    exact (State.flag_setFlag _ _ _ _ _ _ (by decide)).trans (if_pos ⟨rfl, rfl⟩)

end halt

/-- Settles O34: what a core's exception and a memory error show, and what their halt leaves. -/
theorem logicHalts : Obligations.LogicHalts := by
  intro s c mcause pc code detail
  refine ⟨fun h => ⟨_, execCoreException_runs h mcause pc, s.excShown_reads c.isLt mcause pc⟩, fun h => ?_, fun h0 h4 => ?_, fun h0 h4 ha hc hd => ?_⟩
  · exact if_pos (by rw [h]; rfl)
  · exact if_neg (not_or.mpr ⟨h0, h4⟩)
  · obtain ⟨h1, h2, h3, h5, h6⟩ := s.haltMarked_reads hc hd
    rw [s.haltOrder_idle h0 h4 (h6.trans ha)]
    generalize s.haltMarked code detail = u at *
    exact ⟨h1, h2, h3, rfl, h5⟩

end Sys2Proof.Machine
end

section
/-! The start of a logic cycle (R345 to R351). -/

namespace Sys2Proof.Machine

/-- The bytes of the process image and of the cores' memories replaced. -/
def State.putCores (s : State) (m i : Tab Byte) : State := { s with tcm := m, img := i }

/-- Registers that a snapshot may write. -/
def snapRegs : List Nat := R.LGE_IMG_STAT :: evrRegs

/-- What a snapshot may change: the process image, the cores' memories, and what it shows. -/
structure Snaps (s t : State) : Prop where
  shows : ∃ m i, Shows (s.putCores m i) t
  regs : RegsBut snapRegs s t

section snaps
variable {s t : State}

theorem Snaps.refl (s : State) : Snaps s s := ⟨⟨s.tcm, s.img, .refl s⟩, .refl _ s⟩
theorem Snaps.trans {u : State} (h : Snaps s t) (g : Snaps t u) : Snaps s u := by
  obtain ⟨⟨m, i, r, x, c, e, rfl⟩, hr⟩ := h
  obtain ⟨⟨m', i', r', x', c', e', rfl⟩, gr⟩ := g
  exact ⟨⟨m', i', r', x', c', e', rfl⟩, hr.trans gr⟩
theorem Snaps.ite {p : Prop} [Decidable p] {u v : State} (hu : Snaps s u) (hv : Snaps s v) : Snaps s (if p then u else v) := by
  split
  · exact hu
  · exact hv
theorem Snaps.foldl {β : Type} {f : State → β → State} (hf : ∀ s b, Snaps s (f s b)) (l : List β) (h : Snaps s t) : Snaps s (l.foldl f t) :=
  h.trans (foldl_rel .refl .trans hf l t)
theorem Snaps.putCores (m i : Tab Byte) (h : Snaps s t) : Snaps s (t.putCores m i) :=
  h.trans ⟨⟨m, i, .refl _⟩, .same (.refl _ t) rfl⟩
theorem Snaps.imgPut (a : Nat) (l : List Byte) (h : Snaps s t) : Snaps s (t.imgPut a l) := h.putCores t.tcm (wrBytes t.img a l)
theorem Snaps.setFlag (i : Nat) (b : Bool) (h : Snaps s t) : Snaps s (t.setFlag R.LGE_IMG_STAT i b) :=
  h.trans ⟨⟨t.tcm, t.img, .setFlag _ _ _ (.refl t)⟩, .setFlag _ _ (.refl _ t) (by decide)⟩
theorem Snaps.irq (p i : Nat) (h : Snaps s t) : Snaps s (t.irq p i) :=
  h.trans ⟨⟨t.tcm, t.img, .irq _ _ (.refl t)⟩, .irq _ _ (.refl _ t)⟩
theorem Snaps.emit (k p : Nat) (l : List Word) (h : Snaps s t) : Snaps s (t.emit k p l) :=
  h.trans ⟨⟨t.tcm, t.img, .emit _ _ _ (.refl t)⟩, .emit _ _ _ (.refl _ t) fun _ => List.mem_cons_of_mem _⟩

theorem Snaps.kpr (h : Snaps s t) : t.kpr = s.kpr := by
  obtain ⟨⟨m, i, r, x, c, e, rfl⟩, -⟩ := h
  rfl
theorem Snaps.blks (h : Snaps s t) : t.blks = s.blks := by
  obtain ⟨⟨m, i, r, x, c, e, rfl⟩, -⟩ := h
  rfl
theorem Snaps.lge (h : Snaps s t) : t.lge = s.lge := by
  obtain ⟨⟨m, i, r, x, c, e, rfl⟩, -⟩ := h
  rfl

end snaps

section pieces
variable (s : State) (g : Limg)

theorem State.snapSetpoints_snaps : Snaps s (s.snapSetpoints g) := by
  unfold State.snapSetpoints
  extract_lets h u mis w
  have hw : Snaps s w := .ite (.foldl (fun v _ => .imgPut _ _ (.refl v)) _ (.imgPut _ _ (.refl s))) (.imgPut _ _ (.refl s))
  exact .ite hw (.emit _ _ _ (.irq _ _ (.setFlag _ _ hw)))
theorem State.putInput_snaps (e : MapEnt) : Snaps s (s.putInput e) := .imgPut _ _ (.imgPut _ _ (.refl s))
/-- An input force with the status words that it changes. -/
def forced (g : Limg) (s : State) (f : ForceEnt) : State :=
  g.inmap.foldl (fun s e => if rangesMeet e.addr e.width f.addr f.bytes then s.imgPut (slotAddr e.slot) (leBytes 4 2) else s)
    (s.putCores s.tcm (applyForce s.img f))
theorem State.forceInputs_eq : s.forceInputs g = (s.forceList.filter fun f => decide (f.addr < 0xE0000)).foldl (forced g) s := rfl
theorem forced_snaps (f : ForceEnt) : Snaps s (forced g s f) :=
  .foldl (fun u _ => .ite (.imgPut _ _ (.refl u)) (.refl u)) _ (.putCores _ _ (.refl s))
theorem State.forceInputs_snaps : Snaps s (s.forceInputs g) := by
  rw [State.forceInputs_eq]
  exact .foldl (fun u f => forced_snaps u g f) _ (.refl s)
theorem State.systemBlock_snaps : Snaps s (s.systemBlock g) := .imgPut _ _ (.refl s)

/-- An input slice copied into its core's memory. -/
def sliceIn (s : State) (e : Slice) : State := s.putCores (wrBytes s.tcm (tcmAddr e.core e.tcm) (rdBytes s.img e.addr e.len)) s.img
/-- The whole snapshot. -/
def State.snapped (s : State) (g : Limg) : State :=
  (g.slices.filter fun e => !e.out).foldl sliceIn (((g.inmap.foldl (fun s e => s.putInput e) (s.snapSetpoints g)).forceInputs g).systemBlock g)
theorem State.snapped_snaps : Snaps s (s.snapped g) :=
  .foldl (fun u _ => .putCores _ _ (.refl u)) _ (((Snaps.foldl (fun u e => u.putInput_snaps e) _ (s.snapSetpoints_snaps g)).trans
    (State.forceInputs_snaps _ g)).trans (State.systemBlock_snaps _ g))

/-- A cycle's number, its time and its empty list of calls. -/
def State.cycleBegun (s : State) : State :=
  (s.setReg64 R.LGE_CYCLE_LO R.LGE_CYCLE_HI (s.cycle + 1)).putLge { s.lge with tSnap := s.time.log, calls := [] }
/-- The cores with an instance due run, in phase 2. -/
def State.coresDue (s : State) (g : Limg) : State :=
  (List.range 4).foldl (fun s c => s.setReg (R.LGEC_STAT c) (if s.coreDue g c then 1 else 2)) s
theorem State.coresDue_shows : Shows s (s.coresDue g) := .foldl (fun u _ => .setReg _ _ (.refl u)) _ s
theorem State.coresDue_regs : RegsBut ((List.range 4).map R.LGEC_STAT) s (s.coresDue g) := by
  simp only [State.coresDue, List.range, List.range.loop, List.foldl_cons, List.foldl_nil]
  exact .setReg _ (.setReg _ (.setReg _ (.setReg _ (.refl _ s) (by decide)) (by decide)) (by decide)) (by decide)
theorem coreDue_congr {s t : State} (h : t.cycle = s.cycle) (c : Nat) : t.coreDue g c = s.coreDue g c := by
  rw [State.coreDue, State.coreDue, h]
theorem coreStat_far (c : Nat) : R.LGEC_STAT c ≠ R.LGE_CYCLE_LO ∧ R.LGEC_STAT c ≠ R.LGE_CYCLE_HI ∧ R.LGEC_STAT c ≠ R.LGE_PHASE := by
  simp only [R.LGEC_STAT, R.LGE_CYCLE_LO, R.LGE_CYCLE_HI, R.LGE_PHASE]
  omega
theorem cycle_setReg_stat (c : Nat) (v : Word) : (s.setReg (R.LGEC_STAT c) v).cycle = s.cycle := by
  obtain ⟨h1, h2, -⟩ := coreStat_far c
  rw [State.cycle, State.reg64, State.regN, State.regN, State.reg_setReg_ne _ _ h1.symm, State.reg_setReg_ne _ _ h2.symm]
  rfl
/-- Each core runs exactly if it has an instance due. -/
theorem State.coresDue_stat {c : Nat} (hc : c < 4) : (s.coresDue g).reg (R.LGEC_STAT c) = if s.coreDue g c then 1 else 2 := by
  have h (u v : State) (d : Nat) (hv : v.cycle = u.cycle) : v.coreDue g d = u.coreDue g d := coreDue_congr g hv d
  have key := foldl_establish (b := c)
    (P := fun u : State => u.cycle = s.cycle → u.reg (R.LGEC_STAT c) = if s.coreDue g c then 1 else 2)
    (f := fun u d => u.setReg (R.LGEC_STAT d) (if u.coreDue g d then 1 else 2)) (fun u hu => ?_) (fun u d hP hu => ?_)
    (List.mem_range.mpr hc) s
  · refine key ?_
    exact foldl_fixed State.cycle (fun u d => cycle_setReg_stat u d _) (List.range 4) s
  · rw [cycle_setReg_stat] at hu
    rw [State.reg_setReg_self, h s u c hu]
  · rw [cycle_setReg_stat] at hu
    rw [State.reg_setReg]
    split
    next e =>
      have : c = d := by simp only [R.LGEC_STAT] at e; omega
      rw [this, h s u d hu]
    · exact hP hu

/-- A cycle that starts. -/
def State.cycleStarted (s : State) (g : Limg) : State := ((s.cycleBegun.snapped g).coresDue g).setReg R.LGE_PHASE 2

theorem State.cycleBegun_cycle : s.cycleBegun.cycle = (s.cycle + 1) % 2 ^ 64 := by
  rw [State.cycle, State.cycleBegun, State.reg64, State.regN, State.regN, State.reg_putLge, State.reg_putLge]
  exact s.reg64_setReg64_mod _ (by decide)

/-- What a cycle that starts shows, and what it leaves. -/
theorem State.cycleStarted_reads : (s.cycleStarted g).cycle = (s.cycle + 1) % 2 ^ 64 ∧ (s.cycleStarted g).reg R.LGE_PHASE = 2 ∧
    (s.cycleStarted g).lge = { s.lge with tSnap := s.time.log, calls := [] } ∧
    (∀ c, c < 4 → (s.cycleStarted g).reg (R.LGEC_STAT c) = if (s.cycleStarted g).coreDue g c then 1 else 2) ∧
    (s.cycleStarted g).kpr = s.kpr ∧ (s.cycleStarted g).blks = s.blks := by
  have hc := s.cycleBegun_cycle
  have hl : s.cycleBegun.lge = { s.lge with tSnap := s.time.log, calls := [] } := rfl
  have hk : s.cycleBegun.kpr = s.kpr := rfl
  have hb : s.cycleBegun.blks = s.blks := rfl
  unfold State.cycleStarted
  generalize s.cycleBegun = u at *
  have hs := u.snapped_snaps g
  have h1 : (u.snapped g).cycle = u.cycle := by
    simp only [State.cycle, State.reg64, hs.regs.regN (a := R.LGE_CYCLE_LO) (by decide), hs.regs.regN (a := R.LGE_CYCLE_HI) (by decide)]
  generalize u.snapped g = v at *
  have hd := v.coresDue_shows g
  have h2 : ((v.coresDue g).setReg R.LGE_PHASE 2).cycle = v.cycle := by
    have hr := v.coresDue_regs g
    simp only [State.cycle, State.reg64, State.regN, State.reg_setReg_ne _ _ (show R.LGE_CYCLE_LO ≠ R.LGE_PHASE by decide),
      State.reg_setReg_ne _ _ (show R.LGE_CYCLE_HI ≠ R.LGE_PHASE by decide), hr.reg (a := R.LGE_CYCLE_LO) (by decide),
      hr.reg (a := R.LGE_CYCLE_HI) (by decide)]
  refine ⟨h2.trans (h1.trans hc), State.reg_setReg_self _ _ _, (hd.lge.trans hs.lge).trans hl, fun c hc => ?_, (hd.kpr.trans hs.kpr).trans hk,
    (hd.blks.trans hs.blks).trans hb⟩
  obtain ⟨-, -, h3⟩ := coreStat_far c
  rw [State.reg_setReg_ne _ _ h3, v.coresDue_stat g hc, coreDue_congr g h2]

/-- The times of the cycle before change registers that nothing else here reads. -/
theorem State.cycleTimes_shows : Shows s s.cycleTimes := .ite (.ite (.setReg _ _ (.setReg _ _ (.refl s))) (.setReg _ _ (.refl s))) (.refl s)
theorem State.cycleTimes_regs : RegsBut [R.LGE_LAST_US, R.LGE_MAX_US] s s.cycleTimes :=
  .ite (.ite (.setReg _ (.setReg _ (.refl _ s) (by decide)) (by decide)) (.setReg _ (.refl _ s) (by decide))) (.refl _ s)
theorem State.cycleTimes_shown (p : Nat) : s.cycleTimes.shown p = s.shown p :=
  State.shown_congr (s.cycleTimes_regs.reg (by decide)) s.cycleTimes_shows.pwr s.cycleTimes_shows.blks p
theorem State.cycleTimes_cycle : s.cycleTimes.cycle = s.cycle := by
  have hr := s.cycleTimes_regs
  simp only [State.cycle, State.reg64, hr.regN (a := R.LGE_CYCLE_LO) (by decide), hr.regN (a := R.LGE_CYCLE_HI) (by decide)]

/-- A RUN-marked read where no trip stands starts the watchdog anew. -/
theorem State.runMark_free (h : s.kpr.trip = false) :
    s.runMark = s.putKpr { s.kpr with wdFrom := some s.time.kpr, lastRun := s.time.kpr } :=
  if_neg (by simp [h])
theorem State.shown_putKpr (q : KprSt) (p : Nat) : (s.putKpr q).shown p = s.shown p := rfl
theorem State.cycle_putKpr (q : KprSt) : (s.putKpr q).cycle = s.cycle := rfl

/-- The mark of the read that starts a cycle. -/
def State.cycleMarked (s : State) : State := if s.cycleTimes.running lgePage then s.cycleTimes.runMark else s.cycleTimes.stopMark

theorem execCycleSnapshot_starts {s : State} {g : Limg} (hg : s.lge.image = some g) (ha : s.acts = true) (hp : s.pwr.saving = false)
    (h6 : s.regN R.LGE_PHASE = 0 ∨ s.regN R.LGE_PHASE = 6) (hs : s.active 64 = true) :
    exec .cycleSnapshot s = if s.cycleMarked.shown lgePage = 4 then .next s.cycleMarked else .next (s.cycleMarked.cycleStarted g) := by
  change execCycleSnapshot s = _
  unfold execCycleSnapshot
  rw [hg]
  dsimp only
  rw [if_neg]
  · rfl
  · rw [hs, ha, hp]
    simp
    omega

end pieces

/-- Settles O31: when a logic cycle starts, what it shows then, and what a standing trip does. -/
theorem logicCycleStarts : Obligations.LogicCycleStarts := by
  intro s g hg ha hp h6
  refine ⟨fun h3 ht => ?_, fun h2 => ?_, fun ht hv => ?_, fun h3 h4 => ?_⟩
  · have hr : s.cycleTimes.running lgePage = true := by rw [State.running, s.cycleTimes_shown, h3]; rfl
    have hm : s.cycleMarked = s.cycleTimes.putKpr _ := (if_pos hr).trans (State.runMark_free _ (by rw [s.cycleTimes_shows.kpr, ht]))
    obtain ⟨c1, c2, c3, c4, c5, c6⟩ := s.cycleMarked.cycleStarted_reads g
    refine ⟨_, (execCycleSnapshot_starts hg ha hp h6 (by rw [State.active, h3]; rfl)).trans (if_neg ?_), ?_⟩
    · rw [hm, State.shown_putKpr, s.cycleTimes_shown, h3]
      decide
    · have e1 : s.cycleMarked.cycle = s.cycle := by rw [hm, State.cycle_putKpr, s.cycleTimes_cycle]
      have e2 : s.cycleMarked.lge = s.lge := by rw [hm]; exact s.cycleTimes_shows.lge
      have e3 : s.cycleMarked.time = s.time := by rw [hm]; exact s.cycleTimes_shows.time
      have e4 : s.cycleMarked.blks = s.blks := by rw [hm]; exact s.cycleTimes_shows.blks
      have e5 : s.cycleMarked.kpr.wdFrom = some s.time.kpr ∧ s.cycleMarked.kpr.lastRun = s.time.kpr := by
        rw [hm, ← s.cycleTimes_shows.time]
        exact ⟨rfl, rfl⟩
      rw [e1] at c1
      rw [e2, e3] at c3
      rw [e4] at c6
      generalize s.cycleMarked.cycleStarted g = t at *
      dsimp only
      rw [c3, c5]
      exact ⟨c1, c2, hg, rfl, rfl, c4, e5.1, e5.2, c6⟩
  · have hr : ¬ s.cycleTimes.running lgePage = true := by rw [State.running, s.cycleTimes_shown, h2]; decide
    have hm : s.cycleMarked = s.cycleTimes.stopMark := if_neg hr
    obtain ⟨c1, c2, -, -, c5, -⟩ := s.cycleMarked.cycleStarted_reads g
    refine ⟨_, (execCycleSnapshot_starts hg ha hp h6 (by rw [State.active, h2]; rfl)).trans (if_neg ?_), ?_⟩
    · rw [hm, State.stopMark, ← State.putKpr, State.shown_putKpr, s.cycleTimes_shown, h2]
      decide
    · have e1 : s.cycleMarked.cycle = s.cycle := by rw [hm, State.stopMark, ← State.putKpr, State.cycle_putKpr, s.cycleTimes_cycle]
      have e5 : s.cycleMarked.kpr.wdFrom = none := by rw [hm]; rfl
      rw [e1] at c1
      generalize s.cycleMarked.cycleStarted g = t at *
      dsimp only
      rw [c5]
      exact ⟨c1, e5, c2⟩
  · exact if_pos (by simp [ht, hv, hp])
  · have hr : s.cycleTimes.running lgePage = true := by rw [State.running, s.cycleTimes_shown, h3]; rfl
    have hm : s.cycleMarked = s.cycleTimes.runMark := if_pos hr
    rw [execCycleSnapshot_starts hg ha hp h6 (by rw [State.active, h3]; rfl), hm, if_pos h4]

end Sys2Proof.Machine
end

section
/-! The end of a logic cycle (R346, R352, R364, R552). -/

namespace Sys2Proof.Machine

/-- A cycle's outputs driven, its queued writes applied and its capture taken. -/
def State.outputDone (s : State) (g : Limg) (stores : List TcmStore) (us : List Word) : State :=
  let u := (((((s.coreStores stores).execTimes us).setReg R.LGE_PHASE 3).gatherOutput g).driveAll g).applyCalls
  ((u.outputEnd u.lge.firstOut).setLge fun l => { l with firstOut := false }).takeCapture
/-- The state after OUTPUT: a stand-down that waited takes effect, where the engine still runs its cycle. -/
def State.outputLeft (u : State) : State :=
  if u.shown 64 ≠ 3 ∧ u.shown 64 ≠ 2 then u
  else match u.plk.standTo with
    | some r => (u.setReg R.LGE_PHASE 4).standDown r
    | none => u.setReg R.LGE_PHASE 4

/-- The outcome of that. -/
def outFinish (u : State) : Host.Outcome State Fault Refusal :=
  if u.shown lgePage ≠ 3 ∧ u.shown lgePage ≠ 2 then .next u
  else
    let s := u.setReg R.LGE_PHASE 4
    match s.plk.standTo with
    | some r => .next (s.standDown r)
    | none => .next s
theorem outFinish_eq (u : State) : outFinish u = .next u.outputLeft := by
  unfold outFinish State.outputLeft
  split
  · rfl
  · change (match u.plk.standTo with | some r => _ | none => _) = _
    cases u.plk.standTo with
    | none => rfl
    | some r => rfl

/-- A cycle whose cores have returned. -/
theorem execExecuteDone_image {s : State} {g : Limg} (hg : s.lge.image = some g) (stores : List TcmStore) (us : List Word)
    (hc : ¬ (!s.active lgePage ∨ !s.acts ∨ s.pwr.saving ∨ s.regN R.LGE_PHASE ≠ 2)) :
    exec (.executeDone stores us) s = .next (s.outputDone g stores us).outputLeft := by
  rw [← outFinish_eq]
  change execExecuteDone stores us s = _
  unfold execExecuteDone
  rw [hg]
  dsimp -zeta only
  split
  next h => exact absurd h hc
  extract_lets a b c
  have h : s.outputDone g stores us = c := rfl
  clear_value c
  rw [h]
  unfold outFinish
  split
  · rfl
  · rcases ho : (c.setReg R.LGE_PHASE 4).plk.standTo with _ | r
    · simp only [ho]
      rfl
    · simp only [ho]
      rfl

/-- The frame of a cycle sent, its set published and its commands delivered. -/
def State.frameSent (s : State) : State :=
  let last := s.plk.finalReq
  let u := ((((s.sendFrame (last && !s.leaseMode)).setReg R.LGE_PHASE 5).publish.setLge fun l => { l with first := false }).setReg
    R.LGE_PHASE 6).deliverAll 0x40040000
  if last && u.acts then u.switchEnd else u
theorem execFrameTaken_eq (s : State) : exec .frameTaken s =
    if !s.active lgePage ∨ !s.acts ∨ s.pwr.saving ∨ s.regN R.LGE_PHASE ≠ 4 then .next s else .next s.frameSent := rfl

/-- Settles O32: the order in which a cycle's outputs, frame, set and commands follow each other. -/
theorem logicCycleEnds : Obligations.LogicCycleEnds := by
  intro s g stores us h1 h2 h3
  refine ⟨fun hg hp => ?_, fun hp => ?_, fun hp => ?_, fun hp => ?_⟩
  · rw [execExecuteDone_image hg stores us (by rw [h1, h2, h3, hp]; simp)]
    extract_lets a b
    have h : s.outputDone g stores us = b := rfl
    clear_value b
    rw [h]
    unfold State.outputLeft
    split
    · rfl
    · cases b.plk.standTo <;> rfl
  · rw [execFrameTaken_eq, if_neg, State.frameSent]
    rw [h1, h2, h3, hp]
    simp
  · change execExecuteDone stores us s = _
    unfold execExecuteDone
    split
    · rfl
    · exact if_pos (.inr (.inr (.inr hp)))
  · rw [execFrameTaken_eq, if_pos (.inr (.inr (.inr hp)))]

end Sys2Proof.Machine
end

section
/-! Stalls: their state, their frames, and the layer of facts about them (R386 to R425). -/

namespace Sys2Proof.Machine

/-! ### Sending a frame -/

/-- The ports replaced. -/
def State.putEth (s : State) (e : Tab EthPort) : State := { s with eth := e }

/-- What a send on a port may change: the ports, the count of frames dropped, and its cause. No register below the ports' pages changes. -/
structure Sends (s t : State) : Prop where
  shows : ∃ e, Shows (s.putEth e) t
  regs : ∀ a, a < 0x40070000 → t.reg a = s.reg a

section sends
variable {s t : State}

theorem Sends.refl (s : State) : Sends s s := ⟨⟨s.eth, .refl s⟩, fun _ _ => rfl⟩
theorem Sends.ite {p : Prop} [Decidable p] {u v : State} (hu : Sends s u) (hv : Sends s v) : Sends s (if p then u else v) := by
  split
  · exact hu
  · exact hv
theorem Sends.setPort (s : State) (i : Nat) (p : EthPort) : Sends s (s.setPort i p) := ⟨⟨_, .refl _⟩, fun _ _ => rfl⟩
theorem Sends.dropCtl (s : State) (i : Nat) (b : Bool) : Sends s (s.dropCtl i b) := by
  refine ⟨⟨s.eth, .irq _ _ (.setReg _ _ (.refl s))⟩, fun a ha => ?_⟩
  have hne : a ≠ R.ETH_DROP_CTL i := by simp only [R.ETH_DROP_CTL]; omega
  exact State.reg_setReg_ne _ _ hne
theorem Sends.ethSend (s : State) (i : Nat) (q : EthQueue) (f : List Byte) : Sends s (s.ethSend i q f) := by
  unfold State.ethSend
  cases q
  · exact .ite (.setPort _ _ _) (.refl s)
  · exact .ite (.setPort _ _ _) (.dropCtl s _ _)
  · exact .ite (.setPort _ _ _) (.dropCtl s _ _)
  · exact .ite (.setPort _ _ _) (.refl s)
theorem Sends.ethSendTo (s : State) (i : Nat) (q : EthQueue) (ip f : List Byte) : Sends s (s.ethSendTo i q ip f) :=
  .ite (.ethSend s i q f) (.setPort _ _ _)

theorem Sends.mem (h : Sends s t) : SameMem s t := by
  obtain ⟨⟨e, he⟩, -⟩ := h
  exact (show SameMem s (s.putEth e) from .refl s).trans he.mem
theorem Sends.stalls (h : Sends s t) : t.stalls = s.stalls := by
  obtain ⟨⟨e, r, x, c, v, rfl⟩, -⟩ := h
  rfl
theorem Sends.stall (h : Sends s t) (k : Nat) : t.stall k = s.stall k := State.stall_congr h.stalls k

end sends

/-! ### The state of a stall -/

section stall
variable (s : State) (k : Nat)

/-- The stalls replaced. -/
def State.putStalls (s : State) (x : Tab Stall) : State := { s with stalls := x }

/-- A change of a stall's state shows its cause. -/
theorem State.stTo_shows (st : Nat) : ∃ x, Shows (s.putStalls x) (s.stTo k st) := by
  unfold State.stTo
  dsimp only
  split
  · exact ⟨s.stalls, .refl s⟩
  · exact ⟨_, .ite (.irq _ _ (.refl _)) (.ite (.irq _ _ (.refl _)) (.refl _))⟩

theorem State.stTo_stall (st j : Nat) : (s.stTo k st).stall j = if j = k then { s.stall k with st := st } else s.stall j := by
  unfold State.stTo
  dsimp only
  split
  next h =>
    split
    next e => rw [e, ← h]
    · rfl
  · have h := s.stall_setStall k j { s.stall k with st := st }
    split
    · exact h
    · split
      · exact h
      · exact h
theorem State.stTo_regs (st : Nat) : (s.stTo k st).regs = s.regs := by
  unfold State.stTo
  dsimp only
  split
  · rfl
  · split
    · rfl
    · split
      · rfl
      · rfl
theorem State.stTo_mem (st : Nat) : SameMem s (s.stTo k st) := by
  obtain ⟨x, h⟩ := s.stTo_shows k st
  exact (show SameMem s (s.putStalls x) from .refl s).trans h.mem

/-- A timeout counts towards HELLO_AFTER. -/
theorem State.stMiss_few (h : (s.stall k).misses + 1 < s.fld (R.STB_CFG1 k) 15 12) :
    s.stMiss k = s.setStall k { s.stall k with misses := (s.stall k).misses + 1 } := by
  unfold State.stMiss
  dsimp only
  refine if_neg fun hn => ?_
  exact absurd hn.1 (Nat.not_le.mpr h)

/-! ### Frames of a stall -/

theorem stb_below {k : Nat} (hk : k < 1024) : R.STB_SEQ_LO k < 0x40070000 ∧ R.STB_SEQ_HI k < 0x40070000 := by
  simp only [R.STB_SEQ_LO, R.STB_SEQ_HI]
  omega

/-- The next sequence taken. -/
def State.seqTaken (s : State) (k : Nat) : State := s.setReg64 (R.STB_SEQ_LO k) (R.STB_SEQ_HI k) (s.stSeq k + 1)
/-- The sequence taken and the epoch of the frame noted. -/
def State.frameNoted (s : State) (k : Nat) : State := (s.seqTaken k).setStall k { s.stall k with ep := (s.seqTaken k).epoch }

/-- A frame takes the stall's next sequence, notes its epoch and leaves a port. -/
theorem State.stFrame_sends (m ty flags : Nat) (l : List Byte) (b : Bool) : Sends (s.frameNoted k) (s.stFrame k m ty flags l b).2 := by
  unfold State.stFrame State.stSend State.frameNoted State.seqTaken
  dsimp only
  exact .ethSendTo _ _ _ _ _

theorem State.frameNoted_stall (j : Nat) :
    (s.frameNoted k).stall j = if j = k then { s.stall k with ep := (s.seqTaken k).epoch } else s.stall j :=
  (State.stall_setStall _ _ _ _).trans rfl
theorem State.frameNoted_mem : SameMem s (s.frameNoted k) := by
  have h : SameMem s (s.seqTaken k) := .refl s
  rw [State.frameNoted]
  generalize s.seqTaken k = u at *
  exact h.trans (.refl u)
theorem State.frameNoted_seq (h : s.stSeq k < 2 ^ 64 - 1) : (s.frameNoted k).stSeq k = s.stSeq k + 1 := by
  refine (State.reg64_setReg64 s (n := s.stSeq k + 1) ?_ (by omega) : (s.seqTaken k).stSeq k = _)
  simp only [R.STB_SEQ_LO, R.STB_SEQ_HI]
  omega

theorem State.stFrame_stall (m ty flags : Nat) (l : List Byte) (b : Bool) (j : Nat) :
    (s.stFrame k m ty flags l b).2.stall j = if j = k then { s.stall k with ep := (s.seqTaken k).epoch } else s.stall j :=
  ((s.stFrame_sends k m ty flags l b).stall j).trans (s.frameNoted_stall k j)
theorem State.stFrame_mem (m ty flags : Nat) (l : List Byte) (b : Bool) : SameMem s (s.stFrame k m ty flags l b).2 :=
  (s.frameNoted_mem k).trans (s.stFrame_sends k m ty flags l b).mem
theorem State.stFrame_stSeq {k : Nat} (hk : k < 1024) (h : s.stSeq k < 2 ^ 64 - 1) (m ty flags : Nat) (l : List Byte) (b : Bool) :
    (s.stFrame k m ty flags l b).2.stSeq k = s.stSeq k + 1 := by
  obtain ⟨h1, h2⟩ := stb_below hk
  have hs := s.stFrame_sends k m ty flags l b
  rw [← s.frameNoted_seq k h, State.stSeq, State.stSeq, State.reg64, State.reg64, State.regN, State.regN, hs.regs _ h1, hs.regs _ h2, State.regN,
    State.regN]

end stall

/-! ### Received frames -/

theorem State.lsxFrom_good {s : State} {src : NetAddr} {f : List Byte} {ty : Byte} (h : s.lsxGood src f ty) (go : Nat → State → State) :
    s.lsxFrom src f ty go = go (fieldN f 4 2) s := by
  obtain ⟨h1, h2, h3, h4, h5, h6, h7⟩ := h
  unfold State.lsxFrom
  dsimp only
  rw [if_neg (by simp [h1]), if_neg, if_neg (by simp [h7])]
  rintro (h | h | h | h | ⟨h, h'⟩)
  · rw [h2] at h
    cases h
  · exact h h3
  · omega
  · rw [h5] at h
    cases h
  · exact h6.elim h h'

theorem State.lsxTake_port (s : State) (src : NetAddr) (f : List Byte) : ∃ e, s.lsxTake src f = s.putEth e := by
  unfold State.lsxTake
  dsimp only
  split
  · exact ⟨_, rfl⟩
  · exact ⟨s.eth, rfl⟩

end Sys2Proof.Machine
end

section
/-! Negotiation of a stall (R394 to R398). -/

namespace Sys2Proof.Machine

/-! ### HELLO -/

section hello
variable {s : State} {src : NetAddr} {f : List Byte}

/-- The stall that a hello's UID names, enabled and in a running stable. -/
def State.helloStall (u : State) (f : List Byte) : Option Nat :=
  allStalls.find? fun k => u.stEn k && u.stRun k && u.reg64 (R.STB_UID_LO k) (R.STB_UID_HI k) == (parseHello f).uid
/-- A stall that is enabled has the UID. -/
def State.helloKnown (u : State) (f : List Byte) : Bool :=
  allStalls.any fun k => u.stEn k && u.reg64 (R.STB_UID_LO k) (R.STB_UID_HI k) == (parseHello f).uid

/-- What a hello does for the stall it names. -/
def State.helloTaken (u : State) (src : NetAddr) (f : List Byte) (k : Nat) : Host.Outcome State Fault Refusal :=
  let h := parseHello f
  if !(u.fld (R.STB_PORTS (k / 64)) 5 0).testBit src.eth.val then .next u
  else
    let x := u.stall k
    if u.boundTo k src && u.helloSame k h && x.st != 2 && x.st != 5 then .next (u.helloAck k f)
    else
      let re := x.bound && !u.boundTo k src
      let s := if u.boundTo k src then u else (u.bind k src h).irq (stbPage k) 13
      let s := if re then s.emit evRebind (stbPage k) [wd k] else s
      let t := s.negotiate k h
      if (t.stall k).st = 5 then .next t else .next (((s.helloAck k f).negotiate k h))

theorem execHello_read {u : State} (hu : u = s.lsxTake src f) (hr : u.running stlPage = true) (hl : lsxReadable f = true) (ht : f.getD 2 0 = 1)
    (h48 : 48 ≤ f.length) : exec (.hello src f) s = match u.helloStall f with
      | none => .next (if u.helloKnown f then u else u.incReg R.STL_RX_UNKNOWN)
      | some k => u.helloTaken src f k := by
  subst hu
  change execHello src f s = _
  unfold execHello
  generalize s.lsxTake src f = u at *
  extract_lets v h
  have hh : h = parseHello f := rfl
  have hv : v = u := rfl
  clear_value h v
  subst hh hv
  rw [if_neg (by rw [hr]; decide), if_neg]
  · unfold State.helloStall
    generalize (allStalls.find? fun k => v.stEn k && v.stRun k && v.reg64 (R.STB_UID_LO k) (R.STB_UID_HI k) == (parseHello f).uid) = o
    cases o <;> rfl
  · rw [hl, ht]
    simp
    omega

theorem helloStall_none_of_unknown {u : State} (h : u.helloKnown f = false) : u.helloStall f = none := by
  rw [State.helloStall, List.find?_eq_none]
  rw [State.helloKnown, List.any_eq_false] at h
  intro k hk hc
  simp only [Bool.and_eq_true] at hc
  exact h k hk (by simp only [Bool.and_eq_true]; exact ⟨hc.1.1, hc.2⟩)
theorem helloStall_none_of_idle {u : State} (h : ∀ k, k < 1024 → u.stEn k = true → u.stRun k = false) : u.helloStall f = none := by
  rw [State.helloStall, List.find?_eq_none]
  intro k hk hc
  simp only [Bool.and_eq_true] at hc
  have := h k (List.mem_range.mp hk) hc.1.1
  rw [this] at hc
  cases hc.1.2

theorem helloTaken_same {u : State} {k : Nat} (hp : (u.fld (R.STB_PORTS (k / 64)) 5 0).testBit src.eth.val = true) (hb : u.boundTo k src = true)
    (hs : u.helloSame k (parseHello f) = true) (h2 : (u.stall k).st ≠ 2) (h5 : (u.stall k).st ≠ 5) :
    u.helloTaken src f k = .next (u.helloAck k f) := by
  unfold State.helloTaken
  dsimp only
  rw [if_neg (by rw [hp]; decide), if_pos]
  rw [hb, hs]
  simp [h2, h5]

theorem helloTaken_new {u : State} {k : Nat} (hp : (u.fld (R.STB_PORTS (k / 64)) 5 0).testBit src.eth.val = true)
    (hb : (u.stall k).bound = false) {v : State} (hv : v = (u.bind k src (parseHello f)).irq (stbPage k) 13)
    (h5 : ((v.negotiate k (parseHello f)).stall k).st ≠ 5) :
    u.helloTaken src f k = .next ((v.helloAck k f).negotiate k (parseHello f)) := by
  have hn : u.boundTo k src = false := by rw [State.boundTo, hb]; rfl
  unfold State.helloTaken
  dsimp only
  rw [if_neg (by rw [hp]; decide), if_neg (by rw [hn]; simp), hn, hb, if_neg (show ¬ (false && !false) = true by decide),
    if_neg (show ¬ false = true by decide), ← hv, if_neg h5]

end hello

section refuse
variable (s : State) (k : Nat)

/-- A refused negotiation leaves the stall REFUSED with nothing in flight. -/
theorem State.stRefuse_stall : (s.stRefuse k).stall k = { s.stall k with rd := none, wr := none, st := 5 } := by
  rw [State.stRefuse, State.stall_emit, State.stall_irq, State.stTo_stall, if_pos rfl, State.stall_setStall, if_pos rfl]
theorem State.stRefuse_mem : SameMem s (s.stRefuse k) := by
  have h : SameMem s (s.setStall k { s.stall k with rd := none, wr := none }) := .refl s
  rw [State.stRefuse]
  generalize s.setStall k { s.stall k with rd := none, wr := none } = u at *
  exact (h.trans (u.stTo_mem k 5)).trans (Shows.emit _ _ _ (.irq _ _ (.refl _))).mem

end refuse

/-- Settles O35: what a hello and its answer do to the binding and the negotiation. -/
theorem stallNegotiation : Obligations.StallNegotiation := by
  intro s src f k
  refine ⟨fun u hu hr hl ht h48 => ⟨fun h => ?_, fun h hi => ?_, fun h hp => ⟨fun hb hs h2 h5 => ?_, fun hb v hv h5 => ?_⟩⟩, fun _ => ?_,
    fun hg h2 h48 => ?_, fun hg h2 => ?_⟩
  · change u.helloKnown f = false at h
    rw [execHello_read hu hr hl ht h48, helloStall_none_of_unknown h, h]
    rfl
  · change u.helloKnown f = true at h
    rw [execHello_read hu hr hl ht h48, helloStall_none_of_idle hi, h]
    rfl
  · change u.helloStall f = some k at h
    rw [execHello_read hu hr hl ht h48, h]
    exact helloTaken_same hp hb hs h2 h5
  · change u.helloStall f = some k at h
    rw [execHello_read hu hr hl ht h48, h]
    exact helloTaken_new hp hb hv h5
  · rw [s.stRefuse_stall k]
    exact ⟨rfl, rfl, rfl, s.stRefuse_mem k⟩
  · exact congrArg Host.Outcome.next ((State.lsxFrom_good hg _).trans (if_pos ⟨h2, h48⟩))
  · exact congrArg Host.Outcome.next ((State.lsxFrom_good hg _).trans (if_neg fun h => h2 h.1))

end Sys2Proof.Machine
end

section
/-! A stall's reads (R400 to R403, R415). -/

namespace Sys2Proof.Machine

/-! ### A read that is sent -/

section send
variable (s : State) {k : Nat}

theorem State.sendRead_clear (hr : s.stRun k = true) (ha : s.acts = true) (hb : (s.stall k).bound = true) (hm : (s.stall k).major ≠ 0)
    (h5 : (s.stall k).st ≠ 5) (hn : (s.stall k).rd = none) (p : Bool) :
    s.sendRead k p = (s.stFrame k (s.stall k).major 0x10 (if p then 2 else 0) [] false).2.setStall k
      { (s.stFrame k (s.stall k).major 0x10 (if p then 2 else 0) [] false).2.stall k with rd := some (s.stSeq k) } := by
  unfold State.sendRead
  dsimp only
  rw [if_neg]
  · rfl
  · simp [hr, ha, hb, hm, h5, hn]
theorem State.sendRead_busy {q : Nat} (hn : (s.stall k).rd = some q) (p : Bool) : s.sendRead k p = s := by
  unfold State.sendRead
  dsimp only
  rw [if_pos]
  simp [hn]

/-- A read takes the stall's sequence and leaves every other stall. -/
theorem State.readSent (hk : k < 1024) (hq : s.stSeq k < 2 ^ 64 - 1) (m ty flags : Nat) (l : List Byte) (b : Bool) {u t : State}
    (hu : u = (s.stFrame k m ty flags l b).2) (ht : t = u.setStall k { u.stall k with rd := some (s.stSeq k) }) :
    (t.stall k).rd = some (s.stSeq k) ∧ t.stSeq k = s.stSeq k + 1 ∧ (t.stall k).wr = (s.stall k).wr ∧ SameMem s t ∧
      ∀ j, j ≠ k → t.stall j = s.stall j := by
  have h1 (j : Nat) := hu ▸ s.stFrame_stall k m ty flags l b j
  have h2 : u.stSeq k = s.stSeq k + 1 := hu ▸ s.stFrame_stSeq hk hq m ty flags l b
  have h3 : SameMem s u := hu ▸ s.stFrame_mem k m ty flags l b
  have ht1 (j : Nat) : t.stall j = if j = k then { u.stall k with rd := some (s.stSeq k) } else u.stall j := ht ▸ u.stall_setStall k j _
  have ht2 : t.stSeq k = u.stSeq k := ht ▸ rfl
  have ht3 : SameMem u t := ht ▸ .refl u
  refine ⟨?_, ht2.trans h2, ?_, h3.trans ht3, fun j hj => ?_⟩
  · rw [ht1, if_pos rfl]
  · rw [ht1, if_pos rfl, h1, if_pos rfl]
  · rw [ht1, if_neg hj, h1, if_neg hj]

theorem execRead_online {s : State} {k : Fin 1024} (he : s.stEn k.val = true) (hr : s.stRun k.val = true) (ha : s.acts = true)
    (h3 : (s.stall k.val).st = 3) : exec (.read k) s = .next (s.sendRead k.val false) := by
  change execRead k s = _
  unfold execRead
  dsimp only
  rw [if_neg (by simp [he, hr, ha]), if_neg (by simp [h3])]

end send

/-! ### A reply -/

section reply
variable {s u : State} {src : NetAddr} {f : List Byte} {k q n : Nat}

/-- What a good reply of a stall does. -/
def State.readRsp (u : State) (f : List Byte) (k : Nat) : State :=
  let x := u.stall k
  let n := if x.major = 2 then fieldN (f.drop 24) 0xC 2 else fieldN (f.drop 16) 2 2
  match x.rd with
  | none => u.stErr k 7 0
  | some q =>
    if !seqIs x.major q (lsxSeq f) then u.stErr k 7 0
    else if n ≠ u.stInLen k ∨ fieldN f 6 2 < (if x.major = 2 then 16 else 4) + n then u
    else if (u.winN k 0x20 1).testBit 1 then u.setStall k { x with waiting := some (f, u.time.log), rd := none }
    else u.acceptReply k f u.time.log

theorem execReadRsp_good (hu : u = s.lsxTake src f) (hg : u.lsxGood src f 0x11) (hk : fieldN f 4 2 = k) :
    exec (.readRsp src f) s = .next (u.readRsp f k) := by
  subst hu hk
  exact congrArg Host.Outcome.next (State.lsxFrom_good hg _)

theorem readRsp_late (h : (u.stall k).rd = none ∨ ((u.stall k).rd = some q ∧ seqIs (u.stall k).major q (lsxSeq f) = false)) :
    u.readRsp f k = u.stErr k 7 0 := by
  unfold State.readRsp
  dsimp only
  obtain h | ⟨h, hs⟩ := h
  · rw [h]
  · rw [h]
    exact if_pos (by rw [hs]; rfl)
/-- A reply of the sequence outstanding is judged by its length and by the hold of the buffers. -/
theorem readRsp_of (h : (u.stall k).rd = some q) (hs : seqIs (u.stall k).major q (lsxSeq f) = true)
    (hn : n = (if (u.stall k).major = 2 then fieldN (f.drop 24) 0xC 2 else fieldN (f.drop 16) 2 2)) :
    u.readRsp f k = if n ≠ u.stInLen k ∨ fieldN f 6 2 < (if (u.stall k).major = 2 then 16 else 4) + n then u
      else if (u.winN k 0x20 1).testBit 1 then u.setStall k { u.stall k with waiting := some (f, u.time.log), rd := none }
      else u.acceptReply k f u.time.log := by
  subst hn
  unfold State.readRsp
  dsimp only
  rw [h]
  exact if_neg (by rw [hs]; decide)

end reply

/-! ### An accepted reply -/

/-- What the last steps of an accepted reply keep of the stall. -/
def ReplyKept (k : Nat) (s t : State) : Prop :=
  (t.stall k).rd = (s.stall k).rd ∧ (t.stall k).replied = (s.stall k).replied ∧ (t.stall k).misses = (s.stall k).misses ∧ t.newest k = s.newest k

section accepted
variable {s t : State} {k : Nat}

theorem ReplyKept.refl (s : State) : ReplyKept k s s := ⟨rfl, rfl, rfl, rfl⟩
theorem ReplyKept.trans {u : State} (h : ReplyKept k s t) (g : ReplyKept k t u) : ReplyKept k s u :=
  ⟨g.1.trans h.1, g.2.1.trans h.2.1, g.2.2.1.trans h.2.2.1, g.2.2.2.trans h.2.2.2⟩
theorem ReplyKept.ite {p : Prop} [Decidable p] {u v : State} (hu : ReplyKept k s u) (hv : ReplyKept k s v) : ReplyKept k s (if p then u else v) := by
  split
  · exact hu
  · exact hv
theorem newest_congr (h : t.stallMem = s.stallMem) (k : Nat) : t.newest k = s.newest k := by rw [State.newest, State.winN, h]; rfl

variable (s k)

theorem State.stTo_replyKept (st : Nat) : ReplyKept k s (s.stTo k st) := by
  have h := s.stTo_stall k st k
  rw [if_pos rfl] at h
  obtain ⟨-, -, hm, -⟩ := s.stTo_mem k st
  refine ⟨?_, ?_, ?_, newest_congr hm k⟩ <;> rw [h]
theorem State.countReach_replyKept (e : Nat) : ReplyKept k s (s.countReach k e) := by
  unfold State.countReach
  dsimp only
  refine .ite ?_ (.refl s)
  have h : ((s.setStall k { s.stall k with reached := true }).incReg R.STL_REACH).stall k = { s.stall k with reached := true } :=
    (s.stall_setStall k k _).trans (if_pos rfl)
  refine ⟨?_, ?_, ?_, rfl⟩ <;> rw [h]

/-- Bytes written elsewhere in the window leave NEWEST. -/
theorem newest_winPut {o : Nat} {l : List Byte} (ho : 0x21 ≤ o ∨ o + l.length ≤ 0x20) : (s.winPut k o l).newest k = s.newest k := by
  have h : (s.winPut k o l).winN k 0x20 1 = s.winN k 0x20 1 := rdN_wrBytes_out _ (by omega)
  rw [State.newest, h, State.newest]

theorem State.sendWrite_replyKept : ReplyKept k s (s.sendWrite k) := by
  unfold State.sendWrite
  refine .ite (.refl s) ?_
  extract_lets n data x v r
  have hv : v.stall k = { s.stall k with fenced := false, dirty := false } := (s.stall_setStall k k _).trans (if_pos rfl)
  have hn : v.newest k = s.newest k := rfl
  have hr : r.2.stall k = { v.stall k with ep := (v.seqTaken k).epoch } := (v.stFrame_stall k _ _ _ _ _ k).trans (if_pos rfl)
  obtain ⟨-, -, hm, -⟩ : SameMem v r.2 := v.stFrame_mem k _ _ _ _ _
  have hrn : r.2.newest k = v.newest k := newest_congr hm k
  clear_value v r
  have ht : ((r.2.winPut k 0x1600 data).setStall k { r.2.stall k with wr := some r.1 }).stall k = { r.2.stall k with wr := some r.1 } :=
    (State.stall_setStall _ k k _).trans (if_pos rfl)
  refine ⟨?_, ?_, ?_, ?_⟩
  · rw [ht, hr, hv]
  · rw [ht, hr, hv]
  · rw [ht, hr, hv]
  · exact (newest_winPut r.2 k (l := data) (.inl (by decide))).trans (hrn.trans hn)

theorem newest_lt : s.newest k < 2 := Nat.mod_lt _ (by decide)
/-- NEWEST reads back as it was put. -/
theorem newest_put {b : Nat} (hb : b < 2) : (s.winPut k 0x20 (leBytes 4 b)).newest k = b := by
  have h : rdB (wrBytes s.stallMem (winBase k + 0x20) (leBytes 4 b)) (winBase k + 0x20 + 0) = (leBytes 4 b)[0] :=
    rdB_wrBytes_in (leBytes 4 b) _ 0 _ (by simp)
  have h1 : (s.winPut k 0x20 (leBytes 4 b)).winN k 0x20 1 = b := by
    change leNat [rdB (wrBytes s.stallMem (winBase k + 0x20) (leBytes 4 b)) (winBase k + 0x20 + 0)] = b
    rw [h, leNat, leNat]
    simp only [leBytes, List.getElem_cons_zero, BitVec.toNat_ofNat]
    omega
  rw [State.newest, h1, Nat.mod_eq_of_lt hb]

/-- An accepted reply ends the read, and NEWEST flips. -/
theorem State.acceptReply_reads (f : List Byte) (rx : Nat) :
    ((s.acceptReply k f rx).stall k).rd = none ∧ ((s.acceptReply k f rx).stall k).replied = true ∧ ((s.acceptReply k f rx).stall k).misses = 0 ∧
    (s.acceptReply k f rx).newest k = 1 - s.newest k := by
  unfold State.acceptReply
  extract_lets v2 p flags data acq trust late s1 t b hd s2 s3 s4 s5 wasLoc x s6 s7 s8
  have h1 : s1.newest k = s.newest k := by
    unfold s1
    split
    · rfl
    · rfl
  have hb : b = 1 - s.newest k := congrArg (1 - ·) h1
  have h4 : s4.newest k = b := newest_put s3 k (by omega)
  have h5 : s5.newest k = s4.newest k := by
    unfold s5
    split
    · exact newest_winPut s4 k (.inr (by rw [length_leBytes]; decide))
    · rfl
  have hx : (s6.stall k).rd = none ∧ (s6.stall k).replied = true ∧ (s6.stall k).misses = 0 := by
    have h : s6.stall k = _ := (s5.stall_setStall k k _).trans (if_pos rfl)
    rw [h]
    exact ⟨rfl, rfl, rfl⟩
  have h6 : s6.newest k = s5.newest k := rfl
  clear_value s6
  have h7 : ReplyKept k s6 s7 := .ite (s6.stTo_replyKept k 3) (.refl s6)
  have h8 : ReplyKept k s7 s8 := s7.countReach_replyKept k _
  clear_value s8
  have h9 : ReplyKept k s8 (if wasLoc && !flags.testBit 2 then s8.sendWrite k else s8) := .ite (s8.sendWrite_replyKept k) (.refl s8)
  obtain ⟨g1, g2, g3, g4⟩ := (h7.trans h8).trans h9
  exact ⟨g1.trans hx.1, g2.trans hx.2.1, g3.trans hx.2.2, by rw [g4, h6, h5, h4, hb]⟩

end accepted

/-! ### A read's timeout -/

section timeout
variable {s : State} {k : Fin 1024} {q : Nat}

/-- The timeout as it is counted. -/
def State.readTimed (s : State) (k : Nat) : State :=
  (s.setReg (R.STB_TOUT k) (satIncField (s.reg (R.STB_TOUT k)) 15 0)).setStall k
    { s.stall k with rd := none, rdMiss := (s.stall k).rdMiss + 1 }
theorem State.readTimed_stall (s : State) (k : Nat) :
    (s.readTimed k).stall k = { s.stall k with rd := none, rdMiss := (s.stall k).rdMiss + 1 } :=
  (State.stall_setStall _ k k _).trans (if_pos rfl)
theorem State.readTimed_regs (s : State) (k : Nat) : RegsBut [R.STB_TOUT k] s (s.readTimed k) :=
  .same (.setReg _ (.refl _ s) (List.mem_singleton.mpr rfl)) rfl
theorem State.readTimed_tout (s : State) (k : Nat) : (s.readTimed k).reg (R.STB_TOUT k) = satIncField (s.reg (R.STB_TOUT k)) 15 0 :=
  State.reg_setReg_self _ _ _

/-- The timeout that makes RD_MISS in a row. -/
theorem execReadTimeout_stale (hq : (s.stall k.val).rd = some q) (h3 : (s.stall k.val).st = 3)
    (hf : s.fld (R.STB_CFG3 k.val) 3 0 = (s.stall k.val).rdMiss + 1) :
    exec (.readTimeout k) s = .next (((s.readTimed k.val).stTo k.val 4).stMiss k.val) := by
  have hc : R.STB_CFG3 k.val ∉ [R.STB_TOUT k.val] := by
    simp only [R.STB_CFG3, R.STB_TOUT, List.mem_singleton]
    omega
  have hr : (s.readTimed k.val).fld (R.STB_CFG3 k.val) 3 0 ≤ (s.stall k.val).rdMiss + 1 := by
    rw [(s.readTimed_regs k.val).fld hc, hf]
  change execReadTimeout k s = _
  unfold execReadTimeout
  dsimp only
  rw [if_neg (by rw [hq]; exact Bool.false_ne_true)]
  exact congrArg (fun u => Host.Outcome.next (State.stMiss u k.val)) (if_pos ⟨hr, h3⟩)

end timeout

/-- Settles O36: a read that is sent, its reply, and its timeout. -/
theorem stallReads : Obligations.StallReads := by
  intro s src f k q n t0
  refine ⟨fun he hr ha hb hm h3 => ⟨fun hn hq => ?_, fun hn => ?_⟩, fun u hu hg hk hn => ⟨fun h hs => ⟨fun hl => ?_, fun h1 h2 => ⟨fun h0 => ?_, fun h0 => ?_⟩⟩,
    fun h => ?_⟩, s.acceptReply_reads k.val f t0, fun h => ?_, fun hq h3 hf hm => ?_, fun h => ?_⟩
  · refine ⟨_, execRead_online he hr ha h3, ?_⟩
    rw [s.sendRead_clear hr ha hb hm (by omega) hn]
    exact s.readSent k.isLt hq _ _ _ _ _ rfl rfl
  · rw [execRead_online he hr ha h3, s.sendRead_busy hn]
  · rw [execReadRsp_good hu hg hk, readRsp_of h hs hn, if_pos hl]
  · rw [execReadRsp_good hu hg hk, readRsp_of h hs hn, if_neg (by omega), h0]
    rfl
  · rw [execReadRsp_good hu hg hk, readRsp_of h hs hn, if_neg (by omega), h0]
    rfl
  · rw [execReadRsp_good hu hg hk, readRsp_late h]
  · change execReplyHoldWait k s = _
    unfold execReplyHoldWait
    rw [h]
  · refine ⟨_, execReadTimeout_stale hq h3 hf, ?_⟩
    have h1 := s.readTimed_stall k.val
    have h2 := s.readTimed_regs k.val
    have h4 := s.readTimed_tout k.val
    have h5 : SameMem s (s.readTimed k.val) := .refl s
    generalize s.readTimed k.val = u at *
    have g1 := u.stTo_stall k.val 4 k.val
    have g2 := u.stTo_regs k.val 4
    have g3 := u.stTo_mem k.val 4
    generalize u.stTo k.val 4 = v at *
    rw [if_pos rfl, h1] at g1
    have hc : R.STB_CFG1 k.val ∉ [R.STB_TOUT k.val] := by
      simp only [R.STB_CFG1, R.STB_TOUT, List.mem_singleton]
      omega
    have hv : RegsBut [R.STB_TOUT k.val] s v := .same h2 g2
    rw [v.stMiss_few k.val (by rw [g1, hv.fld hc]; exact hm), g1]
    have e (x : Stall) : (v.setStall k.val x).stall k.val = x := (v.stall_setStall _ _ _).trans (if_pos rfl)
    have er : v.reg (R.STB_TOUT k.val) = _ := (congrArg (fun r => r.get regReset (R.STB_TOUT k.val)) g2).trans h4
    refine ⟨?_, ?_, ?_, er, .same hv rfl, (h5.trans g3).trans (.refl v)⟩
    · exact congrArg Stall.st (e _)
    · exact congrArg Stall.rd (e _)
    · exact congrArg Stall.misses (e _)
  · exact if_pos (by rw [h]; rfl)

end Sys2Proof.Machine
end

section
/-! A stall's writes (R404 to R411). -/

namespace Sys2Proof.Machine

/-! ### Tags and answers -/

section answers
variable (s : State) (k : Nat) (f : List Byte)

/-- A tag that holds leaves the stall but for its mark. -/
theorem State.tagCheck_good (h : (s.tagCheck k f).1 = true) :
    (s.tagCheck k f).2 = s ∨ (s.tagCheck k f).2 = s.setStall k { s.stall k with tagOk := true } := by
  unfold State.tagCheck at h ⊢
  dsimp only at h ⊢
  split at h
  next hm => exact .inl (by rw [if_pos hm])
  next hm =>
    rw [if_neg hm]
    split at h
    next ht => exact .inr (by rw [if_pos ht])
    next ht => cases h
/-- The stall, its registers and the memories behind a good tag. -/
theorem State.tagCheck_kept (h : (s.tagCheck k f).1 = true) : ∃ b, (s.tagCheck k f).2.stall k = { s.stall k with tagOk := b } ∧
    (s.tagCheck k f).2.regs = s.regs ∧ SameMem s (s.tagCheck k f).2 := by
  obtain e | e := s.tagCheck_good k f h <;> rw [e]
  · exact ⟨(s.stall k).tagOk, rfl, rfl, .refl s⟩
  · exact ⟨true, (s.stall_setStall k k _).trans (if_pos rfl), rfl, .refl s⟩

/-- The written bytes acknowledged, with their sequence. -/
def State.ackNoted (s : State) (k q : Nat) : State :=
  ((s.winPut k 0x1800 (s.winBytes k 0x1600 (s.stOutLen k))).setReg64 (R.STB_ACK_LO k) (R.STB_ACK_HI k) q).setStall k
    { s.stall k with wr := none, dirty := false, misses := 0 }
/-- A write that its acknowledgement ends. -/
def State.writeAcked (s : State) (k q e : Nat) : State := (s.ackNoted k q).countReach k e

theorem countReach_stall (e : Nat) : ∃ b, (s.countReach k e).stall k = { s.stall k with reached := b } := by
  unfold State.countReach
  dsimp only
  split
  · exact ⟨true, (s.stall_setStall k k _).trans (if_pos rfl)⟩
  · exact ⟨(s.stall k).reached, rfl⟩
theorem countReach_regs (e : Nat) : RegsBut [R.STL_REACH] s (s.countReach k e) := by
  unfold State.countReach
  dsimp only
  split
  · exact .incReg (.same (.refl _ s) rfl) (by decide)
  · exact .refl _ s
theorem countReach_mem (e : Nat) : SameMem s (s.countReach k e) := by
  unfold State.countReach
  dsimp only
  split
  · exact .refl s
  · exact .refl s

end answers

section acked
variable {s : State} {k q : Nat}

theorem State.writeAcked_reads (hq : q < 2 ^ 64) (e : Nat) : ((s.writeAcked k q e).stall k).wr = none ∧
    ((s.writeAcked k q e).stall k).dirty = false ∧ (s.writeAcked k q e).reg64 (R.STB_ACK_LO k) (R.STB_ACK_HI k) = q ∧
    (s.writeAcked k q e).stallMem = wrBytes s.stallMem (winBase k + 0x1800) (s.winBytes k 0x1600 (s.stOutLen k)) ∧
    (s.writeAcked k q e).yard = s.yard ∧ RegsBut [R.STB_ACK_LO k, R.STB_ACK_HI k, R.STL_REACH] s (s.writeAcked k q e) := by
  have hne : R.STB_ACK_LO k ≠ R.STB_ACK_HI k := by
    simp only [R.STB_ACK_LO, R.STB_ACK_HI]
    omega
  have hl : R.STB_ACK_LO k ∉ [R.STL_REACH] ∧ R.STB_ACK_HI k ∉ [R.STL_REACH] := by
    simp only [R.STB_ACK_LO, R.STB_ACK_HI, R.STL_REACH, List.mem_singleton]
    omega
  have h1 : (s.ackNoted k q).stall k = _ := (State.stall_setStall _ k k _).trans (if_pos rfl)
  have h2 : (s.ackNoted k q).reg64 (R.STB_ACK_LO k) (R.STB_ACK_HI k) = q := State.reg64_setReg64 _ hne hq
  have h3 : RegsBut [R.STB_ACK_LO k, R.STB_ACK_HI k, R.STL_REACH] s (s.ackNoted k q) :=
    .same (.setReg64 q (.same (.refl _ s) (State.winPut_regs s k _ _)) (by simp) (by simp)) (State.setStall_regs _ _ _)
  have h4 : (s.ackNoted k q).stallMem = wrBytes s.stallMem (winBase k + 0x1800) (s.winBytes k 0x1600 (s.stOutLen k)) := rfl
  have h5 : (s.ackNoted k q).yard = s.yard := rfl
  unfold State.writeAcked
  generalize s.ackNoted k q = u at *
  obtain ⟨b, hb⟩ := countReach_stall u k e
  have hr := countReach_regs u k e
  obtain ⟨hy, -, hm, -⟩ := countReach_mem u k e
  rw [hb, h1, hm, hy, State.reg64, State.regN, State.regN, hr.reg hl.1, hr.reg hl.2]
  exact ⟨rfl, rfl, h2, h4, h5, h3.trans (hr.mono fun a ha => by simp only [List.mem_singleton] at ha; simp [ha])⟩

theorem execWriteAck_good {src : NetAddr} {f : List Byte} {u : State} (hu : u = s.lsxTake src f) (hg : u.lsxGood src f 0x13) (hk : fieldN f 4 2 = k)
    (ht : (u.tagCheck k f).1 = true) (hw : (u.stall k).wr = some q) (hq : seqIs (u.stall k).major q (lsxSeq f) = true)
    (hd : (u.stall k).dirty = false) : exec (.writeAck src f) s = .next ((u.tagCheck k f).2.writeAcked k q (lsxEpoch f)) := by
  subst hu hk
  refine congrArg Host.Outcome.next ((State.lsxFrom_good hg _).trans ?_)
  obtain ⟨b, hb, -⟩ := State.tagCheck_kept _ _ f ht
  dsimp only
  rw [if_neg (by rw [ht]; decide)]
  generalize (State.tagCheck _ _ f).2 = v at *
  rw [hb, hw]
  dsimp only
  rw [if_neg (by rw [hq]; decide), if_neg (by rw [hd]; decide), State.writeAcked, State.ackNoted, hb]

end acked

/-! ### A refused write -/

section nak
variable {s : State} {src : NetAddr} {f : List Byte} {k q : Nat}

/-- A stall that a NAK fences: its epoch noted, its cause and code raised, PLK told. -/
def State.nakFenced (s : State) (k e : Nat) : State :=
  let s := (s.setStall k { s.stall k with wr := none, misses := 0, fenced := true }).setReg (R.STB_EPOCH k) (wd e)
  let s := ((s.irq (stbPage k) 10).errc (stbPage k) 0x102 k).emit evFenced (stbPage k) [wd k]
  (s.putPlk { s.plk with fence := true }).irq 128 11

/-- What a good refusal does by its reason. -/
theorem execWriteNak_of {u v : State} (hu : u = s.lsxTake src f) (hg : u.lsxGood src f 0x14) (hk : fieldN f 4 2 = k)
    (ht : (u.tagCheck k f).1 = true) (hv : v = (u.tagCheck k f).2) (hw : (u.stall k).wr = some q)
    (hq : seqIs (u.stall k).major q (lsxSeq f) = true) :
    (fieldN (f.drop (lsxHdrLen f)) 0 1 = 1 → exec (.writeNak src f) s =
      .next ((v.stErr k 23 16).nakFenced k (fieldN (f.drop (lsxHdrLen f)) 4 4)).fenceContest) ∧
    (fieldN (f.drop (lsxHdrLen f)) 0 1 = 5 → exec (.writeNak src f) s =
      .next ((v.stErr k 23 16).setStall k { v.stall k with wr := none, misses := 0, loc := true }).fenceContest) := by
  subst hu hk
  obtain ⟨b, hb, -⟩ := State.tagCheck_kept _ _ f ht
  rw [← hv] at hb
  have hw' : (v.stall (fieldN f 4 2)).wr = some q := by rw [hb, hw]
  have hq' : seqIs (v.stall (fieldN f 4 2)).major q (lsxSeq f) = true := by rw [hb, hq]
  refine ⟨fun h => ?_, fun h => ?_⟩
  · refine congrArg (fun v : State => Host.Outcome.next v.fenceContest) ((State.lsxFrom_good hg _).trans ?_)
    dsimp only
    rw [if_neg (by rw [ht]; decide), ← hv, hw']
    dsimp only
    rw [if_neg (by rw [hq']; decide), h]
    rfl
  · refine congrArg (fun v : State => Host.Outcome.next v.fenceContest) ((State.lsxFrom_good hg _).trans ?_)
    dsimp only
    rw [if_neg (by rw [ht]; decide), ← hv, hw']
    dsimp only
    rw [if_neg (by rw [hq']; decide), h]
    rfl

/-- What a fenced stall shows. -/
theorem State.nakFenced_reads (e : Nat) : ((s.nakFenced k e).stall k).fenced = true ∧ ((s.nakFenced k e).stall k).wr = none ∧
    (s.nakFenced k e).reg (R.STB_EPOCH k) = wd e ∧ (s.nakFenced k e).plk.fence = true ∧
    bit ((s.nakFenced k e).page (stbPage k)).irqStat 10 = true := by
  have he : R.STB_EPOCH k ∉ evrRegs := by
    simp only [R.STB_EPOCH, evrRegs, R.EVR_LOST, R.EVR_BAD_REC, List.mem_cons, List.not_mem_nil, or_false]
    omega
  unfold State.nakFenced
  dsimp only
  have h1 (x : Stall) : ((s.setStall k x).setReg (R.STB_EPOCH k) (wd e)).stall k = x := (s.stall_setStall k k x).trans (if_pos rfl)
  have h2 (x : Stall) : ((s.setStall k x).setReg (R.STB_EPOCH k) (wd e)).reg (R.STB_EPOCH k) = wd e := State.reg_setReg_self _ _ _
  have g1 := h1 { s.stall k with wr := none, misses := 0, fenced := true }
  have g2 := h2 { s.stall k with wr := none, misses := 0, fenced := true }
  generalize (s.setStall k { s.stall k with wr := none, misses := 0, fenced := true }).setReg (R.STB_EPOCH k) (wd e) = u at *
  have h3 : bit ((((u.irq (stbPage k) 10).errc (stbPage k) 0x102 k).emit evFenced (stbPage k) [wd k]).page (stbPage k)).irqStat 10 = true :=
    CausesKept.emit _ _ _ (.errc _ _ _ (.refl _)) _ _ (State.bit_irqStat_irq _ _ (by decide))
  have h4 : (((u.irq (stbPage k) 10).errc (stbPage k) 0x102 k).emit evFenced (stbPage k) [wd k]).stall k = u.stall k := by
    rw [State.stall_emit]
    rfl
  have h5 : (((u.irq (stbPage k) 10).errc (stbPage k) 0x102 k).emit evFenced (stbPage k) [wd k]).reg (R.STB_EPOCH k) = u.reg (R.STB_EPOCH k) := by
    rw [State.reg_emit _ _ _ _ he]
    rfl
  generalize ((u.irq (stbPage k) 10).errc (stbPage k) 0x102 k).emit evFenced (stbPage k) [wd k] = w at *
  refine ⟨?_, ?_, h5.trans g2, rfl, CausesKept.irq _ _ (.refl _) _ _ h3⟩
  · exact (congrArg Stall.fenced h4).trans (congrArg Stall.fenced g1)
  · exact (congrArg Stall.wr h4).trans (congrArg Stall.wr g1)

end nak

/-! ### Timeouts and refreshes -/

section timed
variable {s : State} {k : Fin 1024} {q : Nat}

/-- The timeout as it is counted. -/
def State.writeTimed (s : State) (k : Nat) : State :=
  (s.setReg (R.STB_TOUT k) (satIncField (s.reg (R.STB_TOUT k)) 31 16)).setStall k { s.stall k with wr := none }
theorem execWriteTimeout_online (hq : (s.stall k.val).wr = some q) (h3 : (s.stall k.val).st = 3) :
    exec (.writeTimeout k) s = .next ((((s.writeTimed k.val).stTo k.val 4).stMiss k.val).sendWrite k.val) := by
  change execWriteTimeout k s = _
  unfold execWriteTimeout
  dsimp only
  rw [if_neg (by rw [hq]; exact Bool.false_ne_true), if_pos h3]
  rfl

/-- A write that may be sent takes the next sequence. -/
theorem State.sendWrite_reads (s : State) {k : Nat} (hk : k < 1024) : ((s.sendWrite k).stall k).st = (s.stall k).st ∧
    ((s.sendWrite k).stall k).misses = (s.stall k).misses ∧
    (((s.sendWrite k).stall k).wr = (s.stall k).wr ∨ ((s.sendWrite k).stall k).wr = some (s.stSeq k)) ∧
    (s.sendWrite k).reg (R.STB_TOUT k) = s.reg (R.STB_TOUT k) := by
  unfold State.sendWrite
  split
  · exact ⟨rfl, rfl, .inl rfl, rfl⟩
  extract_lets n data x v r
  have ht : R.STB_TOUT k < 0x40070000 ∧ R.STB_TOUT k ≠ R.STB_SEQ_LO k ∧ R.STB_TOUT k ≠ R.STB_SEQ_HI k := by
    simp only [R.STB_TOUT, R.STB_SEQ_LO, R.STB_SEQ_HI]
    omega
  have hv : v.stall k = { s.stall k with fenced := false, dirty := false } := (s.stall_setStall k k _).trans (if_pos rfl)
  have hs : v.stSeq k = s.stSeq k := rfl
  have hg : v.reg (R.STB_TOUT k) = s.reg (R.STB_TOUT k) := rfl
  have hr : r.2.stall k = { v.stall k with ep := (v.seqTaken k).epoch } := (v.stFrame_stall k _ _ _ _ _ k).trans (if_pos rfl)
  have hq : r.1 = v.stSeq k := rfl
  have hf : r.2.reg (R.STB_TOUT k) = (v.frameNoted k).reg (R.STB_TOUT k) := (v.stFrame_sends k _ _ _ _ _).regs _ ht.1
  have hn : (v.frameNoted k).reg (R.STB_TOUT k) = v.reg (R.STB_TOUT k) :=
    (State.reg_setReg_ne _ _ ht.2.2).trans (State.reg_setReg_ne _ _ ht.2.1)
  clear_value v r
  have hw : ((r.2.winPut k 0x1600 data).setStall k { r.2.stall k with wr := some r.1 }).stall k = { r.2.stall k with wr := some r.1 } :=
    (State.stall_setStall _ k k _).trans (if_pos rfl)
  rw [hw, hr, hv, hq, hs]
  exact ⟨rfl, rfl, .inr rfl, hf.trans (hn.trans hg)⟩

/-- A refresh takes the next sequence and sends the acknowledged bytes. -/
theorem State.sendRefresh_reads (s : State) {k : Nat} (hm : s.mayWrite k = true) (hw : (s.stall k).wr = none)
    (ha : s.reg64 (R.STB_ACK_LO k) (R.STB_ACK_HI k) ≠ 0) : ((s.sendRefresh k).stall k).wr = some (s.stSeq k) ∧
    (s.sendRefresh k).stallMem = wrBytes s.stallMem (winBase k + 0x1600) (s.winBytes k 0x1800 (s.stOutLen k)) ∧ (s.sendRefresh k).yard = s.yard := by
  unfold State.sendRefresh
  rw [if_neg (by rw [hm, hw]; simpa using ha)]
  extract_lets n data r
  have hq : r.1 = s.stSeq k := rfl
  obtain ⟨hy, -, hsm, -⟩ : SameMem s r.2 := s.stFrame_mem k _ _ _ _ _
  clear_value r
  have ht : ((r.2.winPut k 0x1600 data).setStall k { r.2.stall k with wr := some r.1 }).stall k = { r.2.stall k with wr := some r.1 } :=
    (State.stall_setStall _ k k _).trans (if_pos rfl)
  refine ⟨?_, ?_, hy⟩
  · rw [ht, hq]
  · exact congrArg (fun m => wrBytes m (winBase k + 0x1600) data) hsm

end timed

/-- Settles O37: what ends a write, and what sends one again. -/
theorem stallWrites : Obligations.StallWrites := by
  intro s src f k q
  refine ⟨fun u hu hk => ⟨fun hg ht hw hq hd hb => ?_, fun hg ht => ?_, fun hg ht hw hq => ⟨fun h1 => ?_, fun h5 => ?_⟩⟩,
    fun hq h3 hm => ?_, fun h => ?_, fun hp hm hw ha => ?_, fun h => ?_⟩
  · refine ⟨_, execWriteAck_good hu hg hk ht hw hq hd, ?_⟩
    have hy : u.yard = s.yard ∧ u.regs = s.regs := by
      obtain ⟨e, he⟩ := s.lsxTake_port src f
      rw [hu, he]
      exact ⟨rfl, rfl⟩
    obtain ⟨c, hc, hr, hmy, -, hm, -⟩ := State.tagCheck_kept _ _ f ht
    obtain ⟨g1, g2, g3, g4, g5, g6⟩ := State.writeAcked_reads (s := (u.tagCheck k.val f).2) (k := k.val) hb (lsxEpoch f)
    have ho : (u.tagCheck k.val f).2.stOutLen k.val = u.stOutLen k.val := by rw [State.stOutLen, State.fld, State.reg, hr]; rfl
    have hw1 : (u.tagCheck k.val f).2.winBytes k.val 0x1600 (u.stOutLen k.val) = u.winBytes k.val 0x1600 (u.stOutLen k.val) := by
      rw [State.winBytes, hm]
      rfl
    rw [ho, hw1, hm] at g4
    have hr0 : RegsBut [R.STB_ACK_LO k.val, R.STB_ACK_HI k.val, R.STL_REACH] s (u.tagCheck k.val f).2 := .same (.refl _ s) (hr.trans hy.2)
    exact ⟨g1, g2, g3, g4, (g5.trans hmy).trans hy.1, hr0.trans g6⟩
  · subst hu
    refine congrArg Host.Outcome.next ((State.lsxFrom_good hg _).trans ?_)
    rw [← hk] at ht
    dsimp only
    rw [if_pos (by rw [ht]; rfl), hk]
  · obtain ⟨h, -⟩ := execWriteNak_of hu hg hk ht rfl hw hq
    exact ⟨_, h h1, State.nakFenced_reads _⟩
  · obtain ⟨-, h⟩ := execWriteNak_of hu hg hk ht rfl hw hq
    refine ⟨_, h h5, ?_⟩
    rw [State.stall_setStall, if_pos rfl]
    exact ⟨rfl, rfl⟩
  · refine ⟨_, execWriteTimeout_online hq h3, ?_⟩
    have h1 : (s.writeTimed k.val).stall k.val = { s.stall k.val with wr := none } := (State.stall_setStall _ _ _ _).trans (if_pos rfl)
    have h2 : RegsBut [R.STB_TOUT k.val] s (s.writeTimed k.val) := .same (.setReg _ (.refl _ s) (List.mem_singleton.mpr rfl)) rfl
    have h4 : (s.writeTimed k.val).reg (R.STB_TOUT k.val) = satIncField (s.reg (R.STB_TOUT k.val)) 31 16 := State.reg_setReg_self _ _ _
    generalize s.writeTimed k.val = u at *
    have g1 := u.stTo_stall k.val 4 k.val
    have g2 := u.stTo_regs k.val 4
    generalize u.stTo k.val 4 = v at *
    rw [if_pos rfl, h1] at g1
    have hc : R.STB_CFG1 k.val ∉ [R.STB_TOUT k.val] ∧ R.STB_SEQ_LO k.val ∉ [R.STB_TOUT k.val] ∧ R.STB_SEQ_HI k.val ∉ [R.STB_TOUT k.val] := by
      simp only [R.STB_CFG1, R.STB_TOUT, R.STB_SEQ_LO, R.STB_SEQ_HI, List.mem_singleton]
      omega
    have hv : RegsBut [R.STB_TOUT k.val] s v := .same h2 g2
    rw [v.stMiss_few k.val (by rw [g1, hv.fld hc.1]; exact hm), g1]
    have e (x : Stall) : (v.setStall k.val x).stall k.val = x := (v.stall_setStall _ _ _).trans (if_pos rfl)
    have er (x : Stall) : (v.setStall k.val x).reg (R.STB_TOUT k.val) = _ := (congrArg (fun r => r.get regReset (R.STB_TOUT k.val)) g2).trans h4
    have es (x : Stall) : (v.setStall k.val x).stSeq k.val = s.stSeq k.val := by
      have hx : RegsBut [R.STB_TOUT k.val] s (v.setStall k.val x) := .same hv rfl
      simp only [State.stSeq, State.reg64, hx.regN hc.2.1, hx.regN hc.2.2]
    obtain ⟨w1, w2, w3, w4⟩ := State.sendWrite_reads (v.setStall k.val _) k.isLt
    rw [e] at w1 w2 w3
    rw [es] at w3
    rw [er] at w4
    exact ⟨w1, w2, w4, w3⟩
  · exact if_pos (by rw [h]; rfl)
  · exact ⟨_, congrArg Host.Outcome.next (if_neg hp), s.sendRefresh_reads hm hw ha⟩
  · have hs (h : s.reg64 (R.STB_ACK_LO k.val) (R.STB_ACK_HI k.val) = 0) : s.sendRefresh k.val = s := if_pos (.inr (.inr h))
    refine congrArg Host.Outcome.next ?_
    split
    · rfl
    next hn => exact hs (h.resolve_left hn)

end Sys2Proof.Machine
end

section
/-! The command port of SEC and the command quay (R35, R616 to R623, R728). -/

namespace Sys2Proof.Machine

/-! ### The port -/

section port
variable {s : State} {who : Initiator}

theorem execCmdBegin_opens (hm : MayWrite who R.SEC_CMD_CTRL s = true) (hr : s.running secPage = true) (h : s.fld R.SEC_CMD_STAT 1 0 ≠ 1) :
    exec (.cmdBegin who) s = .next (((s.answer 0).setSec fun c => { c with buf := [] }).setReg R.SEC_CMD_STAT 1) :=
  congrArg Host.Outcome.next ((s.gate_may _ hm).trans ((if_neg (by rw [State.running_answer, hr]; decide)).trans (if_neg h)))
theorem execCmdBegin_busy (hm : MayWrite who R.SEC_CMD_CTRL s = true) (hr : s.running secPage = true) (h : s.fld R.SEC_CMD_STAT 1 0 = 1) :
    exec (.cmdBegin who) s = .next ((s.answer 0).errc secPage 0x100 0) :=
  congrArg Host.Outcome.next ((s.gate_may _ hm).trans ((if_neg (by rw [State.running_answer, hr]; decide)).trans (if_pos h)))
theorem execCmdSubmit_open (hm : MayWrite who R.SEC_CMD_CTRL s = true) (hr : s.running secPage = true) (h : s.fld R.SEC_CMD_STAT 1 0 = 1) :
    exec (.cmdSubmit who) s = .next ((s.answer 0).cmdCheck s.cmdBytes) :=
  congrArg Host.Outcome.next ((s.gate_may _ hm).trans (if_neg (by rw [State.running_answer, hr]; simp [h])))
theorem execCmdSubmit_idle (hm : MayWrite who R.SEC_CMD_CTRL s = true) (h : s.fld R.SEC_CMD_STAT 1 0 ≠ 1) :
    exec (.cmdSubmit who) s = .next (s.answer 0) :=
  congrArg Host.Outcome.next ((s.gate_may _ hm).trans (if_pos (.inr h)))
theorem execCmdAbort_eq (hm : MayWrite who R.SEC_CMD_CTRL s = true) (hr : s.running secPage = true) :
    exec (.cmdAbort who) s = .next (s.answer 0).cmdDrop :=
  congrArg Host.Outcome.next ((s.gate_may _ hm).trans (if_pos hr))
theorem execCmdData_open {val : Word} (hm : MayWrite who R.SEC_CMD_DATA s = true) (hr : s.running secPage = true) (h : s.fld R.SEC_CMD_STAT 1 0 = 1) :
    exec (.cmdData who val) s = .next ((s.answer 0).setSec fun c => { c with buf := val :: c.buf }) :=
  congrArg Host.Outcome.next ((s.gate_may _ hm).trans (if_neg (by rw [State.running_answer, hr]; simp [h])))

end port

/-! ### The end of a command -/

section ending
variable (s : State) (res : Nat) (h : List Byte)

/-- The end of a command as it is shown. -/
def State.cmdShown (s : State) (res : Nat) (h : List Byte) : State :=
  ((s.setSec fun c => { c with buf := [] }).setRegs [(R.SEC_CMD_STAT, wd (3 + 256 * res + 65536 * fieldN h 2 1)),
    (R.SEC_CMD_CTR_LO, wd (fieldN h 8 4)), (R.SEC_CMD_CTR_HI, wd (fieldN h 12 4))]).irq secPage 8
theorem State.cmdEnd_eq : s.cmdEnd res h = if res = 0 then s.cmdShown res h
    else (s.cmdShown res h).emit evCmdRefused secPage [wd (fieldN h 1 1), wd (fieldN h 2 1), wd (fieldN h 4 4), wd (fieldN h 8 4),
      wd (fieldN h 12 4), wd res] := rfl

theorem State.cmdEnd_shows : Shows (s.setSec fun c => { c with buf := [] }) (s.cmdEnd res h) := by
  rw [State.cmdEnd_eq]
  have hs : Shows (s.setSec fun c => { c with buf := [] }) (s.cmdShown res h) := .irq _ _ (.setRegs _ (.refl _))
  exact .ite hs (.emit _ _ _ hs)
theorem State.cmdEnd_stat : (s.cmdEnd res h).reg R.SEC_CMD_STAT = wd (3 + 256 * res + 65536 * fieldN h 2 1) := by
  have hs : (s.cmdShown res h).reg R.SEC_CMD_STAT = wd (3 + 256 * res + 65536 * fieldN h 2 1) := by
    simp only [State.cmdShown, State.setRegs, List.foldl_cons, List.foldl_nil]
    rw [State.reg_irq, State.reg_setReg_ne _ _ (by decide), State.reg_setReg_ne _ _ (by decide), State.reg_setReg_self]
  rw [State.cmdEnd_eq]
  split
  · exact hs
  · rw [State.reg_emit _ _ _ _ (by decide), hs]
theorem State.cmdEnd_done : bit ((s.cmdEnd res h).page 32).irqStat 8 = true := by
  have hs : bit ((s.cmdShown res h).page 32).irqStat 8 = true := State.bit_irqStat_irq _ _ (by decide)
  rw [State.cmdEnd_eq]
  split
  · exact hs
  · exact CausesKept.emit _ _ _ (.refl _) _ _ hs
theorem State.cmdEnd_mem : SameMem s (s.cmdEnd res h) := (show SameMem s (s.setSec fun c => { c with buf := [] }) from .refl s).trans
  (s.cmdEnd_shows res h).mem

/-- A stored counter is the slot's last. -/
theorem State.lastCtr_storeCtr (slot n : Nat) : (s.storeCtr slot n).lastCtr slot = n := by
  unfold State.storeCtr State.lastCtr
  split
  · rfl
  · have h : (s.setKey slot { s.key slot with ctr := n }).key slot = { s.key slot with ctr := n } :=
      (Tab.get_set _ _ _ _ _).trans (if_pos rfl)
    dsimp only
    split
    · exact congrArg KeySlot.ctr h
    · exact congrArg KeySlot.ctr h

/-- The result code of the checks, 0 where all pass. -/
def State.cmdResult (s : State) (b : List Byte) : Nat :=
  let slot := fieldN b 2 1
  let t := s.storeCtr slot (fieldN b 8 8)
  if formatBad b then 1 else if s.slotBad (fieldN b 1 1) slot then 2 else if s.tagBad b then 3
    else if fieldN b 8 8 ≤ s.lastCtr slot then 4
    else if t.targetBad (fieldN b 1 1) (fieldN b 4 4) ((b.drop 32).take (fieldN b 0x18 4)) then 5 else 0

/-- A command that a check refuses ends with its code. -/
theorem State.cmdCheck_refused (b : List Byte) (hp : s.pwr.saving = false) (h0 : s.cmdResult b ≠ 0) :
    s.cmdCheck b = (if s.cmdResult b = 5 then s.storeCtr (fieldN b 2 1) (fieldN b 8 8) else s).cmdEnd (s.cmdResult b) b := by
  unfold State.cmdCheck State.cmdResult at *
  rw [hp]
  dsimp only at *
  rw [if_neg (by decide)]
  split
  · rw [if_neg (by decide)]
  split
  · rw [if_neg (by decide)]
  split
  · rw [if_neg (by decide)]
  split
  · rw [if_neg (by decide)]
  split
  · rw [if_pos rfl]
  next h1 h2 h3 h4 h5 => exact absurd (by rw [if_neg h1, if_neg h2, if_neg h3, if_neg h4, if_neg h5]) h0

end ending

/-! ### Delivery -/

section deliver
variable {s : State} {target : Word} {c : QuayCmd}

theorem execCommandDeliver_some (h : (s.sec.queue.find? fun x => x.target == target.toNat) = some c)
    (hb : s.betweenBounds (pageOf target.toNat) = false) (hp : s.pwr.saving = false) :
    exec (.commandDeliver target) s = .next ((s.setSec fun q => { q with queue := q.queue.erase c }).applyCmd c) := by
  change execCommandDeliver target s = _
  unfold execCommandDeliver
  dsimp only
  rw [h, hb]
  dsimp only
  rw [if_neg (by decide), if_neg]
  change ¬ s.pwr.saving = true
  rw [hp]
  decide
theorem execCommandDeliver_none (h : (s.sec.queue.find? fun x => x.target == target.toNat) = none) : exec (.commandDeliver target) s = .next s := by
  change execCommandDeliver target s = _
  unfold execCommandDeliver
  dsimp only
  rw [h]
theorem execCommandDeliver_between (hb : s.betweenBounds (pageOf target.toNat) = true) : exec (.commandDeliver target) s = .next s := by
  change execCommandDeliver target s = _
  unfold execCommandDeliver
  dsimp only
  split
  · rfl
  · rw [if_pos hb]

end deliver

/-- Settles O38: the command port, the order of its checks, and the delivery of what waits. -/
theorem secCommandPort : Obligations.SecCommandPort := by
  intro s who val target b c
  refine ⟨fun hm hr => ⟨fun h => ?_, fun h => ⟨execCmdBegin_busy hm hr h, execCmdSubmit_open hm hr h, ?_⟩, fun h => ⟨execCmdSubmit_idle hm h, ?_⟩⟩,
    fun hm hr h => ?_, fun hp => ⟨?_, s.lastCtr_storeCtr _ _, s.cmdEnd_stat _ b⟩, fun hp h hb => execCommandDeliver_some h hb hp,
    execCommandDeliver_none, execCommandDeliver_between, fun ht => ?_⟩
  · exact ⟨_, execCmdBegin_opens hm hr h, rfl, State.reg_setReg_self _ _ _, .setReg _ (.same (.refl _ s) rfl) (by decide), .refl s⟩
  · refine ⟨_, (execCmdAbort_eq hm hr).trans (congrArg Host.Outcome.next (if_pos h)), State.cmdEnd_stat _ _ _, ?_, State.cmdEnd_done _ _ _,
      (show SameMem s (s.answer 0) from .refl s).trans (State.cmdEnd_mem _ _ _)⟩
    exact (State.cmdEnd_shows _ _ _).sec
  · exact (execCmdAbort_eq hm hr).trans (congrArg Host.Outcome.next (if_neg h))
  · exact ⟨_, execCmdData_open hm hr h, rfl, rfl, .refl s⟩
  · exact (Decidable.em (s.cmdResult b = 0)).imp_right fun h0 => s.cmdCheck_refused b hp h0
  · simp [State.betweenBounds]

end Sys2Proof.Machine
end

section
/-! Updates, measurements and quotes of the security unit (R632 to R640, R728). -/

namespace Sys2Proof.Machine

/-! ### Firmware updates -/

section fw
variable {s : State} {u : FwUpd}

/-- An update that ends is over, with its registers and its cause. -/
theorem State.fwShow_shows (s : State) (st stage check : Nat) : Shows (s.setSec fun c => { c with upd := none }) (s.fwShow st stage check) :=
  .emit _ _ _ (.ite (.errc _ _ _ (.irq _ _ (.setReg _ _ (.refl _)))) (.irq _ _ (.setReg _ _ (.refl _))))
theorem State.fwShow_reads (s : State) (st stage check : Nat) : (s.fwShow st stage check).sec = { s.sec with upd := none } ∧
    (s.fwShow st stage check).reg R.SEC_FW_STAT = wd (st + 256 * stage + 65536 * check) ∧
    bit ((s.fwShow st stage check).page 32).irqStat 9 = true ∧ SameMem s (s.fwShow st stage check) := by
  have hs := s.fwShow_shows st stage check
  refine ⟨hs.sec, ?_, ?_, (show SameMem s (s.setSec fun c => { c with upd := none }) from .refl s).trans hs.mem⟩
  · unfold State.fwShow
    dsimp only
    rw [State.reg_emit _ _ _ _ (by decide)]
    split
    · rw [State.reg_errc, State.reg_irq, State.reg_setReg_self]
    · rw [State.reg_irq, State.reg_setReg_self]
  · unfold State.fwShow
    dsimp only
    refine CausesKept.emit _ _ _ (.ite (.errc _ _ _ (.refl _)) (.refl _)) _ _ (State.bit_irqStat_irq _ _ (by decide))

/-- What an erased slot holds leaves the bytes of the other. -/
theorem slotSpoilt_active (s : State) {k n : Nat} (hn : n < 0x1600) :
    rdB s.slotSpoilt.sec.flash (slotOfs s.sec.boot.active + kindOfs k + n) = rdB s.sec.flash (slotOfs s.sec.boot.active + kindOfs k + n) := by
  have far (j : Nat) : kindOfs j + 0x1600 ≤ 0x1000000 := by
    unfold kindOfs
    split
    · omega
    · split
      · omega
      · omega
  unfold State.slotSpoilt
  dsimp only
  refine foldl_fixed (fun m : Tab Byte => rdB m (slotOfs s.sec.boot.active + kindOfs k + n)) (fun m j => ?_) [1, 2, 3] s.sec.flash
  refine rdB_wrBytes_out _ _ _ _ ?_
  rw [List.length_map, List.length_range]
  have h1 := far k
  have h2 := far j
  cases s.sec.boot.active
  · exact .inl (by rw [show slotOfs false = 0 from rfl, show slotOfs (!false) = 0x1000000 from rfl]; omega)
  · exact .inr (by rw [show slotOfs true = 0x1000000 from rfl, show slotOfs (!true) = 0 from rfl]; omega)

theorem State.slotSpoilt_boot (s : State) : s.slotSpoilt.sec.boot = s.sec.boot := by
  unfold State.slotSpoilt
  rfl
theorem State.slotSpoilt_keys (s : State) : s.slotSpoilt.sec.keys = s.sec.keys := by
  unfold State.slotSpoilt
  rfl
theorem State.slotSpoilt_mem (s : State) : SameMem s s.slotSpoilt := .refl s

end fw

/-! ### Measurements -/

section meas
variable (s : State) (m : Nat) (d : List Byte)

/-- The words of a measurement register replaced. -/
def State.measWords (s : State) (m : Nat) (v : List Byte) : State :=
  (List.range 8).foldl (fun s w => s.setReg (R.SEC_MEAS_W m w) (wd (fieldN v (4 * w) 4))) s
/-- The digest that an extension leaves. -/
def State.measNext (s : State) (m : Nat) (d : List Byte) : List Byte :=
  digest32 (((List.range 8).flatMap fun i => leBytes 4 (s.regN (R.SEC_MEAS_W m i))) ++ d)
theorem State.measExtend_eq : s.measExtend m d =
    ((s.measWords m (s.measNext m d)).incReg (R.SEC_MEAS_CNT m)).emit 160 32 (wd m :: (List.range 8).map fun w => wd (fieldN d (4 * w) 4)) := rfl
theorem State.measExtended_shows : Shows s (s.measExtend m d) :=
  .emit _ _ _ (.incReg _ (.foldl (fun u _ => (Shows.refl u).setReg _ _) _ s))

theorem State.measWords_word (v : List Byte) {w : Nat} (hw : w < 8) : (s.measWords m v).reg (R.SEC_MEAS_W m w) = wd (fieldN v (4 * w) 4) := by
  refine foldl_establish (b := w) (P := fun u : State => u.reg (R.SEC_MEAS_W m w) = wd (fieldN v (4 * w) 4)) (fun u => State.reg_setReg_self _ _ _) (fun u c hu => ?_)
    (List.mem_range.mpr hw) s
  rw [State.reg_setReg]
  split
  next e =>
    have : w = c := by simp only [R.SEC_MEAS_W] at e; omega
    rw [this]
  · exact hu
theorem State.measWords_other (v : List Byte) {a : Nat} (ha : ∀ w, w < 8 → a ≠ R.SEC_MEAS_W m w) : (s.measWords m v).reg a = s.reg a := by
  refine List.foldlRecOn (motive := fun u : State => u.reg a = s.reg a) (List.range 8) _ rfl fun u hu w hw => ?_
  rw [State.reg_setReg_ne _ _ (ha w (List.mem_range.mp hw)), hu]

/-- Register 2 extended: its count and its words. -/
theorem State.measExtend_reads : (s.measExtend 2 d).reg (R.SEC_MEAS_CNT 2) = s.reg (R.SEC_MEAS_CNT 2) + 1 ∧
    ∀ w, w < 8 → (s.measExtend 2 d).reg (R.SEC_MEAS_W 2 w) = wd (fieldN (s.measNext 2 d) (4 * w) 4) := by
  rw [State.measExtend_eq]
  generalize hv : s.measNext 2 d = v
  have hc : (s.measWords 2 v).reg (R.SEC_MEAS_CNT 2) = s.reg (R.SEC_MEAS_CNT 2) :=
    s.measWords_other 2 v fun w hw => by simp only [R.SEC_MEAS_CNT, R.SEC_MEAS_W]; omega
  have hg (w : Nat) (hw : w < 8) := s.measWords_word 2 v hw
  generalize s.measWords 2 v = u at *
  refine ⟨?_, fun w hw => ?_⟩
  · rw [State.reg_emit _ _ _ _ (by decide), State.incReg, State.reg_setReg_self, hc]
  · have h1 : R.SEC_MEAS_W 2 w ∉ evrRegs := by
      simp only [R.SEC_MEAS_W, evrRegs, R.EVR_LOST, R.EVR_BAD_REC, List.mem_cons, List.not_mem_nil, or_false]
      omega
    have h2 : R.SEC_MEAS_W 2 w ≠ R.SEC_MEAS_CNT 2 := by simp only [R.SEC_MEAS_CNT, R.SEC_MEAS_W]; omega
    rw [State.reg_emit _ _ _ _ h1, State.incReg, State.reg_setReg_ne _ _ h2, hg w hw]

end meas

/-! ### Quotes -/

section quotes
variable {s : State} {who : Initiator}

/-- A quote that begins: its bytes are held. -/
def State.quoteHeld (s : State) (b : List Byte) : State := (s.setSec fun c => { c with quote := b }).setReg R.SEC_QUOTE_STAT 1
theorem State.quoteBegin_free {b : List Byte} (hr : s.running secPage = true) (hb : s.fld R.SEC_QUOTE_STAT 1 0 ≠ 1) (hd : s.dramUp = true) :
    s.quoteBegin b = s.quoteHeld b := by
  unfold State.quoteBegin
  rw [if_neg (by rw [hr]; simpa using hb), if_neg (by rw [hd]; decide), State.quoteHeld]
theorem State.quoteHeld_reads (s : State) (b : List Byte) : (s.quoteHeld b).sec = { s.sec with quote := b } ∧ (s.quoteHeld b).reg R.SEC_QUOTE_STAT = 1 ∧
    RegsBut [R.SEC_QUOTE_STAT] s (s.quoteHeld b) ∧ SameMem s (s.quoteHeld b) := by
  have hr : RegsBut [R.SEC_QUOTE_STAT] s (s.setSec fun c => { c with quote := b }) := .same (.refl _ s) rfl
  have hm : SameMem s (s.setSec fun c => { c with quote := b }) := .refl s
  have hc : (s.setSec fun c => { c with quote := b }).sec = { s.sec with quote := b } := rfl
  unfold State.quoteHeld
  generalize (s.setSec fun c => { c with quote := b }) = u at *
  exact ⟨hc, State.reg_setReg_self _ _ _, .setReg _ hr (by decide), hm.trans (.refl u)⟩
theorem quoteBytes_answer (v : Word) : (s.answer v).quoteBytes = s.quoteBytes := rfl

/-- A quote that ends, its bytes written to LPDDR5. -/
def State.quoteWritten (s : State) : State :=
  (((s.setSec fun c => { c with quote := [] }).irq secPage 10).putDram
    (wrBytes s.dram (s.reg64 R.SEC_QUOTE_ADDR_LO R.SEC_QUOTE_ADDR_HI) s.sec.quote)).setReg R.SEC_QUOTE_STAT 2
theorem execQuoteDone_written (ha : s.active 32 = true) (hq : s.fld R.SEC_QUOTE_STAT 1 0 = 1) (hd : s.dramUp = true)
    (hi : inDram (s.reg64 R.SEC_QUOTE_ADDR_LO R.SEC_QUOTE_ADDR_HI) s.sec.quote.length = true) : exec .quoteDone s = .next s.quoteWritten := by
  change execQuoteDone s = _
  unfold execQuoteDone
  dsimp only
  rw [if_neg (by rw [ha]; simp [hq]), if_pos]
  · rfl
  · rw [Bool.and_eq_true]
    exact ⟨hd, hi⟩
theorem State.quoteWritten_reads (s : State) :
    s.quoteWritten.dram = wrBytes s.dram (s.reg64 R.SEC_QUOTE_ADDR_LO R.SEC_QUOTE_ADDR_HI) s.sec.quote ∧ s.quoteWritten.reg R.SEC_QUOTE_STAT = 2 ∧
    bit (s.quoteWritten.page 32).irqStat 10 = true ∧ RegsBut [R.SEC_QUOTE_STAT] s s.quoteWritten ∧ s.quoteWritten.yard = s.yard := by
  have hc : bit (((s.setSec fun c => { c with quote := [] }).irq secPage 10).page 32).irqStat 10 = true := State.bit_irqStat_irq _ _ (by decide)
  have hr : RegsBut [R.SEC_QUOTE_STAT] s ((s.setSec fun c => { c with quote := [] }).irq secPage 10) := .irq _ _ (.same (.refl _ s) rfl)
  have hy : ((s.setSec fun c => { c with quote := [] }).irq secPage 10).yard = s.yard := rfl
  unfold State.quoteWritten
  generalize (s.setSec fun c => { c with quote := [] }).irq secPage 10 = u at *
  generalize wrBytes _ _ _ = m
  exact ⟨rfl, State.reg_setReg_self _ _ _, hc, .setReg _ (.same hr rfl) (by decide), hy⟩

end quotes

/-! ### The start and the confirmation of an update -/

section confirm
variable {s : State} {who : Initiator}

theorem execFwUpdate_starts {b : FwBundle} {bytes : List Byte} (hr : s.running 32 = true) (hp : s.pwr.saving = false) (hu : s.sec.upd = none)
    (hd : s.dramUp = true) (hi : inDram b.addr.toNat bytes.length = true) :
    exec (.fwUpdate b bytes) s = .next ((s.putDram (wrBytes s.dram b.addr.toNat bytes)).fwStart b) := by
  change execFwUpdate b bytes s = _
  unfold execFwUpdate
  rw [if_neg (by rw [hr, hp]; decide), if_neg (by rw [State.fwRefused, hu, hd]; decide)]
  dsimp only
  rw [if_pos hi, State.putDram]
theorem execFwUpdate_refused {b : FwBundle} {bytes : List Byte} (hr : s.running 32 = true) (hp : s.pwr.saving = false) (hf : s.fwRefused = true) :
    exec (.fwUpdate b bytes) s = .next (s.emit evCmdRefused secPage [7, 0, 0x40020000, 0, 0, 5]) := by
  change execFwUpdate b bytes s = _
  unfold execFwUpdate
  rw [if_neg (by rw [hr, hp]; decide), if_pos hf]
theorem State.fwStart_reads (s : State) (b : FwBundle) : (s.fwStart b).sec = { s.sec with upd := some ⟨b.kmask.toNat, b.addr.toNat, b.digest⟩ } ∧
    (s.fwStart b).dram = s.dram ∧ (s.fwStart b).reg R.SEC_FW_STAT = 0x101 ∧ (s.fwStart b).reg R.SEC_FW_DONE_KB = 0 ∧
    RegsBut [R.SEC_FW_STAT, R.SEC_FW_DONE_KB] s (s.fwStart b) ∧ (s.fwStart b).yard = s.yard := by
  have h : s.fwStart b = (((s.setSec fun c => { c with upd := some ⟨b.kmask.toNat, b.addr.toNat, b.digest⟩ }).setReg R.SEC_FW_STAT 0x101).setReg
    R.SEC_FW_DONE_KB 0) := rfl
  have hs : (s.setSec fun c => { c with upd := some ⟨b.kmask.toNat, b.addr.toNat, b.digest⟩ }).regs = s.regs := rfl
  rw [h]
  refine ⟨rfl, rfl, ?_, State.reg_setReg_self _ _ _, .setReg _ (.setReg _ (.same (.refl _ s) hs) (by decide)) (by decide), rfl⟩
  rw [State.reg_setReg_ne _ _ (by decide), State.reg_setReg_self]

/-- The slot that runs is confirmed. -/
def State.confirmed (s : State) : State :=
  let f := (s.sec.boot.floors.zip s.sec.versions).map fun e => max e.1 e.2
  (s.setSec fun c => { c with
    boot := { c.boot with active := c.booted, next := c.booted, trial := false, attempts := 0, invalid := false, floors := f } }).setFlag
      R.SEC_BOOT_STAT 1 false
theorem State.confirmed_reads (s : State) : (s.answer 0).confirmed.sec.boot.active = s.sec.booted ∧
    (s.answer 0).confirmed.sec.boot.next = s.sec.booted ∧ (s.answer 0).confirmed.sec.boot.trial = false ∧
    (s.answer 0).confirmed.sec.boot.attempts = 0 ∧
    (s.answer 0).confirmed.sec.boot.floors = (s.sec.boot.floors.zip s.sec.versions).map (fun e => max e.1 e.2) ∧
    (s.answer 0).confirmed.sec.keys = s.sec.keys ∧ RegsBut [R.SEC_BOOT_STAT] s (s.answer 0).confirmed ∧ SameMem s (s.answer 0).confirmed := by
  refine ⟨rfl, rfl, rfl, rfl, rfl, rfl, ?_, .refl s⟩
  unfold State.confirmed
  dsimp only
  exact .setFlag _ _ (.same (.answer 0 (.refl _ s)) (State.setSec_regs _ _)) (by decide)
theorem execFwConfirm_trial (hm : MayWrite who R.SEC_FW_CONFIRM s = true) (hr : s.running 32 = true) (ht : s.sec.boot.trial = true)
    (hb : s.sec.booted = s.sec.boot.next) : exec (.fwConfirm who 1) s = .next (s.answer 0).confirmed :=
by
  have h : ¬ ((!(s.answer 0).running secPage) = true ∨ (!bit (1 : Word) 0) = true ∨ (!(s.answer 0).sec.boot.trial) = true ∨
      (s.answer 0).sec.booted ≠ (s.answer 0).sec.boot.next) := by
    rw [State.running_answer, hr]
    rintro (h | h | h | h)
    · cases h
    · exact absurd h (by decide)
    · exact absurd ht (by simpa using h)
    · exact h hb
  exact congrArg Host.Outcome.next ((s.gate_may _ hm).trans (if_neg h))

end confirm

/-- Settles O40: the start of SEC, updates and their ends, measurements, and quotes. -/
theorem secImagesAndQuotes : Obligations.SecImagesAndQuotes := by
  intro s who b bytes u stage check
  refine ⟨fun h1 h2 h3 => ?_, fun h => ?_, fun hr hp => ⟨fun hu hd hi => ?_, fun hf => ?_⟩, fun ha hu => ⟨?_, ?_, ?_⟩, fun hu => ?_,
    fun hm hr ht hb => ?_, fun hm hr => ⟨fun hl => ?_, fun hl => ?_, ?_⟩, fun hm hr hq hd => ⟨?_, ?_⟩, fun ha hq hd hi => ?_⟩
  · exact if_pos ⟨h1, h2, by rw [h3]; rfl⟩
  · exact if_neg (by rintro ⟨g1, g2, -⟩; exact h.elim (· g1) (· g2))
  · have hx : (s.putDram (wrBytes s.dram b.addr.toNat bytes)).dram = wrBytes s.dram b.addr.toNat bytes := rfl
    have hr' : RegsBut [R.SEC_FW_STAT, R.SEC_FW_DONE_KB] s (s.putDram (wrBytes s.dram b.addr.toNat bytes)) := .same (.refl _ s) rfl
    obtain ⟨h1, h2, h3, h4, h5, h6⟩ := (s.putDram (wrBytes s.dram b.addr.toNat bytes)).fwStart_reads b
    exact ⟨_, execFwUpdate_starts hr hp hu hd hi, h1, h2.trans hx, h3, h4, hr'.trans h5, h6⟩
  · have he : Shows s (s.emit evCmdRefused secPage [7, 0, 0x40020000, 0, 0, 5]) := .emit _ _ _ (.refl s)
    exact ⟨_, execFwUpdate_refused hr hp hf, he.sec, .emit _ _ _ (.refl _ s) fun _ h => h, he.mem⟩
  · change execFwUpdateDone .done s = _
    unfold execFwUpdateDone
    rw [hu]
    exact if_neg (by rw [ha]; decide)
  · refine ⟨(s.setSec fun c => { c with boot := { c.boot with invalid := true } }).fwShow 4 0 0, ?_, ?_⟩
    · change execFwUpdateDone .aborted s = _
      unfold execFwUpdateDone State.fwAbort
      rw [hu]
      dsimp only
      rw [if_neg (by rw [ha]; decide), if_neg (by exact Bool.false_ne_true)]
    · obtain ⟨h1, h2, h3, h4⟩ := (s.setSec fun c => { c with boot := { c.boot with invalid := true } }).fwShow_reads 4 0 0
      refine ⟨?_, ?_, h2, h3, (show SameMem s _ from .refl s).trans h4⟩
      · rw [h1]
      · rw [h1]
        rfl
  · refine ⟨(if 2 ≤ stage.val then s.slotSpoilt else s).fwShow 3 stage.val check.val, ?_, ?_⟩
    · change execFwUpdateDone (.failed stage check) s = _
      unfold execFwUpdateDone
      rw [hu]
      exact if_neg (by rw [ha]; decide)
    · have hb : (if 2 ≤ stage.val then s.slotSpoilt else s).sec.boot = s.sec.boot := by
        split
        · exact s.slotSpoilt_boot
        · rfl
      have hk : (if 2 ≤ stage.val then s.slotSpoilt else s).sec.keys = s.sec.keys := by
        split
        · exact s.slotSpoilt_keys
        · rfl
      have hf : stage.val < 2 → (if 2 ≤ stage.val then s.slotSpoilt else s).sec.flash = s.sec.flash := fun h => by rw [if_neg (by omega)]
      have hg (k n : Nat) (hn : n < 0x1600) : rdB (if 2 ≤ stage.val then s.slotSpoilt else s).sec.flash
          (slotOfs s.sec.boot.active + kindOfs k + n) = rdB s.sec.flash (slotOfs s.sec.boot.active + kindOfs k + n) := by
        split
        · exact slotSpoilt_active s hn
        · rfl
      have hm : SameMem s (if 2 ≤ stage.val then s.slotSpoilt else s) := by
        split
        · exact s.slotSpoilt_mem
        · exact .refl s
      generalize (if 2 ≤ stage.val then s.slotSpoilt else s) = v at *
      obtain ⟨h1, h2, h3, h4⟩ := v.fwShow_reads 3 stage.val check.val
      dsimp only
      rw [h1]
      exact ⟨rfl, hb, hk, hf, fun k n _ hn => hg k n hn, h2, h3, hm.trans h4⟩
  · change execFwUpdateDone .done s = _
    unfold execFwUpdateDone
    rw [hu]
  · exact ⟨_, execFwConfirm_trial hm hr ht hb, s.confirmed_reads⟩
  · refine ⟨_, congrArg Host.Outcome.next ((s.gate_may _ hm).trans (if_neg (by rw [State.running_answer, hr]; simp [hl]))), ?_⟩
    obtain ⟨h1, h2⟩ := (s.answer 0).measExtend_reads ((List.range 8).flatMap fun w => leBytes 4 ((s.answer 0).regN (R.SEC_MEAS_EXT_D w)))
    exact ⟨h1, h2, (show SameMem s (s.answer 0) from .refl s).trans (State.measExtended_shows _ 2 _).mem⟩
  · exact congrArg Host.Outcome.next ((s.gate_may _ hm).trans (if_pos (.inr hl)))
  · exact ⟨_, congrArg Host.Outcome.next ((s.gate_may _ hm).trans (if_pos hr)), rfl, rfl, .refl s⟩
  · obtain ⟨h1, h2, h3, h4⟩ := (s.answer 0).quoteHeld_reads s.quoteBytes
    exact ⟨_, congrArg Host.Outcome.next ((s.gate_may _ hm).trans (State.quoteBegin_free hr hq hd)), h1, h2, h3, h4⟩
  · obtain ⟨h1, h2, h3, h4⟩ := (s.answer 0).quoteHeld_reads Config.certificate
    exact ⟨_, congrArg Host.Outcome.next ((s.gate_may _ hm).trans (State.quoteBegin_free hr hq hd)), h1, h2, h3, h4⟩
  · exact ⟨_, execQuoteDone_written ha hq hd hi, s.quoteWritten_reads⟩

end Sys2Proof.Machine
end

section
/-! The event recorder's flush (R645, R649, R654), which a full log leaves with an update to make. -/

namespace Sys2Proof.Machine

section flush
variable (s : State)

theorem State.bumpCount_shows (b : Nat) : Shows s (s.bumpCount b) := by
  unfold State.bumpCount
  dsimp only
  split
  · exact .setReg _ _ (.evr _ (.refl s))
  · exact .evr _ (.refl s)
theorem State.fullDrop_shows : Shows s s.fullDrop := (Shows.incReg _ (.refl s)).trans (State.bumpCount_shows _ _)
theorem flushOne_shows (c : LogCtl) (x : Staged) : Shows s (flushOne s c x).1 := by
  unfold flushOne
  split
  · exact s.fullDrop_shows
  split
  · exact .evr _ (.refl s)
  · exact .irq _ _ (.incReg _ (.evr _ (.refl s)))
theorem State.showLog_shows (c : LogCtl) : Shows s (s.showLog c) := by
  have h : Shows s (((s.setReg R.EVR_END (wd c.ende)).setReg64 R.EVR_SEQ_LO R.EVR_SEQ_HI (c.next - 1)).setReg R.EVR_LOG_STAT
      (wd (b2n c.full + 256 * fillOf c.ende))) := .setReg _ _ (.setReg64 _ _ _ (.setReg _ _ (.refl s)))
  exact .ite (.irq _ _ (.evr _ h)) h

/-- The records of the staging buffer written to the log one after another, with the control they leave. -/
def flushAll (s : State) (c : LogCtl) (l : List Staged) : State × LogCtl :=
  l.foldl (fun (acc : State × LogCtl) x => flushOne acc.1 acc.2 x) (s, c)
theorem flushAll_shows (c : LogCtl) (l : List Staged) : Shows s (flushAll s c l).1 := by
  induction l generalizing s c with
  | nil => exact .refl s
  | cons x l ih => exact (flushOne_shows s c x).trans (ih (flushOne s c x).1 (flushOne s c x).2)

/-- The trailer updates made and the staging buffer emptied, before its records are written. -/
def State.unstaged (s : State) : State :=
  { s with evr := { s.evr with data := s.evr.updates.foldl (fun d u => writeUpdate d u.1 u.2) s.evr.data, updates := [], staging := [] } }
/-- A control committed and shown. -/
def State.ctlShown (s : State) (c : LogCtl) : State := (({ s with evr := { s.evr with ctl := some c } } : State).showStage).showLog c
theorem State.flushLog_eq : s.flushLog = (flushAll s.unstaged (s.evr.ctl.getD {}) s.evr.staging).1.ctlShown
    (flushAll s.unstaged (s.evr.ctl.getD {}) s.evr.staging).2 := rfl
theorem State.flushLog_shows : Shows s s.flushLog := by
  have h : Shows s s.unstaged := .evr _ (.refl s)
  rw [State.flushLog_eq]
  exact (Shows.setReg _ _ (.evr _ (h.trans (flushAll_shows _ _ _)))).trans (State.showLog_shows _ _)

/-- A control that is shown leaves the updates that wait. -/
theorem State.ctlShown_updates (c : LogCtl) : (s.ctlShown c).evr.updates = s.evr.updates := by
  unfold State.ctlShown State.showLog
  dsimp only
  split
  · rfl
  · rfl

end flush

section full
variable {s : State} {c : LogCtl} {x y : Staged}

/-- LOG_FULL takes the place of the record that the log has no room for. -/
theorem flushOne_fills (hf : c.full = false) (hx : ¬ c.ende + x.len + logReserve ≤ logData) : (flushOne s c x).2.full = true ∧
    ((flushOne s c x).1.evr.newest.get (fun _ => {}) 3) = { seq := x.seq, ofs := some c.ende, len := 4, count := 1 } ∧
    (flushOne s c x).1.evr.updates = s.evr.updates := by
  unfold flushOne
  rw [if_neg (by rw [hf]; decide), if_neg hx]
  exact ⟨rfl, (Tab.get_set _ _ _ _ _).trans (if_pos rfl), rfl⟩
/-- A record dropped at a full log is counted by an update of LOG_FULL. -/
theorem State.bumpCount_updates {b o : Nat} (ho : (s.evr.newest.get (fun _ => {}) b).ofs = some o) : (s.bumpCount b).evr.updates ≠ [] := by
  unfold State.bumpCount
  dsimp only
  rw [ho]
  exact List.append_ne_nil_of_right_ne_nil _ (List.cons_ne_nil _ _)
theorem flushOne_counts {o : Nat} (hf : c.full = true) (ho : (s.evr.newest.get (fun _ => {}) 3).ofs = some o) :
    (flushOne s c x).1.evr.updates ≠ [] := by
  unfold flushOne State.fullDrop
  rw [if_pos hf]
  exact State.bumpCount_updates (s := s.incReg R.EVR_FULL_DROP) ho

/-- A flush that fills the log with its first record drops the second, and its count is an update that waits for the next flush. -/
theorem State.flushLog_updates (hc : s.evr.ctl = some c) (hf : c.full = false) (hx : ¬ c.ende + x.len + logReserve ≤ logData)
    (hs : s.evr.staging = [x, y]) : s.flushLog.evr.updates ≠ [] := by
  rw [State.flushLog_eq, hs, hc, State.ctlShown_updates]
  obtain ⟨h1, h2, -⟩ := flushOne_fills (s := s.unstaged) hf hx
  exact flushOne_counts h1 (congrArg Newest.ofs h2)

end full

/-- A staged record of two words. -/
def staleRecord (n : Nat) : Staged := ⟨n, 0, 0x200, 0, [0, 0], 0⟩
/-- The recorder in RUN, with a log that has room for LOG_FULL alone and two records staged. -/
def logBrim : State :=
  ({ State.reset with evr := { ctl := some { ende := 4190160 }, staging := [staleRecord 1, staleRecord 2], nextSeq := 3 } } : State).setBlk 34 { st := .run }

/-- Refutes O41: of two records staged where the log has room for LOG_FULL alone, the first writes LOG_FULL and the second raises its COUNT
(R654), a trailer update that FLUSH leaves for the next one. -/
theorem not_eventRecorder : ¬ Obligations.EventRecorder := by
  intro h
  obtain ⟨-, -, hflush, -⟩ := h logBrim .mgmt 0 ⟨.num 0, 0, .management, 0, [], []⟩ .management ⟨⟨.num 0, 0, .management, 0, [], []⟩, 0⟩ []
  have ha : logBrim.active 34 = true := by decide
  obtain ⟨t, ht, -, hu, -⟩ := hflush ha
  have he : exec .flush logBrim = .next logBrim.flushLog := congrArg Host.Outcome.next (if_pos ha)
  rw [he] at ht
  injection ht with e
  rw [← e] at hu
  exact State.flushLog_updates (s := logBrim) (x := staleRecord 1) rfl rfl (by decide) rfl hu

end Sys2Proof.Machine
end

section
/-! What delivered commands do at their targets (R35, R93, R376 to R378, R570, R625, R656). -/

namespace Sys2Proof.Machine

/-! ### The payload of a command of items, read back -/

section payload

theorem fieldN_append {a b c : List Byte} {o n : Nat} (ha : a.length = o) (hb : b.length = n) : fieldN (a ++ (b ++ c)) o n = leNat b := by
  rw [fieldN, List.drop_left' ha, List.take_left' hb]
theorem fieldN_leBytes {a c : List Byte} {o n v : Nat} (ha : a.length = o) (hv : v < 256 ^ n) : fieldN (a ++ (leBytes n v ++ c)) o n = v := by
  rw [fieldN_append ha (length_leBytes _ _), leNat_leBytes, Nat.mod_eq_of_lt hv]
theorem drop_flatten_take {l : List (List Byte)} (hl : ∀ b, b ∈ l → b.length = 16) {i : Nat} (hi : i < l.length) :
    (l.flatten.drop (16 * i)).take 16 = l[i] := by
  induction l generalizing i with
  | nil => cases hi
  | cons b l ih =>
    have hb : b.length = 16 := hl b List.mem_cons_self
    cases i with
    | zero => rw [Nat.mul_zero, List.drop_zero, List.flatten_cons, List.take_left' hb, List.getElem_cons_zero]
    | succ i =>
      rw [List.flatten_cons, show 16 * (i + 1) = b.length + 16 * i by omega, ← List.drop_drop, List.drop_left, List.getElem_cons_succ]
      exact ih (fun c hc => hl c (List.mem_cons_of_mem _ hc)) (Nat.lt_of_succ_lt_succ hi)
theorem cmdItem_itemPayload {l : List (List Byte)} (hl : ∀ b, b ∈ l → b.length = 16) {i : Nat} (hi : i < l.length) :
    cmdItem (itemPayload l) i = l[i] := by
  rw [cmdItem, itemPayload, ← List.drop_drop, List.drop_left' (length_leBytes _ _), drop_flatten_take hl hi]
theorem fieldN_itemPayload {l : List (List Byte)} (h : l.length < 256) : fieldN (itemPayload l) 0 1 = l.length := by
  rw [fieldN, itemPayload, List.drop_zero]
  simp only [leBytes, List.cons_append, List.take_succ_cons, List.take_zero, leNat, BitVec.toNat_ofNat]
  omega
/-- The items of a payload are read back one by one. -/
theorem items_read {α : Type} {enc : α → List Byte} {dec : List Byte → α} (he : ∀ a, (enc a).length = 16) (hd : ∀ a, dec (enc a) = a) {l : List α}
    (hl : l.length < 256) :
    (List.range (fieldN (itemPayload (l.map enc)) 0 1)).map (fun i => dec (cmdItem (itemPayload (l.map enc)) i)) = l := by
  have h16 (b : List Byte) (hb : b ∈ l.map enc) : b.length = 16 := by
    obtain ⟨a, -, rfl⟩ := List.mem_map.mp hb
    exact he a
  have hn : (l.map enc).length = l.length := List.length_map _
  rw [fieldN_itemPayload (by rw [hn]; exact hl), hn]
  refine List.ext_getElem (by rw [List.length_map, List.length_range]) fun i h1 h2 => ?_
  rw [List.getElem_map, List.getElem_range, cmdItem_itemPayload h16 (by rw [hn]; exact h2), List.getElem_map, hd]

/-- Bytes of an item of an online change, and of a force. -/
def ocBytes (i : OcItem) : List Byte := leBytes 4 i.sym.toNat ++ leBytes 4 0 ++ leBytes 8 i.val.toNat
def forceBytes (i : ForceItem) : List Byte := [i.op, i.width, i.bit, 0] ++ leBytes 4 i.addr.toNat ++ leBytes 8 i.val.toNat
/-- The item that 16 bytes are. -/
def ocItemOf (e : List Byte) : OcItem := ⟨wd (fieldN e 0 4), BitVec.ofNat 64 (fieldN e 8 8)⟩
def forceItemOf (e : List Byte) : ForceItem := ⟨e.getD 0 0, e.getD 1 0, e.getD 2 0, wd (fieldN e 4 4), BitVec.ofNat 64 (fieldN e 8 8)⟩

theorem length_ocBytes (i : OcItem) : (ocBytes i).length = 16 := by simp only [ocBytes, List.length_append, length_leBytes]
theorem length_forceBytes (i : ForceItem) : (forceBytes i).length = 16 := by
  simp only [forceBytes, List.length_append, length_leBytes, List.length_cons, List.length_nil]
theorem fieldN_last {a : List Byte} {o n v : Nat} (ha : a.length = o) (hv : v < 256 ^ n) : fieldN (a ++ leBytes n v) o n = v := by
  have h := fieldN_leBytes (c := []) ha hv
  rwa [List.append_nil] at h
theorem ocItemOf_ocBytes (i : OcItem) : ocItemOf (ocBytes i) = i := by
  have h1 : fieldN (ocBytes i) 0 4 = i.sym.toNat := by
    rw [ocBytes, List.append_assoc]
    exact fieldN_leBytes (a := []) rfl i.sym.isLt
  have h2 : fieldN (ocBytes i) 8 8 = i.val.toNat :=
    fieldN_last (by rw [List.length_append, length_leBytes, length_leBytes]) i.val.isLt
  rw [ocItemOf, h1, h2, wd, BitVec.ofNat_toNat, BitVec.setWidth_eq, BitVec.ofNat_toNat, BitVec.setWidth_eq]
theorem forceItemOf_forceBytes (i : ForceItem) : forceItemOf (forceBytes i) = i := by
  have h1 : fieldN (forceBytes i) 4 4 = i.addr.toNat := by
    rw [forceBytes, List.append_assoc]
    exact fieldN_leBytes rfl i.addr.isLt
  have h2 : fieldN (forceBytes i) 8 8 = i.val.toNat :=
    fieldN_last (by rw [List.length_append, length_leBytes]; rfl) i.val.isLt
  rw [forceItemOf, h1, h2, wd, BitVec.ofNat_toNat, BitVec.setWidth_eq, BitVec.ofNat_toNat, BitVec.setWidth_eq]
  rfl

variable (n : Nat)
/-- The command that an ONLINE_CHANGE waits as, and a FORCE. -/
def ocCmd (l : List OcItem) : QuayCmd := ⟨2, 0x40040000, 0, n, itemPayload (l.map ocBytes)⟩
def forceCmd (l : List ForceItem) : QuayCmd := ⟨3, 0x40040000, 0, n, itemPayload (l.map forceBytes)⟩
theorem State.applyCmd_ocCmd {l : List OcItem} (hl : l.length < 256) (u : State) : u.applyCmd (ocCmd n l) = u.applyChange l := by
  have h : (List.range (fieldN (itemPayload (l.map ocBytes)) 0 1)).map (fun i => ocItemOf (cmdItem (itemPayload (l.map ocBytes)) i)) = l :=
    items_read length_ocBytes ocItemOf_ocBytes hl
  exact congrArg u.applyChange h
theorem State.applyCmd_forceCmd {l : List ForceItem} (hl : l.length < 256) (u : State) : u.applyCmd (forceCmd n l) = u.applyForces l := by
  have h : (List.range (fieldN (itemPayload (l.map forceBytes)) 0 1)).map (fun i => forceItemOf (cmdItem (itemPayload (l.map forceBytes)) i)) = l :=
    items_read length_forceBytes forceItemOf_forceBytes hl
  exact congrArg u.applyForces h

end payload

/-! ### A command that comes to its target -/

section arrive
variable {s : State}

theorem mem_quayPut (c : QuayCmd) (l : List QuayCmd) : c ∈ quayPut c l := by
  induction l with
  | nil => exact List.mem_cons_self
  | cons x l ih =>
    unfold quayPut
    split
    · exact List.mem_cons_self
    · exact List.mem_cons_of_mem _ ih
theorem length_quayPut (c : QuayCmd) (l : List QuayCmd) : (quayPut c l).length = l.length + 1 := by
  induction l with
  | nil => rfl
  | cons x l ih =>
    unfold quayPut
    split
    · rfl
    · rw [List.length_cons, ih, List.length_cons]
/-- A command behind those that wait for its target. -/
def State.queued (s : State) (c : QuayCmd) : State := s.setSec fun q => { q with queue := quayPut c q.queue }
theorem State.arrive_now {c : QuayCmd} (h : s.waitsFor c = false ∨ s.betweenBounds (pageOf c.target) = false) (k : State → State) : s.arrive c k = k s :=
  if_neg (by
    rw [Bool.and_eq_true]
    rintro ⟨h1, h2⟩
    rw [h1, h2] at h
    exact absurd h (by decide))
theorem State.arrive_waits {c : QuayCmd} (h : s.waitsFor c = true) (hb : s.betweenBounds (pageOf c.target) = true) (k : State → State) :
    ∃ n, s.arrive c k = s.queued { c with counter := n } := ⟨_, if_pos (by rw [h, hb]; rfl)⟩

/-- The logic engine's commands wait while it runs cycles. -/
theorem State.waitsFor_lge {op slot n : Nat} {p : List Byte} (ho : op ≠ 1) : s.waitsFor ⟨op, 0x40040000, slot, n, p⟩ = (s.running 64 && s.acts) := by
  unfold State.waitsFor
  dsimp only
  rw [show pageOf 0x40040000 = 64 from by decide, beq_eq_false_iff_ne.mpr ho]
  simp
theorem State.betweenBounds_lge (hr : s.running 64 = true) (ha : s.acts = true) : s.betweenBounds 64 = true :=
  (if_pos rfl).trans (by rw [State.active_of_running hr, ha]; rfl)

theorem execBlockCtrl_eq {target val : Word} (hp : s.pwr.saving = false) (hc : cmdSuits 1 target.toNat = true)
    (hu : s.up (domOf (pageOf target.toNat)) = true) : exec (.blockCtrl target val) s =
      .next (s.arrive ⟨1, target.toNat, 0, 0, leBytes 4 val.toNat⟩ fun s => s.ctrlReach (pageOf target.toNat) true val) :=
  congrArg Host.Outcome.next (if_neg (by rw [hp, hc, hu]; decide))
theorem execOnlineChange_eq {l : List OcItem} (hp : s.pwr.saving = false) (h0 : s.shown 64 ≠ 0) : exec (.onlineChange l) s =
    .next (s.arrive (ocCmd 0 l) fun s => s.applyChange l) := congrArg Host.Outcome.next (if_neg (by rw [hp]; simpa using h0))
theorem execForce_eq {l : List ForceItem} (hp : s.pwr.saving = false) (h0 : s.shown 64 ≠ 0) : exec (.force l) s =
    .next (s.arrive (forceCmd 0 l) fun s => s.applyForces l) := congrArg Host.Outcome.next (if_neg (by rw [hp]; simpa using h0))
theorem execOnlineChange_now {l : List OcItem} (hp : s.pwr.saving = false) (h0 : s.shown 64 ≠ 0) (h : s.running 64 = false ∨ s.acts = false) :
    exec (.onlineChange l) s = .next (s.applyChange l) := by
  rw [execOnlineChange_eq hp h0, State.arrive_now]
  left
  rw [ocCmd, State.waitsFor_lge (by decide), Bool.and_eq_false_iff]
  exact h
theorem execForce_now {l : List ForceItem} (hp : s.pwr.saving = false) (h0 : s.shown 64 ≠ 0) (h : s.running 64 = false ∨ s.acts = false) :
    exec (.force l) s = .next (s.applyForces l) := by
  rw [execForce_eq hp h0, State.arrive_now]
  left
  rw [forceCmd, State.waitsFor_lge (by decide), Bool.and_eq_false_iff]
  exact h
theorem State.arrive_lge {c : QuayCmd} (hr : s.running 64 = true) (ha : s.acts = true) (hw : s.waitsFor c = (s.running 64 && s.acts))
    (hc : pageOf c.target = 64) (k : State → State) : ∃ n, s.arrive c k = s.queued { c with counter := n } :=
  State.arrive_waits (by rw [hw, hr, ha]; rfl) (by rw [hc]; exact State.betweenBounds_lge hr ha) k

end arrive

/-! ### Forces -/

section force
variable {s : State}

theorem State.applyForces_idle {l : List ForceItem} (ha : s.acts = false) : s.applyForces l = s.emit evForceRefused 64 [0] :=
  if_pos (by rw [ha]; rfl)
/-- The forces put in place of those that were, as shown. -/
def State.forced (s : State) (fs : Tab (Option ForceEnt)) : State :=
  let s := s.setLge fun l => { l with forces := fs }
  ((s.setReg R.LGE_FC_LAST 0).setReg R.LGE_FORCES (wd s.forceList.length)).irq lgePage 12
/-- Each force recorded. -/
def State.forcesSaid (s : State) (l : List ForceItem) : State :=
  l.foldl (fun s i => s.emit evForce lgePage [lo32 (s.cycle + 1), hi32 (s.cycle + 1), i.op.setWidth 32, i.addr, i.val.setWidth 32]) s
theorem State.applyForces_ok {l : List ForceItem} {fs : Tab (Option ForceEnt)} (ha : s.acts = true) (h : forceItems 0 s.lge.forces l = .ok fs) :
    s.applyForces l = (s.forced fs).forcesSaid l := by
  unfold State.applyForces
  rw [if_neg (by rw [ha]; decide), h]
  rfl
theorem State.applyForces_error {l : List ForceItem} {cn : Nat × Nat} (ha : s.acts = true) (h : forceItems 0 s.lge.forces l = .error cn) :
    s.applyForces l = (s.setReg R.LGE_FC_LAST (wd (cn.1 + 256 * cn.2))).emit evForceRefused 64 [wd cn.1, wd cn.2] := by
  unfold State.applyForces
  rw [if_neg (by rw [ha]; decide), h]

theorem State.forcesSaid_shows (l : List ForceItem) : Shows s (s.forcesSaid l) := .foldl (fun u _ => .emit _ _ _ (.refl u)) l s
theorem State.forcesSaid_regs (l : List ForceItem) : RegsBut evrRegs s (s.forcesSaid l) :=
  .foldl (fun u _ => .emit _ _ _ (.refl _ u) fun _ h => h) l s
theorem State.forcesSaid_causes (l : List ForceItem) (i : Nat) (h : bit (s.page 64).irqStat i = true) : bit ((s.forcesSaid l).page 64).irqStat i = true := by
  refine List.foldlRecOn (motive := fun u : State => bit (u.page 64).irqStat i = true) l _ h fun _ hu _ _ => ?_
  exact CausesKept.emit _ _ _ (.refl _) _ _ hu
theorem State.forced_reads (fs : Tab (Option ForceEnt)) : (s.forced fs).lge.forces = fs ∧ (s.forced fs).reg R.LGE_FC_LAST = 0 ∧
    bit ((s.forced fs).page 64).irqStat 12 = true ∧ RegsBut [R.LGE_FC_LAST, R.LGE_FORCES] s (s.forced fs) ∧ SameMem s (s.forced fs) := by
  unfold State.forced
  dsimp only
  have hl : (s.setLge fun l => { l with forces := fs }).lge.forces = fs := rfl
  have hr : RegsBut [R.LGE_FC_LAST, R.LGE_FORCES] s (s.setLge fun l => { l with forces := fs }) := .same (.refl _ s) rfl
  have hm : SameMem s (s.setLge fun l => { l with forces := fs }) := .refl s
  generalize (s.setLge fun l => { l with forces := fs }) = u at *
  refine ⟨hl, ?_, State.bit_irqStat_irq _ _ (by decide), .irq _ _ (.setReg _ (.setReg _ hr (by decide)) (by decide)), hm.trans (.refl u)⟩
  rw [State.reg_irq, State.reg_setReg_ne _ _ (by decide), State.reg_setReg_self]

end force

/-! ### Online changes -/

section change
variable {s : State} {g : Limg}

theorem State.applyChange_none {l : List OcItem} (h : s.lge.image = none) :
    s.applyChange l = (s.setReg R.LGE_OC_LAST 1).emit evOnlineChange 64 [1] := by
  unfold State.applyChange
  rw [h]
/-- Every item of an online change written. -/
def State.changed (s : State) (g : Limg) (l : List OcItem) : State := l.foldl (fun s i => s.changeOne g i) s
/-- What a change applied shows. -/
def State.changeShown (s : State) (n : Nat) : State :=
  ((s.setRegs [(R.LGE_OC_LAST, 0), (R.LGE_CHANGES, s.reg R.LGE_CHANGES + wd n)]).setReg64 R.LGE_OC_CYCLE_LO R.LGE_OC_CYCLE_HI (s.cycle + 1)).irq lgePage 13
theorem State.applyChange_ok {l : List OcItem} (hi : s.lge.image = some g) (h : ∀ i, i ∈ l → changeRefused g i = none) :
    s.applyChange l = (s.changed g l).changeShown l.length := by
  have hn : (l.zip (List.range l.length)).findSome? (fun e => (changeRefused g e.1).map fun c => (c, e.2)) = none := by
    rw [List.findSome?_eq_none_iff]
    intro e he
    rw [h e.1 (List.of_mem_zip he).1]
    rfl
  unfold State.applyChange
  rw [hi]
  dsimp only
  rw [hn]
  rfl

theorem State.changeOne_reads (i : OcItem) : RegsBut evrRegs s (s.changeOne g i) ∧ (s.changeOne g i).yard = s.yard := by
  have he (k p : Nat) (l : List Word) (u : State) (hr : u.regs = s.regs) (hy : u.yard = s.yard) :
      RegsBut evrRegs s (u.emit k p l) ∧ (u.emit k p l).yard = s.yard :=
    ⟨.emit _ _ _ (.same (.refl _ s) hr) fun _ h => h, ((Shows.emit k p l (.refl u)).mem).1.trans hy⟩
  unfold State.changeOne
  split
  · exact ⟨.refl _ s, rfl⟩
  · dsimp only
    split
    · exact he _ _ _ _ rfl rfl
    · exact he _ _ _ _ rfl rfl
theorem State.changed_reads (l : List OcItem) : RegsBut evrRegs s (s.changed g l) ∧ (s.changed g l).yard = s.yard :=
  List.foldlRecOn (motive := fun u : State => RegsBut evrRegs s u ∧ u.yard = s.yard) l _ ⟨.refl _ s, rfl⟩ fun _ hu i _ =>
    ⟨hu.1.trans (State.changeOne_reads i).1, (State.changeOne_reads i).2.trans hu.2⟩
theorem State.changeShown_reads (n : Nat) : (s.changeShown n).reg R.LGE_OC_LAST = 0 ∧
    (s.changeShown n).reg R.LGE_CHANGES = s.reg R.LGE_CHANGES + wd n ∧ bit ((s.changeShown n).page 64).irqStat 13 = true ∧ (s.changeShown n).yard = s.yard := by
  have hm : Shows s (s.changeShown n) := .irq _ _ (.setReg64 _ _ _ (.setRegs _ (.refl s)))
  refine ⟨?_, ?_, State.bit_irqStat_irq _ _ (by decide), hm.mem.1⟩
  · simp only [State.changeShown, State.setReg64, State.setRegs, List.foldl_cons, List.foldl_nil]
    rw [State.reg_irq, State.reg_setReg_ne _ _ (by decide), State.reg_setReg_ne _ _ (by decide), State.reg_setReg_ne _ _ (by decide),
      State.reg_setReg_self]
  · simp only [State.changeShown, State.setReg64, State.setRegs, List.foldl_cons, List.foldl_nil]
    rw [State.reg_irq, State.reg_setReg_ne _ _ (by decide), State.reg_setReg_ne _ _ (by decide), State.reg_setReg_self]

end change

/-! ### The log cleared -/

section clear
variable {s : State} (slot : Byte) (counter archived : DWord)

/-- Records past ARCHIVED remain: what a clear that is refused shows. -/
def State.clearRefused (s : State) (slot : Byte) (archived : DWord) : State :=
  (((s.stageOwn 4 1 [wd (slot.toNat + 256), lo32 archived.toNat, hi32 archived.toNat]).setReg R.EVR_CLR_LAST (wd (2 + 256 * slot.toNat))).irq 34 12).errc 34 0x101 1
theorem State.logClear_refused (h : archived.toNat + 1 < (s.flushLog.evr.ctl.getD {}).next ∧ archived ≠ BitVec.allOnes 64) :
    s.logClear slot counter archived = s.flushLog.clearRefused slot archived := by
  unfold State.logClear
  dsimp only
  rw [if_pos ⟨by omega, h.2⟩, State.clearRefused]
theorem State.stageOwn_shows (code : BitVec 16) (sev : BitVec 2) (l : List Word) : Shows s (s.stageOwn code sev l) := .setReg _ _ (.evr _ (.refl s))
theorem State.clearRefused_reads : (s.clearRefused slot archived).reg R.EVR_CLR_LAST = wd (2 + 256 * slot.toNat) ∧
    bit ((s.clearRefused slot archived).page 34).irqStat 12 = true ∧ Shows s (s.clearRefused slot archived) := by
  unfold State.clearRefused
  have hs : Shows s (s.stageOwn 4 1 [wd (slot.toNat + 256), lo32 archived.toNat, hi32 archived.toNat]) := State.stageOwn_shows _ _ _
  generalize (s.stageOwn 4 1 [wd (slot.toNat + 256), lo32 archived.toNat, hi32 archived.toNat]) = u at *
  refine ⟨?_, CausesKept.errc _ _ _ (.refl _) _ _ (State.bit_irqStat_irq _ _ (by decide)), hs.trans (.errc _ _ _ (.irq _ _ (.setReg _ _ (.refl u))))⟩
  rw [State.reg_errc, State.reg_irq, State.reg_setReg_self]

/-- What a clear writes shows. -/
def State.clearShown (s : State) (slot : Byte) (c : LogCtl) : State := ((s.setReg R.EVR_CLR_LAST (wd (1 + 256 * slot.toNat))).showLog c).irq 34 11
theorem State.showLog_evr (c : LogCtl) : (s.showLog c).evr = s.evr ∨ (s.showLog c).evr = { s.evr with almost := true } := by
  unfold State.showLog
  dsimp only
  split
  · exact .inr rfl
  · exact .inl rfl
theorem State.showLog_regs (c : LogCtl) : RegsBut [R.EVR_END, R.EVR_SEQ_LO, R.EVR_SEQ_HI, R.EVR_LOG_STAT] s (s.showLog c) := by
  have h : RegsBut [R.EVR_END, R.EVR_SEQ_LO, R.EVR_SEQ_HI, R.EVR_LOG_STAT] s (((s.setReg R.EVR_END (wd c.ende)).setReg64 R.EVR_SEQ_LO R.EVR_SEQ_HI
      (c.next - 1)).setReg R.EVR_LOG_STAT (wd (b2n c.full + 256 * fillOf c.ende))) :=
    .setReg _ (.setReg64 _ (.setReg _ (.refl _ s) (by decide)) (by decide) (by decide)) (by decide)
  exact .ite (.irq _ _ (.same h rfl)) h
theorem State.clearShown_reads (c : LogCtl) : (s.clearShown slot c).reg R.EVR_CLR_LAST = wd (1 + 256 * slot.toNat) ∧
    bit ((s.clearShown slot c).page 34).irqStat 11 = true ∧ (s.clearShown slot c).evr.ctl = s.evr.ctl ∧
    (s.clearShown slot c).evr.updates = s.evr.updates := by
  have hr : ((s.setReg R.EVR_CLR_LAST (wd (1 + 256 * slot.toNat))).showLog c).evr.ctl = s.evr.ctl ∧
      ((s.setReg R.EVR_CLR_LAST (wd (1 + 256 * slot.toNat))).showLog c).evr.updates = s.evr.updates := by
    obtain e | e := State.showLog_evr (s := s.setReg R.EVR_CLR_LAST (wd (1 + 256 * slot.toNat))) c
    · rw [e]
      exact ⟨rfl, rfl⟩
    · rw [e]
      exact ⟨rfl, rfl⟩
  refine ⟨?_, State.bit_irqStat_irq _ _ (by decide), hr⟩
  rw [State.clearShown, State.reg_irq, (State.showLog_regs c).reg (by decide), State.reg_setReg_self]
theorem State.logClear_done (h : ¬ (archived.toNat + 1 < (s.flushLog.evr.ctl.getD {}).next ∧ archived ≠ BitVec.allOnes 64)) :
    ∃ e c c', s.logClear slot counter archived = ({ s.flushLog with evr := e } : State).clearShown slot c ∧ e.ctl = some c' ∧
      c'.first = (s.flushLog.evr.ctl.getD {}).next ∧ e.updates = [] := by
  have hn : ¬ (archived.toNat < (s.flushLog.evr.ctl.getD {}).next - 1 ∧ archived ≠ BitVec.allOnes 64) := fun g => h ⟨by omega, g.2⟩
  unfold State.logClear
  dsimp only
  rw [if_neg hn]
  exact ⟨_, _, _, rfl, rfl, rfl, rfl⟩

end clear

/-! ### Switchover and key changes -/

section switch
variable {s : State}

theorem execSwitch_eq (hp : s.pwr.saving = false) (h : s.switchOk = true) : exec .switch s = .next s.switchTake :=
  congrArg Host.Outcome.next (if_neg (by rw [hp, h]; decide))
theorem State.switchTake_waits (ha : s.active 64 = true) (h : s.regN R.LGE_PHASE = 1 ∨ s.regN R.LGE_PHASE = 2 ∨ s.regN R.LGE_PHASE = 3) :
    s.switchTake = (s.emit evSwitch plkPage []).setPlk fun p => { p with finalReq := true } := by
  unfold State.switchTake
  dsimp only
  rw [if_pos]
  rw [State.active_emit, ha]
  obtain h | h | h := h <;> rw [h] <;> rfl
theorem State.switchTake_now (ha : s.active 64 = false) : s.switchTake = (s.emit evSwitch plkPage []).switchNow := by
  unfold State.switchTake
  dsimp only
  rw [if_neg]
  rw [State.active_emit, ha]
  exact Bool.false_ne_true

variable (slot : Nat) (counter : DWord) (k : KeyChange)
theorem execKeyChange_refused {b : Byte} (hp : s.pwr.saving = false) (hr : s.running 32 = true) (h : s.keyRefused k = true) : exec (.keyChange b counter k) s =
    .next (s.emit evCmdRefused secPage [6, wd b.toNat, 0x40020000, lo32 counter.toNat, hi32 counter.toNat, 5]) :=
  congrArg Host.Outcome.next ((if_neg (by rw [hp, hr]; decide)).trans (if_pos h))
theorem execKeyChange_applied {b : Byte} (hp : s.pwr.saving = false) (hr : s.running 32 = true) (h : s.keyRefused k = false) : exec (.keyChange b counter k) s =
    .next (s.keyApply b.toNat counter k) :=
  congrArg Host.Outcome.next ((if_neg (by rw [hp, hr]; decide)).trans (if_neg (by rw [h]; decide)))
theorem State.keyApply_reads : ∃ x : KeySlot, (s.keyApply slot counter k).key k.slotNo.toNat = x ∧
    (k.use = 0 → x = { ctr := (s.key k.slotNo.toNat).ctr }) ∧
    (k.use ≠ 0 → x.use = k.use.toNat ∧ x.perms = k.perms ∧ x.ctr = (s.key k.slotNo.toNat).ctr) ∧
    (∀ j, j ≠ k.slotNo.toNat → (s.keyApply slot counter k).key j = s.key j) ∧ SameMem s (s.keyApply slot counter k) := by
  unfold State.keyApply
  extract_lets n wrap old new t
  have hn : k.use = 0 → new = { ctr := (s.key k.slotNo.toNat).ctr } := fun h => if_pos h
  have hn' : k.use ≠ 0 → new.use = k.use.toNat ∧ new.perms = k.perms ∧ new.ctr = (s.key k.slotNo.toNat).ctr := fun h => by
    have e : new = _ := if_neg h
    rw [e]
    exact ⟨rfl, rfl, rfl⟩
  have hs : Shows (s.setKey k.slotNo.toNat new) (t.emit evKeyChanged secPage [wd n, wd k.use.toNat, wd k.perms.toNat]) :=
    .emit _ _ _ (State.measExtended_shows _ _ _)
  have hm : SameMem s (s.setKey k.slotNo.toNat new) := .refl s
  have hk (j : Nat) : (t.emit evKeyChanged secPage [wd n, wd k.use.toNat, wd k.perms.toNat]).key j = (s.setKey k.slotNo.toNat new).key j :=
    congrArg (fun c : SecSt => c.keys.get (fun _ => ({} : KeySlot)) j) hs.sec
  refine ⟨new, (hk _).trans ((Tab.get_set _ _ _ _ _).trans (if_pos rfl)), hn, hn', fun j hj => (hk j).trans ?_, hm.trans hs.mem⟩
  exact (Tab.get_set _ _ _ _ _).trans (if_neg hj.symm)

end switch

/-- Settles O39: a delivered command has its effect at once where its target is at a boundary, and waits in the queue with the same effect
where the target is between two. -/
theorem commandsDelivered : Obligations.CommandsDelivered := by
  intro s target val ocs fis fs cn slot counter archived k hp
  refine ⟨fun hc hu c hce => ⟨fun h => ?_, fun h hb => ?_⟩, fun h0 hr ha => ⟨?_, ?_⟩, fun h0 h => ⟨execForce_now hp h0 h, execOnlineChange_now hp h0 h⟩,
    fun h0 ha => ?_, fun h0 hr ha => ⟨fun h => ?_, fun h => ?_⟩, fun h0 h hi => ?_, fun g h0 h hi hok => ?_, fun hr h => ?_, fun hr h => ?_,
    fun ho ha h => ?_, fun ho ha => ?_, fun ho => ?_, fun hr hk h0 => ?_, fun hr hk h0 => ?_, fun hr hk => ?_⟩
  · rw [execBlockCtrl_eq hp hc hu, ← hce]
    subst hce
    exact congrArg Host.Outcome.next (State.arrive_now h _)
  · subst hce
    obtain ⟨n, hn⟩ := State.arrive_waits h hb fun s => s.ctrlReach (pageOf target.toNat) true val
    exact ⟨_, (execBlockCtrl_eq hp hc hu).trans (congrArg Host.Outcome.next hn), rfl, rfl, length_quayPut _ _, n, mem_quayPut _ _⟩
  · obtain ⟨n, hn⟩ := State.arrive_lge hr ha (c := forceCmd 0 fis) (State.waitsFor_lge (by decide)) (show pageOf 0x40040000 = 64 by decide) fun s => s.applyForces fis
    exact ⟨_, (execForce_eq hp h0).trans (congrArg Host.Outcome.next hn), rfl, rfl, _, mem_quayPut _ _, rfl, fun hl u => u.applyCmd_forceCmd n hl⟩
  · obtain ⟨n, hn⟩ := State.arrive_lge hr ha (c := ocCmd 0 ocs) (State.waitsFor_lge (by decide)) (show pageOf 0x40040000 = 64 by decide) fun s => s.applyChange ocs
    exact ⟨_, (execOnlineChange_eq hp h0).trans (congrArg Host.Outcome.next hn), rfl, rfl, _, mem_quayPut _ _, rfl, fun hl u => u.applyCmd_ocCmd n hl⟩
  · rw [execForce_now hp h0 (.inr ha), State.applyForces_idle ha]
  · refine ⟨_, (execForce_now hp h0 (.inl hr)).trans (congrArg Host.Outcome.next (State.applyForces_ok ha h)), ?_⟩
    obtain ⟨h1, h2, h3, h4, h5⟩ := s.forced_reads fs
    have hs := (s.forced fs).forcesSaid_shows fis
    have hg := (s.forced fs).forcesSaid_regs fis
    refine ⟨(congrArg LgeSt.forces hs.lge).trans h1, (hg.reg (by decide)).trans h2, State.forcesSaid_causes fis 12 h3, ?_, h5.trans hs.mem⟩
    exact (h4.mono fun _ => List.mem_append_left _).trans (hg.mono fun _ => List.mem_append_right _)
  · refine ⟨_, (execForce_now hp h0 (.inl hr)).trans (congrArg Host.Outcome.next (State.applyForces_error ha h)), ?_⟩
    have hs : Shows s ((s.setReg R.LGE_FC_LAST (wd (cn.1 + 256 * cn.2))).emit evForceRefused 64 [wd cn.1, wd cn.2]) :=
      .emit _ _ _ (.setReg _ _ (.refl s))
    refine ⟨hs.lge, ?_, .emit _ _ _ (.setReg _ (.refl _ s) (by decide)) fun _ => List.mem_append_right _, hs.mem⟩
    rw [State.reg_emit _ _ _ _ (by decide), State.reg_setReg_self]
  · refine ⟨_, (execOnlineChange_now hp h0 h).trans (congrArg Host.Outcome.next (State.applyChange_none hi)), ?_⟩
    have hs : Shows s ((s.setReg R.LGE_OC_LAST 1).emit evOnlineChange 64 [1]) := .emit _ _ _ (.setReg _ _ (.refl s))
    refine ⟨?_, .emit _ _ _ (.setReg _ (.refl _ s) (by decide)) fun _ => List.mem_append_right _, hs.mem⟩
    rw [State.reg_emit _ _ _ _ (by decide), State.reg_setReg_self]
  · refine ⟨_, (execOnlineChange_now hp h0 h).trans (congrArg Host.Outcome.next (State.applyChange_ok hi hok)), ?_⟩
    obtain ⟨h1, h2⟩ := State.changed_reads (s := s) (g := g) ocs
    obtain ⟨h3, h4, h5, h6⟩ := State.changeShown_reads (s := s.changed g ocs) ocs.length
    exact ⟨h3, h4.trans (by rw [h1.reg (by decide)]), h5, h6.trans h2⟩
  · refine ⟨_, congrArg Host.Outcome.next ((if_neg (by rw [hp, hr]; decide)).trans (State.logClear_refused slot counter archived h)), ?_⟩
    obtain ⟨h1, h2, h3⟩ := State.clearRefused_reads (s := s.flushLog) slot archived
    exact ⟨h1, h2, (s.flushLog_shows.trans h3).mem⟩
  · obtain ⟨e, c, c', he, hc, hf, hu⟩ := State.logClear_done (s := s) slot counter archived h
    refine ⟨_, congrArg Host.Outcome.next ((if_neg (by rw [hp, hr]; decide)).trans he), ?_⟩
    obtain ⟨h1, h2, h3, h4⟩ := State.clearShown_reads (s := { s.flushLog with evr := e }) slot c
    exact ⟨h1, h2, by rw [h3.trans hc]; exact hf, h4.trans hu⟩
  · have hs : Shows s (s.emit evSwitch plkPage []) := .emit _ _ _ (.refl s)
    have hg : RegsBut evrRegs s (s.emit evSwitch plkPage []) := .emit _ _ _ (.refl _ s) fun _ h => h
    refine ⟨_, (execSwitch_eq hp ho).trans (congrArg Host.Outcome.next (State.switchTake_waits ha h)), ?_, .same hg rfl, hs.mem.trans (.refl _)⟩
    exact congrArg (fun p : PlkSt => { p with finalReq := true }) hs.plk
  · rw [execSwitch_eq hp ho, State.switchTake_now ha]
  · exact congrArg Host.Outcome.next (if_pos (.inr (by rw [ho]; rfl)))
  · obtain ⟨x, h1, h2, -, h4, h5⟩ := State.keyApply_reads (s := s) slot.toNat counter k
    exact ⟨_, execKeyChange_applied counter k hp hr hk, h1.trans (h2 h0), h4, h5⟩
  · obtain ⟨x, h1, -, h3, h4, h5⟩ := State.keyApply_reads (s := s) slot.toNat counter k
    obtain ⟨g1, g2, g3⟩ := h3 h0
    exact ⟨_, execKeyChange_applied counter k hp hr hk, by rw [h1, g1], by rw [h1, g2], by rw [h1, g3], h4, h5⟩
  · have hs : Shows s (s.emit evCmdRefused secPage [6, wd slot.toNat, 0x40020000, lo32 counter.toNat, hi32 counter.toNat, 5]) := .emit _ _ _ (.refl s)
    exact ⟨_, execKeyChange_refused counter k hp hr hk, hs.sec, .emit _ _ _ (.refl _ s) fun _ h => h, hs.mem⟩

end Sys2Proof.Machine
end

section
/-! The real-time clock: the calendar, coherent reads, staged times, the backup cell and the trim (R660 to R672). -/

namespace Sys2Proof.Machine

/-! ### Event flags and SUB -/

section flags
variable (s : State)

theorem State.rtcEvt_regs (i : Nat) : (s.rtcEvt i).regs = (s.setFlag R.RTC_EVT i true).regs := by
  unfold State.rtcEvt
  dsimp only
  generalize (if i = 0 then 8 else if i = 1 then 9 else if i = 2 then 10 else if i = 4 then 11 else 0) = c
  split
  · rfl
  · rfl
theorem State.rtcEvt_but (i : Nat) : RegsBut [R.RTC_EVT] s (s.rtcEvt i) := .same (.setFlag i true (.refl _ s) (by decide)) (s.rtcEvt_regs i)
theorem State.rtcEvt_shows (i : Nat) : Shows s (s.rtcEvt i) := .ite (.irq _ _ (.setFlag _ _ _ (.refl s))) (.setFlag _ _ _ (.refl s))
theorem State.rtcEvt_flag (i : Nat) {j : Nat} (hj : j < 32) : (s.rtcEvt i).flag R.RTC_EVT j = if i = j then true else s.flag R.RTC_EVT j := by
  have e : (s.rtcEvt i).flag R.RTC_EVT j = (s.setFlag R.RTC_EVT i true).flag R.RTC_EVT j :=
    congrArg (fun r : Tab Word => bit (r.get regReset R.RTC_EVT) j) (s.rtcEvt_regs i)
  rw [e, State.flag_setFlag _ _ _ _ _ _ hj]
  simp

theorem State.setSub_regs (p : Nat) : (s.setSub p).regs = (s.setFld R.RTC_TIME0 14 0 (p / 2 ^ 20)).regs := rfl
theorem State.setSub_reg (p a : Nat) : (s.setSub p).reg a = (s.setFld R.RTC_TIME0 14 0 (p / 2 ^ 20)).reg a := rfl
theorem State.setSub_but (p : Nat) : RegsBut [R.RTC_TIME0] s (s.setSub p) := .same (.setFld 14 0 _ (.refl _ s) (by decide)) (s.setSub_regs p)
theorem State.setSub_rtc (p : Nat) : (s.setSub p).rtc = { s.rtc with frac := p % 2 ^ 20 } := rfl
theorem State.setSub_mem (p : Nat) : SameMem s (s.setSub p) := .refl s
/-- SUB takes its count, and the fields above it stay. -/
theorem State.setSub_sub (p : Nat) : (s.setSub p).fld R.RTC_TIME0 14 0 = p / 2 ^ 20 % 2 ^ 15 ∧
    bits ((s.setSub p).reg R.RTC_TIME0) 31 15 = bits (s.reg R.RTC_TIME0) 31 15 :=
  ⟨s.fld_setFld _ 0 _ (by decide) (le_refl _), s.fld_setFld_ne _ _ (by decide) (by decide)⟩

end flags

/-! ### A new second -/

section second
variable {s : State}

/-- The calendar set to a time, with the SUB that the trim carries over. -/
def State.calSet (s : State) (n : Word × Word × Word) : State :=
  (((s.setReg R.RTC_TIME0 n.1).setReg R.RTC_TIME1 n.2.1).setReg R.RTC_TIME2 n.2.2).setSub s.subCarry
/-- The alarms evaluated. -/
def State.alarms (s : State) : State :=
  let s := if alarmHit s 0 then s.rtcEvt 0 else s
  if alarmHit s 1 then s.rtcEvt 1 else s
theorem execRtcSecond_counts (h : calOf (s.reg R.RTC_TIME0) (s.reg R.RTC_TIME1) (s.reg R.RTC_TIME2) ≠ (2399, 12, 31, 23, 59, 59)) :
    exec .rtcSecond s = .next (s.calSet (calNext (s.reg R.RTC_TIME0) (s.reg R.RTC_TIME1) (s.reg R.RTC_TIME2))).alarms := by
  change execRtcSecond s = _
  unfold execRtcSecond
  dsimp only
  rw [if_neg h]
  generalize calNext (s.reg R.RTC_TIME0) (s.reg R.RTC_TIME1) (s.reg R.RTC_TIME2) = n
  rfl
theorem State.calSet_reads (n : Word × Word × Word) : bits ((s.calSet n).reg R.RTC_TIME0) 31 15 = bits n.1 31 15 ∧
    (s.calSet n).reg R.RTC_TIME1 = n.2.1 ∧ (s.calSet n).reg R.RTC_TIME2 = n.2.2 ∧ (s.calSet n).fld R.RTC_TIME0 14 0 = s.subCarry / 2 ^ 20 % 2 ^ 15 ∧
    (s.calSet n).rtc.frac = s.subCarry % 2 ^ 20 ∧ RegsBut [R.RTC_TIME0, R.RTC_TIME1, R.RTC_TIME2] s (s.calSet n) ∧ SameMem s (s.calSet n) := by
  unfold State.calSet
  generalize s.subCarry = p
  have hr : RegsBut [R.RTC_TIME0, R.RTC_TIME1, R.RTC_TIME2] s (((s.setReg R.RTC_TIME0 n.1).setReg R.RTC_TIME1 n.2.1).setReg R.RTC_TIME2 n.2.2) :=
    .setReg _ (.setReg _ (.setReg _ (.refl _ s) (by decide)) (by decide)) (by decide)
  have hm : SameMem s (((s.setReg R.RTC_TIME0 n.1).setReg R.RTC_TIME1 n.2.1).setReg R.RTC_TIME2 n.2.2) := .refl s
  have h0 : (((s.setReg R.RTC_TIME0 n.1).setReg R.RTC_TIME1 n.2.1).setReg R.RTC_TIME2 n.2.2).reg R.RTC_TIME0 = n.1 := by
    rw [State.reg_setReg_ne _ _ (by decide), State.reg_setReg_ne _ _ (by decide), State.reg_setReg_self]
  have h1 : (((s.setReg R.RTC_TIME0 n.1).setReg R.RTC_TIME1 n.2.1).setReg R.RTC_TIME2 n.2.2).reg R.RTC_TIME1 = n.2.1 := by
    rw [State.reg_setReg_ne _ _ (by decide), State.reg_setReg_self]
  have h2 : (((s.setReg R.RTC_TIME0 n.1).setReg R.RTC_TIME1 n.2.1).setReg R.RTC_TIME2 n.2.2).reg R.RTC_TIME2 = n.2.2 := State.reg_setReg_self _ _ _
  generalize (((s.setReg R.RTC_TIME0 n.1).setReg R.RTC_TIME1 n.2.1).setReg R.RTC_TIME2 n.2.2) = u at *
  have hb := u.setSub_but p
  obtain ⟨g1, g2⟩ := u.setSub_sub p
  exact ⟨by rw [g2, h0], by rw [hb.reg (by decide), h1], by rw [hb.reg (by decide), h2], g1, rfl, hr.trans (hb.mono (by decide)), hm.trans (u.setSub_mem p)⟩
theorem State.alarms_shows : Shows s s.alarms := by
  unfold State.alarms
  have h : Shows s (if alarmHit s 0 then s.rtcEvt 0 else s) := .ite (s.rtcEvt_shows 0) (.refl s)
  exact .ite (h.trans (State.rtcEvt_shows _ 1)) h
theorem State.alarms_but : RegsBut [R.RTC_EVT] s s.alarms := by
  unfold State.alarms
  have h : RegsBut [R.RTC_EVT] s (if alarmHit s 0 then s.rtcEvt 0 else s) := .ite (s.rtcEvt_but 0) (.refl _ s)
  exact .ite (h.trans (State.rtcEvt_but _ 1)) h
/-- An alarm that is not enabled does not match. -/
theorem alarmHit_off {a : Nat} (h : s.flag (R.RTC_ALM_MASK a) 8 = false) : alarmHit s a = false := by
  unfold alarmHit
  dsimp only
  rw [show bit (s.reg (R.RTC_ALM_MASK a)) 8 = false from h]
  rfl
theorem State.alarms_off {a : Nat} (ha : a < 2) (h : s.flag (R.RTC_ALM_MASK a) 8 = false) : s.alarms.flag R.RTC_EVT a = s.flag R.RTC_EVT a := by
  obtain rfl | rfl : a = 0 ∨ a = 1 := by omega
  · unfold State.alarms
    dsimp only
    rw [alarmHit_off h, if_neg Bool.false_ne_true]
    split
    · rw [State.rtcEvt_flag _ _ (by decide), if_neg (by decide)]
    · rfl
  · have hu : (if alarmHit s 0 then s.rtcEvt 0 else s).flag (R.RTC_ALM_MASK 1) 8 = false := by
      rw [← h]
      exact congrArg (bit · 8) ((RegsBut.ite (s.rtcEvt_but 0) (.refl _ s) : RegsBut [R.RTC_EVT] s _).reg (by decide))
    unfold State.alarms
    dsimp only
    rw [alarmHit_off hu, if_neg Bool.false_ne_true]
    split
    · rw [State.rtcEvt_flag _ _ (by decide), if_neg (by decide)]
    · rfl

/-- The calendar stops at the end of its range. -/
def State.calStopped (s : State) : State := ((s.setReg R.RTC_TIME0 (pack0 32767 59 59)).setFlag R.RTC_STAT 0 false).setFlag R.RTC_STAT 6 true
theorem execRtcSecond_stops (h : calOf (s.reg R.RTC_TIME0) (s.reg R.RTC_TIME1) (s.reg R.RTC_TIME2) = (2399, 12, 31, 23, 59, 59)) :
    exec .rtcSecond s = .next s.calStopped := by
  change execRtcSecond s = _
  unfold execRtcSecond
  dsimp only
  rw [if_pos h, State.calStopped]
theorem State.calStopped_reads (s : State) : s.calStopped.flag R.RTC_STAT 0 = false ∧ s.calStopped.flag R.RTC_STAT 6 = true ∧
    RegsBut [R.RTC_TIME0, R.RTC_STAT] s s.calStopped := by
  unfold State.calStopped
  generalize hu : s.setReg R.RTC_TIME0 (pack0 32767 59 59) = u
  have hr : RegsBut [R.RTC_TIME0, R.RTC_STAT] s u := hu ▸ .setReg _ (.refl _ s) (by decide)
  refine ⟨?_, ?_, .setFlag _ _ (.setFlag _ _ hr (by decide)) (by decide)⟩
  · rw [State.flag_setFlag _ _ _ _ _ _ (by decide), if_neg (by decide), State.flag_setFlag _ _ _ _ _ _ (by decide), if_pos ⟨rfl, rfl⟩]
  · rw [State.flag_setFlag _ _ _ _ _ _ (by decide), if_pos ⟨rfl, rfl⟩]

end second

/-! ### Reads -/

section reads
variable {s : State} {who : Initiator}

/-- The time set held in the shadows. -/
def State.heldTime (s : State) : State :=
  { s.setFlag R.RTC_STAT 1 true with rtc := { s.rtc with sh0 := s.reg R.RTC_TIME0, sh1 := s.reg R.RTC_TIME1, sh2 := s.reg R.RTC_TIME2 } }
theorem State.freeze_held (h : s.flag R.RTC_STAT 1 = true) : s.freeze = s := if_pos h
theorem State.freeze_free (h : s.flag R.RTC_STAT 1 = false) : s.freeze = s.rtcRun.heldTime := if_neg (by rw [h]; decide)
theorem State.heldTime_reads (s : State) : s.heldTime.rtc.sh0 = s.reg R.RTC_TIME0 ∧ s.heldTime.rtc.sh1 = s.reg R.RTC_TIME1 ∧
    s.heldTime.rtc.sh2 = s.reg R.RTC_TIME2 ∧ s.heldTime.flag R.RTC_STAT 1 = true ∧ RegsBut [R.RTC_STAT] s s.heldTime := by
  have hr : s.heldTime.regs = (s.setFlag R.RTC_STAT 1 true).regs := rfl
  refine ⟨rfl, rfl, rfl, ?_, .same (.setFlag _ _ (.refl _ s) (by decide)) hr⟩
  have h : s.heldTime.flag R.RTC_STAT 1 = (s.setFlag R.RTC_STAT 1 true).flag R.RTC_STAT 1 := rfl
  rw [h, State.flag_setFlag _ _ _ _ _ _ (by decide), if_pos ⟨rfl, rfl⟩]
/-- The counter runs on within its second, through a free number of cycles (log entry 80). -/
theorem State.rtcRun_reads (s : State) : bits (s.rtcRun.reg R.RTC_TIME0) 31 15 = bits (s.reg R.RTC_TIME0) 31 15 ∧
    (∃ n, n ≤ s.oscLeft ∧ s.rtcRun.fld R.RTC_TIME0 14 0 = (s.subPhase + n * s.trimRate) / 2 ^ 20 % 2 ^ 15) ∧ RegsBut [R.RTC_TIME0] s s.rtcRun ∧
    SameMem s s.rtcRun ∧ ∃ f, s.rtcRun.rtc = { s.rtc with frac := f } := by
  have h : s.rtcRun = s.fresh.2.setSub (s.subPhase + min (s.fresh.1.toNat % (s.oscLeft + 1)) s.oscLeft * s.trimRate) := rfl
  have hr : s.fresh.2.regs = s.regs := rfl
  have hc : s.fresh.2.rtc = s.rtc := rfl
  have hm : SameMem s s.fresh.2 := .refl s
  have ht : s.fresh.2.reg R.RTC_TIME0 = s.reg R.RTC_TIME0 := rfl
  have hn : min (s.fresh.1.toNat % (s.oscLeft + 1)) s.oscLeft ≤ s.oscLeft := Nat.min_le_right _ _
  rw [h]
  generalize min (s.fresh.1.toNat % (s.oscLeft + 1)) s.oscLeft = n at *
  generalize s.fresh.2 = u at *
  obtain ⟨g1, g2⟩ := u.setSub_sub (s.subPhase + n * s.trimRate)
  exact ⟨by rw [g2, ht], ⟨n, hn, g1⟩, (RegsBut.same (.refl _ s) hr).trans (u.setSub_but _), hm.trans (u.setSub_mem _),
    (s.subPhase + n * s.trimRate) % 2 ^ 20, by rw [State.setSub_rtc, hc]⟩

end reads

/-! ### Staged times -/

section staged
variable {s : State} {who : Initiator}

/-- A staged time on its way to the counter. -/
def State.commitHeld (s : State) : State :=
  { s.setFlag R.RTC_STAT 4 true with rtc := { s.rtc with c0 := s.reg R.RTC_STAGE0, c1 := s.reg R.RTC_STAGE1, c2 := s.reg R.RTC_STAGE2 } }
theorem stageBad_answer (v : Word) : stageBad (s.answer v) = stageBad s := rfl
theorem execCommitGo_bad {pos : Nat} (hm : MayWrite who R.RTC_COMMIT s = true) (hb : s.flag R.RTC_STAT 4 = false) (h : stageBad s = some pos) :
    exec (.commitGo who) s = .next (((s.answer 0).setFlag R.RTC_STAT 5 true).errc 35 0x100 pos) := by
  refine congrArg Host.Outcome.next ((s.gate_may _ hm).trans ((if_neg (show ¬ s.flag R.RTC_STAT 4 = true by rw [hb]; decide)).trans ?_))
  rw [stageBad_answer, h]
theorem execCommitGo_good (hm : MayWrite who R.RTC_COMMIT s = true) (hb : s.flag R.RTC_STAT 4 = false) (h : stageBad s = none) :
    exec (.commitGo who) s = .next (s.answer 0).commitHeld := by
  refine congrArg Host.Outcome.next ((s.gate_may _ hm).trans ((if_neg (show ¬ s.flag R.RTC_STAT 4 = true by rw [hb]; decide)).trans ?_))
  rw [stageBad_answer, h]
  rfl
theorem State.commitHeld_reads (s : State) : s.commitHeld.flag R.RTC_STAT 4 = true ∧ s.commitHeld.rtc.c0 = s.reg R.RTC_STAGE0 ∧
    s.commitHeld.rtc.c1 = s.reg R.RTC_STAGE1 ∧ s.commitHeld.rtc.c2 = s.reg R.RTC_STAGE2 ∧ RegsBut [R.RTC_STAT] s s.commitHeld ∧ SameMem s s.commitHeld := by
  have hr : s.commitHeld.regs = (s.setFlag R.RTC_STAT 4 true).regs := rfl
  have hf : s.commitHeld.flag R.RTC_STAT 4 = (s.setFlag R.RTC_STAT 4 true).flag R.RTC_STAT 4 := rfl
  refine ⟨?_, rfl, rfl, rfl, .same (.setFlag _ _ (.refl _ s) (by decide)) hr, .refl s⟩
  rw [hf, State.flag_setFlag _ _ _ _ _ _ (by decide), if_pos ⟨rfl, rfl⟩]

/-- The calendar loaded with a time, and what STAT shows of it. -/
def State.calLoaded (s : State) (n0 n1 n2 : Word) : State :=
  let s := ((s.setReg R.RTC_TIME0 n0).setReg R.RTC_TIME1 n1).setReg R.RTC_TIME2 n2
  s.setReg R.RTC_STAT (putBit (putBit (putBit (putBit (s.reg R.RTC_STAT) 0 true) 4 false) 5 false) 6 false)
/-- TIME1 of the staged time. -/
def State.stagedDay (s : State) : Word :=
  pack1 (bits s.rtc.c1 4 0) (wdayOf (bits s.rtc.c2 11 0) (bits s.rtc.c1 27 24) (bits s.rtc.c1 20 16)) (bits s.rtc.c1 20 16) (bits s.rtc.c1 27 24)
theorem execCommitLoad_loads (h : s.flag R.RTC_STAT 4 = true) : ∃ n0 l, exec .commitLoad s =
    .next ((s.rtcRun.calLoaded n0 s.rtcRun.stagedDay (wd (bits s.rtcRun.rtc.c2 11 0))).emit evRtcSet 35 l) := by
  change ∃ n0 l, execCommitLoad s = _
  unfold execCommitLoad
  rw [if_pos h]
  dsimp only
  generalize s.rtcRun = u
  exact ⟨_, _, rfl⟩
theorem State.calLoaded_reads (s : State) (n0 n1 n2 : Word) : (s.calLoaded n0 n1 n2).flag R.RTC_STAT 0 = true ∧
    (s.calLoaded n0 n1 n2).flag R.RTC_STAT 4 = false ∧ (s.calLoaded n0 n1 n2).flag R.RTC_STAT 5 = false ∧
    (s.calLoaded n0 n1 n2).flag R.RTC_STAT 6 = false ∧ (s.calLoaded n0 n1 n2).reg R.RTC_TIME2 = n2 ∧ (s.calLoaded n0 n1 n2).reg R.RTC_TIME1 = n1 ∧
    RegsBut [R.RTC_TIME0, R.RTC_TIME1, R.RTC_TIME2, R.RTC_STAT] s (s.calLoaded n0 n1 n2) ∧ Shows s (s.calLoaded n0 n1 n2) := by
  unfold State.calLoaded
  dsimp only
  generalize hu : ((s.setReg R.RTC_TIME0 n0).setReg R.RTC_TIME1 n1).setReg R.RTC_TIME2 n2 = u
  have hr : RegsBut [R.RTC_TIME0, R.RTC_TIME1, R.RTC_TIME2, R.RTC_STAT] s u :=
    hu ▸ .setReg _ (.setReg _ (.setReg _ (.refl _ s) (by decide)) (by decide)) (by decide)
  have hs : Shows s u := hu ▸ .setReg _ _ (.setReg _ _ (.setReg _ _ (.refl s)))
  have h2 : u.reg R.RTC_TIME2 = n2 := hu ▸ State.reg_setReg_self _ _ _
  have h1 : u.reg R.RTC_TIME1 = n1 := by
    rw [← hu, State.reg_setReg_ne _ _ (by decide), State.reg_setReg_self]
  have hb (i : Nat) (hi : i < 32) : (u.setReg R.RTC_STAT (putBit (putBit (putBit (putBit (u.reg R.RTC_STAT) 0 true) 4 false) 5 false) 6 false)).flag R.RTC_STAT i =
      if 6 = i then false else if 5 = i then false else if 4 = i then false else if 0 = i then true else u.flag R.RTC_STAT i := by
    rw [State.flag_setReg _ _ _ _, if_pos rfl, bit_putBit _ _ _ _ hi, bit_putBit _ _ _ _ hi, bit_putBit _ _ _ _ hi, bit_putBit _ _ _ _ hi]
    rfl
  exact ⟨hb 0 (by decide), hb 4 (by decide), hb 5 (by decide), hb 6 (by decide), by rw [State.reg_setReg_ne _ _ (by decide), h2],
    by rw [State.reg_setReg_ne _ _ (by decide), h1], .setReg _ hr (by decide), .setReg _ _ hs⟩
/-- The weekday of a packed time. -/
theorem bits_pack1_wday {hour wday day month : Nat} (h1 : hour < 256) (h2 : wday < 8) : bits (pack1 hour wday day month) 10 8 = wday := by
  simp only [bits, pack1, wd, BitVec.toNat_ofNat, Nat.shiftRight_eq_div_pow]
  omega
theorem wdayOf_lt (y m d : Nat) : wdayOf y m d < 8 := by
  unfold wdayOf
  omega
theorem bits_lt (w : Word) (hi lo : Nat) : bits w hi lo < 2 ^ (hi + 1 - lo) := Nat.mod_lt _ (by positivity)

end staged

/-! ### The backup cell and the trim -/

section trim
variable {s : State}

theorem execBackupSwitch_changes {b : Bool} (h : s.flag R.RTC_STAT 2 ≠ b) : Answers (.backupSwitch b) s fun t => t.flag R.RTC_STAT 2 = b ∧
    (b = true → t.flag R.RTC_EVT 5 = true) ∧ RegsBut [R.RTC_STAT, R.RTC_EVT] s t ∧ SameMem s t := by
  have hf : (s.setFlag R.RTC_STAT 2 b).flag R.RTC_STAT 2 = b := by rw [State.flag_setFlag _ _ _ _ _ _ (by decide), if_pos ⟨rfl, rfl⟩]
  have hr : RegsBut [R.RTC_STAT, R.RTC_EVT] s (s.setFlag R.RTC_STAT 2 b) := .setFlag _ _ (.refl _ s) (by decide)
  have hs : Shows s (s.setFlag R.RTC_STAT 2 b) := .setFlag _ _ _ (.refl s)
  refine ⟨_, if_neg h, ?_⟩
  generalize s.setFlag R.RTC_STAT 2 b = u at *
  have h2 : (if b then u.rtcEvt 5 else u).flag R.RTC_STAT 2 = b ∧ (b = true → (if b then u.rtcEvt 5 else u).flag R.RTC_EVT 5 = true) ∧
      RegsBut [R.RTC_STAT, R.RTC_EVT] s (if b then u.rtcEvt 5 else u) ∧ SameMem s (if b then u.rtcEvt 5 else u) := by
    refine ⟨?_, fun e => ?_, .ite (hr.trans ((u.rtcEvt_but 5).mono (by decide))) hr, (hs.trans (.ite (u.rtcEvt_shows 5) (.refl u))).mem⟩
    · split
      · exact (congrArg (bit · 2) ((u.rtcEvt_but 5).reg (by decide))).trans hf
      · exact hf
    · rw [if_pos e, State.rtcEvt_flag _ _ (by decide), if_pos rfl]
  generalize (if b then u.rtcEvt 5 else u) = v at *
  split
  · exact h2
  · exact h2

/-- A field of 10 bits holds a signed value within its range. -/
theorem sext_unsext_clamp (x : Int) : sext 10 (unsext 10 (clampI (-512) 511 x) % 2 ^ 10) = clampI (-512) 511 x := by
  have h : -512 ≤ clampI (-512) 511 x ∧ clampI (-512) 511 x ≤ 511 := by
    unfold clampI
    split
    · omega
    · split
      · omega
      · omega
  generalize clampI (-512) 511 x = v at *
  have e : ((unsext 10 v : Nat) : Int) = v % 1024 := Int.toNat_of_nonneg (Int.emod_nonneg _ (by decide))
  unfold sext
  dsimp only
  split <;> omega

/-- What the oscillator was off by over a window of 32 s, in counts. -/
def trimCorr (elapsed : Nat) : Int := rha (((elapsed : Int) - 32000000000) * 2 ^ 20) 32000000000
/-- The trim corrected. -/
def State.trimmed (s : State) (elapsed : Nat) : State :=
  (s.setFld R.RTC_TRIM 9 0 (unsext 10 (clampI (-512) 511 (sext 10 (s.fld R.RTC_TRIM 9 0) + trimCorr elapsed)))).setReg R.RTC_TRIM_ERR (wi (trimCorr elapsed))
theorem execTrimWindow_trims {elapsed : Nat} (h : s.flag R.RTC_TRIM 16 = true) (hl : s.fld R.PTP_SERVO_STAT 2 0 = 2) :
    exec (.trimWindow true elapsed) s = .next (s.trimmed elapsed) := by
  change execTrimWindow true elapsed s = _
  unfold execTrimWindow
  rw [if_pos ⟨h, rfl, hl⟩]
  rfl
theorem State.trimmed_reads (elapsed : Nat) : sext 10 ((s.trimmed elapsed).fld R.RTC_TRIM 9 0) =
    clampI (-512) 511 (sext 10 (s.fld R.RTC_TRIM 9 0) + trimCorr elapsed) ∧
    RegsBut [R.RTC_TRIM, R.RTC_TRIM_ERR] s (s.trimmed elapsed) ∧ SameMem s (s.trimmed elapsed) := by
  unfold State.trimmed
  refine ⟨?_, .setReg _ (.setFld _ _ _ (.refl _ s) (by decide)) (by decide), .refl s⟩
  rw [State.fld_setReg, if_neg (by decide), State.fld_setFld _ _ _ _ (by decide) (le_refl _)]
  exact sext_unsext_clamp _

end trim

/-- Settles O42: each command of the calendar does what its rule says of the time, the flags and the shadows. -/
theorem realTimeClock : Obligations.RealTimeClock := by
  intro s who val b elapsed pos
  refine ⟨fun h => ?_, fun h => ?_, fun h => congrArg Host.Outcome.next (if_pos h), fun h => congrArg Host.Outcome.next (if_neg (by rw [h]; decide)),
    fun hm => ⟨fun h1 h2 => ?_, fun h => ?_⟩, fun hm hf => ?_, fun hm hf => ?_, fun hm hf => ?_, fun hf => ?_,
    fun hm hb => ⟨execCommitGo_bad hm hb, fun h => ?_⟩, fun hf => ?_, execBackupSwitch_changes, rfl, rfl, fun hf hl => ?_, fun h => ?_⟩
  · refine ⟨_, execRtcSecond_counts h, ?_⟩
    obtain ⟨h0, h1, h2, h3, h4, h5, h6⟩ := s.calSet_reads (calNext (s.reg R.RTC_TIME0) (s.reg R.RTC_TIME1) (s.reg R.RTC_TIME2))
    generalize hn : calNext (s.reg R.RTC_TIME0) (s.reg R.RTC_TIME1) (s.reg R.RTC_TIME2) = n at *
    generalize s.calSet n = u at *
    have ha := u.alarms_but
    refine ⟨fun m e => ?_, ?_, (congrArg RtcSt.frac u.alarms_shows.rtc).trans h4, fun a ha2 hf => ?_, ?_, h6.trans u.alarms_shows.mem⟩
    · rw [e, ha.reg (by decide), ha.reg (by decide), ha.reg (by decide)]
      exact ⟨h0, h1, h2⟩
    · exact (congrArg (bits · 14 0) (ha.reg (by decide))).trans h3
    · have e : u.flag (R.RTC_ALM_MASK a) 8 = s.flag (R.RTC_ALM_MASK a) 8 := congrArg (bit · 8) (h5.reg (by
        simp only [R.RTC_ALM_MASK, R.RTC_TIME0, R.RTC_TIME1, R.RTC_TIME2, List.mem_cons, List.not_mem_nil, or_false]; omega))
      have e2 : u.flag R.RTC_EVT a = s.flag R.RTC_EVT a := congrArg (bit · a) (h5.reg (by decide))
      rw [State.alarms_off ha2 (e.trans hf), e2]
    · exact (h5.mono (by decide)).trans (ha.mono (by decide))
  · obtain ⟨h1, h2, h3⟩ := s.calStopped_reads
    exact ⟨_, execRtcSecond_stops h, h1, h2, h3.reg (by decide), h3.reg (by decide)⟩
  · exact congrArg Host.Outcome.next ((s.gate_may _ hm).trans (if_pos ⟨h1, h2⟩))
  · exact congrArg Host.Outcome.next ((s.gate_may _ hm).trans (if_neg (by omega)))
  · refine ⟨(s.rtcRun.heldTime).answer s.rtcRun.heldTime.rtc.sh0, ?_, ?_⟩
    · have h : exec (.timeRead who false) s = .next (s.freeze.answer s.freeze.rtc.sh0) := congrArg Host.Outcome.next (s.rgate_may _ hm)
      exact h.trans (by rw [State.freeze_free hf])
    · obtain ⟨h1, h2, h3, -, -⟩ := s.rtcRun_reads
      obtain ⟨g0, g1, g2, g3, g4⟩ := s.rtcRun.heldTime_reads
      have ht : (s.rtcRun.heldTime.answer s.rtcRun.heldTime.rtc.sh0).reg R.RTC_TIME0 = s.rtcRun.reg R.RTC_TIME0 := g4.reg (by decide)
      refine ⟨?_, ?_, ?_, g3, ?_, ?_, (h3.mono (by decide)).trans (.answer _ (g4.mono (by decide)))⟩
      · rw [ht, ← g0]
        rfl
      · rw [ht, h1]
      · rw [State.fld, ht]
        exact h2
      · exact g1.trans (h3.reg (by decide))
      · exact g2.trans (h3.reg (by decide))
  · have h : exec (.timeRead who true) s = .next (s.freeze.answer s.freeze.rtc.sh1) := congrArg Host.Outcome.next (s.rgate_may _ hm)
    rw [State.freeze_held hf] at h
    exact ⟨_, h, rfl, rfl, rfl⟩
  · have h : exec (.time2Read who) s = .next ((s.freeze.answer s.freeze.rtc.sh2).setFlag R.RTC_STAT 1 false) :=
      congrArg Host.Outcome.next (s.rgate_may _ hm)
    rw [State.freeze_held hf] at h
    refine ⟨_, h, rfl, ?_, .setFlag _ _ (.answer _ (.refl _ s)) (by decide)⟩
    rw [State.flag_setFlag _ _ _ _ _ _ (by decide), if_pos ⟨rfl, rfl⟩]
  · refine ⟨_, congrArg Host.Outcome.next (if_pos hf), ?_, ?_, ?_, ((Shows.setFlag _ _ _ (.refl s)).trans (State.rtcEvt_shows _ 3)).mem⟩
    · refine (congrArg (bit · 1) ((State.rtcEvt_but _ 3).reg (by decide))).trans ?_
      exact (State.flag_setFlag _ _ _ _ _ _ (by decide)).trans (if_pos ⟨rfl, rfl⟩)
    · rw [State.rtcEvt_flag _ _ (by decide), if_pos rfl]
    · exact (RegsBut.setFlag 1 false (.refl _ s) (by decide)).trans ((State.rtcEvt_but _ 3).mono (by decide))
  · obtain ⟨h1, h2, h3, h4, h5, h6⟩ := (s.answer 0).commitHeld_reads
    exact ⟨_, execCommitGo_good hm hb h, h1, h2, h3, h4, h5, h6⟩
  · obtain ⟨n0, l, he⟩ := execCommitLoad_loads hf
    refine ⟨_, he, ?_⟩
    obtain ⟨-, -, h3, h4, f, h5⟩ := s.rtcRun_reads
    obtain ⟨g0, g4, g5, g6, gt, gd, gr, gs⟩ := s.rtcRun.calLoaded_reads n0 s.rtcRun.stagedDay (wd (bits s.rtcRun.rtc.c2 11 0))
    have hd : s.rtcRun.stagedDay = s.stagedDay := by rw [State.stagedDay, h5, State.stagedDay]
    have h2 : s.rtcRun.rtc.c2 = s.rtc.c2 := by rw [h5]
    have hw : RegsBut evrRegs (s.rtcRun.calLoaded n0 s.rtcRun.stagedDay (wd (bits s.rtcRun.rtc.c2 11 0)))
        ((s.rtcRun.calLoaded n0 s.rtcRun.stagedDay (wd (bits s.rtcRun.rtc.c2 11 0))).emit evRtcSet 35 l) := .emit _ _ _ (.refl _ _) fun _ h => h
    have hst : R.RTC_STAT ∉ evrRegs := by decide
    refine ⟨(congrArg (bit · 0) (hw.reg hst)).trans g0, (congrArg (bit · 4) (hw.reg hst)).trans g4, (congrArg (bit · 5) (hw.reg hst)).trans g5,
      (congrArg (bit · 6) (hw.reg hst)).trans g6, ?_, ?_, ?_, (h4.trans gs.mem).trans (Shows.emit _ _ _ (.refl _)).mem⟩
    · rw [hw.reg (by decide), gt, h2]
    · rw [hw.reg (by decide), gd, hd]
      exact bits_pack1_wday ((bits_lt _ _ _).trans (by decide)) (wdayOf_lt _ _ _)
    · rw [hw.reg (by decide), gr.reg (by decide), h3.reg (by decide)]
  · exact ⟨_, execTrimWindow_trims hf hl, State.trimmed_reads elapsed⟩
  · refine if_neg ?_
    rintro ⟨h1, -, h2⟩
    obtain h | h := h
    · rw [h] at h1
      exact Bool.false_ne_true h1
    · exact h h2

end Sys2Proof.Machine
end

section
/-! The panel driver: the waveform table, updates, frames, rails and recovery (R675 to R691). -/

namespace Sys2Proof.Machine

theorem Shows.pnl {s t : State} (h : Shows s t) : t.pnl = s.pnl := by
  obtain ⟨r, x, c, e, rfl⟩ := h
  rfl

/-- The panel driver replaced. -/
def State.putPnl (s : State) (p : PnlSt) : State := { s with pnl := p }

section putPnl
variable (s : State) (p : PnlSt)
theorem State.putPnl_pnl : (s.putPnl p).pnl = p := rfl
theorem State.putPnl_regs : (s.putPnl p).regs = s.regs := rfl
theorem State.putPnl_mem : SameMem s (s.putPnl p) := .refl s

/-- The driver replaced and one register set: what changes. -/
theorem State.putPnl_setReg_reads (a : Nat) (v : Word) : ((s.putPnl p).setReg a v).pnl = p ∧ ((s.putPnl p).setReg a v).reg a = v ∧
    RegsBut [a] s ((s.putPnl p).setReg a v) ∧ SameMem s ((s.putPnl p).setReg a v) := by
  have hr : RegsBut [a] s (s.putPnl p) := .same (.refl _ s) rfl
  have hm := s.putPnl_mem p
  have hp := s.putPnl_pnl p
  generalize s.putPnl p = u at *
  exact ⟨hp, State.reg_setReg_self _ _ _, .setReg _ hr (List.mem_singleton_self a), hm.trans (.refl u)⟩
/-- The same with a cause of the panel raised. -/
theorem State.putPnl_setReg_irq_reads (a : Nat) (v : Word) {i : Nat} (hi : i < 32) : (((s.putPnl p).setReg a v).irq 192 i).pnl = p ∧
    (((s.putPnl p).setReg a v).irq 192 i).reg a = v ∧ bit ((((s.putPnl p).setReg a v).irq 192 i).page 192).irqStat i = true ∧
    RegsBut [a] s (((s.putPnl p).setReg a v).irq 192 i) ∧ SameMem s (((s.putPnl p).setReg a v).irq 192 i) := by
  obtain ⟨h1, h2, h3, h4⟩ := s.putPnl_setReg_reads p a v
  generalize (s.putPnl p).setReg a v = u at *
  exact ⟨h1, h2, State.bit_irqStat_irq _ _ hi, .irq _ _ h3, h4.trans (Shows.irq _ _ (.refl u)).mem⟩

end putPnl

/-! ### The waveform table -/

section waveform
variable {s : State} {who : Initiator} {val : Word}

theorem execWfBegin_stop (hm : MayWrite who R.PNL_WF_CTL s = true) (h : s.shown 192 = 1) :
    exec (.wfBegin who) s = .next (((s.answer 0).putPnl { s.pnl with staging := [], row := [] }).setReg R.PNL_WF_STAT 1) :=
  congrArg Host.Outcome.next ((s.gate_may _ hm).trans (if_pos h))
theorem execWfBegin_other (hm : MayWrite who R.PNL_WF_CTL s = true) (h : s.shown 192 ≠ 1) : exec (.wfBegin who) s = .next (s.answer 0) :=
  congrArg Host.Outcome.next ((s.gate_may _ hm).trans (if_neg h))
theorem execWfAbort_open (hm : MayWrite who R.PNL_WF_CTL s = true) (h : s.fld R.PNL_WF_STAT 2 0 = 1) :
    exec (.wfAbort who) s = .next ((((s.answer 0).putPnl { s.pnl with staging := [], row := [] }).setReg R.PNL_WF_STAT 0).irq 192 11) :=
  congrArg Host.Outcome.next ((s.gate_may _ hm).trans (if_neg (fun g => g h)))
theorem execWfEnd_good (hm : MayWrite who R.PNL_WF_CTL s = true) (h : s.fld R.PNL_WF_STAT 2 0 = 1) (hw : wfFail s.pnl.staging 257 0 = none) :
    exec (.wfEnd who) s = .next ((((s.answer 0).putPnl { s.pnl with table := some s.pnl.staging }).setReg R.PNL_WF_STAT 2).irq 192 11) := by
  refine congrArg Host.Outcome.next ((s.gate_may _ hm).trans ((if_neg (fun g => g h)).trans ?_))
  rw [show wfFail (s.answer 0).pnl.staging 257 0 = none from hw]
  rfl
/-- The table refused with its first bad row. -/
def State.wfRefused (s : State) (x r : Nat) : State := ((s.setReg R.PNL_WF_STAT (wd (3 + 16 * x + 65536 * r))).errc 192 0x101 r).irq 192 11
theorem execWfEnd_bad {x r : Nat} (hm : MayWrite who R.PNL_WF_CTL s = true) (h : s.fld R.PNL_WF_STAT 2 0 = 1)
    (hw : wfFail s.pnl.staging 257 0 = some (x, r)) : exec (.wfEnd who) s = .next ((s.answer 0).wfRefused x r) := by
  refine congrArg Host.Outcome.next ((s.gate_may _ hm).trans ((if_neg (fun g => g h)).trans ?_))
  rw [show wfFail (s.answer 0).pnl.staging 257 0 = some (x, r) from hw]
  rfl
theorem State.wfRefused_reads (s : State) (x r : Nat) : (s.wfRefused x r).reg R.PNL_WF_STAT = wd (3 + 16 * x + 65536 * r) ∧
    bit ((s.wfRefused x r).page 192).irqStat 11 = true ∧ Shows s (s.wfRefused x r) := by
  refine ⟨?_, State.bit_irqStat_irq _ _ (by decide), .irq _ _ (.errc _ _ _ (.setReg _ _ (.refl s)))⟩
  rw [State.wfRefused, State.reg_irq, State.reg_errc, State.reg_setReg_self]

theorem execWfData_more (hm : MayWrite who R.PNL_WF_DATA s = true) (h : s.fld R.PNL_WF_STAT 2 0 = 1) (hr : s.fld R.PNL_WF_ROW 8 0 ≤ 256)
    (hl : s.pnl.row.length < 4) : exec (.wfData who val) s = .next ((s.answer 0).putPnl { s.pnl with row := s.pnl.row ++ [val] }) := by
  refine congrArg Host.Outcome.next ((s.gate_may _ hm).trans ((if_neg ?_).trans (if_pos ?_)))
  · rintro (g | g)
    · exact g h
    · exact absurd hr (Nat.not_le.mpr g)
  · change (s.pnl.row ++ [val]).length < 5
    rw [List.length_append, List.length_singleton]
    omega
theorem execWfData_last (hm : MayWrite who R.PNL_WF_DATA s = true) (h : s.fld R.PNL_WF_STAT 2 0 = 1) (hr : s.fld R.PNL_WF_ROW 8 0 ≤ 256)
    (hl : s.pnl.row.length = 4) : exec (.wfData who val) s = .next (((s.answer 0).putPnl { s.pnl with
      row := [], staging := s.pnl.staging.set (fun _ => []) (s.fld R.PNL_WF_ROW 8 0) (s.pnl.row ++ [val]) }).setReg R.PNL_WF_ROW (wd (s.fld R.PNL_WF_ROW 8 0 + 1))) := by
  refine congrArg Host.Outcome.next ((s.gate_may _ hm).trans ((if_neg ?_).trans (if_neg ?_)))
  · rintro (g | g)
    · exact g h
    · exact absurd hr (Nat.not_le.mpr g)
  · change ¬ (s.pnl.row ++ [val]).length < 5
    rw [List.length_append, List.length_singleton, hl]
    decide

end waveform

/-! ### Updates -/

section update
variable {s : State} {who : Initiator}

theorem execUpdGo_stored {bytes : List Byte} (hm : MayWrite who R.PNL_UPD_CMD s = true) (hd : s.dramUp = true)
    (hi : inDram (s.reg64 R.PNL_UPD_SRC_LO R.PNL_UPD_SRC_HI) bytes.length = true) : exec (.updGo who bytes) s = .next (({ s.answer 0 with
      dram := wrBytes s.dram (s.reg64 R.PNL_UPD_SRC_LO R.PNL_UPD_SRC_HI) bytes } : State).update false false) := by
  refine congrArg Host.Outcome.next ((s.gate_may _ hm).trans ?_)
  dsimp only
  rw [if_pos]
  · rfl
  · rw [Bool.and_eq_true]
    exact ⟨hd, hi⟩
theorem State.update_refused {full : Bool} {v : Nat} (h : s.updRefuse true full (if full then 0 else s.fld R.PNL_UPD_X 9 0) (if full then 0 else s.fld R.PNL_UPD_Y 9 0)
    (if full then s.glassW else s.fld R.PNL_UPD_W 9 0) (if full then s.glassH else s.fld R.PNL_UPD_H 9 0)
    (s.reg64 R.PNL_UPD_SRC_LO R.PNL_UPD_SRC_HI) = some v) : s.update true full = s.setReg R.PNL_UPD_STAT (wd v) := by
  unfold State.update
  dsimp only
  rw [h]
/-- With no slot taken the first is free. -/
theorem State.freeSlot_first (h : s.fld R.PNL_SLOT_STAT 3 0 = 0) : s.freeSlot = some 0 := by
  have hb : s.flag R.PNL_SLOT_STAT 0 = false := by
    have e := testBit_bits (s.reg R.PNL_SLOT_STAT) 3 0 0
    rw [show bits (s.reg R.PNL_SLOT_STAT) 3 0 = 0 from h, Nat.zero_testBit] at e
    simpa [State.flag, bit] using e.symm
  have hf : (!s.flag R.PNL_SLOT_STAT (0 : Fin 4).val) = true := by
    rw [show s.flag R.PNL_SLOT_STAT (0 : Fin 4).val = false from hb]
    rfl
  exact List.find?_cons_of_pos hf
theorem State.updRefuse_full (full : Bool) (x y w h src : Nat) (hs : s.fld R.PNL_SLOT_STAT 3 0 = 15) : s.updRefuse true full x y w h src = some 1 :=
  if_pos (.inl hs)
theorem State.updRefuse_none (w h src : Nat) (hr : s.running 192 = true) (hf : s.flag R.PNL_STAT2 0 = false) (hs : s.fld R.PNL_SLOT_STAT 3 0 = 0) :
    s.updRefuse true true 0 0 w h src = none := by
  unfold State.updRefuse
  dsimp only
  rw [hs, hr, hf, if_neg (by decide), if_neg (by simp), if_neg (by simp), if_neg (by decide), if_neg (by decide)]

end update

/-! ### Frames -/

section frame
variable {s : State}

theorem State.freeSlots_shows (s : State) : Shows s s.freeSlots :=
  .foldl (fun u _ => .ite (.irq _ _ (.setFlag _ _ _ (.setReg _ _ (.refl u)))) (.setReg _ _ (.refl u))) _ s
/-- The registers in which the slots are shown. -/
def slotRegs : List Nat := [R.PNL_SLOT_PIX 0, R.PNL_SLOT_PIX 1, R.PNL_SLOT_PIX 2, R.PNL_SLOT_PIX 3, R.PNL_SLOT_STAT]
theorem slotPix_mem (k : Fin 4) : R.PNL_SLOT_PIX k.val ∈ slotRegs := by
  revert k
  decide
theorem State.freeSlots_regs (s : State) : RegsBut slotRegs s s.freeSlots :=
  .foldl (fun u k => .ite (.irq _ _ (.setFlag _ _ (.setReg _ (.refl _ u) (slotPix_mem k)) (by decide))) (.setReg _ (.refl _ u) (slotPix_mem k))) _ s

/-- Tiles cleaned: the glass image and the dirty map alone. -/
theorem State.cleanTiles_eq (s : State) : ∃ img d, s.cleanTiles = (s.putPnl { s.pnl with img := img, dirty := d }).setReg R.PNL_DIRTY_N (wd d.length) := ⟨_, _, rfl⟩
theorem State.cleanTiles_reads (s : State) : s.cleanTiles.pnl.pix = s.pnl.pix ∧ s.cleanTiles.pnl.codes = s.pnl.codes ∧ s.cleanTiles.pnl.oe = s.pnl.oe ∧
    s.cleanTiles.pnl.hold = s.pnl.hold ∧ RegsBut [R.PNL_DIRTY_N] s s.cleanTiles ∧ SameMem s s.cleanTiles := by
  obtain ⟨img, d, h⟩ := s.cleanTiles_eq
  obtain ⟨h1, -, h3, h4⟩ := s.putPnl_setReg_reads { s.pnl with img := img, dirty := d } R.PNL_DIRTY_N (wd d.length)
  rw [h]
  exact ⟨by rw [h1], by rw [h1], by rw [h1], by rw [h1], h3, h4⟩

/-- The codes of a frame sent, and every pixel one frame on. -/
def State.scanned (s : State) : State :=
  s.putPnl { s.pnl with oe := true, codes := s.frameCodes, pix := tabMap (fun _ => {}) (fun _ p => s.pixFrame p) s.pnl.pix }
/-- After the last frame of the waveforms HOLD_FRAMES neutral ones follow. -/
def State.frameHeld (s : State) : State :=
  if s.pnlWork then s else s.putPnl { s.pnl with hold := s.fld R.PNL_RAIL_CFG 15 8, oe := decide (0 < s.fld R.PNL_RAIL_CFG 15 8) }
theorem frameRuns (ha : s.active 192 = true) (hu : s.pnl.rails = .up) (hn : s.pwr.panelNeutral = false) (h : s.pnlWork = true ∨ 0 < s.pnl.hold) :
    (s.active 192 && s.pnl.rails == .up && !s.pwr.panelNeutral && (s.pnlWork || 0 < s.pnl.hold)) = true := by
  rw [ha, hu, hn]
  simpa using h
theorem execPnlFrame_work (ha : s.active 192 = true) (hu : s.pnl.rails = .up) (hn : s.pwr.panelNeutral = false) (h : s.pnlWork = true) :
    exec .pnlFrame s = .next (s.incReg R.PNL_FRAMES).scanned.freeSlots.cleanTiles.frameHeld := by
  change execPnlFrame s = _
  unfold execPnlFrame
  rw [if_pos (frameRuns ha hu hn (.inl h))]
  exact if_pos h
theorem execPnlFrame_hold (ha : s.active 192 = true) (hu : s.pnl.rails = .up) (hn : s.pwr.panelNeutral = false) (h : s.pnlWork = false) (h0 : 0 < s.pnl.hold) :
    exec .pnlFrame s = .next ((s.incReg R.PNL_FRAMES).putPnl { s.pnl with hold := s.pnl.hold - 1, codes := [], oe := decide (1 < s.pnl.hold) }) := by
  change execPnlFrame s = _
  unfold execPnlFrame
  rw [if_pos (frameRuns ha hu hn (.inr h0))]
  exact if_neg (show ¬ s.pnlWork = true by rw [h]; decide)
theorem execPnlFrame_none (h : s.active 192 = false ∨ s.pnl.rails ≠ .up ∨ s.pwr.panelNeutral = true ∨ (s.pnlWork = false ∧ s.pnl.hold = 0)) :
    exec .pnlFrame s = .next s := by
  change execPnlFrame s = _
  unfold execPnlFrame
  rw [if_neg]
  rw [Bool.and_eq_true, Bool.and_eq_true, Bool.and_eq_true, Bool.or_eq_true]
  rintro ⟨⟨⟨g1, g2⟩, g3⟩, g4⟩
  obtain h | h | h | ⟨h, h0⟩ := h
  · rw [h] at g1
    cases g1
  · exact h (by simpa using g2)
  · rw [h] at g3
    cases g3
  · rw [h, h0] at g4
    exact absurd g4 (by decide)
theorem State.scanned_reads (s : State) : (s.incReg R.PNL_FRAMES).scanned.pnl.codes = s.frameCodes ∧ (s.incReg R.PNL_FRAMES).scanned.pnl.oe = true ∧
    (s.incReg R.PNL_FRAMES).scanned.pnl.pix = tabMap (fun _ => {}) (fun _ p => s.pixFrame p) s.pnl.pix ∧
    RegsBut [R.PNL_FRAMES] s (s.incReg R.PNL_FRAMES).scanned ∧ (s.incReg R.PNL_FRAMES).scanned.reg R.PNL_FRAMES = s.reg R.PNL_FRAMES + 1 ∧
    SameMem s (s.incReg R.PNL_FRAMES).scanned := by
  have hr : (s.incReg R.PNL_FRAMES).scanned.regs = (s.incReg R.PNL_FRAMES).regs := rfl
  have hf : (s.incReg R.PNL_FRAMES).scanned.reg R.PNL_FRAMES = (s.incReg R.PNL_FRAMES).reg R.PNL_FRAMES := rfl
  refine ⟨rfl, rfl, rfl, .same (.incReg (.refl _ s) (by decide)) hr, ?_, .refl s⟩
  rw [hf, State.incReg, State.reg_setReg_self]
theorem State.pnlWork_putPnl (p : PnlSt) : (s.putPnl p).pnlWork = p.pix.any fun e => !e.2.idle := rfl
theorem State.frameHeld_reads (s : State) (ho : s.pnl.oe = true) : s.frameHeld.pnl.codes = s.pnl.codes ∧ s.frameHeld.pnl.pix = s.pnl.pix ∧
    s.frameHeld.pnl.oe = (s.frameHeld.pnlWork || decide (0 < s.frameHeld.pnl.hold)) ∧
    (s.frameHeld.pnlWork = false → s.frameHeld.pnl.hold = s.fld R.PNL_RAIL_CFG 15 8) ∧ s.frameHeld.regs = s.regs ∧ SameMem s s.frameHeld := by
  unfold State.frameHeld
  split
  next h => exact ⟨rfl, rfl, by rw [h, ho]; rfl, fun g => absurd h (by rw [g]; decide), rfl, .refl s⟩
  next h =>
    generalize s.fld R.PNL_RAIL_CFG 15 8 = n
    refine ⟨rfl, rfl, ?_, fun _ => rfl, rfl, .refl s⟩
    rw [State.pnlWork_putPnl, show (s.pnl.pix.any fun e => !e.2.idle) = false from Bool.eq_false_iff.mpr h, Bool.false_or]
    rfl

end frame

/-! ### Rails -/

section rails
variable {s : State}

/-- A value read from a mapped table is an image, or the default. -/
theorem get_tabMap {α : Type} [DecidableEq α] {d : Nat → α} {f : Nat → α → α} {P : α → Prop} (hd : ∀ k, P (d k)) (hf : ∀ k v, P (f k v)) (t : Tab α) (k : Nat) :
    P ((tabMap d f t).get d k) := by
  induction t with
  | nil => exact hd k
  | cons e t ih =>
    unfold tabMap
    dsimp only
    split
    · exact ih
    · rw [Tab.get]
      split
      · exact hf _ _
      · exact ih

theorem execRailUpDone_rising (h : s.pnl.rails = .rising) : exec .railUpDone s = .next ((s.putPnl { s.pnl with rails := .up }).setReg R.PNL_RAIL_STAT 0x1F) :=
  if_pos h
theorem execRailDownDone_eq (h : s.pnl.rails = .falling) : exec .railDownDone s = .next (
    let u := (s.putPnl { s.pnl with rails := .down }).setReg R.PNL_RAIL_STAT 0
    if u.pnlWork && u.running 192 then u.railsNeed else u) := if_pos h
theorem State.railDown_running (p : PnlSt) : ((s.putPnl p).setReg R.PNL_RAIL_STAT 0).running 192 = s.running 192 := by
  rw [State.running_setReg]
  · rfl
  · decide

/-- The driver with every waveform ended and its rails on their way down. -/
def PnlSt.dropped (p : PnlSt) : PnlSt :=
  { p with pix := tabMap (fun _ => {}) (fun _ x => { x with run := none, q := none }) p.pix, hold := 0, codes := [], rails := .falling, oe := false }
theorem State.railsDrop_dropWaves (h : s.pnl.rails ≠ .down) : s.dropWaves.railsDrop = ((s.putPnl s.pnl.dropped).setRegs
    [(R.PNL_SLOT_STAT, 0), (R.PNL_SLOT_PIX 0, 0), (R.PNL_SLOT_PIX 1, 0), (R.PNL_SLOT_PIX 2, 0), (R.PNL_SLOT_PIX 3, 0)]) := (if_neg h).trans rfl
/-- The driver stopped by a rail fault. -/
def State.railFaulted (s : State) (rail : Fin 4) : State := ((s.dropWaves.railsDrop).fail 192 0x102 rail.val).irq 192 9
theorem execRailFault_stops {rail : Fin 4} (h : s.pnl.rails ≠ .down) (h0 : s.shown 192 ≠ 0) :
    exec (.railFault rail) s = .next (s.railFaulted rail) :=
  if_neg (by rintro (g | g); exacts [h g, h0 g])
theorem PnlSt.dropped_idle (p : PnlSt) (k : Nat) : (p.dropped.pix.get (fun _ => {}) k).idle = true :=
  get_tabMap (P := fun x : Pix => x.idle = true) (fun _ => rfl) (fun _ _ => rfl) p.pix k
theorem State.railFaulted_reads (h : s.pnl.rails ≠ .down) (rail : Fin 4) : ((s.railFaulted rail).blk 192).st = .fault ∧
    ((s.railFaulted rail).page 192).errcode = wd (0x102 + 65536 * rail.val) ∧ (s.railFaulted rail).pnl = s.pnl.dropped ∧
    bit ((s.railFaulted rail).page 192).irqStat 9 = true ∧ SameMem s (s.railFaulted rail) := by
  unfold State.railFaulted
  rw [State.railsDrop_dropWaves h]
  have hs : Shows (s.putPnl s.pnl.dropped) ((s.putPnl s.pnl.dropped).setRegs
      [(R.PNL_SLOT_STAT, 0), (R.PNL_SLOT_PIX 0, 0), (R.PNL_SLOT_PIX 1, 0), (R.PNL_SLOT_PIX 2, 0), (R.PNL_SLOT_PIX 3, 0)]) := .setRegs _ (.refl _)
  have hp := hs.pnl.trans (s.putPnl_pnl _)
  have hm := (s.putPnl_mem s.pnl.dropped).trans hs.mem
  generalize (s.putPnl s.pnl.dropped).setRegs _ = u at *
  have hf := u.fail_shows 192 0x102 rail.val
  have hb := u.fail_blk 192 0x102 rail.val
  have he : ((u.fail 192 0x102 rail.val).page 192).errcode = wd (0x102 + 0x10000 * rail.val) :=
    u.errcode_fail 192 (by decide) (rail.isLt.trans (by decide))
  have hn := u.fail_mem 192 0x102 rail.val
  have hq : (u.fail 192 0x102 rail.val).pnl = u.pnl := hf.pnl
  generalize u.fail 192 0x102 rail.val = v at *
  have hv : Shows v (v.irq 192 9) := .irq _ _ (.refl v)
  refine ⟨?_, (State.errcode_irq _ _ _ _).trans he, hv.pnl.trans (hq.trans hp), State.bit_irqStat_irq _ _ (by decide), (hm.trans hn).trans hv.mem⟩
  rw [State.blk_irq, hb]

end rails

/-- Settles O43: each command of the panel driver does what its rule says of the driver, its registers and its causes. -/
theorem statusPanel : Obligations.StatusPanel := by
  intro s who val bytes rail full x r v
  refine ⟨fun hm => ⟨fun h => ?_, execWfBegin_other hm, fun h => ⟨fun hw => ?_, fun hw => ?_, ?_⟩⟩, fun hm h hr => ⟨fun hl => ?_, fun hl => ?_⟩,
    fun hm hd hi => ⟨execUpdGo_stored hm hd hi, congrArg Host.Outcome.next (s.gate_may _ hm), congrArg Host.Outcome.next (s.gate_may _ hm)⟩,
    State.update_refused, State.updRefuse_full full x r v v v, fun hr hf hs => ⟨State.freeSlot_first hs, State.updRefuse_none _ _ _ hr hf hs⟩,
    fun ha hu hn h => ?_, fun ha hu hn h h0 => ?_, execPnlFrame_none, fun h => ?_, fun h hw hr => ?_, fun h hw => ?_, fun hf hu hw h0 => ?_, fun h => ?_,
    fun h h0 => ?_, fun hf ha hw => ?_⟩
  · exact ⟨_, execWfBegin_stop hm h, (s.answer 0).putPnl_setReg_reads _ _ _⟩
  · obtain ⟨h1, h2, h3, -, h5⟩ := (s.answer 0).putPnl_setReg_irq_reads { s.pnl with table := some s.pnl.staging } R.PNL_WF_STAT 2 (i := 11) (by decide)
    exact ⟨_, execWfEnd_good hm h hw, h1, h2, h3, h5⟩
  · obtain ⟨h1, h2, h3⟩ := (s.answer 0).wfRefused_reads x r
    exact ⟨_, execWfEnd_bad hm h hw, h3.pnl, h1, h2, h3.mem⟩
  · obtain ⟨h1, h2, h3, -, h5⟩ := (s.answer 0).putPnl_setReg_irq_reads { s.pnl with staging := [], row := [] } R.PNL_WF_STAT 0 (i := 11) (by decide)
    exact ⟨_, execWfAbort_open hm h, h1, h2, h3, h5⟩
  · exact ⟨_, execWfData_more hm h hr hl, rfl, rfl⟩
  · obtain ⟨h1, h2, h3, h4⟩ := (s.answer 0).putPnl_setReg_reads { s.pnl with
      row := [], staging := s.pnl.staging.set (fun _ => []) (s.fld R.PNL_WF_ROW 8 0) (s.pnl.row ++ [val]) } R.PNL_WF_ROW (wd (s.fld R.PNL_WF_ROW 8 0 + 1))
    refine ⟨_, execWfData_last hm h hr hl, by rw [h1], ?_, h2, h3, h4⟩
    rw [h1]
    exact (Tab.get_set _ _ _ _ _).trans (if_pos rfl)
  · refine ⟨_, execPnlFrame_work ha hu hn h, ?_⟩
    obtain ⟨h1, h2, h3, h4, h5, h6⟩ := s.scanned_reads
    generalize (s.incReg R.PNL_FRAMES).scanned = a at *
    have hs := a.freeSlots_shows
    have hg := a.freeSlots_regs
    generalize a.freeSlots = b at *
    obtain ⟨k1, k2, k3, k4, k5, k6⟩ := b.cleanTiles_reads
    generalize b.cleanTiles = c at *
    obtain ⟨l1, l2, l3, l4, l5, l6⟩ := c.frameHeld_reads (by rw [k3, hs.pnl, h2])
    have hreg (a' : Nat) (hc : a' ∉ slotRegs) (hd : a' ∉ [R.PNL_DIRTY_N]) : c.reg a' = a.reg a' := (k5.reg hd).trans (hg.reg hc)
    refine ⟨?_, l3, by rw [l1, k2, hs.pnl, h1], fun hw => ?_, by rw [l2, k1, hs.pnl, h3], ((h6.trans hs.mem).trans k6).trans l6⟩
    · rw [State.reg, l5]
      exact (hreg _ (by decide) (by decide)).trans h5
    · rw [l4 hw, State.fld, hreg _ (by decide) (by decide), h4.reg (by decide), State.fld]
  · refine ⟨_, execPnlFrame_hold ha hu hn h h0, rfl, ?_, .same (.incReg (.refl _ s) (by decide)) (State.putPnl_regs _ _), .refl s⟩
    have e (p : PnlSt) : ((s.incReg R.PNL_FRAMES).putPnl p).reg R.PNL_FRAMES = (s.incReg R.PNL_FRAMES).reg R.PNL_FRAMES := rfl
    rw [e, State.incReg, State.reg_setReg_self]
  · exact ⟨_, execRailUpDone_rising h, s.putPnl_setReg_reads _ _ _⟩
  · obtain ⟨h1, h2, h3, h4⟩ := s.putPnl_setReg_reads { s.pnl with rails := .down } R.PNL_RAIL_STAT 0
    have hr' := s.railDown_running { s.pnl with rails := .down }
    have hw' : ((s.putPnl { s.pnl with rails := .down }).setReg R.PNL_RAIL_STAT 0).pnlWork = true := hw
    refine ⟨_, execRailDownDone_eq h, ?_⟩
    dsimp only
    generalize (s.putPnl { s.pnl with rails := .down }).setReg R.PNL_RAIL_STAT 0 = u at *
    rw [hw', hr', hr, if_pos (by decide), State.railsNeed, if_pos (by rw [h1])]
    exact ⟨by rw [h1], h2, h3, h4⟩
  · obtain ⟨h1, h2, h3, h4⟩ := s.putPnl_setReg_reads { s.pnl with rails := .down } R.PNL_RAIL_STAT 0
    have hw' : ((s.putPnl { s.pnl with rails := .down }).setReg R.PNL_RAIL_STAT 0).pnlWork = false := hw
    refine ⟨_, execRailDownDone_eq h, ?_⟩
    dsimp only
    generalize (s.putPnl { s.pnl with rails := .down }).setReg R.PNL_RAIL_STAT 0 = u at *
    rw [hw', if_neg (by rw [Bool.false_and]; decide)]
    exact ⟨h1, h2, h3, h4⟩
  · change execRailIdle s = _
    unfold execRailIdle State.railsDrop
    rw [hf, hu, hw, h0, if_pos (by decide), if_neg (by decide)]
  · refine if_neg ?_
    rw [Bool.and_eq_true, Bool.and_eq_true, Bool.and_eq_true]
    rintro ⟨⟨⟨-, g⟩, -⟩, -⟩
    exact h (by simpa using g)
  · obtain ⟨h1, h2, h3, h4, h5⟩ := State.railFaulted_reads h rail
    refine ⟨_, execRailFault_stops h h0, h1, h2, by rw [h3]; rfl, by rw [h3]; rfl, by rw [h3]; rfl, fun k => ?_, h4, h5⟩
    rw [State.pixel, h3]
    exact s.pnl.dropped_idle k
  · exact ⟨_, if_pos (by rw [hf, ha, hw]; rfl), s.putPnl_setReg_irq_reads _ _ _ (by decide)⟩

end Sys2Proof.Machine
end

section
/-! The Ethernet ports: frames received and sent, the link, the rings and the neighbours (R427 to R435). -/

namespace Sys2Proof.Machine

theorem Shows.eth {s t : State} (h : Shows s t) : t.eth = s.eth := by
  obtain ⟨r, x, c, e, rfl⟩ := h
  rfl
theorem State.reg_incReg_self (s : State) (a : Nat) : (s.incReg a).reg a = s.reg a + 1 := State.reg_setReg_self _ _ _
theorem State.reg_incReg_ne (s : State) {a b : Nat} (h : b ≠ a) : (s.incReg a).reg b = s.reg b := State.reg_setReg_ne _ _ h

/-! ### Received frames -/

section receive
variable {s : State} {i : Fin 6} {f : EthFrame}

theorem execEthRxFrame_down (h : s.linkUp i.val = false) : exec (.ethRxFrame i f) s = .next s := if_pos (by rw [h]; rfl)
theorem execEthRxFrame_bad (h : s.linkUp i.val = true) (hb : f.good = false ∨ 1522 < f.bytes.length) :
    exec (.ethRxFrame i f) s = .next (s.incReg (R.ETH_RX_ERR i.val)) :=
  (if_neg (by rw [h]; decide)).trans (if_pos (hb.imp_left fun g => by rw [g]; rfl))
theorem execEthRxFrame_good (h : s.linkUp i.val = true) (hg : f.good = true) (hl : f.bytes.length ≤ 1522) : exec (.ethRxFrame i f) s =
    .next (if f.dst = .foreign ∨ udpRefused f.kind = true then (s.incReg (R.ETH_RX_FRAMES i.val)).incReg (R.ETH_RX_DROP i.val)
      else ((s.incReg (R.ETH_RX_FRAMES i.val)).learn i.val f.srcIp f.srcMac).classify i.val f) := by
  refine (if_neg (by rw [h]; decide)).trans ((if_neg (by rw [hg]; simpa using hl)).trans ?_)
  dsimp only
  by_cases h1 : f.dst = .foreign
  · rw [if_pos h1, if_pos (.inl h1)]
  · rw [if_neg h1]
    by_cases h2 : udpRefused f.kind = true
    · rw [if_pos h2, if_pos (.inr h2)]
    · rw [if_neg h2, if_neg (by rintro (g | g); exacts [h1 g, h2 g])]
/-- A frame that joins a queue of its port, counted. -/
theorem rxQueued (p : EthPort) : ((s.incReg (R.ETH_RX_FRAMES i.val)).setPort i.val p).port i.val = p ∧
    ((s.incReg (R.ETH_RX_FRAMES i.val)).setPort i.val p).reg (R.ETH_RX_FRAMES i.val) = s.reg (R.ETH_RX_FRAMES i.val) + 1 ∧
    RegsBut [R.ETH_RX_FRAMES i.val] s ((s.incReg (R.ETH_RX_FRAMES i.val)).setPort i.val p) ∧
    SameMem s ((s.incReg (R.ETH_RX_FRAMES i.val)).setPort i.val p) ∧
    ∀ j, j ≠ i.val → ((s.incReg (R.ETH_RX_FRAMES i.val)).setPort i.val p).port j = s.port j := by
  have hr : RegsBut [R.ETH_RX_FRAMES i.val] s (s.incReg (R.ETH_RX_FRAMES i.val)) := .incReg (.refl _ s) (List.mem_singleton_self _)
  have hv := s.reg_incReg_self (R.ETH_RX_FRAMES i.val)
  have hm : SameMem s (s.incReg (R.ETH_RX_FRAMES i.val)) := .refl s
  have hp (j : Nat) : (s.incReg (R.ETH_RX_FRAMES i.val)).port j = s.port j := rfl
  generalize s.incReg (R.ETH_RX_FRAMES i.val) = u at *
  refine ⟨by rw [State.port_setPort, if_pos rfl], hv, .same hr rfl, hm.trans (.refl u), fun j hj => ?_⟩
  rw [State.port_setPort, if_neg hj, hp]
theorem State.learn_nil (u : State) (n : Nat) (mac : BitVec 48) : u.learn n [] mac = u := rfl

/-- A PTP frame joins its queue while it has room. -/
theorem State.classify_ptp (u : State) (n : Nat) (hk : f.kind = .ptp) (hl : (u.port n).rxPtp.length < 32) :
    u.classify n f = u.setPort n { u.port n with rxPtp := (u.port n).rxPtp ++ [f.bytes] } := by
  unfold State.classify
  rw [hk]
  exact if_pos hl
/-- A datagram to the LSX port joins its queue while it has room, and is dropped and counted otherwise. -/
theorem State.classify_lsx (u : State) (n : Nat) {v6 fr op : Bool} {port : BitVec 16} {cks : Cksum} (hk : f.kind = .udp v6 port cks fr op) (h1 : port ≠ 319)
    (h2 : port ≠ 320) (hl : port.toNat = u.fld (R.ETH_CLS_LSX n) 15 0) (hw : port.toNat ≠ u.fld (R.ETH_CLS_WIT n) 15 0) :
    u.classify n f = if (u.port n).rxLsx.length < 64 then u.setPort n { u.port n with rxLsx := (u.port n).rxLsx ++ [f.bytes] } else u.dropCtl n false := by
  unfold State.classify
  rw [hk]
  refine (if_neg ?_).trans ((if_neg fun g => hw g.1).trans (if_pos hl))
  rintro (g | g)
  exacts [h1 g, h2 g]
/-- A control-plane frame dropped is counted. -/
theorem State.dropCtl_reads (u : State) (n : Nat) : (u.dropCtl n false).reg (R.ETH_DROP_CTL n) = satIncField (u.reg (R.ETH_DROP_CTL n)) 15 0 ∧
    Shows u (u.dropCtl n false) :=
  ⟨State.reg_setReg_self _ _ _, .irq _ _ (.setReg _ _ (.refl u))⟩

/-- The counters of the ports leave the classifier's registers. -/
theorem fld_cls_incReg (n : Nat) : (s.incReg (R.ETH_RX_FRAMES n)).fld (R.ETH_CLS_LSX n) 15 0 = s.fld (R.ETH_CLS_LSX n) 15 0 ∧
    (s.incReg (R.ETH_RX_FRAMES n)).fld (R.ETH_CLS_WIT n) 15 0 = s.fld (R.ETH_CLS_WIT n) 15 0 := by
  refine ⟨?_, ?_⟩
  · rw [State.fld, State.fld, State.reg_incReg_ne _ (by simp only [R.ETH_CLS_LSX, R.ETH_RX_FRAMES]; omega)]
  · rw [State.fld, State.fld, State.reg_incReg_ne _ (by simp only [R.ETH_CLS_WIT, R.ETH_RX_FRAMES]; omega)]
/-- A datagram to the LSX port on a link that is up. -/
theorem execEthRxFrame_lsx {v6 : Bool} {port : BitVec 16} {cks : Cksum} (h : s.linkUp i.val = true) (hg : f.good = true) (hl : f.bytes.length ≤ 1522)
    (hd : f.dst ≠ .foreign) (hs : f.srcIp = []) (hk : f.kind = .udp v6 port cks false false) (hu : udpRefused f.kind = false) (h1 : port ≠ 319) (h2 : port ≠ 320)
    (hc : port.toNat = s.fld (R.ETH_CLS_LSX i.val) 15 0) (hw : port.toNat ≠ s.fld (R.ETH_CLS_WIT i.val) 15 0) : exec (.ethRxFrame i f) s =
    .next (if (s.port i.val).rxLsx.length < 64 then
        (s.incReg (R.ETH_RX_FRAMES i.val)).setPort i.val { s.port i.val with rxLsx := (s.port i.val).rxLsx ++ [f.bytes] }
      else (s.incReg (R.ETH_RX_FRAMES i.val)).dropCtl i.val false) := by
  obtain ⟨e1, e2⟩ := fld_cls_incReg (s := s) i.val
  have hn : ¬ (f.dst = .foreign ∨ udpRefused f.kind = true) := by
    rw [hu]
    rintro (g | g)
    · exact hd g
    · exact Bool.false_ne_true g
  rw [execEthRxFrame_good h hg hl, if_neg hn, hs, State.learn_nil, State.classify_lsx _ _ hk h1 h2 (hc.trans e1.symm) (by rw [e2]; exact hw)]
  rfl
theorem execEthRxFrame_ptp (h : s.linkUp i.val = true) (hg : f.good = true) (hl : f.bytes.length ≤ 1522) (hd : f.dst ≠ .foreign) (hs : f.srcIp = [])
    (hk : f.kind = .ptp) (hq : (s.port i.val).rxPtp.length < 32) : exec (.ethRxFrame i f) s =
    .next ((s.incReg (R.ETH_RX_FRAMES i.val)).setPort i.val { s.port i.val with rxPtp := (s.port i.val).rxPtp ++ [f.bytes] }) := by
  have hn : ¬ (f.dst = .foreign ∨ udpRefused f.kind = true) := by
    rw [hk]
    rintro (g | g)
    · exact hd g
    · exact Bool.false_ne_true g
  rw [execEthRxFrame_good h hg hl, if_neg hn, hs, State.learn_nil, State.classify_ptp (s.incReg _) i.val hk hq]
  rfl
/-- A frame dropped. -/
theorem rxDropped (n : Nat) : ((s.incReg (R.ETH_RX_FRAMES n)).incReg (R.ETH_RX_DROP n)).reg (R.ETH_RX_DROP n) = s.reg (R.ETH_RX_DROP n) + 1 ∧
    ((s.incReg (R.ETH_RX_FRAMES n)).incReg (R.ETH_RX_DROP n)).reg (R.ETH_RX_FRAMES n) = s.reg (R.ETH_RX_FRAMES n) + 1 ∧
    RegsBut [R.ETH_RX_DROP n, R.ETH_RX_FRAMES n] s ((s.incReg (R.ETH_RX_FRAMES n)).incReg (R.ETH_RX_DROP n)) := by
  refine ⟨?_, ?_, .incReg (.incReg (.refl _ s) (List.mem_cons_of_mem _ List.mem_cons_self)) List.mem_cons_self⟩
  · rw [State.reg_incReg_self, State.reg_incReg_ne _ (by simp only [R.ETH_RX_DROP, R.ETH_RX_FRAMES]; omega)]
  · rw [State.reg_incReg_ne _ (by simp only [R.ETH_RX_DROP, R.ETH_RX_FRAMES]; omega), State.reg_incReg_self]

end receive

/-! ### Sent frames -/

section send
variable {s : State} {i : Fin 6} {ring : Ecc}

/-- The port with the frame on its wire gone. -/
def State.offWire (s : State) (n : Nat) : EthPort := { s.port n with onWire := (s.port n).onWire && !s.pausedNow n }
/-- The link is up, and no PAUSE holds the port. -/
def State.mayLeave (s : State) (n : Nat) : Prop := s.linkUp n = true ∧ (s.pausedNow n = false ∨ (s.port n).onWire = true)
theorem State.mayLeave.free {n : Nat} (h : s.mayLeave n) : ¬ ((!s.linkUp n) = true ∨ (s.pausedNow n = true ∧ (!(s.port n).onWire) = true)) := by
  obtain ⟨h1, h2⟩ := h
  rw [h1]
  rintro (g | ⟨g1, g2⟩)
  · cases g
  · rw [g1] at h2
    obtain h2 | h2 := h2
    · cases h2
    · rw [h2] at g2
      cases g2
theorem execEthTxDone_down {e : PortSent} (h : s.linkUp i.val = false) : exec (.ethTxDone i e) s = .next s := if_pos (.inl (by rw [h]; rfl))
theorem execEthTxDone_paused {e : PortSent} (h : s.pausedNow i.val = true) (hw : (s.port i.val).onWire = false) : exec (.ethTxDone i e) s = .next s :=
  if_pos (.inr ⟨h, by rw [hw]; rfl⟩)
theorem execEthTxDone_lsx {x : List Byte} {rest : List (List Byte)} (h : s.mayLeave i.val) (hx : (s.port i.val).txLsx = x :: rest) :
    exec (.ethTxDone i ⟨.lsx, ring⟩) s = .next ((s.setPort i.val { s.offWire i.val with txLsx := rest }).incReg (R.ETH_TX_FRAMES i.val)) := by
  change execEthTxDone i ⟨.lsx, ring⟩ s = _
  unfold execEthTxDone
  dsimp only
  rw [if_neg h.free, hx, if_neg (by exact Bool.false_ne_true)]
  rfl

/-- The state in which a HOST frame is read: the port off the wire. -/
def State.hostSend (s : State) (n : Nat) : State := s.setPort n (s.offWire n)
/-- The frame of a HOST descriptor read from LPDDR5. -/
def State.hostRead (s : State) (n : Nat) (ring : Ecc) : State :=
  (s.hostSend n).drmRead ring (rdN s.dram (s.hqTx n (s.regN (R.ETH_HQ_TX_HEAD n))) 8) (rdN s.dram (s.hqTx n (s.regN (R.ETH_HQ_TX_HEAD n)) + 8) 2)
theorem execEthTxDone_host (h : s.mayLeave i.val) (ho : (s.port i.val).txOff = []) (hd : s.regN (R.ETH_HQ_TX_HEAD i.val) ≠ s.regN (R.ETH_HQ_TX_TAIL i.val))
    (hr : s.running 208 = true) : exec (.ethTxDone i ⟨.host, ring⟩) s =
      .next (if ring = .uncorrectable then
        ((s.hostRead i.val ring).incReg (R.ETH_RX_ERR i.val)).setReg (R.ETH_HQ_TX_HEAD i.val) (wd (s.hqNext i.val (s.regN (R.ETH_HQ_TX_HEAD i.val))))
      else
        ((((s.hostRead i.val ring).putDram (wrN (s.hostRead i.val ring).dram (s.hqTx i.val (s.regN (R.ETH_HQ_TX_HEAD i.val)) + 10) 2 2)).setReg
          (R.ETH_HQ_TX_HEAD i.val) (wd ((s.hostRead i.val ring).hqNext i.val (s.regN (R.ETH_HQ_TX_HEAD i.val))))).incReg (R.ETH_TX_FRAMES i.val)).irq (ethPage i.val) 10) := by
  change execEthTxDone i ⟨.host, ring⟩ s = _
  unfold execEthTxDone
  dsimp only
  have ht : ¬ (!(s.port i.val).txOff.isEmpty) = true := by
    rw [ho]
    decide
  rw [if_neg h.free, if_neg ht, if_neg (by rw [hr]; simpa using hd)]
  split
  · rfl
  · rfl

theorem State.drmCe_reads (u : State) : Shows u u.drmCe ∧ RegsBut [R.DRM_CE_COUNT] u u.drmCe :=
  ⟨.irq _ _ (.statBit _ _ _ (.incReg _ (.refl u))), .irq _ _ (.statBit _ _ _ (.incReg (.refl _ u) (by decide)))⟩
theorem State.drmUe_reads (u : State) (a : Nat) : Shows u (u.drmUe a) ∧ RegsBut [R.DRM_UE_COUNT, R.DRM_UE_ADDR_LO, R.DRM_UE_ADDR_HI] u (u.drmUe a) ∧
    (u.drmUe a).reg R.DRM_UE_COUNT = u.reg R.DRM_UE_COUNT + 1 := by
  refine ⟨.irq _ _ (.irq _ _ (.statBit _ _ _ (.setReg64 _ _ _ (.incReg _ (.refl u))))), .irq _ _ (.irq _ _ (.statBit _ _ _
    (.setReg64 _ (.incReg (.refl _ u) (by decide)) (by decide) (by decide)))), ?_⟩
  have e : (u.drmUe a).reg R.DRM_UE_COUNT = ((u.incReg R.DRM_UE_COUNT).setReg64 R.DRM_UE_ADDR_LO R.DRM_UE_ADDR_HI a).reg R.DRM_UE_COUNT := rfl
  rw [e, State.setReg64, State.reg_setReg_ne _ _ (by decide), State.reg_setReg_ne _ _ (by decide), State.reg_incReg_self]

theorem State.hostSend_reads (s : State) (n : Nat) : (s.hostSend n).port n = s.offWire n ∧ (s.hostSend n).regs = s.regs ∧ SameMem s (s.hostSend n) :=
  ⟨by rw [State.hostSend, State.port_setPort, if_pos rfl], rfl, .refl s⟩
/-- A frame read clean or corrected. -/
theorem State.hostRead_good (n : Nat) (h : ring ≠ .uncorrectable) : (s.hostRead n ring).port n = s.offWire n ∧ SameMem s (s.hostRead n ring) ∧
    RegsBut [R.DRM_CE_COUNT] s (s.hostRead n ring) := by
  obtain ⟨h1, h2, h3⟩ := s.hostSend_reads n
  have hr : RegsBut [R.DRM_CE_COUNT] s (s.hostSend n) := .same (.refl _ s) h2
  unfold State.hostRead
  generalize s.hostSend n = u at *
  cases ring with
  | clean => exact ⟨h1, h3, hr⟩
  | corrected =>
    obtain ⟨g1, g2⟩ := u.drmCe_reads
    exact ⟨(State.port_congr g1.eth n).trans h1, h3.trans g1.mem, hr.trans g2⟩
  | uncorrectable => exact absurd rfl h
/-- A frame that comes out marked bad. -/
theorem State.hostRead_bad (n : Nat) : SameMem s (s.hostRead n .uncorrectable) ∧ (s.hostRead n .uncorrectable).reg R.DRM_UE_COUNT = s.reg R.DRM_UE_COUNT + 1 ∧
    RegsBut [R.DRM_UE_COUNT, R.DRM_UE_ADDR_LO, R.DRM_UE_ADDR_HI] s (s.hostRead n .uncorrectable) := by
  obtain ⟨-, h2, h3⟩ := s.hostSend_reads n
  have hr : RegsBut [R.DRM_UE_COUNT, R.DRM_UE_ADDR_LO, R.DRM_UE_ADDR_HI] s (s.hostSend n).fresh.2 := .same (.refl _ s) h2
  have hm : SameMem s (s.hostSend n).fresh.2 := h3
  obtain ⟨g1, g2, g3⟩ := (s.hostSend n).fresh.2.drmUe_reads ((rdN s.dram (s.hqTx n (s.regN (R.ETH_HQ_TX_HEAD n))) 8 +
    (s.hostSend n).fresh.1.toNat % max 1 (rdN s.dram (s.hqTx n (s.regN (R.ETH_HQ_TX_HEAD n)) + 8) 2) - 0x80000000) / burstBytes * burstBytes % 2 ^ 32)
  exact ⟨hm.trans g1.mem, g3.trans (by rfl), hr.trans g2⟩
theorem State.hqNext_of {u : State} {n : Nat} (h : u.reg (R.ETH_HQ_SIZE n) = s.reg (R.ETH_HQ_SIZE n)) (k : Nat) : u.hqNext n k = s.hqNext n k := by
  rw [State.hqNext, State.regN, h, State.hqNext]

/-- A frame of the LSX queue has left. -/
theorem lsxLeft (rest : List (List Byte)) : ((s.setPort i.val { s.offWire i.val with txLsx := rest }).incReg (R.ETH_TX_FRAMES i.val)).port i.val =
      { s.offWire i.val with txLsx := rest } ∧
    ((s.setPort i.val { s.offWire i.val with txLsx := rest }).incReg (R.ETH_TX_FRAMES i.val)).reg (R.ETH_TX_FRAMES i.val) = s.reg (R.ETH_TX_FRAMES i.val) + 1 ∧
    RegsBut [R.ETH_TX_FRAMES i.val] s ((s.setPort i.val { s.offWire i.val with txLsx := rest }).incReg (R.ETH_TX_FRAMES i.val)) ∧
    SameMem s ((s.setPort i.val { s.offWire i.val with txLsx := rest }).incReg (R.ETH_TX_FRAMES i.val)) := by
  have hr : (s.setPort i.val { s.offWire i.val with txLsx := rest }).regs = s.regs := rfl
  have hg := State.port_setPort s i.val i.val { s.offWire i.val with txLsx := rest }
  have hm : SameMem s (s.setPort i.val { s.offWire i.val with txLsx := rest }) := .refl s
  generalize s.setPort i.val { s.offWire i.val with txLsx := rest } = u at *
  refine ⟨hg.trans (if_pos rfl), ?_, .incReg (.same (.refl _ s) hr) (List.mem_singleton_self _), hm.trans (.refl u)⟩
  rw [State.reg_incReg_self, State.reg, hr, State.reg]

/-- The HOST descriptor marked DONE and passed. -/
def State.hostDone (s : State) (n : Nat) (ring : Ecc) : State :=
  ((((s.hostRead n ring).putDram (wrN (s.hostRead n ring).dram (s.hqTx n (s.regN (R.ETH_HQ_TX_HEAD n)) + 10) 2 2)).setReg (R.ETH_HQ_TX_HEAD n)
    (wd ((s.hostRead n ring).hqNext n (s.regN (R.ETH_HQ_TX_HEAD n))))).incReg (R.ETH_TX_FRAMES n)).irq (ethPage n) 10
theorem State.hostDone_reads {n : Nat} (hn : n < 6) (hb : ring ≠ .uncorrectable) :
    (s.hostDone n ring).dram = wrN s.dram (s.hqTx n (s.regN (R.ETH_HQ_TX_HEAD n)) + 10) 2 2 ∧
    (s.hostDone n ring).reg (R.ETH_HQ_TX_HEAD n) = wd (s.hqNext n (s.regN (R.ETH_HQ_TX_HEAD n))) ∧ (s.hostDone n ring).yard = s.yard ∧
    (s.hostDone n ring).port n = s.offWire n ∧ bit ((s.hostDone n ring).page (112 + n)).irqStat 10 = true ∧
    RegsBut [R.ETH_HQ_TX_HEAD n, R.ETH_TX_FRAMES n, R.DRM_CE_COUNT] s (s.hostDone n ring) := by
  obtain ⟨g1, ⟨m1, m2, -, -, -⟩, g3⟩ := State.hostRead_good (s := s) n hb
  have hz := State.hqNext_of (s := s) (g3.reg (a := R.ETH_HQ_SIZE n) (by simp only [R.ETH_HQ_SIZE, R.DRM_CE_COUNT, List.mem_singleton]; omega))
    (s.regN (R.ETH_HQ_TX_HEAD n))
  unfold State.hostDone
  rw [hz, m2]
  generalize s.hostRead n ring = u at *
  generalize hm : wrN s.dram (s.hqTx n (s.regN (R.ETH_HQ_TX_HEAD n)) + 10) 2 2 = m
  have hdr : (u.putDram m).dram = m := rfl
  have hyr : (u.putDram m).yard = s.yard := m1
  have hpt : (u.putDram m).port n = s.offWire n := g1
  have hrg : RegsBut [R.ETH_HQ_TX_HEAD n, R.ETH_TX_FRAMES n, R.DRM_CE_COUNT] s (u.putDram m) :=
    .same (g3.mono fun _ h => List.mem_cons_of_mem _ (List.mem_cons_of_mem _ h)) rfl
  generalize u.putDram m = w at *
  have hw (v : Word) : Shows w (((w.setReg (R.ETH_HQ_TX_HEAD n) v).incReg (R.ETH_TX_FRAMES n)).irq (ethPage n) 10) :=
    .irq _ _ (.incReg _ (.setReg _ _ (.refl w)))
  obtain ⟨e1, e2, -, -, -⟩ := (hw (wd (s.hqNext n (s.regN (R.ETH_HQ_TX_HEAD n))))).mem
  refine ⟨e2.trans hdr, ?_, e1.trans hyr, (State.port_congr (hw _).eth n).trans hpt, State.bit_irqStat_irq _ _ (by decide), .irq _ _ (.incReg (.setReg _ hrg List.mem_cons_self) (List.mem_cons_of_mem _ List.mem_cons_self))⟩
  rw [State.reg_irq, State.reg_incReg_ne _ (by simp only [R.ETH_HQ_TX_HEAD, R.ETH_TX_FRAMES]; omega), State.reg_setReg_self]
/-- A descriptor whose frame came out bad passed over. -/
def State.hostPassed (s : State) (n : Nat) : State :=
  ((s.hostRead n .uncorrectable).incReg (R.ETH_RX_ERR n)).setReg (R.ETH_HQ_TX_HEAD n) (wd (s.hqNext n (s.regN (R.ETH_HQ_TX_HEAD n))))
theorem State.hostPassed_reads {n : Nat} (hn : n < 6) : SameMem s (s.hostPassed n) ∧
    (s.hostPassed n).reg (R.ETH_HQ_TX_HEAD n) = wd (s.hqNext n (s.regN (R.ETH_HQ_TX_HEAD n))) ∧
    (s.hostPassed n).reg (R.ETH_RX_ERR n) = s.reg (R.ETH_RX_ERR n) + 1 ∧ (s.hostPassed n).reg R.DRM_UE_COUNT = s.reg R.DRM_UE_COUNT + 1 ∧
    RegsBut [R.ETH_HQ_TX_HEAD n, R.ETH_RX_ERR n, R.DRM_UE_COUNT, R.DRM_UE_ADDR_LO, R.DRM_UE_ADDR_HI] s (s.hostPassed n) := by
  obtain ⟨g1, g2, g3⟩ := State.hostRead_bad (s := s) n
  have he : (s.hostRead n .uncorrectable).reg (R.ETH_RX_ERR n) = s.reg (R.ETH_RX_ERR n) := g3.reg (by
    simp only [R.ETH_RX_ERR, R.DRM_UE_COUNT, R.DRM_UE_ADDR_LO, R.DRM_UE_ADDR_HI, List.mem_cons, List.not_mem_nil, or_false]; omega)
  unfold State.hostPassed
  generalize s.hostRead n .uncorrectable = u at *
  refine ⟨g1.trans (Shows.setReg _ _ (.incReg _ (.refl u))).mem, State.reg_setReg_self _ _ _, ?_, ?_, .setReg _ (.incReg
    (g3.mono fun _ h => List.mem_cons_of_mem _ (List.mem_cons_of_mem _ h)) (List.mem_cons_of_mem _ List.mem_cons_self)) List.mem_cons_self⟩
  · rw [State.reg_setReg_ne _ _ (by simp only [R.ETH_HQ_TX_HEAD, R.ETH_RX_ERR]; omega), State.reg_incReg_self, he]
  · rw [State.reg_setReg_ne _ _ (by simp only [R.ETH_HQ_TX_HEAD, R.DRM_UE_COUNT]; omega),
      State.reg_incReg_ne _ (by simp only [R.ETH_RX_ERR, R.DRM_UE_COUNT]; omega), g2]

end send

/-! ### The link, the rings and the neighbours -/

section link
variable {s : State} {i : Fin 6}

/-- What LINK shows. -/
def linkWord (up lk an rf : Bool) : Word := wd (b2n up + 2 * b2n lk + 4 * b2n an + 8 * b2n rf)
theorem bit_linkWord (up lk an rf : Bool) : bit (linkWord up lk an rf) 0 = up ∧ bit (linkWord up lk an rf) 1 = lk ∧ bit (linkWord up lk an rf) 2 = an ∧
    bit (linkWord up lk an rf) 3 = rf := by
  revert up lk an rf
  decide
theorem execLinkChg_shows {up lk an rf : Bool} (h : s.phyUp i.val = true) : exec (.linkChg i up lk an rf) s = .next ((s.setReg (R.ETH_LINK i.val)
    (linkWord (up && lk && (!(s.fld (R.ETH_MODE i.val) 1 0 == 2 && s.flag (R.ETH_MODE i.val) 4) || an)) lk an rf)).irq (ethPage i.val) 8) :=
  if_neg (by rw [h]; decide)
theorem execNbMiss_held {ip : List Byte} (h : (s.port i.val).held.any (fun h => h.1 == ip) = true) : exec (.nbMiss i ip) s =
    .next ((s.setPort i.val { s.port i.val with held := (s.port i.val).held.filter fun h => h.1 != ip }).incReg (R.ETH_NB_MISS i.val)) := if_pos h

theorem linkShown (w : Word) : (∀ j, ((s.setReg (R.ETH_LINK i.val) w).irq (ethPage i.val) 8).flag (R.ETH_LINK i.val) j = bit w j) ∧
    bit (((s.setReg (R.ETH_LINK i.val) w).irq (ethPage i.val) 8).page (112 + i.val)).irqStat 8 = true ∧
    RegsBut [R.ETH_LINK i.val] s ((s.setReg (R.ETH_LINK i.val) w).irq (ethPage i.val) 8) :=
  ⟨fun j => by rw [State.flag, State.reg_irq, State.reg_setReg_self], State.bit_irqStat_irq _ _ (by decide),
    .irq _ _ (.setReg _ (.refl _ s) (List.mem_singleton_self _))⟩
/-- The neighbour's entry gone. -/
theorem nbGone (n : Nat) (ip : List Byte) (t : State) (ht : t = s.setPort n { s.port n with nb := (s.port n).nb.filter fun e => e.ip != ip }) :
    (∀ e, e ∈ (t.port n).nb → e.ip ≠ ip) ∧ (t.port n).held = (s.port n).held ∧ t.regs = s.regs ∧ SameMem s t ∧ ∀ j, j ≠ n → t.port j = s.port j := by
  have hg (j : Nat) := State.port_setPort s n j { s.port n with nb := (s.port n).nb.filter fun e => e.ip != ip }
  rw [← ht] at hg
  have hi := (hg n).trans (if_pos rfl)
  refine ⟨fun e he => ?_, by rw [hi], by rw [ht]; rfl, by rw [ht]; exact .refl s, fun j hj => (hg j).trans (if_neg hj)⟩
  rw [hi] at he
  simpa using (List.mem_filter.mp he).2
/-- The frames held for a neighbour that does not answer gone, and counted. -/
theorem heldGone (n : Nat) (ip : List Byte) (u : State) (hu : u = s.setPort n { s.port n with held := (s.port n).held.filter fun h => h.1 != ip }) :
    (∀ h, h ∈ ((u.incReg (R.ETH_NB_MISS n)).port n).held → h.1 ≠ ip) ∧ (u.incReg (R.ETH_NB_MISS n)).reg (R.ETH_NB_MISS n) = s.reg (R.ETH_NB_MISS n) + 1 ∧
    RegsBut [R.ETH_NB_MISS n] s (u.incReg (R.ETH_NB_MISS n)) ∧ SameMem s (u.incReg (R.ETH_NB_MISS n)) := by
  have hg := (State.port_setPort s n n { s.port n with held := (s.port n).held.filter fun h => h.1 != ip }).trans (if_pos rfl)
  rw [← hu] at hg
  have hr : u.regs = s.regs := by
    rw [hu]
    rfl
  have hm : SameMem s u := by
    rw [hu]
    exact .refl s
  refine ⟨fun e he => ?_, ?_, .incReg (.same (.refl _ s) hr) (List.mem_singleton_self _), hm.trans (.refl u)⟩
  · rw [State.port_incReg, hg] at he
    simpa using (List.mem_filter.mp he).2
  · rw [State.reg_incReg_self, State.reg, hr, State.reg]

end link

/-- Settles O44: frames received and sent, the link, the ring tails and the neighbours of a port. -/
theorem ethernetPort : Obligations.EthernetPort := by
  intro s who i f x rest val up lk an rf ring ip
  refine ⟨fun h => ⟨execEthRxFrame_down h, execEthTxDone_down h⟩, fun h => ⟨execEthRxFrame_bad h, fun hg hl hd => ?_, fun hg hl hd hs => ⟨fun hk hq =>
    ⟨_, execEthRxFrame_ptp h hg hl hd hs hk hq, rxQueued _⟩, fun v6 port cks hk hu h1 h2 hc hw => ⟨fun hq => ?_, fun hq => ?_⟩⟩,
    fun hp hw q => execEthTxDone_paused hp hw, fun hp hx => ⟨_, execEthTxDone_lsx ⟨h, hp⟩ hx, lsxLeft rest⟩,
    fun hp ho hd hr => ⟨fun hb => ?_, fun hb => ?_⟩⟩, fun h => ?_, fun h => if_pos (by rw [h]; rfl), fun hm => congrArg Host.Outcome.next (s.gate_may _ hm),
    fun hm => congrArg Host.Outcome.next (s.gate_may _ hm), ?_, fun h => ⟨_, execNbMiss_held h, heldGone _ _ _ rfl⟩, fun h => if_neg (by rw [h]; decide)⟩
  · obtain ⟨g1, g2, g3⟩ := rxDropped (s := s) i.val
    have hs : Shows s ((s.incReg (R.ETH_RX_FRAMES i.val)).incReg (R.ETH_RX_DROP i.val)) := .incReg _ (.incReg _ (.refl s))
    exact ⟨_, (execEthRxFrame_good h hg hl).trans (congrArg Host.Outcome.next (if_pos hd)), hs.eth, g1, g2, g3, hs.mem⟩
  · obtain ⟨g1, -, g3, g4, -⟩ := rxQueued (s := s) (i := i) { s.port i.val with rxLsx := (s.port i.val).rxLsx ++ [f.bytes] }
    exact ⟨_, (execEthRxFrame_lsx h hg hl hd hs hk hu h1 h2 hc hw).trans (congrArg Host.Outcome.next (if_pos hq)), g1, g3, g4⟩
  · obtain ⟨g1, g2⟩ := (s.incReg (R.ETH_RX_FRAMES i.val)).dropCtl_reads i.val
    have hm : Shows s (s.incReg (R.ETH_RX_FRAMES i.val)) := .incReg _ (.refl s)
    have hr : (s.incReg (R.ETH_RX_FRAMES i.val)).reg (R.ETH_DROP_CTL i.val) = s.reg (R.ETH_DROP_CTL i.val) :=
      s.reg_incReg_ne (by simp only [R.ETH_DROP_CTL, R.ETH_RX_FRAMES]; omega)
    exact ⟨_, (execEthRxFrame_lsx h hg hl hd hs hk hu h1 h2 hc hw).trans (congrArg Host.Outcome.next (if_neg (Nat.not_lt.mpr hq))),
      State.port_congr (hm.trans g2).eth _, by rw [g1, hr], (hm.trans g2).mem⟩
  · exact ⟨s.hostDone i.val ring, (execEthTxDone_host ⟨h, hp⟩ ho hd hr).trans (congrArg Host.Outcome.next (if_neg hb)), State.hostDone_reads i.isLt hb⟩
  · subst hb
    exact ⟨s.hostPassed i.val, (execEthTxDone_host ⟨h, hp⟩ ho hd hr).trans (congrArg Host.Outcome.next (if_pos rfl)), State.hostPassed_reads i.isLt⟩
  · refine ⟨_, execLinkChg_shows h, ?_⟩
    obtain ⟨g0, g1, g2, g3⟩ := bit_linkWord (up && lk && (!(s.fld (R.ETH_MODE i.val) 1 0 == 2 && s.flag (R.ETH_MODE i.val) 4) || an)) lk an rf
    obtain ⟨hb, h1, h2⟩ := linkShown (s := s) (i := i) (linkWord (up && lk && (!(s.fld (R.ETH_MODE i.val) 1 0 == 2 && s.flag (R.ETH_MODE i.val) 4) || an)) lk an rf)
    exact ⟨(hb 0).trans g0, (hb 1).trans g1, (hb 2).trans g2, (hb 3).trans g3, h1, h2,
      (Shows.irq _ _ (.setReg _ _ (.refl s))).mem⟩
  · exact ⟨s.setPort i.val { s.port i.val with nb := (s.port i.val).nb.filter fun e => e.ip != ip }, rfl, nbGone _ _ _ rfl⟩

end Sys2Proof.Machine
end

section
/-! Device time: reads, steps, the servo's states and the pulses per second (R438 to R453). -/

namespace Sys2Proof.Machine

/-! ### Time, the time unit and the capture channels replaced -/

section put
def State.putTime (s : State) (t : TimeSt) : State := { s with time := t }
def State.putPtp (s : State) (p : PtpSt) : State := { s with ptp := p }
def State.putCap (s : State) (c : Tab CapCh) : State := { s with cap := c }
variable (s : State) (t : TimeSt) (p : PtpSt) (c : Tab CapCh)
theorem State.putTime_regs : (s.putTime t).regs = s.regs := rfl
theorem State.putTime_mem : SameMem s (s.putTime t) := .refl s
theorem State.putPtp_regs : (s.putPtp p).regs = s.regs := rfl
theorem State.putPtp_time : (s.putPtp p).time = s.time := rfl
theorem State.putPtp_ptp : (s.putPtp p).ptp = p := rfl
theorem State.putPtp_mem : SameMem s (s.putPtp p) := .refl s
theorem State.putCap_mem : SameMem s (s.putCap c) := .refl s
theorem Shows.ptp {s t : State} (h : Shows s t) : t.ptp = s.ptp := by
  obtain ⟨r, x, c, e, rfl⟩ := h
  rfl
end put

/-! ### A step of device time -/

section steps
variable {s : State} {who : Initiator}

/-- Every copy at one time. -/
def TimeSt.at (x : TimeSt) (t n : Nat) : TimeSt := { x with cnt := t, aon := t, log := t, nsu := t, kpr := t, nvm := t, logSteps := n }
/-- Every copy steps; the last rise of PPS_OUT moves with them. -/
def State.stepped (s : State) (t : Nat) : State :=
  (s.putPtp { s.ptp with ppsLast := s.ptp.ppsLast.map fun x => x + ((t : Int) - s.time.cnt) }).putTime (s.time.at t (s.time.logSteps + b2n (s.up 3)))
theorem State.stepTime_eq (s : State) (t : Nat) : s.stepTime t = (((s.stepped t).incReg R.PTP_STEPS).irq 120 10).emit evTimeStep 120
    [lo32 (secOf s.time.cnt), hi32 (secOf s.time.cnt), nsField s.time.cnt, lo32 (secOf t), hi32 (secOf t), nsField t] := rfl
theorem State.stepTime_reads (s : State) (t : Nat) : (∃ n, (s.stepTime t).time = s.time.at t n) ∧
    (s.stepTime t).ptp = { s.ptp with ppsLast := s.ptp.ppsLast.map fun x => x + ((t : Int) - s.time.cnt) } ∧
    (s.stepTime t).reg R.PTP_STEPS = s.reg R.PTP_STEPS + 1 ∧ bit ((s.stepTime t).page 120).irqStat 10 = true ∧
    RegsBut ([R.PTP_STEPS] ++ evrRegs) s (s.stepTime t) ∧ SameMem s (s.stepTime t) := by
  have ht : (s.stepped t).time = s.time.at t (s.time.logSteps + b2n (s.up 3)) := rfl
  have hp : (s.stepped t).ptp = { s.ptp with ppsLast := s.ptp.ppsLast.map fun x => x + ((t : Int) - s.time.cnt) } := rfl
  have hr : (s.stepped t).reg R.PTP_STEPS = s.reg R.PTP_STEPS := rfl
  have hg : RegsBut ([R.PTP_STEPS] ++ evrRegs) s (s.stepped t) := .same (.refl _ s) rfl
  have hm : SameMem s (s.stepped t) := .refl s
  rw [State.stepTime_eq]
  generalize s.stepped t = u at *
  have hs : Shows u (((u.incReg R.PTP_STEPS).irq 120 10).emit evTimeStep 120
      [lo32 (secOf s.time.cnt), hi32 (secOf s.time.cnt), nsField s.time.cnt, lo32 (secOf t), hi32 (secOf t), nsField t]) :=
    .emit _ _ _ (.irq _ _ (.incReg _ (.refl u)))
  refine ⟨⟨_, hs.time.trans ht⟩, hs.ptp.trans hp, ?_, CausesKept.emit _ _ _ (.refl _) _ _ (State.bit_irqStat_irq _ _ (by decide)),
    .emit _ _ _ (.irq _ _ (.incReg hg (by decide))) fun _ => List.mem_append_right _, hm.trans hs.mem⟩
  rw [State.reg_emit _ _ _ _ (by decide), State.reg_irq, State.incReg, State.reg_setReg_self, hr]

/-- A step answers, and every copy takes the new time. -/
theorem State.stepTime_answer_reads (s : State) (x : Nat) : ((s.answer 0).stepTime x).time.cnt = x ∧
    ((s.answer 0).stepTime x).time.aon = ((s.answer 0).stepTime x).time.cnt ∧ ((s.answer 0).stepTime x).time.log = ((s.answer 0).stepTime x).time.cnt ∧
    ((s.answer 0).stepTime x).time.nsu = ((s.answer 0).stepTime x).time.cnt ∧ ((s.answer 0).stepTime x).time.kpr = ((s.answer 0).stepTime x).time.cnt ∧
    ((s.answer 0).stepTime x).time.nvm = ((s.answer 0).stepTime x).time.cnt ∧ ((s.answer 0).stepTime x).time.lastIncr = s.time.lastIncr ∧
    ((s.answer 0).stepTime x).reg R.PTP_STEPS = s.reg R.PTP_STEPS + 1 ∧ bit (((s.answer 0).stepTime x).page 120).irqStat 10 = true ∧
    RegsBut ([R.PTP_STEPS] ++ evrRegs) s ((s.answer 0).stepTime x) ∧ SameMem s ((s.answer 0).stepTime x) := by
  obtain ⟨⟨n, h1⟩, -, h3, h4, h5, h6⟩ := (s.answer 0).stepTime_reads x
  have ha : RegsBut ([R.PTP_STEPS] ++ evrRegs) s (s.answer 0) := .answer 0 (.refl _ s)
  have hl : (s.answer 0).time.lastIncr = s.time.lastIncr := rfl
  have hr : (s.answer 0).reg R.PTP_STEPS = s.reg R.PTP_STEPS := rfl
  have hb : SameMem s (s.answer 0) := .refl s
  generalize (s.answer 0).stepTime x = t at *
  rw [h1, h3, hr]
  exact ⟨rfl, rfl, rfl, rfl, rfl, rfl, hl, rfl, h4, ha.trans h5, hb.trans h6⟩

theorem execTimeNs_latches (hm : MayRead who R.PTP_TIME_NS s = true) : exec (.timeNs who) s =
    .next ((s.putTime { s.time with latS := BitVec.ofNat 48 (secOf s.time.cnt), latF := wd s.time.cnt }).answer (nsField s.time.cnt)) :=
  congrArg Host.Outcome.next (s.rgate_may _ hm)
theorem execSet_steps (hm : MayWrite who R.PTP_TCMD s = true) (h : s.flag R.PTP_STEP_EN 0 = true) :
    exec (.set who) s = .next ((s.answer 0).stepTime (s.setTimeOf (s.regN R.PTP_SET_NS))) :=
  congrArg Host.Outcome.next ((s.gate_may _ hm).trans (if_pos h))
theorem execSeconds_arms (hm : MayWrite who R.PTP_TCMD s = true) (h : s.flag R.PTP_STEP_EN 0 = true) :
    exec (.seconds who) s = .next ((s.answer 0).putPtp { s.ptp with secArm := true }) :=
  congrArg Host.Outcome.next ((s.gate_may _ hm).trans (if_pos h))
theorem execSet_refused (hm : MayWrite who R.PTP_TCMD s = true) (h : s.flag R.PTP_STEP_EN 0 = false) :
    exec (.set who) s = .next ((s.answer 0).emit evStepRefused 120 []) :=
  congrArg Host.Outcome.next ((s.gate_may _ hm).trans (if_neg (show ¬ s.flag R.PTP_STEP_EN 0 = true by rw [h]; decide)))
theorem execSeconds_refused (hm : MayWrite who R.PTP_TCMD s = true) (h : s.flag R.PTP_STEP_EN 0 = false) :
    exec (.seconds who) s = .next ((s.answer 0).emit evStepRefused 120 []) :=
  congrArg Host.Outcome.next ((s.gate_may _ hm).trans (if_neg (show ¬ s.flag R.PTP_STEP_EN 0 = true by rw [h]; decide)))

end steps

/-! ### The servo's state -/

section servo
variable (s : State) (v : Nat)

/-- The servo's state as it is shown. -/
def State.servoShown (s : State) (v : Nat) : State :=
  let t := (s.setFld R.PTP_SERVO_STAT 2 0 v).setFlag R.PTP_SERVO_STAT 3 (decide (v = 2) && s.ptp.traceGm)
  if xor (s.servo == 2) (v == 2) then t.irq 120 8 else t
theorem State.setServo_eq : s.setServo v = if v = s.servo then s.servoShown v else (s.servoShown v).putPtp { (s.servoShown v).ptp with inLock := 0 } := rfl
theorem State.servoShown_reads : Shows s (s.servoShown v) ∧ RegsBut [R.PTP_SERVO_STAT] s (s.servoShown v) ∧ (s.servoShown v).servo = v % 8 := by
  have hs : Shows s ((s.setFld R.PTP_SERVO_STAT 2 0 v).setFlag R.PTP_SERVO_STAT 3 (decide (v = 2) && s.ptp.traceGm)) := .setFlag _ _ _ (.setFld _ _ _ _ (.refl s))
  have hr : RegsBut [R.PTP_SERVO_STAT] s ((s.setFld R.PTP_SERVO_STAT 2 0 v).setFlag R.PTP_SERVO_STAT 3 (decide (v = 2) && s.ptp.traceGm)) :=
    .setFlag _ _ (.setFld _ _ _ (.refl _ s) (by decide)) (by decide)
  have hv : ((s.setFld R.PTP_SERVO_STAT 2 0 v).setFlag R.PTP_SERVO_STAT 3 (decide (v = 2) && s.ptp.traceGm)).servo = v % 8 :=
    (State.fld_setFlag_ne _ _ _ (by decide) (by decide)).trans (State.fld_setFld _ _ _ _ (by decide) (le_refl _))
  refine ⟨.ite (.irq _ _ hs) hs, .ite (.irq _ _ hr) hr, ?_⟩
  unfold State.servoShown
  dsimp only
  generalize (s.setFld R.PTP_SERVO_STAT 2 0 v).setFlag R.PTP_SERVO_STAT 3 (decide (v = 2) && s.ptp.traceGm) = u at *
  split
  · exact hv
  · exact hv
/-- A change of the servo's state. -/
theorem State.setServo_reads : (s.setServo v).servo = v % 8 ∧ RegsBut [R.PTP_SERVO_STAT] s (s.setServo v) ∧ (s.setServo v).time = s.time ∧ SameMem s (s.setServo v) := by
  obtain ⟨h1, h2, h3⟩ := s.servoShown_reads v
  rw [State.setServo_eq]
  generalize s.servoShown v = u at *
  split
  · exact ⟨h3, h2, h1.time, h1.mem⟩
  · exact ⟨h3, .same h2 (u.putPtp_regs _), h1.time, h1.mem.trans (u.putPtp_mem _)⟩
theorem State.setIncr_shows : Shows s (s.setIncr v) := .setReg _ _ (.setReg _ _ (.setReg _ _ (.refl s)))
theorem State.toHoldover_reads : s.toHoldover.servo = 3 ∧ s.toHoldover.time = s.time ∧ SameMem s s.toHoldover := by
  have hs : Shows s (if s.ptp.hist.isEmpty then s else s.setIncr (s.ptp.hist.sum / s.ptp.hist.length)) := .ite (.refl s) (s.setIncr_shows _)
  unfold State.toHoldover
  dsimp only
  generalize (if s.ptp.hist.isEmpty then s else s.setIncr (s.ptp.hist.sum / s.ptp.hist.length)) = u at *
  obtain ⟨h1, -, h3, h4⟩ := u.setServo_reads 3
  exact ⟨h1, h3.trans hs.time, hs.mem.trans h4⟩

end servo

/-! ### An edge at PPS_IN -/

section ppsIn
variable {s : State}

/-- The capture channels alone differ, with what a channel shows. -/
def CapOnly (n : Nat) (s t : State) : Prop := (∃ c, Shows (s.putCap c) t) ∧ RegsBut [R.CAP_CNT n, R.CAP_OVF] s t
theorem CapOnly.ite {n : Nat} {p : Prop} [Decidable p] {u v : State} (hu : CapOnly n s u) (hv : CapOnly n s v) : CapOnly n s (if p then u else v) := by
  split
  · exact hu
  · exact hv
theorem CapOnly.setCap (n : Nat) (x : CapCh) : CapOnly n s (s.setCap n x) := ⟨⟨_, .refl _⟩, .same (.refl _ s) rfl⟩
theorem CapOnly.counted (n : Nat) (x : CapCh) : CapOnly n s ((s.incReg (R.CAP_CNT n)).setCap n x) :=
  ⟨⟨_, _, _, _, _, rfl⟩, .same (.incReg (.refl _ s) List.mem_cons_self) rfl⟩
theorem CapOnly.irq {n : Nat} {t : State} (h : CapOnly n s t) (p i : Nat) : CapOnly n s (t.irq p i) := by
  obtain ⟨⟨c, hc⟩, hr⟩ := h
  exact ⟨⟨c, .irq _ _ hc⟩, .irq _ _ hr⟩
theorem CapOnly.ovf {n : Nat} {t : State} (h : CapOnly n s t) (b : Bool) : CapOnly n s (t.setFlag R.CAP_OVF n b) := by
  obtain ⟨⟨c, hc⟩, hr⟩ := h
  exact ⟨⟨c, .setFlag _ _ _ hc⟩, .setFlag _ _ hr (List.mem_cons_of_mem _ List.mem_cons_self)⟩
/-- An edge accepted by a capture channel changes the channels, its count and its overflow alone. -/
theorem State.capAccept_frame (s : State) (n : Nat) (rising close : Bool) : CapOnly n s (s.capAccept n rising close) :=
  .ite (.ite (.counted _ _) (.ite (.irq (.ovf (.counted _ _) _) _ _) (.ite (.irq (.counted _ _) _ _) (.counted _ _)))) (.setCap _ _)
/-- The edge as it is captured. -/
def State.ppsCaptured (s : State) : State := if s.locked 8 = true then s.capAccept 24 (!s.flag R.PTP_PPS_CFG 4) false else s
theorem execPpsIn_eq (incr : BitVec 40) : exec (.ppsIn incr) s = .next (s.ppsCaptured.ppsEdge incr.toNat) := rfl
theorem State.ppsCaptured_frame (s : State) : CapOnly 24 s s.ppsCaptured := .ite (s.capAccept_frame _ _ _) ⟨⟨s.cap, .refl s⟩, .refl _ s⟩
/-- What an edge at PPS_IN is taken by stays over its capture. -/
theorem State.ppsCaptured_reads (s : State) : s.ppsCaptured.running 120 = s.running 120 ∧ s.ppsCaptured.locked 8 = s.locked 8 ∧
    s.ppsCaptured.fld R.PTP_PPS_CFG 3 2 = s.fld R.PTP_PPS_CFG 3 2 ∧ s.ppsCaptured.anyPort 9 = s.anyPort 9 ∧ s.ppsCaptured.ptp = s.ptp ∧
    s.ppsCaptured.flag R.PTP_STEP_EN 0 = s.flag R.PTP_STEP_EN 0 ∧ s.ppsCaptured.setTimeOf 0 = s.setTimeOf 0 ∧
    s.ppsCaptured.reg R.PTP_STEPS = s.reg R.PTP_STEPS ∧ SameMem s s.ppsCaptured := by
  obtain ⟨⟨c, hs⟩, hr⟩ := s.ppsCaptured_frame
  generalize s.ppsCaptured = u at *
  have hm := (s.putCap_mem c).trans hs.mem
  refine ⟨?_, State.locked_congr (hr.reg (by decide)) (hr.reg (by decide)) hs.pwr 8, ?_, ?_, hs.ptp, ?_, ?_, hr.reg (by decide), hm⟩
  · rw [State.running, State.shown_congr (hr.reg (by decide)) hs.pwr hs.blks, State.running]
  · rw [State.fld, hr.reg (by decide), State.fld]
  · have e : u.reg R.PTP_PORT_STATE = s.reg R.PTP_PORT_STATE := hr.reg (by decide)
    unfold State.anyPort State.ptpPort State.fld
    rw [e]
  · rw [State.flag, hr.reg (by decide), State.flag]
  · have e1 : u.reg R.PTP_SET_S_LO = s.reg R.PTP_SET_S_LO := hr.reg (by decide)
    have e2 : u.reg R.PTP_SET_S_HI = s.reg R.PTP_SET_S_HI := hr.reg (by decide)
    unfold State.setTimeOf State.fld State.regN
    rw [e1, e2]

theorem State.ppsEdge_ignored (n : Nat) (h : s.running 120 = false ∨ s.locked 8 = false ∨ s.fld R.PTP_PPS_CFG 3 2 ≠ 2 ∨ s.anyPort 9 = true) :
    s.ppsEdge n = s := if_pos (by simpa using h)
theorem State.ppsEdge_taken (n : Nat) (hr : s.running 120 = true) (hl : s.locked 8 = true) (hf : s.fld R.PTP_PPS_CFG 3 2 = 2) (ha : s.anyPort 9 = false) :
    s.ppsEdge n = if (s.ptp.secArm && s.flag R.PTP_STEP_EN 0) = true then (s.putPtp { s.ptp with secArm := false }).stepTime (s.setTimeOf 0)
      else (s.putPtp { s.ptp with secArm := false }).ppsSecond n := if_neg (by rw [hr, hl, hf, ha]; decide)
/-- An edge that the servo acquires, holds or is held by. -/
theorem State.ppsSecond_locked (n : Nat) (h : s.servo = 1 ∨ s.servo = 2 ∨ s.servo = 4) : s.ppsSecond n =
    ({ s with ptp := { s.ptp with everPps := true } } : State).servoOffset
      (let ns : Int := ((nsField s.time.cnt).toNat : Int)
       if ns < 500000000 then ns else ns - 1000000000) n false := by
  unfold State.ppsSecond
  dsimp only
  rw [if_neg (by omega)]

theorem execPpsIn_ignored (incr : BitVec 40) (h : s.running 120 = false ∨ s.locked 8 = false ∨ s.fld R.PTP_PPS_CFG 3 2 ≠ 2 ∨ s.anyPort 9 = true) :
    exec (.ppsIn incr) s = .next s.ppsCaptured := by
  obtain ⟨e1, e2, e3, e4, -⟩ := s.ppsCaptured_reads
  rw [execPpsIn_eq, State.ppsEdge_ignored]
  rw [e1, e2, e3, e4]
  exact h

section taken
variable (incr : BitVec 40) (hr : s.running 120 = true) (hl : s.locked 8 = true) (hf : s.fld R.PTP_PPS_CFG 3 2 = 2) (ha : s.anyPort 9 = false)
include hr hl hf ha
theorem State.ppsCaptured_edge : s.ppsCaptured.ppsEdge incr.toNat = if (s.ptp.secArm && s.flag R.PTP_STEP_EN 0) = true then
    (s.ppsCaptured.putPtp { s.ppsCaptured.ptp with secArm := false }).stepTime (s.setTimeOf 0)
      else (s.ppsCaptured.putPtp { s.ppsCaptured.ptp with secArm := false }).ppsSecond incr.toNat := by
  obtain ⟨e1, e2, e3, e4, e5, e6, e7, -⟩ := s.ppsCaptured_reads
  rw [State.ppsEdge_taken _ (e1.trans hr) (e2.trans hl) (e3.trans hf) (e4.trans ha), e5, e6, e7]
/-- An armed seconds set is carried out where STEP_EN still allows it. -/
theorem execPpsIn_armed (hs : s.ptp.secArm = true) (he : s.flag R.PTP_STEP_EN 0 = true) : Answers (.ppsIn incr) s fun t =>
    t.time.cnt = s.setTimeOf 0 ∧ t.ptp.secArm = false ∧ t.reg R.PTP_STEPS = s.reg R.PTP_STEPS + 1 ∧ SameMem s t := by
  refine ⟨_, (execPpsIn_eq incr).trans (congrArg Host.Outcome.next
    ((State.ppsCaptured_edge incr hr hl hf ha).trans (if_pos (by rw [hs, he]; rfl)))), ?_⟩
  obtain ⟨-, -, -, -, -, -, -, e8, e9⟩ := s.ppsCaptured_reads
  generalize s.ppsCaptured = u at *
  have g1 : (u.putPtp { u.ptp with secArm := false }).ptp.secArm = false := rfl
  have g2 : (u.putPtp { u.ptp with secArm := false }).reg R.PTP_STEPS = s.reg R.PTP_STEPS := e8
  have g3 : SameMem s (u.putPtp { u.ptp with secArm := false }) := e9.trans (u.putPtp_mem _)
  generalize u.putPtp { u.ptp with secArm := false } = v at *
  obtain ⟨⟨n, h1⟩, h2, h3, -, -, h6⟩ := v.stepTime_reads (s.setTimeOf 0)
  rw [h1, h2, h3]
  exact ⟨rfl, g1, by rw [g2], g3.trans h6⟩
theorem execPpsIn_second (h : s.ptp.secArm = false ∨ s.flag R.PTP_STEP_EN 0 = false) : exec (.ppsIn incr) s =
    .next ((s.ppsCaptured.putPtp { s.ppsCaptured.ptp with secArm := false }).ppsSecond incr.toNat) := by
  rw [execPpsIn_eq, State.ppsCaptured_edge incr hr hl hf ha, if_neg]
  rw [Bool.and_eq_true]
  rintro ⟨g1, g2⟩
  obtain h | h := h
  · rw [h] at g1
    cases g1
  · rw [h] at g2
    cases g2
end taken

end ppsIn

/-! ### The edges of PPS_OUT -/

section ppsOut
variable {s : State}

/-- PPS_OUT rises, not within 100 ms of the rise before. -/
def State.ppsFar (s : State) : Bool := match s.ptp.ppsLast with | none => true | some t => decide (t + (100 * tMs : Nat) ≤ (s.time.cnt : Int))
theorem State.ppsFar_of (h : ∀ t, s.ptp.ppsLast = some t → t + (100 * tMs : Nat) ≤ s.time.cnt) : s.ppsFar = true := by
  unfold State.ppsFar
  cases hl : s.ptp.ppsLast with
  | none => rfl
  | some t => exact decide_eq_true (h t hl)
theorem State.ppsFar_near (h : ∃ t, s.ptp.ppsLast = some t ∧ s.time.cnt < t + (100 * tMs : Nat)) : s.ppsFar = false := by
  obtain ⟨t, hl, ht⟩ := h
  unfold State.ppsFar
  rw [hl]
  exact decide_eq_false (not_le.mpr ht)
/-- The mode of PPS_OUT lets it rise. -/
def State.ppsMode (s : State) : Bool := s.fld R.PTP_PPS_CFG 1 0 == 2 || (s.fld R.PTP_PPS_CFG 1 0 == 1 && (s.servo == 2 || s.servo == 4))
theorem execPpsOut_rises (h : (s.running 120 && s.ppsFar && s.ppsMode) = true) :
    exec .ppsOut s = .next ((s.putPtp { s.ptp with ppsHigh := true, ppsLast := some s.time.cnt }).irq 120 11) := if_pos h
theorem execPpsOut_stays (h : ¬ (s.running 120 && s.ppsFar && s.ppsMode) = true) : exec .ppsOut s = .next s := if_neg h
/-- The time unit replaced and its edge of PPS_OUT raised as a cause. -/
theorem ppsEdge_reads (p : PtpSt) : ((s.putPtp p).irq 120 11).ptp = p ∧ bit (((s.putPtp p).irq 120 11).page 120).irqStat 11 = true ∧
    ((s.putPtp p).irq 120 11).regs = s.regs ∧ SameMem s ((s.putPtp p).irq 120 11) := by
  have h1 := s.putPtp_ptp p
  have h2 := s.putPtp_regs p
  have h3 := s.putPtp_mem p
  generalize s.putPtp p = u at *
  have hs : Shows u (u.irq 120 11) := .irq _ _ (.refl u)
  exact ⟨hs.ptp.trans h1, State.bit_irqStat_irq _ _ (by decide), (State.irq_regs _ _ _).trans h2, h3.trans hs.mem⟩

theorem execPpsPulseEnd_high (h : s.ptp.ppsHigh = true) : exec .ppsPulseEnd s = .next ((s.putPtp { s.ptp with ppsHigh := false }).irq 120 11) :=
  congrArg Host.Outcome.next (if_pos h)

end ppsOut

/-- Settles O45: reads and steps of device time, the edges of PPS_IN and PPS_OUT, and HOLDOVER. -/
theorem deviceTime : Obligations.DeviceTime := by
  intro s who incr
  refine ⟨fun hm => ⟨_, execTimeNs_latches hm, rfl, rfl, rfl, .refl s⟩, fun hm => ⟨fun h => ⟨?_, ?_⟩, fun h =>
    ⟨execSet_refused hm h, execSeconds_refused hm h⟩⟩, fun u hu => ?_, fun hr hv => ?_, fun h => ?_, fun hr hf ha hv => ?_, fun hr hl hm => ?_,
    fun h => ?_, fun h => ?_, fun h => ⟨_, execPpsPulseEnd_high h, ppsEdge_reads _⟩,
    fun h => congrArg Host.Outcome.next (if_neg (by rw [h]; decide))⟩
  · exact ⟨_, execSet_steps hm h, s.stepTime_answer_reads _⟩
  · exact ⟨_, execSeconds_arms hm h, rfl, rfl, rfl, .refl s⟩
  · rw [show u = s.ppsCaptured from hu]
    exact ⟨execPpsIn_ignored incr, fun hr hl hf ha => ⟨execPpsIn_armed incr hr hl hf ha, execPpsIn_second incr hr hl hf ha, fun v hv => v.ppsSecond_locked _ hv⟩⟩
  · obtain ⟨h1, h2, -, h4⟩ := s.setServo_reads 0
    exact ⟨_, congrArg Host.Outcome.next (if_pos (by rw [hr, hv]; rfl)), h1, h2, h4⟩
  · refine congrArg Host.Outcome.next (if_neg ?_)
    rw [Bool.and_eq_true]
    rintro ⟨g1, g2⟩
    obtain h | h := h
    · exact h (by simpa using g2)
    · rw [h] at g1
      cases g1
  · obtain ⟨h1, h2, h3⟩ := s.toHoldover_reads
    refine ⟨_, congrArg Host.Outcome.next (if_pos ?_), h1, h2, h3⟩
    rw [hr, hf, ha]
    simpa using hv
  · refine ⟨_, execPpsOut_rises ?_, ppsEdge_reads _⟩
    rw [hr, State.ppsFar_of hl, State.ppsMode]
    simpa using hm
  · refine execPpsOut_stays ?_
    rw [State.ppsFar_near h, Bool.and_false]
    exact Bool.false_ne_true
  · refine execPpsOut_stays ?_
    obtain h | h | h := h
    · rw [h]
      exact Bool.false_ne_true
    · rw [State.ppsMode, h]
      simp
    · rw [State.ppsMode, h]
      simp

end Sys2Proof.Machine
end

section
/-! PTP messages: Sync and its answers, the port states of a decision, and the grandmaster shown (R445 to R450). -/

namespace Sys2Proof.Machine

/-! ### Messages of a port in PORTS -/

section messages
variable {s : State} {port : Fin 6} {x y : PtpTimes} {incr : BitVec 40} {g : Bool}

/-- The port is SLAVE, as a Sync is measured on. -/
theorem slave_open (ho : s.ptpOn port.val = true) (hp : s.ptpPort port.val = 9) : ¬ (!(s.ptpOn port.val && s.ptpPort port.val == 9)) = true := by
  rw [ho, hp]
  decide
theorem execSync_two (ho : s.ptpOn port.val = true) (hp : s.ptpPort port.val = 9) : exec (.sync port true g x incr) s =
    .next { s with ptp := { s.ptp with twoStep := some x, newGm := g || s.ptp.newGm } } := by
  change execSync port true g x incr s = _
  unfold execSync
  rw [if_neg (slave_open ho hp)]
  exact if_pos rfl
theorem execSync_one (ho : s.ptpOn port.val = true) (hp : s.ptpPort port.val = 9) : exec (.sync port false g x incr) s =
    .next (({ s with ptp := { s.ptp with newGm := false } } : State).servoOffset (s.syncOffset port.val x) incr.toNat (g || s.ptp.newGm)) := by
  change execSync port false g x incr s = _
  unfold execSync
  rw [if_neg (slave_open ho hp)]
  exact if_neg Bool.false_ne_true
theorem execFollowUp_some (ho : s.ptpOn port.val = true) (hp : s.ptpPort port.val = 9) (hy : s.ptp.twoStep = some y) : exec (.followUp port x incr) s =
    .next (({ s with ptp := { s.ptp with newGm := false, twoStep := none } } : State).servoOffset
      (s.syncOffset port.val ⟨x.origin, y.rx, y.corr + x.corr⟩) incr.toNat s.ptp.newGm) := by
  change execFollowUp port x incr s = _
  unfold execFollowUp
  rw [hy]
  exact if_neg (slave_open ho hp)
theorem execDelayReq_sends (ho : s.ptpOn port.val = true) (hp : s.ptpPort port.val = 9) (he : s.ptpE2e = true) : exec (.delayReq port false) s =
    .next (s.ptpSend 1 port.val) := by
  change execDelayReq port false s = _
  unfold execDelayReq
  rw [if_neg (by rw [ho, he]; decide), if_neg Bool.false_ne_true, if_pos hp]
theorem execDelayReq_answers (ho : s.ptpOn port.val = true) (hp : s.ptpPort port.val = 6) (he : s.ptpE2e = true) : exec (.delayReq port true) s =
    .next (s.ethSend port.val .ptp (ptpMsg 9 port.val s.time.cnt)) := by
  change execDelayReq port true s = _
  unfold execDelayReq
  rw [if_neg (by rw [ho, he]; decide), if_pos rfl, if_pos hp]
theorem execDelayResp_shows {d : Word} (ho : s.ptpOn port.val = true) (hp : s.ptpPort port.val = 9) (he : s.ptpE2e = true) : exec (.delayResp port d) s =
    .next (s.setReg R.PTP_MPD_NS d) := by
  change execDelayResp port d s = _
  unfold execDelayResp
  rw [if_pos (by rw [ho, hp, he]; rfl)]
theorem execSyncSend_master (ho : s.ptpOn port.val = true) (hp : s.ptpPort port.val = 6) : exec (.syncSend port) s = .next (s.ptpSend 0 port.val) := by
  change execSyncSend port s = _
  unfold execSyncSend
  rw [if_pos (by rw [ho, hp]; rfl)]
theorem execAnnounceSend_master (ho : s.ptpOn port.val = true) (hp : s.ptpPort port.val = 6) : exec (.announceSend port) s =
    .next (s.ethSend port.val .ptp ([0xB, BitVec.ofNat 8 port.val, BitVec.ofNat 8 s.annClass] ++ leBytes 4 (s.regN R.PTP_UTC_OFFSET))) := by
  change execAnnounceSend port s = _
  unfold execAnnounceSend
  rw [if_pos (by rw [ho, hp]; rfl)]
theorem execAnnounceReceiptTimeout_on {sts : List (BitVec 4)} (ho : s.ptpOn port.val = true) : exec (.announceReceiptTimeout port sts) s =
    .next (s.setPorts sts) := by
  change execAnnounceReceiptTimeout port sts s = _
  unfold execAnnounceReceiptTimeout
  rw [if_pos ho]

section p2p
variable (ho : s.ptpOn port.val = true) (he : s.ptpE2e = false)
include ho he
theorem p2p_open : (s.ptpOn port.val && !s.ptpE2e) = true := by
  rw [ho, he]
  rfl
theorem execPdelayReq_answers : exec (.pdelayReq port) s = .next (s.pdelayAnswer port.val) := by
  change execPdelayReq port s = _
  unfold execPdelayReq
  rw [if_pos (p2p_open ho he)]
theorem execPdelayReqSend_sends : exec (.pdelayReqSend port) s = .next (s.ptpSend 2 port.val) := by
  change execPdelayReqSend port s = _
  unfold execPdelayReqSend
  rw [if_pos (p2p_open ho he)]
theorem execPdelayResp_shows {d : Word} : exec (.pdelayResp port d) s = .next (s.setReg R.PTP_MPD_NS d) := by
  change execPdelayResp port d s = _
  unfold execPdelayResp
  rw [if_pos (p2p_open ho he)]
end p2p

end messages

/-! ### A port that is not in PORTS -/

section off
variable {s : State} {port : Fin 6} (h : s.ptpOn port.val = false)
include h
theorem execSync_off {two g : Bool} {x : PtpTimes} {incr : BitVec 40} : exec (.sync port two g x incr) s = .next s := by
  change execSync port two g x incr s = _
  unfold execSync
  rw [if_pos (by rw [h]; rfl)]
theorem execSyncSend_off : exec (.syncSend port) s = .next s := by
  change execSyncSend port s = _
  unfold execSyncSend
  rw [h, Bool.false_and, if_neg Bool.false_ne_true]
theorem execAnnounce_off {a : PtpAnnounce} : exec (.announce port a) s = .next s := by
  change execAnnounce port a s = _
  unfold execAnnounce
  rw [if_pos (by rw [h]; rfl)]
theorem execDelayReq_off {r : Bool} : exec (.delayReq port r) s = .next s := by
  change execDelayReq port r s = _
  unfold execDelayReq
  rw [if_pos (by rw [h]; rfl)]
theorem execPdelayReq_off : exec (.pdelayReq port) s = .next s := by
  change execPdelayReq port s = _
  unfold execPdelayReq
  rw [h, Bool.false_and, if_neg Bool.false_ne_true]
end off

/-! ### Port states -/

section ports
variable {s : State} {sts : List (BitVec 4)}

/-- The state of port i by a decision (R445, R446). -/
def State.portCode (s : State) (sts : List (BitVec 4)) (i : Nat) : Nat :=
  let x := (sts.getD i 0).toNat
  let x := if s.flag R.PTP_CFG 5 ∧ x = 6 then 4 else x
  if (s.fld R.PTP_CFG 13 8).testBit i then x else 3
/-- PORT_STATE of a decision. -/
def State.portWord (s : State) (sts : List (BitVec 4)) : Word := (List.range 6).foldl (fun v i => putBits v (4 * i + 3) (4 * i) (s.portCode sts i)) (0 : Word)
/-- The servo's state that follows from the port states. -/
def State.servoFollows (s : State) (wasSlave : Bool) : State :=
  if s.anyPort 9 then (if wasSlave then s else s.setServo 1)
  else if s.anyPort 6 then (if s.ptp.everPps && s.servo == 2 then s else s.setServo 4)
  else if s.servo = 2 then s.toHoldover
  else if s.servo = 3 then s
  else s.setServo 0
theorem State.setPorts_eq : s.setPorts sts = (s.setReg R.PTP_PORT_STATE (s.portWord sts)).servoFollows (s.anyPort 9) := rfl

/-- The registers that the servo's state shows in. -/
def servoRegs : List Nat := [R.PTP_SERVO_STAT, R.PTP_INCR_LO, R.PTP_INCR_HI, R.PTP_FREQ_PPB]
/-- The servo's registers alone change, and no memory. -/
def ServoOnly (s t : State) : Prop := RegsBut servoRegs s t ∧ SameMem s t
theorem ServoOnly.ite {p : Prop} [Decidable p] {u v : State} (hu : ServoOnly s u) (hv : ServoOnly s v) : ServoOnly s (if p then u else v) := by
  split
  · exact hu
  · exact hv
theorem State.setServo_only (s : State) (v : Nat) : ServoOnly s (s.setServo v) := by
  obtain ⟨-, h2, -, h4⟩ := s.setServo_reads v
  exact ⟨h2.mono (by decide), h4⟩
theorem State.toHoldover_only (s : State) : ServoOnly s s.toHoldover := by
  have hr (n : Nat) : RegsBut servoRegs s (s.setIncr n) := .setReg _ (.setReg _ (.setReg _ (.refl _ s) (by decide)) (by decide)) (by decide)
  have h : ServoOnly s (if s.ptp.hist.isEmpty then s else s.setIncr (s.ptp.hist.sum / s.ptp.hist.length)) :=
    .ite ⟨.refl _ s, .refl s⟩ ⟨hr _, (s.setIncr_shows _).mem⟩
  unfold State.toHoldover
  dsimp only
  generalize (if s.ptp.hist.isEmpty then s else s.setIncr (s.ptp.hist.sum / s.ptp.hist.length)) = u at *
  obtain ⟨h1, h2⟩ := u.setServo_only 3
  exact ⟨h.1.trans h1, h.2.trans h2⟩
theorem State.servoFollows_only (s : State) (w : Bool) : ServoOnly s (s.servoFollows w) :=
  have h : ServoOnly s s := ⟨.refl _ s, .refl s⟩
  .ite (.ite h (s.setServo_only 1)) (.ite (.ite h (s.setServo_only 4)) (.ite s.toHoldover_only (.ite h (s.setServo_only 0))))
theorem State.setPorts_reads (s : State) (sts : List (BitVec 4)) : (s.setPorts sts).reg R.PTP_PORT_STATE = s.portWord sts ∧ SameMem s (s.setPorts sts) := by
  have hv := s.reg_setReg_self R.PTP_PORT_STATE (s.portWord sts)
  have hm : SameMem s (s.setReg R.PTP_PORT_STATE (s.portWord sts)) := (Shows.setReg _ _ (.refl s)).mem
  rw [State.setPorts_eq]
  generalize s.setReg R.PTP_PORT_STATE (s.portWord sts) = u at *
  obtain ⟨h1, h2⟩ := u.servoFollows_only (s.anyPort 9)
  exact ⟨(h1.reg (by decide)).trans hv, hm.trans h2⟩

/-- A field of the word is put once, and stays. -/
theorem bits_portWord {j : Nat} (hj : j < 6) : bits (s.portWord sts) (4 * j + 3) (4 * j) = s.portCode sts j % 16 := by
  have key (n : Nat) (hn : n ≤ 6) (v : Word) : bits ((List.range n).foldl (fun v i => putBits v (4 * i + 3) (4 * i) (s.portCode sts i)) v) (4 * j + 3) (4 * j) =
      if j < n then s.portCode sts j % 16 else bits v (4 * j + 3) (4 * j) := by
    induction n with
    | zero => rfl
    | succ n ih =>
      rw [List.range_succ, List.foldl_append, List.foldl_cons, List.foldl_nil]
      by_cases e : j = n
      · subst e
        rw [if_pos (Nat.lt_succ_self j), bits_putBits _ _ _ (by omega), show 4 * j + 3 + 1 - 4 * j = 4 by omega, show 2 ^ 4 = 16 from rfl]
      · rw [bits_putBits_ne _ _ (by omega) (by omega), ih (by omega)]
        by_cases h : j < n
        · rw [if_pos h, if_pos (by omega)]
        · rw [if_neg h, if_neg (by omega)]
  exact (key 6 (le_refl _) 0).trans (if_pos hj)
theorem State.portCode_lt (s : State) (sts : List (BitVec 4)) (i : Nat) : s.portCode sts i < 16 := by
  have h := (sts.getD i 0).isLt
  unfold State.portCode
  dsimp only
  split
  · split
    · decide
    · exact h
  · decide
theorem State.ptpPort_setPorts {j : Nat} (hj : j < 6) : (s.setPorts sts).ptpPort j =
    if (s.fld R.PTP_CFG 13 8).testBit j = false then 3
    else if s.flag R.PTP_CFG 5 = true ∧ sts.getD j 0 = 6 then 4 else (sts.getD j 0).toNat := by
  have h6 : (sts.getD j 0).toNat = 6 ↔ sts.getD j 0 = 6 := by
    rw [← BitVec.toNat_inj]
    rfl
  rw [State.ptpPort, State.fld, (s.setPorts_reads sts).1, bits_portWord hj, Nat.mod_eq_of_lt (s.portCode_lt sts j), State.portCode]
  by_cases hp : (s.fld R.PTP_CFG 13 8).testBit j = true
  · rw [if_pos hp, if_neg (c := (s.fld R.PTP_CFG 13 8).testBit j = false) (by rw [hp]; decide)]
    simp only [h6]
  · rw [if_neg hp, if_pos (Bool.eq_false_iff.mpr hp)]

end ports

/-! ### The grandmaster -/

section announce
variable {s : State} {port : Fin 6} {a : PtpAnnounce}

/-- The grandmaster's registers. -/
def State.gmRegs (s : State) (a : PtpAnnounce) : State :=
  (s.setRegs [(R.PTP_GM_ID_LO, a.gm.setWidth 32), (R.PTP_GM_ID_HI, (a.gm >>> 32).setWidth 32), (R.PTP_UTC_OFS_RX, a.utc)]).setFld R.PTP_SERVO_STAT 15 8 a.cls.toNat
/-- The grandmaster of an Announce shown. -/
def State.gmShown (s : State) (a : PtpAnnounce) : State :=
  let chg := s.reg R.PTP_GM_ID_LO != a.gm.setWidth 32 || s.reg R.PTP_GM_ID_HI != (a.gm >>> 32).setWidth 32
  let u := (s.gmRegs a).putPtp { s.ptp with traceGm := a.trace, newGm := s.ptp.newGm || chg }
  let v := u.setFlag R.PTP_SERVO_STAT 3 (u.servo == 2 && a.trace)
  if chg then v.irq 120 9 else v
theorem execAnnounce_slave (ho : s.ptpOn port.val = true) (hp : (s.setPorts a.states).ptpPort port.val = 9) :
    exec (.announce port a) s = .next ((s.setPorts a.states).gmShown a) := by
  change execAnnounce port a s = _
  unfold execAnnounce
  rw [if_neg (by rw [ho]; decide)]
  generalize s.setPorts a.states = u at *
  exact (if_pos hp).trans rfl
theorem execAnnounce_other (ho : s.ptpOn port.val = true) (hp : (s.setPorts a.states).ptpPort port.val ≠ 9) :
    exec (.announce port a) s = .next (s.setPorts a.states) := by
  change execAnnounce port a s = _
  unfold execAnnounce
  rw [if_neg (by rw [ho]; decide)]
  generalize s.setPorts a.states = u at *
  exact if_neg hp
theorem State.gmRegs_reads (s : State) (a : PtpAnnounce) : (s.gmRegs a).reg R.PTP_GM_ID_LO = a.gm.setWidth 32 ∧
    (s.gmRegs a).reg R.PTP_GM_ID_HI = (a.gm >>> 32).setWidth 32 ∧ (s.gmRegs a).reg R.PTP_UTC_OFS_RX = a.utc ∧
    (s.gmRegs a).fld R.PTP_SERVO_STAT 15 8 = a.cls.toNat ∧ (s.gmRegs a).reg R.PTP_PORT_STATE = s.reg R.PTP_PORT_STATE ∧ Shows s (s.gmRegs a) := by
  have hs : Shows s (s.gmRegs a) := .setFld _ _ _ _ (.setRegs _ (.refl s))
  unfold State.gmRegs at *
  simp only [State.setRegs, List.foldl_cons, List.foldl_nil] at *
  refine ⟨?_, ?_, ?_, ?_, ?_, hs⟩
  · rw [State.reg_setFld, if_neg (by decide), State.reg_setReg_ne _ _ (by decide), State.reg_setReg_ne _ _ (by decide), State.reg_setReg_self]
  · rw [State.reg_setFld, if_neg (by decide), State.reg_setReg_ne _ _ (by decide), State.reg_setReg_self]
  · rw [State.reg_setFld, if_neg (by decide), State.reg_setReg_self]
  · rw [State.fld_setFld _ _ _ _ (by decide) (le_refl _)]
    exact Nat.mod_eq_of_lt a.cls.isLt
  · rw [State.reg_setFld, if_neg (by decide), State.reg_setReg_ne _ _ (by decide), State.reg_setReg_ne _ _ (by decide), State.reg_setReg_ne _ _ (by decide)]
theorem State.gmShown_reads (s : State) (a : PtpAnnounce) : (s.gmShown a).reg R.PTP_GM_ID_LO = a.gm.setWidth 32 ∧
    (s.gmShown a).reg R.PTP_GM_ID_HI = (a.gm >>> 32).setWidth 32 ∧ (s.gmShown a).reg R.PTP_UTC_OFS_RX = a.utc ∧
    (s.gmShown a).fld R.PTP_SERVO_STAT 15 8 = a.cls.toNat ∧ (s.gmShown a).ptp.traceGm = a.trace ∧
    (s.gmShown a).reg R.PTP_PORT_STATE = s.reg R.PTP_PORT_STATE ∧ SameMem s (s.gmShown a) := by
  obtain ⟨h1, h2, h3, h4, h5, h6⟩ := s.gmRegs_reads a
  have hm := h6.mem
  unfold State.gmShown
  extract_lets chg p u v
  have hu : RegsBut [R.PTP_SERVO_STAT] (s.gmRegs a) u := .same (.refl _ _) rfl
  have hr : RegsBut [R.PTP_SERVO_STAT] (s.gmRegs a) v := .setFlag _ _ hu (by decide)
  have hf : v.fld R.PTP_SERVO_STAT 15 8 = u.fld R.PTP_SERVO_STAT 15 8 := State.fld_setFlag_ne _ _ _ (by decide) (by decide)
  have hfu : u.fld R.PTP_SERVO_STAT 15 8 = (s.gmRegs a).fld R.PTP_SERVO_STAT 15 8 := rfl
  have ht : v.ptp.traceGm = a.trace := rfl
  have hv : SameMem (s.gmRegs a) v := ((s.gmRegs a).putPtp_mem _).trans (Shows.setFlag _ _ _ (.refl u)).mem
  clear_value v
  have key (w : State) (hw : Shows v w) (hg : w.regs = v.regs) : w.reg R.PTP_GM_ID_LO = a.gm.setWidth 32 ∧ w.reg R.PTP_GM_ID_HI = (a.gm >>> 32).setWidth 32 ∧
      w.reg R.PTP_UTC_OFS_RX = a.utc ∧ w.fld R.PTP_SERVO_STAT 15 8 = a.cls.toNat ∧ w.ptp.traceGm = a.trace ∧
      w.reg R.PTP_PORT_STATE = s.reg R.PTP_PORT_STATE ∧ SameMem s w := by
    have e (b : Nat) : w.reg b = v.reg b := by rw [State.reg, hg, State.reg]
    refine ⟨?_, ?_, ?_, ?_, by rw [hw.ptp, ht], ?_, (hm.trans hv).trans hw.mem⟩
    · rw [e, hr.reg (by decide), h1]
    · rw [e, hr.reg (by decide), h2]
    · rw [e, hr.reg (by decide), h3]
    · rw [State.fld, e]
      exact (hf.trans hfu).trans h4
    · rw [e, hr.reg (by decide), h5]
  split
  · exact key _ (.irq _ _ (.refl v)) (State.irq_regs _ _ _)
  · exact key v (.refl v) rfl

end announce

/-- Settles O46: what a port does on each PTP message and decision. -/
theorem ptpMessages : Obligations.PtpMessages := by
  intro s port g x y incr a d sts
  refine ⟨fun ho hp => ⟨execSync_two ho hp, execSync_one ho hp, execFollowUp_some ho hp, fun he => ⟨execDelayReq_sends ho hp he, execDelayResp_shows ho hp he⟩⟩,
    fun ho hp => ⟨execSyncSend_master ho hp, execAnnounceSend_master ho hp, execDelayReq_answers ho hp⟩,
    fun ho => ⟨execAnnounceReceiptTimeout_on ho, fun he => ⟨execPdelayReq_answers ho he, execPdelayReqSend_sends ho he, execPdelayResp_shows ho he⟩,
      fun hp => ?_, execAnnounce_other ho⟩, fun j hj => State.ptpPort_setPorts hj, rfl,
    fun ho => ⟨execSync_off ho, execSyncSend_off ho, execAnnounce_off ho, execDelayReq_off ho, execPdelayReq_off ho⟩⟩
  have he := execAnnounce_slave ho hp
  obtain ⟨-, hm⟩ := s.setPorts_reads a.states
  obtain ⟨h1, h2, h3, h4, h5, h6, h7⟩ := (s.setPorts a.states).gmShown_reads a
  exact ⟨_, he, h1, h2, h3, h4, h5, h6, hm.trans h7⟩

end Sys2Proof.Machine
end

section
/-! Valve axes: the frames and replies of a drive link, and the commands to an axis (R486 to R515). -/

namespace Sys2Proof.Machine

/-! ### The frame of a link that is not primary -/

section frame
variable {s : State} {n : Fin 8}

/-- What the frame before carried, noted for each enabled axis of a link. -/
def State.sentNoted (s : State) (n : Nat) : State :=
  (List.range 16).foldl (fun s d => let a := 16 * n + d; if s.axEnabled a then s.setAxis a { s.axis a with sentP := (s.axis a).p } else s) s
theorem State.sentNoted_putAxes (s : State) (n : Nat) : ∃ x, s.sentNoted n = s.putAxes x := by
  refine State.foldl_putAxes (fun u d => ?_) _ s
  dsimp only
  split
  · exact ⟨_, rfl⟩
  · exact ⟨u.axes, rfl⟩
theorem State.sentNoted_axis (s : State) (n m : Nat) : ((s.sentNoted n).axis m).p = (s.axis m).p ∧ ((s.sentNoted n).axis m).st = (s.axis m).st := by
  refine List.foldlRecOn (motive := fun u : State => (u.axis m).p = (s.axis m).p ∧ (u.axis m).st = (s.axis m).st) _ _ ⟨rfl, rfl⟩ fun u hu d _ => ?_
  dsimp only
  split
  · rw [State.axis_setAxis]
    split
    next e =>
      rw [e] at hu
      rw [e]
      exact hu
    · exact hu
  · exact hu

/-- The downlink frame of a link that is not primary holds nothing of its axes. -/
theorem State.dlkBytes_putAxes (x : Tab Axis) (k : Nat) (h : s.linkPrimary = false) : (s.putAxes x).dlkBytes k = s.dlkBytes k := by
  have h' : (s.putAxes x).linkPrimary = false := h
  unfold State.dlkBytes
  dsimp only
  rw [h, h']
  simp only [Bool.false_and, Bool.false_eq_true, if_false]
  rfl
/-- A drive link's frame put in place of the one before. -/
def State.putDlk (s : State) (d : Tab Dlk) : State := { s with dlk := d }
/-- The frame sent, and counted. -/
def State.dlkSent (s : State) (n : Nat) (l : Dlk) : State :=
  (s.putDlk (s.dlk.set (fun _ => {}) n { l with frame := s.dlkBytes n })).incReg (R.DLK_FRAMES n)
theorem execDlkFrame_standby (h3 : s.shown (dlkPage n.val) = 3) (hs : (s.dlk.get (fun _ => {}) n.val).silent = false) (hl : s.locked 8 = true)
    (hp : s.pwr.saving = false) (hn : s.linkPrimary = false) : exec (.dlkFrame n) s =
    .next ((s.sentNoted n.val).dlkSent n.val (s.dlk.get (fun _ => {}) n.val)) := by
  change execDlkFrame n s = _
  unfold execDlkFrame
  dsimp only
  rw [if_neg (by rw [h3, hs, hl, hp]; decide)]
  have hn' : (s.sentNoted n.val).linkPrimary = false := by
    obtain ⟨x, hx⟩ := s.sentNoted_putAxes n.val
    rw [hx]
    exact hn
  change Host.Outcome.next ((if ((s.sentNoted n.val).linkPrimary && (s.sentNoted n.val).active (dlkPage n.val)) = true then _ else s.sentNoted n.val).dlkSent
    n.val (s.dlk.get (fun _ => {}) n.val)) = _
  rw [hn', Bool.false_and, if_neg Bool.false_ne_true]
theorem execDlkFrame_none (h : (s.dlk.get (fun _ => {}) n.val).silent = true ∨ s.shown (dlkPage n.val) = 4 ∨ s.locked 8 = false) : exec (.dlkFrame n) s = .next s := by
  change execDlkFrame n s = _
  unfold execDlkFrame
  dsimp only
  rw [if_pos]
  obtain h | h | h := h
  · exact .inr (.inr (.inl h))
  · exact .inr (.inl h)
  · exact .inr (.inr (.inr (.inl (by rw [h]; rfl))))
theorem State.dlkSent_reads (s : State) (n : Nat) (l : Dlk) : (s.dlkSent n l).reg (R.DLK_FRAMES n) = s.reg (R.DLK_FRAMES n) + 1 ∧
    ((s.dlkSent n l).dlk.get (fun _ => {}) n).frame = s.dlkBytes n ∧ (s.dlkSent n l).axes = s.axes ∧ RegsBut [R.DLK_FRAMES n] s (s.dlkSent n l) ∧
    SameMem s (s.dlkSent n l) := by
  unfold State.dlkSent
  generalize s.dlkBytes n = f
  have hd : (s.putDlk (s.dlk.set (fun _ => {}) n { l with frame := f })).dlk = s.dlk.set (fun _ => {}) n { l with frame := f } := rfl
  have hr : RegsBut [R.DLK_FRAMES n] s (s.putDlk (s.dlk.set (fun _ => {}) n { l with frame := f })) := .same (.refl _ s) rfl
  have hv : (s.putDlk (s.dlk.set (fun _ => {}) n { l with frame := f })).reg (R.DLK_FRAMES n) = s.reg (R.DLK_FRAMES n) := rfl
  have ha : (s.putDlk (s.dlk.set (fun _ => {}) n { l with frame := f })).axes = s.axes := rfl
  have hm : SameMem s (s.putDlk (s.dlk.set (fun _ => {}) n { l with frame := f })) := .refl s
  generalize s.putDlk (s.dlk.set (fun _ => {}) n { l with frame := f }) = u at *
  have hs : Shows u (u.incReg (R.DLK_FRAMES n)) := .incReg _ (.refl u)
  refine ⟨by rw [State.incReg, State.reg_setReg_self, hv], ?_, hs.axes.trans ha, .incReg hr (List.mem_singleton_self _), hm.trans hs.mem⟩
  rw [show (u.incReg (R.DLK_FRAMES n)).dlk = u.dlk from rfl, hd, Tab.get_set, if_pos rfl]

end frame

/-! ### Replies -/

section reply
variable {s : State} {n : Fin 8} {d : Fin 16} {b : List Byte}

theorem dlkReply_off (h : s.axEnabled (16 * n.val + d.val) = false ∨ s.locked 8 = false) : s.dlkReply n d b = s := by
  refine if_pos ?_
  obtain h | h := h
  · exact .inr (.inl (by rw [h]; rfl))
  · exact .inr (.inr (by rw [h]; rfl))
/-- A reply counted as missed. -/
def State.replyMissed (s : State) (n a : Nat) : State :=
  (s.setReg (R.DLK_ERRS a) (satIncField (s.reg (R.DLK_ERRS a)) 7 0)).incReg (R.DLK_RX_MISS n)
theorem dlkReply_short (h0 : s.shown (dlkPage n.val) ≠ 0) (hl : s.locked 8 = true) (he : s.axEnabled (16 * n.val + d.val) = true) (hb : b.length ≠ 8) :
    s.dlkReply n d b = s.replyMissed n.val (16 * n.val + d.val) := by
  unfold State.dlkReply
  dsimp only
  rw [if_neg (by rw [hl, he]; simpa using h0), if_pos (.inl hb), State.replyMissed]
theorem replyMissed_reads : (s.replyMissed n.val (16 * n.val + d.val)).reg (R.DLK_RX_MISS n.val) = s.reg (R.DLK_RX_MISS n.val) + 1 ∧
    Shows s (s.replyMissed n.val (16 * n.val + d.val)) ∧
    RegsBut [R.DLK_ERRS (16 * n.val + d.val), R.DLK_RX_MISS n.val] s (s.replyMissed n.val (16 * n.val + d.val)) := by
  refine ⟨?_, .incReg _ (.setReg _ _ (.refl s)), .incReg (.setReg _ (.refl _ s) List.mem_cons_self) (List.mem_cons_of_mem _ List.mem_cons_self)⟩
  have hne : R.DLK_RX_MISS n.val ≠ R.DLK_ERRS (16 * n.val + d.val) := by
    simp only [R.DLK_RX_MISS, R.DLK_ERRS]
    omega
  rw [State.replyMissed, State.incReg, State.reg_setReg_self, State.reg_setReg_ne _ _ hne]

end reply

/-! ### Commands -/

section commands
variable {s : State} {who : Initiator} {a : Nat} {refuse : State → Option Nat} {k : State → State}

theorem axCmd_stopped (hm : MayWrite who R.AXS_CMD s = true) (hr : s.running (dlkPage (a / 16)) = false) : s.axCmd who a refuse k = (s.answer 0).cmdDone a 4 :=
  (s.gate_may _ hm).trans (if_pos (by rw [State.running_answer, hr]; rfl))
theorem axCmd_disabled (hm : MayWrite who R.AXS_CMD s = true) (hr : s.running (dlkPage (a / 16)) = true) (he : s.axEnabled a = false) :
    s.axCmd who a refuse k = (s.answer 0).cmdDone a 2 :=
  (s.gate_may _ hm).trans ((if_neg (by rw [State.running_answer, hr]; decide)).trans (if_pos (by
    rw [show (s.answer 0).axEnabled a = s.axEnabled a from rfl, he]; rfl)))
/-- The command reaches an axis whose link runs and whose driver is enabled. -/
theorem axCmd_reaches (hr : s.running (dlkPage (a / 16)) = true) (he : s.axEnabled a = true) :
    ¬ (!(s.answer 0).running (dlkPage (a / 16))) = true ∧ ¬ (!(s.answer 0).axEnabled a) = true := by
  refine ⟨?_, ?_⟩
  · rw [State.running_answer, hr]
    decide
  · rw [show (s.answer 0).axEnabled a = s.axEnabled a from rfl, he]
    decide
theorem axCmd_refused (hm : MayWrite who R.AXS_CMD s = true) (hr : s.running (dlkPage (a / 16)) = true) (he : s.axEnabled a = true) {r : Nat}
    (h : refuse (s.answer 0) = some r) : s.axCmd who a refuse k = (s.answer 0).cmdDone a r := by
  obtain ⟨g1, g2⟩ := axCmd_reaches hr he
  refine (s.gate_may _ hm).trans ((if_neg g1).trans ((if_neg g2).trans ?_))
  rw [h]
theorem axCmd_done (hm : MayWrite who R.AXS_CMD s = true) (hr : s.running (dlkPage (a / 16)) = true) (he : s.axEnabled a = true)
    (h : refuse (s.answer 0) = none) : s.axCmd who a refuse k = (k (s.answer 0)).cmdDone a 0 := by
  obtain ⟨g1, g2⟩ := axCmd_reaches hr he
  refine (s.gate_may _ hm).trans ((if_neg g1).trans ((if_neg g2).trans ?_))
  rw [h]
theorem State.cmdDone_reads (s : State) (a res : Nat) : (s.cmdDone a res).reg R.AXS_CMD_STAT = wd (res + 256 * a) ∧ Shows s (s.cmdDone a res) ∧
    RegsBut [R.AXS_CMD_STAT] s (s.cmdDone a res) := by
  refine ⟨?_, .irq _ _ (.setReg _ _ (.refl s)), .irq _ _ (.setReg _ (.refl _ s) (by decide))⟩
  rw [State.cmdDone, State.reg_irq, State.reg_setReg_self]

/-- One axis alone differs. -/
structure AxisOnly (a : Nat) (s u : State) : Prop where
  regs : u.regs = s.regs
  mem : SameMem s u
  other : ∀ m, m ≠ a → u.axis m = s.axis m
theorem AxisOnly.answer (s : State) (a : Nat) : AxisOnly a s (s.answer 0) := ⟨rfl, .refl s, fun _ _ => rfl⟩
theorem AxisOnly.setAxis {u : State} (h : AxisOnly a s u) (x : Axis) : AxisOnly a s (u.setAxis a x) :=
  ⟨h.regs, h.mem.trans (.refl u), fun m hm => (State.axis_setAxis _ _ _ _).trans ((if_neg hm).trans (h.other m hm))⟩
theorem State.axis_setAxis_self (s : State) (a : Nat) (x : Axis) : (s.setAxis a x).axis a = x := (State.axis_setAxis _ _ _ _).trans (if_pos rfl)
/-- A command that changes one axis is answered. -/
theorem AxisOnly.done {u : State} (h : AxisOnly a s u) : (u.cmdDone a 0).axis a = u.axis a ∧ (u.cmdDone a 0).reg R.AXS_CMD_STAT = wd (256 * a) ∧
    (∀ m, m ≠ a → (u.cmdDone a 0).axis m = s.axis m) ∧ RegsBut [R.AXS_CMD_STAT] s (u.cmdDone a 0) ∧ SameMem s (u.cmdDone a 0) := by
  obtain ⟨h1, h2, h3⟩ := u.cmdDone_reads a 0
  have hr : RegsBut [R.AXS_CMD_STAT] s u := .same (.refl _ s) h.regs
  have ha (m : Nat) : (u.cmdDone a 0).axis m = u.axis m := State.axis_congr h2.axes m
  exact ⟨ha a, by rw [h1, Nat.zero_add], fun m hm => (ha m).trans (h.other m hm), hr.trans h3, h.mem.trans h2.mem⟩

/-- Where the address of the coils stands after an axis took a position (R492, R504). -/
theorem addrOf_kept (s : State) (a : Nat) (x : Axis) (p : Int) (y : Axis) (hp : y.p = p)
    (ho : y.adrOfs = (((s.addrOf a x : Int) - s.axSign a * p) % 1024).toNat) : s.addrOf a y = s.addrOf a x := by
  have h1 : ((y.adrOfs : Nat) : Int) = ((s.addrOf a x : Int) - s.axSign a * p) % 1024 := by
    rw [ho]
    exact Int.toNat_of_nonneg (Int.emod_nonneg _ (by decide))
  have h2 : s.addrOf a x < 1024 := by
    unfold State.addrOf
    omega
  have h3 : s.addrOf a y = ((s.axSign a * p + y.adrOfs) % 1024).toNat := by rw [State.addrOf, hp]
  rw [h3, h1]
  generalize s.axSign a * p = z
  omega
theorem axAddr_of {u : State} {m : Nat} (hr : u.reg (R.DLK_CFG m) = s.reg (R.DLK_CFG m)) : u.axAddr m = s.addrOf m (u.axis m) := by
  unfold State.axAddr State.addrOf State.axSign State.flag
  rw [hr]

/-- An axis that took a position (R504): P is the target, and the axis stands. -/
def State.assigned (s : State) (a : Nat) (p : Int) : Axis :=
  { s.axis a with p := p, x := p * uStep, adrOfs := (((s.axAddr a : Int) - s.axSign a * p) % 1024).toNat, eRef := (s.axis a).e, pRef := p, sentP := p, target := p,
                  v := 0, braking := false, decel := false, halting := false, rev := false, level := 0, devN := 0 }
theorem State.assignP_axis (s : State) (a : Nat) (p : Int) : (s.assignP a p).axis a = s.assigned a p := State.axis_setAxis_self _ _ _
/-- An axis that took a position, changed once more. -/
theorem AxisOnly.assignP (s : State) (a : Nat) (p : Int) (x : Axis) : AxisOnly a s (((s.answer 0).assignP a p).setAxis a x) :=
  ((AxisOnly.answer s a).setAxis _).setAxis x
/-- The address of the coils stays where an axis takes a position. -/
theorem axAddr_assigned {u : State} {p : Int} (h : RegsBut [R.AXS_CMD_STAT] s u) (hp : (u.axis a).p = p) (ho : (u.axis a).adrOfs = (s.assigned a p).adrOfs) :
    u.axAddr a = s.axAddr a := by
  have hr : u.reg (R.DLK_CFG a) = s.reg (R.DLK_CFG a) := h.reg (by
    simp only [R.DLK_CFG, R.AXS_CMD_STAT, List.mem_singleton]
    omega)
  rw [axAddr_of hr]
  exact addrOf_kept s a (s.axis a) p (u.axis a) hp ho

/-- What SET_POS makes of an axis that took its position, and CLEAR of a stalled one. -/
def Axis.placed (x : Axis) : Axis := if x.st = .unreferenced then { x.rest with referenced := true, st := .standstill } else { x with referenced := true }
def Axis.cleared (x : Axis) : Axis := { x.rest with st := .standstill, referenced := true }
theorem Axis.placed_reads (x : Axis) : x.placed.p = x.p ∧ x.placed.target = x.target ∧ x.placed.referenced = true ∧ x.placed.adrOfs = x.adrOfs := by
  unfold Axis.placed
  split
  · exact ⟨rfl, rfl, rfl, rfl⟩
  · exact ⟨rfl, rfl, rfl, rfl⟩
/-- The reference move of an axis. -/
def State.refMove (s : State) (a : Nat) : Axis :=
  { s.axis a with st := .referencing, pos := s.flag (R.DLK_CFG a) 9, v := s.vStart a, refFrom := (s.axis a).p, devN := 0, level := 0, referenced := false,
                  rebased := false, holding := false }

variable {axis : Fin 128}
theorem execReference_starts (hm : MayWrite who R.AXS_CMD s = true) (hr : s.running (dlkPage (axis.val / 16)) = true) (he : s.axEnabled axis.val = true)
    (hb : s.axBusy axis.val = false) (hf : s.encFs axis.val ≠ 0) (h1 : (s.axis axis.val).st ≠ .stalled) (h2 : (s.axis axis.val).st ≠ .fault) :
    exec (.reference who axis) s = .next (((s.answer 0).setAxis axis.val (s.refMove axis.val)).cmdDone axis.val 0) := by
  refine congrArg Host.Outcome.next ((axCmd_done hm hr he ?_).trans ?_)
  · exact (if_neg (show ¬ s.axBusy axis.val = true by rw [hb]; decide)).trans (if_neg hf)
  · refine congrArg (fun u : State => u.cmdDone axis.val 0) (if_neg ?_)
    rintro (g | g)
    exacts [h1 g, h2 g]
theorem execSetPos_places (hm : MayWrite who R.AXS_CMD s = true) (hr : s.running (dlkPage (axis.val / 16)) = true) (he : s.axEnabled axis.val = true)
    (hb : s.axBusy axis.val = false) : exec (.setPos who axis) s = .next ((((s.answer 0).assignP axis.val (s.reg R.AXS_CMD_ARG).toInt).setAxis axis.val
      (s.assigned axis.val (s.reg R.AXS_CMD_ARG).toInt).placed).cmdDone axis.val 0) := by
  refine congrArg Host.Outcome.next ((axCmd_done hm hr he ?_).trans ?_)
  · exact if_neg (show ¬ s.axBusy axis.val = true by rw [hb]; decide)
  · rw [← show ((s.answer 0).assignP axis.val (s.reg R.AXS_CMD_ARG).toInt).axis axis.val = s.assigned axis.val (s.reg R.AXS_CMD_ARG).toInt from
      State.assignP_axis _ _ _]
    rfl
theorem execClear_stalled (hm : MayWrite who R.AXS_CMD s = true) (hr : s.running (dlkPage (axis.val / 16)) = true) (he : s.axEnabled axis.val = true)
    (h : (s.axis axis.val).st = .stalled) : exec (.clear who axis) s = .next ((((s.answer 0).assignP axis.val ((s.axis axis.val).p + (s.axis axis.val).dev)).setAxis
      axis.val (s.assigned axis.val ((s.axis axis.val).p + (s.axis axis.val).dev)).cleared).cmdDone axis.val 0) := by
  refine congrArg Host.Outcome.next ((axCmd_done hm hr he rfl).trans (congrArg (fun u : State => u.cmdDone axis.val 0) ?_))
  rw [← show ((s.answer 0).assignP axis.val ((s.axis axis.val).p + (s.axis axis.val).dev)).axis axis.val =
    s.assigned axis.val ((s.axis axis.val).p + (s.axis axis.val).dev) from State.assignP_axis _ _ _, State.axis_answer]
  dsimp only
  rw [h]
  rfl
/-- A fault that the newest reply still shows stays. -/
theorem execClear_fault (hm : MayWrite who R.AXS_CMD s = true) (hr : s.running (dlkPage (axis.val / 16)) = true) (he : s.axEnabled axis.val = true)
    (h : (s.axis axis.val).st = .fault) (h0 : (s.axis axis.val).status.getLsbD 0 = true) : exec (.clear who axis) s = .next ((s.answer 0).cmdDone axis.val 0) := by
  refine congrArg Host.Outcome.next ((axCmd_done hm hr he rfl).trans (congrArg (fun u : State => u.cmdDone axis.val 0) ?_))
  rw [State.axis_answer]
  dsimp only
  rw [h]
  exact if_pos h0
theorem execHalt_moving (hm : MayWrite who R.AXS_CMD s = true) (hr : s.running (dlkPage (axis.val / 16)) = true) (he : s.axEnabled axis.val = true)
    (h : (s.axis axis.val).st = .moving) : exec (.halt who axis) s =
    .next (((s.answer 0).setAxis axis.val { s.axis axis.val with halting := true, newTgt := none }).cmdDone axis.val 0) :=
  congrArg Host.Outcome.next ((axCmd_done hm hr he rfl).trans (congrArg (fun u : State => u.cmdDone axis.val 0) (if_pos h)))

end commands

/-- Settles O47: the frames and replies of a drive link, and what each command makes of its axis. -/
theorem driveAxes : Obligations.DriveAxes := by
  intro s who n d axis b a ha
  subst ha
  refine ⟨fun h3 hs hl hp hn => ?_, execDlkFrame_none, fun h0 hl he hb _ => ?_, fun h => congrArg (fun u : State => Host.Outcome.next u.fenceContest) (dlkReply_off h),
    fun hm => ⟨fun hr => ⟨congrArg Host.Outcome.next (axCmd_stopped hm hr), congrArg Host.Outcome.next (axCmd_stopped hm hr),
      congrArg Host.Outcome.next (axCmd_stopped hm hr), congrArg Host.Outcome.next (axCmd_stopped hm hr)⟩,
      fun hr he => ⟨congrArg Host.Outcome.next (axCmd_disabled hm hr he), congrArg Host.Outcome.next (axCmd_disabled hm hr he)⟩,
      fun hr he => ⟨fun hb => ⟨congrArg Host.Outcome.next (axCmd_refused hm hr he (if_pos hb)), congrArg Host.Outcome.next (axCmd_refused hm hr he (if_pos hb))⟩,
        fun hb hf => congrArg Host.Outcome.next (axCmd_refused hm hr he ((if_neg (show ¬ s.axBusy axis.val = true by rw [hb]; decide)).trans (if_pos hf))),
        fun hb hf h1 h2 => ?_, fun hb => ?_, fun hst => ?_, fun hst h0 => ?_, fun hst => ?_⟩⟩,
    fun h => congrArg Host.Outcome.next (if_pos h), fun h => congrArg Host.Outcome.next (if_neg (by rw [h]; decide)), fun he h0 => ⟨?_, ?_⟩, fun he => ⟨?_, ?_⟩⟩
  · obtain ⟨x, hx⟩ := s.sentNoted_putAxes n.val
    have hax := s.sentNoted_axis n.val
    have hg := execDlkFrame_standby h3 hs hl hp hn
    have hy := s.dlkBytes_putAxes x n.val hn
    have hr : (s.putAxes x).regs = s.regs := rfl
    have hm : SameMem s (s.putAxes x) := .refl s
    rw [hx] at hax hg
    generalize s.putAxes x = u at *
    obtain ⟨h1, h2, h4, h5, h6⟩ := u.dlkSent_reads n.val (s.dlk.get (fun _ => {}) n.val)
    refine ⟨_, hg, ?_, by rw [h2, hy], fun m => ?_, (RegsBut.same (.refl _ s) hr).trans h5, hm.trans h6⟩
    · rw [h1, State.reg, hr, State.reg]
    · rw [State.axis_congr h4 m]
      exact hax m
  · obtain ⟨h1, h2, h4⟩ := replyMissed_reads (s := s) (n := n) (d := d)
    exact ⟨_, congrArg (fun u : State => Host.Outcome.next u.fenceContest) (dlkReply_short h0 hl he hb), h1, h2.axes, h4, h2.mem⟩
  · obtain ⟨g1, g2, g3, g4, g5⟩ := ((AxisOnly.answer s axis.val).setAxis (s.refMove axis.val)).done
    rw [State.axis_setAxis_self] at g1
    exact ⟨_, execReference_starts hm hr he hb hf h1 h2, by rw [g1]; rfl, by rw [g1]; rfl, by rw [g1]; rfl, by rw [g1]; rfl, g2, g3, g4, g5⟩
  · obtain ⟨g1, -, g3, g4, g5⟩ := (AxisOnly.assignP s axis.val (s.reg R.AXS_CMD_ARG).toInt (s.assigned axis.val (s.reg R.AXS_CMD_ARG).toInt).placed).done
    rw [State.axis_setAxis_self] at g1
    obtain ⟨p1, p2, p3, p4⟩ := (s.assigned axis.val (s.reg R.AXS_CMD_ARG).toInt).placed_reads
    exact ⟨_, execSetPos_places hm hr he hb, by rw [g1, p1]; rfl, by rw [g1, p1, p2]; rfl, by rw [g1, p3], axAddr_assigned (p := (s.reg R.AXS_CMD_ARG).toInt) g4
      (by rw [g1, p1]; rfl) (by rw [g1, p4]), g3, g4, g5⟩
  · obtain ⟨g1, g2, g3, g4, g5⟩ := (AxisOnly.assignP s axis.val ((s.axis axis.val).p + (s.axis axis.val).dev)
      (s.assigned axis.val ((s.axis axis.val).p + (s.axis axis.val).dev)).cleared).done
    rw [State.axis_setAxis_self] at g1
    exact ⟨_, execClear_stalled hm hr he hst, by rw [g1]; rfl, by rw [g1]; rfl, axAddr_assigned (p := (s.axis axis.val).p + (s.axis axis.val).dev) g4
      (by rw [g1]; rfl) (by rw [g1]; rfl), g2, g5⟩
  · obtain ⟨-, g2, -⟩ := (s.answer 0).cmdDone_reads axis.val 0
    have hm' : SameMem s (s.answer 0) := .refl s
    exact ⟨_, execClear_fault hm hr he hst h0, g2.axes, hm'.trans g2.mem⟩
  · obtain ⟨g1, -, g3, g4, g5⟩ := ((AxisOnly.answer s axis.val).setAxis { s.axis axis.val with halting := true, newTgt := none }).done
    exact ⟨_, execHalt_moving hm hr he hst, g1.trans (State.axis_setAxis_self _ _ _), g3, g4, g5⟩
  · exact congrArg Host.Outcome.next (if_pos (by rw [he]; simpa using h0))
  · exact congrArg Host.Outcome.next (if_pos (by rw [he]; simpa using h0))
  · exact congrArg Host.Outcome.next (if_neg (by rw [he]; exact Bool.false_ne_true))
  · exact congrArg Host.Outcome.next (if_neg (by rw [he]; exact Bool.false_ne_true))

end Sys2Proof.Machine
end
